-- ==== Sys2Proof/Word.lean ====
section
/-! DEFINITION. The word types of the package: bytes, 32-bit register words and 64-bit words (R13, R481). -/
namespace Sys2Proof

/-- One byte of memory, of a frame or of an image. -/
abbrev Byte := BitVec 8

/-- One register word (R481), also the raw bits of an FP32 number (R39). -/
abbrev Word := BitVec 32

/-- A 64-bit counter or mask. -/
abbrev DWord := BitVec 64

end Sys2Proof
end

