-- ==== Sys2Proof/Syntax.lean ====
section
/-! DEFINITION. The commands of the package: one constructor of `Instr` per row of opcode_table.json, with the
operands the spec gives the row. Identifiers, counts, addresses and beat numbers are natural numbers whose ranges
`wellFormed` checks; FP32 operands are raw bits. -/
namespace Sys2Proof

/-- The session, source and header fields a host command carries (R346, R348). `src` names the source address and
UDP port, `port` the Ethernet port it arrived on (R340, R352). -/
structure Hdr where
  session : Nat
  src : Nat
  port : Nat
  tag : Nat
  cflags : Nat
  sorus : Nat
  deriving DecidableEq, Repr

/-- HELLO parameters (R363). -/
structure HelloP where
  minMajor : Nat
  minMinor : Nat
  maxMajor : Nat
  maxMinor : Nat
  mtu : Nat
  idle : Nat
  features : Nat
  deriving DecidableEq, Repr

/-- What the SPDM standard makes of the request message of a SESSION_OPEN with PHASE 0 (R353, R465): a failed
step, an intermediate response, or the FINISH that opens a session, with the leaf-key principal and the roles of the
requester's certificate (R465). -/
inductive SpdmStep where
  | failed
  | answer (response : List Byte)
  | finish (session principal roles : Nat) (response : List Byte)
  deriving DecidableEq, Repr, Inhabited

/-- One queue-pair entry of SESSION_OPEN PHASE 1 (R363). -/
structure QpEntry where
  qpn : Nat
  port : Nat
  psn : Nat
  pmtu : Nat
  deriving DecidableEq, Repr

/-- Where bytes lie: a RoCE window, an offset in it and a length (R345, R362). -/
structure WinRef where
  window : Nat
  offset : Nat
  bytes : Nat
  deriving DecidableEq, Repr

/-- REQ_SUBMIT parameters (R210, R365). -/
structure SubmitP where
  modelId : Nat
  variant : Nat
  flags : Nat
  promptLen : Nat
  maxNew : Nat
  temperature : Word
  topK : Nat
  topP : Word
  minP : Word
  stream : Nat
  seed : Nat
  deadline : Nat
  pauseTtl : Nat
  scoreFrom : Nat
  logpBasis : Nat
  topN : Nat
  stops : List Nat
  window : Nat
  windowOffset : Nat
  tokens : List Nat
  deriving DecidableEq, Repr

/-- VARIANT_DEFINE parameters (R364). -/
structure VariantP where
  modelId : Nat
  variant : Nat
  slots : Nat
  window : Nat
  entries : Nat
  offset : Nat
  deriving DecidableEq, Repr

/-- LAUNCH parameters (R366). -/
structure LaunchP where
  program : Nat
  ctx : Nat
  queue : Nat
  iteration : Nat
  epoch : Nat
  modelId : Nat
  commitBeat : Nat
  addr : List Nat
  handles : List Nat
  deriving DecidableEq, Repr

/-- CTX_CREATE parameters (R366). -/
structure CtxP where
  job : Nat
  wdog : Nat
  roundKey : Nat
  members : Nat
  deriving DecidableEq, Repr

/-- ALLOC parameters (R367). -/
structure AllocP where
  account : Nat
  kind : Nat
  rights : Nat
  plan : Nat
  bytes : Nat
  modelId : Nat
  stripeBase : Nat
  members : Nat
  deriving DecidableEq, Repr

/-- COPY parameters (R367). -/
structure CopyP where
  ctx : Nat
  src : Nat
  dst : Nat
  srcOffset : Nat
  dstOffset : Nat
  bytes : Nat
  deriving DecidableEq, Repr

/-- Who sends a SORUS_PREPARE: the coordinator over the fabric, or a host, which R378 denies. -/
inductive PrepSource where
  | fabric
  | host (h : Hdr)
  deriving DecidableEq, Repr

/-- A frame entry as it lies in the payload (R347, R348). -/
structure RawEntry where
  opcode : Nat
  cflags : Nat
  tag : Nat
  plen : Nat
  sorus : Nat
  reservedSet : Bool
  overruns : Bool
  body : List Byte
  deriving DecidableEq, Repr

/-- An arriving Ialux frame (R346): header fields, the outcome of the GCM tag check (R350), whether PAYLOAD_BYTES
agrees with the UDP length, and the decrypted entries. -/
structure Frame where
  src : Nat
  port : Nat
  magic : Nat
  verMajor : Nat
  verMinor : Nat
  session : Nat
  seq : Nat
  ack : Nat
  ackMap : Nat
  ackOnly : Bool
  lengthOk : Bool
  tagOk : Bool
  macsecOk : Bool
  entries : List RawEntry
  deriving DecidableEq, Repr

/-- A RoCEv2 packet (R344): the operation, its window, key, offset and bytes. -/
structure RdmaP where
  qpn : Nat
  isWrite : Bool
  window : Nat
  rKey : Nat
  offset : Nat
  ecnMarked : Bool
  data : List Byte
  deriving DecidableEq, Repr

/-- What the programs of a serving step give V_SAMPLE for one row of a sequence (R114, R221): the candidates in candidate order,
each with its token and raw logit, the two statistics of the row, and the raw logit of the token that a scored prompt holds at the
next slot (R223). Log 120: DESIGN CHOICE. -/
structure RowOut where
  cands : List (Nat × Word)
  lseT : Word
  lse1 : Word
  own : Word
  deriving DecidableEq, Repr

/-- The sampled rows of a step for one request (R221, R223, R224): of a decode step the root and then its drafts, of a scored prompt
the slots before each scored one, of another prefill the last slot. Log 120: DESIGN CHOICE. -/
structure StepOut where
  request : Nat
  rows : List RowOut
  deriving DecidableEq, Repr

/-- What Limcel changes as policy at a beat (R173, R190, R205): a replica of an expert enters or leaves an instance table, with the
bytes of its tiles where it is this package's; a layer's capacity factor; a cached prefix of one request that another reuses: entries of
the donor's page table from `first` on, and the rotary position that the first of them takes; a handle of Limcel's own in context 0
(R382), onto a new region or onto one at a given address; the end of such a handle; what Limcel writes through one (R167); and
queues that Limcel holds and resumes (R393). Logs 48, 108: DESIGN CHOICE. -/
inductive Policy where
  | replicaIn (model layer expert pkg lslot : Nat) (tiles : List (Nat × List Byte))
  | replicaOut (model layer expert pkg lslot : Nat)
  | capacity (model layer cfQ8 : Nat)
  | reuse (request donor first count posBase : Nat)
  | ownHandle (kind rights tier bytes : Nat) (at_ : Option Nat) (modelId plan : Nat)
  | dropHandle (handle : Nat)
  | fill (handle offset : Nat) (data : List Byte)
  | hold (ctx queue : Nat)
  | release (ctx queue : Nat)
  deriving DecidableEq, Repr

/-- What the package samples at a beat edge (R37 phase 1, R408, R415): the hottest sensor of each of the seven dies
in degrees Celsius, the unscaled estimate of the beat in milliwatts, what the steps committing at this beat
computed, and what Limcel's policy changes. Log 108: DESIGN CHOICE. -/
structure BeatInput where
  temps : List Int
  estimate : Nat
  outs : List (Nat × List StepOut)
  policy : List Policy
  deriving DecidableEq, Repr

/-- The running command and the station or Front list, as a 12-bit code (R8, R129), where a descriptor runs. -/
structure Place where
  cmd : Nat
  code : Nat
  deriving DecidableEq, Repr

/-- HINT fields (R151). -/
structure HintF where
  cls : Nat
  scope : Nat
  ahead : Nat
  span : Nat
  load : Nat
  deriving DecidableEq, Repr

/-- S_FETCH and S_STORE fields (R139). -/
structure XferF where
  channel : Nat
  cache : Bool
  handle : Nat
  tiles : Nat
  offset : Nat
  stride : Nat
  deriving DecidableEq, Repr

/-- F_LOAD fields (R88). -/
structure FLoadF where
  fromHold : Bool
  format : Nat
  partner : Nat
  arrange : Nat
  sets : Nat
  retain : Bool
  holdBase : Nat
  kBase : Nat
  kCount : Nat
  deriving DecidableEq, Repr

/-- F_MMA fields (R89). -/
structure FMmaF where
  fromHold : Bool
  format : Nat
  transposed : Bool
  bank : Nat
  init : Nat
  retain : Bool
  holdBase : Nat
  rows : Nat
  tileKBase : Nat
  deriving DecidableEq, Repr

/-- The conversion fields shared by drains and Crozier operations (R90, R101). -/
structure ConvF where
  format : Nat
  stochastic : Bool
  tensorId : Nat
  iteration : Nat
  rowBase : Nat
  colBase : Nat
  extra : Word
  deriving DecidableEq, Repr

/-- F_DRAIN fields (R90). -/
structure FDrainF where
  bank : Nat
  transposeOut : Bool
  conv : ConvF
  deriving DecidableEq, Repr

/-- F_HAD fields (R91). -/
structure FHadF where
  fromHold : Bool
  formatA : Nat
  formatB : Nat
  holdBase : Nat
  tiles : Nat
  conv : ConvF
  deriving DecidableEq, Repr

/-- V_EWISE fields (R102). -/
structure EwiseF where
  func : Nat
  formatA : Nat
  formatB : Nat
  bcastB : Bool
  tiles : Nat
  c0 : Word
  c1 : Word
  conv : ConvF
  deriving DecidableEq, Repr

/-- V_SOFTMAX fields (R104). -/
structure SoftmaxF where
  stats : Bool
  format : Nat
  dual : Bool
  scaleSrc : Bool
  statsOut : Bool
  rowLen : Nat
  scale : Word
  rowGroups : Nat
  conv : ConvF
  deriving DecidableEq, Repr

/-- V_NORM fields (R106). -/
structure NormF where
  layer : Bool
  format : Nat
  gain : Bool
  bias : Bool
  statsOut : Bool
  gbFormat : Nat
  rowLen : Nat
  eps : Word
  rowGroups : Nat
  conv : ConvF
  deriving DecidableEq, Repr

/-- V_ROPE fields (R108). -/
structure RopeF where
  half : Bool
  format : Nat
  posMode : Nat
  inverse : Bool
  headDim : Nat
  rotDim : Nat
  base : Word
  posBase : Nat
  freqScale : Word
  tiles : Nat
  conv : ConvF
  deriving DecidableEq, Repr

/-- V_CONVERT fields (R109). -/
structure ConvertF where
  inFormat : Nat
  rowFactor : Bool
  tiles : Nat
  factor : Word
  conv : ConvF
  deriving DecidableEq, Repr

/-- V_COMBINE fields (R111). -/
structure CombineF where
  format : Nat
  topk : Nat
  residual : Bool
  gen : Nat
  rows : Nat
  rowLen : Nat
  conv : ConvF
  deriving DecidableEq, Repr

/-- V_OPT fields (R113). -/
structure OptF where
  mFormat : Nat
  vFormat : Nat
  wFormat : Nat
  gFormat : Nat
  beta1 : Word
  beta2 : Word
  stepLr : Word
  eps : Word
  decay : Word
  conv : ConvF
  deriving DecidableEq, Repr

/-- V_SAMPLE fields (R116). -/
structure SampleF where
  logpBasis : Nat
  topN : Nat
  kCand : Nat
  rowGroups : Nat
  deriving DecidableEq, Repr

/-- G_TOPK fields (R118). -/
structure TopkF where
  format : Nat
  paired : Bool
  k : Nat
  rowLen : Nat
  indexBase : Nat
  rowGroups : Nat
  deriving DecidableEq, Repr

/-- G_COUNT fields (R119). -/
structure CountF where
  slots : Nat
  map : Bool
  bins : Nat
  rows : Nat
  holdBase : Nat
  deriving DecidableEq, Repr

/-- G_SCAN fields (R120). -/
structure ScanF where
  bins : Nat
  align64 : Bool
  retain : Bool
  cap : Nat
  holdBase : Nat
  deriving DecidableEq, Repr

/-- G_SORT fields (R122). -/
structure SortF where
  slots : Nat
  map : Bool
  toMemory : Bool
  bins : Nat
  rows : Nat
  cap : Nat
  offsetBase : Nat
  mapBase : Nat
  destBase : Nat
  deriving DecidableEq, Repr

/-- G_SCATTER and G_GATHER fields (R123). -/
structure MoveF where
  rowBytes : Nat
  offset : Nat
  scaleDelta : Int
  scaleBytes : Nat
  scaleSlot : Nat
  format : Nat
  tiles : Nat
  kExtent : Nat
  deriving DecidableEq, Repr

/-- T_MOVE and T_FILL fields (R283). -/
structure TMoveF where
  src : Nat
  dst : Nat
  pattern : Nat
  srcOffset : Nat
  dstOffset : Nat
  bytes : Nat
  deriving DecidableEq, Repr

/-- The ORDER byte of a Zephyr descriptor (R322). -/
structure ZOrder where
  release : Bool
  acquire : Bool
  deriving DecidableEq, Repr

/-- Z_COPY fields (R332). -/
structure ZCopyF where
  order : ZOrder
  get : Bool
  handle : Nat
  aslot : Nat
  counter : Option Nat
  localOffset : Nat
  remote : Nat
  bytes : Nat
  inc : Nat
  deriving DecidableEq, Repr

/-- Z_WAIT fields (R332). -/
structure ZWaitF where
  order : ZOrder
  counter : Nat
  value : Nat
  deriving DecidableEq, Repr

/-- Z_ATOMIC fields (R332). -/
structure ZAtomicF where
  order : ZOrder
  src : Nat
  dst : Nat
  count : Nat
  srcOffset : Nat
  dstOffset : Nat
  deriving DecidableEq, Repr

/-- Z_INVAL fields (R332). -/
structure ZInvalF where
  order : ZOrder
  jobScope : Bool
  aslot : Nat
  addr : Nat
  bytes : Nat
  deriving DecidableEq, Repr

/-- Z_REDUCE fields (R333). -/
structure ZReduceF where
  order : ZOrder
  max : Bool
  arrival : Bool
  inFormat : Nat
  outFormat : Nat
  src : Nat
  dst : Nat
  first : Nat
  step : Nat
  count : Nat
  elements : Nat
  srcOffset : Nat
  dstOffset : Nat
  deriving DecidableEq, Repr

/-- Z_XCHG fields (R334). -/
structure ZXchgF where
  order : ZOrder
  role : Nat
  half : Nat
  model : Nat
  layer : Nat
  pieces : Nat
  buf : Nat
  ret : Nat
  lslot : Nat
  round : Nat
  pieceStride : Nat
  countOffset : Nat
  bufOffset : Nat
  deriving DecidableEq, Repr

/-- Z_TXN fields (R336). -/
structure ZTxnF where
  order : ZOrder
  src : Nat
  res : Nat
  aslot : Nat
  count : Nat
  srcOffset : Nat
  resOffset : Nat
  beat : Nat
  deriving DecidableEq, Repr

/-- The body of a descriptor (R136). -/
inductive DBody where
  | sSync
  | sBeat (absolute : Bool) (beat : Nat)
  | hint (f : HintF)
  | sFetch (f : XferF)
  | sStore (f : XferF)
  | fLoad (f : FLoadF)
  | fMma (f : FMmaF)
  | fDrain (f : FDrainF)
  | fHad (f : FHadF)
  | vEwise (f : EwiseF)
  | vSoftmax (f : SoftmaxF)
  | vNorm (f : NormF)
  | vRope (f : RopeF)
  | vConvert (f : ConvertF)
  | vCombine (f : CombineF)
  | vOpt (f : OptF)
  | vSample (f : SampleF)
  | gTopk (f : TopkF)
  | gCount (f : CountF)
  | gScan (f : ScanF)
  | gSort (f : SortF)
  | gScatter (f : MoveF)
  | gGather (f : MoveF)
  | tMove (f : TMoveF)
  | tFill (f : TMoveF)
  | zCopy (f : ZCopyF)
  | zWait (f : ZWaitF)
  | zAtomic (f : ZAtomicF)
  | zInval (f : ZInvalF)
  | zReduce (f : ZReduceF)
  | zXchg (f : ZXchgF)
  | zTxn (f : ZTxnF)
  deriving DecidableEq, Repr

/-- A descriptor: the common header of R134 and its body. -/
structure Desc where
  signal : Bool
  wait : Bool
  event : Nat
  waitValue : Nat
  seq : Nat
  mark : Nat
  body : DBody
  deriving DecidableEq, Repr

/-- One member's contribution to a Z_REDUCE, raw bytes in IN_FORMAT (R333). -/
structure Contribution where
  pkg : Nat
  limited : Bool
  data : List Byte
  deriving DecidableEq, Repr

/-- The kinds of access that reach a home (R316, R319, R324): a load, a store, an atomic, a staged transaction,
and the invalidation of a range that the remote-read cache there removes (R328). -/
inductive AccessKind where
  | load (bytes : Nat)
  | store (data : List Byte)
  | atomic (op : Nat) (operand compare : Nat)
  | txn (commitBeat : Nat) (entries : List Byte)
  | inval (bytes : Nat)
  deriving DecidableEq, Repr

/-- A request that reaches its home (R317, R319): its source package, agent code and job, its sequence number in
the (agent, home) pair, the ten low bits of its issue beat, the address and what it does. -/
structure FabReq where
  pkg : Nat
  agent : Nat
  job : Nat
  ctx : Nat
  seq : Nat
  issueLow : Nat
  limited : Bool
  addr : Nat
  kind : AccessKind
  deriving DecidableEq, Repr

/-- A response or acknowledgement that reaches this package as the source (R321, R326). -/
structure FabResp where
  access : Nat
  ok : Bool
  cacheable : Bool
  limited : Bool
  data : List Byte
  deriving DecidableEq, Repr

/-- A count record of an exchange (R197): for each local expert slot and round, the rows that will arrive. -/
structure CountRec where
  pkg : Nat
  job : Nat
  model : Nat
  layer : Nat
  half : Nat
  gen : Nat
  limited : Bool
  counts : List (Nat × Nat × Nat)
  deriving DecidableEq, Repr

/-- One column piece of an exchange row that arrives, for a receive window or for a return window (R197 to R201). -/
structure XRow where
  pkg : Nat
  job : Nat
  model : Nat
  layer : Nat
  half : Nat
  toReturn : Bool
  lslot : Nat
  round : Nat
  position : Nat
  piece : Nat
  pieces : Nat
  format : Nat
  kExtent : Nat
  tag : Word
  data : List Byte
  scales : List Byte
  limited : Bool
  deriving DecidableEq, Repr

/-- The identity record of R296. -/
structure IdentRec where
  recordTag : Nat
  pkg : Nat
  port : Nat
  verMin : Nat
  verMax : Nat
  deriving DecidableEq, Repr

/-- A unit that can be taken out of service (R426). Log 140: DEDUCED. -/
inductive HwUnit where
  | station (die letter num : Nat)
  | pc (n : Nat)
  | lpch (n : Nat)
  | fabLane (port lane : Nat)
  | bridgeLane (link lane : Nat)
  | eth (n : Nat)
  | pair (n : Nat)
  deriving DecidableEq, Repr

/-- The findings of R519. -/
inductive Finding where
  | residue
  | datapathParity
  | descriptorParity
  | secdedCorrectable
  | secdedUncorrectable
  | memTransient
  | memHard
  | memUncorrectable
  | fecUncorrectable
  | symbolErrorMs
  | laneCrc
  | linkLoss
  | signalLoss
  | laneStuck
  | lockstep
  deriving DecidableEq, Repr

/-- What a scrubbing or verifying pass found of one region: its address and the two hash comparisons (R255, R256). -/
structure ScrubFinding where
  addr : Nat
  firstOk : Bool
  secondOk : Bool
  deriving DecidableEq, Repr

/-- A regulator readback of one rail: millivolts and milliamperes (R407). Log 108: DESIGN CHOICE. -/
structure RailSample where
  rail : Nat
  millivolts : Nat
  milliamps : Nat
  deriving DecidableEq, Repr

/-- What the 1 ms reconciliation compares (R409, R421, R422): estimate and measurement of each of the rail groups in
microjoules, the estimate of each partition, the shares of the queues, each with its queue and its rail group, and the
three plausibility tests. Logs 33, 108: DESIGN CHOICE. -/
structure Reconcile where
  estimate : List Nat
  measured : List Nat
  partition : List Nat
  queues : List (Nat × Nat × Nat)
  phaseOk : Bool
  rangeOk : Bool
  stuckOk : Bool
  deriving DecidableEq, Repr

/-- The outcome of a start stage (R458 to R461, R467). Log 108: DESIGN CHOICE. -/
inductive StageResult where
  | ok
  | failed (code : Nat)
  deriving DecidableEq, Repr

/-- What a completed start stage found (R458, R459): the outcome, whether the image in the pointed slot failed R455 so that
the other slot runs, the units whose self-test or bring-up test failed, whether the retention directory matches its digest
(R288), the LPDDR density in GB per channel, the idle power in milliwatts. -/
structure StageInput where
  result : StageResult
  fallback : Bool
  failedUnits : List HwUnit
  directoryOk : Bool
  lpDensity : Nat
  pIdle : Nat
  deriving DecidableEq, Repr

/-- A Neighbor Discovery or ARP query (R339). -/
structure NdQuery where
  port : Nat
  ipv6 : Bool
  target : Nat
  deriving DecidableEq, Repr

/-- The instructions of the test port (R510). -/
inductive JtagOp where
  | bypass
  | idcode
  | samplePreload
  | extest
  | clamp
  | highz
  deriving DecidableEq, Repr

/-- A draft token of a tree (R168, R224): its token and the drafts that are its ancestors or itself, as bits. -/
structure Draft where
  token : Nat
  ancestors : Nat
  deriving DecidableEq, Repr

/-- One request of a serving step's plan (R180): the request, the slots a prefill step carries, whether this is the
last chunk. -/
structure PlanItem where
  request : Nat
  slots : Nat
  last : Bool
  drafts : List Draft
  deriving DecidableEq, Repr

/-- A serving step launched by Limcel (R180, R230): decode or prefill, the model, the epoch of its track (none for
the follow track), the program and the plan. -/
structure StepLaunchP where
  decode : Bool
  modelId : Nat
  fixedEpoch : Option Nat
  program : Nat
  queue : Nat
  handles : List Nat
  plan : List PlanItem
  deriving DecidableEq, Repr

/-- A packet in transit (R306, R307): the virtual channel on which it arrived, its source and destination, its byte address, its
length and the low bits of the beat in which it was issued. Log 81: DESIGN CHOICE. -/
structure TransitP where
  channel : Nat
  src : Nat
  dest : Nat
  addr : Nat
  bytes : Nat
  issueLow : Nat
  deriving DecidableEq, Repr

/-- What an arrival at a broadcast carries beside itself (R312): the root, the length, the address of the data at this package, and a
piece of 64 KiB by its place, when one has come. -/
structure BcastPart where
  root : Nat
  bytes : Nat
  base : Nat
  piece : Option (Nat × List Byte)
  deriving DecidableEq, Repr

/-- What an arrival says beside its operation and the members: the arrivals that a collector has merged, and its part of a broadcast
(R310, R312). -/
structure ArrivalP where
  merged : List Nat
  part : Option BcastPart
  deriving DecidableEq, Repr

/-- A command of the package: one constructor per row of opcode_table.json, in the table's order. Log 110: DESIGN CHOICE. -/
inductive Instr where
  /-- HELLO (R352). -/
  | hello (h : Hdr) (p : HelloP)
  /-- SESSION_OPEN (R353). -/
  | sessionOpen (h : Hdr) (phase : Nat) (spdm : SpdmStep) (qps : List QpEntry)
  /-- SESSION_CLOSE (R354). -/
  | sessionClose (h : Hdr)
  /-- KEEPALIVE (R363). -/
  | keepalive (h : Hdr)
  /-- CAPS_QUERY (R363). -/
  | capsQuery (h : Hdr)
  /-- MODEL_DECLARE (R243). -/
  | modelDeclare (h : Hdr) (w : WinRef) (shardTimeout : Nat) (sigOk : Bool)
  /-- MODEL_WITHDRAW (R244). -/
  | modelWithdraw (h : Hdr) (modelId : Nat)
  /-- SHARD_PUSH (R245). -/
  | shardPush (h : Hdr) (modelId : Nat) (shard : Nat) (window : Nat) (offset : Nat)
  /-- SHARD_STATUS (R249). -/
  | shardStatus (h : Hdr) (modelId : Nat) (first : Nat) (count : Nat)
  /-- MODEL_ACTIVATE (R251). -/
  | modelActivate (h : Hdr) (modelId : Nat) (kCand : Nat) (kvPagesets : Nat)
  /-- EPOCH_PUBLISH (R260). -/
  | epochPublish (h : Hdr) (modelId : Nat) (epoch : Nat) (table : Nat)
  /-- EPOCH_RETIRE (R262). -/
  | epochRetire (h : Hdr) (modelId : Nat) (epoch : Nat)
  /-- ADAPTER_LOAD (R263). -/
  | adapterLoad (h : Hdr) (modelId : Nat) (slot : Nat) (w : WinRef) (shardTimeout : Nat) (sigOk : Bool)
  /-- ADAPTER_REPLACE (R264). -/
  | adapterReplace (h : Hdr) (modelId : Nat) (slot : Nat)
  /-- ADAPTER_UNLOAD (R265). -/
  | adapterUnload (h : Hdr) (modelId : Nat) (slot : Nat)
  /-- VARIANT_DEFINE (R207). -/
  | variantDefine (h : Hdr) (p : VariantP)
  /-- REQ_SUBMIT (R210). -/
  | reqSubmit (h : Hdr) (p : SubmitP)
  /-- REQ_CANCEL (R218). -/
  | reqCancel (h : Hdr) (request : Nat)
  /-- REQ_PAUSE (R227). -/
  | reqPause (h : Hdr) (request : Nat)
  /-- REQ_RESUME (R229). -/
  | reqResume (h : Hdr) (request : Nat)
  /-- REQ_QUERY (R212). -/
  | reqQuery (h : Hdr) (request : Nat)
  /-- PROG_LOAD (R132). -/
  | progLoad (h : Hdr) (w : WinRef)
  /-- PROG_UNLOAD (R133). -/
  | progUnload (h : Hdr) (program : Nat)
  /-- LAUNCH (R144). -/
  | launch (h : Hdr) (p : LaunchP)
  /-- QUEUE_CREATE (R384). -/
  | queueCreate (h : Hdr) (ctx : Nat) (cls : Nat) (priority : Nat)
  /-- QUEUE_DESTROY (R386). -/
  | queueDestroy (h : Hdr) (ctx : Nat) (queue : Nat)
  /-- CTX_CREATE (R382). -/
  | ctxCreate (h : Hdr) (p : CtxP)
  /-- CTX_DESTROY (R397). -/
  | ctxDestroy (h : Hdr) (ctx : Nat)
  /-- PREEMPT (R390). -/
  | preempt (h : Hdr) (ctx : Nat) (queue : Nat) (beat : Nat)
  /-- PREEMPT_RESUME (R391). -/
  | preemptResume (h : Hdr) (ctx : Nat) (queue : Nat) (beat : Nat)
  /-- POOL_CREATE (R277). -/
  | poolCreate (h : Hdr) (ctx : Nat) (tier : Nat) (reserve : Nat) (limit : Nat)
  /-- ALLOC (R278). -/
  | alloc (h : Hdr) (p : AllocP)
  /-- FREE (R280). -/
  | free (h : Hdr) (handle : Nat)
  /-- COPY (R284). -/
  | copy (h : Hdr) (p : CopyP)
  /-- TIER_MOVE (R284). -/
  | tierMove (h : Hdr) (handle : Nat) (tier : Nat)
  /-- TOPO_QUERY (R368). -/
  | topoQuery (h : Hdr)
  /-- PLAN_LOAD (R300). -/
  | planLoad (h : Hdr) (w : WinRef) (sigOk : Bool)
  /-- LINK_CTL_QUERY (R305). -/
  | linkCtlQuery (h : Hdr) (port : Nat)
  /-- LINK_CTL_DISABLE (R305). -/
  | linkCtlDisable (h : Hdr) (port : Nat)
  /-- LINK_CTL_ENABLE (R305). -/
  | linkCtlEnable (h : Hdr) (port : Nat)
  /-- LINK_CTL_RETRAIN (R305). -/
  | linkCtlRetrain (h : Hdr) (port : Nat) (beat : Nat)
  /-- BARRIER (R310). -/
  | barrier (h : Hdr) (id : Nat) (timeout : Nat) (members : Nat)
  /-- SNAPSHOT_AT (R313). -/
  | snapshotAt (h : Hdr) (beat : Nat) (ctx : Nat) (pairs : List (Nat × Nat))
  /-- BEAT_SET (R470). -/
  | beatSet (h : Hdr) (second : Nat)
  /-- CAP_SET (R417). -/
  | capSet (h : Hdr) (watts : Nat) (beat : Nat)
  /-- CAP_QUERY (R369). -/
  | capQuery (h : Hdr)
  /-- ENERGY_READ (R422). -/
  | energyRead (h : Hdr) (kind : Nat) (first : Nat) (count : Nat)
  /-- HEALTH_QUERY (R440). -/
  | healthQuery (h : Hdr)
  /-- RIME_FREEZE (R448). -/
  | rimeFreeze (h : Hdr)
  /-- RIME_READ (R449). -/
  | rimeRead (h : Hdr) (area : Nat) (first : Nat) (maxBytes : Nat)
  /-- RIME_THAW (R448). -/
  | rimeThaw (h : Hdr)
  /-- RIME_CLEAR (R450). -/
  | rimeClear (h : Hdr)
  /-- REG_READ (R371). -/
  | regRead (h : Hdr) (offset : Nat) (count : Nat)
  /-- REG_WRITE (R483). -/
  | regWrite (h : Hdr) (offset : Nat) (value : Word) (mask : Word)
  /-- SORUS_OPEN (R374). -/
  | sorusOpen (h : Hdr) (sorus : Nat) (members : Nat)
  /-- SORUS_COMMIT (R377). -/
  | sorusCommit (h : Hdr) (sorus : Nat) (mode : Nat) (beat : Nat)
  /-- SORUS_ABORT (R376). -/
  | sorusAbort (h : Hdr) (sorus : Nat)
  /-- SORUS_PREPARE (R378). -/
  | sorusPrepare (src : PrepSource) (sorus : Nat) (coord : Nat) (commitBeat : Nat)
  /-- FW_STAGE (R473). -/
  | fwStage (h : Hdr) (w : WinRef) (sigOk : Bool)
  /-- FW_ACTIVATE (R474). -/
  | fwActivate (h : Hdr) (beat : Nat)
  /-- ATTEST (R464). -/
  | attest (h : Hdr) (message : List Byte)
  /-- CERT_READ (R463). -/
  | certRead (h : Hdr) (slot : Nat) (offset : Nat) (length : Nat)
  /-- RESET_STATIONS (R314). -/
  | resetStations (h : Hdr) (ctxs : List Nat)
  /-- RESET_WARM (R466). -/
  | resetWarm (h : Hdr)
  /-- FRAME_RECEIVE (R355). -/
  | frameReceive (f : Frame)
  /-- RETRANSMIT (R357). -/
  | retransmit (session : Nat) (seq : Nat)
  /-- SESSION_IDLE_TIMEOUT (R354). -/
  | sessionIdleTimeout (session : Nat)
  /-- SESSION_ACK_TIMEOUT (R354). -/
  | sessionAckTimeout (session : Nat)
  /-- KEY_UPDATE (R350). -/
  | keyUpdate (session : Nat)
  /-- SESSION_KEY_EXPIRY (R350). -/
  | sessionKeyExpiry (session : Nat)
  /-- PRINCIPAL_LOSS (R354). -/
  | principalLoss (principal : Nat)
  /-- REQUEST_FORGET (R212). -/
  | requestForget (request : Nat)
  /-- ACCT_SLOT_RELEASE (R516). -/
  | acctSlotRelease (slot : Nat)
  /-- RDMA_WRITE (R344). -/
  | rdmaWrite (p : RdmaP)
  /-- ETH_LINK_LOSS (R340). -/
  | ethLinkLoss (port : Nat)
  /-- PTP_SYNC (R469). -/
  | ptpSync (timeUs : Nat) (offsetNs : Int)
  /-- PTP_TIMEOUT (R469). -/
  | ptpTimeout
  /-- BEAT_TICK (R37). -/
  | beatTick (inp : BeatInput)
  /-- THERMAL_STEP (R415). -/
  | thermalStep
  /-- STEP_COMMIT (R147). -/
  | stepCommit (cmd : Nat) (outs : List StepOut)
  /-- SORUS_COMMIT_APPLY (R381). -/
  | sorusCommitApply (sorus : Nat)
  /-- SNAPSHOT_CAPTURE (R313). -/
  | snapshotCapture (snap : Nat)
  /-- PREEMPT_GRANT (R390). -/
  | preemptGrant (ctx : Nat) (queue : Nat)
  /-- RETRAIN_WINDOW (R37). -/
  | retrainWindow
  /-- COMMAND_START (R389). -/
  | commandStart
  /-- DESCRIPTOR_ISSUE (R145). -/
  | descriptorIssue (at_ : Place)
  /-- DESCRIPTOR_COMPLETE (R135). -/
  | descriptorComplete (at_ : Place)
  /-- COMMAND_RETIRE (R146). -/
  | commandRetire (cmd : Nat)
  /-- COMMAND_RESTART (R149). -/
  | commandRestart (cmd : Nat)
  /-- WATCHDOG_EXPIRY (R143). -/
  | watchdogExpiry (cmd : Nat)
  /-- CONTEXT_FAULT (R394). -/
  | contextFault (cmd : Nat) (cause : Nat) (at_ : Place)
  /-- STREAM_CREDIT_RETURN (R141). -/
  | streamCreditReturn (cmd : Nat) (stream : Nat)
  /-- S_SYNC (R137). -/
  | sSync (at_ : Place)
  /-- S_BEAT (R138). -/
  | sBeat (at_ : Place) (absolute : Bool) (beat : Nat)
  /-- HINT (R151). -/
  | hint (at_ : Place) (f : HintF)
  /-- S_FETCH (R139). -/
  | sFetch (at_ : Place) (f : XferF)
  /-- S_STORE (R139). -/
  | sStore (at_ : Place) (f : XferF)
  /-- F_LOAD (R88). -/
  | fLoad (at_ : Place) (f : FLoadF)
  /-- STATIONARY_SWAP (R72). -/
  | stationarySwap (at_ : Place)
  /-- F_MMA (R89). -/
  | fMma (at_ : Place) (f : FMmaF) (residueFails : Bool)
  /-- F_DRAIN (R79). -/
  | fDrain (at_ : Place) (f : FDrainF)
  /-- F_HAD (R81). -/
  | fHad (at_ : Place) (f : FHadF)
  /-- V_EWISE (R103). -/
  | vEwise (at_ : Place) (f : EwiseF)
  /-- V_SOFTMAX (R104). -/
  | vSoftmax (at_ : Place) (f : SoftmaxF)
  /-- V_NORM (R106). -/
  | vNorm (at_ : Place) (f : NormF)
  /-- V_ROPE (R107). -/
  | vRope (at_ : Place) (f : RopeF)
  /-- V_CONVERT (R109). -/
  | vConvert (at_ : Place) (f : ConvertF)
  /-- V_COMBINE (R110). -/
  | vCombine (at_ : Place) (f : CombineF)
  /-- V_OPT (R112). -/
  | vOpt (at_ : Place) (f : OptF)
  /-- V_SAMPLE (R115). -/
  | vSample (at_ : Place) (f : SampleF)
  /-- G_TOPK (R118). -/
  | gTopk (at_ : Place) (f : TopkF)
  /-- G_COUNT (R119). -/
  | gCount (at_ : Place) (f : CountF)
  /-- G_SCAN (R120). -/
  | gScan (at_ : Place) (f : ScanF)
  /-- G_SORT (R121). -/
  | gSort (at_ : Place) (f : SortF)
  /-- G_SCATTER (R123). -/
  | gScatter (at_ : Place) (f : MoveF)
  /-- G_GATHER (R123). -/
  | gGather (at_ : Place) (f : MoveF)
  /-- T_MOVE (R283). -/
  | tMove (at_ : Place) (f : TMoveF)
  /-- T_FILL (R283). -/
  | tFill (at_ : Place) (f : TMoveF)
  /-- Z_COPY (R332). -/
  | zCopy (at_ : Place) (f : ZCopyF)
  /-- Z_WAIT (R332). -/
  | zWait (at_ : Place) (f : ZWaitF)
  /-- Z_ATOMIC (R324). -/
  | zAtomic (at_ : Place) (f : ZAtomicF)
  /-- Z_INVAL (R328). -/
  | zInval (at_ : Place) (f : ZInvalF)
  /-- Z_REDUCE (R333). -/
  | zReduce (at_ : Place) (f : ZReduceF) (arrivals : List Contribution)
  /-- Z_XCHG (R335). -/
  | zXchg (at_ : Place) (f : ZXchgF)
  /-- Z_TXN (R336). -/
  | zTxn (at_ : Place) (f : ZTxnF)
  /-- FABRIC_REQUEST (R319). -/
  | fabricRequest (r : FabReq)
  /-- FABRIC_RESPONSE (R326). -/
  | fabricResponse (r : FabResp)
  /-- REQUEST_AGED (R319). -/
  | requestAged (access : Nat)
  /-- FABRIC_ACCESS_TIMEOUT (R318). -/
  | fabricAccessTimeout (access : Nat)
  /-- FABRIC_SORUS_COMMIT (R337). -/
  | fabricSorusCommit
  /-- COUNT_RECORD (R197). -/
  | countRecord (r : CountRec)
  /-- EXCHANGE_ROW (R201). -/
  | exchangeRow (r : XRow)
  /-- BARRIER_ARRIVAL (R310). -/
  | barrierArrival (id : Nat) (members : List Nat) (a : ArrivalP)
  /-- BARRIER_RELEASE (R310). -/
  | barrierRelease (id : Nat) (beat : Nat) (members : List Nat) (limited : Bool)
  /-- BARRIER_COMPLETE (R310). -/
  | barrierComplete (id : Nat)
  /-- GLOBAL_OP_TIMEOUT (R311). -/
  | globalOpTimeout (id : Nat)
  /-- SORUS_PREPARED (R378). -/
  | sorusPrepared (sorus : Nat) (pkg : Nat) (status : Nat) (index : Nat)
  /-- SORUS_PREPARE_DEADLINE (R378). -/
  | sorusPrepareDeadline (sorus : Nat)
  /-- SORUS_DECISION (R378). -/
  | sorusDecision (sorus : Nat) (commit : Bool)
  /-- SORUS_IN_DOUBT_TIMEOUT (R379). -/
  | sorusInDoubtTimeout (sorus : Nat)
  /-- SORUS_TIMEOUT (R376). -/
  | sorusTimeout (sorus : Nat)
  /-- LINK_DETECT (R295). -/
  | linkDetect (port : Nat)
  /-- LINK_EQUALISE_DONE (R295). -/
  | linkEqualiseDone (port : Nat) (goodLanes : Nat)
  /-- LINK_STAGE_TIMEOUT (R295). -/
  | linkStageTimeout (port : Nat)
  /-- IDENT_RECORD (R298). -/
  | identRecord (port : Nat) (r : IdentRec)
  /-- IDENT_RESEND (R296). -/
  | identResend (port : Nat)
  /-- LINK_RETRY (R295). -/
  | linkRetry (port : Nat)
  /-- LINK_DOWN (R304). -/
  | linkDown (port : Nat)
  /-- LINK_STATE_RECORD (R304). -/
  | linkStateRecord (pkg : Nat) (port : Nat) (up : Bool)
  /-- LASER_FEED_LOSS (R512). -/
  | laserFeedLoss (port : Nat)
  /-- FAULT_FINDING (R426). -/
  | faultFinding (unit : HwUnit) (finding : Finding)
  /-- MEMORY_CORRECTABLE (R427). -/
  | memoryCorrectable (tier : Nat) (addr : Nat) (hard : Bool)
  /-- MEMORY_UNCORRECTABLE (R275). -/
  | memoryUncorrectable (tier : Nat) (addr : Nat) (cmds : List Nat)
  /-- BUCKET_LEAK (R426). -/
  | bucketLeak
  /-- TAKEOVER (R431). -/
  | takeover (unit : HwUnit) (micros : Nat)
  /-- UNIT_TEST_COMPLETE (R429). -/
  | unitTestComplete (unit : HwUnit) (passed : Bool)
  /-- NAME_RETURN (R430). -/
  | nameReturn (die : Nat) (letter : Nat) (num : Nat)
  /-- LOCKSTEP_MISMATCH (R434). -/
  | lockstepMismatch (pair : Nat)
  /-- STANDBY_RESUME (R434). -/
  | standbyResume
  /-- MIGRATION_COMPLETE (R271). -/
  | migrationComplete (tier : Nat) (channel : Nat)
  /-- BEAT_SHADOW_CHECK (R435). -/
  | beatShadowCheck (counts : List Nat)
  /-- SCRUB_PASS (R255). -/
  | scrubPass (findings : List ScrubFinding)
  /-- EPOCH_WITHDRAW (R256). -/
  | epochWithdraw (modelId : Nat) (epoch : Nat)
  /-- EPOCH_FREE (R262). -/
  | epochFree (modelId : Nat) (epoch : Nat)
  /-- DIGEST_COMPLETE (R260). -/
  | digestComplete (addr : Nat) (bytes : Nat)
  /-- SHARD_CONVERT (R245). -/
  | shardConvert
  /-- SHARD_TIMEOUT (R248). -/
  | shardTimeout (modelId : Nat) (shard : Nat)
  /-- SHARD_PEER_READ (R248). -/
  | shardPeerRead (modelId : Nat) (shard : Nat) (images : List Byte)
  /-- ADAPTER_VERSION_LIVE (R263). -/
  | adapterVersionLive (modelId : Nat) (slot : Nat)
  /-- REQ_EXPIRE (R215). -/
  | reqExpire (request : Nat)
  /-- PAUSE_TTL_EXPIRE (R228). -/
  | pauseTtlExpire (request : Nat)
  /-- PAUSED_HOLD_EXPIRE (R228). -/
  | pausedHoldExpire (request : Nat)
  /-- PAUSE_MOVE_RETRY (R227). -/
  | pauseMoveRetry (request : Nat)
  /-- RESUME_MOVE_COMPLETE (R229). -/
  | resumeMoveComplete (request : Nat)
  /-- EVICTION_WAIT_TIMEOUT (R279). -/
  | evictionWaitTimeout (demand : Nat)
  /-- TIER_MOVE_COPY (R284). -/
  | tierMoveCopy (handle : Nat)
  /-- TIER_MOVE_SWITCH (R284). -/
  | tierMoveSwitch (handle : Nat)
  /-- LIMCEL_TIER_MOVE (R253). -/
  | limcelTierMove (modelId : Nat) (tensor : Nat) (tier : Nat)
  /-- HINT_EXPIRE (R152). -/
  | hintExpire (index : Nat)
  /-- SLOWDOWN_WINDOW (R400). -/
  | slowdownWindow (solo : List (Nat × Nat))
  /-- TELEMETRY_SAMPLE (R407). -/
  | telemetrySample (samples : List RailSample)
  /-- RECONCILE_MS (R409). -/
  | reconcileMs (r : Reconcile)
  /-- REGULATOR_READY (R406). -/
  | regulatorReady (engine : Nat)
  /-- RAISE_TIMEOUT (R406). -/
  | raiseTimeout (engine : Nat)
  /-- POWER_TRIP_ALERT (R418). -/
  | powerTripAlert (rail : Nat) (current : Nat)
  /-- TRIP_HOLD_EXPIRE (R418). -/
  | tripHoldExpire
  /-- THERMAL_TRIP (R416). -/
  | thermalTrip (die : Nat) (sensor : Nat) (celsius : Nat)
  /-- RIME_MIRROR (R446). -/
  | rimeMirror (failed : Bool)
  /-- RIME_FREEZE_EXPIRE (R448). -/
  | rimeFreezeExpire
  /-- POWER_ON_RESET (R458). -/
  | powerOnReset
  /-- BOOT_STAGE_COMPLETE (R458). -/
  | bootStageComplete (inp : StageInput)
  /-- WARM_RESET_ASSERT (R466). -/
  | warmResetAssert
  /-- WARM_RESTART (R467). -/
  | warmRestart
  /-- REVERIFY_COMPLETE (R257). -/
  | reverifyComplete (modelId : Nat) (badRegions : List Nat)
  /-- POWER_FAIL (R500). -/
  | powerFail
  /-- BEAT_MARK_LOSS (R471). -/
  | beatMarkLoss
  /-- BEAT_MARK_RECOVER (R471). -/
  | beatMarkRecover
  /-- BEAT_CLK_LOSS (R472). -/
  | beatClkLoss
  /-- BEAT_CLK_RECOVER (R472). -/
  | beatClkRecover (edgeBeat : Nat)
  /-- FW_TAKEOVER (R475). -/
  | fwTakeover (pauseNs : Nat)
  /-- PAIR_RELOAD_COMPLETE (R476). -/
  | pairReloadComplete (pair : Nat)
  /-- MACSEC_KEY (R479). -/
  | macsecKey (port : Nat) (cak : List Byte) (ckn : List Byte)
  /-- SHUTDOWN (R468). -/
  | shutdown
  /-- INSTALL_CHUNK (R479). -/
  | installChunk (offset : Nat) (data : List Byte)
  /-- INSTALL_COMMIT (R461). -/
  | installCommit (total : Nat) (sigOk : Bool)
  /-- LOAD_MODE_WRITE (R70). -/
  | loadModeWrite (die : Nat) (num : Nat) (mode : Nat)
  /-- CAP_REGISTER_WRITE (R417). -/
  | capRegisterWrite (watts : Nat)
  /-- REGISTER_WRITE (R16). -/
  | registerWrite (offset : Nat) (value : Word)
  /-- LATCHED_READ (R482). -/
  | latchedRead (requester : Nat) (offset : Nat)
  /-- HLTH_STATE_READ (R438). -/
  | hlthStateRead (requester : Nat)
  /-- I3C_OFFSET_WRITE (R477). -/
  | i3cOffsetWrite (offset : Nat) (count : Nat)
  /-- POR_ASSERT (R501). -/
  | porAssert (heldUs : Nat)
  /-- ETH_LINK_UP (R339). -/
  | ethLinkUp (port : Nat)
  /-- NEIGHBOR_DISCOVERY_ARP (R339). -/
  | neighborDiscoveryArp (q : NdQuery)
  /-- JTAG_INSTRUCTION (R510). -/
  | jtagInstruction (op : JtagOp)
  /-- SERVING_STEP_LAUNCH (R180). -/
  | servingStepLaunch (p : StepLaunchP)
  /-- PAUSE_MOVE_COMPLETE (R227). -/
  | pauseMoveComplete (request : Nat)
  /-- SNAPSHOT_UNIT_COPY (R313). -/
  | snapshotUnitCopy (snap : Nat)
  /-- TRANSIT_PACKET (R307). -/
  | transitPacket (p : TransitP)
  /-- SORUS_DECISION_QUERY (R379). -/
  | sorusDecisionQuery (sorus : Nat) (pkg : Nat)
  deriving DecidableEq, Repr

end Sys2Proof
end

