-- ==== Sys2Proof/WellFormed.lean ====
section
/-! DEFINITION. Well-formed commands: every operand fits the field that carries it (R8, R88 to R91, R101 to R123,
R137 to R139, R151, R283, R331 to R336, R346 to R348, R363 to R373). A value that fits its field but lies outside its
stated range is well formed: the command is answered as its chapter says. -/
namespace Sys2Proof

/-- The value fits `bits` bits. -/
def fits (bits n : Nat) : Bool := decide (n < 2 ^ bits)

/-- Header fields of a host command (R348, R352). -/
def hdrOk (h : Hdr) : Bool := fits 32 h.session && fits 32 h.tag && fits 16 h.cflags && fits 32 h.sorus && decide (h.port < 2)

/-- HELLO fields (R363). -/
def helloOk (p : HelloP) : Bool :=
  fits 8 p.minMajor && fits 8 p.minMinor && fits 8 p.maxMajor && fits 8 p.maxMinor && fits 16 p.mtu && fits 16 p.idle &&
    fits 64 p.features

/-- WINDOW, OFFSET and BYTES fields (R362). -/
def winRefOk (w : WinRef) : Bool := fits 16 w.window && fits 64 w.offset && fits 64 w.bytes

/-- VARIANT_DEFINE fields (R364). Logs 71, 125: DESIGN CHOICE. -/
def variantOk (p : VariantP) : Bool :=
  fits 64 p.modelId && fits 16 p.variant && fits 64 p.slots && fits 16 p.window && fits 32 p.entries && fits 64 p.offset

/-- REQ_SUBMIT fields (R365). -/
def submitOk (p : SubmitP) : Bool :=
  fits 64 p.modelId && fits 16 p.variant && fits 16 p.flags && fits 32 p.promptLen && fits 32 p.maxNew && fits 32 p.topK &&
    fits 32 p.stream && fits 64 p.seed && fits 64 p.deadline && fits 32 p.pauseTtl && fits 32 p.scoreFrom &&
    fits 8 p.logpBasis && fits 8 p.topN && decide (p.stops.length ≤ 8) && p.stops.all (fits 32) && fits 16 p.window &&
    fits 64 p.windowOffset && p.tokens.all (fits 32)

/-- LAUNCH fields (R366). -/
def launchOk (p : LaunchP) : Bool :=
  fits 32 p.program && fits 8 p.ctx && fits 8 p.queue && fits 32 p.iteration && fits 32 p.epoch && fits 64 p.modelId &&
    fits 64 p.commitBeat && decide (p.addr.length = 16) && p.addr.all (fits 64) && decide (p.handles.length ≤ 64) &&
    p.handles.all (fits 32)

/-- CTX_CREATE fields (R366). -/
def ctxOk (p : CtxP) : Bool := fits 16 p.job && fits 32 p.wdog && fits 64 p.roundKey && fits 256 p.members

/-- ALLOC fields (R367). -/
def allocOk (p : AllocP) : Bool :=
  fits 8 p.account && fits 8 p.kind && fits 8 p.rights && fits 32 p.plan && fits 64 p.bytes && fits 64 p.modelId &&
    fits 64 p.stripeBase && fits 256 p.members

/-- COPY fields (R367). -/
def copyOk (p : CopyP) : Bool :=
  fits 8 p.ctx && fits 32 p.src && fits 32 p.dst && fits 64 p.srcOffset && fits 64 p.dstOffset && fits 64 p.bytes

/-- A running command and a 12-bit source code (R8). -/
def placeOk (a : Place) : Bool := fits 32 a.cmd && fits 12 a.code

/-- HINT fields (R151). -/
def hintOk (f : HintF) : Bool := fits 8 f.cls && fits 8 f.scope && fits 16 f.ahead && fits 32 f.span && fits 8 f.load

/-- S_FETCH and S_STORE fields (R139). -/
def xferOk (f : XferF) : Bool :=
  fits 8 f.channel && fits 8 f.handle && fits 32 f.tiles && fits 64 f.offset && fits 64 f.stride

/-- F_LOAD fields (R88). -/
def fLoadOk (f : FLoadF) : Bool :=
  fits 8 f.format && fits 8 f.partner && fits 8 f.arrange && fits 8 f.sets && fits 16 f.holdBase && fits 16 f.kBase &&
    fits 16 f.kCount

/-- F_MMA fields (R89). -/
def fMmaOk (f : FMmaF) : Bool :=
  fits 8 f.format && fits 8 f.bank && fits 8 f.init && fits 16 f.holdBase && fits 16 f.rows && fits 16 f.tileKBase

/-- Conversion fields (R90, R101). -/
def convOk (c : ConvF) : Bool :=
  fits 8 c.format && fits 32 c.tensorId && fits 32 c.iteration && fits 32 c.rowBase && fits 32 c.colBase

/-- F_DRAIN fields (R90). -/
def fDrainOk (f : FDrainF) : Bool := fits 8 f.bank && convOk f.conv

/-- F_HAD fields (R91). -/
def fHadOk (f : FHadF) : Bool :=
  fits 8 f.formatA && fits 8 f.formatB && fits 16 f.holdBase && fits 32 f.tiles && convOk f.conv

/-- V_EWISE fields (R102). -/
def ewiseOk (f : EwiseF) : Bool :=
  fits 8 f.func && fits 8 f.formatA && fits 8 f.formatB && fits 32 f.tiles && convOk f.conv

/-- V_SOFTMAX fields (R104). -/
def softmaxOk (f : SoftmaxF) : Bool := fits 8 f.format && fits 32 f.rowLen && fits 32 f.rowGroups && convOk f.conv

/-- V_NORM fields (R106). -/
def normOk (f : NormF) : Bool :=
  fits 8 f.format && fits 8 f.gbFormat && fits 32 f.rowLen && fits 32 f.rowGroups && convOk f.conv

/-- V_ROPE fields (R108). -/
def ropeOk (f : RopeF) : Bool :=
  fits 8 f.format && fits 8 f.posMode && fits 16 f.headDim && fits 16 f.rotDim && fits 32 f.posBase && fits 32 f.tiles &&
    convOk f.conv

/-- V_CONVERT fields (R109). -/
def convertOk (f : ConvertF) : Bool := fits 8 f.inFormat && fits 32 f.tiles && convOk f.conv

/-- V_COMBINE fields (R111). -/
def combineOk (f : CombineF) : Bool :=
  fits 8 f.format && fits 8 f.topk && fits 8 f.gen && fits 32 f.rows && fits 32 f.rowLen && convOk f.conv

/-- V_OPT fields (R113). -/
def optOk (f : OptF) : Bool :=
  fits 8 f.mFormat && fits 8 f.vFormat && fits 8 f.wFormat && fits 8 f.gFormat && convOk f.conv

/-- V_SAMPLE fields (R116). -/
def sampleOk (f : SampleF) : Bool := fits 8 f.logpBasis && fits 8 f.topN && fits 16 f.kCand && fits 32 f.rowGroups

/-- G_TOPK fields (R118). -/
def topkOk (f : TopkF) : Bool :=
  fits 8 f.format && fits 16 f.k && fits 32 f.rowLen && fits 32 f.indexBase && fits 32 f.rowGroups

/-- G_COUNT fields (R119). -/
def countOk (f : CountF) : Bool := fits 8 f.slots && fits 32 f.bins && fits 32 f.rows && fits 16 f.holdBase

/-- G_SCAN fields (R120). -/
def scanOk (f : ScanF) : Bool := fits 32 f.bins && fits 32 f.cap && fits 16 f.holdBase

/-- G_SORT fields (R122). -/
def sortOk (f : SortF) : Bool :=
  fits 8 f.slots && fits 32 f.bins && fits 32 f.rows && fits 32 f.cap && fits 16 f.offsetBase && fits 16 f.mapBase &&
    fits 64 f.destBase

/-- G_SCATTER and G_GATHER fields (R123). -/
def moveOk (f : MoveF) : Bool :=
  fits 16 f.rowBytes && fits 16 f.offset && fits 8 f.scaleBytes && fits 8 f.scaleSlot && fits 8 f.format && fits 32 f.tiles &&
    fits 16 f.kExtent

/-- T_MOVE and T_FILL fields (R283). -/
def tMoveOk (f : TMoveF) : Bool :=
  fits 8 f.src && fits 8 f.dst && fits 32 f.pattern && fits 64 f.srcOffset && fits 64 f.dstOffset && fits 64 f.bytes

/-- Z_COPY fields (R332). -/
def zCopyOk (f : ZCopyF) : Bool :=
  fits 8 f.handle && fits 8 f.aslot && fits 64 f.localOffset && fits 64 f.remote && fits 64 f.bytes && fits 32 f.inc &&
    (match f.counter with | none => true | some c => fits 16 c)

/-- Z_WAIT fields (R332). -/
def zWaitOk (f : ZWaitF) : Bool := fits 32 f.counter && fits 64 f.value

/-- Z_ATOMIC fields (R332). -/
def zAtomicOk (f : ZAtomicF) : Bool :=
  fits 8 f.src && fits 8 f.dst && fits 32 f.count && fits 64 f.srcOffset && fits 64 f.dstOffset

/-- Z_INVAL fields (R332). -/
def zInvalOk (f : ZInvalF) : Bool := fits 8 f.aslot && fits 64 f.addr && fits 64 f.bytes

/-- Z_REDUCE fields (R333). -/
def zReduceOk (f : ZReduceF) : Bool :=
  fits 8 f.inFormat && fits 8 f.outFormat && fits 8 f.src && fits 8 f.dst && fits 16 f.first && fits 16 f.step &&
    fits 16 f.count && fits 64 f.elements && fits 64 f.srcOffset && fits 64 f.dstOffset

/-- Z_XCHG fields (R334). -/
def zXchgOk (f : ZXchgF) : Bool :=
  fits 8 f.role && fits 8 f.half && fits 8 f.model && fits 16 f.layer && fits 8 f.pieces && fits 8 f.buf && fits 8 f.ret &&
    fits 16 f.lslot && fits 32 f.round && fits 64 f.pieceStride && fits 64 f.countOffset && fits 64 f.bufOffset

/-- Z_TXN fields (R336). -/
def zTxnOk (f : ZTxnF) : Bool :=
  fits 8 f.src && fits 8 f.res && fits 8 f.aslot && fits 8 f.count && fits 64 f.srcOffset && fits 64 f.resOffset &&
    fits 64 f.beat

/-- A request at its home (R316, R319). -/
def fabReqOk (r : FabReq) : Bool :=
  fits 8 r.pkg && fits 17 r.agent && fits 16 r.job && fits 8 r.ctx && fits 10 r.issueLow && fits 64 r.addr

/-- A response (R321). -/
def fabRespOk (r : FabResp) : Bool := fits 32 r.access && decide (r.data.length ≤ 256)

/-- A count record (R197). -/
def countRecOk (r : CountRec) : Bool :=
  fits 8 r.pkg && fits 16 r.job && fits 64 r.model && fits 16 r.layer && decide (r.half < 2) && fits 8 r.gen

/-- An exchange row (R197, R199). -/
def xRowOk (r : XRow) : Bool :=
  fits 8 r.pkg && fits 16 r.job && fits 64 r.model && fits 16 r.layer && decide (r.half < 2) && fits 12 r.lslot &&
    decide (r.piece < r.pieces) && decide (r.pieces ≤ 64) && fits 8 r.format && fits 16 r.kExtent && decide (r.data.length ≤ 256) && decide (r.scales.length ≤ 16)

/-- The identity record (R296). -/
def identOk (r : IdentRec) : Bool := fits 64 r.recordTag && fits 8 r.pkg && fits 8 r.port && fits 8 r.verMin && fits 8 r.verMax

/-- A unit of R426 that the package has: dies, stations, channels, ports, lanes and pairs by number. -/
def hwUnitOk (u : HwUnit) : Bool :=
  match u with
  | .station die letter num => decide (die < 7) && decide (letter < 5) && fits 6 num
  | .pc n => decide (n < 256)
  | .lpch n => decide (n < 32)
  | .fabLane port lane => (decide (port < 15) && decide (lane < 9)) || (decide (16 ≤ port) && decide (port < 24) && decide (lane < 8))
  | .bridgeLane link lane => decide (link < 14) && fits 8 lane
  | .eth n => decide (n < 2)
  | .pair n => decide (n < 3)

/-- A frame's header fields and entries (R346, R348). -/
def frameOk (f : Frame) : Bool :=
  decide (f.port < 2) && fits 16 f.magic && fits 8 f.verMajor && fits 8 f.verMinor && fits 32 f.session && fits 32 f.seq &&
    fits 32 f.ack && fits 64 f.ackMap && decide (f.entries.length ≤ 64) &&
    f.entries.all fun e => fits 16 e.opcode && fits 16 e.cflags && fits 32 e.tag && fits 32 e.plen && fits 32 e.sorus

/-- A RoCE packet (R344). -/
def rdmaOk (p : RdmaP) : Bool := fits 24 p.qpn && fits 16 p.window && fits 32 p.rKey && fits 64 p.offset

/-- The sender of a SORUS_PREPARE (R378). -/
def prepSourceOk (p : PrepSource) : Bool :=
  match p with
  | .fabric => true
  | .host h => hdrOk h

/-- A serving step's launch (R180). -/
def stepLaunchOk (p : StepLaunchP) : Bool := fits 64 p.modelId && fits 32 p.program && fits 8 p.queue

/-- A packet in transit (R307). -/
def transitOk (p : TransitP) : Bool :=
  decide (p.channel < 15) && fits 8 p.src && fits 8 p.dest && fits 64 p.addr && fits 16 p.bytes && fits 10 p.issueLow

/-- What an arrival at a broadcast carries (R312): a piece holds at most 64 KiB. -/
def bcastOk (b : BcastPart) : Bool :=
  fits 8 b.root && fits 64 b.bytes && fits 57 b.base && (match b.piece with
    | none => true
    | some (i, d) => fits 48 i && decide (d.length ≤ 65536))

/-- An arrival's part of a broadcast, where it has one. -/
def partOk (p : Option BcastPart) : Bool :=
  match p with
  | none => true
  | some b => bcastOk b

/-- An arrival: packages and a part of a broadcast (R310, R312). -/
def arrivalOk (a : ArrivalP) : Bool := a.merged.all (fits 8) && partOk a.part

/-- Queue pairs of SESSION_OPEN PHASE 1 (R363). -/
def qpsOk (qs : List QpEntry) : Bool :=
  decide (qs.length ≤ 255) && qs.all fun q => fits 24 q.qpn && fits 8 q.port && fits 24 q.psn && fits 8 q.pmtu

/-- A neighbour query (R339). -/
def ndOk (q : NdQuery) : Bool := decide (q.port < 2) && fits 128 q.target

/-- A change of Limcel's policy: ids, packages and expert slots fit their fields (R173, R190, R193, R205, R282). -/
def policyOk (p : Policy) : Bool :=
  match p with
  | .replicaIn m l e pkg k _ => fits 64 m && fits 16 l && fits 12 e && fits 8 pkg && fits 12 k
  | .replicaOut m l e pkg k => fits 64 m && fits 16 l && fits 12 e && fits 8 pkg && fits 12 k
  | .capacity m l c => fits 64 m && fits 16 l && fits 16 c
  | .reuse r d _ _ _ => fits 32 r && fits 32 d
  | .ownHandle k r t _ _ m p => fits 8 k && fits 8 r && fits 8 t && fits 64 m && fits 32 p
  | .dropHandle h => fits 32 h
  | .fill h _ _ => fits 32 h
  | .hold c q => fits 8 c && fits 8 q
  | .release c q => fits 8 c && fits 8 q

/-- The samples of a beat edge: seven dies (R415), and Limcel's policy. -/
def beatInputOk (b : BeatInput) : Bool := decide (b.temps.length = 7) && b.policy.all policyOk

/-- The findings of a start stage (R458). -/
def stageInputOk (s : StageInput) : Bool := s.failedUnits.all hwUnitOk

/-- The command's operands fit their fields. Log 110: DESIGN CHOICE. -/
def wellFormed (i : Instr) : Bool :=
  match i with
  | .hello h p => hdrOk h && helloOk p
  | .sessionOpen h phase _ qps => hdrOk h && fits 8 phase && qpsOk qps
  | .sessionClose h => hdrOk h
  | .keepalive h => hdrOk h
  | .capsQuery h => hdrOk h
  | .modelDeclare h w shardTimeout _ => hdrOk h && winRefOk w && fits 32 shardTimeout
  | .modelWithdraw h modelId => hdrOk h && fits 64 modelId
  | .shardPush h modelId shard window offset => hdrOk h && fits 64 modelId && fits 32 shard && fits 16 window && fits 64 offset
  | .shardStatus h modelId first count => hdrOk h && fits 64 modelId && fits 32 first && fits 32 count
  | .modelActivate h modelId kCand kvPagesets => hdrOk h && fits 64 modelId && fits 16 kCand && fits 32 kvPagesets
  | .epochPublish h modelId epoch table => hdrOk h && fits 64 modelId && fits 32 epoch && fits 32 table
  | .epochRetire h modelId epoch => hdrOk h && fits 64 modelId && fits 32 epoch
  | .adapterLoad h modelId slot w shardTimeout _ => hdrOk h && fits 64 modelId && fits 8 slot && winRefOk w && fits 32 shardTimeout
  | .adapterReplace h modelId slot => hdrOk h && fits 64 modelId && fits 8 slot
  | .adapterUnload h modelId slot => hdrOk h && fits 64 modelId && fits 8 slot
  | .variantDefine h p => hdrOk h && variantOk p
  | .reqSubmit h p => hdrOk h && submitOk p
  | .reqCancel h request => hdrOk h && fits 32 request
  | .reqPause h request => hdrOk h && fits 32 request
  | .reqResume h request => hdrOk h && fits 32 request
  | .reqQuery h request => hdrOk h && fits 32 request
  | .progLoad h w => hdrOk h && winRefOk w
  | .progUnload h program => hdrOk h && fits 32 program
  | .launch h p => hdrOk h && launchOk p
  | .queueCreate h ctx cls priority => hdrOk h && fits 8 ctx && fits 8 cls && fits 8 priority
  | .queueDestroy h ctx queue => hdrOk h && fits 8 ctx && fits 8 queue
  | .ctxCreate h p => hdrOk h && ctxOk p
  | .ctxDestroy h ctx => hdrOk h && fits 8 ctx
  | .preempt h ctx queue beat => hdrOk h && fits 8 ctx && fits 8 queue && fits 64 beat
  | .preemptResume h ctx queue beat => hdrOk h && fits 8 ctx && fits 8 queue && fits 64 beat
  | .poolCreate h ctx tier reserve limit => hdrOk h && fits 8 ctx && fits 8 tier && fits 64 reserve && fits 64 limit
  | .alloc h p => hdrOk h && allocOk p
  | .free h handle => hdrOk h && fits 32 handle
  | .copy h p => hdrOk h && copyOk p
  | .tierMove h handle tier => hdrOk h && fits 32 handle && fits 8 tier
  | .topoQuery h => hdrOk h
  | .planLoad h w _ => hdrOk h && winRefOk w
  | .linkCtlQuery h port => hdrOk h && fits 8 port
  | .linkCtlDisable h port => hdrOk h && fits 8 port
  | .linkCtlEnable h port => hdrOk h && fits 8 port
  | .linkCtlRetrain h port beat => hdrOk h && fits 8 port && fits 64 beat
  | .barrier h id timeout members => hdrOk h && fits 32 id && fits 32 timeout && fits 256 members
  | .snapshotAt h beat ctx _ => hdrOk h && fits 64 beat && fits 8 ctx
  | .beatSet h second => hdrOk h && fits 64 second
  | .capSet h watts beat => hdrOk h && fits 32 watts && fits 64 beat
  | .capQuery h => hdrOk h
  | .energyRead h kind first count => hdrOk h && fits 8 kind && fits 32 first && fits 32 count
  | .healthQuery h => hdrOk h
  | .rimeFreeze h => hdrOk h
  | .rimeRead h area first maxBytes => hdrOk h && fits 8 area && fits 32 first && fits 32 maxBytes
  | .rimeThaw h => hdrOk h
  | .rimeClear h => hdrOk h
  | .regRead h offset count => hdrOk h && fits 64 offset && fits 32 count
  | .regWrite h offset _ _ => hdrOk h && fits 64 offset
  | .sorusOpen h sorus members => hdrOk h && fits 32 sorus && fits 256 members
  | .sorusCommit h sorus mode beat => hdrOk h && fits 32 sorus && fits 8 mode && fits 64 beat
  | .sorusAbort h sorus => hdrOk h && fits 32 sorus
  | .sorusPrepare src sorus coord commitBeat => prepSourceOk src && fits 32 sorus && fits 8 coord && fits 64 commitBeat
  | .fwStage h w _ => hdrOk h && winRefOk w
  | .fwActivate h beat => hdrOk h && fits 64 beat
  | .attest h _ => hdrOk h
  | .certRead h slot offset length => hdrOk h && fits 8 slot && fits 64 offset && fits 32 length
  | .resetStations h _ => hdrOk h
  | .resetWarm h => hdrOk h
  | .frameReceive f => frameOk f
  | .retransmit session seq => fits 32 session && fits 32 seq
  | .sessionIdleTimeout session => fits 32 session
  | .sessionAckTimeout session => fits 32 session
  | .keyUpdate session => fits 32 session
  | .sessionKeyExpiry session => fits 32 session
  | .principalLoss principal => fits 32 principal
  | .requestForget request => fits 32 request
  | .acctSlotRelease slot => fits 8 slot
  | .rdmaWrite p => rdmaOk p
  | .ethLinkLoss port => fits 8 port
  | .ptpSync timeUs _ => fits 64 timeUs
  | .ptpTimeout => true
  | .beatTick inp => beatInputOk inp
  | .thermalStep => true
  | .stepCommit cmd _ => fits 32 cmd
  | .sorusCommitApply sorus => fits 32 sorus
  | .snapshotCapture snap => fits 32 snap
  | .preemptGrant ctx queue => fits 8 ctx && fits 8 queue
  | .retrainWindow => true
  | .commandStart => true
  | .descriptorIssue at_ => placeOk at_
  | .descriptorComplete at_ => placeOk at_
  | .commandRetire cmd => fits 32 cmd
  | .commandRestart cmd => fits 32 cmd
  | .watchdogExpiry cmd => fits 32 cmd
  | .contextFault cmd cause at_ => fits 32 cmd && fits 8 cause && placeOk at_
  | .streamCreditReturn cmd stream => fits 32 cmd && fits 16 stream
  | .sSync at_ => placeOk at_
  | .sBeat at_ _ beat => placeOk at_ && fits 64 beat
  | .hint at_ f => placeOk at_ && hintOk f
  | .sFetch at_ f => placeOk at_ && xferOk f
  | .sStore at_ f => placeOk at_ && xferOk f
  | .fLoad at_ f => placeOk at_ && fLoadOk f
  | .stationarySwap at_ => placeOk at_
  | .fMma at_ f _ => placeOk at_ && fMmaOk f
  | .fDrain at_ f => placeOk at_ && fDrainOk f
  | .fHad at_ f => placeOk at_ && fHadOk f
  | .vEwise at_ f => placeOk at_ && ewiseOk f
  | .vSoftmax at_ f => placeOk at_ && softmaxOk f
  | .vNorm at_ f => placeOk at_ && normOk f
  | .vRope at_ f => placeOk at_ && ropeOk f
  | .vConvert at_ f => placeOk at_ && convertOk f
  | .vCombine at_ f => placeOk at_ && combineOk f
  | .vOpt at_ f => placeOk at_ && optOk f
  | .vSample at_ f => placeOk at_ && sampleOk f
  | .gTopk at_ f => placeOk at_ && topkOk f
  | .gCount at_ f => placeOk at_ && countOk f
  | .gScan at_ f => placeOk at_ && scanOk f
  | .gSort at_ f => placeOk at_ && sortOk f
  | .gScatter at_ f => placeOk at_ && moveOk f
  | .gGather at_ f => placeOk at_ && moveOk f
  | .tMove at_ f => placeOk at_ && tMoveOk f
  | .tFill at_ f => placeOk at_ && tMoveOk f
  | .zCopy at_ f => placeOk at_ && zCopyOk f
  | .zWait at_ f => placeOk at_ && zWaitOk f
  | .zAtomic at_ f => placeOk at_ && zAtomicOk f
  | .zInval at_ f => placeOk at_ && zInvalOk f
  | .zReduce at_ f _ => placeOk at_ && zReduceOk f
  | .zXchg at_ f => placeOk at_ && zXchgOk f
  | .zTxn at_ f => placeOk at_ && zTxnOk f
  | .fabricRequest r => fabReqOk r
  | .fabricResponse r => fabRespOk r
  | .requestAged access => fits 32 access
  | .fabricAccessTimeout access => fits 32 access
  | .fabricSorusCommit => true
  | .countRecord r => countRecOk r
  | .exchangeRow r => xRowOk r
  | .barrierArrival id members a => fits 32 id && members.all (fits 8) && arrivalOk a
  | .barrierRelease id beat members _ => fits 32 id && fits 64 beat && members.all (fits 8)
  | .barrierComplete id => fits 32 id
  | .globalOpTimeout id => fits 32 id
  | .sorusPrepared sorus pkg status index => fits 32 sorus && fits 8 pkg && fits 16 status && fits 16 index
  | .sorusPrepareDeadline sorus => fits 32 sorus
  | .sorusDecision sorus _ => fits 32 sorus
  | .sorusInDoubtTimeout sorus => fits 32 sorus
  | .sorusTimeout sorus => fits 32 sorus
  | .linkDetect port => fits 8 port
  | .linkEqualiseDone port goodLanes => fits 8 port && fits 8 goodLanes
  | .linkStageTimeout port => fits 8 port
  | .identRecord port r => fits 8 port && identOk r
  | .identResend port => fits 8 port
  | .linkRetry port => fits 8 port
  | .linkDown port => fits 8 port
  | .linkStateRecord pkg port _ => fits 8 pkg && fits 8 port
  | .laserFeedLoss port => fits 8 port
  | .faultFinding unit _ => hwUnitOk unit
  | .memoryCorrectable tier addr _ => fits 8 tier && fits 57 addr
  | .memoryUncorrectable tier addr _ => fits 8 tier && fits 57 addr
  | .bucketLeak => true
  | .takeover unit micros => hwUnitOk unit && fits 32 micros
  | .unitTestComplete unit _ => hwUnitOk unit
  | .nameReturn die letter num => fits 3 die && fits 3 letter && fits 6 num
  | .lockstepMismatch pair => fits 2 pair
  | .standbyResume => true
  | .migrationComplete tier channel => fits 8 tier && fits 16 channel
  | .beatShadowCheck _ => true
  | .scrubPass _ => true
  | .epochWithdraw modelId epoch => fits 64 modelId && fits 32 epoch
  | .epochFree modelId epoch => fits 64 modelId && fits 32 epoch
  | .digestComplete addr bytes => fits 57 addr && fits 64 bytes
  | .shardConvert => true
  | .shardTimeout modelId shard => fits 64 modelId && fits 32 shard
  | .shardPeerRead modelId shard _ => fits 64 modelId && fits 32 shard
  | .adapterVersionLive modelId slot => fits 64 modelId && fits 8 slot
  | .reqExpire request => fits 32 request
  | .pauseTtlExpire request => fits 32 request
  | .pausedHoldExpire request => fits 32 request
  | .pauseMoveRetry request => fits 32 request
  | .resumeMoveComplete request => fits 32 request
  | .evictionWaitTimeout demand => fits 33 demand
  | .tierMoveCopy handle => fits 32 handle
  | .tierMoveSwitch handle => fits 32 handle
  | .limcelTierMove modelId tensor tier => fits 64 modelId && fits 32 tensor && fits 8 tier
  | .hintExpire index => fits 16 index
  | .slowdownWindow _ => true
  | .telemetrySample _ => true
  | .reconcileMs _ => true
  | .regulatorReady engine => fits 1 engine
  | .raiseTimeout engine => fits 1 engine
  | .powerTripAlert rail current => fits 8 rail && fits 32 current
  | .tripHoldExpire => true
  | .thermalTrip die sensor celsius => fits 3 die && fits 8 sensor && fits 8 celsius
  | .rimeMirror _ => true
  | .rimeFreezeExpire => true
  | .powerOnReset => true
  | .bootStageComplete inp => stageInputOk inp
  | .warmResetAssert => true
  | .warmRestart => true
  | .reverifyComplete modelId _ => fits 64 modelId
  | .powerFail => true
  | .beatMarkLoss => true
  | .beatMarkRecover => true
  | .beatClkLoss => true
  | .beatClkRecover edgeBeat => fits 48 edgeBeat
  | .fwTakeover pauseNs => fits 32 pauseNs
  | .pairReloadComplete pair => fits 2 pair
  | .macsecKey port _ _ => fits 8 port
  | .shutdown => true
  | .installChunk offset _ => fits 64 offset
  | .installCommit total _ => fits 32 total
  | .loadModeWrite die num mode => fits 3 die && fits 6 num && fits 8 mode
  | .capRegisterWrite watts => fits 32 watts
  | .registerWrite offset _ => fits 64 offset
  | .latchedRead requester offset => fits 32 requester && fits 64 offset
  | .hlthStateRead requester => fits 32 requester
  | .i3cOffsetWrite offset count => fits 64 offset && fits 32 count
  | .porAssert heldUs => fits 64 heldUs
  | .ethLinkUp port => fits 8 port
  | .neighborDiscoveryArp q => ndOk q
  | .jtagInstruction _ => true
  | .servingStepLaunch p => stepLaunchOk p
  | .pauseMoveComplete request => fits 32 request
  | .snapshotUnitCopy snap => fits 32 snap
  | .transitPacket p => transitOk p
  | .sorusDecisionQuery sorus pkg => fits 32 sorus && fits 8 pkg

end Sys2Proof
end

