-- ==== Sys2Proof/Decode.lean ====
section
/-! DEFINITION. Commands by the bits of opcode_table.json: no row of the table gives bits, so no word spells a
command. -/
namespace Sys2Proof

/-- The command that a word of the table's bits spells: none, since the table gives no row bits. Log 11: DESIGN CHOICE. -/
def decodeTableWord (_nbits _w : Nat) : Option Instr := none

end Sys2Proof
end

