-- ==== Sys2Proof/Config.lean ====
section
/-! DEFINITION. Free values and constants that the spec leaves to an implementation or to a published standard.
An opaque constant here has no body: no proof can see a value of it. -/
namespace Sys2Proof

/-- One link of the topology plan (R290, R291): this package's port, its peer, the fibre length and, for a standby
link of a spare port, the pair of groups it stands in for. -/
structure PlanLink where
  port : Nat
  peerPkg : Nat
  peerPort : Nat
  metres : Nat
  standby : Option (Nat × Nat)
  deriving DecidableEq, Repr

/-- One global link of the plan by its two ends (R291); `standby` for the link of a spare port. -/
structure GlobalLink where
  pkgA : Nat
  portA : Nat
  pkgB : Nat
  portB : Nat
  metres : Nat
  standby : Bool
  deriving DecidableEq, Repr

/-- What an installation record says to the package whose straps select its entry (R289, R291, R339, R341, R461): `raw` are the
record's bytes, `slot` the straps and `tag` the first eight bytes of its digest (R296), as the package finds them. -/
structure InstallRec where
  version : Nat
  secVersion : Nat
  raw : List Byte
  slot : Nat
  tag : Nat
  pkg : Nat
  groups : Nat
  device : Nat
  floor : Nat
  mtu : List Nat
  ipv6 : List Nat
  ipv4 : List Nat
  macsec : List Bool
  globals : List GlobalLink
  deriving DecidableEq, Repr

namespace Config

/-- A byte whose contents the spec leaves undefined: the first argument is the draw, the second the address or
index (R278 allocation contents, R153 station SRAM at a command's start, R458 LPDDR). Log 1: DESIGN CHOICE. -/
opaque freeByte : Nat → Nat → Byte

/-- VALID bit and tag of a view row of a transposed bank under TRANSPOSE_OUT, which no stationary tile row formed: by the VALID bits
and tags of the sets in force and the position (R79 names no row for it). Log 39: DESIGN CHOICE. -/
opaque positionTag : List (Bool × Word) → Nat → Bool × Word

/-- Whether a fetched tile image ends its row group: the descriptor's place in its list and the image's place (R97 leaves to the
program what a stream's row groups are). Log 111: DESIGN CHOICE. -/
opaque endsGroup : Nat → Nat → Bool

/-- A value the package draws itself: a request SEED (R210) or a window R_Key (R278). Log 2: DESIGN CHOICE. -/
opaque drawn : Nat → DWord

/-- The distance in units in the last place, 0 to 4 standing for -2 to 2, of a transcendental result from the
correctly rounded one: function code and operand bits (R99 allows 2 ulp and demands the same bits everywhere).
Log 3: DESIGN CHOICE. -/
opaque ulpOffset : Nat → Word → Fin 5

/-- Whether the signature of an image, manifest, plan or retraction verifies under the keys the package holds (R235, R300,
R455): the ECDSA arithmetic belongs to the standard the manual names. Log 4: DESIGN CHOICE. -/
opaque signatureOk : List Byte → Bool

/-- The signed SPDM MEASUREMENTS response over the measurement blocks and the request (R464). Log 6: DESIGN CHOICE. -/
opaque spdmMeasurements : List Byte → List Byte → List Byte

/-- The DER bytes of certificate slot 0 (R463), given the alias measurements (R462). Log 6: DESIGN CHOICE. -/
opaque certChain : List Byte → List Byte

/-- What the SPDM 1.3 standard makes of a request message that arrives inside a frame (R353, R465). Log 6: DESIGN CHOICE. -/
opaque spdm : List Byte → SpdmStep

/-- The reading of an installation record image for given SLOT_ID straps: the Installation Record Specification is a
companion document that the manual names and does not hold (R2). None: no entry for the straps. Log 8: DESIGN CHOICE. -/
opaque parseInstall : List Byte → Nat → Option InstallRec

/-- The lowest and highest link protocol version the package supports (R296): each implementation decides. Log 15: DESIGN CHOICE. -/
opaque linkVersions : Nat × Nat

/-- Redundant lanes of a bridge link, and the lanes that it needs at full width: the spec gives neither number (R25, R431). Log 134: DESIGN CHOICE. -/
opaque bridgeSpares : Nat
opaque bridgeWidth : Nat

/-- Whether the migration of a retired channel has moved a block by a beat: its tier, the block and the beat (R271 bounds the time
and gives no order between the links). Log 136: DESIGN CHOICE. -/
opaque blockMoved : Nat → Nat → Nat → Bool

/-- The smoothed round-trip time of a session in microseconds after one more measured: R357 names it and gives no filter. Log 146: DESIGN CHOICE. -/
opaque smoothedRtt : Nat → Nat → Nat

end Config
end Sys2Proof
end

