-- ==== Sys2Proof/Machine/Flags.lean ====
section
/-! DEFINITION. Flags and counters of the register file: w1c flags with their saturating event counts (R17),
saturating and wrapping counters (R485), bit fields of a register word. -/
namespace Sys2Proof.Machine

/-- A w1c flag beside its saturating 16-bit event count (R17). -/
structure Flag where
  set : Bool
  count : Nat
  deriving DecidableEq, Repr

/-- A flag at reset. -/
def Flag.zero : Flag := ⟨false, 0⟩

/-- The flag after one hardware set (R17). -/
def Flag.hit (f : Flag) : Flag := ⟨true, min (f.count + 1) 0xFFFF⟩

/-- The flag after a w1c write of a bit (R16, R17): a 1 clears the flag, the count stays. -/
def Flag.w1c (f : Flag) (bit : Bool) : Flag := if bit then { f with set := false } else f

/-- The flag's bit as a number. -/
def Flag.bit (f : Flag) : Nat := if f.set then 1 else 0

/-- A 32-bit counter that saturates (R485). -/
def sat32 (n : Nat) : Nat := min n 0xFFFFFFFF

/-- A 32-bit counter that wraps (R485). -/
def wrap32 (n : Nat) : Nat := n % 2 ^ 32

/-- A Bool as a bit. -/
def bit (b : Bool) : Nat := if b then 1 else 0

/-- Bits `hi` to `lo` of a number. -/
def field (n hi lo : Nat) : Nat := n / 2 ^ lo % 2 ^ (hi + 1 - lo)

/-- Whether bit `i` of a number is set. -/
def tbit (n i : Nat) : Bool := n / 2 ^ i % 2 = 1

/-- The number with bit `i` set. -/
def setBit (n i : Nat) : Nat := if tbit n i then n else n + 2 ^ i

/-- Serial comparison modulo 2^48 (R470): whether beat `a` lies before beat `b`. -/
def beatBefore (a b : Nat) : Bool :=
  let d := (b + 2 ^ 48 - a % 2 ^ 48) % 2 ^ 48
  decide (0 < d) && decide (d < 2 ^ 47)

/-- Whether beat `a` is at or before beat `b` (R470). -/
def beatLe (a b : Nat) : Bool := decide (a % 2 ^ 48 = b % 2 ^ 48) || beatBefore a b

/-- Beat `a` plus `n`, modulo 2^48 (R14). -/
def beatAdd (a n : Nat) : Nat := (a + n) % 2 ^ 48

/-- The number of beats from `a` to `b`, modulo 2^48. -/
def beatSpan (a b : Nat) : Nat := (b + 2 ^ 48 - a % 2 ^ 48) % 2 ^ 48

end Sys2Proof.Machine
end

