-- ==== Sys2Proof/Machine/PartsHub.lean ====
section
/-! DEFINITION. State of start-up, time, power, health, the recorder and the stations' status entries: the data of
chapters 15 to 20. -/
namespace Sys2Proof.Machine

/-- Input straps and pins, outputs and the management bus pointer (R477, R501 to R504, R510). -/
structure PinSt where
  porLow : Bool
  warmLow : Bool
  pwrGood : Bool
  slotId : Nat
  thermTrip : Bool
  alert : Bool
  jtag : JtagOp
  deriving DecidableEq, Repr

/-- One entry of the retirement map (R430): the unit, whether its test outcome is known (none while suspect, true for
retired, false for exonerated) whether it is
marked, and the second of its last pass (R429). -/
structure MapEntry where
  unit : HwUnit
  retired : Option Bool
  marked : Bool
  passAt : Option Nat
  deriving DecidableEq, Repr

/-- A record of the recorder (R441). Times are microseconds; `firstBoot` and `lastBoot` are BOOT_FIRST and
BOOT_LAST; `lastElapsed` is the beat-counter time of the latest occurrence (R444). -/
structure Rec where
  type : Nat
  sev : Nat
  source : Nat
  repeats : Nat
  first : Nat
  firstBoot : Bool
  last : Nat
  lastBoot : Bool
  held : Bool
  seq : Nat
  payload : List Byte
  firstElapsed : Nat
  lastElapsed : Nat
  deriving DecidableEq, Repr

/-- The recorder (R443 to R452): `freeze` is the owning session and the beat of the freeze. -/
structure RimeSt where
  circ : List Rec
  holding : List Rec
  freeze : Option (Nat × Nat)
  keepFull : Bool
  next : Nat
  lost : Nat
  lostNow : Nat
  lostFirst : Nat
  lostFirstBoot : Bool
  lostLast : Nat
  lostBoot : Bool
  overflow : Flag
  mirrorFail : Flag
  deriving DecidableEq, Repr

/-- The counters of R457. -/
structure Counters where
  stage1 : Nat
  limcel : Nat
  config : Nat
  install : Nat
  manifest : Nat
  keyRevoke : Nat
  deriving DecidableEq, Repr

/-- The secure flash die (R456, R457). Slots hold image headers (R454); the configuration record is held by the
figures Isobar computes with (R404, R408, R418). Log 10: DESIGN CHOICE. -/
structure FlashSt where
  stage1 : List (List Byte)
  limcel : List (List Byte)
  bootS1 : Nat
  bootLc : Nat
  staged : Bool
  configHeader : List Byte
  serial : Nat
  fullPower : List Nat
  railLimits : List Nat
  install : Option InstallRec
  installHeader : List Byte
  pending : Option (InstallRec × List Byte)
  counters : Counters
  map : List MapEntry
  keep : List Rec
  ring : List Rec
  deriving DecidableEq, Repr

/-- A live firmware activation (R474, R475). -/
structure Activation where
  beat : Nat
  session : Nat
  tag : Nat
  deriving DecidableEq, Repr

/-- Start-up, the mailbox and the running images (R458 to R461, R474 to R479, R486). Log 35: DESIGN CHOICE. -/
structure BootSt where
  stepping : Nat
  stage : Nat
  error : Nat
  resetKind : Nat
  s1Slot : Nat
  lcSlot : Nat
  s1Header : List Byte
  lcHeader : List Byte
  configVersion : Nat
  macsecWait : List Bool
  macsecKeys : List (Nat × List Byte × List Byte)
  pkgValid : Bool
  pkg : Nat
  lpDensity : Nat
  mboxStatus : Nat
  mboxCmd : Nat
  mboxData : List Word
  installBuf : List Byte
  activation : Option Activation
  pauseUntil : Option Nat
  reloading : List Nat
  heldRows : List Instr
  deriving DecidableEq, Repr

/-- A BEAT_SET that waits for its BEAT_MARK edge (R470). -/
structure BeatSetSt where
  second : Nat
  session : Nat
  tag : Nat
  deriving DecidableEq, Repr

/-- The beat unit (R35, R435, R469 to R472, R480). `elapsed` counts beats since the release of POR_L and never
steps. -/
structure BeatSt where
  count : Nat
  elapsed : Nat
  aligned : Bool
  ptpLock : Bool
  ptpTime : Nat
  syncAt : Nat
  ptpBase : Nat
  onPtp : Bool
  goodRun : Nat
  badRun : Nat
  markHold : Bool
  clkHold : Bool
  markLost : Flag
  clkLost : Flag
  slipFlag : Flag
  ptpUnlock : Flag
  slip : Int
  ptpOffset : Int
  shadowLast : List (Option Nat)
  shadowFix : List Bool
  setPending : Option BeatSetSt
  deriving DecidableEq, Repr

/-- A pending hint: the set it is kept in (0 prefill, 1 decode, 2 package), its context and fields (R151, R152). Log 34: DESIGN CHOICE. -/
structure Hint where
  set : Nat
  ctx : Nat
  cls : Nat
  load : Nat
  start : Nat
  span : Nat
  deriving DecidableEq, Repr

/-- A raise under way: the engine, the beat it was commanded, whether the regulator has reported (R406). -/
structure Raise where
  engine : Nat
  since : Nat
  ready : Bool
  deriving DecidableEq, Repr

/-- A cap that waits for its beat (R417). -/
structure CapWait where
  watts : Nat
  beat : Nat
  session : Nat
  tag : Nat
  order : Nat
  deriving DecidableEq, Repr

/-- The power controller (R404 to R424). Powers in milliwatts unless a register field says W. Logs 14, 33: DESIGN CHOICE. -/
structure PwrSt where
  cap : Nat
  caps : List CapWait
  levelC : Nat
  levelD : Nat
  reqC : Nat
  reqD : Nat
  raises : List Raise
  noRaiseC : Nat
  noRaiseD : Nat
  capRaiseAt : Nat
  capCeil : Nat
  capDuty : Nat
  duty : Nat
  unattainable : Bool
  floor : Nat
  gap : Nat
  mean : Nat
  suspect : Bool
  tripUntil : Option Nat
  hints : List Hint
  window : List (Nat × Nat)
  pIdle : Nat
  ratioNum : Nat
  ratioDen : Nat
  trip : Flag
  disagree : Flag
  hintDrop : Flag
  raiseFail : Flag
  estimate : Nat
  measured : Nat
  limited : Nat
  paced : Nat
  paceWait : Nat
  energy : List Nat
  carry : List Nat
  badRun : Nat
  goodRun : Nat
  rails : List RailSample
  vioEstimate : Nat
  deriving DecidableEq, Repr

/-- Temperatures and the thermal ceiling (R415, R425): a ceiling of none is free running. -/
structure ThmSt where
  limit : Nat
  hit : Flag
  peak : List Int
  hottest : List Int
  ceiling : Option Nat
  duty : Nat
  coolSince : Option Nat
  atLimit : Bool
  stepAt : Nat
  tripped : Bool
  deriving DecidableEq, Repr

/-- A unit's bucket (R426, R429, R519). Status: 0 in service, 1 spare, 2 suspect, 3 retired. -/
structure UnitSt where
  unit : HwUnit
  status : Nat
  level : Nat
  marked : Bool
  deriving DecidableEq, Repr

/-- HLTH.CLASS of one class (R426, R440), and the threshold and leak period in force in this beat (R428). -/
structure ClassSt where
  threshold : Nat
  leakMs : Nat
  retired : Nat
  exonerated : Nat
  inThreshold : Nat
  inLeak : Nat
  deriving DecidableEq, Repr

/-- Health and faults (chapter 16): reason bits by source, classes, suspicions in order, control-core pairs, the buckets
of the Ethernet ports and the standing of the pairs. Pair roles: 0, 1, standby 2, out of service 3, both roles 4.
`advised` says that the state has been REPLACE_ADVISED or FAILED (R438). Log 101: DEDUCED. -/
structure HlthSt where
  state : Nat
  reason : Nat
  stateChange : Flag
  suspectFlag : Flag
  retiredFlag : Flag
  exoneratedFlag : Flag
  classes : List ClassSt
  suspicions : List HwUnit
  units : List UnitSt
  pairs : List Nat
  advised : Bool
  bridgeLost : Bool
  dieFault : Bool
  boardService : Bool
  journal : Nat
  failed : Bool
  deriving DecidableEq, Repr

/-- One station status entry (R490, R491), also of a die's Front. `names` are the logical numbers it carries. Log 140: DEDUCED. -/
structure StnSt where
  die : Nat
  letter : Nat
  num : Nat
  state : Nat
  marked : Bool
  names : List Nat
  level : Nat
  mismatch : Flag
  eccCe : Flag
  eccUe : Flag
  saturated : Nat
  nanOut : Nat
  stall0 : Nat
  stall1 : Nat
  starve0 : Nat
  starve1 : Nat
  starve2 : Nat
  roleA : Nat
  roleB : Nat
  roleC : Nat
  descs : Nat
  deriving DecidableEq, Repr

/-- One FROND.CFG entry (R492). -/
structure FrondCfg where
  die : Nat
  num : Nat
  loadMode : Nat
  unbound : Bool
  runMode : Nat
  phys : Nat
  deriving DecidableEq, Repr

/-- Stations, names and bindings. `cfg` per logical Frond name; `unbound` the other names nothing carries (R432). -/
structure StnsSt where
  mapsApplied : Bool
  stns : List StnSt
  cfg : List FrondCfg
  unbound : List (Nat × Nat × Nat)
  deriving DecidableEq, Repr

end Sys2Proof.Machine
end

