-- ==== Sys2Proof/Machine/Num.lean ====
section
/-! DEFINITION. Exact values and FP32 arithmetic (R39, R49, R53, R62, R99, R103). A value is a sign, a magnitude and a
power of two, so that sums and products are exact and every rounding is written where the spec puts it. -/
namespace Sys2Proof.Machine

/-- A value of an element format: a NaN, an infinity, or (-1)^neg * mag * 2^exp. -/
inductive Num where
  | nan
  | inf (neg : Bool)
  | fin (neg : Bool) (mag : Nat) (exp : Int)
  deriving DecidableEq, Repr, Inhabited

namespace Num

/-- Positive zero. -/
def zero : Num := .fin false 0 0

/-- The integer as an exact value. -/
def ofInt (i : Int) : Num := .fin (i < 0) i.natAbs 0

/-- Whether the value is a zero of either sign. -/
def isZero : Num → Bool
  | .fin _ 0 _ => true
  | _ => false

/-- Whether the value is finite. -/
def isFinite : Num → Bool
  | .fin _ _ _ => true
  | _ => false

/-- The value with the opposite sign. -/
def neg : Num → Num
  | .nan => .nan
  | .inf s => .inf (!s)
  | .fin s m e => .fin (!s) m e

/-- Multiplication by 2^k, exact (the scale factor of R40). -/
def scale (x : Num) (k : Int) : Num :=
  match x with
  | .fin s m e => .fin s m (e + k)
  | y => y

/-- The exact product; infinity times zero is a NaN (R49). -/
def mul : Num → Num → Num
  | .nan, _ => .nan
  | _, .nan => .nan
  | .inf s, .inf t => .inf (s != t)
  | .inf s, .fin t m _ => if m = 0 then .nan else .inf (s != t)
  | .fin s m _, .inf t => if m = 0 then .nan else .inf (s != t)
  | .fin s m e, .fin t n f => .fin (s != t) (m * n) (e + f)

/-- The signed mantissa at exponent `e`, which is at or below the value's own. -/
def mantAt (s : Bool) (m : Nat) (ex e : Int) : Int :=
  let a : Nat := m * 2 ^ (ex - e).toNat
  if s then -(a : Int) else (a : Int)

/-- The exact sum; opposite infinities give a NaN; an exact zero sum is +0 unless both operands are negative. -/
def add : Num → Num → Num
  | .nan, _ => .nan
  | _, .nan => .nan
  | .inf s, .inf t => if s = t then .inf s else .nan
  | .inf s, .fin _ _ _ => .inf s
  | .fin _ _ _, .inf t => .inf t
  | .fin s m e, .fin t n f =>
    let g := min e f
    let r := mantAt s m e g + mantAt t n f g
    if r = 0 then .fin (s && t) 0 0 else .fin (r < 0) r.natAbs g

/-- Numerical less-than; false when either operand is a NaN. -/
def lt : Num → Num → Bool
  | .nan, _ => false
  | _, .nan => false
  | .inf s, .inf t => s && !t
  | .inf s, .fin _ _ _ => s
  | .fin _ _ _, .inf t => !t
  | .fin s m e, .fin t n f =>
    let g := min e f
    decide (mantAt s m e g < mantAt t n f g)

/-- Numerical less-or-equal; false when either operand is a NaN. -/
def le (x y : Num) : Bool :=
  match x, y with
  | .nan, _ => false
  | _, .nan => false
  | x, y => !(lt y x)

/-- The exponent of the leading bit of a non-zero finite magnitude: the floor of its base-2 logarithm. -/
def topExp (m : Nat) (e : Int) : Int := (Nat.log2 m : Int) + e

/-- IEEE maxNum with the two departures of R100: a NaN in the row makes the result NaN, and max(+0, -0) is +0. -/
def maxR100 (x y : Num) : Num :=
  match x, y with
  | .nan, _ => .nan
  | _, .nan => .nan
  | x, y =>
    if x.isZero && y.isZero then
      match x, y with
      | .fin true _ _, .fin true _ _ => .fin true 0 0
      | _, _ => zero
    else if lt x y then y else x

end Num

/-- Rounding of a magnitude to a multiple of 2^q: to nearest with ties to even (R54). -/
def roundNearest (m : Nat) (e q : Int) : Nat :=
  if q ≤ e then m * 2 ^ (e - q).toNat
  else
    let n := (q - e).toNat
    let base := m >>> n
    let rem := m % 2 ^ n
    let half := 2 ^ n
    if 2 * rem > half ∨ (2 * rem = half ∧ base % 2 = 1) then base + 1 else base

/-- Stochastic rounding of a magnitude to a multiple of 2^q (R59): away from zero when the 32-bit truncated
fraction is above the random word. -/
def roundStochastic (m : Nat) (e q : Int) (r : Nat) : Nat :=
  if q ≤ e then m * 2 ^ (e - q).toNat
  else
    let n := (q - e).toNat
    let base := m >>> n
    let frac := (m % 2 ^ n) * 2 ^ 32 / 2 ^ n
    if frac > r then base + 1 else base

/-- A binary floating-point layout: exponent bits, mantissa bits, bias, and how the top exponent is used (R39). Log 149: DESIGN CHOICE. -/
structure FloatFmt where
  expBits : Nat
  manBits : Nat
  bias : Nat
  ieee : Bool
  topNanOnly : Bool
  deriving DecidableEq, Repr

/-- FP32. -/
def fp32Fmt : FloatFmt := ⟨8, 23, 127, true, false⟩

/-- The largest finite code of the layout, without its sign bit. -/
def FloatFmt.maxCode (f : FloatFmt) : Nat :=
  if f.ieee then (2 ^ f.expBits - 1) * 2 ^ f.manBits - 1
  else if f.topNanOnly then 2 ^ (f.expBits + f.manBits) - 2
  else 2 ^ (f.expBits + f.manBits) - 1

/-- The value of an encoded element; subnormals keep their value (R41). -/
def FloatFmt.decode (f : FloatFmt) (raw : Nat) : Num :=
  let s := raw / 2 ^ (f.expBits + f.manBits) % 2 = 1
  let e := raw / 2 ^ f.manBits % 2 ^ f.expBits
  let m := raw % 2 ^ f.manBits
  if f.ieee && e == 2 ^ f.expBits - 1 then
    if m = 0 then .inf s else .nan
  else if f.topNanOnly && raw % 2 ^ (f.expBits + f.manBits) == 2 ^ (f.expBits + f.manBits) - 1 then .nan
  else if e = 0 then .fin s m (1 - (f.bias : Int) - f.manBits)
  else .fin s (m + 2 ^ f.manBits) ((e : Int) - f.bias - f.manBits)

/-- The code of a finite magnitude rounded into the layout, without its sign, unbounded above: none when it passes
the largest finite code. `rnd` is the random word of stochastic rounding. -/
def FloatFmt.roundCode (f : FloatFmt) (m : Nat) (e : Int) (rnd : Option Nat) : Option Nat :=
  if m = 0 then some 0
  else
    let emin : Int := 1 - f.bias
    let q := max (Num.topExp m e) emin - f.manBits
    let k := match rnd with
      | none => roundNearest m e q
      | some r => roundStochastic m e q r
    -- a carry out of the mantissa runs into the exponent field by itself
    let biased : Int := q - (emin - f.manBits)
    let code := (biased * 2 ^ f.manBits + k : Int)
    if code ≤ f.maxCode then some code.toNat else none

/-- The sign bit of a code. -/
def FloatFmt.signBit (f : FloatFmt) (s : Bool) : Nat := if s then 2 ^ (f.expBits + f.manBits) else 0

/-- The canonical quiet NaN of an IEEE layout (R56). -/
def FloatFmt.quietNan (f : FloatFmt) : Nat := (2 ^ f.expBits - 1) * 2 ^ f.manBits + 2 ^ (f.manBits - 1)

/-- Conversion into an IEEE format (R56): overflow gives infinity to nearest and the largest finite value under
stochastic rounding. The flag says that a finite value left the range. Log 149: DESIGN CHOICE. -/
def FloatFmt.encodeIeee (f : FloatFmt) (x : Num) (rnd : Option Nat) : Nat × Bool :=
  match x with
  | .nan => (f.quietNan, false)
  | .inf s => (f.signBit s + (2 ^ f.expBits - 1) * 2 ^ f.manBits, false)
  | .fin s m e =>
    match f.roundCode m e rnd with
    | some c => (f.signBit s + c, false)
    | none =>
      if rnd.isSome then (f.signBit s + f.maxCode, true)
      else (f.signBit s + (2 ^ f.expBits - 1) * 2 ^ f.manBits, true)

/-- FP32 value of raw bits. -/
def f32 (w : Word) : Num := fp32Fmt.decode w.toNat

/-- Rounding to FP32, to nearest with ties to even: `rne` of the spec. Log 116: DESIGN CHOICE. -/
def toF32 (x : Num) : Word := BitVec.ofNat 32 (fp32Fmt.encodeIeee x none).1

/-- Canonical quiet NaN of FP32 (R56). -/
def nan32 : Word := 0x7FC00000#32

/-- FP32 one. -/
def one32 : Word := 0x3F800000#32

/-- FP32 minus infinity. -/
def negInf32 : Word := 0xFF800000#32

/-- FP32 addition. -/
def fadd (a b : Word) : Word := toF32 (Num.add (f32 a) (f32 b))

/-- FP32 subtraction. -/
def fsub (a b : Word) : Word := toF32 (Num.add (f32 a) (Num.neg (f32 b)))

/-- FP32 multiplication. -/
def fmul (a b : Word) : Word := toF32 (Num.mul (f32 a) (f32 b))

/-- The exact product added exactly and rounded once (R110). -/
def ffma (a b c : Word) : Word := toF32 (Num.add (Num.mul (f32 a) (f32 b)) (f32 c))

/-- FP32 less-than. -/
def flt (a b : Word) : Bool := Num.lt (f32 a) (f32 b)

/-- FP32 less-or-equal. -/
def fle (a b : Word) : Bool := Num.le (f32 a) (f32 b)

/-- Whether FP32 bits are finite. -/
def ffinite (a : Word) : Bool := (f32 a).isFinite

/-- The exact quotient to 64 and more significant bits with a sticky bit, for rounding (R99). -/
def Num.div (x y : Num) : Num :=
  match x, y with
  | .nan, _ => .nan
  | _, .nan => .nan
  | .inf _, .inf _ => .nan
  | .inf s, .fin t _ _ => .inf (s != t)
  | .fin s _ _, .inf t => .fin (s != t) 0 0
  | .fin s m e, .fin t n f =>
    if n = 0 then (if m = 0 then .nan else .inf (s != t))
    else if m = 0 then .fin (s != t) 0 0
    else
      let k := 66 + Nat.log2 n
      let num := m * 2 ^ k
      let q := num / n
      let sticky := if num % n = 0 then 0 else 1
      .fin (s != t) (2 * q + sticky) (e - f - k - 1)

/-- FP32 division, correctly rounded (R99). -/
def fdiv (a b : Word) : Word := toF32 (Num.div (f32 a) (f32 b))

/-- Integer square root, bit by bit from bit `fuel - 1` down. -/
def isqrtAux (n : Nat) : Nat → Nat → Nat
  | 0, acc => acc
  | fuel + 1, acc =>
    let t := acc + 2 ^ fuel
    if t * t ≤ n then isqrtAux n fuel t else isqrtAux n fuel acc

/-- The floor of the square root. -/
def isqrt (n : Nat) : Nat := isqrtAux n (Nat.log2 n / 2 + 1) 0

/-- The square root to 64 and more significant bits with a sticky bit; negative values give a NaN. -/
def Num.sqrt (x : Num) : Num :=
  match x with
  | .nan => .nan
  | .inf s => if s then .nan else .inf false
  | .fin s m e =>
    if m = 0 then .fin s 0 0
    else if s then .nan
    else
      let odd := (e % 2 = 1 : Bool)
      let m1 := if odd then 2 * m else m
      let e1 := if odd then e - 1 else e
      let n := m1 * 2 ^ 140
      let q := isqrt n
      let sticky := if q * q = n then 0 else 1
      .fin false (2 * q + sticky) (e1 / 2 - 70 - 1)

/-- FP32 square root, correctly rounded (R99). -/
def fsqrt (a : Word) : Word := toF32 (Num.sqrt (f32 a))

/-- FP32 maximum of R100. -/
def fmax (a b : Word) : Word := toF32 (Num.maxR100 (f32 a) (f32 b))

/-- FP32 minimum: the smaller operand, a NaN when either is a NaN. Log 150: DESIGN CHOICE. -/
def fmin (a b : Word) : Word :=
  match f32 a, f32 b with
  | .nan, _ => nan32
  | _, .nan => nan32
  | x, y => if Num.lt y x then b else a

/-- The FP32 image of a natural number, exact below 2^24. -/
def ofNat32 (n : Nat) : Word := toF32 (.fin false n 0)

/-- The natural number an FP32 value holds, when it is a non-negative integer (R108). -/
def natOf32 (w : Word) : Option Nat :=
  match f32 w with
  | .fin s m e =>
    if s && m ≠ 0 then none
    else if 0 ≤ e then some (m * 2 ^ e.toNat)
    else if m % 2 ^ (-e).toNat = 0 then some (m / 2 ^ (-e).toNat) else none
  | _ => none

/-- Sum of a list by the fixed pairwise tree of R100 over positions padded with +0 to a power of two; each addition
rounds. `fuel` bounds the number of levels. -/
def treeSumAux : Nat → List Word → Word
  | 0, xs => xs.headD 0#32
  | fuel + 1, xs =>
    match xs with
    | [] => 0#32
    | [x] => x
    | xs => treeSumAux fuel (pairUp xs)
where
  pairUp : List Word → List Word
    | [] => []
    | [x] => [fadd x 0#32]
    | x :: y :: rest => fadd x y :: pairUp rest

/-- The tree sum of one piece (R100). -/
def treeSum (xs : List Word) : Word := treeSumAux (Nat.log2 xs.length + 1) xs

end Sys2Proof.Machine
end

