-- ==== Sys2Proof/Machine/Philox.lean ====
section
/-! DEFINITION. Philox-4x32-10 (R58, R60), the published counter-based generator the spec names (PRESUMED, log 7). -/
namespace Sys2Proof.Machine

/-- The four words of a Philox counter or output block. -/
structure Quad where
  a : Nat
  b : Nat
  c : Nat
  d : Nat
  deriving DecidableEq, Repr

/-- One Philox-4x32 round with key words k0 and k1. -/
def philoxRound (q : Quad) (k0 k1 : Nat) : Quad :=
  let p0 := 0xD2511F53 * q.a
  let p1 := 0xCD9E8D57 * q.c
  ⟨((p1 / 2 ^ 32) ^^^ q.b) ^^^ k0, p1 % 2 ^ 32, ((p0 / 2 ^ 32) ^^^ q.d) ^^^ k1, p0 % 2 ^ 32⟩

/-- `n` rounds, the key words rising by the Weyl constants between rounds. -/
def philoxRounds : Nat → Quad → Nat → Nat → Quad
  | 0, q, _, _ => q
  | n + 1, q, k0, k1 =>
    philoxRounds n (philoxRound q k0 k1) ((k0 + 0x9E3779B9) % 2 ^ 32) ((k1 + 0xBB67AE85) % 2 ^ 32)

/-- Philox-4x32-10 of a 64-bit key, low word first, and a 128-bit counter. Log 7: PRESUMED. -/
def philox (key : Nat) (ctr : Quad) : Quad :=
  philoxRounds 10 ctr (key % 2 ^ 32) (key / 2 ^ 32 % 2 ^ 32)

/-- Word `i` of an output block, i from 0 to 3. -/
def Quad.word (q : Quad) (i : Nat) : Nat :=
  match i % 4 with
  | 0 => q.a
  | 1 => q.b
  | 2 => q.c
  | _ => q.d

/-- The random word of the element at a row and column of the logical output tensor (R58). Log 7: PRESUMED. -/
def roundWord (key tensorId iteration row col : Nat) : Nat :=
  (philox key ⟨tensorId % 2 ^ 32, iteration % 2 ^ 32, row % 2 ^ 32, col / 4 % 2 ^ 32⟩).word col

end Sys2Proof.Machine
end

