-- ==== Sys2Proof/Machine/Operands.lean ====
section
/-! DEFINITION. Element formats, rows and tiles (R39 to R46), conversion on output (R54 to R59) and the reduction of
products (R47 to R53): every operand form of the stations. -/
namespace Sys2Proof.Machine

/-- Little-endian value of bytes (R13). -/
def leNat : List Byte → Nat
  | [] => 0
  | b :: bs => b.toNat + 256 * leNat bs

/-- `n` little-endian bytes of a value (R13). -/
def leBytes : Nat → Nat → List Byte
  | 0, _ => []
  | n + 1, v => BitVec.ofNat 8 v :: leBytes n (v / 256)

/-- The little-endian field of `size` bytes at `off`; bytes past the end read as zero. -/
def leAt (bs : List Byte) (off size : Nat) : Nat := leNat ((bs.drop off).take size)

/-- The element formats of R39. -/
inductive Fmt where
  | e4m3 | e5m2 | e2m3 | e3m2 | e2m1 | mxint8 | int8 | bf16 | fp16 | fp32
  deriving DecidableEq, Repr

namespace Fmt

/-- The format of a code; reserved codes give none (R39). -/
def ofCode : Nat → Option Fmt
  | 0x01 => some e4m3
  | 0x02 => some e5m2
  | 0x03 => some e2m3
  | 0x04 => some e3m2
  | 0x05 => some e2m1
  | 0x06 => some mxint8
  | 0x07 => some int8
  | 0x08 => some bf16
  | 0x09 => some fp16
  | 0x0A => some fp32
  | _ => none

/-- The code of a format (R39). -/
def code : Fmt → Nat
  | e4m3 => 1 | e5m2 => 2 | e2m3 => 3 | e3m2 => 4 | e2m1 => 5
  | mxint8 => 6 | int8 => 7 | bf16 => 8 | fp16 => 9 | fp32 => 10

/-- Bits of one element (R39). -/
def bits : Fmt → Nat
  | e4m3 | e5m2 | mxint8 | int8 => 8
  | e2m3 | e3m2 => 6
  | e2m1 => 4
  | bf16 | fp16 => 16
  | fp32 => 32

/-- Elements of a full tile row (R42). -/
def tileK : Fmt → Nat
  | e4m3 | e5m2 | mxint8 | int8 => 256
  | e2m3 | e3m2 => 341
  | e2m1 => 512
  | bf16 | fp16 => 128
  | fp32 => 64

/-- Whether blocks of the format share an E8M0 scale (R39, R40). -/
def isMx : Fmt → Bool
  | e4m3 | e5m2 | e2m3 | e3m2 | e2m1 | mxint8 => true
  | _ => false

/-- Whether stochastic rounding into the format is allowed (R54). -/
def allowsStochastic : Fmt → Bool
  | int8 | mxint8 | fp32 => false
  | _ => true

/-- The exponent of the largest power of two of an MX format (R55). -/
def emax : Fmt → Int
  | e4m3 => 8 | e5m2 => 15 | e2m3 => 2 | e3m2 => 4 | e2m1 => 2
  | _ => 0

/-- The layout of a floating format; the integer formats have none. -/
def layout : Fmt → Option FloatFmt
  | e4m3 => some ⟨4, 3, 7, false, true⟩
  | e5m2 => some ⟨5, 2, 15, true, false⟩
  | e2m3 => some ⟨2, 3, 1, false, false⟩
  | e3m2 => some ⟨3, 2, 3, false, false⟩
  | e2m1 => some ⟨2, 1, 1, false, false⟩
  | bf16 => some ⟨8, 7, 127, true, false⟩
  | fp16 => some ⟨5, 10, 15, true, false⟩
  | fp32 => some fp32Fmt
  | mxint8 | int8 => none

/-- Two's complement reading of an 8-bit code. -/
def signed8 (raw : Nat) : Int := if raw % 256 < 128 then (raw % 256 : Nat) else (raw % 256 : Nat) - 256

/-- Element value without its block scale (R39). -/
def decode (f : Fmt) (raw : Nat) : Num :=
  match f.layout with
  | some l => l.decode raw
  | none =>
    let i := signed8 raw
    .fin (i < 0) i.natAbs (if f = mxint8 then -6 else 0)

/-- Element value with the E8M0 scale of its block; scale 0xFF reads as NaN (R40). -/
def decodeScaled (f : Fmt) (raw scale : Nat) : Num :=
  if f.isMx then
    if scale = 0xFF then .nan else (f.decode raw).scale ((scale : Int) - 127)
  else f.decode raw

/-- Element class of R47 and R64: dual-lane, 8-bit, 16-bit or FP32. -/
def narrow : Fmt → Bool
  | e2m3 | e3m2 | e2m1 => true
  | _ => false

end Fmt

/-- Whether the two operand formats of a matrix operation form a legal pair (R47). -/
def legalPair (a b : Fmt) : Bool :=
  if a.isMx && b.isMx then true else a = b && !a.isMx

/-- Depth of a stationary set for an operand pair (R64). -/
def setDepth (a b : Fmt) : Nat :=
  if a.narrow && b.narrow then 512
  else if a.bits = 32 then 64
  else if a.bits = 16 then 128
  else 256

/-- MACs per array per cycle of an operand pair (R47). -/
def macRate (a b : Fmt) : Nat :=
  if a.narrow && b.narrow then 32768
  else if a.bits = 32 then 2048
  else if a.bits = 16 then 8192
  else 16384

/-- One tile row: its VALID bit, its tag, its 256 payload bytes and its scale slots (R42, R44, R184). Missing bytes
read as zero. -/
structure Row where
  valid : Bool
  tag : Word
  data : List Byte
  scales : List Byte
  deriving DecidableEq, Repr, Inhabited

/-- A tile: FORMAT, K_EXTENT and 64 rows (R42, R44). `last` says that the tile ends its row group (R97), which the
sideband does not carry: the model's own field (DESIGN CHOICE, log 111). -/
structure Tile where
  format : Nat
  kExtent : Nat
  rows : List Row
  last : Bool
  deriving DecidableEq, Repr, Inhabited

/-- An invalid row, all zero (R45). -/
def emptyRow : Row := ⟨false, 0#32, [], []⟩

/-- No tile. -/
def Tile.blank : Tile := ⟨0, 0, [], true⟩

/-- Row `r` of a tile. -/
def Tile.row (t : Tile) (r : Nat) : Row := t.rows.getD r emptyRow

/-- Whether a station may use the tile under a descriptor that names `code` (R46). -/
def Tile.ok (t : Tile) (code : Nat) : Bool :=
  match Fmt.ofCode code with
  | none => false
  | some f => t.format = code && 1 ≤ t.kExtent && t.kExtent ≤ f.tileK

/-- Raw code of element `k` of a row (R42): the elements lie from bit 0 of byte 0 upward without gaps. -/
def rawElem (f : Fmt) (data : List Byte) (k : Nat) : Nat :=
  leNat data / 2 ^ (k * f.bits) % 2 ^ f.bits

/-- Elements `from_` to `from_ + n - 1` of a row; positions at or past K_EXTENT and invalid rows read as zero (R45). -/
def rowNums (f : Fmt) (kExtent : Nat) (r : Row) (from_ n : Nat) : List Num :=
  let payload := leNat r.data
  (List.range n).map fun i =>
    let k := from_ + i
    if r.valid && decide (k < kExtent) then
      f.decodeScaled (payload / 2 ^ (k * f.bits) % 2 ^ f.bits) (r.scales.getD (k / 32) 0#8).toNat
    else Num.zero

/-- A raw 32-bit word of an index, address or FP32 tile (R98). -/
def rowWord (r : Row) (col : Nat) : Word := BitVec.ofNat 32 (leAt r.data (4 * col) 4)

/-- Payload bytes of packed element codes, filled to 256 bytes (R42). -/
def packRow (f : Fmt) (raws : List Nat) : List Byte :=
  leBytes 256 (raws.foldr (fun v acc => v % 2 ^ f.bits + 2 ^ f.bits * acc) 0)

/-- An FP32 tile row of raw words. -/
def wordsRow (valid : Bool) (tag : Word) (ws : List Word) : Row :=
  ⟨valid, tag, packRow .fp32 (ws.map BitVec.toNat), []⟩

/-- Bytes filled or cut to a length. -/
def padTo (n : Nat) (bs : List Byte) : List Byte := (bs ++ List.replicate (n - bs.length) 0#8).take n

/-- Bytes of a tile image (R122). -/
def imageBytes : Nat := 18432

/-- The 64 rows of a tile, missing rows invalid. -/
def Tile.rows64 (t : Tile) : List Row := (List.range 64).map t.row

/-- The sideband of R44. -/
def Tile.sideband (t : Tile) : List Byte :=
  let valid := t.rows64.foldr (fun r acc => (if r.valid then 1 else 0) + 2 * acc) 0
  leBytes 2 t.format ++ leBytes 2 t.kExtent ++ leBytes 4 0 ++ leBytes 8 valid ++ leBytes 16 0 ++
    (t.rows64.map fun r => leBytes 4 r.tag.toNat).flatten ++ (t.rows64.map fun r => padTo 16 r.scales).flatten

/-- The 18,432-byte image of a tile: payload, sideband, zeros (R122, R139). -/
def Tile.image (t : Tile) : List Byte :=
  padTo imageBytes ((t.rows64.map fun r => padTo 256 r.data).flatten ++ t.sideband)

/-- The tile that an image holds; reserved bytes are ignored (R44). -/
def tileOfImage (bs : List Byte) : Tile :=
  let side := bs.drop 16384
  let valid := leAt side 8 8
  { format := leAt side 0 1
    kExtent := leAt side 2 2
    rows := (List.range 64).map fun r =>
      { valid := valid / 2 ^ r % 2 = 1
        tag := BitVec.ofNat 32 (leAt side (0x20 + 4 * r) 4)
        data := (bs.drop (256 * r)).take 256
        scales := (side.drop (0x120 + 16 * r)).take 16 }
    last := true }

/-- Bytes with every bit from bit `n` on zero. -/
def maskBits (n : Nat) (bs : List Byte) : List Byte := leBytes bs.length (leNat bs % 2 ^ n)

/-- What a producer writes of a tile (R43 to R45): invalid rows, positions at or past K_EXTENT, spare bits and unused scale
slots are zero. -/
def Tile.clean (t : Tile) : Tile :=
  let f := (Fmt.ofCode t.format).getD .fp32
  { t with rows := t.rows.map fun r =>
      if r.valid then
        ⟨true, r.tag, maskBits (t.kExtent * f.bits) r.data,
          if f.isMx then maskBits (8 * ((t.kExtent + 31) / 32)) r.scales else maskBits 0 r.scales⟩
      else ⟨false, r.tag, maskBits 0 r.data, maskBits 0 r.scales⟩ }

/-- The row tag of R184 by its fields. -/
structure Tag where
  gen : Nat
  row : Nat
  slot : Nat
  last : Bool
  draft : Bool
  pad : Bool
  deriving DecidableEq, Repr

/-- Fields of a tag word (R184). -/
def tagOf (w : Word) : Tag :=
  let n := w.toNat
  ⟨n / 2 ^ 24, n / 2 ^ 8 % 2 ^ 16, n / 2 ^ 5 % 8, n / 4 % 2 = 1, n / 2 % 2 = 1, n % 2 = 1⟩

/-- The tag word of fields; reserved bits are written zero (R184). -/
def Tag.word (t : Tag) : Word :=
  BitVec.ofNat 32 (t.gen % 256 * 2 ^ 24 + t.row % 65536 * 2 ^ 8 + t.slot % 8 * 2 ^ 5 +
    (if t.last then 4 else 0) + (if t.draft then 2 else 0) + (if t.pad then 1 else 0))

/-- Elements saturated, and elements or blocks made NaN, by a conversion (R57). Log 149: DESIGN CHOICE. -/
structure ConvStat where
  sat : Nat
  nan : Nat
  deriving DecidableEq, Repr

/-- Sum of two conversion counts. -/
def ConvStat.plus (a b : ConvStat) : ConvStat := ⟨a.sat + b.sat, a.nan + b.nan⟩

/-- One MX element: the value is already divided by the block scale; clamped to the largest finite element (R55). -/
def mxElem (f : Fmt) (x : Num) (rnd : Option Nat) : Nat × Nat :=
  match f.layout, x with
  | some l, .fin s m e =>
    match l.roundCode m e rnd with
    | some c => (l.signBit s + c, 0)
    | none => (l.signBit s + l.maxCode, 1)
  | some l, .inf s => (l.signBit s + (2 ^ l.expBits - 1) * 2 ^ l.manBits, 0)
  | some _, .nan => (0, 0)
  | none, .fin s m e =>
    let q := roundNearest m e (-6)
    let c := min q 127
    ((if s then 256 - c else c) % 256, if c < q then 1 else 0)
  | none, _ => (0, 0)

/-- Largest magnitude among finite values, as its top exponent; none when all are zero (R55). -/
def blockTop : List Num → Option Int
  | [] => none
  | .fin _ m e :: xs =>
    if m = 0 then blockTop xs
    else match blockTop xs with
      | none => some (Num.topExp m e)
      | some t => some (max t (Num.topExp m e))
  | _ :: xs => blockTop xs

/-- Conversion of one block into an MX format (R55): element codes, the scale code and the counts. -/
def mxBlock (f : Fmt) (xs : List (Num × Option Nat)) : List Nat × Nat × ConvStat :=
  let vals := xs.map Prod.fst
  let hasNan := vals.any fun v => v = .nan
  let hasInf := vals.any fun v => match v with | .inf _ => true | _ => false
  if hasNan || (hasInf && f ≠ .e5m2) then (xs.map fun _ => 0, 0xFF, ⟨0, 1⟩)
  else
    let x : Int := match blockTop vals with
      | none => -127
      | some t => max (-127) (min 127 (t - f.emax))
    let es := xs.map fun (v, r) => mxElem f (v.scale (-x)) r
    (es.map Prod.fst, (x + 127).toNat, ⟨(es.map Prod.snd).sum, 0⟩)

/-- Conversion of one value into INT8: saturating, a NaN gives 0 (R56). -/
def int8Elem (x : Num) : Nat × Nat :=
  match x with
  | .nan => (0, 0)
  | .inf s => (if s then 128 else 127, 1)
  | .fin s m e =>
    let q := roundNearest m e 0
    let lim := if s then 128 else 127
    let c := min q lim
    ((if s then 256 - c else c) % 256, if c < q then 1 else 0)

/-- The list cut into runs of `n`; `fuel` bounds the number of runs. -/
def chunksAux {α : Type} (n : Nat) : Nat → List α → List (List α)
  | 0, _ => []
  | fuel + 1, xs =>
    match xs with
    | [] => []
    | x :: rest => ((x :: rest).take n) :: chunksAux n fuel ((x :: rest).drop n)

/-- The list cut into runs of `n`, the last one short. -/
def chunks {α : Type} (n : Nat) (xs : List α) : List (List α) := chunksAux n xs.length xs

/-- Conversion of a run of values from the first element of an output piece (R55, R56): element codes, scales,
counts. `rnd` gives the random word of the i-th element under stochastic rounding. -/
def convertRun (f : Fmt) (xs : List Num) (rnd : Nat → Option Nat) : List Nat × List Byte × ConvStat :=
  let tagged := xs.zipIdx.map fun (v, i) => (v, rnd i)
  if f.isMx then
    let bs := (chunks 32 tagged).map (mxBlock f)
    ((bs.map fun b => b.1).flatten, bs.map fun b => BitVec.ofNat 8 b.2.1,
      (bs.map fun b => b.2.2).foldl ConvStat.plus ⟨0, 0⟩)
  else
    match f.layout with
    | none =>
      let es := xs.map int8Elem
      (es.map Prod.fst, [], ⟨(es.map Prod.snd).sum, 0⟩)
    | some l =>
      let es := tagged.map fun (v, r) => (l.encodeIeee v r, v)
      (es.map fun e => e.1.1, [],
        ⟨(es.filter fun e => e.1.2).length, (es.filter fun e => e.2 = .nan).length⟩)

/-- One logical row: validity, tag and values. -/
structure LRow where
  valid : Bool
  tag : Word
  vals : List Num
  deriving DecidableEq, Repr

/-- Rounding settings of a conversion: the format, the mode, the key and counter words and the logical place of
element (0, 0) (R54, R58). -/
structure Rounding where
  fmt : Fmt
  stochastic : Bool
  key : Nat
  tensorId : Nat
  iteration : Nat
  rowBase : Nat
  colBase : Nat
  deriving DecidableEq, Repr

/-- The random word of the element in logical row `r` and column `c` (R58); none under round to nearest. -/
def Rounding.word (g : Rounding) (r c : Nat) : Option Nat :=
  if g.stochastic && g.fmt.allowsStochastic then
    some (roundWord g.key g.tensorId g.iteration (g.rowBase + r) (g.colBase + c))
  else none

/-- One output row of a piece: values `c0` to `c0 + w - 1` of logical row `r` (R79, R97). -/
def convertRow (g : Rounding) (r : Nat) (l : LRow) (c0 w : Nat) : Row × ConvStat :=
  if l.valid then
    let (raws, scales, st) := convertRun g.fmt ((l.vals.drop c0).take w) fun i => g.word r (c0 + i)
    (⟨true, l.tag, packRow g.fmt raws, scales⟩, st)
  else (⟨false, l.tag, [], []⟩, ⟨0, 0⟩)

/-- The tiles of one row group of up to 64 logical rows of `width` values, pieces ascending (R79). `r0` is the
logical row of the first. -/
def emitGroup (g : Rounding) (r0 : Nat) (rows : List LRow) (width : Nat) : List Tile × ConvStat :=
  let k := g.fmt.tileK
  let pieces := (width + k - 1) / k
  let made := (List.range pieces).map fun p =>
    let w := min k (width - p * k)
    let rs := rows.zipIdx.map fun (l, i) => convertRow g (r0 + i) l (p * k) w
    (Tile.mk g.fmt.code w (rs.map Prod.fst) (decide (p + 1 = pieces)), (rs.map Prod.snd).foldl ConvStat.plus ⟨0, 0⟩)
  (made.map Prod.fst, (made.map Prod.snd).foldl ConvStat.plus ⟨0, 0⟩)

/-- Tiles of all row groups in ascending order (R79). -/
def emitTiles (g : Rounding) (rows : List LRow) (width : Nat) : List Tile × ConvStat :=
  let made := (chunks 64 rows).zipIdx.map fun (rs, i) => emitGroup g (64 * i) rs width
  ((made.map Prod.fst).flatten, (made.map Prod.snd).foldl ConvStat.plus ⟨0, 0⟩)

/-- The 64 logical rows of `len` elements of one row group from its pieces, in piece order (R97): piece `p` holds the logical
columns from `p` times the format's K, and positions at or past a piece's K_EXTENT read as zero (R45). Log 116: DESIGN CHOICE. -/
def readGroup (f : Fmt) (len : Nat) (pieces : List Tile) : List LRow :=
  (List.range 64).map fun r =>
    let first := (pieces.headD Tile.blank).row r
    { valid := first.valid
      tag := first.tag
      vals := padNums len (pieces.map fun t => rowNums f t.kExtent (t.row r) 0 f.tileK).flatten }
where
  padNums (len : Nat) (xs : List Num) : List Num := (xs ++ List.replicate (len - xs.length) Num.zero).take len

/-- Number of pieces of a row of `len` elements in format `f` (R97). -/
def pieceCount (f : Fmt) (len : Nat) : Nat := (len + f.tileK - 1) / f.tileK

/-- A value rounded to BF16, the step by which R53 splits an FP32 operand. -/
def splitBf16 (x : Num) : Num :=
  match Fmt.bf16.layout with
  | some l => l.decode (l.encodeIeee x none).1
  | none => x

/-- The product that enters R49 for a pair of operand values; `isFp32` selects the three-term split of R53, which an infinite
operand leaves with a NaN term. -/
def product (isFp32 : Bool) (a b : Num) : Num :=
  if isFp32 then
    let ah := splitBf16 a
    let ar := f32 (toF32 (Num.add a ah.neg))
    let am := splitBf16 ar
    let al := splitBf16 (f32 (toF32 (Num.add ar am.neg)))
    let bh := splitBf16 b
    let br := f32 (toF32 (Num.add b bh.neg))
    let bm := splitBf16 br
    let bl := splitBf16 (f32 (toF32 (Num.add br bm.neg)))
    [Num.mul ah bm, Num.mul am bh, Num.mul ah bl, Num.mul al bh, Num.mul am bm].foldl Num.add (Num.mul ah bh)
  else Num.mul a b

/-- A product cut toward zero below the 49 bits from the group's top exponent (R49). -/
def keepBits (top : Int) : Num → Num
  | .fin s m e =>
    let low := top - 48
    if low ≤ e then .fin s m e else .fin s (m >>> (low - e).toNat) low
  | x => x

/-- The sum of one group of up to 32 products (R49). -/
def groupSum (ps : List Num) : Word :=
  if ps.any fun p => p = .nan then nan32
  else
    let pos := ps.any fun p => p = .inf false
    let neg := ps.any fun p => p = .inf true
    if pos && neg then nan32
    else if pos then 0x7F800000#32
    else if neg then negInf32
    else
      match blockTop ps with
      | none => 0#32
      | some top => toF32 ((ps.map (keepBits top)).foldl Num.add Num.zero)

/-- An accumulator after the products of one operation, in groups of 32 from the first position (R49, R50). -/
def reduceInto (acc : Word) (ps : List Num) : Word :=
  (chunks 32 ps).foldl (fun a g => fadd a (groupSum g)) acc

end Sys2Proof.Machine
end

