-- ==== Sys2Proof/Machine/PartsJobs.lean ====
section
/-! DEFINITION. State of programs, commands, contexts and memory: the data of chapters 03, 05, 10 and 14. -/
namespace Sys2Proof.Machine

/-- A binding entry: source code and the run of descriptors that forms its list (R129). -/
structure Binding where
  code : Nat
  first : Nat
  count : Nat
  deriving DecidableEq, Repr

/-- A handle slot of an image (R130). -/
structure HandleSlot where
  read : Bool
  write : Bool
  minBytes : Nat
  deriving DecidableEq, Repr

/-- A stream entry: 16-bit producer and consumer words, queue depth, declared tiles (R131). -/
structure StreamDef where
  producer : Nat
  consumer : Nat
  depth : Nat
  tiles : Nat
  deriving DecidableEq, Repr

/-- A placed program image (R128). `toolkitId` is carried and not checked. -/
structure Image where
  deterministic : Bool
  restartable : Bool
  imageBytes : Nat
  detSig : Nat
  toolkitId : Nat
  bindings : List Binding
  handles : List HandleSlot
  streams : List StreamDef
  descs : List Desc
  deriving DecidableEq, Repr

/-- An image in the program area with its PROGRAM id and owner (R133, R359). -/
structure Placed where
  id : Nat
  owner : Nat
  image : Image
  deriving DecidableEq, Repr

/-- One stationary set: the tile it was built from and the span of K it holds (R67). -/
structure SetSt where
  tile : Tile
  kBase : Nat
  kCount : Nat
  deriving DecidableEq, Repr

/-- The loaded sets with their formats and arrangement (R68, R88). -/
structure Loaded where
  format : Nat
  partner : Nat
  arrange : Nat
  sets : List SetSt
  deriving DecidableEq, Repr

/-- An accumulator bank of a Frond (R76 to R79, R84): FP32 entries by row, the rows' VALID bits and tags, the
stationary rows' VALID bits and tags at the initiating pass, its orientation, and the poison mark. -/
structure Bank where
  opened : Bool
  poisoned : Bool
  transposed : Bool
  acc : List (List Word)
  rowTags : List (Bool × Word)
  colTags : List (Bool × Word)
  deriving DecidableEq, Repr

/-- A bank at a command's start: not opened (R94). -/
def Bank.empty : Bank := ⟨false, false, false, [], [], []⟩

/-- A descriptor in a station's or Front's queue (R135, R145): its index in the descriptor table, whether its work is done, the
steps of it that are done (row groups, tile pairs, images, rows or pieces, as its operation counts them) and the tiles it has
counted, the tiles taken from each input port for the step under way, the discarded rows counted so far (R111), the addresses a
scatter has written (R125), and whether a residue check of the pass has failed (R84). Log 37: DESIGN CHOICE. -/
structure QEntry where
  index : Nat
  done : Bool
  step : Nat
  count : Nat
  in0 : List Tile
  in1 : List Tile
  in2 : List Tile
  noted : Nat
  addrs : List Nat
  fails : Bool
  deriving DecidableEq, Repr

/-- A descriptor just issued. -/
def QEntry.new (index : Nat) : QEntry := ⟨index, false, 0, 0, [], [], [], 0, [], false⟩

/-- The run of one binding's list in a command: the next descriptor to issue, the queue of accepted ones, the count of
completed ones, and the station's hold slots, sets, banks and LOAD_MODE in force (R63, R70, R94, R144, R145). A shadow set
carries the index of the F_LOAD that filled it (R72). `buf` is what an engine has read for its head descriptor; `wait` since
when it waits (R423) and whether the latest packet for it carried LIMITED; `seed` the draw of the SRAM's undefined contents
(R94, R126). Log 42: DESIGN CHOICE. -/
structure ListSt where
  code : Nat
  first : Nat
  count : Nat
  issued : Nat
  completed : Nat
  queue : List QEntry
  hold : List (Nat × Tile)
  active : Option Loaded
  shadow : Option (Nat × Loaded)
  bank0 : Bank
  bank1 : Bank
  loadMode : Nat
  sbeat : Option Nat
  buf : Option (List Byte)
  wait : Option (Nat × Bool)
  seed : Nat
  deriving DecidableEq, Repr

/-- A stream's queue in a running command, the tiles its producer holds for want of a slot, and the tiles it has
carried (R140 to R142). Log 37: DESIGN CHOICE. -/
structure StreamSt where
  spec : StreamDef
  queue : List Tile
  held : List Tile
  carried : Nat
  deriving DecidableEq, Repr

/-- What launched a command (R144, R180, R284). -/
inductive CmdKind where
  | launch
  | copy
  | step
  deriving DecidableEq, Repr

/-- Where a command stands (R144, R146, R147, R149): launched, running, retired with its claims still held, retired with its
claims released and its commit to come, or ended and held for a restart. -/
inductive Phase where
  | waiting
  | running
  | retired
  | released
  | restarting
  deriving DecidableEq, Repr

/-- Whether a command has retired or ended. -/
def Phase.over : Phase → Bool
  | .retired => true
  | .released => true
  | _ => false

/-- What LAUNCH, COPY or Limcel bound to a command (R144, R147, R366); `stagedAt` is the commit beat of one staged in a
sorus (R396). -/
structure LaunchSt where
  principal : Nat
  session : Nat
  tag : Nat
  program : Nat
  handles : List Nat
  addr : List Nat
  iteration : Nat
  modelId : Nat
  namedEpoch : Option Nat
  isStep : Bool
  commitBeat : Nat
  decode : Bool
  plan : List PlanItem
  stagedAt : Option Nat
  deriving DecidableEq, Repr

/-- What one source sends to one expert of a layer in one half, and the rounds it needs for it (R204); `key` is the layer and, from
bit 16, the model index. -/
structure ExpertCount where
  key : Nat
  expert : Nat
  rows : Nat
  rounds : Nat
  deriving DecidableEq, Repr

/-- A launched or running command (R135, R144 to R149, R186, R193, R388, R389): `startBeat` is
that of the present run, `firstStart` that of the first, which the reply gives (R138, R149). `bases` are the regions its handle slots
hold from its start on (R284), `counts` what its own SENDs have counted (R204). Log 98: DESIGN CHOICE. -/
structure Cmd where
  id : Nat
  ctx : Nat
  queue : Nat
  kind : CmdKind
  launch : LaunchSt
  image : Image
  phase : Phase
  eligible : Nat
  agedAt : Option Nat
  firstStart : Nat
  startBeat : Nat
  retireBeat : Nat
  committed : Bool
  restarted : Bool
  progressBeat : Nat
  epoch : Option Nat
  instVersion : Nat
  gen : Nat
  events : List Nat
  lists : List ListSt
  streams : List StreamSt
  dropped : List Nat
  late : Nat
  bases : List Nat
  counts : List ExpertCount
  hot : Bool
  deriving DecidableEq, Repr

/-- A queue of a context with its saved state (R384 to R387, R402, R421). `energy` is in picojoules. Log 14: DESIGN CHOICE. -/
structure Queue where
  num : Nat
  cls : Nat
  priority : Nat
  state : Nat
  head : Nat
  tail : Nat
  grants : Nat
  heldSince : Nat
  headEligible : Nat
  started : Nat
  energy : Nat
  deriving DecidableEq, Repr

/-- One MEM.STALL entry of a context (R286, R287): beats, episodes, and the last stalled beat. -/
structure Stall where
  tier : Nat
  cause : Nat
  beats : Nat
  episodes : Nat
  lastBeat : Nat
  deriving DecidableEq, Repr

/-- A live or torn-down context (R382, R383, R401, R186, R187). -/
structure Ctx where
  num : Nat
  torn : Bool
  job : Nat
  persist : Bool
  principal : Nat
  wdog : Nat
  roundKey : Nat
  members : Nat
  faulted : Flag
  cause : Nat
  faultSeq : Nat
  faultSource : Nat
  faultMark : Nat
  lateCommits : Nat
  hotSteps : Nat
  epochDrops : Nat
  snapWaits : Nat
  slowdown : Nat
  covered : Nat
  claimWait : Nat
  transitWait : Nat
  paceWait : Nat
  windowBeat : Nat
  claimWaitNow : Nat
  paceWaitNow : Nat
  retired : List (Nat × Nat)
  nextGen : Nat
  blockedGens : List (Nat × Nat)
  queues : List Queue
  stalls : List Stall
  deriving DecidableEq, Repr

/-- A pending PREEMPT or RESUME (R390, R391): the queues it acts on and those still to be granted, and the commit beat of
one staged in a sorus (R396). -/
structure Preempt where
  session : Nat
  tag : Nat
  ctx : Nat
  resume : Bool
  beat : Nat
  applied : Bool
  wanted : List Nat
  waiting : List Nat
  acted : List Nat
  lastGrant : Nat
  stagedAt : Option Nat
  deriving DecidableEq, Repr

/-- An accounting slot (R398, R399, R403, R516): the beat at which it falls free, if its owner holds nothing. -/
structure Acct where
  used : Bool
  principal : Nat
  hist : List Nat
  wait : Nat
  preempts : Nat
  bulkStarted : Nat
  bulkRetired : Nat
  idleSince : Option Nat
  deriving DecidableEq, Repr

/-- An accounting slot nothing has used. -/
def Acct.empty : Acct := ⟨false, 0, List.replicate 16 0, 0, 0, 0, 0, none⟩

/-- A layer entry of a manifest (R239). -/
structure Layer where
  experts : Nat
  topk : Nat
  gateMode : Nat
  cfQ8 : Nat
  drop : Nat
  kvHeads : Nat
  cMin : Nat
  kFormat : Nat
  vFormat : Nat
  headDim : Nat
  deriving DecidableEq, Repr

/-- A tensor entry of a manifest (R240). -/
structure Tensor where
  id : Nat
  layer : Nat
  expert : Nat
  n : Nat
  k : Nat
  format : Nat
  role : Nat
  cls : Nat
  packages : Nat
  deriving DecidableEq, Repr

/-- A shard entry of a manifest (R241). -/
structure Shard where
  index : Nat
  compression : Nat
  srcFormat : Nat
  bytes : Nat
  rawBytes : Nat
  digest : List Byte
  rdigest : List Byte
  tensor : Nat
  row0 : Nat
  rows : Nat
  k0 : Nat
  klen : Nat
  altFirst : Nat
  altCount : Nat
  deriving DecidableEq, Repr

/-- An alternate entry of a manifest (R242). -/
structure AltEntry where
  peer : Bool
  pkg : Nat
  principal : Nat
  deriving DecidableEq, Repr

/-- A manifest (R237 to R242). -/
structure Manifest where
  kind : Nat
  slot : Nat
  modelId : Nat
  epochId : Nat
  secVersion : Nat
  contextLimit : Nat
  layers : List Layer
  tensors : List Tensor
  shards : List Shard
  alts : List AltEntry
  deriving DecidableEq, Repr

/-- A range whose unlisted bytes are undefined: base, length and the draw of its contents (R278, R458). Log 1: DESIGN CHOICE. -/
structure Undef where
  base : Nat
  bytes : Nat
  seed : Nat
  deriving DecidableEq, Repr

/-- What holds a region of a tier's pool (R277). `old` is a region that the commands named still read
(R253, R279); `replica` holds the tiles of an instance that is no primary (R205); `reserved` is held for a command of a prepared sorus (R378); `freed` returns to its account (R280). -/
inductive Owner where
  | handle (id : Nat)
  | tensor (model tensor : Nat)
  | adapter (model slot version tensor : Nat)
  | replica (model layer expert lslot : Nat)
  | kvPool (model : Nat)
  | paused (request : Nat)
  | moving (id : Nat)
  | old (cmds : List Nat)
  | reserved (sorus index : Nat)
  | freed (account : Nat)
  deriving DecidableEq, Repr

/-- A region taken from a tier (R277, R278). `freeAt` is the beat at which a freed region returns (R280). -/
structure Region where
  tier : Nat
  base : Nat
  bytes : Nat
  owner : Owner
  freeAt : Option Nat
  deriving DecidableEq, Repr

/-- A pool account (R277). -/
structure Account where
  id : Nat
  ctx : Nat
  tier : Nat
  reserve : Nat
  limit : Nat
  used : Nat
  deriving DecidableEq, Repr

/-- The progress of a TIER_MOVE (R284): the target tier, the new base once its region is taken, whether the copy is
done, and who is answered. -/
structure TierMoveSt where
  tier : Nat
  newBase : Option Nat
  copied : Bool
  session : Nat
  tag : Nat
  since : Nat
  deriving DecidableEq, Repr

/-- A buffer handle (R278, R282, R285, R317, R330). Kind: 0 PLAIN, 1 KV_VIEW, 2 COUNTERS, 3 STRIPE. -/
structure Handle where
  id : Nat
  ctx : Nat
  job : Nat
  kind : Nat
  rights : Nat
  account : Nat
  tier : Nat
  base : Nat
  bytes : Nat
  window : Option Nat
  rKey : Nat
  modelId : Nat
  plan : Nat
  stripeBase : Nat
  members : List Nat
  move : Option TierMoveSt
  deriving DecidableEq, Repr

/-- What a waiting demand asks for: an allocation, the placement of a manifest with its shard timeout, the move of a paused
request's pages, or a tier move by Limcel (R227, R252, R253, R279). -/
inductive Want where
  | alloc (p : AllocP)
  | place (m : Manifest) (timeout : Nat)
  | pauseMove (request : Nat)
  | limcelMove (model tensor tier : Nat)
  deriving DecidableEq, Repr

/-- A tensor's tiles on their way to a region of another tier: of a model, or of a version of one of its adapter slots; they are
switched in phase 3 (R253, R279). -/
structure LimMove where
  model : Nat
  tensor : Nat
  version : Option (Nat × Nat)
  tier : Nat
  old : Nat
  new : Nat
  bytes : Nat
  deriving DecidableEq, Repr

/-- The retention directory and the digest kept beside it over a warm reset (R288): the regions of each retained model as bytes.
Log 142: DESIGN CHOICE. -/
structure Retention where
  regions : List Region
  digest : List Byte
  deriving DecidableEq, Repr

/-- A demand that waits for eviction (R279). -/
structure Demand where
  id : Nat
  session : Nat
  tag : Nat
  principal : Nat
  want : Want
  since : Nat
  deriving DecidableEq, Repr

/-- One HBM pseudo-channel or LPDDR channel word (R488). -/
structure Channel where
  cstate : Nat
  zone : Nat
  level : Nat
  deriving DecidableEq, Repr

/-- ECC flags of a tier (R488). -/
structure Ecc where
  transient : Flag
  hard : Flag
  ue : Flag
  deriving DecidableEq, Repr

/-- One Drizzle stream cache: the runs of bytes its images were read from, least recently used first, as address and length
(R276). -/
structure StreamCache where
  images : List (Nat × Nat)
  hits : Nat
  misses : Nat
  removed : Nat
  deriving DecidableEq, Repr

/-- Memory, its pools and the MEM block (chapter 10, R488). `sstat` are the addresses at which the SSTAT face has kept a row's
statistics (R166, R176), `bad` the 32-byte words of a tier that are uncorrectable until they are written (R271, R275).
Logs 1, 119, 123: DESIGN CHOICE. -/
structure MemSt where
  cells : List (Nat × Byte)
  undef : List Undef
  sstat : List Nat
  bad : List Nat
  lpWindow : Nat
  regions : List Region
  accounts : List Account
  handles : List Handle
  nextHandle : Nat
  windows : List (Nat × Nat)
  demands : List Demand
  limMoves : List LimMove
  scrubInterval : Nat
  scrubNext : Nat
  passes : Nat
  cleared : Nat
  suspect : Nat
  eccHbm : Ecc
  eccLp : Ecc
  evictHbm : Nat
  evictLp : Nat
  allocBusy : Nat
  pauseInHbm : Nat
  caches : List StreamCache
  pcs : List Channel
  lpchs : List Channel
  retention : Option Retention
  deriving DecidableEq, Repr

/-- Contexts, queues, commands and the program area (chapters 05 and 14). `resets` are the contexts whose commands end in the
next phase 6 (R314), `freed` the contexts destroyed and not created anew, whose counts stay readable (R287, R401). Log 139: DESIGN CHOICE. -/
structure JobSt where
  ctxs : List Ctx
  cmds : List Cmd
  nextCmd : Nat
  preempts : List Preempt
  acct : List Acct
  ageBeats : Nat
  programs : List Placed
  nextProgram : Nat
  resets : List Nat
  freed : List Ctx
  deriving DecidableEq, Repr

end Sys2Proof.Machine
end

