-- ==== Sys2Proof/Machine/PartsServe.lean ====
section
/-! DEFINITION. State of models, requests, sessions, sori and the fabric: the data of chapters 06 to 09 and 11 to
13. -/
namespace Sys2Proof.Machine

/-- The standing of one shard (R248, R249): 0 pending, 1 verified, 2 failed. -/
structure ShardSt where
  index : Nat
  state : Nat
  attempt : Nat
  cause : Nat
  asked : Nat
  since : Nat
  deriving DecidableEq, Repr

/-- Where a tensor's region rests (R247, R252, R253, R256): whether the follow epoch's region is a learned one, when a step
last fetched it (R279), and the fresh region that a reload fills (R256). -/
structure PlacedTensor where
  tensor : Nat
  tier : Nat
  base : Nat
  bytes : Nat
  learned : Bool
  touched : Nat
  fresh : Option Nat
  deriving DecidableEq, Repr

/-- One row of a weight pointer table (R258). -/
structure Pointer where
  tensor : Nat
  addr : Nat
  rdigest : List Byte
  deriving DecidableEq, Repr

/-- A live or held epoch (R258, R259). -/
structure Epoch where
  id : Nat
  held : Bool
  table : List Pointer
  deriving DecidableEq, Repr

/-- An adapter version (R263, R264). -/
structure AdapterVer where
  version : Nat
  live : Bool
  current : Bool
  manifest : Manifest
  timeout : Nat
  source : Nat
  shards : List ShardSt
  placed : List PlacedTensor
  deriving DecidableEq, Repr

/-- An adapter slot (R263, R265). -/
structure AdapterSlot where
  slot : Nat
  next : Nat
  closed : Bool
  versions : List AdapterVer
  deriving DecidableEq, Repr

/-- A variant: its adapter slots, its private expert indices by layer, and its mask row of each routed layer (R207). -/
structure Variant where
  id : Nat
  slots : Nat
  entries : List (Nat × Nat)
  masks : List (Nat × List Word)
  deriving DecidableEq, Repr

/-- One entry of an instance table (R193). -/
structure InstEntry where
  layer : Nat
  expert : Nat
  priv : Bool
  variant : Nat
  inst : List (Nat × Nat)
  deriving DecidableEq, Repr

/-- A version of a model's instance table, with the capacity factors that Limcel has set by layer (R190, R193, R205). -/
structure InstTable where
  version : Nat
  entries : List InstEntry
  factors : List (Nat × Nat)
  deriving DecidableEq, Repr

/-- A page-set of a model's KV pool in use, with its reference count (R161). -/
structure PageSet where
  id : Nat
  refs : Nat
  deriving DecidableEq, Repr

/-- A model that is not ABSENT (R244). State: 1 LOADING, 2 LOADED, 3 ACTIVE, 4 FAILED. `suspects` are the regions a scrub
marked suspect (R256), `usedEpochs` every epoch id the model has had (R259), `origins` the manifest regions of tensors that a later
epoch has replaced (R256, R258). Log 78: DESIGN CHOICE. -/
structure Model where
  index : Nat
  id : Nat
  state : Nat
  manifest : Manifest
  timeout : Nat
  source : Nat
  shards : List ShardSt
  placed : List PlacedTensor
  origins : List PlacedTensor
  epochs : List Epoch
  follow : Nat
  usedEpochs : List Nat
  kCand : Nat
  pageSets : Nat
  kvBase : Nat
  usedSets : List PageSet
  tables : List InstTable
  variants : List Variant
  adapters : List AdapterSlot
  failStatus : Nat
  suspects : List Nat
  verifying : Bool
  deriving DecidableEq, Repr

/-- A shard that waits for the arrival converter (R245, R250). -/
structure Push where
  modelId : Nat
  slot : Option Nat
  shard : Nat
  bytes : List Byte
  deriving DecidableEq, Repr

/-- Models, the arrival converter and the resident digests computed in the background, by address and length (chapter 09,
R260). -/
structure ModelSt where
  models : List Model
  converter : List Push
  digests : List (Nat × Nat × List Byte)
  deriving DecidableEq, Repr

/-- A page table entry (R160). -/
structure PageEntry where
  posBase : Nat
  tier : Nat
  shared : Bool
  pageSet : Nat
  deriving DecidableEq, Repr

/-- The accept record of a sequence (R225); `cmd` is the step that wrote it, `seed` the draw of its rows where the step had not
committed. -/
structure AcceptRec where
  cmd : Option Nat
  seed : Option Nat
  path : List Nat
  lastToken : Nat
  lastLogp : Word
  deriving DecidableEq, Repr

/-- An accept record that nothing has written. -/
def AcceptRec.none : AcceptRec := ⟨Option.none, Option.none, [], 0, 0#32⟩

/-- A request and its page table (R160, R209 to R217, R222 to R232). State codes of R212. `tokens` are the prompt and every
token delivered; `resumeTo` and `resumeSets` are the state and the HBM page-sets that a resume under way leads to.
Logs 58, 120: DESIGN CHOICE. -/
structure Req where
  id : Nat
  principal : Nat
  session : Nat
  tag : Nat
  p : SubmitP
  tokens : List Nat
  delivered : Nat
  state : Nat
  fill : Nat
  pages : List PageEntry
  pausePending : Bool
  pausedAt : Nat
  resumeSets : List Nat
  resumeTo : Option Nat
  pin : Option Nat
  adapters : List (Nat × Nat)
  lastEpoch : Nat
  lastCommit : Nat
  queuedAt : Nat
  counted : Bool
  finalAt : Nat
  unacked : Nat
  accept : AcceptRec
  deriving DecidableEq, Repr

/-- Requests of the package (chapter 08). Log 55: DESIGN CHOICE. -/
structure ServeSt where
  actions : List Instr
  reqs : List Req
  nextReq : Nat
  lastHot : List (Nat × Nat × Nat)
  deriving DecidableEq, Repr

/-- A reply entry of a device frame (R349). -/
structure Reply where
  opcode : Nat
  status : Nat
  tag : Nat
  detail : Nat
  final : Bool
  result : List Byte
  deriving DecidableEq, Repr

/-- An entry the package sends: a reply or an event (R347). -/
inductive DevEntry where
  | reply (r : Reply)
  | token (tag : Nat) (body : List Byte)
  | done (tag : Nat) (body : List Byte)
  deriving DecidableEq, Repr

/-- A device frame kept until it is acknowledged (R355, R357): RTO in microseconds; `lastAt` is when it was last sent. -/
structure DevFrame where
  seq : Nat
  entry : Option DevEntry
  sentAt : Nat
  lastAt : Nat
  rto : Nat
  deriving DecidableEq, Repr

/-- A session (R350 to R357). `framesIn` and `framesOut` count under the present key; `srtt` is 0 until a round trip is measured.
Log 146: DESIGN CHOICE. -/
structure Session where
  id : Nat
  src : Nat
  port : Nat
  principal : Nat
  roles : Nat
  features : Nat
  major : Nat
  minor : Nat
  idle : Nat
  nextIn : Nat
  held : List (Nat × Frame)
  nextOut : Nat
  unacked : List DevFrame
  waitingOut : List DevEntry
  outstanding : Nat
  lastFrame : Nat
  opened : Nat
  framesIn : Nat
  framesOut : Nat
  updating : Bool
  srtt : Nat
  deriving DecidableEq, Repr

/-- An event that waits for a session of its principal (R354). -/
structure HeldEvent where
  principal : Nat
  entry : DevEntry
  deriving DecidableEq, Repr

/-- What HELLO bound for the next session from a source (R352). -/
structure HelloSt where
  src : Nat
  major : Nat
  minor : Nat
  features : Nat
  idle : Nat
  mtu : Nat
  deriving DecidableEq, Repr

/-- A RoCE queue pair (R344). -/
structure QueuePair where
  qpn : Nat
  session : Nat
  port : Nat
  error : Bool
  deriving DecidableEq, Repr

/-- A principal that has lost its last session, and when (R354). -/
structure Gone where
  principal : Nat
  since : Nat
  deriving DecidableEq, Repr

/-- A HI word latched for a requester (R482). Requester 0 is the I3C target, otherwise a session id. -/
structure Latch where
  requester : Nat
  offset : Nat
  value : Nat
  deriving DecidableEq, Repr

/-- Ethernet, sessions and the transport (chapter 13, R487). Log 147: DESIGN CHOICE. -/
structure NetSt where
  hellos : List HelloSt
  sessions : List Session
  qps : List QueuePair
  nextQpn : Nat
  opens : Nat
  gone : List Gone
  discards : List Nat
  ethUp : List Bool
  failover : Flag
  latches : List Latch
  events : List HeldEvent
  deriving DecidableEq, Repr

/-- An open or ended sorus (R374 to R381). `asked` says that the other members have been
asked (R379). State: 0 OPEN, 1 PREPARING, 2 PREPARED, 3 COMMITTED, 4 ABORTED. -/
structure Sorus where
  id : Nat
  session : Nat
  members : List Nat
  state : Nat
  staged : List Instr
  bytes : Nat
  openedAt : Nat
  commitBeat : Nat
  commitTag : Option Nat
  answers : List (Nat × Nat × Nat)
  coord : Nat
  decided : Option Bool
  inDoubt : Bool
  heldBeats : Nat
  own : Bool
  asked : Bool
  principal : Nat
  deriving DecidableEq, Repr

/-- Sori and the in-doubt counters (R379, R487). -/
structure SorusSt where
  sori : List Sorus
  doubtBeats : Nat
  doubtSori : Nat
  deriving DecidableEq, Repr

/-- One lane of a fabric port (R489): 0 carrying, 1 spare idle, 2 suspect, 3 retired. -/
structure Lane where
  lstate : Nat
  marked : Bool
  level : Nat
  deriving DecidableEq, Repr

/-- A fabric port and its FAB.LINK entry (R294, R308). Port numbers 0 to 14 and 16 to 23. `shared` says that transit has left on it in
this beat (R307). Log 131: DESIGN CHOICE. -/
structure Link where
  port : Nat
  state : Nat
  since : Nat
  width : Nat
  peerPkg : Nat
  peerPort : Nat
  version : Nat
  spareUsed : Bool
  mismatch : Flag
  downCount : Nat
  ownerWait : Nat
  transitMb : Nat
  transitBytes : Nat
  shared : Bool
  lanes : List Lane
  retrainAt : Option Nat
  retrainReply : Option (Nat × Nat)
  deriving DecidableEq, Repr

/-- A bridge link (R489). Log 134: DESIGN CHOICE. -/
structure Bridge where
  full : Bool
  repaired : Nat
  crc : Nat
  repairs : Nat
  lanes : List (Nat × Lane)
  deriving DecidableEq, Repr

/-- What issues an access: a command, the index of its descriptor, and the engine. -/
structure Origin where
  cmd : Nat
  desc : Nat
  agent : Nat
  deriving DecidableEq, Repr

/-- Where the data of an access goes (R123, R139, R332): nowhere, to memory, or into the image of the `serial`-th tile
of a stream of a command, at a byte offset (`gather` when the tile is one a G_GATHER makes, whose rows hold nothing beyond its
header), on to another global address as a write of the same agent, or into the buffer of an engine's list. -/
inductive Sink where
  | none
  | memory (addr : Nat)
  | relay (from_ : Origin) (addr : Nat)
  | buffer (cmd code offset : Nat)
  | tile (cmd stream serial offset : Nat) (gather : Bool)
  deriving DecidableEq, Repr

/-- An access this package has issued as source (R315 to R319, R326), for the descriptor with an index. `held` while it waits
for a credit. `bump` names the
copy it belongs to, and the home, the counter and the increment with which the copy ends (R323). -/
structure Access where
  id : Nat
  home : Nat
  agent : Nat
  cmd : Nat
  desc : Nat
  seq : Nat
  issued : Nat
  held : Bool
  aged : Bool
  noFill : Bool
  addr : Nat
  kind : AccessKind
  sink : Sink
  bump : Option (Nat × Nat × Nat × Nat)
  row : Option XRow
  deriving DecidableEq, Repr

/-- A transaction staged at this home (R336, R337). -/
structure StagedTxn where
  pkg : Nat
  agent : Nat
  seq : Nat
  job : Nat
  beat : Nat
  entries : List Byte
  result : Option Nat
  deriving DecidableEq, Repr

/-- A block of the remote-read cache (R327). -/
structure CacheBlock where
  job : Nat
  addr : Nat
  data : List Byte
  deriving DecidableEq, Repr

/-- A broadcast (R312): its root, its length, the address of the data at this package, and the pieces that have come. Log 133: DEDUCED. -/
structure Bcast where
  root : Nat
  bytes : Nat
  base : Nat
  pieces : List Nat
  deriving DecidableEq, Repr

/-- A global operation (R309 to R312): a host BARRIER or a broadcast, with the members' arrivals known here. -/
structure GlobalOp where
  id : Nat
  members : List Nat
  coord : Nat
  session : Nat
  tag : Nat
  startBeat : Nat
  timeout : Nat
  arrived : List Nat
  completeAt : Option Nat
  limited : Bool
  bcast : Option Bcast
  deriving DecidableEq, Repr

/-- A snapshot (R313): once captured, the units still to be copied, each with its source, destination and length. -/
structure Snapshot where
  id : Nat
  session : Nat
  tag : Nat
  beat : Nat
  ctx : Nat
  pairs : List (Nat × Nat)
  captured : Bool
  units : List (Nat × Nat × Nat)
  deriving DecidableEq, Repr

/-- A SEND of an exchange (R195, R198): its entries by position, destination, local expert slot and round, the
(destination, round) pairs sent, and the (position, piece, pieces) of results that have returned. -/
structure XSend where
  cmd : Nat
  code : Nat
  model : Nat
  layer : Nat
  half : Nat
  entries : List (Nat × Nat × Nat × Nat)
  sent : List (Nat × Nat)
  back : List (Nat × Nat × Nat)
  deriving DecidableEq, Repr

/-- A received batch (R197): the source, position and tag of each row, in batch order. -/
structure XBatch where
  cmd : Nat
  model : Nat
  layer : Nat
  half : Nat
  lslot : Nat
  round : Nat
  rows : List (Nat × Nat × Word)
  deriving DecidableEq, Repr

/-- The fabric (chapters 07, 11, 12; R308, R338, R489). `remote` keeps the latest link-state record of each foreign
port (R304); `routesStale` says that routes are to be formed anew in phase 8. `counts` keeps each source's
latest count record and the command that has used it. Logs 53, 145: DESIGN CHOICE. -/
structure FabSt where
  ownerPct : Nat
  timeout : Nat
  links : List Link
  bridges : List Bridge
  choice : List (Nat × List Nat)
  unreachable : List Nat
  detoured : List Nat
  remote : List (Nat × Nat × Bool)
  routesStale : Bool
  badEntries : Nat
  detours : Nat
  updates : Nat
  folded : Nat
  lastAtomic : Option (Nat × Nat × Nat)
  creditWait : Nat
  aged : Nat
  rrcHits : Nat
  rrcMisses : Nat
  rrcInval : Nat
  txnNot : Nat
  accesses : List Access
  nextAccess : Nat
  seqOut : List (Nat × Nat × Nat)
  seqIn : List (Nat × Nat × Nat)
  heldIn : List FabReq
  txns : List StagedTxn
  rrc : List CacheBlock
  ops : List GlobalOp
  snaps : List Snapshot
  nextSnap : Nat
  frozen : Option Nat
  counts : List (CountRec × Option Nat)
  rows : List XRow
  sends : List XSend
  batches : List XBatch
  deriving DecidableEq, Repr

end Sys2Proof.Machine
end

