-- ==== Sys2Proof/Machine/State.lean ====
section
/-! DEFINITION. The state of the package, the reasons a step may stop, and the state after power-on reset. -/
namespace Sys2Proof.Machine

/-- What the package sends over the fabric (R306, R310, R319, R378, R197); `tileRead` asks a peer for a shard's resident tile images
(R248). -/
inductive FabOut where
  | request (agent seq addr : Nat) (kind : AccessKind)
  | response (agent seq : Nat) (ok cacheable : Bool) (data : List Byte)
  | arrival (id : Nat) (members merged : List Nat) (part : Option BcastPart)
  | release (id beat : Nat) (members : List Nat)
  | prepare (sorus beat : Nat)
  | prepared (sorus status index : Nat)
  | decision (sorus : Nat) (commit : Bool)
  | askDecision (sorus : Nat)
  | counts (r : CountRec)
  | row (r : XRow)
  | contribution (data : List Byte)
  | tileRead (modelId shard : Nat)
  | transit (p : TransitP)
  | bcast (id : Nat) (members : List Nat) (part : BcastPart)
  | opFailed (id : Nat)
  deriving DecidableEq, Repr

/-- What the package sends on the management channel of a port (R296, R304). -/
inductive MgmtOut where
  | ident (r : IdentRec)
  | linkState (pkg port : Nat) (up : Bool)
  deriving DecidableEq, Repr

/-- What leaves the package, oldest first: device frames, acknowledgements, RoCE answers, fabric packets, management
records, regulator commands, I3C words and test-port answers. A fabric packet without a port finds no route (R303). Log 109: DESIGN CHOICE. -/
inductive Output where
  | frame (session port seq : Nat) (entry : DevEntry)
  | ackOnly (session seq ack : Nat)
  | retransmit (session port seq : Nat) (entry : Option DevEntry)
  | plain (src : Nat) (r : Reply)
  | roceAck (qpn : Nat)
  | roceNakRequest (qpn : Nat)
  | roceNakAccess (qpn : Nat)
  | congestion (qpn : Nat)
  | fabric (dest vc : Nat) (port : Option Nat) (limited : Bool) (what : FabOut)
  | mgmt (port : Nat) (what : MgmtOut)
  | neighbour (port address : Nat)
  | voltage (engine level : Nat)
  | i3c (words : List Word)
  | testPort (op : JtagOp) (idcode : Option Word)
  | keyUpdate (session : Nat)
  deriving DecidableEq, Repr

/-- The whole state of the package, and the queue of the commands that wait (`pending`, first in, first out).
`out` is the model's own record of what has left; `fresh` counts the draws of free values. Logs 2, 11, 17, 109, 123: DESIGN CHOICE. -/
structure State where
  pins : PinSt
  flash : FlashSt
  boot : BootSt
  beat : BeatSt
  pwr : PwrSt
  thm : ThmSt
  hlth : HlthSt
  rime : RimeSt
  stns : StnsSt
  net : NetSt
  sori : SorusSt
  models : ModelSt
  serve : ServeSt
  jobs : JobSt
  mem : MemSt
  fab : FabSt
  out : List Output
  fresh : Nat
  pending : List Instr
  deriving DecidableEq, Repr

/-- Reasons a step stops with a fault. The package's own faults are next states (R394, R439, R460). -/
inductive Fault where
  /-- Nobody raises it: no command of the table ends the machine. Safe. -/
  | none
  deriving DecidableEq, Repr

/-- Reasons a step is refused. -/
inductive Refusal where
  /-- Raised by the arm of a command that has no meaning yet, by its mnemonic. Safe. -/
  | notModelled (mnemonic : String)
  deriving DecidableEq, Repr

/-- A 128-byte image header with the fields a start reads (R454). Log 10: DESIGN CHOICE. -/
def imageHeader (kind version : Nat) : List Byte :=
  leBytes 4 0x47534B53 ++ [BitVec.ofNat 8 kind, 0#8, (if kind = 2 then 1#8 else 0#8), (if kind = 2 then 1#8 else 0#8)] ++
    leBytes 4 version ++ List.replicate 116 0#8

/-- The copper links of R290 for the package with the given id. Log 9: DESIGN CHOICE. -/
def copperLinks (pkg : Nat) : List PlanLink :=
  (List.range 15).map fun a => ⟨a, pkg / 16 * 16 + (pkg % 16 + a + 1) % 16, 14 - a, 1, none⟩

/-- The 120 global links of a two-group appliance: each of the first 15 packages of group 0 to its like in group 1
(R291). Log 9: DESIGN CHOICE. -/
def factoryGlobals : List GlobalLink :=
  (List.range 120).map fun i => ⟨i / 8, 16 + i % 8, 16 + i / 8, 16 + i % 8, 10, false⟩

/-- The links of a plan's global part at one package (R291). -/
def ownGlobals (pkg : Nat) (gs : List GlobalLink) : List PlanLink :=
  gs.filterMap fun g =>
    let pair := (min (g.pkgA / 16) (g.pkgB / 16), max (g.pkgA / 16) (g.pkgB / 16))
    let sb := if g.standby then some pair else none
    if g.pkgA = pkg then some ⟨g.portA, g.pkgB, g.portB, g.metres, sb⟩
    else if g.pkgB = pkg then some ⟨g.portB, g.pkgA, g.portA, g.metres, sb⟩ else none

/-- The installation record in the flash of State.reset (DESIGN CHOICE, log 9). -/
def factoryInstall : InstallRec :=
  ⟨1, 0, [], 0, 0, 0, 2, 0, 0, [9000, 9000], [1, 2], [0, 0], [false, false], factoryGlobals⟩

/-- The CLEARED record written at manufacture (R450). Logs 10, 31: DESIGN CHOICE. -/
def clearedAtManufacture : Rec :=
  ⟨0x0001, 1, 0xE00, 1, 0, true, 0, true, false, 0, leBytes 16 0, 0, 0⟩

/-- The flash die as manufactured: typical full-activity powers of R404 in milliwatts; logs 9 and 10. -/
def FlashSt.manufactured : FlashSt where
  stage1 := [imageHeader 1 1, imageHeader 1 1]
  limcel := [imageHeader 2 1, imageHeader 2 1]
  bootS1 := 0
  bootLc := 0
  staged := false
  configHeader := imageHeader 3 1
  serial := 0
  fullPower := [3090000, 2620000, 2210000, 1890000, 1600000, 1310000, 1070000, 880000, 720000]
  railLimits := []
  install := some factoryInstall
  installHeader := imageHeader 4 1
  pending := none
  counters := ⟨0, 0, 0, 0, 0, 0⟩
  map := []
  keep := [clearedAtManufacture]
  ring := []

/-- Physical stations of a die by letter code (R6, R21). -/
def stationCount (die letter : Nat) : Nat :=
  if die < 2 then (if letter = 0 then 26 else if letter = 1 then 8 else if letter = 2 then 4 else 0)
  else if die < 6 then (if letter = 0 then 7 else if letter = 1 then 6 else if letter = 2 then 4 else 0)
  else if die = 6 then (if letter = 3 then 8 else if letter = 4 then 16 else 0)
  else 0

/-- Logical names of a die by letter code: the active stations (R6, R7). -/
def nameCount (die letter : Nat) : Nat :=
  if letter = 0 then (if die < 2 then 24 else if die < 6 then 6 else 0) else stationCount die letter

/-- A status entry at reset (R490). -/
def StnSt.zero (die letter num : Nat) : StnSt :=
  ⟨die, letter, num, 0, false, [], 0, Flag.zero, Flag.zero, Flag.zero, 0, 0, 0, 0, 0, 0, 0, 0, 0, 0, 0⟩

/-- All status entries at reset: every station, then every die's Front (letter code 7). -/
def allStations : List StnSt :=
  ((List.range 7).map fun d =>
    ((List.range 5).map fun l => (List.range (stationCount d l)).map (StnSt.zero d l)).flatten ++
      [StnSt.zero d 7 0]).flatten

/-- Frond name entries at reset (R492). -/
def allNames : List FrondCfg :=
  ((List.range 6).map fun d => (List.range (nameCount d 0)).map fun n => ⟨d, n, 1, false, 1, n⟩).flatten

/-- Port numbers of FAB.LINK (R308): 0 to 14 local, 16 to 23 global. -/
def portNumbers : List Nat := List.range 15 ++ (List.range 8).map (· + 16)

/-- A fabric port at reset (R308, R489). -/
def Link.zero (port : Nat) : Link :=
  ⟨port, 0, 0, 0, 0, 0, 0, false, Flag.zero, 0, 0, 0, 0, false, List.replicate (if port < 15 then 9 else 8) ⟨0, false, 0⟩,
    none, none⟩

/-- Fault class defaults (R426). -/
def classDefaults : List ClassSt :=
  ([(40, 60000), (40, 60000), (40, 60000), (512, 10000), (512, 10000), (64, 100), (64, 100), (64, 60000), (0, 0)] :
    List (Nat × Nat)).map fun c => ⟨c.1, c.2, 0, 0, c.1, c.2⟩

/-- HBM window bytes (R267, R269). -/
def hbmWindow : Nat := 0x9200000000

/-- Base of the LPDDR window (R267). -/
def lpBase : Nat := 0x080000000000

/-- The beat unit at power-on (R470, R480). -/
def BeatSt.zero : BeatSt where
  count := 0
  elapsed := 0
  aligned := false
  ptpLock := false
  ptpTime := 0
  syncAt := 0
  ptpBase := 0
  onPtp := false
  goodRun := 0
  badRun := 0
  markHold := false
  clkHold := false
  markLost := Flag.zero
  clkLost := Flag.zero
  slipFlag := Flag.zero
  ptpUnlock := Flag.zero
  slip := 0
  ptpOffset := 0
  shadowLast := List.replicate 7 none
  shadowFix := List.replicate 7 false
  setPending := none

/-- The power controller at reset (R417, R424). -/
def PwrSt.zero : PwrSt where
  cap := 1800
  caps := []
  levelC := 4
  levelD := 4
  reqC := 4
  reqD := 4
  raises := []
  noRaiseC := 0
  noRaiseD := 0
  capRaiseAt := 0
  capCeil := 4
  capDuty := 8
  duty := 8
  unattainable := false
  floor := 0
  gap := 0
  mean := 0
  suspect := false
  tripUntil := none
  hints := []
  window := []
  pIdle := 0
  ratioNum := 1
  ratioDen := 1
  trip := Flag.zero
  disagree := Flag.zero
  hintDrop := Flag.zero
  raiseFail := Flag.zero
  estimate := 0
  measured := 0
  limited := 0
  paced := 0
  paceWait := 0
  energy := List.replicate 32 0
  carry := List.replicate 32 0
  badRun := 0
  goodRun := 0
  rails := []
  vioEstimate := 0

/-- Temperatures at reset (R425). -/
def ThmSt.zero : ThmSt :=
  ⟨105, Flag.zero, List.replicate 7 0, List.replicate 7 0, none, 8, none, false, 0, false⟩

/-- Health at reset (R440): two active pairs and one standing by (R434). -/
def HlthSt.zero : HlthSt :=
  ⟨0, 0, Flag.zero, Flag.zero, Flag.zero, Flag.zero, classDefaults, [],
    [⟨.eth 0, 0, 0, false⟩, ⟨.eth 1, 0, 0, false⟩, ⟨.pair 0, 0, 0, false⟩, ⟨.pair 1, 0, 0, false⟩, ⟨.pair 2, 0, 0, false⟩],
    [0, 1, 2], false, false, false, false, 0, false⟩

/-- The recorder's volatile part at reset (R452). -/
def RimeSt.zero : RimeSt := ⟨[], [], none, false, 0, 0, 0, 0, false, 0, false, Flag.zero, Flag.zero⟩

/-- Start-up at the release of POR_L (R453, R458, R479). -/
def BootSt.zero : BootSt where
  stepping := 0
  stage := 1
  error := 0
  resetKind := 0
  s1Slot := 0
  lcSlot := 0
  s1Header := []
  lcHeader := []
  configVersion := 0
  macsecWait := [false, false]
  macsecKeys := []
  pkgValid := false
  pkg := 0
  lpDensity := 0
  mboxStatus := 0
  mboxCmd := 0
  mboxData := List.replicate 16 0#32
  installBuf := []
  activation := none
  pauseUntil := none
  reloading := []
  heldRows := []

/-- Sessions and ports at reset (R453, R487). -/
def NetSt.zero : NetSt :=
  ⟨[], [], [], 0, 0, [], List.replicate 7 0, [false, false], Flag.zero, [], []⟩

/-- Contexts and commands at reset (R403, R453). -/
def JobSt.zero : JobSt := ⟨[], [], 0, [], List.replicate 64 Acct.empty, 2000, [], 0, [], []⟩

/-- A channel in service (R488). -/
def Channel.zero : Channel := ⟨0, 0, 0⟩

/-- Memory and the MEM block at power-on (R458, R488). HBM reads as zero once initialised; nothing is listed. -/
def MemSt.zero : MemSt where
  cells := []
  undef := []
  sstat := []
  bad := []
  lpWindow := 0
  regions := []
  accounts := []
  handles := []
  nextHandle := 1
  windows := []
  demands := []
  limMoves := []
  scrubInterval := 24
  scrubNext := 24
  passes := 0
  cleared := 0
  suspect := 0
  eccHbm := ⟨Flag.zero, Flag.zero, Flag.zero⟩
  eccLp := ⟨Flag.zero, Flag.zero, Flag.zero⟩
  evictHbm := 0
  evictLp := 0
  allocBusy := 0
  pauseInHbm := 0
  caches := List.replicate 4 ⟨[], 0, 0, 0⟩
  pcs := List.replicate 256 Channel.zero
  lpchs := List.replicate 32 Channel.zero
  retention := none

/-- The fabric at reset (R308, R338, R489). -/
def FabSt.zero : FabSt where
  ownerPct := 50
  timeout := 2000
  links := portNumbers.map Link.zero
  bridges := List.replicate 14 ⟨true, 0, 0, 0, []⟩
  choice := []
  unreachable := []
  detoured := []
  remote := []
  routesStale := true
  badEntries := 0
  detours := 0
  updates := 0
  folded := 0
  lastAtomic := none
  creditWait := 0
  aged := 0
  rrcHits := 0
  rrcMisses := 0
  rrcInval := 0
  txnNot := 0
  accesses := []
  nextAccess := 0
  seqOut := []
  seqIn := []
  heldIn := []
  txns := []
  rrc := []
  ops := []
  snaps := []
  nextSnap := 0
  frozen := none
  counts := []
  rows := []
  sends := []
  batches := []

/-- Stations at reset (R490, R492). -/
def StnsSt.zero : StnsSt := ⟨false, allStations, allNames, []⟩

/-- The package right after power-on reset, at the release of POR_L: stage 1 ROM, flash as manufactured, nothing in
memory, no command waiting (R453, R458). Log 17: DESIGN CHOICE. -/
def State.reset : State where
  pins := ⟨false, false, true, 0, false, false, .bypass⟩
  flash := FlashSt.manufactured
  boot := BootSt.zero
  beat := BeatSt.zero
  pwr := PwrSt.zero
  thm := ThmSt.zero
  hlth := HlthSt.zero
  rime := RimeSt.zero
  stns := StnsSt.zero
  net := NetSt.zero
  sori := ⟨[], 0, 0⟩
  models := ⟨[], [], []⟩
  serve := ⟨[], [], 1, []⟩
  jobs := JobSt.zero
  mem := MemSt.zero
  fab := FabSt.zero
  out := []
  fresh := 0
  pending := []

/-- The package after a power-on reset: everything volatile at its reset value; flash, straps, what has left and
what waits stay (R453, R500, R501). -/
def State.powerOn (s : State) : State :=
  { State.reset with
    flash := s.flash
    pins := { State.reset.pins with slotId := s.pins.slotId }
    boot := { BootSt.zero with stepping := s.boot.stepping }
    out := s.out
    fresh := s.fresh
    pending := s.pending }

end Sys2Proof.Machine
end

