-- ==== Sys2Proof/Machine/Routes.lean ====
section
/-! DEFINITION. The plan and the routes of packets (R290, R291, R301 to R303): peers, links that are UP, the hop a packet takes
next. -/
namespace Sys2Proof.Machine

/-- The FAB.LINK entry of a port. -/
def State.link (s : State) (port : Nat) : Option Link := s.fab.links.find? fun l => l.port = port

/-- The links of the plan at a package: the copper of the fixed rule and its ends of the record's global links (R290, R291). -/
def planAt (pkg : Nat) (r : InstallRec) : List PlanLink := copperLinks pkg ++ ownGlobals pkg r.globals

/-- The plan's entry for a port of this package (R290, R291). -/
def planOf (s : State) (port : Nat) : Option PlanLink := s.flash.install.bind fun r => (planAt s.boot.pkg r).find? fun l => l.port = port

/-- Whether a port is local. -/
def isLocal (port : Nat) : Bool := decide (port < 15)

/-- Whether the end of a link is known to carry traffic: the package's own ports by their state, foreign ones by the
latest record. Log 79: DESIGN CHOICE. -/
def endUp (s : State) (pkg port : Nat) (assume : Bool) : Bool :=
  if pkg = s.boot.pkg then
    match s.link port with
    | some l => l.state = 4
    | none => false
  else
    match s.fab.remote.find? fun r => r.1 = pkg && r.2.1 = port with
    | some r => r.2.2
    | none => assume

/-- The local port of a package whose link leads to another of its group (R290). -/
def copperPort (a b : Nat) : Nat := (b % 16 + 16 - a % 16 - 1) % 16

/-- Whether the copper link between two positions of a group is UP (R290). -/
def copperUp (s : State) (a b : Nat) : Bool := endUp s a (copperPort a b) true && endUp s b (copperPort b a) true

/-- Packages of a group that stand between two of it when their direct link is down, in ascending order (R303). -/
def between (s : State) (a b : Nat) : List Nat :=
  ((List.range 16).map fun p => a / 16 * 16 + p).filter fun m => m ≠ a && m ≠ b && copperUp s a m && copperUp s m b

/-- Hops between two packages of one group, straight or by one intermediate (R301, R303). -/
def copperHops (s : State) (a b : Nat) : Option Nat :=
  if a = b then some 0 else if copperUp s a b then some 1 else if (between s a b).isEmpty then none else some 2

/-- Global links of the plan between two groups that are UP, oriented from the first, with their place in the plan. -/
def upGlobals (s : State) (g k : Nat) : List (Nat × Nat × Nat) :=
  match s.flash.install with
  | none => []
  | some r =>
    r.globals.zipIdx.filterMap fun (l, i) =>
      if endUp s l.pkgA l.portA (!l.standby) && endUp s l.pkgB l.portB (!l.standby) then
        if l.pkgA / 16 = g && l.pkgB / 16 = k then some (l.pkgA, l.pkgB, i)
        else if l.pkgB / 16 = g && l.pkgA / 16 = k then some (l.pkgB, l.pkgA, i) else none
      else none

/-- The group by which a pair of groups without an UP global link is joined: the lowest that has UP links to both (R303). -/
def thirdGroup (s : State) (groups g k : Nat) : Option Nat :=
  (List.range groups).find? fun t => t ≠ g && t ≠ k && !(upGlobals s g t).isEmpty && !(upGlobals s t k).isEmpty

/-- The hash that spreads packets: of the address bits [20:12], the source and the destination (R302). -/
def routeHash (addr src dest : Nat) : Nat := addr / 4096 % 512 + 37 * src + 101 * dest

/-- The package that a packet in one package of a group takes next on its way to another of it (R301, R303). -/
def copperNext (s : State) (h a b : Nat) : Option Nat :=
  if a = b then none
  else if copperUp s a b then some b
  else
    let ms := between s a b
    ms[h % ms.length]?

/-- The global link to a group that a packet takes: entry h mod 64 of the link-choice table, or the next valid one (R302). -/
def chosenGlobal (s : State) (h k : Nat) : Option (Nat × Nat × Nat) :=
  let up := upGlobals s (s.boot.pkg / 16) k
  let table := ((s.fab.choice.find? fun c => c.1 = k).map Prod.snd).getD []
  let order := table.drop (h % 64) ++ table.take (h % 64)
  (order.findSome? fun i => up.find? fun x => x.2.2 = i).or up.head?

/-- The port of this package by which a packet leaves next (R301 to R303); none when no route leads on. Log 81: DESIGN CHOICE. -/
def egressOf (s : State) (src dest addr : Nat) : Option Nat :=
  let me := s.boot.pkg
  let g := me / 16
  let h := routeHash addr src dest
  if g = dest / 16 then (copperNext s h me dest).map (copperPort me)
  else
    let groups := (s.flash.install.map fun r => r.groups).getD 0
    let via := if (upGlobals s g (dest / 16)).isEmpty then thirdGroup s groups g (dest / 16) else some (dest / 16)
    match via.bind (chosenGlobal s h) with
    | none => none
    | some (u, _, i) =>
      if u = me then (s.flash.install.bind fun r => r.globals[i]?).map fun l => if l.pkgA = me then l.portA else l.portB
      else (copperNext s h me u).map (copperPort me)

/-- The address whose bits enter the hash of a packet (R302): zero for one that carries none. -/
def FabOut.hashAddr : FabOut → Nat
  | .request _ _ a _ => a
  | .transit p => p.addr
  | _ => 0

/-- Whether a route of at most five hops leads to a package (R301, R303). Log 80: DESIGN CHOICE. -/
def reachable (s : State) (groups dest : Nat) : Bool :=
  let me := s.boot.pkg
  let g := me / 16
  let k := dest / 16
  if g = k then (copperHops s me dest).isSome
  else
    let beyond (u v n : Nat) : Bool := match copperHops s me u, copperHops s v dest with
      | some a, some b => decide (a + b + n ≤ 5)
      | _, _ => false
    let direct := upGlobals s g k
    if !direct.isEmpty then direct.any fun (u, v, _) => beyond u v 1
    else
      match thirdGroup s groups g k with
      | none => false
      | some t =>
        (upGlobals s g t).any fun (u, v, _) => (upGlobals s t k).any fun (x, y, _) =>
          match copperHops s v x with
          | some m => beyond u y (2 + m)
          | none => false

/-- Whether the way to a package is a detour of R303. -/
def onDetour (s : State) (dest : Nat) : Bool :=
  let me := s.boot.pkg
  if me / 16 = dest / 16 then !copperUp s me dest else (upGlobals s (me / 16) (dest / 16)).isEmpty

end Sys2Proof.Machine
end

