-- ==== Sys2Proof/Machine/Ops.lean ====
section
/-! DEFINITION. Shared operations over the state: replies and frames (R347 to R358), the recorder (R441 to R448),
memory (R13, R266, R267, R278), lookups, the end of requests and commands, and the context fault (R394). -/
namespace Sys2Proof.Machine

/-- Every element that `p` picks is replaced by `f` of it. -/
def updBy {α : Type} (p : α → Bool) (f : α → α) (xs : List α) : List α := xs.map fun x => if p x then f x else x

/-- The list with element `i` replaced by `f` of it. -/
def updAt {α : Type} (i : Nat) (f : α → α) (xs : List α) : List α := xs.modify i f

/-! ### Status codes (R360) -/

def stOk : Nat := 0x0000
def stAccepted : Nat := 0x0001
def stLateCancel : Nat := 0x0002
def stMalformed : Nat := 0x0010
def stUnknownOpcode : Nat := 0x0011
def stVersion : Nat := 0x0012
def stBadParam : Nat := 0x0013
def stConflict : Nat := 0x0020
def stBusy : Nat := 0x0021
def stNoResource : Nat := 0x0022
def stAuth : Nat := 0x0030
def stDenied : Nat := 0x0031
def stDigest : Nat := 0x0040
def stShardMissing : Nat := 0x0041
def stSignature : Nat := 0x0042
def stTxnAborted : Nat := 0x0050
def stTxnLimit : Nat := 0x0051
def stCancelled : Nat := 0x0060
def stContextFault : Nat := 0x0061
def stExpired : Nat := 0x0062
def stCapUnattainable : Nat := 0x0070
def stDegraded : Nat := 0x0071
def stRetired : Nat := 0x0080
def stInternal : Nat := 0x00F0

/-! ### Time and the recorder -/

/-- The present beat number. -/
def State.now (s : State) : Nat := s.beat.count

/-- The stamp of an event now, in microseconds, and whether it is boot-relative (R442). -/
def stampNow (s : State) : Nat × Bool :=
  if s.beat.onPtp then (s.beat.ptpBase + s.beat.elapsed, false) else (s.beat.elapsed, true)

/-- A payload filled with zeros to a multiple of 8, at least 16 bytes (R441). Log 30: DESIGN CHOICE. -/
def padPayload (p : List Byte) : List Byte := padTo (max 16 ((p.length + 7) / 8 * 8)) p

/-- Whether a new event folds into a record (R444). Log 30: DESIGN CHOICE. -/
def foldsInto (e r : Rec) : Bool :=
  e.type = r.type && e.source = r.source && e.payload = r.payload && decide (e.firstElapsed ≤ r.lastElapsed + 10000000) &&
    decide (r.repeats + e.repeats ≤ 65535)

/-- A record with a later occurrence folded in (R444, R448). -/
def foldRec (r e : Rec) : Rec :=
  { r with
    repeats := r.repeats + e.repeats
    last := e.last
    lastBoot := e.lastBoot
    lastElapsed := e.lastElapsed
    held := r.held || e.held }

/-- The last record of a list replaced. -/
def setLast (rs : List Rec) (r : Rec) : List Rec := rs.dropLast ++ [r]

/-- A record enters both areas as the rules of R443 to R447 say; a FATAL record mirrors the area (R446). -/
def enterRec (e : Rec) (s : State) : State :=
  let ri := s.rime
  match ri.circ.getLast? with
  | some r =>
    if foldsInto e r then
      let r' := foldRec r e
      let s := { s with
        rime := { ri with circ := setLast ri.circ r' }
        flash := { s.flash with keep := updBy (fun k => k.seq = r.seq && decide (r.seq < 512)) (fun _ => r') s.flash.keep } }
      if e.sev = 6 then { s with flash := { s.flash with ring := s.rime.circ } } else s
    else enterNew e s
  | none => enterNew e s
where
  enterNew (e : Rec) (s : State) : State :=
    let ri := s.rime
    let r := { e with seq := ri.next }
    let circ := (ri.circ ++ [r])
    let circ := circ.drop (circ.length - 8192)
    let toKeep := !ri.keepFull && decide (ri.next < 512)
    let keep := if toKeep then s.flash.keep ++ [r] else s.flash.keep
    { s with
      rime := { ri with circ := circ, next := (ri.next + 1) % 2 ^ 32, keepFull := ri.keepFull || decide (512 ≤ keep.length) }
      flash := { s.flash with keep := keep, ring := if e.sev = 6 then circ else s.flash.ring } }

/-- An event is recorded (R444, R448). Log 30: DESIGN CHOICE. -/
def record (type sev source : Nat) (payload : List Byte) (s : State) : State :=
  let (t, boot) := stampNow s
  let e : Rec := ⟨type, sev, source, 1, t, boot, t, boot, false, 0, padPayload payload, s.beat.elapsed, s.beat.elapsed⟩
  let ri := s.rime
  if ri.freeze.isSome && decide (sev ≠ 6) then
    let e := { e with held := true }
    let folded := match ri.holding.getLast? with
      | some r => if foldsInto e r then some (setLast ri.holding (foldRec r e)) else none
      | none => none
    match folded with
    | some hs => { s with rime := { ri with holding := hs } }
    | none =>
      if ri.holding.length < 64 then { s with rime := { ri with holding := ri.holding ++ [e] } }
      else
        { s with rime := { ri with
            lost := sat32 (ri.lost + 1)
            lostNow := ri.lostNow + 1
            lostFirst := if ri.lostNow = 0 then t else ri.lostFirst
            lostFirstBoot := if ri.lostNow = 0 then boot else ri.lostFirstBoot
            lostLast := t
            lostBoot := boot
            overflow := ri.overflow.hit } }
  else enterRec e s

/-- The package's source code (R9). Log 135: DESIGN CHOICE. -/
def pkgSource : Nat := 0xE00

/-- The 12-bit source code of a station (R8). -/
def sourceCode (die letter num : Nat) : Nat := die * 512 + letter * 64 + num

/-- Die, letter and number of a source code (R8). -/
def dieOf (code : Nat) : Nat := code / 512 % 8
def letterOf (code : Nat) : Nat := code / 64 % 8
def numOf (code : Nat) : Nat := code % 64

/-- Whether a source code is well made (R9). Its sentences differ on die 0b111: 0xE00 is the only valid code there, and its letter is
0b000, while any letter but 0b111 is called malformed. The model takes 0xE00 and no other (DESIGN CHOICE, log 135). -/
def sourceOk (code : Nat) : Bool :=
  if dieOf code = 7 then decide (code = pkgSource)
  else if letterOf code = 7 then numOf code = 0
  else decide (numOf code < stationCount (dieOf code) (letterOf code))

/-! ### Output, sessions and replies -/

/-- The package sends something. Log 109: DESIGN CHOICE. -/
def emit (o : Output) (s : State) : State := { s with out := s.out ++ [o] }

/-- The session with an id. -/
def State.session (s : State) (sid : Nat) : Option Session := s.net.sessions.find? fun e => e.id = sid

/-- A session changes. -/
def setSession (sid : Nat) (f : Session → Session) (s : State) : State :=
  { s with net := { s.net with sessions := updBy (fun e => e.id = sid) f s.net.sessions } }

/-- The port on which a session's next frame leaves: its own while it has link, else the other (R340). -/
def sendPort (s : State) (e : Session) : Nat :=
  if s.net.ethUp.getD e.port false then e.port else if s.net.ethUp.getD (1 - e.port) false then 1 - e.port else e.port

/-- The RTO of a session's new frame, in microseconds (R357). -/
def Session.rto (e : Session) : Nat := max 100 (2 * e.srtt)

/-- An entry leaves in the session's next frame; with 64 frames unacknowledged it waits (R355). A session that is gone
carries nothing. -/
def sendEntry (sid : Nat) (d : DevEntry) (s : State) : State :=
  match s.session sid with
  | none => s
  | some e =>
    if e.unacked.length < 64 then
      emit (.frame sid (sendPort s e) e.nextOut d)
        (setSession sid (fun e => { e with
          unacked := e.unacked ++ [⟨e.nextOut, some d, s.beat.elapsed, s.beat.elapsed, e.rto⟩]
          nextOut := (e.nextOut + 1) % 2 ^ 32
          framesOut := e.framesOut + 1 }) s)
    else setSession sid (fun e => { e with waitingOut := e.waitingOut ++ [d] }) s

/-- A reply entry to a session, or in the clear on session 0 to the command's source (R349, R350). -/
def sendReply (sid src : Nat) (r : Reply) (s : State) : State :=
  if sid = 0 then emit (.plain src r) s else sendEntry sid (.reply r) s

/-- The opcode of a reply: bit 15 set (R349). -/
def replyOpcode (op : Nat) : Nat := 0x8000 + op

/-- The FINAL reply of a command that was not accepted earlier (R349). -/
def reply (h : Hdr) (op status detail : Nat) (result : List Byte) (s : State) : State :=
  sendReply h.session h.src ⟨replyOpcode op, status, h.tag, detail, true, result⟩ s

/-- FINAL ST_OK with a result. -/
def replyOk (h : Hdr) (op : Nat) (result : List Byte) (s : State) : State := reply h op stOk 0 result s

/-- The reply without FINAL, ST_ACCEPTED (R349); the command stays outstanding (R358). Log 22: DEDUCED. -/
def accept (h : Hdr) (op : Nat) (result : List Byte) (s : State) : State :=
  setSession h.session (fun e => { e with outstanding := e.outstanding + 1 })
    (sendReply h.session h.src ⟨replyOpcode op, stAccepted, h.tag, 0, false, result⟩ s)

/-- The FINAL reply of a command accepted earlier. Log 22: DEDUCED. -/
def finish (sid tag op status detail : Nat) (result : List Byte) (s : State) : State :=
  sendEntry sid (.reply ⟨replyOpcode op, status, tag, detail, true, result⟩)
    (setSession sid (fun e => { e with outstanding := e.outstanding - 1 }) s)

/-- How a command is answered: status, detail, result. -/
abbrev Answer := Nat → Nat → List Byte → State → State

/-- The answer of a command carried out at once. -/
def answerNow (h : Hdr) (op : Nat) : Answer := fun st d r s => reply h op st d r s

/-- The FINAL answer of a command accepted earlier. Log 22: DEDUCED. -/
def answerLater (session tag op : Nat) : Answer := fun st d r s => finish session tag op st d r s

/-- The session that carries a principal's events: the submitting one, else the most recently opened (R354). -/
def eventSession (s : State) (sid principal : Nat) : Option Nat :=
  if (s.session sid).isSome then some sid
  else
    (s.net.sessions.filter fun e => e.principal = principal).foldl
      (fun best e => match best with
        | none => some e
        | some b => if b.opened < e.opened then some e else some b) none |>.map fun e => e.id

/-- An event goes to the session that carries the principal's events, or waits for one (R354). DESIGN CHOICE, log 147: the spec does
not say what becomes of an event while its principal has no session. -/
def sendEvent (sid principal : Nat) (d : DevEntry) (s : State) : State :=
  match eventSession s sid principal with
  | some x => sendEntry x d s
  | none => { s with net := { s.net with events := s.net.events ++ [⟨principal, d⟩] } }

/-- A frame discarded for a cause is counted (R351, R487). -/
def discard (cause : Nat) (s : State) : State :=
  { s with net := { s.net with discards := updAt cause (fun n => sat32 (n + 1)) s.net.discards } }

/-! ### Memory -/

/-- What an address that no entry lists reads as: zero, or undefined inside an undefined range (R278, R458). The newest
range counts. -/
def MemSt.undefAt (m : MemSt) (a : Nat) : Option Undef :=
  m.undef.find? fun u => decide (u.base ≤ a) && decide (a < u.base + u.bytes)

/-- The fixed value of an unlisted address; none where it is undefined. Log 1: DESIGN CHOICE. -/
def MemSt.unlistedReads (m : MemSt) (a : Nat) : Option Byte :=
  match m.undefAt a with
  | some _ => none
  | none => some 0#8

/-- One byte of memory. -/
def MemSt.readByte (m : MemSt) (a : Nat) : Byte :=
  match m.cells.find? fun c => c.1 = a with
  | some c => c.2
  | none =>
    match m.undefAt a with
    | some u => Config.freeByte u.seed a
    | none => 0#8

/-- `n` bytes from an address. -/
def MemSt.read (m : MemSt) (a n : Nat) : List Byte :=
  let cs := (m.cells.dropWhile fun c => decide (c.1 < a)).takeWhile fun c => decide (c.1 < a + n)
  go m cs a n
where
  go (m : MemSt) (cs : List (Nat × Byte)) (a : Nat) : Nat → List Byte
    | 0 => []
    | n + 1 =>
      match cs with
      | c :: rest =>
        if c.1 = a then c.2 :: go m rest (a + 1) n
        else (match m.undefAt a with | some u => Config.freeByte u.seed a | none => 0#8) :: go m cs (a + 1) n
      | [] => (match m.undefAt a with | some u => Config.freeByte u.seed a | none => 0#8) :: go m [] (a + 1) n

/-- The entries that bytes from an address need: those that differ from what the unlisted address reads as. -/
def MemSt.entries (m : MemSt) : Nat → List Byte → List (Nat × Byte)
  | _, [] => []
  | a, b :: bs => if m.unlistedReads a = some b then m.entries (a + 1) bs else (a, b) :: m.entries (a + 1) bs

/-- Bytes stored from an address, in the canonical form (rising addresses, no entry equal to its unlisted value). Log 1: DESIGN CHOICE. -/
def MemSt.write (m : MemSt) (a : Nat) (bs : List Byte) : MemSt :=
  let lo := m.cells.takeWhile fun c => decide (c.1 < a)
  let hi := m.cells.filter fun c => decide (a + bs.length ≤ c.1)
  { m with cells := lo ++ m.entries a bs ++ hi }

/-- A range takes undefined contents (R278). Log 1: DESIGN CHOICE. -/
def MemSt.undefine (m : MemSt) (u : Undef) : MemSt :=
  { m with
    cells := m.cells.filter fun c => decide (c.1 < u.base) || decide (u.base + u.bytes ≤ c.1)
    undef := u :: m.undef
    sstat := m.sstat.filter fun a => !(decide (u.base ≤ a) && decide (a < u.base + u.bytes)) }

/-- The canonical form of memory: addresses strictly rising, and no entry equal to its unlisted value. -/
def MemSt.wf (m : MemSt) : Bool :=
  decide (m.cells.Pairwise fun a b => a.1 < b.1) && m.cells.all fun c => decide (m.unlistedReads c.1 ≠ some c.2)

/-- A fresh number for a free value. Log 2: DESIGN CHOICE. -/
def draw (s : State) : Nat × State := (s.fresh, { s with fresh := s.fresh + 1 })

/-- A fault of the package is recorded beside its ST_INTERNAL (R360, R451); the fault site is a free value (DESIGN CHOICE, log 2). -/
def recordInternal (op tag : Nat) (s : State) : State :=
  let (d, s) := draw s
  record 0x0F01 5 pkgSource (leBytes 2 op ++ leBytes 4 tag ++ leBytes 4 (Config.drawn d).toNat) s

/-- A handle by its id. -/
def State.handle (s : State) (id : Nat) : Option Handle := s.mem.handles.find? fun h => h.id = id

/-- Bytes that a handle's region of this package spans (R278, R285). -/
def Handle.span (h : Handle) : Nat :=
  if h.kind = 3 then (h.bytes / 4096 + h.members.length - 1) / max 1 h.members.length * 4096 else h.bytes

/-- The byte that a local address names (R266, R267): RoCE windows lie over their allocation; none is unmapped. Striped
addresses are resolved by `stripeHome`. -/
def mapLocal (s : State) (a : Nat) : Option Nat :=
  if a < hbmWindow then some a
  else if lpBase ≤ a && decide (a < lpBase + s.mem.lpWindow) then some a
  else if 0x100000000000 ≤ a && decide (a < 0x140000000000) then
    let w := a % 2 ^ 44 / 2 ^ 34
    let off := a % 2 ^ 34
    match s.mem.handles.find? fun h => h.window = some w with
    | some h => if off < h.span then some (h.base + off) else none
    | none => none
  else if 0x140000000000 ≤ a && decide (a < 0x140000080000) then some a
  else none

/-- The home package and the local address there of a striped address of this package (R285). -/
def stripeHome (s : State) (a : Nat) : Option (Nat × Nat) :=
  match s.mem.handles.find? fun h => h.kind = 3 && decide (h.stripeBase ≤ a) && decide (a < h.stripeBase + h.bytes) with
  | none => none
  | some h =>
    let m := h.members.length
    let q := (a - h.stripeBase) / 4096
    let r := q / m
    let x := (r % 256) ^^^ (r / 2 ^ 8 % 256) ^^^ (r / 2 ^ 16 % 256) ^^^ (r / 2 ^ 24 % 256)
    let home := h.members.getD ((q + x) % m) 0
    if home = s.boot.pkg then some (home, h.base + r * 4096 + a % 4096) else some (home, a)

/-- Where a global address leads (R266, R285): a byte of this package, or an address at another. -/
inductive Target where
  | here (addr : Nat)
  | remote (home addr : Nat)
  | unmapped
  deriving DecidableEq, Repr

/-- The target of a global address. -/
def target (s : State) (a : Nat) : Target :=
  if 2 ^ 57 ≤ a then .unmapped
  else
    let pkg := a / 2 ^ 49
    let loc := a % 2 ^ 49
    if pkg ≠ s.boot.pkg then .remote pkg a
    else if 0x180000000000 ≤ loc && decide (loc < 0x1FFF00000000) then
      match stripeHome s loc with
      | none => .unmapped
      | some (home, x) => if home = s.boot.pkg then .here x else .remote home (home * 2 ^ 49 + x)
    else match mapLocal s loc with
      | some x => .here x
      | none => .unmapped

/-- Stored bytes at a byte of this package; every stream-cache image they touch is removed (R276). -/
def storeBytes (a : Nat) (bs : List Byte) (s : State) : State :=
  let hit (img : Nat × Nat) : Bool := decide (img.1 < a + bs.length) && decide (a < img.1 + img.2)
  { s with mem := { s.mem.write a bs with
      bad := s.mem.bad.filter fun w => !(decide (a ≤ w) && decide (w + 32 ≤ a + bs.length))
      caches := s.mem.caches.map fun c =>
        let gone := (c.images.filter hit).length
        if gone = 0 then c
        else { c with images := c.images.filter fun i => !hit i, removed := wrap32 (c.removed + gone) } } }

/-- Whether a run of bytes holds a word that a read still finds uncorrectable after its retry (R275). DESIGN CHOICE, log 123: such
a word stays so until a write covers it. -/
def State.badAt (s : State) (a n : Nat) : Bool := s.mem.bad.any fun w => decide (w < a + n) && decide (a < w + 32)

/-- Lines of 256 bytes that a run of bytes touches (R325). -/
def linesOf (a n : Nat) : Nat := if n = 0 then 0 else (a + n - 1) / 256 - a / 256 + 1

/-- A 64 KiB unit of a snapshot is copied (R313). -/
def copyUnit (id : Nat) (u : Nat × Nat × Nat) (s : State) : State :=
  let s := storeBytes u.2.1 (s.mem.read u.1 u.2.2) s
  { s with fab := { s.fab with
      snaps := updBy (fun x => x.id = id) (fun x => { x with units := x.units.filter fun v => v ≠ u }) s.fab.snaps } }

/-- Units of captured snapshots that a write would touch before they are copied, each with its snapshot and context. -/
def blockedUnits (s : State) (a n : Nat) : List (Nat × Nat × (Nat × Nat × Nat)) :=
  ((s.fab.snaps.filter fun x => x.captured).map fun x =>
    (x.units.filter fun u => decide (u.1 < a + n) && decide (a < u.1 + u.2.2)).map fun u => (x.id, x.ctx, u)).flatten

/-- A write that a home applies through its combining table (R313, R325): a unit of a snapshot that it touches is copied
first, the wait counted in the snapshot's context; each line is one update. -/
def applyWrite (a : Nat) (bs : List Byte) (s : State) : State :=
  let s := (blockedUnits s a bs.length).foldl (fun (s : State) b =>
    let s := copyUnit b.1 b.2.2 s
    { s with jobs := { s.jobs with
        ctxs := updBy (fun c => c.num = b.2.1) (fun c => { c with snapWaits := sat32 (c.snapWaits + 1) }) s.jobs.ctxs } }) s
  storeBytes a bs { s with fab := { s.fab with updates := s.fab.updates + linesOf a bs.length, lastAtomic := none } }

/-! ### Stations by name -/

/-- The station entry that carries a logical name (R7, R432). -/
def carrier (s : State) (die letter name : Nat) : Option StnSt :=
  s.stns.stns.find? fun e => e.die = die && e.letter = letter && e.names.contains name

/-- The source code of the silicon that carries a named station; the code itself for a Front. -/
def carrierCode (s : State) (code : Nat) : Option Nat :=
  if letterOf code = 7 then some code
  else (carrier s (dieOf code) (letterOf code) (numOf code)).map fun e => sourceCode e.die e.letter e.num

/-- A station entry changes, chosen by silicon. -/
def setStn (die letter num : Nat) (f : StnSt → StnSt) (s : State) : State :=
  { s with stns := { s.stns with
      stns := updBy (fun e => e.die = die && e.letter = letter && e.num = num) f s.stns.stns } }

/-- A station entry changes, chosen by the name's source code; a Front by its die. -/
def setNamed (code : Nat) (f : StnSt → StnSt) (s : State) : State :=
  match carrierCode s code with
  | some c => setStn (dieOf c) (letterOf c) (numOf c) f s
  | none => s

/-- What a command claims (R144): its stations' silicon, and the Front channels its streams name. -/
def claimsOf (s : State) (img : Image) : List Nat :=
  ((img.bindings.filter fun b => letterOf b.code ≠ 7).map fun b => (carrierCode s b.code).getD b.code) ++
    (img.streams.filter fun e => letterOf (e.producer % 4096) = 7).map (fun e => 0x10000 + e.producer) ++
    (img.streams.filter fun e => letterOf (e.consumer % 4096) = 7).map (fun e => 0x20000 + e.consumer)

/-- The command with an id. -/
def State.cmd (s : State) (id : Nat) : Option Cmd := s.jobs.cmds.find? fun c => c.id = id

/-- A command changes. -/
def setCmd (id : Nat) (f : Cmd → Cmd) (s : State) : State :=
  { s with jobs := { s.jobs with cmds := updBy (fun c => c.id = id) f s.jobs.cmds } }

/-- The context with a number; none is FREE. -/
def State.ctx (s : State) (n : Nat) : Option Ctx := s.jobs.ctxs.find? fun c => c.num = n

/-- A context changes. -/
def setCtx (n : Nat) (f : Ctx → Ctx) (s : State) : State :=
  { s with jobs := { s.jobs with ctxs := updBy (fun c => c.num = n) f s.jobs.ctxs } }

/-- A queue of a context. -/
def Ctx.queue (c : Ctx) (q : Nat) : Option Queue := c.queues.find? fun e => e.num = q

/-- A queue of a context changes. -/
def setQueue (n q : Nat) (f : Queue → Queue) (s : State) : State :=
  setCtx n (fun c => { c with queues := updBy (fun e => e.num = q) f c.queues }) s

/-- The model with an id; none is ABSENT. -/
def State.model (s : State) (id : Nat) : Option Model := s.models.models.find? fun m => m.id = id

/-- A model changes. -/
def setModel (id : Nat) (f : Model → Model) (s : State) : State :=
  { s with models := { s.models with models := updBy (fun m => m.id = id) f s.models.models } }

/-- The state code of a model (R244). -/
def modelCode (s : State) (id : Nat) : Nat :=
  match s.model id with
  | some m => 0x30 + m.state
  | none => 0x30

/-- The request with an id. -/
def State.req (s : State) (id : Nat) : Option Req := s.serve.reqs.find? fun r => r.id = id

/-- A request changes. -/
def setReq (id : Nat) (f : Req → Req) (s : State) : State :=
  { s with serve := { s.serve with reqs := updBy (fun r => r.id = id) f s.serve.reqs } }

/-- Whether a request state is final (R212). -/
def finalState (st : Nat) : Bool := decide (0x10 ≤ st)

/-- Whether some engine runs slower than Limcel's request or the duty is below 8/8 (R423). -/
def limitedNow (s : State) : Bool :=
  decide (s.pwr.reqC < s.pwr.levelC) || decide (s.pwr.reqD < s.pwr.levelD) || decide (s.pwr.duty < 8)

/-- A fabric packet of this package's own, on the port that its route takes (R301, R306, R423). -/
def fabPacket (s : State) (dest vc : Nat) (w : FabOut) : Output :=
  .fabric dest vc (egressOf s s.boot.pkg dest w.hashAddr) (limitedNow s) w

/-- A fabric packet leaves (R301, R306, R423). -/
def sendFab (dest vc : Nat) (w : FabOut) (s : State) : State := emit (fabPacket s dest vc w) s

/-- A context that a command names (R359, R382, R383): unknown, Limcel's own or another principal's, or torn down. -/
def ctxRefusal (s : State) (principal n : Nat) : Option (Nat × Nat) :=
  match s.ctx n with
  | none => some (stBadParam, 0)
  | some c => if n = 0 || c.principal ≠ principal then some (stDenied, 0) else if c.torn then some (stConflict, 0x58) else none

/-! ### The end of requests -/

/-- Whether a launched step that has not committed holds the request (R180, R217). -/
def inStep (s : State) (rid : Nat) : Bool :=
  s.jobs.cmds.any fun c => c.kind = .step && !c.committed && c.launch.plan.any fun i => i.request = rid

/-- Whether a launched step that has not retired holds the request, or has dropped it from its plan with its units still running: its
pages stay until then (R180, R217). -/
def stepHolds (s : State) (rid : Nat) : Bool :=
  s.jobs.cmds.any fun c => c.kind = .step && !c.phase.over && (c.dropped.contains rid || c.launch.plan.any fun i => i.request = rid)

/-- A model's page-set loses a reference; with none left it returns to the pool (R161). -/
def dropSet (sets : List PageSet) (id : Nat) : List PageSet :=
  (updBy (fun p => p.id = id) (fun p => { p with refs := p.refs - 1 }) sets).filter fun p => decide (0 < p.refs)

/-- A request's pages return to their pools (R161, R228). -/
def freePages (rid : Nat) (s : State) : State :=
  match s.req rid with
  | none => s
  | some r =>
    let sets := ((r.pages.filter fun p => p.tier = 1).map fun p => p.pageSet) ++ r.resumeSets
    let s := setModel r.p.modelId (fun m => { m with usedSets := sets.foldl dropSet m.usedSets }) s
    let s := { s with mem := { s.mem with regions := s.mem.regions.filter fun g => decide (g.owner ≠ .paused rid) } }
    setReq rid (fun r => { r with pages := [], resumeSets := [] }) s

/-- REQ_DONE (R214, R365). -/
def sendDone (r : Req) (status : Nat) (s : State) : State :=
  sendEvent r.session r.principal (.done r.tag (leBytes 4 r.id ++ leBytes 2 status ++ leBytes 1 r.state ++ leBytes 1 0 ++
    leBytes 4 r.delivered ++ leBytes 4 0 ++ leBytes 8 s.now)) s

/-- Whether a principal still owns a context or a request that is not final (R516). -/
def ownsSomething (s : State) (principal : Nat) : Bool :=
  (s.jobs.ctxs.any fun c => c.principal = principal && decide (c.num ≠ 0)) ||
    (s.serve.reqs.any fun r => r.principal = principal && !finalState r.state)

/-- The principal's accounting slot starts its 60 s when nothing it owns is left (R516). -/
def restAcct (principal : Nat) (s : State) : State :=
  if ownsSomething s principal then s
  else
    let mine (a : Acct) : Bool := a.used && decide (a.principal = principal)
    { s with jobs := { s.jobs with acct := updBy mine (fun a => { a with idleSince := some s.beat.elapsed }) s.jobs.acct } }

/-- The principal takes or keeps an accounting slot (R516). Log 29: DESIGN CHOICE. -/
def takeAcct (principal : Nat) (s : State) : State :=
  let a := s.jobs.acct
  let mine (x : Acct) : Bool := x.used && decide (x.principal = principal)
  if a.any mine then
    { s with jobs := { s.jobs with acct := updBy mine (fun x => { x with idleSince := none }) a } }
  else
    match (List.range 63).find? fun i => !(a.getD i Acct.empty).used with
    | some i => { s with jobs := { s.jobs with acct := updAt i (fun _ => { Acct.empty with used := true, principal := principal }) a } }
    | none => { s with jobs := { s.jobs with acct := updAt 63 (fun x => { x with used := true, principal := 0xFFFFFFFF }) a } }

/-- The principal's accounting slot changes; slot 63 for a principal without one (R516). -/
def setAcct (principal : Nat) (f : Acct → Acct) (s : State) : State :=
  let a := s.jobs.acct
  if a.any fun x => x.used && decide (x.principal = principal) then
    { s with jobs := { s.jobs with acct := updBy (fun x => x.used && decide (x.principal = principal)) f a } }
  else { s with jobs := { s.jobs with acct := updAt 63 f a } }

/-- A request reaches a final state: REQ_DONE leaves, and its pages return at once, or with the step that still holds
it (R180, R212 to R214, R217). -/
def endRequest (rid state status : Nat) (s : State) : State :=
  match s.req rid with
  | none => s
  | some r =>
    if finalState r.state then s
    else
      let r' := { r with state := state, finalAt := s.beat.elapsed, pausePending := false, resumeTo := none }
      let s := setReq rid (fun _ => r') s
      let s := sendDone r' status s
      let s := if stepHolds s rid then s else freePages rid s
      restAcct r.principal s

/-! ### The end of commands and the context fault -/

/-- Results of LAUNCH's FINAL reply (R366). Logs 93, 96: DESIGN CHOICE. -/
def launchResult (c : Cmd) (commit : Nat) : List Byte :=
  leBytes 4 c.id ++ leBytes 4 0 ++ leBytes 8 c.firstStart ++ leBytes 8 c.retireBeat ++ leBytes 8 commit

/-- The opcode whose FINAL reply a command's end gives. -/
def cmdOpcode (c : Cmd) : Nat := if c.kind = .copy then 0x0404 else 0x0303

/-- The FINAL reply of a command's end; a serving step answers no host. -/
def finishCmd (c : Cmd) (status commit : Nat) (s : State) : State :=
  if c.kind = .step then s
  else finish c.launch.session c.launch.tag (cmdOpcode c) status 0 (if c.kind = .copy then [] else launchResult c commit) s

/-- What a command leaves when it ends: no counters, queues, sets, banks or hold slots (R94, R153). -/
def clearRun (c : Cmd) : Cmd := { c with lists := [], streams := [], events := [] }

/-- The accesses of a command that has ended: those not issued are dropped, the others complete at their homes and nobody
waits for them; its exchange windows are released (R126, R202). 2^32 is no command's id. -/
def orphan (id : Nat) (s : State) : State :=
  { s with fab := { s.fab with
      accesses := (s.fab.accesses.filter fun a => !(a.cmd = id && a.held)).map fun a =>
        if a.cmd = id then { a with cmd := 2 ^ 32, sink := .none, bump := none, noFill := true } else a
      sends := s.fab.sends.filter fun x => x.cmd ≠ id
      batches := s.fab.batches.filter fun x => x.cmd ≠ id } }

/-- A running command ends without retiring (R148): its claims stay until the next beat boundary, it commits nothing,
its generation stays blocked (R187), its reply has the given status. -/
def endCmd (id status : Nat) (s : State) : State :=
  match s.cmd id with
  | none => s
  | some c =>
    if c.phase = .waiting then
      finishCmd c status 0 { s with jobs := { s.jobs with cmds := s.jobs.cmds.filter fun x => x.id ≠ id } }
    else if c.phase.over then s
    else
      let s := setCmd id (fun c => { clearRun c with phase := .retired, committed := true, retireBeat := 0 }) s
      let s := setCtx c.ctx (fun x => { x with blockedGens := x.blockedGens ++ [(c.gen, s.beat.elapsed)] }) s
      let s := orphan id s
      finishCmd c status 0 s

/-- Every command of a context ends with a status; a retired command whose commit is due is not ended (R148). -/
def endCmdsOf (n status : Nat) (s : State) : State :=
  (s.jobs.cmds.filter fun c => c.ctx = n).foldl (fun s c => endCmd c.id status s) s

/-- Handles of a context are freed with their windows, counters and regions (R280); a view falls with its plan (R282). -/
def freeHandlesOf (n : Nat) (s : State) : State :=
  let ids := (s.mem.handles.filter fun h => h.ctx = n).map fun h => h.id
  { s with mem := { s.mem with
      handles := s.mem.handles.filter fun h => h.ctx ≠ n
      windows := s.mem.windows.filter fun w => !ids.contains w.2
      accounts := s.mem.accounts.filter fun a => a.ctx ≠ n
      regions := s.mem.regions.map fun g =>
        match g.owner with
        | .handle id => if ids.contains id then { g with freeAt := some (beatAdd s.now 1) } else g
        | _ => g } }

/-- Blocks of a job leave the remote-read cache with its last context here (R329). -/
def dropJobBlocks (job : Nat) (s : State) : State :=
  if s.jobs.ctxs.any fun c => c.job = job && !c.torn then s
  else { s with fab := { s.fab with rrc := s.fab.rrc.filter fun b => b.job ≠ job } }

/-- The TIER_MOVE of a handle, if one runs, ends with its context. -/
def endMove (h : Handle) (status : Nat) (s : State) : State :=
  match h.move with
  | some m => finish m.session m.tag 0x0405 status 0 [] s
  | none => s

/-- Pending PREEMPTs, waiting ALLOCs, snapshots and TIER_MOVEs of a context receive a status (R394, R515); a RESUME that meets a teardown
in its beat, or one staged in a sorus of this beat, is a conflict (R396). -/
def endWaits (n status : Nat) (s : State) : State :=
  let s := (s.jobs.preempts.filter fun p => p.ctx = n).foldl (fun s p =>
    if status = stContextFault && ((p.resume && beatLe p.beat s.now) || p.stagedAt = some s.now) then finish p.session p.tag 0x0308 stConflict 0x58 [] s
    else finish p.session p.tag 0x0308 status 0 [] s) s
  let inCtx (d : Demand) : Bool := match d.want with
    | .alloc p => s.mem.accounts.any fun a => a.id = p.account && decide (a.ctx = n)
    | _ => false
  let s := (s.mem.demands.filter inCtx).foldl (fun s d => finish d.session d.tag 0x0402 status 0 [] s) s
  let s := (s.fab.snaps.filter fun x => x.ctx = n).foldl (fun s x => finish x.session x.tag 0x0505 status 0 [] s) s
  let s := (s.mem.handles.filter fun h => h.ctx = n).foldl (fun s h => endMove h status s) s
  { s with
    fab := { s.fab with snaps := s.fab.snaps.filter fun x => x.ctx ≠ n }
    jobs := { s.jobs with preempts := s.jobs.preempts.filter fun p => p.ctx ≠ n }
    mem := { s.mem with demands := s.mem.demands.filter fun d => !inCtx d } }

/-- LAUNCHes of a sorus of this beat that have not started take no effect (R396). -/
def dropStaged (n : Nat) (s : State) : State :=
  let staged (c : Cmd) : Bool := c.ctx = n && c.phase = .waiting && c.launch.stagedAt = some s.now
  let s' := (s.jobs.cmds.filter staged).foldl (fun s c =>
    finish c.launch.session c.launch.tag (cmdOpcode c) stConflict 0x58 [] s) s
  { s' with jobs := { s'.jobs with cmds := s'.jobs.cmds.filter fun c => !staged c } }

/-- The teardown of a context in the order of R394, by commands' end status. Context 0 is never torn down (R395). -/
def tearDown (n : Nat) (s : State) : State :=
  match s.ctx n with
  | none => s
  | some c =>
    if n = 0 || c.torn then s
    else
      let s := endCmdsOf n stContextFault (dropStaged n s)
      let s := endWaits n stContextFault s
      let s := { s with pwr := { s.pwr with hints := s.pwr.hints.filter fun h => h.ctx ≠ n } }
      let s := setCtx n (fun c => { c with torn := true }) s
      let s := dropJobBlocks c.job s
      let s := freeHandlesOf n s
      setCtx n (fun c => { c with queues := [] }) s

/-- A context fault is noted in CTX.FAULT and recorded (R396, R401, R451). -/
def noteFault (n cause source seq mark : Nat) (s : State) : State :=
  let s := setCtx n (fun c => { c with
    faulted := c.faulted.hit
    cause := if c.faulted.count = 0 then cause else c.cause
    faultSeq := if c.faulted.count = 0 then seq else c.faultSeq
    faultSource := if c.faulted.count = 0 then source else c.faultSource
    faultMark := if c.faulted.count = 0 then mark else c.faultMark }) s
  record 0x0303 3 source (leBytes 1 n ++ leBytes 1 cause ++ leBytes 2 seq ++ leBytes 2 source ++ leBytes 4 mark) s

/-- SEQ and MARK of a descriptor of the table (R134). -/
def seqMark (c : Cmd) (index : Nat) : Nat × Nat := ((c.image.descs[index]?).map fun d => (d.seq, d.mark)).getD (0, 0)

/-- SEQ and MARK of the descriptor at the head of a list: the first that has not completed (R134, R143). Logs 76, 95: DESIGN CHOICE. -/
def headOf (c : Cmd) (code : Nat) : Nat × Nat :=
  match c.lists.find? fun l => l.code = code with
  | none => (0, 0)
  | some l => seqMark c ((l.queue.head?.map fun e => e.index).getD (l.first + min l.issued (l.count - 1)))

/-- Whether a command has ended in this beat with the teardown of its context (R148, R396). -/
def diedOfTeardown (s : State) (c : Cmd) : Bool :=
  c.phase = .retired && c.committed && c.retireBeat = 0 && (s.ctx c.ctx).any fun x => x.torn

/-- A context fault of a running command, or a second one in the beat of the teardown (R394 to R396): cause of R401, the source's place, and the faulting descriptor, the head
of the source's list where none is named. Log 95: DESIGN CHOICE. -/
def contextFault (id cause code : Nat) (desc : Option Nat) (s : State) : State :=
  match s.cmd id with
  | none => s
  | some c =>
    if c.phase = .running || c.phase = .restarting then
      let (seq, mark) := (desc.map (seqMark c)).getD (headOf c code)
      let s := noteFault c.ctx cause code seq mark s
      if c.ctx = 0 then
        let s := endCmd id stContextFault s
        let s := c.launch.plan.foldl (fun s i => endRequest i.request 0x11 stContextFault s) s
        (s.jobs.cmds.filter fun x => x.ctx = 0 && x.phase = .waiting).foldl (fun s x => endCmd x.id stContextFault s) s
      else tearDown c.ctx s
    else if diedOfTeardown s c then
      let (seq, mark) := (desc.map (seqMark c)).getD (0, 0)
      noteFault c.ctx cause code seq mark s
    else s

/-- A context fault at the head of a list (R394, R395). Logs 76, 95: DESIGN CHOICE. -/
def contextFaultAt (id cause code : Nat) (s : State) : State := contextFault id cause code none s

/-! ### Host commands -/

/-- What a host command needs: its opcode, the roles one of which it needs (0: every principal) and its features
(R359, R518). Role bits: 1 MODELS, 2 SERVE, 4 JOBS, 8 OPERATE. -/
structure Gate where
  opcode : Nat
  role : Nat
  features : Nat
  deriving DecidableEq, Repr

/-- Whether an opcode is carried out while the counter is not aligned (R470). -/
def earlyOpcode (op : Nat) : Bool :=
  [0x00, 0x07, 0x08, 0x0A].contains (op / 256) || [0x0501, 0x0502, 0x0503, 0x0506].contains op

/-- Whether an opcode is carried out while the package is FAILED (R439). -/
def failedOpcode (op : Nat) : Bool :=
  [0x00, 0x07].contains (op / 256) || [0x0801, 0x0A03, 0x0A04, 0x0A05].contains op

/-- The refusal of a command by its gate, if any (R358, R359, R439, R470, R518). Log 16: DESIGN CHOICE. -/
def gateRefusal (g : Gate) (e : Session) (s : State) : Option (Nat × Nat) :=
  if s.hlth.failed && !failedOpcode g.opcode then some (stDegraded, 0)
  else if !s.beat.aligned && !earlyOpcode g.opcode then some (stConflict, 0x53)
  else if g.role ≠ 0 && g.role &&& e.roles = 0 then some (stDenied, 0)
  else if g.features &&& e.features ≠ g.features then some (stDenied, 0)
  else if 4096 ≤ e.outstanding then some (stBusy, 0)
  else none

/-- Opcodes that may be staged (R375). -/
def stageable (op : Nat) : Bool :=
  [0x0104, 0x0105, 0x0106, 0x0108, 0x0109, 0x010A, 0x0201, 0x0202, 0x0203, 0x0204, 0x0402, 0x0403, 0x0303, 0x0308,
    0x0503, 0x0505, 0x0506, 0x0601, 0x0802, 0x0A05].contains op

/-- The sorus with an id. -/
def State.sorus (s : State) (id : Nat) : Option Sorus := s.sori.sori.find? fun x => x.id = id

/-- A sorus changes. -/
def setSorus (id : Nat) (f : Sorus → Sorus) (s : State) : State :=
  { s with sori := { s.sori with sori := updBy (fun x => x.id = id) f s.sori.sori } }

/-- An object that a command names (R378). Log 90: DESIGN CHOICE. -/
inductive Obj where
  | request (id : Nat)
  | model (id : Nat)
  | queue (ctx num : Nat)
  | handle (id : Nat)
  | account (id : Nat)
  | port (n : Nat)
  | register (offset : Nat)
  | cap
  | beatCounter
  | context (num : Nat)
  | program (id : Nat)
  | slot (model num : Nat)
  | variant (model num : Nat)
  deriving DecidableEq, Repr

/-- The objects a command would change. Log 90: DESIGN CHOICE. -/
def objectsOf (i : Instr) : List Obj :=
  match i with
  | .reqCancel _ r => [.request r]
  | .reqPause _ r => [.request r]
  | .reqResume _ r => [.request r]
  | .modelActivate _ m _ _ => [.model m]
  | .modelWithdraw _ m => [.model m]
  | .epochPublish _ m _ _ => [.model m]
  | .epochRetire _ m _ => [.model m]
  | .adapterLoad _ m k _ _ _ => [.slot m k]
  | .adapterReplace _ m k => [.slot m k]
  | .adapterUnload _ m k => [.slot m k]
  | .variantDefine _ p => [.variant p.modelId p.variant]
  | .progUnload _ p => [.program p]
  | .alloc _ p => [.account p.account]
  | .free _ h => [.handle h]
  | .tierMove _ h _ => [.handle h]
  | .launch _ p => [.queue p.ctx p.queue]
  | .preempt _ c q _ => [.queue c q]
  | .preemptResume _ c q _ => [.queue c q]
  | .queueDestroy _ c q => [.queue c q]
  | .ctxDestroy _ c => [.context c]
  | .linkCtlDisable _ p => [.port p]
  | .linkCtlEnable _ p => [.port p]
  | .linkCtlRetrain _ p _ => [.port p]
  | .capSet _ _ _ => [.cap]
  | .beatSet _ _ => [.beatCounter]
  | .regWrite _ o _ _ => [.register o]
  | .resetStations _ cs => cs.map .context
  | _ => []

/-- The objects a staged command names (R378). Log 90: DESIGN CHOICE. -/
def namesOf (i : Instr) : List Obj :=
  objectsOf i ++ match i with
    | .epochPublish _ _ _ t => [.handle t]
    | .launch _ p => [.program p.program, .model p.modelId] ++ p.handles.map .handle
    | .reqSubmit _ p => [.model p.modelId]
    | .alloc _ p => if p.kind = 1 then [.handle p.plan] else []
    | .snapshotAt _ _ _ ps => (ps.map fun x => [Obj.handle x.1, Obj.handle x.2]).flatten
    | _ => []

/-- Whether a change of object `a` touches object `b`: a model its slots and variants, a context its queues and a queue its
context, a queue number 0xFF every queue. Log 90: DESIGN CHOICE. -/
def Obj.meets (a b : Obj) : Bool :=
  match a, b with
  | .queue c q, .queue d r => c = d && (q = r || q = 0xFF || r = 0xFF)
  | .context c, .queue d _ => c = d
  | .queue c _, .context d => c = d
  | .model m, .slot n _ => m = n
  | .model m, .variant n _ => m = n
  | x, y => x = y

/-- Whether a prepared sorus holds an object the command would change (R378). Log 87: DEDUCED. -/
def lockedBySorus (i : Instr) (s : State) : Bool :=
  s.sori.sori.any fun x => x.state = 2 &&
    (x.staged.any fun j => (namesOf j).any fun b => (objectsOf i).any fun a => a.meets b)

/-- The sender's tag and session of a staged command. -/
def hdrOf (i : Instr) : Option (Hdr × Nat) :=
  match i with
  | .modelActivate h _ _ _ => some (h, 0x0104)
  | .epochPublish h _ _ _ => some (h, 0x0105)
  | .epochRetire h _ _ => some (h, 0x0106)
  | .adapterReplace h _ _ => some (h, 0x0108)
  | .adapterUnload h _ _ => some (h, 0x0109)
  | .variantDefine h _ => some (h, 0x010A)
  | .reqSubmit h _ => some (h, 0x0201)
  | .reqCancel h _ => some (h, 0x0202)
  | .reqPause h _ => some (h, 0x0203)
  | .reqResume h _ => some (h, 0x0204)
  | .alloc h _ => some (h, 0x0402)
  | .free h _ => some (h, 0x0403)
  | .launch h _ => some (h, 0x0303)
  | .preempt h _ _ _ => some (h, 0x0308)
  | .preemptResume h _ _ _ => some (h, 0x0308)
  | .linkCtlQuery h _ => some (h, 0x0503)
  | .linkCtlDisable h _ => some (h, 0x0503)
  | .linkCtlEnable h _ => some (h, 0x0503)
  | .linkCtlRetrain h _ _ => some (h, 0x0503)
  | .snapshotAt h _ _ _ => some (h, 0x0505)
  | .beatSet h _ => some (h, 0x0506)
  | .capSet h _ _ => some (h, 0x0601)
  | .regWrite h _ _ _ => some (h, 0x0802)
  | .resetStations h _ => some (h, 0x0A05)
  | _ => none

/-- The bytes a staged command's entry takes in its frame (R348, R376). -/
def entryBytes (i : Instr) : Nat :=
  match i with
  | .reqSubmit _ p => 16 + 0x70 + if tbit p.flags 3 then 0 else (4 * p.tokens.length + 7) / 8 * 8
  | .launch _ p => 16 + 0xA0 + (4 * p.handles.length + 7) / 8 * 8
  | .alloc _ _ => 16 + 0x40
  | .snapshotAt _ _ _ ps => 16 + 0x10 + 8 * ps.length
  | .adapterReplace _ _ _ => 32
  | .adapterUnload _ _ _ => 32
  | .variantDefine _ _ => 16 + 0x28
  | .reqCancel _ _ => 24
  | .reqPause _ _ => 24
  | .reqResume _ _ => 24
  | .free _ _ => 24
  | .beatSet _ _ => 24
  | .resetStations _ cs => 16 + 8 + (cs.length + 7) / 8 * 8
  | _ => 32

/-- A sorus aborts here: every staged command receives ST_TXN_ABORTED, and the coordinator's SORUS_COMMIT the reason
(R376, R381). What it had reserved falls free; the command of a sorus of its own receives the reason. -/
def abortSorus (id failPkg failIndex failStatus : Nat) (s : State) : State :=
  match s.sorus id with
  | none => s
  | some x =>
    if x.state = 3 || x.state = 4 then s
    else
      let s := x.staged.foldl (fun s i =>
        match hdrOf i with
        | some (h, op) => finish h.session h.tag op (if x.own then failStatus else stTxnAborted) 0 [] s
        | none => s) s
      let s := { s with mem := { s.mem with regions := s.mem.regions.filter fun g => match g.owner with
        | .reserved y _ => y ≠ id
        | _ => true } }
      let s := match x.commitTag with
        | some tag =>
          finish x.session tag 0x0902 stTxnAborted 0
            (leBytes 8 x.commitBeat ++ leBytes 1 failPkg ++ leBytes 1 0 ++ leBytes 2 failIndex ++ leBytes 2 failStatus) s
        | none => s
      setSorus id (fun x => { x with state := 4, decided := some false, staged := [], inDoubt := false }) s

/-- A command that names a sorus is staged, or its fault aborts the sorus (R374 to R376). Log 86: DESIGN CHOICE. -/
def stage (i : Instr) (h : Hdr) (g : Gate) (fault : Option (Nat × Nat)) (s : State) : State :=
  match s.sorus h.sorus with
  | none => reply h g.opcode stConflict 0x44 [] s
  | some x =>
    if x.session ≠ h.session || x.state ≠ 0 then reply h g.opcode stConflict (0x40 + x.state) [] s
    else if !stageable g.opcode then abortSorus x.id s.boot.pkg x.staged.length stBadParam (reply h g.opcode stBadParam 0 [] s)
    else
      match fault with
      | some (st, d) => abortSorus x.id s.boot.pkg x.staged.length st (reply h g.opcode st d [] s)
      | none =>
        if 256 ≤ x.staged.length || decide (65536 < x.bytes + entryBytes i) then
          abortSorus x.id s.boot.pkg x.staged.length stTxnLimit (reply h g.opcode stTxnLimit 0 [] s)
        else
          accept h g.opcode []
            (setSorus x.id (fun x => { x with staged := x.staged ++ [i], bytes := x.bytes + entryBytes i }) s)

/-- Undefined CFLAGS bits are reserved (R348): ST_MALFORMED when one outside `mask` is set. -/
def flagsOver (h : Hdr) (mask : Nat) : Bool := decide (h.cflags &&& mask ≠ h.cflags)

/-- The CFLAGS bits that an opcode defines (R363 to R373). Log 25: DESIGN CHOICE. -/
def cflagsMask (op : Nat) : Nat :=
  if op = 0x0303 then 3
  else if [0x0003, 0x0101, 0x0105, 0x0108, 0x0109, 0x010A, 0x0306, 0x0307, 0x0308, 0x0A01].contains op then 1 else 0

/-- What arrives in the pause of a live update waits for its end (R475). Log 35: DESIGN CHOICE. -/
def holdRow (i : Instr) (s : State) : State := { s with boot := { s.boot with heldRows := s.boot.heldRows ++ [i] } }

/-- A host command (R351, R358, R374, R378): on a package that is not READY nobody takes it; in the pause of a live update it waits (R475); an unknown session is a
discarded frame; a command that names a sorus is staged; otherwise its gate, its ranges and the sori that hold its
objects are checked, and it is carried out by `run`. Log 21: DESIGN CHOICE. -/
def hosted (i : Instr) (h : Hdr) (g : Gate) (ranges : Session → State → Option (Nat × Nat)) (run : Session → State → State)
    (s : State) : Host.Outcome State Fault Refusal :=
  if s.boot.stage ≠ 6 then .next s
  else if s.boot.pauseUntil.isSome then .next (holdRow i s)
  else
    match s.session h.session with
    | none => .next (discard (if h.session = 0 then 6 else 3) s)
    | some e =>
      let fault :=
        if flagsOver h (cflagsMask g.opcode) then some (stMalformed, 0)
        else match gateRefusal g e s with
          | some f => some f
          | none => ranges e s
      if h.sorus ≠ 0 then .next (stage i h g fault s)
      else
        match fault with
        | some (st, d) => .next (reply h g.opcode st d [] s)
        | none =>
          if lockedBySorus i s then .next (reply h g.opcode stBusy 0 [] s)
          else .next (run e s)

/-- No range of the command can be broken. -/
def noRanges (_ : Session) (_ : State) : Option (Nat × Nat) := none

/-- A range check: the first failure answers ST_BAD_PARAM. -/
def badIf (b : Bool) : Option (Nat × Nat) := if b then some (stBadParam, 0) else none

/-- Role bits (R359). -/
def roleModels : Nat := 1
def roleServe : Nat := 2
def roleJobs : Nat := 4
def roleOperate : Nat := 8

/-- Feature bits (R352). -/
def featRoce : Nat := 1
def featLearn : Nat := 2
def featSpeculate : Nat := 4
def featFabric : Nat := 8

/-- Bytes that a command names in a RoCE window (R345, R362): none when the window or the range does not exist, or the
window's context belongs to another principal (R359). -/
def windowBytes (s : State) (principal : Nat) (w : WinRef) : Option (List Byte) :=
  match s.mem.handles.find? fun h => h.window = some w.window with
  | none => none
  | some h =>
    let owned := match s.ctx h.ctx with
      | some c => c.principal = principal
      | none => false
    if owned && decide (w.offset + w.bytes ≤ h.span) then some (s.mem.read (h.base + w.offset) w.bytes) else none

/-- Package ids of a 256-bit member map, ascending (R372). -/
def membersOf (map : Nat) : List Nat := (List.range 256).filter fun i => tbit map i

end Sys2Proof.Machine
end

