-- ==== Sys2Proof/Machine/Programs.lean ====
section
/-! DEFINITION. Program images (R128 to R131), the encodings of descriptors (R88 to R91, R101 to R123, R134, R137 to
R139, R151, R283, R331 to R336) and the checks of PROG_LOAD (R92, R127, R132, R150, R154, R284). -/
namespace Sys2Proof.Machine

/-- Whether `n` bytes at `off` are zero. -/
def zeroAt (bs : List Byte) (off n : Nat) : Bool := ((bs.drop off).take n).all fun b => b = 0#8

/-- The 32-bit word at a byte offset. -/
def wordAt (bs : List Byte) (off : Nat) : Word := BitVec.ofNat 32 (leAt bs off 4)

/-- The body when every check holds. -/
def okIf (c : Bool) (b : DBody) : Option DBody := if c then some b else none

/-- Whether a code names a format (R39). -/
def isFmt (c : Nat) : Bool := (Fmt.ofCode c).isSome

/-- Whether two codes form a pair of R47. -/
def pairOk (a b : Nat) : Bool :=
  match Fmt.ofCode a, Fmt.ofCode b with
  | some x, some y => legalPair x y
  | _, _ => false

/-- The set depth of two codes (R64). -/
def depthOf (a b : Nat) : Nat :=
  match Fmt.ofCode a, Fmt.ofCode b with
  | some x, some y => setDepth x y
  | _, _ => 0

/-- Whether a code allows the rounding mode (R54). -/
def roundOk (c : Nat) (stochastic : Bool) : Bool :=
  match Fmt.ofCode c with
  | some f => !stochastic || f.allowsStochastic
  | none => false

/-- The conversion fields of F_DRAIN and F_HAD, which have no EXTRA (R90, R91). -/
def frondConv (bs : List Byte) (fmtOff roundOff base : Nat) : ConvF :=
  ⟨leAt bs fmtOff 1, tbit (leAt bs roundOff 1) 0, leAt bs base 4, leAt bs (base + 4) 4, leAt bs (base + 8) 4,
    leAt bs (base + 12) 4, 0#32⟩

/-- The conversion block of R101. -/
def vConv (bs : List Byte) : ConvF :=
  ⟨leAt bs 0x28 1, tbit (leAt bs 0x29 1) 0, leAt bs 0x2C 4, leAt bs 0x30 4, leAt bs 0x34 4, leAt bs 0x38 4, wordAt bs 0x3C⟩

/-- Whether a conversion block is well made (R54, R101). -/
def vConvOk (bs : List Byte) (extra : Bool) : Bool :=
  let c := vConv bs
  decide (leAt bs 0x29 1 ≤ 1) && zeroAt bs 0x2A 2 && roundOk c.format c.stochastic && c.colBase % 4 = 0 &&
    (extra || decide (c.extra = 0#32))

/-- Whether an FP32 constant is a number that is not below the bound. -/
def atLeast (bound w : Word) : Bool := fle bound w

/-- The ORDER byte (R322). -/
def zOrder (bs : List Byte) : ZOrder := ⟨tbit (leAt bs 0x10 1) 0, tbit (leAt bs 0x10 1) 1⟩

/-- Front, Frond and Sphagnum bodies (R137 to R139, R151, R88 to R91, R283). -/
def bodyFront (op : Nat) (bs : List Byte) : Option DBody :=
  let u (o n : Nat) : Nat := leAt bs o n
  if op = 0x01 then okIf (zeroAt bs 0x10 48) .sSync
  else if op = 0x02 then
    okIf (decide (u 0x10 1 ≤ 1) && zeroAt bs 0x11 7 && decide (u 0x18 8 < 2 ^ 48) && zeroAt bs 0x20 32)
      (.sBeat (u 0x10 1 = 1) (u 0x18 8))
  else if op = 0x03 then
    okIf (decide (u 0x10 1 ≤ 3) && decide (u 0x11 1 ≤ 1) && decide (1 ≤ u 0x12 2) && decide (1 ≤ u 0x14 4) &&
        decide (u 0x14 4 ≤ 16777215) && zeroAt bs 0x19 39)
      (.hint ⟨u 0x10 1, u 0x11 1, u 0x12 2, u 0x14 4, u 0x18 1⟩)
  else
    let st := u 0x20 8
    let f : XferF := ⟨u 0x10 1, tbit (u 0x11 1) 0, u 0x12 1, u 0x14 4, u 0x18 8, st⟩
    let ok := decide (u 0x10 1 ≤ 15) && decide (u 0x11 1 ≤ (if op = 0x04 then 1 else 0)) && zeroAt bs 0x13 1 &&
      decide (1 ≤ f.tiles) && f.offset % 256 = 0 && (st = 0 || (decide (18432 ≤ st) && decide (st ≤ 2 ^ 32) && st % 256 = 0)) &&
      zeroAt bs 0x28 24
    if op = 0x04 then okIf ok (.sFetch f) else if op = 0x05 then okIf ok (.sStore f) else none

/-- Frond bodies (R88 to R92). ROWS is checked with the sets in force. -/
def bodyFrond (op : Nat) (bs : List Byte) : Option DBody :=
  let u (o n : Nat) : Nat := leAt bs o n
  if op = 0x20 then
    let f : FLoadF := ⟨u 0x10 1 = 1, u 0x11 1, u 0x12 1, u 0x13 1, u 0x14 1, tbit (u 0x15 1) 0, u 0x16 2, u 0x18 2, u 0x1A 2⟩
    okIf (decide (u 0x10 1 ≤ 1) && pairOk f.format f.partner && decide (f.arrange ≤ 2) && decide (1 ≤ f.sets) &&
        decide (f.sets ≤ (if f.arrange = 0 then 1 else 4)) && decide (u 0x15 1 ≤ 1) && !(f.fromHold && f.retain) &&
        f.kBase % 32 = 0 && decide (1 ≤ f.kCount) && decide (f.kCount ≤ depthOf f.format f.partner) && zeroAt bs 0x1C 36)
      (.fLoad f)
  else if op = 0x21 then
    let f : FMmaF := ⟨u 0x10 1 = 1, u 0x11 1, u 0x12 1 = 1, u 0x13 1, u 0x14 1, tbit (u 0x15 1) 0, u 0x16 2, u 0x18 2, u 0x1A 2⟩
    okIf (decide (u 0x10 1 ≤ 1) && isFmt f.format && decide (u 0x12 1 ≤ 1) && decide (f.bank ≤ 1) && decide (f.init ≤ 2) &&
        decide (u 0x15 1 ≤ 1) && !(f.fromHold && f.retain) && decide (1 ≤ f.rows) && f.tileKBase % 32 = 0 && zeroAt bs 0x1C 36)
      (.fMma f)
  else if op = 0x22 then
    let c := frondConv bs 0x11 0x12 0x14
    okIf (decide (u 0x10 1 ≤ 1) && decide (u 0x12 1 ≤ 1) && decide (u 0x13 1 ≤ 1) && roundOk c.format c.stochastic &&
        c.colBase % 4 = 0 && zeroAt bs 0x24 28)
      (.fDrain ⟨u 0x10 1, u 0x13 1 = 1, c⟩)
  else if op = 0x23 then
    let c := frondConv bs 0x13 0x14 0x1C
    okIf (decide (u 0x10 1 ≤ 1) && pairOk (u 0x11 1) (u 0x12 1) && decide (u 0x14 1 ≤ 1) && zeroAt bs 0x15 1 &&
        roundOk c.format c.stochastic && decide (1 ≤ u 0x18 4) && decide (u 0x18 4 ≤ 65535) && c.colBase % 4 = 0 &&
        zeroAt bs 0x2C 20)
      (.fHad ⟨u 0x10 1 = 1, u 0x11 1, u 0x12 1, u 0x16 2, u 0x18 4, c⟩)
  else none

/-- Whether a V_EWISE function takes operand B (R103). -/
def ewiseTakesB (func : Nat) : Bool := [1, 2, 3, 4, 9].contains func

/-- A count of row groups or tiles (R102 to R116). -/
def groupsOk (n : Nat) : Bool := decide (1 ≤ n) && decide (n ≤ 16777215)

/-- Whether a HEAD_DIM can divide a K_EXTENT of a format, or is a multiple of its K (R108). -/
def headDimOk (code headDim : Nat) : Bool :=
  match Fmt.ofCode code with
  | some f => decide (headDim ≤ f.tileK) || headDim % f.tileK = 0
  | none => false

/-- Crozier bodies (R101 to R116). -/
def bodyCrozier (op : Nat) (bs : List Byte) : Option DBody :=
  let u (o n : Nat) : Nat := leAt bs o n
  let c := vConv bs
  if op = 0x30 then
    okIf (decide (u 0x10 1 ≤ 12) && isFmt (u 0x11 1) && (if ewiseTakesB (u 0x10 1) then isFmt (u 0x12 1) else u 0x12 1 = 0) &&
        decide (u 0x13 1 ≤ 1) && groupsOk (u 0x14 4) && zeroAt bs 0x20 8 && vConvOk bs false)
      (.vEwise ⟨u 0x10 1, u 0x11 1, u 0x12 1, u 0x13 1 = 1, u 0x14 4, wordAt bs 0x18, wordAt bs 0x1C, c⟩)
  else if op = 0x31 then
    let stats := decide (u 0x10 1 = 1)
    okIf (decide (u 0x10 1 ≤ 1) && isFmt (u 0x11 1) && decide (u 0x12 1 ≤ (if stats then 3 else 7)) && zeroAt bs 0x13 1 &&
        decide (1 ≤ u 0x14 4) && decide (u 0x14 4 ≤ 1048576) && groupsOk (u 0x1C 4) && zeroAt bs 0x20 8 &&
        (if stats then zeroAt bs 0x28 24 else vConvOk bs false))
      (.vSoftmax ⟨stats, u 0x11 1, tbit (u 0x12 1) 0, tbit (u 0x12 1) 1, tbit (u 0x12 1) 2, u 0x14 4, wordAt bs 0x18, u 0x1C 4, c⟩)
  else if op = 0x32 then
    let fl := u 0x12 1
    okIf (decide (u 0x10 1 ≤ 1) && isFmt (u 0x11 1) && decide (fl ≤ 7) && !(tbit fl 1 && u 0x10 1 = 0) &&
        (isFmt (u 0x13 1) || (u 0x13 1 = 0 && !tbit fl 0 && !tbit fl 1)) && decide (1 ≤ u 0x14 4) &&
        decide (u 0x14 4 ≤ 65536) && atLeast 0#32 (wordAt bs 0x18) && groupsOk (u 0x1C 4) && zeroAt bs 0x20 8 && vConvOk bs false)
      (.vNorm ⟨u 0x10 1 = 1, u 0x11 1, tbit fl 0, tbit fl 1, tbit fl 2, u 0x13 1, u 0x14 4, wordAt bs 0x18, u 0x1C 4, c⟩)
  else if op = 0x33 then
    let hd := u 0x14 2
    let rd := u 0x16 2
    okIf (decide (u 0x10 1 ≤ 1) && isFmt (u 0x11 1) && decide (u 0x12 1 ≤ 1) && decide (u 0x13 1 ≤ 1) && hd % 2 = 0 &&
        decide (2 ≤ hd) && decide (hd ≤ 256) && rd % 2 = 0 && decide (2 ≤ rd) && decide (rd ≤ hd) &&
        headDimOk (u 0x11 1) hd && flt one32 (wordAt bs 0x18) && decide (u 0x1C 4 ≤ 16777215) && flt 0#32 (wordAt bs 0x20) && groupsOk (u 0x24 4) &&
        vConvOk bs false)
      (.vRope ⟨u 0x10 1 = 1, u 0x11 1, u 0x12 1, u 0x13 1 = 1, hd, rd, wordAt bs 0x18, u 0x1C 4, wordAt bs 0x20, u 0x24 4, c⟩)
  else if op = 0x34 then
    okIf (isFmt (u 0x10 1) && decide (u 0x11 1 ≤ 1) && zeroAt bs 0x12 2 && groupsOk (u 0x14 4) && zeroAt bs 0x1C 12 &&
        vConvOk bs false)
      (.vConvert ⟨u 0x10 1, u 0x11 1 = 1, u 0x14 4, wordAt bs 0x18, c⟩)
  else if op = 0x35 then
    okIf (isFmt (u 0x10 1) && decide (1 ≤ u 0x11 1) && decide (u 0x11 1 ≤ 8) && decide (u 0x12 1 ≤ 1) && decide (1 ≤ u 0x14 4) &&
        decide (u 0x14 4 ≤ 65536) && decide (1 ≤ u 0x18 4) && decide (u 0x18 4 ≤ 65536) && zeroAt bs 0x1C 12 && vConvOk bs false)
      (.vCombine ⟨u 0x10 1, u 0x11 1, u 0x12 1 = 1, u 0x13 1, u 0x14 4, u 0x18 4, c⟩)
  else if op = 0x36 then
    let unit01 (w : Word) : Bool := fle 0#32 w && flt w one32
    okIf ([6, 8, 10].contains (u 0x10 1) && [1, 8, 10].contains (u 0x11 1) && [8, 10].contains (u 0x12 1) && isFmt (u 0x13 1) &&
        unit01 (wordAt bs 0x14) && unit01 (wordAt bs 0x18) && flt 0#32 (wordAt bs 0x20) && atLeast 0#32 (wordAt bs 0x24) &&
        vConvOk bs true)
      (.vOpt ⟨u 0x10 1, u 0x11 1, u 0x12 1, u 0x13 1, wordAt bs 0x14, wordAt bs 0x18, wordAt bs 0x1C, wordAt bs 0x20,
        wordAt bs 0x24, c⟩)
  else if op = 0x37 then
    okIf (decide (u 0x10 1 ≤ 2) && decide (u 0x11 1 ≤ 20) && zeroAt bs 0x12 2 && decide (1 ≤ u 0x14 4) &&
        decide (u 0x14 4 ≤ 4096) && groupsOk (u 0x18 4) && zeroAt bs 0x1C 36)
      (.vSample ⟨u 0x10 1, u 0x11 1, u 0x14 4, u 0x18 4⟩)
  else none

/-- The signed 32-bit value of a field. -/
def signed32 (n : Nat) : Int := if n < 2 ^ 31 then n else (n : Int) - 2 ^ 32

/-- Rhizoid bodies (R117 to R123). -/
def bodyRhizoid (op : Nat) (bs : List Byte) : Option DBody :=
  let u (o n : Nat) : Nat := leAt bs o n
  let bins (n : Nat) : Bool := decide (1 ≤ n) && decide (n ≤ 4096)
  let rows (n : Nat) : Bool := decide (1 ≤ n) && decide (n ≤ 65536)
  if op = 0x40 then
    okIf (isFmt (u 0x10 1) && decide (u 0x11 1 ≤ 1) && bins (u 0x12 2) && decide (u 0x12 2 ≤ u 0x14 4) &&
        decide (u 0x14 4 ≤ 1048576) && groupsOk (u 0x1C 4) && zeroAt bs 0x20 32)
      (.gTopk ⟨u 0x10 1, u 0x11 1 = 1, u 0x12 2, u 0x14 4, u 0x18 4, u 0x1C 4⟩)
  else if op = 0x41 then
    okIf (decide (1 ≤ u 0x10 1) && decide (u 0x10 1 ≤ 8) && decide (u 0x11 1 ≤ 1) && bins (u 0x12 2) && rows (u 0x14 4) &&
        zeroAt bs 0x1A 38)
      (.gCount ⟨u 0x10 1, u 0x11 1 = 1, u 0x12 2, u 0x14 4, u 0x18 2⟩)
  else if op = 0x42 then
    okIf (bins (u 0x10 2) && decide (u 0x12 1 ≤ 3) && zeroAt bs 0x13 1 && decide (u 0x14 4 ≤ 65536) && zeroAt bs 0x1A 38)
      (.gScan ⟨u 0x10 2, tbit (u 0x12 1) 0, tbit (u 0x12 1) 1, u 0x14 4, u 0x18 2⟩)
  else if op = 0x43 then
    okIf (decide (1 ≤ u 0x10 1) && decide (u 0x10 1 ≤ 8) && decide (u 0x11 1 ≤ 3) && bins (u 0x12 2) && rows (u 0x14 4) &&
        decide (u 0x18 4 ≤ 65536) && u 0x20 8 % 256 = 0 && zeroAt bs 0x28 24)
      (.gSort ⟨u 0x10 1, tbit (u 0x11 1) 0, tbit (u 0x11 1) 1, u 0x12 2, u 0x14 4, u 0x18 4, u 0x1C 2, u 0x1E 2, u 0x20 8⟩)
  else
    let rb := u 0x10 2
    let f : MoveF := ⟨rb, u 0x12 2, signed32 (u 0x14 4), u 0x18 1, u 0x19 1, u 0x1A 1, u 0x1C 4, u 0x20 2⟩
    let gather := decide (op = 0x45)
    let fmtOk := match Fmt.ofCode f.format with
      | some x => gather && decide (1 ≤ f.kExtent) && decide (f.kExtent ≤ x.tileK) && (x.isMx || f.scaleBytes = 0)
      | none => !gather && f.format = 0 && f.kExtent = 0
    let ok := decide (32 ≤ rb) && decide (rb ≤ 256) && rb % 32 = 0 && f.offset % 32 = 0 && decide (f.offset + rb ≤ 256) &&
      decide (f.scaleBytes ≤ 16) && decide (f.scaleSlot + f.scaleBytes ≤ 16) && zeroAt bs 0x1B 1 && groupsOk f.tiles &&
      zeroAt bs 0x22 30 && fmtOk
    if op = 0x44 then okIf ok (.gScatter f) else if op = 0x45 then okIf ok (.gGather f) else none

/-- Sphagnum bodies (R283). -/
def bodySphagnum (op : Nat) (bs : List Byte) : Option DBody :=
  let u (o n : Nat) : Nat := leAt bs o n
  let f : TMoveF := ⟨u 0x10 1, u 0x11 1, u 0x14 4, u 0x18 8, u 0x20 8, u 0x28 8⟩
  let ok := zeroAt bs 0x12 2 && f.srcOffset % 256 = 0 && f.dstOffset % 256 = 0 && decide (256 ≤ f.bytes) &&
    decide (f.bytes ≤ 2 ^ 40) && f.bytes % 256 = 0 && zeroAt bs 0x30 16
  if op = 0x50 then okIf (ok && f.pattern = 0) (.tMove f)
  else if op = 0x51 then okIf (ok && f.src = 0 && f.srcOffset = 0) (.tFill f)
  else none

/-- Zephyr bodies (R331 to R336). -/
def bodyZephyr (op : Nat) (bs : List Byte) : Option DBody :=
  let u (o n : Nat) : Nat := leAt bs o n
  let ord := zOrder bs
  let ordOk := decide (u 0x10 1 ≤ 3)
  let aslotOk (n : Nat) : Bool := decide (n ≤ 15) || n = 0xFF
  let m256 (n : Nat) : Bool := n % 256 = 0
  if op = 0x60 then
    let ctr := u 0x14 4
    okIf (ordOk && decide (u 0x11 1 ≤ 1) && aslotOk (u 0x13 1) && (decide (ctr ≤ 65535) || ctr = 0xFFFFFFFF) && m256 (u 0x18 8) &&
        m256 (u 0x20 8) && decide (256 ≤ u 0x28 8) && decide (u 0x28 8 ≤ 2 ^ 40) && m256 (u 0x28 8) && decide (1 ≤ u 0x30 4) &&
        zeroAt bs 0x34 12)
      (.zCopy ⟨ord, u 0x11 1 = 1, u 0x12 1, u 0x13 1, if ctr = 0xFFFFFFFF then none else some ctr, u 0x18 8, u 0x20 8, u 0x28 8,
        u 0x30 4⟩)
  else if op = 0x61 then
    okIf (ordOk && zeroAt bs 0x11 3 && decide (u 0x14 4 ≤ 65535) && zeroAt bs 0x20 32) (.zWait ⟨ord, u 0x14 4, u 0x18 8⟩)
  else if op = 0x62 then
    okIf (ordOk && zeroAt bs 0x11 1 && decide (1 ≤ u 0x14 4) && decide (u 0x14 4 ≤ 65536) && u 0x18 8 % 32 = 0 &&
        u 0x20 8 % 8 = 0 && zeroAt bs 0x28 24)
      (.zAtomic ⟨ord, u 0x12 1, u 0x13 1, u 0x14 4, u 0x18 8, u 0x20 8⟩)
  else if op = 0x63 then
    okIf (ordOk && decide (u 0x11 1 ≤ 1) && zeroAt bs 0x12 1 && aslotOk (u 0x13 1) && zeroAt bs 0x14 4 && m256 (u 0x18 8) &&
        decide (256 ≤ u 0x20 8) && decide (u 0x20 8 ≤ 2 ^ 49) && m256 (u 0x20 8) && zeroAt bs 0x28 24)
      (.zInval ⟨ord, u 0x11 1 = 1, u 0x13 1, u 0x18 8, u 0x20 8⟩)
  else if op = 0x64 then
    okIf (ordOk && decide (u 0x11 1 ≤ 1) && decide (u 0x12 1 ≤ 1) && [8, 9, 10].contains (u 0x13 1) &&
        [8, 9, 10].contains (u 0x14 1) && zeroAt bs 0x17 1 && decide (u 0x18 2 ≤ 255) && decide (1 ≤ u 0x1A 2) &&
        decide (u 0x1A 2 ≤ 255) && decide (2 ≤ u 0x1C 2) && decide (u 0x1C 2 ≤ 256) && zeroAt bs 0x1E 2 && decide (1 ≤ u 0x20 8) &&
        decide (u 0x20 8 ≤ 2 ^ 36) && m256 (u 0x28 8) && m256 (u 0x30 8) && zeroAt bs 0x38 8)
      (.zReduce ⟨ord, u 0x11 1 = 1, u 0x12 1 = 1, u 0x13 1, u 0x14 1, u 0x15 1, u 0x16 1, u 0x18 2, u 0x1A 2, u 0x1C 2, u 0x20 8,
        u 0x28 8, u 0x30 8⟩)
  else if op = 0x65 then
    let role := u 0x11 1
    okIf (ordOk && decide (role ≤ 2) && decide (u 0x12 1 ≤ 1) && decide (u 0x13 1 ≤ 7) && decide (1 ≤ u 0x16 1) &&
        decide (u 0x16 1 ≤ 64) && zeroAt bs 0x19 1 && zeroAt bs 0x38 8 &&
        (if role = 0 then u 0x1A 2 = 0 && u 0x1C 4 = 0 else u 0x18 1 = 0 && decide (1 ≤ u 0x1C 4) && u 0x28 8 = 0))
      (.zXchg ⟨ord, role, u 0x12 1, u 0x13 1, u 0x14 2, u 0x16 1, u 0x17 1, u 0x18 1, u 0x1A 2, u 0x1C 4, u 0x20 8, u 0x28 8,
        u 0x30 8⟩)
  else if op = 0x66 then
    okIf (ordOk && aslotOk (u 0x13 1) && decide (1 ≤ u 0x14 1) && decide (u 0x14 1 ≤ 16) && zeroAt bs 0x15 3 && m256 (u 0x18 8) &&
        u 0x20 8 % 8 = 0 && decide (u 0x28 8 < 2 ^ 48) && zeroAt bs 0x30 16)
      (.zTxn ⟨ord, u 0x11 1, u 0x12 1, u 0x13 1, u 0x14 1, u 0x18 8, u 0x20 8, u 0x28 8⟩)
  else none

/-- The letter code of the list kind an opcode belongs to (R136); 7 is a Front. -/
def opLetter (op : Nat) : Option Nat :=
  if op = 0 then none
  else if op < 0x06 then some 7
  else if 0x20 ≤ op && decide (op < 0x30) then some 0
  else if 0x30 ≤ op && decide (op < 0x40) then some 1
  else if 0x40 ≤ op && decide (op < 0x50) then some 2
  else if 0x50 ≤ op && decide (op < 0x60) then some 3
  else if 0x60 ≤ op && decide (op < 0x70) then some 4
  else none

/-- A 64-byte descriptor of a list of the given kind (R134, R136); none when any field breaks its range. -/
def parseDesc (letter : Nat) (bs : List Byte) : Option Desc :=
  let op := leAt bs 0 1
  let fl := leAt bs 1 1
  if opLetter op ≠ some letter || 3 < fl || 63 < leAt bs 2 1 || !zeroAt bs 3 1 || !zeroAt bs 10 2 then none
  else
    let body := if letter = 7 then bodyFront op bs else if letter = 0 then bodyFrond op bs
      else if letter = 1 then bodyCrozier op bs else if letter = 2 then bodyRhizoid op bs
      else if letter = 3 then bodySphagnum op bs else bodyZephyr op bs
    body.map fun b => ⟨tbit fl 0, tbit fl 1, leAt bs 2 1, leAt bs 4 4, leAt bs 8 2, leAt bs 12 4, b⟩

/-! ### Image tables -/

/-- Binding, handle and stream entries (R129 to R131); none when a reserved byte is set. -/
def parseBinding (bs : List Byte) : Option Binding :=
  if zeroAt bs 2 2 && zeroAt bs 12 4 && decide (leAt bs 0 2 < 4096) then some ⟨leAt bs 0 2, leAt bs 4 4, leAt bs 8 4⟩ else none

def parseHandle (bs : List Byte) : Option HandleSlot :=
  let a := leAt bs 0 1
  let m := leAt bs 8 8
  if zeroAt bs 1 7 && decide (1 ≤ a) && decide (a ≤ 3) && decide (1 ≤ m) && decide (m < 2 ^ 49) then
    some ⟨tbit a 0, tbit a 1, m⟩ else none

def parseStream (bs : List Byte) : Option StreamDef :=
  let d := leAt bs 4 1
  if zeroAt bs 5 3 && zeroAt bs 12 4 && decide (2 ≤ d) && decide (d ≤ 64) then some ⟨leAt bs 0 2, leAt bs 2 2, d, leAt bs 8 4⟩
  else none

/-- `n` table entries of `size` bytes from `off`; none as soon as one is malformed. -/
def parseTable {α : Type} (p : List Byte → Option α) (size : Nat) : Nat → List Byte → Option (List α)
  | 0, _ => some []
  | n + 1, bs =>
    match p (bs.take size) with
    | none => none
    | some x => (parseTable p size n (bs.drop size)).map (x :: ·)

/-- Whether a binding code names an active logical station or a die's Front (R132). -/
def bindCodeOk (code : Nat) : Bool :=
  if letterOf code = 7 then numOf code = 0 && decide (dieOf code < 7)
  else decide (dieOf code < 7) && decide (numOf code < nameCount (dieOf code) (letterOf code))

/-- Whether the lists are consecutive from a descriptor index and end at the last (R129). Log 43: DESIGN CHOICE. -/
def listsCover : List Binding → Nat → Nat → Bool
  | [], at_, n => at_ = n
  | b :: bs, at_, n => b.first = at_ && listsCover bs (at_ + b.count) n

/-- The descriptors of the lists in binding order, each read as its list's kind. -/
def parseLists : List Binding → List Byte → Option (List Desc)
  | [], _ => some []
  | b :: bs, bytes =>
    match parseTable (parseDesc (letterOf b.code)) 64 b.count bytes with
    | none => none
    | some ds => if b.code % 4096 = b.code && ds.zipIdx.all fun (d, i) => d.seq = i % 65536 then
        (parseLists bs (bytes.drop (64 * b.count))).map (ds ++ ·) else none

/-- Whether tables, each an offset and a length, are aligned, inside the file and disjoint (R128, R237). -/
def tablesApart (total : Nat) (ts : List (Nat × Nat)) : Bool :=
  (ts.all fun t => t.1 % 16 = 0 && decide (64 ≤ t.1) && decide (t.1 + t.2 ≤ total)) &&
    (ts.zipIdx.all fun (a, i) => ts.zipIdx.all fun (b, j) =>
      i = j || a.2 = 0 || b.2 = 0 || decide (a.1 + a.2 ≤ b.1) || decide (b.1 + b.2 ≤ a.1))

/-- Whether offsets rise from one to the next. -/
def rising : List Nat → Bool
  | a :: b :: ns => decide (a < b) && rising (b :: ns)
  | _ => true

/-- Whether an image's tables lie apart and in their order (R128); one without entries has no place. -/
def tablesOk (total : Nat) (ts : List (Nat × Nat)) : Bool :=
  tablesApart total ts && rising ((ts.filter fun t => t.2 ≠ 0).map fun t => t.1)

/-- The image that bytes spell (R128 to R131, R134 to R139); none when its form breaks a rule. Log 43: DESIGN CHOICE. -/
def parseImage (bs : List Byte) : Option Image :=
  let u (o n : Nat) : Nat := leAt bs o n
  let total := u 0x08 4
  let nb := u 0x0C 2
  let nh := u 0x0E 2
  let ns := u 0x10 2
  let nd := u 0x14 4
  let det := tbit (u 6 2) 0
  let headOk := u 0 4 = 0x4D535450 && decide (u 6 2 ≤ 3) && decide (64 ≤ total) && decide (total ≤ 4194304) && total % 16 = 0 &&
    bs.length = total && decide (1 ≤ nb) && decide (nb ≤ 167) && decide (nh ≤ 64) && decide (1 ≤ ns) && decide (ns ≤ 1024) &&
    decide (1 ≤ nd) && decide (nd ≤ 65536) && det = decide (u 0x28 4 ≠ 0) &&
    (decide (0 < u 5 1) || (zeroAt bs 0x12 2 && zeroAt bs 0x2C 4 && zeroAt bs 0x38 8)) &&
    tablesOk total [(u 0x18 4, 16 * nb), (u 0x1C 4, 16 * nh), (u 0x20 4, 16 * ns), (u 0x24 4, 64 * nd)]
  if !headOk then none
  else
    match parseTable parseBinding 16 nb (bs.drop (u 0x18 4)), parseTable parseHandle 16 nh (bs.drop (u 0x1C 4)),
      parseTable parseStream 16 ns (bs.drop (u 0x20 4)) with
    | some b, some h, some s =>
      if listsCover b 0 nd then
        (parseLists b (bs.drop (u 0x24 4))).map fun d => ⟨det, tbit (u 6 2) 1, total, u 0x28 4, u 0x30 8, b, h, s, d⟩
      else none
    | _, _, _ => none

/-! ### What a descriptor uses -/

/-- Input and output ports of a descriptor (R88 to R91, R102 to R123); none for a Front's channels. -/
def portsOf : DBody → List Nat × List Nat
  | .fLoad f => (if f.fromHold then [] else [0], [])
  | .fMma f => ((if f.fromHold then [] else [1]) ++ if f.init = 2 then [2] else [], [])
  | .fDrain _ => ([], [0])
  | .fHad f => ((if f.fromHold then [] else [1]) ++ [2], [0])
  | .vEwise f => (0 :: (if ewiseTakesB f.func then [1] else []), [0])
  | .vSoftmax f => (0 :: (if f.scaleSrc then [1] else []), (if f.stats then [] else [0]) ++ if f.stats || f.statsOut then [1] else [])
  | .vNorm f => (0 :: ((if f.gain then [1] else []) ++ if f.bias then [2] else []), 0 :: if f.statsOut then [1] else [])
  | .vRope f => (0 :: (if f.posMode = 1 then [1] else []), [0])
  | .vConvert f => (0 :: (if f.rowFactor then [1] else []), [0])
  | .vCombine f => (0 :: 1 :: (if f.residual then [2] else []), [0])
  | .vOpt _ => ([0, 1, 2], [0, 1])
  | .vSample _ => ([0, 1, 2], [0])
  | .gTopk _ => ([0], [0])
  | .gCount _ => ([0], [0])
  | .gScan _ => ([0], [0, 1])
  | .gSort f => ([0, 1], (if f.toMemory then [] else [0]) ++ if f.cap ≠ 0 then [1] else [])
  | .gScatter _ => ([0, 1], [])
  | .gGather _ => ([1], [0])
  | _ => ([], [])

/-- The latest scan of earlier descriptors that retains its offsets in a slot (R121, R127). -/
def feedingScan (earlier : List Desc) (slot : Nat) : Option ScanF :=
  earlier.reverse.findSome? fun d => match d.body with
    | .gScan f => if f.retain && f.holdBase = slot then some f else none
    | _ => none

/-- Hold slots that a G_SORT needs (R121, R122): its offsets, its map and, without OUT_MODE, the tiles of every position its entries
can land at, with the gaps of ALIGN64. -/
def sortNeed (earlier : List Desc) (f : SortF) : Nat :=
  let entries := f.rows * f.slots
  let placed := if f.cap = 0 then entries else min entries (f.cap * f.bins)
  let gaps := if ((feedingScan earlier f.offsetBase).map fun x => x.align64).getD false then 63 * min f.bins entries else 0
  let tables := if f.map then 2 else 1
  max (max (f.offsetBase + 1) (if f.map then f.mapBase + 1 else 0)) (tables + if f.toMemory then 0 else (placed + gaps + 63) / 64)

/-- One past the highest hold slot a descriptor names or needs (R88 to R91, R105, R106, R110, R119 to R122), behind the earlier ones
of its list. -/
def holdNeed (earlier : List Desc) (d : DBody) : Nat :=
  let pieces (code len : Nat) : Nat := match Fmt.ofCode code with
    | some f => pieceCount f len
    | none => 0
  match d with
  | .fLoad f => if f.fromHold || f.retain then f.holdBase + f.sets else 0
  | .fMma f => if f.fromHold || f.retain then f.holdBase + (f.rows + 63) / 64 else 0
  | .fHad f => if f.fromHold then f.holdBase + f.tiles else 0
  | .vSoftmax f => if f.stats then 0 else pieces f.format f.rowLen
  | .vNorm f => pieces f.format f.rowLen + (if f.gain then pieces f.gbFormat f.rowLen else 0) +
      if f.bias then pieces f.gbFormat f.rowLen else 0
  | .vCombine f => (f.rows * f.rowLen + 4095) / 4096
  | .gCount f => if f.map then f.holdBase + 1 else 0
  | .gScan f => if f.retain then f.holdBase + 1 else 0
  | .gSort f => sortNeed earlier f
  | _ => 0

/-- Handle slots a descriptor reads and writes (R139, R283, R332 to R336). -/
def handleUse : DBody → List Nat × List Nat
  | .sFetch f => ([f.handle], [])
  | .sStore f => ([], [f.handle])
  | .tMove f => ([f.src], [f.dst])
  | .tFill f => ([], [f.dst])
  | .zCopy f => if f.get then ([], [f.handle]) else ([f.handle], [])
  | .zAtomic f => ([f.src], [f.dst])
  | .zReduce f => ([f.src], [f.dst])
  | .zXchg f => if f.role = 0 then ([f.buf], [f.ret]) else if f.role = 1 then ([], [f.buf]) else ([f.buf], [])
  | .zTxn f => ([f.src], [f.res])
  | _ => ([], [])

/-- Ranges, each a handle slot, an offset and a length, that must lie inside MIN_BYTES (R132, R283). -/
def rangesOf : DBody → List (Nat × Nat × Nat)
  | .sFetch f => [(f.handle, f.offset, (f.tiles - 1) * (if f.stride = 0 then imageBytes else f.stride) + imageBytes)]
  | .sStore f => [(f.handle, f.offset, (f.tiles - 1) * (if f.stride = 0 then imageBytes else f.stride) + imageBytes)]
  | .tMove f => [(f.src, f.srcOffset, f.bytes), (f.dst, f.dstOffset, f.bytes)]
  | .tFill f => [(f.dst, f.dstOffset, f.bytes)]
  | _ => []

/-- Slots of a station's SRAM (R63, R95, R140). -/
def stationSlots (letter : Nat) : Nat := if letter = 0 then 455 else 227

/-- Slots that the queues a station holds take (R140). -/
def queueSlots (streams : List StreamDef) (code : Nat) : Nat :=
  ((streams.filter fun e => e.consumer % 4096 = code || (e.producer % 4096 = code && letterOf (e.consumer % 4096) = 7)).map
    fun e => e.depth).sum

/-- The descriptors of a binding. -/
def Image.listOf (m : Image) (b : Binding) : List Desc := (m.descs.drop b.first).take b.count

/-- Hold slots that a list needs. -/
def listHold (ds : List Desc) : Nat := (ds.zipIdx.map fun (d, i) => holdNeed (ds.take i) d.body).foldl max 0

/-- Slots that a binding's queues and hold slots take together (R432). -/
def bindingSlots (m : Image) (b : Binding) : Nat := queueSlots m.streams b.code + listHold (m.listOf b)

/-- Input and output ports of a station letter (R63, R95). -/
def portLimits (letter : Nat) : Nat × Nat :=
  if letter = 0 then (3, 1) else if letter = 1 then (3, 2) else if letter = 2 then (2, 2) else if letter = 7 then (16, 16) else (0, 0)

/-- Whether the streams join bound stations, each port in one stream, no Front at both ends (R131, R132). -/
def streamsOk (m : Image) : Bool :=
  let codes := m.bindings.map fun b => b.code
  let port (w : Nat) (out : Bool) : Bool :=
    let lim := portLimits (letterOf (w % 4096))
    codes.contains (w % 4096) && decide (w / 4096 < (if out then lim.2 else lim.1))
  (m.streams.all fun e => port e.producer true && port e.consumer false &&
    !(letterOf (e.producer % 4096) = 7 && letterOf (e.consumer % 4096) = 7)) &&
    decide (m.streams.map (fun e => e.producer)).Nodup && decide (m.streams.map (fun e => e.consumer)).Nodup

/-- Whether every port and channel a descriptor of the list uses is bound to a stream (R132). -/
def portsBound (m : Image) (code : Nat) (d : DBody) : Bool :=
  let inB (p : Nat) : Bool := m.streams.any fun e => e.consumer = p * 4096 + code
  let outB (p : Nat) : Bool := m.streams.any fun e => e.producer = p * 4096 + code
  match d with
  | .sFetch f => outB f.channel
  | .sStore f => inB f.channel
  | _ => (portsOf d).1.all inB && (portsOf d).2.all outB

/-- Rows a bank takes (R76). -/
def bankCapacity (depth arrange : Nat) (transposed : Bool) : Nat :=
  let per := if transposed then 16384 / max 1 depth else 256
  if arrange = 0 then 4 * per else per

/-- The checks of a Frond list in order (R76, R92): the load in force, and for each bank whether it is initiated. -/
def frondListOk : List Desc → Option FLoadF → Bool → Bool → Bool
  | [], _, _, _ => true
  | d :: ds, ld, b0, b1 =>
    match d.body with
    | .fLoad f => frondListOk ds (some f) b0 b1
    | .fMma f =>
      match ld with
      | none => false
      | some l =>
        let has := if f.bank = 0 then b0 else b1
        f.format = l.partner && decide (f.rows ≤ bankCapacity (depthOf l.format l.partner) l.arrange f.transposed) &&
          (f.init ≠ 0 || has) && frondListOk ds ld (b0 || f.bank = 0) (b1 || f.bank = 1)
    | .fDrain f => (if f.bank = 0 then b0 else b1) && frondListOk ds ld b0 b1
    | _ => frondListOk ds ld b0 b1

/-- Whether the CAP of each G_SORT equals that of the G_SCAN that feeds it: the latest earlier one of the list that
retains into its OFFSET_BASE (R127). -/
def sortCapsOk : List Desc → List ScanF → Bool
  | [], _ => true
  | d :: ds, scans =>
    match d.body with
    | .gScan f => sortCapsOk ds (if f.retain then f :: scans else scans)
    | .gSort f =>
      (match scans.find? fun x => x.holdBase = f.offsetBase with
        | some x => decide (x.cap = f.cap)
        | none => true) && sortCapsOk ds scans
    | _ => sortCapsOk ds scans

/-- Whether a descriptor's handle slots exist with the rights and the room it needs (R132, R283). -/
def handlesOk (m : Image) (d : DBody) : Bool :=
  let slot (i : Nat) : HandleSlot := m.handles.getD i ⟨false, false, 0⟩
  ((handleUse d).1.all fun i => (slot i).read) && ((handleUse d).2.all fun i => (slot i).write) &&
    ((rangesOf d).all fun (i, o, n) => decide (o + n ≤ (slot i).minBytes))

/-- Whether two runs of bytes overlap. -/
def overlaps (a n b k : Nat) : Bool := decide (a < b + k) && decide (b < a + n)

/-- Whether the ranges of a T_MOVE overlap in one handle slot (R284). -/
def moveOverlaps : DBody → Bool
  | .tMove f => f.src = f.dst && overlaps f.srcOffset f.bytes f.dstOffset f.bytes
  | _ => false

/-- Whether a handle slot is read by one descriptor and written by another (R150). -/
def readsAndWrites (ds : List Desc) : Bool :=
  ds.zipIdx.any fun (a, i) => ds.zipIdx.any fun (b, j) =>
    i ≠ j && (handleUse a.body).1.any fun x => (handleUse b.body).2.contains x

/-- The number of descriptors that signal an event. -/
def signallers (ds : List Desc) (e : Nat) : Nat := (ds.filter fun d => d.signal && decide (d.event = e)).length

/-- Events known to be signalled after a descriptor: one round of the closure over the lists. A wait that counts every
signaller of a known event orders the rest of its list (R154). Log 44: DEDUCED. -/
def orderRound (m : Image) (known : List Nat) : List Nat :=
  (m.bindings.map fun b =>
    let rest := (m.listOf b).dropWhile fun d => !(d.wait && known.contains d.event && d.waitValue = signallers m.descs d.event)
    (rest.filter fun d => d.signal).map fun d => d.event).flatten ++ known

/-- The closure after `n` rounds. Log 44: DEDUCED. -/
def orderRounds (m : Image) : Nat → List Nat → List Nat
  | 0, known => known
  | n + 1, known => orderRounds m n (orderRound m known).eraseDups

/-- Whether descriptor `j` of binding `b` is ordered after a descriptor by an event chain. Log 44: DEDUCED. -/
def orderedAfter (m : Image) (d : Desc) (b : Binding) (j : Nat) : Bool :=
  let known := orderRounds m 64 (if d.signal then [d.event] else [])
  ((m.listOf b).take (j + 1)).any fun x => x.wait && known.contains x.event && decide (x.waitValue = signallers m.descs x.event)

/-- Stores of a list with their place in it. -/
def storesOf (m : Image) (b : Binding) : List (Nat × Desc × XferF) :=
  (m.listOf b).zipIdx.filterMap fun (d, i) => match d.body with
    | .sStore f => some (i, d, f)
    | _ => none

/-- The bytes of a store's images, as the run from the first to the last. -/
def storeRun (f : XferF) : Nat × Nat :=
  (f.offset, (f.tiles - 1) * (if f.stride = 0 then imageBytes else f.stride) + imageBytes)

/-- Whether two stores on different lists overlap in one slot without an event chain (R154). Log 44: DEDUCED. -/
def unorderedStores (m : Image) : Bool :=
  m.bindings.any fun b => m.bindings.any fun c => decide (b.code < c.code) &&
    (storesOf m b).any fun (i, d, f) => (storesOf m c).any fun (j, e, g) =>
      f.handle = g.handle && overlaps (storeRun f).1 (storeRun f).2 (storeRun g).1 (storeRun g).2 &&
        !orderedAfter m d c j && !orderedAfter m e b i

/-- Whether a deterministic image does what R154 refuses; `drops` says whether a layer of a model index uses DROP. Log 44: DEDUCED. -/
def breaksDeterminism (m : Image) (drops : Nat → Nat → Bool) : Bool :=
  m.deterministic && (m.detSig = 0 || unorderedStores m || m.descs.any fun d => match d.body with
    | .zReduce f => f.arrival
    | .zXchg f => drops f.model f.layer
    | _ => false)

/-- Whether a parsed image meets the checks of R132. Log 43: DESIGN CHOICE. -/
def imageOk (m : Image) (drops : Nat → Nat → Bool) : Bool :=
  (m.bindings.all fun b => bindCodeOk b.code) && decide (m.bindings.map (fun b => b.code)).Nodup && streamsOk m &&
    (m.bindings.all fun b =>
      let ds := m.listOf b
      let l := letterOf b.code
      (ds.all fun d => portsBound m b.code d.body && handlesOk m d.body && !moveOverlaps d.body) &&
        (decide (2 < l) || decide (bindingSlots m b ≤ stationSlots l)) &&
        (l ≠ 0 || frondListOk ds none false false) && (l ≠ 2 || sortCapsOk ds [])) &&
    (m.descs.all fun d => !d.wait || decide (d.waitValue ≤ signallers m.descs d.event)) &&
    !(m.restartable && readsAndWrites m.descs) && !breaksDeterminism m drops

/-- Whether the lists of a program fit the stations that now carry their names (R432): on a Crozier or Rhizoid that
carries two names each fits 113 slots. -/
def fitsShared (s : State) (m : Image) : Bool :=
  m.bindings.all fun b =>
    let l := letterOf b.code
    if l = 1 || l = 2 then
      match carrier s (dieOf b.code) l (numOf b.code) with
      | some e => decide (e.names.length < 2) || decide (bindingSlots m b ≤ 113)
      | none => true
    else true

/-- Whether a name of the program is carried by no station (R86, R432). Log 43: DESIGN CHOICE. -/
def namesUnbound (s : State) (m : Image) : Bool :=
  m.bindings.any fun b => letterOf b.code ≠ 7 && (carrier s (dieOf b.code) (letterOf b.code) (numOf b.code)).isNone

end Sys2Proof.Machine
end

