-- ==== Sys2Proof/Machine/Rime.lean ====
section
/-! DEFINITION. The recorder's commands and events (chapter 17): freeze, thaw, read, clear, mirror. -/
namespace Sys2Proof.Machine

/-- A held record enters the areas (R448): it folds into the latest one or enters as its own. -/
def enterHeld (e : Rec) (s : State) : State := enterRec e s

/-- A freeze ends (R448): the held records enter in arrival order, RECORDS_LOST follows when any was lost. -/
def endFreeze (s : State) : State :=
  if s.rime.freeze.isNone then s
  else
    let ri := s.rime
    let s := { s with rime := { ri with freeze := none, holding := [], lostNow := 0 } }
    let s := ri.holding.foldl (fun s e => enterHeld e s) s
    if ri.lostNow = 0 then s
    else
      enterRec ⟨0x0002, 3, pkgSource, 1, ri.lostFirst, ri.lostFirstBoot, ri.lostLast, ri.lostBoot, false, 0,
        padPayload (leBytes 4 ri.lostNow), s.beat.elapsed, s.beat.elapsed⟩ s

/-- The gate of a recorder command: every principal (R359). -/
def rimeGate (op : Nat) : Gate := ⟨op, 0, 0⟩

/-- Whether another session holds the freeze. -/
def frozenByOther (s : State) (sid : Nat) : Bool :=
  match s.rime.freeze with
  | some (o, _) => o ≠ sid
  | none => false

/-- RIME_FREEZE (R448, R370). -/
def execRimeFreeze (h : Hdr) (s : State) : Host.Outcome State Fault Refusal :=
  hosted (.rimeFreeze h) h (rimeGate 0x0702) noRanges (fun _ s =>
    if frozenByOther s h.session then reply h 0x0702 stBusy 0 [] s
    else if s.rime.freeze.isSome then replyOk h 0x0702 [] s
    else replyOk h 0x0702 [] { s with rime := { s.rime with freeze := some (h.session, s.beat.elapsed) } }) s

/-- RIME_THAW (R448, R370). -/
def execRimeThaw (h : Hdr) (s : State) : Host.Outcome State Fault Refusal :=
  hosted (.rimeThaw h) h (rimeGate 0x0704) noRanges (fun _ s =>
    if frozenByOther s h.session || s.rime.freeze.isNone then reply h 0x0704 stConflict 0 [] s
    else replyOk h 0x0704 (leBytes 4 s.rime.lostNow) (endFreeze s)) s

/-- The bytes of a time: seconds in 6 bytes, nanoseconds in 4 (R441). -/
def timeBytes (us : Nat) : List Byte := leBytes 6 (us / 1000000) ++ leBytes 4 (us % 1000000 * 1000)

/-- A record as it is read (R441). -/
def Rec.bytes (r : Rec) : List Byte :=
  leBytes 2 r.payload.length ++ leBytes 2 r.type ++ leBytes 2 (r.sev * 4096 + r.source) ++ leBytes 2 r.repeats ++
    timeBytes r.first ++ timeBytes r.last ++ leBytes 1 (bit r.firstBoot + 2 * bit r.lastBoot + 4 * bit r.held) ++
    leBytes 3 0 ++ leBytes 4 r.seq ++ r.payload

/-- As many whole records as fit (R449): their bytes and the last SEQ read. -/
def takeRecs : List Rec → Nat → List Byte × Option Nat
  | [], _ => ([], none)
  | r :: rs, room =>
    let b := r.bytes
    if room < b.length then ([], none)
    else
      let (more, last) := takeRecs rs (room - b.length)
      (b ++ more, some (last.getD r.seq))

/-- RIME_READ (R449). -/
def execRimeRead (h : Hdr) (area first maxBytes : Nat) (s : State) : Host.Outcome State Fault Refusal :=
  hosted (.rimeRead h area first maxBytes) h (rimeGate 0x0703)
    (fun _ _ => badIf (decide (1 < area) || decide (maxBytes < 292) || decide (8192 < maxBytes)))
    (fun _ s =>
      let recs := (if area = 0 then s.flash.keep else s.rime.circ).filter fun r => decide (first ≤ r.seq)
      let (bs, last) := takeRecs recs maxBytes
      let next := match last with
        | some q => (q + 1) % 2 ^ 32
        | none => s.rime.next
      replyOk h 0x0703 (leBytes 4 next ++ bs) s) s

/-- The areas and the ring are emptied and numbering restarts with CLEARED (R450). -/
def clearRecorder (principal : Nat) (s : State) : State :=
  let issued := s.rime.next
  let lost := s.rime.lost
  let freeze := s.rime.freeze
  let s := { s with
    rime := { s.rime with circ := [], keepFull := false, next := 0, lost := 0, freeze := none }
    flash := { s.flash with keep := [], ring := [] } }
  let s := record 0x0001 1 pkgSource (leBytes 4 principal ++ leBytes 4 issued ++ leBytes 4 lost) s
  { s with rime := { s.rime with freeze := freeze } }

/-- RIME_CLEAR (R450). -/
def execRimeClear (h : Hdr) (s : State) : Host.Outcome State Fault Refusal :=
  hosted (.rimeClear h) h (rimeGate 0x0705) noRanges (fun e s =>
    if frozenByOther s h.session then reply h 0x0705 stBusy 0 [] s
    else replyOk h 0x0705 [] (clearRecorder e.principal s)) s

/-- RIME_MIRROR (R446): the circulating area is copied to the flash ring, or the copy fails. -/
def execRimeMirror (failed : Bool) (s : State) : Host.Outcome State Fault Refusal :=
  if failed then .next { s with rime := { s.rime with mirrorFail := s.rime.mirrorFail.hit } }
  else .next { s with flash := { s.flash with ring := s.rime.circ } }

/-- RIME_FREEZE_EXPIRE (R448): a freeze held for 60 s ends as if thawed. -/
def execRimeFreezeExpire (s : State) : Host.Outcome State Fault Refusal :=
  if s.rime.freeze.any fun f => decide (f.2 + 60000000 ≤ s.beat.elapsed) then .next (endFreeze s) else .next s

end Sys2Proof.Machine
end

