-- ==== Sys2Proof/Machine/Session.lean ====
section
/-! DEFINITION. Session commands and the transport's events (chapter 13): HELLO to CAPS_QUERY, closing, keys,
retransmission, RoCE windows and the Ethernet ports. -/
namespace Sys2Proof.Machine

/-- A LIVE or torn-down context is destroyed (R397, R515): commands, copies, pre-emptions and waiting allocations of it
receive ST_CANCELLED; it becomes FREE, and its counts stay readable (R287, R401). Log 107: DESIGN CHOICE. -/
def destroyCtx (n : Nat) (s : State) : State :=
  match s.ctx n with
  | none => s
  | some c =>
    let s := endCmdsOf n stCancelled s
    let s := endWaits n stCancelled s
    let s := { s with pwr := { s.pwr with hints := s.pwr.hints.filter fun h => h.ctx ≠ n } }
    let s := freeHandlesOf n s
    let s := { s with jobs := { s.jobs with
        freed := (s.jobs.freed.filter fun x => x.num ≠ n) ++ s.jobs.ctxs.filter fun x => x.num = n
        ctxs := s.jobs.ctxs.filter fun x => x.num ≠ n } }
    restAcct c.principal (dropJobBlocks c.job s)

/-- The header of a cancel that no host has sent. -/
def noHost : Hdr := ⟨0, 0, 0, 0, 0, 0⟩

/-- Every request of a principal ends CANCELLED in phase 4, and every context it made without PERSIST is destroyed (R213, R354).
Log 107: DESIGN CHOICE. -/
def losePrincipal (p : Nat) (s : State) : State :=
  let mine := (s.serve.reqs.filter fun r => r.principal = p && !finalState r.state).map fun r => r.id
  let s : State := { s with serve := { s.serve with actions := s.serve.actions ++ mine.map fun r => Instr.reqCancel noHost r } }
  (s.jobs.ctxs.filter fun c => c.principal = p && !c.persist && decide (c.num ≠ 0)).foldl (fun s c => destroyCtx c.num s) s

/-- The coordinator's decision goes to the other members (R378). -/
def sendDecision (x : Sorus) (commit : Bool) (s : State) : State :=
  (x.members.filter fun m => m ≠ s.boot.pkg).foldl (fun s m => sendFab m 10 (.decision x.id commit) s) s

/-- Whether a sorus ends with its session (R354, R376): it is not decided, and it is not for another package to decide it. -/
def Sorus.endsWith (x : Sorus) (sid pkg : Nat) : Bool :=
  x.session = sid && x.decided.isNone && (decide (x.state < 2) || (x.state = 2 && x.coord = pkg))

/-- A sorus whose session closes aborts (R376): the coordinator tells the members, a member that prepares tells its coordinator. -/
def orphanSorus (x : Sorus) (s : State) : State :=
  let s :=
    if x.state = 0 || x.own then s
    else if x.coord = s.boot.pkg then sendDecision x false s
    else sendFab x.coord 10 (.prepared x.id stTxnAborted 0) s
  abortSorus x.id s.boot.pkg 0 stTxnAborted s

/-- The events that no session has acknowledged (R354): those of frames in flight, then those that wait. -/
def Session.openEvents (e : Session) : List DevEntry :=
  (e.unacked.filterMap (fun f => f.entry) ++ e.waitingOut).filter fun d => match d with
    | .reply _ => false
    | _ => true

/-- A session closes (R354): its undecided sori abort, its freeze ends, its queue pairs and latches go, the events that it has not
acknowledged go to the principal's most recent session; with no session left its principal is gone from now. Log 147: DESIGN CHOICE. -/
def closeSession (sid : Nat) (s : State) : State :=
  match s.session sid with
  | none => s
  | some e =>
    let s := (s.sori.sori.filter fun x => x.endsWith sid s.boot.pkg).foldl (fun s x => orphanSorus x s) s
    let events := ((s.session sid).map fun e => e.openEvents).getD []
    let s := match s.rime.freeze with
      | some (o, _) => if o = sid then endFreeze s else s
      | none => s
    let rest := s.net.sessions.filter fun x => x.id ≠ sid
    let gone := if rest.any fun x => x.principal = e.principal then s.net.gone else s.net.gone ++ [⟨e.principal, s.beat.elapsed⟩]
    events.foldl (fun s d => sendEvent sid e.principal d s)
      { s with net := { s.net with
        sessions := rest
        gone := gone
        qps := s.net.qps.filter fun q => q.session ≠ sid
        latches := s.net.latches.filter fun l => l.requester ≠ sid } }

/-- The highest of versions 1.1 and 1.0 in a host's range (R352). -/
def pickVersion (p : HelloP) : Option (Nat × Nat) :=
  let ok (minor : Nat) : Bool :=
    decide (p.minMajor * 256 + p.minMinor ≤ 256 + minor) && decide (256 + minor ≤ p.maxMajor * 256 + p.maxMinor)
  if ok 1 then some (1, 1) else if ok 0 then some (1, 0) else none

/-- The port's MTU from the installation record (R339). -/
def portMtu (s : State) (port : Nat) : Nat :=
  match s.flash.install with
  | some r => r.mtu.getD port 1500
  | none => 1500

/-- The features the package offers (R352). -/
def packageFeatures : Nat := 0xF

/-- HELLO (R352, R363): session 0 only. Log 18: DESIGN CHOICE. -/
def execHello (h : Hdr) (p : HelloP) (s : State) : Host.Outcome State Fault Refusal :=
  if s.boot.stage ≠ 6 then .next s
  else if s.boot.pauseUntil.isSome then .next (holdRow (.hello h p) s)
  else if h.session ≠ 0 then
    if (s.session h.session).isNone then .next (discard 3 s) else .next (reply h 0x0001 stBadParam 0 [] s)
  else if h.cflags ≠ 0 then .next (reply h 0x0001 stMalformed 0 [] s)
  else if 300 < p.idle || decide (p.maxMajor * 256 + p.maxMinor < p.minMajor * 256 + p.minMinor) then
    .next (reply h 0x0001 stBadParam 0 [] s)
  else
    match pickVersion p with
    | none => .next (reply h 0x0001 stVersion 0x0101 [] s)
    | some (ma, mi) =>
      let idle := if p.idle = 0 then 10 else p.idle
      let mtu := min p.mtu (portMtu s h.port)
      let feats := p.features &&& packageFeatures
      let hs : HelloSt := ⟨h.src, ma, mi, feats, idle, mtu⟩
      .next (replyOk h 0x0001 ([BitVec.ofNat 8 ma, BitVec.ofNat 8 mi, BitVec.ofNat 8 s.boot.pkg, 0#8] ++ leBytes 2 mtu ++
        leBytes 2 0 ++ leBytes 8 feats)
        { s with net := { s.net with hellos := hs :: s.net.hellos.filter fun x => x.src ≠ h.src } })

/-- The principal id of a leaf key digest: 0xFFFF_FFFF is replaced (R465). -/
def principalId (n : Nat) : Nat := if n % 2 ^ 32 = 0xFFFFFFFF then 0xFFFFFFFE else n % 2 ^ 32

/-- A session opens with what HELLO bound for its source, and takes the events that wait for its principal (R352 to R354).
Log 18: DESIGN CHOICE. Log 26: DEDUCED. -/
def openSession (h : Hdr) (sid principal roles : Nat) (s : State) : State :=
  let hs := (s.net.hellos.find? fun x => x.src = h.src).getD ⟨h.src, 1, 0, 0, 10, 1500⟩
  let e : Session := ⟨sid, h.src, h.port, principalId principal, roles, hs.features, hs.major, hs.minor, hs.idle, 0, [], 0, [], [],
    0, s.beat.elapsed, s.net.opens, 0, 0, false, 0⟩
  { s with net := { s.net with
      sessions := s.net.sessions ++ [e]
      opens := s.net.opens + 1
      gone := s.net.gone.filter fun g => g.principal ≠ principalId principal
      hellos := s.net.hellos.filter fun x => x.src ≠ h.src } }

/-- The events that wait for a principal go to its session (R354). -/
def flushEvents (sid principal : Nat) (s : State) : State :=
  (s.net.events.filter fun x => x.principal = principal).foldl (fun s x => sendEntry sid x.entry s)
    { s with net := { s.net with events := s.net.events.filter fun x => x.principal ≠ principal } }

/-- SESSION_OPEN with PHASE 0 on session 0 (R353): one step of SPDM; FINISH opens the session. -/
def openPhase0 (h : Hdr) (spdm : SpdmStep) (s : State) : State :=
  match spdm with
  | .failed => reply h 0x0002 stAuth 0 [] s
  | .answer r => replyOk h 0x0002 r s
  | .finish sid principal roles r =>
    if 128 ≤ s.net.sessions.length then reply h 0x0002 stNoResource 0 [] s
    else if sid = 0 || (s.session sid).isSome then reply h 0x0002 stAuth 0 [] s
    else
      flushEvents sid (principalId principal)
        (replyOk h 0x0002 (leBytes 4 sid ++ leBytes 4 (principalId principal) ++ r) (openSession h sid principal roles s))

/-- The queue pairs of SESSION_OPEN PHASE 1 with the package's numbers (R344, R363). Log 12: PRESUMED. -/
def addQps : List QpEntry → Nat → Nat → List QueuePair
  | [], _, _ => []
  | q :: qs, sid, n => ⟨n, sid, q.port, false⟩ :: addQps qs sid (n + 1)

/-- A key update completes: the new key has protected no frame (R350). Log 146: DESIGN CHOICE. -/
def newKey (e : Session) : Session := if e.updating then { e with updating := false, framesIn := 0, framesOut := 0 } else e

/-- SESSION_OPEN with PHASE 0 inside a session (R350, R353): its SPDM request is answered, which completes a key update that
was begun (DESIGN CHOICE, log 146); a session does not open another. -/
def spdmInSession (h : Hdr) (spdm : SpdmStep) (s : State) : State :=
  match spdm with
  | .answer r => replyOk h 0x0002 r (setSession h.session newKey s)
  | _ => reply h 0x0002 stAuth 0 [] s

/-- SESSION_OPEN (R353, R363). PMTU codes 3 to 5 stand for 1,024 to 4,096 bytes (PRESUMED, log 12). Log 26: DEDUCED. -/
def execSessionOpen (h : Hdr) (phase : Nat) (spdm : SpdmStep) (qps : List QpEntry) (s : State) :
    Host.Outcome State Fault Refusal :=
  if h.session = 0 && phase = 0 then
    if s.boot.stage ≠ 6 then .next s
    else if s.boot.pauseUntil.isSome then .next (holdRow (.sessionOpen h phase spdm qps) s)
    else if h.cflags ≠ 0 then .next (reply h 0x0002 stMalformed 0 [] s)
    else .next (openPhase0 h spdm s)
  else
    hosted (.sessionOpen h phase spdm qps) h ⟨0x0002, 0, if phase = 1 then featRoce else 0⟩
      (fun _ _ => badIf (decide (1 < phase) || phase = 1 && (qps.isEmpty || decide (64 < qps.length) ||
        (qps.any fun q => decide (1 < q.port) || decide (q.pmtu < 3) || decide (5 < q.pmtu)))))
      (fun _ s =>
        if phase = 0 then spdmInSession h spdm s else
        let mine := (s.net.qps.filter fun q => q.session = h.session).length
        if 64 < mine + qps.length || 512 < s.net.qps.length + qps.length then reply h 0x0002 stNoResource 0 [] s
        else
          let new := addQps qps h.session (s.net.nextQpn + 1)
          replyOk h 0x0002 ((new.map fun q => leBytes 4 q.qpn).flatten)
            { s with net := { s.net with qps := s.net.qps ++ new, nextQpn := s.net.nextQpn + qps.length } }) s

/-- SESSION_CLOSE (R354): the reply is the session's last frame; RELEASE loses the principal at once. -/
def execSessionClose (h : Hdr) (s : State) : Host.Outcome State Fault Refusal :=
  hosted (.sessionClose h) h ⟨0x0003, 0, 0⟩ noRanges
    (fun e s =>
      let s := if tbit h.cflags 0 then losePrincipal e.principal s else s
      closeSession h.session (replyOk h 0x0003 [] s)) s

/-- KEEPALIVE (R363). -/
def execKeepalive (h : Hdr) (s : State) : Host.Outcome State Fault Refusal :=
  hosted (.keepalive h) h ⟨0x0004, 0, 0⟩ noRanges
    (fun _ s => replyOk h 0x0004 (leBytes 8 s.now ++ leBytes 1 s.hlth.state) s) s

/-- Bytes of a tier's pool (R267, R272). -/
def poolSize (s : State) (tier : Nat) : Nat := if tier = 0 then hbmWindow else s.mem.lpWindow

/-- Bytes of a tier that no region holds (R277). -/
def freeSpace (s : State) (tier : Nat) : Nat :=
  poolSize s tier - ((s.mem.regions.filter fun g => g.tier = tier).map fun g => g.bytes).sum

/-- Frond names that a station of the die still carries (R86). -/
def boundFronds (s : State) (die : Nat) : Nat :=
  (s.stns.cfg.filter fun c => c.die = die && !c.unbound).length

/-- CAPS_QUERY (R363). -/
def execCapsQuery (h : Hdr) (s : State) : Host.Outcome State Fault Refusal :=
  hosted (.capsQuery h) h ⟨0x0005, 0, 0⟩ noRanges
    (fun _ s => replyOk h 0x0005 (leBytes 1 s.boot.pkg ++ leBytes 1 s.hlth.state ++ leBytes 2 s.boot.stepping ++
      leBytes 4 (leAt s.boot.lcHeader 8 4) ++ ((List.range 6).map fun d => BitVec.ofNat 8 (boundFronds s d)) ++
      leBytes 2 0 ++ leBytes 8 hbmWindow ++ leBytes 8 s.mem.lpWindow ++ leBytes 8 (freeSpace s 0) ++
      leBytes 8 (freeSpace s 1) ++ leBytes 8 packageFeatures) s) s

/-! ### Transport events -/

/-- A frame as it stands after it was sent again: its RTO doubles, up to 10 ms (R357). -/
def DevFrame.again (f : DevFrame) (now : Nat) : DevFrame := { f with lastAt := now, rto := max f.rto (min (2 * f.rto) 10000) }

/-- RETRANSMIT (R357): a frame unacknowledged for its RTO is resent unchanged. -/
def execRetransmit (session seq : Nat) (s : State) : Host.Outcome State Fault Refusal :=
  match s.session session with
  | none => .next s
  | some e =>
    match e.unacked.find? fun f => f.seq = seq with
    | none => .next s
    | some f =>
      if s.beat.elapsed < f.lastAt + f.rto then .next s
      else
        .next (emit (.retransmit session (sendPort s e) seq f.entry)
          (setSession session (fun e => { e with
            unacked := updBy (fun x => x.seq = seq) (fun x => x.again s.beat.elapsed) e.unacked }) s))

/-- Whether a session has had no frame for its IDLE seconds, and whether a frame to it is unacknowledged for 2 s (R354). -/
def Session.idleDue (e : Session) (s : State) : Bool := decide (e.lastFrame + e.idle * 1000000 ≤ s.beat.elapsed)
def Session.ackDue (e : Session) (s : State) : Bool := e.unacked.any fun f => decide (f.sentAt + 2000000 ≤ s.beat.elapsed)

/-- SESSION_IDLE_TIMEOUT (R354). Log 20: DESIGN CHOICE. -/
def execSessionIdleTimeout (session : Nat) (s : State) : Host.Outcome State Fault Refusal :=
  if (s.session session).any fun e => e.idleDue s then .next (closeSession session s) else .next s

/-- SESSION_ACK_TIMEOUT (R354): closes a session that has a frame unacknowledged for 2 s. -/
def execSessionAckTimeout (session : Nat) (s : State) : Host.Outcome State Fault Refusal :=
  match s.session session with
  | none => .next s
  | some e => if e.ackDue s then .next (closeSession session s) else .next s

/-- Whether a key has protected a number of frames in one direction (R350). -/
def Session.keyUsed (e : Session) (n : Nat) : Bool := decide (n ≤ e.framesIn) || decide (n ≤ e.framesOut)

/-- KEY_UPDATE (R350): at 2^30 frames of a key the package starts an SPDM key update. -/
def execKeyUpdate (session : Nat) (s : State) : Host.Outcome State Fault Refusal :=
  if (s.session session).any fun e => e.keyUsed (2 ^ 30) && !e.updating then
    .next (emit (.keyUpdate session) (setSession session (fun e => { e with updating := true }) s))
  else .next s

/-- SESSION_KEY_EXPIRY (R350, R354): a key without an update at 2^31 frames closes its session. -/
def execSessionKeyExpiry (session : Nat) (s : State) : Host.Outcome State Fault Refusal :=
  if (s.session session).any fun e => e.keyUsed (2 ^ 31) then .next (closeSession session s) else .next s

/-- PRINCIPAL_LOSS (R354): of a principal that has had no session for 60 s. -/
def execPrincipalLoss (principal : Nat) (s : State) : Host.Outcome State Fault Refusal :=
  let due := s.net.gone.any fun g => g.principal = principal && decide (g.since + 60000000 ≤ s.beat.elapsed)
  if !due || s.net.sessions.any fun e => e.principal = principal then .next s
  else
    let s := losePrincipal principal s
    .next { s with net := { s.net with gone := s.net.gone.filter fun g => g.principal ≠ principal } }

/-- ACCT_SLOT_RELEASE (R516): a slot whose principal has owned nothing for 60 s falls free. -/
def execAcctSlotRelease (slot : Nat) (s : State) : Host.Outcome State Fault Refusal :=
  let due (a : Acct) : Bool := a.idleSince.any fun b => decide (b + 60000000 ≤ s.beat.elapsed)
  .next { s with jobs := { s.jobs with
    acct := updAt slot (fun a => if due a then { a with used := false, idleSince := none } else a) s.jobs.acct } }

/-- RDMA_WRITE (R344): into its window, or refused with a NAK; an ECN mark is answered with a congestion notification. Log 27: DESIGN CHOICE. -/
def execRdmaWrite (p : RdmaP) (s : State) : Host.Outcome State Fault Refusal :=
  match s.net.qps.find? fun q => q.qpn = p.qpn with
  | none => .next s
  | some q =>
    if q.error then .next s
    else
      let s := if p.ecnMarked then emit (.congestion p.qpn) s else s
      if !p.isWrite then .next (emit (.roceNakRequest p.qpn) s)
      else
        match s.mem.handles.find? fun h => h.window = some p.window with
        | none => .next (emit (.roceNakAccess p.qpn) s)
        | some h =>
          if h.rKey ≠ p.rKey || decide (h.span < p.offset + p.data.length) then .next (emit (.roceNakAccess p.qpn) s)
          else .next (emit (.roceAck p.qpn) (applyWrite (h.base + p.offset) p.data s))

/-- ETH_LINK_LOSS (R340, R344, R487): the port's sessions fail over, its queue pairs enter the error state. -/
def execEthLinkLoss (port : Nat) (s : State) : Host.Outcome State Fault Refusal :=
  if s.net.ethUp.getD port false then
    let moves := s.net.sessions.any fun e => e.port = port
    .next { s with net := { s.net with
      ethUp := updAt port (fun _ => false) s.net.ethUp
      qps := updBy (fun q => q.port = port) (fun q => { q with error := true }) s.net.qps
      failover := if moves && s.net.ethUp.getD (1 - port) false then s.net.failover.hit else s.net.failover } }
  else .next s

/-- ETH_LINK_UP (R339, R341, R430, R478): a port that waits for its MACsec key or is out of service, and a package without lit
ports, stay dark. -/
def execEthLinkUp (port : Nat) (s : State) : Host.Outcome State Fault Refusal :=
  let out := s.hlth.units.any fun e => e.unit = .eth port && decide (2 ≤ e.status)
  if !out && (s.boot.stage = 5 || s.boot.stage = 6) && !s.boot.macsecWait.getD port false then
    .next { s with net := { s.net with ethUp := updAt port (fun _ => true) s.net.ethUp } }
  else .next s

/-- NEIGHBOR_DISCOVERY_ARP (R339): answered for the port's own addresses only. -/
def execNeighborDiscoveryArp (q : NdQuery) (s : State) : Host.Outcome State Fault Refusal :=
  match s.flash.install with
  | none => .next s
  | some r =>
    let mine := (if q.ipv6 then r.ipv6 else r.ipv4).getD q.port 0
    if s.net.ethUp.getD q.port false && decide (mine ≠ 0) && mine = q.target then .next (emit (.neighbour q.port q.target) s)
    else .next s

end Sys2Proof.Machine
end

