-- ==== Sys2Proof/Machine/Links.lean ====
section
/-! DEFINITION. Fabric ports: bring-up, identity, link-choice tables and their commands (chapter 11, R289 to R305, R512). -/
namespace Sys2Proof.Machine

/-- A port changes. -/
def setLink (port : Nat) (f : Link → Link) (s : State) : State :=
  { s with fab := { s.fab with links := updBy (fun l => l.port = port) f s.fab.links } }

/-- The first eight bytes of the installation record's digest (R296). Log 148: DEDUCED. -/
def recordTag (s : State) : Nat := (s.flash.install.map fun r => r.tag).getD 0

/-- The port sends its identity record (R296). Log 148: DEDUCED. -/
def sendIdent (port : Nat) (s : State) : State :=
  emit (.mgmt port (.ident ⟨recordTag s, s.boot.pkg, port, Config.linkVersions.1, Config.linkVersions.2⟩)) s

/-- A link-state record leaves on every port that is UP (R304). Log 79: DESIGN CHOICE. -/
def floodLink (pkg port : Nat) (up : Bool) (s : State) : State :=
  (s.fab.links.filter fun l => l.state = 4).foldl (fun s l => emit (.mgmt l.port (.linkState pkg port up)) s) s

/-- Entries of the link-choice tables that name a global link whose end went out of UP are refused and counted (R302). Log 79: DESIGN CHOICE. -/
def refuseEntries (pkg port : Nat) (s : State) : State :=
  match s.flash.install with
  | none => s
  | some r =>
    let ixs := (r.globals.zipIdx.filter fun (g, _) => (g.pkgA = pkg && g.portA = port) || (g.pkgB = pkg && g.portB = port)).map
      Prod.snd
    let n := (s.fab.choice.map fun c => (c.2.filter fun e => ixs.contains e).length).sum
    { s with fab := { s.fab with badEntries := sat32 (s.fab.badEntries + n) } }

/-- A spare port whose standby link stands in for a group pair starts its bring-up (R304). -/
def startStandby (pair : Nat × Nat) (s : State) : State :=
  match s.flash.install with
  | none => s
  | some r =>
    ((planAt s.boot.pkg r).filter fun l => l.standby = some pair).foldl (fun s l =>
      setLink l.port (fun x => if x.state = 0 then { x with state := 1, since := s.beat.elapsed } else x) s) s

/-- The pair of groups that a planned global link of a port joins, if it is no standby link. -/
def pairOfPort (s : State) (pkg port : Nat) : Option (Nat × Nat) :=
  match s.flash.install with
  | none => none
  | some r =>
    (r.globals.find? fun g => !g.standby && ((g.pkgA = pkg && g.portA = port) || (g.pkgB = pkg && g.portB = port))).map fun g =>
      (min (g.pkgA / 16) (g.pkgB / 16), max (g.pkgA / 16) (g.pkgB / 16))

/-- A pending RETRAIN is answered with the port's state (R305, R368). -/
def answerRetrain (port : Nat) (s : State) : State :=
  match s.link port with
  | none => s
  | some l =>
    match l.retrainReply with
    | none => s
    | some (sid, tag) =>
      finish sid tag 0x0503 stOk 0 (leBytes 1 l.state) (setLink port (fun x => { x with retrainReply := none }) s)

/-- The package at which a packet entered the fabric. -/
def FabOut.source (me : Nat) : FabOut → Nat
  | .transit p => p.src
  | _ => me

/-- A packet is sent again on the route that it now has. -/
def resend (s : State) : Output → State
  | .fabric dest vc _ l w => emit (.fabric dest vc (egressOf s (w.source s.boot.pkg) dest w.hashAddr) l w) s
  | _ => s

/-- Whether an output is a packet that left on a port. Log 127: DESIGN CHOICE. -/
def leftOn (port : Nat) : Output → Bool
  | .fabric _ _ p _ _ => p = some port
  | _ => false

/-- The packets in the retry buffer of a link that has left UP are sent again on another route (R304): the latest that left on its
port, how many of them being a free value (DESIGN CHOICE, log 127). -/
def resendHeld (port : Nat) (s : State) : State :=
  let sent := s.out.filter (leftOn port)
  if sent.isEmpty then s
  else
    let (d, s) := draw s
    (sent.drop ((Config.drawn d).toNat % (sent.length + 1))).foldl resend s

/-- A port enters a state; leaving UP is counted, recorded and flooded, its held packets go another way, and routes are formed anew (R294, R304, R451).
Log 128: DEDUCED. -/
def enterState (port st : Nat) (s : State) : State :=
  match s.link port with
  | none => s
  | some l =>
    let w := if st = 2 || st = 3 || st = 4 || st = 5 then l.width else 0
    let s := setLink port (fun x => { x with
      state := st
      since := s.beat.elapsed
      width := w
      downCount := if l.state = 4 && st ≠ 4 then min 0xFFFF (x.downCount + 1) else x.downCount }) s
    let s :=
      if l.state = 4 && st ≠ 4 then
        let s := record 0x0503 3 pkgSource (leBytes 1 port ++ leBytes 1 st ++ leBytes 1 l.width) (resendHeld port s)
        let s := refuseEntries s.boot.pkg port (floodLink s.boot.pkg port false s)
        let s := match pairOfPort s s.boot.pkg port with
          | some p => startStandby p s
          | none => s
        { s with fab := { s.fab with routesStale := true } }
      else if l.state ≠ 4 && st = 4 then
        floodLink s.boot.pkg port true { s with fab := { s.fab with routesStale := true } }
      else s
    if st = 4 || st = 0 || st = 5 || st = 7 then answerRetrain port s else s

/-- Lanes of a port that are neither suspect nor retired (R293). -/
def goodLanes (l : Link) : Nat := (l.lanes.filter fun x => decide (x.lstate < 2)).length

/-- The lanes with the first eight good ones carrying and a ninth good one idle (R292, R293). -/
def arrangeLanes : Nat → List Lane → List Lane
  | _, [] => []
  | n, x :: xs =>
    if x.lstate < 2 then { x with lstate := if n < 8 then 0 else 1 } :: arrangeLanes (n + 1) xs else x :: arrangeLanes n xs

/-- A port's width and lanes with a number of good lanes (R293): none with fewer than four. -/
def widthFor (n : Nat) : Option Nat := if 8 ≤ n then some 8 else if 4 ≤ n then some 4 else none

/-- LINK_DETECT (R295, R298): a peer signal takes a port in DETECT, or an UNUSED one, to EQUALISE. -/
def execLinkDetect (port : Nat) (s : State) : Host.Outcome State Fault Refusal :=
  match s.link port with
  | none => .next s
  | some l => if l.state = 1 || l.state = 8 then .next (enterState port 2 s) else .next s

/-- LINK_EQUALISE_DONE (R293, R295). -/
def execLinkEqualiseDone (port n : Nat) (s : State) : Host.Outcome State Fault Refusal :=
  match s.link port with
  | none => .next s
  | some l =>
    if l.state ≠ 2 then .next s
    else
      match widthFor (min n (goodLanes l)) with
      | none => .next (enterState port 7 s)
      | some w =>
        let lanes := arrangeLanes 0 l.lanes
        let spare := isLocal port && ((lanes.getD 8 ⟨0, false, 0⟩).lstate = 0)
        let s := setLink port (fun x => { x with width := w, lanes := lanes, spareUsed := x.spareUsed || spare }) s
        .next (sendIdent port (enterState port 3 s))

/-- The bound in beats of the stage of bring-up that a port is in (R295). -/
def stageBound (l : Link) : Nat := if l.state = 1 then 5000 else if l.state = 2 then (if isLocal l.port then 40000 else 15000) else 1000

/-- LINK_STAGE_TIMEOUT (R295, R298): a port has exceeded its stage's bound; an unplanned port that sees no peer is UNUSED. -/
def execLinkStageTimeout (port : Nat) (s : State) : Host.Outcome State Fault Refusal :=
  match s.link port with
  | none => .next s
  | some l =>
    if s.beat.elapsed ≤ l.since + stageBound l then .next s
    else if l.state = 1 && (planOf s port).isNone then .next (enterState port 8 s)
    else if l.state = 1 || l.state = 2 || l.state = 3 then .next (enterState port 0 s)
    else .next s

/-- A port enters QUARANTINE with its finding noted (R297, R298, R308). -/
def quarantine (port type : Nat) (payload : List Byte) (s : State) : State :=
  record type 3 pkgSource payload (enterState port 5 (setLink port (fun x => { x with mismatch := x.mismatch.hit }) s))

/-- The version floor of the installation record (R297). -/
def versionFloor (s : State) : Nat := (s.flash.install.map fun r => r.floor).getD 0

/-- IDENT_RECORD (R296 to R299). Log 15: DESIGN CHOICE. -/
def execIdentRecord (port : Nat) (r : IdentRec) (s : State) : Host.Outcome State Fault Refusal :=
  match s.link port with
  | none => .next s
  | some l =>
    if l.state ≠ 3 && l.state ≠ 5 then .next s
    else
      let s := setLink port (fun x => { x with peerPkg := r.pkg, peerPort := r.port }) s
      let topo := leBytes 1 port ++ leBytes 1 r.pkg ++ leBytes 1 r.port ++ leBytes 8 r.recordTag
      match planOf s port with
      | none => .next (quarantine port 0x0501 topo s)
      | some p =>
        if r.recordTag ≠ recordTag s || r.pkg ≠ p.peerPkg || r.port ≠ p.peerPort then .next (quarantine port 0x0501 topo s)
        else
          let common := min Config.linkVersions.2 r.verMax
          if common < Config.linkVersions.1 || common < r.verMin || common < versionFloor s then
            .next (quarantine port 0x0502 (leBytes 1 port ++ leBytes 1 r.verMin ++ leBytes 1 r.verMax ++ leBytes 1 common) s)
          else
            .next (enterState port 4 (setLink port (fun x => { x with version := common }) s))

/-- IDENT_RESEND (R294, R296). -/
def execIdentResend (port : Nat) (s : State) : Host.Outcome State Fault Refusal :=
  match s.link port with
  | none => .next s
  | some l => if l.state = 3 || l.state = 5 then .next (sendIdent port s) else .next s

/-- LINK_RETRY (R295, R298, R299): a DOWN planned port starts again; a standby link only while its group pair misses a
planned link; a planned port in QUARANTINE repeats its identity. -/
def execLinkRetry (port : Nat) (s : State) : Host.Outcome State Fault Refusal :=
  match s.link port, planOf s port with
  | some l, some p =>
    if l.state = 0 then
      let wanted := match p.standby with
        | none => true
        | some pair => s.fab.links.any fun x => decide (x.state ≠ 4) && pairOfPort s s.boot.pkg x.port = some pair
      if wanted then .next (enterState port 1 s) else .next s
    else if l.state = 5 then .next (sendIdent port s)
    else .next s
  | _, _ => .next s

/-- LINK_DOWN (R304). -/
def execLinkDown (port : Nat) (s : State) : Host.Outcome State Fault Refusal :=
  match s.link port with
  | none => .next s
  | some l => if l.state = 4 then .next (enterState port 0 s) else .next s

/-- LASER_FEED_LOSS (R292, R512): the unit's global port goes DOWN, counted as a fault of its link in DOWN_COUNT, which R308 gives
for a port in UP (DEDUCED, log 128). -/
def execLaserFeedLoss (port : Nat) (s : State) : Host.Outcome State Fault Refusal :=
  match s.link port with
  | none => .next s
  | some l =>
    if isLocal port || l.state = 0 || decide (4 < l.state) then .next s
    else
      let s := if l.state = 4 then s else setLink port (fun x => { x with downCount := min 0xFFFF (x.downCount + 1) }) s
      .next (enterState port 0 s)

/-- LINK_STATE_RECORD (R304): the latest word on a foreign port; one that brings news is passed on to every package, and routes are
formed anew in phase 8. -/
def execLinkStateRecord (pkg port : Nat) (up : Bool) (s : State) : Host.Outcome State Fault Refusal :=
  if pkg = s.boot.pkg then .next s
  else
    let known := (s.fab.remote.find? fun r => r.1 = pkg && r.2.1 = port).map fun r => r.2.2
    let s := if known = some up then s else floodLink pkg port up s
    let s := { s with fab := { s.fab with
      remote := (pkg, port, up) :: s.fab.remote.filter fun r => !(r.1 = pkg && r.2.1 = port)
      routesStale := true } }
    if up then .next s
    else
      let s := refuseEntries pkg port s
      match pairOfPort s pkg port with
      | some p => .next (startStandby p s)
      | none => .next s

/-! ### Tables, global operations, phase 8 (R302, R304, R311) -/

/-- A link-choice table of 64 entries that goes round the UP links of the group pair (R302; the filling is policy). Log 80: DESIGN CHOICE. -/
def choiceTable (xs : List Nat) : List Nat := if xs.isEmpty then [] else (List.range 64).map fun i => xs.getD (i % xs.length) 0

/-- The members of a global operation but this package hear that it has failed (R311). Log 130: DESIGN CHOICE. -/
def tellFailed (id : Nat) (members : List Nat) (s : State) : State :=
  (members.filter fun m => m ≠ s.boot.pkg).foldl (fun s m => sendFab m 10 (.opFailed id) s) s

/-- A global operation that cannot go on ends: its BARRIER is answered ST_DEGRADED, and where this package is the coordinator, or
leaves the operation itself, the other members hear of it (R309, R311). Log 130: DESIGN CHOICE. -/
def failOp (id : Nat) (leaves : Bool) (s : State) : State :=
  match s.fab.ops.find? fun o => o.id = id with
  | none => s
  | some o =>
    let s := { s with fab := { s.fab with ops := s.fab.ops.filter fun x => x.id ≠ id } }
    let s := if leaves || o.coord = s.boot.pkg then tellFailed id o.members s else s
    finish o.session o.tag 0x0504 stDegraded 0 [] s

/-- Routes, tables and unreachable destinations formed anew (R302 to R304), and the global operations that lose a
member (R311). Log 80: DESIGN CHOICE. -/
def updateRoutes (s : State) : State :=
  if !s.fab.routesStale then s
  else
    let groups := (s.flash.install.map fun r => r.groups).getD 0
    let dests := (List.range (16 * groups)).filter fun d => d ≠ s.boot.pkg
    let lost := dests.filter fun d => !reachable s groups d
    let det := dests.filter fun d => !lost.contains d && onDetour s d
    let new := (det.filter fun d => !s.fab.detoured.contains d).length
    let mine := s.boot.pkg / 16
    let s : State := { s with fab := { s.fab with
      routesStale := false
      unreachable := lost
      detoured := det
      detours := sat32 (s.fab.detours + new)
      choice := ((List.range groups).filter fun g => g ≠ mine).map fun g =>
        (g, choiceTable ((upGlobals s mine g).map fun (x : Nat × Nat × Nat) => x.2.2)) } }
    (s.fab.ops.filter fun o => o.members.any fun m => lost.contains m).foldl (fun s o => failOp o.id false s) s

/-- A lane whose test it has passed returns to its port, which takes its width anew; the spare lane stands idle again (R293, R430). -/
def returnLanes (s : State) : State :=
  let back (port i : Nat) : Bool := s.flash.map.any fun e => e.unit = .fabLane port i && decide (e.retired = some false)
  { s with fab := { s.fab with links := s.fab.links.map fun l =>
      let any := l.lanes.zipIdx.any fun (x, i) => x.lstate = 2 && back l.port i
      if any then
        let lanes := arrangeLanes 0 (l.lanes.zipIdx.map fun (x, i) =>
          if x.lstate = 2 && back l.port i then { x with lstate := 0, level := 0 } else x)
        let good := (lanes.filter fun x => decide (x.lstate < 2)).length
        { l with
          lanes := lanes
          width := if l.width = 0 then 0 else (widthFor good).getD l.width
          spareUsed := isLocal l.port && ((lanes.getD 8 ⟨1, false, 0⟩).lstate = 0) }
      else l } }

/-- Links that transit has used in this beat: whether owner traffic waited behind its share is a free value (R307, R308, log 131). -/
def settleShares (s : State) : State :=
  (s.fab.links.filter fun l => l.shared).foldl (fun s l =>
    let (d, s) := draw s
    setLink l.port (fun x => { x with shared := false, ownerWait := sat32 (x.ownerWait + (Config.drawn d).toNat % 2) }) s) s

/-- Phase 8 (R37): retraining windows that open now, lanes that return, routes. Log 80: DESIGN CHOICE. -/
def phase8 (s : State) : State :=
  let s := settleShares s
  let due := s.fab.links.filter fun l => match l.retrainAt with
    | some b => beatLe b s.now
    | none => false
  let s := due.foldl (fun s l =>
    let s := setLink l.port (fun x => { x with retrainAt := none }) s
    if l.state = 4 then enterState l.port 2 s else answerRetrain l.port s) s
  updateRoutes (returnLanes s)

/-- RETRAIN_WINDOW (R37, R305). -/
def execRetrainWindow (s : State) : Host.Outcome State Fault Refusal := .next (phase8 s)

/-! ### Host commands -/

/-- TOPO_QUERY (R368). -/
def execTopoQuery (h : Hdr) (s : State) : Host.Outcome State Fault Refusal :=
  hosted (.topoQuery h) h ⟨0x0501, 0, 0⟩ noRanges
    (fun _ s => replyOk h 0x0501 (leBytes 1 s.boot.pkg ++ leBytes 1 ((s.flash.install.map fun r => r.groups).getD 0) ++
      leBytes 6 0 ++ leBytes 8 (recordTag s) ++ ((s.fab.links.map fun l => leBytes 1 l.port ++ leBytes 1 l.state ++
        leBytes 1 l.width ++ leBytes 1 l.peerPkg ++ leBytes 1 l.peerPort ++ leBytes 1 l.version ++ leBytes 2 0).flatten)) s) s

/-- Whether the global links of a record meet R291: n = ⌊120 ÷ (G − 1)⌋ planned ones for each pair of groups, each end on a global
port of a package of the appliance and used once. -/
def linkCountsOk (r : InstallRec) : Bool :=
  let joins (g k : Nat) (l : GlobalLink) : Bool := (l.pkgA / 16 = g && l.pkgB / 16 = k) || (l.pkgA / 16 = k && l.pkgB / 16 = g)
  let port (p : Nat) : Bool := decide (16 ≤ p) && decide (p < 24)
  let ends := r.globals.map (fun l => 24 * l.pkgA + l.portA) ++ r.globals.map fun l => 24 * l.pkgB + l.portB
  ((List.range r.groups).all fun k => (List.range k).all fun g =>
      ((r.globals.filter fun l => !l.standby && joins g k l).length = 120 / (r.groups - 1))) &&
    (r.globals.all fun l => port l.portA && port l.portB && decide (l.pkgA / 16 < r.groups) && decide (l.pkgB / 16 < r.groups) &&
      decide (l.pkgA / 16 ≠ l.pkgB / 16)) && ends.Nodup

/-- Whether G is 2 to 16 and the package's group is one of them (R289). -/
def groupSound (r : InstallRec) : Bool := decide (2 ≤ r.groups) && decide (r.groups ≤ 16) && decide (r.pkg / 16 < r.groups)

/-- Whether a record describes an appliance with this package in it: its groups, the links of R291 and fibres of 50 m at most (R289,
R291, R300). -/
def planSound (r : InstallRec) : Bool := groupSound r && linkCountsOk r && r.globals.all fun g => decide (g.metres ≤ 50)

/-- Whether an installation record meets R300 for this package. -/
def recordFits (s : State) (r : InstallRec) : Bool := r.pkg = s.boot.pkg && planSound r

/-- An installation record as the package reads it under its straps, with its digest's first eight bytes (R289, R296, R461). -/
def readInstall (s : State) (bs : List Byte) : Option InstallRec :=
  (Config.parseInstall bs s.pins.slotId).map fun r => { r with raw := bs, slot := s.pins.slotId, tag := leNat ((sha384 bs).take 8) }

/-! ### Images (R454, R455) -/

/-- Fields of an image header (R454). -/
def hKind (h : List Byte) : Nat := leAt h 4 1
def hKey (h : List Byte) : Nat := leAt h 5 1
def hJournalMin (h : List Byte) : Nat := leAt h 6 1
def hJournalVer (h : List Byte) : Nat := leAt h 7 1
def hVersion (h : List Byte) : Nat := leAt h 8 4
def hSecVersion (h : List Byte) : Nat := leAt h 12 4
def hDevice (h : List Byte) : Nat := leAt h 16 8
def hBodyBytes (h : List Byte) : Nat := leAt h 24 8
def hKeyFloor (h : List Byte) : Nat := leAt h 80 1

/-- MAGIC, KIND and the reserved bytes of a header (R454, R455). -/
def headerFormOk (kind : Nat) (h : List Byte) : Bool :=
  leAt h 0 4 = 0x47534B53 && hKind h = kind && ((h.drop 81).take 47).all fun b => b = 0#8

/-- KEY_INDEX and SEC_VERSION against their counters (R455, R457). -/
def headerRollbackOk (s : State) (counter : Nat) (h : List Byte) : Bool :=
  decide (s.flash.counters.keyRevoke ≤ hKey h) && decide (counter ≤ hSecVersion h)

/-- Whether an image's form, body and digest verify (R454, R455). -/
def imageWhole (kind : Nat) (bs : List Byte) : Bool :=
  let n := hBodyBytes bs
  headerFormOk kind bs && decide (1 ≤ n) && decide (n ≤ if kind = 2 then 16775168 else 1046528) && bs.length = 0x800 + n &&
    (((bs.drop 0x7C4).take 60).all fun b => b = 0#8) && sha384 (bs.drop 0x800) = (bs.drop 32).take 48

/-- Whether an installation record verifies but for its signatures (R455, R457). -/
def recordVerifies (s : State) (bs : List Byte) : Bool := imageWhole 4 bs && headerRollbackOk s s.flash.counters.install bs

/-! ### PLAN_LOAD and LINK_CTL (R300, R305) -/

/-- PLAN_LOAD (R300, R461): the record becomes the pending one. Log 4: DESIGN CHOICE. -/
def execPlanLoad (h : Hdr) (w : WinRef) (sigOk : Bool) (s : State) : Host.Outcome State Fault Refusal :=
  hosted (.planLoad h w sigOk) h ⟨0x0502, roleOperate, featRoce⟩ noRanges
    (fun e s =>
      match windowBytes s e.principal w with
      | none => reply h 0x0502 stBadParam 0 [] s
      | some bs =>
        if !sigOk then reply h 0x0502 stSignature 0 [] s
        else
          match readInstall s bs with
          | none => reply h 0x0502 stBadParam 0 [] s
          | some r =>
            if recordVerifies s bs && recordFits s r then replyOk h 0x0502 [] { s with flash := { s.flash with pending := some (r, bs) } }
            else reply h 0x0502 stBadParam 0 [] s) s

/-- Every LINK_CTL needs a port (R296, R305). -/
def portRange (port : Nat) (_ : Session) (s : State) : Option (Nat × Nat) := badIf (s.link port).isNone

/-- The state of a port, as LINK_CTL answers it. -/
def linkStateOf (s : State) (port : Nat) : Nat := ((s.link port).map fun l => l.state).getD 0

/-- LINK_CTL QUERY (R305). -/
def execLinkCtlQuery (h : Hdr) (port : Nat) (s : State) : Host.Outcome State Fault Refusal :=
  hosted (.linkCtlQuery h port) h ⟨0x0503, roleOperate, 0⟩ (portRange port)
    (fun _ s => replyOk h 0x0503 (leBytes 1 (linkStateOf s port)) s) s

/-- The effect of DISABLE: a port in QUARANTINE or RETIRED keeps its state (R294, R299, R305). -/
def linkDisable (ans : Answer) (port : Nat) (s : State) : State :=
  let st := linkStateOf s port
  if st = 5 || st = 7 then ans stConflict st [] s
  else ans stOk 0 (leBytes 1 6) (enterState port 6 s)

/-- LINK_CTL DISABLE (R305). -/
def execLinkCtlDisable (h : Hdr) (port : Nat) (s : State) : Host.Outcome State Fault Refusal :=
  hosted (.linkCtlDisable h port) h ⟨0x0503, roleOperate, 0⟩ (portRange port) (fun _ s => linkDisable (answerNow h 0x0503) port s) s

/-- The effect of ENABLE: bring-up of a DISABLED planned port; an unplanned, QUARANTINE or RETIRED port is a conflict
(R305). -/
def linkEnable (ans : Answer) (port : Nat) (s : State) : State :=
  let st := linkStateOf s port
  if (planOf s port).isNone || st = 5 || st = 7 then ans stConflict st [] s
  else
    let s := if st = 6 then enterState port 1 s else s
    ans stOk 0 (leBytes 1 (linkStateOf s port)) s

/-- LINK_CTL ENABLE (R305). -/
def execLinkCtlEnable (h : Hdr) (port : Nat) (s : State) : Host.Outcome State Fault Refusal :=
  hosted (.linkCtlEnable h port) h ⟨0x0503, roleOperate, 0⟩ (portRange port) (fun _ s => linkEnable (answerNow h 0x0503) port s) s

/-- The refusal of a RETRAIN, if any: a port that is not UP, or one that already waits for its window. Log 79: DESIGN CHOICE. -/
def retrainRefusal (s : State) (port : Nat) : Option (Nat × Nat) :=
  if linkStateOf s port ≠ 4 then some (stConflict, linkStateOf s port)
  else if (s.link port).any fun l => l.retrainReply.isSome then some (stBusy, 0)
  else none

/-- A port retrains in phase 8 of a beat; who is answered then. Log 79: DESIGN CHOICE. -/
def linkRetrain (session tag port beat : Nat) (s : State) : State :=
  setLink port (fun x => { x with retrainAt := some beat, retrainReply := some (session, tag) }) s

/-- LINK_CTL RETRAIN (R305): the window opens in phase 8 of the named beat, or of the next beat when that has begun. -/
def execLinkCtlRetrain (h : Hdr) (port beat : Nat) (s : State) : Host.Outcome State Fault Refusal :=
  hosted (.linkCtlRetrain h port beat) h ⟨0x0503, roleOperate, 0⟩ (portRange port)
    (fun _ s =>
      match retrainRefusal s port with
      | some (st, d) => reply h 0x0503 st d [] s
      | none =>
        let b := if beatLe beat s.now then beatAdd s.now 1 else beat
        linkRetrain h.session h.tag port b (accept h 0x0503 [] s)) s

end Sys2Proof.Machine
end

