-- ==== Sys2Proof/Machine/Health.lean ====
section
/-! DEFINITION. Faults, spares and degraded operation (chapter 16): buckets, suspicion, takeover, tests, control-core
pairs, beat shadows and the health state. -/
namespace Sys2Proof.Machine

/-- The fault class of a unit (R426). -/
def classOf : HwUnit → Nat
  | .station _ l _ => if l = 0 then 0 else if l < 3 then 1 else 2
  | .pc _ => 3
  | .lpch _ => 4
  | .fabLane _ _ => 5
  | .bridgeLane _ _ => 6
  | .eth _ => 7
  | .pair _ => 8

/-- The unit number of a record: a station's source code, else the unit's number, a lane as 16 × port + lane.
Log 30: DESIGN CHOICE. Log 140: DEDUCED. -/
def unitNumber : HwUnit → Nat
  | .station d l n => sourceCode d l n
  | .pc n => n
  | .lpch n => n
  | .fabLane p l => 16 * p + l
  | .bridgeLane k l => 16 * k + l
  | .eth n => n
  | .pair n => n

/-- The source of a record about a unit (R451). -/
def unitSource : HwUnit → Nat
  | .station d l n => sourceCode d l n
  | _ => pkgSource

/-- Code of a finding (R519). -/
def findingCode : Finding → Nat
  | .residue => 1
  | .datapathParity => 2
  | .descriptorParity => 3
  | .secdedCorrectable => 4
  | .secdedUncorrectable => 5
  | .memTransient => 6
  | .memHard => 7
  | .memUncorrectable => 8
  | .fecUncorrectable => 9
  | .symbolErrorMs => 10
  | .laneCrc => 11
  | .linkLoss => 12
  | .signalLoss => 13
  | .laneStuck => 14
  | .lockstep => 15

/-- The weight of a finding in a class (R426): none where the class has no such finding; a hard one weighs nothing. -/
def findingWeight (cls : Nat) (f : Finding) : Option (Nat × Bool) :=
  match f with
  | .residue => if cls = 0 then some (16, false) else none
  | .datapathParity => if cls = 1 then some (16, false) else none
  | .descriptorParity => if cls = 2 then some (16, false) else none
  | .secdedCorrectable => if cls < 3 then some (1, false) else none
  | .secdedUncorrectable => if cls < 3 then some (16, false) else none
  | .memTransient => if cls = 3 || cls = 4 then some (1, false) else none
  | .memHard => if cls = 3 || cls = 4 then some (8, false) else none
  | .memUncorrectable => if cls = 3 || cls = 4 then some (32, false) else none
  | .fecUncorrectable => if cls = 5 then some (4, false) else none
  | .symbolErrorMs => if cls = 5 then some (1, false) else none
  | .laneCrc => if cls = 6 then some (4, false) else none
  | .linkLoss => if cls = 7 then some (16, false) else none
  | .signalLoss => if cls = 5 then some (0, true) else none
  | .laneStuck => if cls = 6 then some (0, true) else none
  | .lockstep => if cls = 8 then some (0, true) else none

/-- The station entry of a unit. -/
def stnOf (s : State) (d l n : Nat) : Option StnSt := s.stns.stns.find? fun e => e.die = d && e.letter = l && e.num = n

/-- A bridge lane's state; a lane nothing is known of carries. -/
def bridgeLaneOf (s : State) (k l : Nat) : Lane :=
  match (s.fab.bridges.getD k ⟨true, 0, 0, 0, []⟩).lanes.find? fun x => x.1 = l with
  | some x => x.2
  | none => ⟨0, false, 0⟩

/-- Lanes of a bridge link that are suspect or retired. Log 134: DESIGN CHOICE. -/
def Bridge.missing (b : Bridge) : Nat := (b.lanes.filter fun x => decide (2 ≤ x.2.lstate)).length

/-- A bridge link has its full width while its redundant lanes stand in for every lane that is missing (R25). Log 134: DESIGN CHOICE. -/
def Bridge.settled (b : Bridge) : Bridge := { b with full := decide (b.missing ≤ Config.bridgeSpares) }

/-- A bridge lane changes, and with it the width of its link; a link with no lane left is lost (R25, R436). -/
def setBridgeLane (k l : Nat) (x : Lane) (s : State) : State :=
  let bridges := updAt k (fun b => Bridge.settled { b with lanes := (l, x) :: b.lanes.filter fun y => y.1 ≠ l }) s.fab.bridges
  let lost := bridges.any fun b => decide (0 < b.missing) && decide (Config.bridgeWidth + Config.bridgeSpares ≤ b.missing)
  { s with fab := { s.fab with bridges := bridges }, hlth := { s.hlth with bridgeLost := lost } }

/-- A unit's bucket level (R426). -/
def unitLevel (s : State) : HwUnit → Nat
  | .station d l n => ((stnOf s d l n).map fun e => e.level).getD 0
  | .pc n => (s.mem.pcs.getD n Channel.zero).level
  | .lpch n => (s.mem.lpchs.getD n Channel.zero).level
  | .fabLane p l => ((s.link p).map fun x => (x.lanes.getD l ⟨0, false, 0⟩).level).getD 0
  | .bridgeLane k l => (bridgeLaneOf s k l).level
  | u => ((s.hlth.units.find? fun e => e.unit = u).map fun e => e.level).getD 0

/-- Whether a unit is under its offline test or retired (R519). -/
def unitOut (s : State) : HwUnit → Bool
  | .station d l n => match stnOf s d l n with
    | some e => decide (2 ≤ e.state)
    | none => true
  | .pc n => decide ((s.mem.pcs.getD n ⟨2, 0, 0⟩).cstate ≠ 0)
  | .lpch n => decide ((s.mem.lpchs.getD n ⟨2, 0, 0⟩).cstate ≠ 0)
  | .fabLane p l => match s.link p with
    | some x => decide (2 ≤ (x.lanes.getD l ⟨3, false, 0⟩).lstate)
    | none => true
  | .bridgeLane k l => decide (2 ≤ (bridgeLaneOf s k l).lstate) || decide (14 ≤ k)
  | u => match s.hlth.units.find? fun e => e.unit = u with
    | some e => decide (2 ≤ e.status)
    | none => true

/-- A unit's level and standing change: 0 in service, 1 spare or idle, 2 suspect, 3 retired. -/
def setUnit (u : HwUnit) (level : Nat) (status : Nat) (marked : Bool) (s : State) : State :=
  match u with
  | .station d l n => setStn d l n (fun e => { e with level := level, state := status, marked := marked }) s
  | .pc n => { s with mem := { s.mem with pcs := updAt n (fun c => { c with level := level }) s.mem.pcs } }
  | .lpch n => { s with mem := { s.mem with lpchs := updAt n (fun c => { c with level := level }) s.mem.lpchs } }
  | .fabLane p l => setLink p (fun x => { x with lanes := updAt l (fun _ => ⟨status, marked, level⟩) x.lanes }) s
  | .bridgeLane k l => setBridgeLane k l ⟨status, marked, level⟩ s
  | u => { s with hlth := { s.hlth with
      units := updBy (fun e => e.unit = u) (fun e => { e with level := level, status := status, marked := marked }) s.hlth.units } }

/-- A unit's standing now. -/
def unitStatus (s : State) : HwUnit → Nat
  | .station d l n => ((stnOf s d l n).map fun e => e.state).getD 3
  | .pc n => (s.mem.pcs.getD n Channel.zero).cstate
  | .lpch n => (s.mem.lpchs.getD n Channel.zero).cstate
  | .fabLane p l => ((s.link p).map fun x => (x.lanes.getD l ⟨3, false, 0⟩).lstate).getD 3
  | .bridgeLane k l => (bridgeLaneOf s k l).lstate
  | u => ((s.hlth.units.find? fun e => e.unit = u).map fun e => e.status).getD 3

/-- Whether the retirement map marks a unit (R429). -/
def unitMarked (s : State) (u : HwUnit) : Bool := s.flash.map.any fun e => e.unit = u && e.marked

/-- The second of the present stamp (R442). -/
def nowSecond (s : State) : Nat := (stampNow s).1 / 1000000

/-- The retirement map with a unit's entry changed, or made (R430). -/
def mapWrite (u : HwUnit) (f : MapEntry → MapEntry) (s : State) : State :=
  let m := s.flash.map
  let m := if m.any fun e => e.unit = u then updBy (fun e => e.unit = u) f m else m ++ [f ⟨u, none, false, none⟩]
  { s with flash := { s.flash with map := m } }

/-- The counts of a fault class change. -/
def setClass (c : Nat) (f : ClassSt → ClassSt) (s : State) : State :=
  { s with hlth := { s.hlth with classes := updAt c f s.hlth.classes } }

/-- Commands that a station's loss interrupts (R149): a restartable one that has not been restarted waits for its
restart, its claims held; any other completes ST_DEGRADED. -/
def interruptCmds (code : Nat) (s : State) : State :=
  (s.jobs.cmds.filter fun c => c.phase = .running && (claimsOf s c.image).contains code).foldl (fun s c =>
    if c.image.restartable && !c.restarted then
      let s := orphan c.id (setCmd c.id (fun c => { clearRun c with phase := .restarting }) s)
      let s := setCtx c.ctx (fun x => { x with blockedGens := x.blockedGens ++ [(c.gen, s.beat.elapsed)] }) s
      s
    else endCmd c.id stDegraded s) s

/-- Channels of a tier that have been retired (R271). -/
def retiredChannels (cs : List Channel) : Nat := (cs.filter fun c => decide (c.cstate ≠ 0)).length

/-- A memory channel is retired at once into the next displacement zone (R271, R429). -/
def retireChannel (u : HwUnit) (s : State) : State :=
  let out (cs : List Channel) (n : Nat) : List Channel :=
    updAt n (fun c => { c with cstate := 1, zone := retiredChannels cs }) cs
  match u with
  | .pc n => { s with mem := { s.mem with pcs := out s.mem.pcs n } }
  | .lpch n => { s with mem := { s.mem with lpchs := out s.mem.lpchs n } }
  | _ => s

/-- A unit is retired for good (R429): the map, the count, the flag and the record. -/
def retireUnit (u : HwUnit) (s : State) : State :=
  let s := mapWrite u (fun e => { e with retired := some true }) s
  let s := match u with
    | .pc _ => retireChannel u s
    | .lpch _ => retireChannel u s
    | u => setUnit u (unitLevel s u) 3 (unitMarked s u) s
  let s := match u with
    | .pair n => { s with hlth := { s.hlth with pairs := updAt n (fun _ => 3) s.hlth.pairs } }
    | .fabLane p _ => match s.link p with
      | some x => if goodLanes x < 4 then enterState p 7 s else s
      | none => s
    | _ => s
  let c := classOf u
  let s := setClass c (fun k => { k with retired := k.retired + 1 }) s
  let s := { s with hlth := { s.hlth with retiredFlag := s.hlth.retiredFlag.hit } }
  record 0x0703 4 (unitSource u) (leBytes 1 c ++ leBytes 2 (unitNumber u)) s

/-- An active pair is halted (R434). Log 100: DESIGN CHOICE. -/
def haltPair (n : Nat) (s : State) : State := { s with hlth := { s.hlth with pairs := updAt n (fun _ => 3) s.hlth.pairs } }

/-- Commands that wait for a restart and bind a name now unbound complete ST_DEGRADED (R149); so do those that no
longer fit a shared station. Log 99: DESIGN CHOICE. -/
def dropStranded (s : State) : State :=
  (s.jobs.cmds.filter fun c => c.phase = .restarting && (namesUnbound s c.image || !fitsShared s c.image)).foldl
    (fun s c => endCmd c.id stDegraded s) s

/-- The lowest-numbered free spare Frond of a die (R85). -/
def spareFrond (s : State) (die : Nat) : Option Nat :=
  (s.stns.stns.find? fun e => e.die = die && e.letter = 0 && e.state = 1 && e.names.isEmpty).map fun e => e.num

/-- The partner of a station: the next surviving one of its letter and die, wrapping (R432). -/
def partnerOf (s : State) (die letter num : Nat) : Option StnSt :=
  let n := stationCount die letter
  ((List.range n).map fun i => (num + 1 + i) % n).findSome? fun k =>
    if k = num then none
    else match stnOf s die letter k with
      | some e => if e.state < 2 then some e else none
      | none => none

/-- The names of a station become unbound (R86, R432, R433). -/
def unbindNames (die letter num : Nat) (s : State) : State :=
  match stnOf s die letter num with
  | none => s
  | some e =>
    let s := setStn die letter num (fun e => { e with names := [] }) s
    if letter = 0 then
      { s with stns := { s.stns with
          cfg := updBy (fun c => c.die = die && e.names.contains c.num) (fun c => { c with unbound := true }) s.stns.cfg } }
    else { s with stns := { s.stns with unbound := s.stns.unbound ++ e.names.map fun k => (die, letter, k) } }

/-- The station that is taking over the names of a suspected one: a spare Frond, or a partner that carries one name. -/
def takerOf (s : State) (die letter num : Nat) : Option Nat :=
  if letter = 0 then spareFrond s die
  else match partnerOf s die letter num with
    | some p => if p.names.length < 2 then some p.num else none
    | none => none

/-- A station that is taking over names when it is itself suspected: they become unbound, and the command they interrupted
completes ST_DEGRADED (R433). Log 99: DESIGN CHOICE. -/
def loseTaker (u : HwUnit) (s : State) : State :=
  match u, s.hlth.suspicions.head? with
  | .station d l n, some x =>
    match x with
    | .station d' l' m => if d = d' && l = l' && takerOf s d l m = some n then dropStranded (unbindNames d l m s) else s
    | _ => s
  | _, _ => s

/-- A unit becomes suspect (R426, R429 to R431): written to the map, recorded, taken out of service; a marked unit and a
memory channel are retired without a test. -/
def suspectUnit (u : HwUnit) (f : Finding) (hard : Bool) (s : State) : State :=
  let level := unitLevel s u
  let marked := unitMarked s u
  let s := mapWrite u (fun e => { e with retired := none }) (loseTaker u s)
  let s := { s with hlth := { s.hlth with
    suspectFlag := s.hlth.suspectFlag.hit
    suspicions := s.hlth.suspicions ++ [u] } }
  let s := record 0x0701 3 (unitSource u)
    (leBytes 1 (classOf u) ++ leBytes 2 (unitNumber u) ++ leBytes 1 (findingCode f) ++ leBytes 2 level) s
  let s := match u with
    | .pc _ => s
    | .lpch _ => s
    | u => setUnit u level 2 marked s
  let s := match u with
    | .station d l n => interruptCmds (sourceCode d l n) s
    | .fabLane p _ => match s.link p with
      | some x => if hard && x.state = 4 then enterState p 2 s else if x.state = 3 then enterState p 2 s else s
      | none => s
    | .pair n => haltPair n s
    | _ => s
  match u with
  | .pc _ => retireUnit u s
  | .lpch _ => retireUnit u s
  | u => if marked then retireUnit u s else s

/-- Flags and counters a finding sets, whatever the unit's standing (R519, R488 to R490). -/
def noteFinding (u : HwUnit) (f : Finding) (s : State) : State :=
  match u with
  | .station d l n => setStn d l n (fun e => match f with
    | .secdedCorrectable => { e with eccCe := e.eccCe.hit }
    | .secdedUncorrectable => { e with eccUe := e.eccUe.hit }
    | _ => { e with mismatch := e.mismatch.hit }) s
  | .pc _ => { s with mem := { s.mem with eccHbm := ecc f s.mem.eccHbm } }
  | .lpch _ => { s with mem := { s.mem with eccLp := ecc f s.mem.eccLp } }
  | .bridgeLane k _ =>
    if f = .laneCrc then
      { s with fab := { s.fab with bridges := updAt k (fun b => { b with crc := wrap32 (b.crc + 1) }) s.fab.bridges } }
    else s
  | _ => s
where
  ecc (f : Finding) (e : Ecc) : Ecc :=
    match f with
    | .memTransient => { e with transient := e.transient.hit }
    | .memHard => { e with hard := e.hard.hit }
    | .memUncorrectable => { e with ue := e.ue.hit }
    | _ => e

/-- A finding is charged to a unit (R426, R519). -/
def chargeFinding (u : HwUnit) (f : Finding) (s : State) : State :=
  match findingWeight (classOf u) f with
  | none => s
  | some (w, hard) =>
    let s := noteFinding u f s
    let front := match u with
      | .station _ l _ => l = 7
      | _ => false
    if front || unitOut s u then s
    else
      let level := min 65535 (unitLevel s u + w)
      let s := setUnit u level (unitStatus s u) (unitMarked s u) s
      let k := s.hlth.classes.getD (classOf u) ⟨0, 0, 0, 0, 0, 0⟩
      if hard || (decide (classOf u ≠ 8) && decide (k.inThreshold ≤ level)) then suspectUnit u f hard s else s

/-- An update in progress is abandoned (R434): its reply is ST_INTERNAL. -/
def abandonUpdate (s : State) : State :=
  match s.boot.activation with
  | none => s
  | some a => finish a.session a.tag 0x0A02 stInternal 0 [] <| recordInternal 0x0A02 a.tag { s with boot := { s.boot with activation := none } }

/-- Whether a running command uses the SRAM behind a source code (R274): it claims the station, or has a list of a die's Front, whose
code no claim holds (R63). -/
def usesSram (s : State) (c : Cmd) (code : Nat) : Bool :=
  c.phase = .running && ((claimsOf s c.image).contains code || (letterOf code = 7 && c.image.bindings.any fun b => b.code = code))

/-- FAULT_FINDING (R426, R433, R519). An uncorrectable SRAM word ends the commands on its station; a word of a stream cache or of the
hub's SRAM those with a list of that die's Front (R274). -/
def execFaultFinding (unit : HwUnit) (f : Finding) (s : State) : Host.Outcome State Fault Refusal :=
  match unit with
  | .station d l n =>
    let code := sourceCode d l n
    let s := if f = .secdedUncorrectable then
        (s.jobs.cmds.filter fun c => usesSram s c code).foldl
          (fun s c => contextFaultAt c.id 3 (((c.image.bindings.find? fun b => b.code = code || carrierCode s b.code = some code).map
            fun b => b.code).getD code) s) s
      else s
    .next (chargeFinding unit f s)
  | u => .next (chargeFinding u f s)

/-- BUCKET_LEAK (R426, R519): at a beat that is a multiple of 1,000 × LEAK_MS of a class, each level above 0 of its
units in service falls by 1. -/
def execBucketLeak (s : State) : Host.Outcome State Fault Refusal :=
  let due (c : Nat) : Bool :=
    let k := s.hlth.classes.getD c ⟨0, 0, 0, 0, 0, 0⟩
    decide (k.inLeak ≠ 0) && s.now % (1000 * k.inLeak) = 0
  let stns := s.stns.stns.map fun e =>
    if e.letter < 5 && due (classOf (.station e.die e.letter e.num)) && e.state < 2 then { e with level := e.level - 1 } else e
  let chan (c : Nat) (xs : List Channel) : List Channel :=
    if due c then xs.map fun x => if x.cstate = 0 then { x with level := x.level - 1 } else x else xs
  let lane (x : Lane) : Lane := if x.lstate < 2 then { x with level := x.level - 1 } else x
  let units := if due 7 then s.hlth.units.map fun e => if e.status < 2 then { e with level := e.level - 1 } else e else s.hlth.units
  let links := if due 5 then s.fab.links.map fun l => { l with lanes := l.lanes.map lane } else s.fab.links
  let bridges := if due 6 then s.fab.bridges.map fun b => { b with lanes := b.lanes.map fun x => (x.1, lane x.2) } else s.fab.bridges
  .next { s with
    stns := { s.stns with stns := stns }
    mem := { s.mem with pcs := chan 3 s.mem.pcs, lpchs := chan 4 s.mem.lpchs }
    hlth := { s.hlth with units := units }
    fab := { s.fab with links := links, bridges := bridges } }

/-! ### Takeover (R431 to R433) -/

/-- The Frond names a station gives up go to spares of its die, or become unbound (R85, R86). -/
def moveFrond (die num : Nat) (s : State) : State × Nat :=
  match stnOf s die 0 num with
  | none => (s, 0xFFFF)
  | some e =>
    e.names.foldl (fun (r : State × Nat) name =>
      let s := setStn die 0 num (fun e => { e with names := [] }) r.1
      match spareFrond s die with
      | some k =>
        let s := setStn die 0 k (fun x => { x with names := [name], state := 0 }) s
        ({ s with stns := { s.stns with
            cfg := updBy (fun c => c.die = die && c.num = name) (fun c => { c with phys := k }) s.stns.cfg } }, sourceCode die 0 k)
      | none =>
        ({ s with stns := { s.stns with
            cfg := updBy (fun c => c.die = die && c.num = name) (fun c => { c with unbound := true }) s.stns.cfg } }, 0xFFFF))
      (s, 0xFFFF)

/-- The names of a station without spares go to its partner while it carries fewer than two (R432). -/
def movePartner (die letter num : Nat) (s : State) : State × Nat :=
  match stnOf s die letter num with
  | none => (s, 0xFFFF)
  | some e =>
    e.names.foldl (fun (r : State × Nat) name =>
      let s := setStn die letter num (fun e => { e with names := [] }) r.1
      match partnerOf s die letter num with
      | some p =>
        if p.names.length < 2 then
          (setStn die letter p.num (fun x => { x with names := x.names ++ [name], state := 0 }) s, sourceCode die letter p.num)
        else ({ s with stns := { s.stns with unbound := s.stns.unbound ++ [(die, letter, name)] } }, r.2)
      | none => ({ s with stns := { s.stns with unbound := s.stns.unbound ++ [(die, letter, name)] } }, r.2)) (s, 0xFFFF)

/-- A fabric lane's port after the loss of the lane (R293, R431): the spare lane stands in, else four lanes. -/
def takeLane (port lane : Nat) (s : State) : State × Nat :=
  match s.link port with
  | none => (s, 0xFFFF)
  | some l =>
    let hadSpare := isLocal port && decide ((l.lanes.getD 8 ⟨3, false, 0⟩).lstate = 1) && decide (lane ≠ 8)
    let s := setLink port (fun x => { x with lanes := arrangeLanes 0 x.lanes, spareUsed := x.spareUsed || hadSpare }) s
    match widthFor (goodLanes l) with
    | none => (enterState port 7 s, 0xFFFF)
    | some w => (if l.state = 4 then setLink port (fun x => { x with width := w }) s else s, if hadSpare then 8 else 0xFFFF)

/-- Roles of the pairs after a loss or a return (R434): a standby pair takes a role nobody carries; with no standby left
the surviving pair carries both; a returning pair takes role 1. Log 100: DESIGN CHOICE. -/
def resumeRoles (pairs : List Nat) : List Nat :=
  let has (r : Nat) (ps : List Nat) : Bool := ps.contains r
  let take (r : Nat) (ps : List Nat) : List Nat :=
    if has r ps || has 4 ps then ps
    else match ps.findIdx? fun x => x = 2 with
      | some i => ps.set i r
      | none => ps.map fun x => if x < 2 then 4 else x
  let ps := take 1 (take 0 pairs)
  if has 4 ps then
    match ps.findIdx? fun x => x = 2 with
    | some i => (ps.map fun x => if x = 4 then 0 else x).set i 1
    | none => ps
  else ps

/-- An Ethernet port out of service: its sessions fail over (R340). -/
def takeEth (n : Nat) (s : State) : State × Nat :=
  match execEthLinkLoss n s with
  | .next t => (t, 1 - n)
  | _ => (s, 0xFFFF)

/-- The takeover of a unit (R431): the new state and the replacement's number, 0xFFFF where there is none. Logs 99, 134: DESIGN CHOICE. -/
def takeUnit (u : HwUnit) (s : State) : State × Nat :=
  match u with
  | .station d l n => if l = 0 then moveFrond d n s else movePartner d l n s
  | .pc _ => (s, 0xFFFF)
  | .lpch _ => (s, 0xFFFF)
  | .fabLane p l => takeLane p l s
  | .bridgeLane k _ =>
    ({ s with fab := { s.fab with
        bridges := updAt k (fun b =>
          if b.missing ≤ Config.bridgeSpares then { b with repaired := min 255 (b.repaired + 1), repairs := sat32 (b.repairs + 1) } else b)
            s.fab.bridges } }, 0xFFFF)
  | .eth n => takeEth n s
  | .pair _ =>
    let ps := resumeRoles s.hlth.pairs
    ({ s with hlth := { s.hlth with pairs := ps } }, (ps.zip s.hlth.pairs).findIdx fun x => x.1 ≠ x.2)

/-- TAKEOVER (R431, R433): suspicions are handled in the order of their findings; another unit waits. Log 99: DESIGN CHOICE. -/
def execTakeover (unit : HwUnit) (micros : Nat) (s : State) : Host.Outcome State Fault Refusal :=
  match s.hlth.suspicions.head? with
  | none => .next s
  | some x =>
    if x ≠ unit then .next s
    else
      let s := { s with hlth := { s.hlth with suspicions := s.hlth.suspicions.tail } }
      let (s, rep) := takeUnit unit s
      let s := dropStranded s
      .next (record 0x0702 3 (unitSource unit) (leBytes 1 (classOf unit) ++ leBytes 2 (unitNumber unit) ++ leBytes 2 rep ++
        leBytes 4 micros) s)

/-! ### Test outcomes and return (R429, R430) -/

/-- An exonerated unit returns to service (R430): a Frond as a spare, another station idle until its name returns, a
bridge lane as a redundant one, an Ethernet port, a control-core pair as standby; a fabric lane at the next window. Log 151: DESIGN CHOICE. -/
def returnUnit (u : HwUnit) (marked : Bool) (s : State) : State :=
  match u with
  | .station _ _ _ => setUnit u 0 1 marked s
  | .fabLane _ _ => setUnit u 0 2 marked s
  | .bridgeLane _ _ => setUnit u 0 1 marked s
  | .pair n => { setUnit u 0 0 marked s with hlth := { (setUnit u 0 0 marked s).hlth with
      pairs := updAt n (fun _ => 2) s.hlth.pairs } }
  | u => setUnit u 0 0 marked s

/-- A unit passes its test (R429): exonerated, and marked after an earlier pass in the last 86,400 s. -/
def exonerateUnit (u : HwUnit) (s : State) : State :=
  let again := s.flash.map.any fun e => e.unit = u && (match e.passAt with
    | some t => decide (nowSecond s < t + 86400)
    | none => false)
  let marked := unitMarked s u || again
  let s := mapWrite u (fun e => { e with retired := some false, marked := marked, passAt := some (nowSecond s) }) s
  let s := returnUnit u marked s
  let c := classOf u
  let s := setClass c (fun k => { k with exonerated := k.exonerated + 1 }) s
  let s := { s with hlth := { s.hlth with exoneratedFlag := s.hlth.exoneratedFlag.hit } }
  record 0x0704 2 (unitSource u) (leBytes 1 c ++ leBytes 2 (unitNumber u) ++ leBytes 1 (bit marked)) s

/-- Whether a unit is under its offline test: suspect, with no outcome in the map. -/
def underTest (s : State) (u : HwUnit) : Bool :=
  s.flash.map.any fun e => e.unit = u && e.retired = none

/-- UNIT_TEST_COMPLETE (R429): of a unit that has been taken out of service; one whose takeover waits is not tested yet. -/
def execUnitTestComplete (unit : HwUnit) (passed : Bool) (s : State) : Host.Outcome State Fault Refusal :=
  if !underTest s unit || s.hlth.suspicions.contains unit then .next s
  else if passed then .next (exonerateUnit unit s)
  else .next (retireUnit unit s)

/-- An idle spare takes the lowest unbound Frond name of its die (R86, R430). -/
def rebindFrond (die : Nat) (s : State) : State :=
  match (s.stns.cfg.filter fun c => c.die = die && c.unbound).head?, spareFrond s die with
  | some c, some k =>
    let s := setStn die 0 k (fun x => { x with names := [c.num], state := 0 }) s
    { s with stns := { s.stns with
        cfg := updBy (fun x => x.die = die && x.num = c.num) (fun x => { x with unbound := false, phys := k }) s.stns.cfg } }
  | _, _ => s

/-- Whether a command that has not given up its claims binds a name. -/
def nameClaimed (s : State) (code : Nat) : Bool :=
  s.jobs.cmds.any fun c => (c.phase = .running || c.phase = .retired || c.phase = .restarting) && c.image.bindings.any fun b => b.code = code

/-- An idle station takes its own name back from its partner when no command claims it (R430). -/
def returnName (die letter num : Nat) (s : State) : State :=
  match stnOf s die letter num with
  | none => s
  | some e =>
    if e.state = 1 && e.names.isEmpty && !nameClaimed s (sourceCode die letter num) then
      let stns := updBy (fun x => x.die = die && x.letter = letter) (fun x => { x with names := x.names.filter fun n => n ≠ num }) s.stns.stns
      let s := { s with stns := { s.stns with stns := stns, unbound := s.stns.unbound.filter fun u => u ≠ (die, letter, num) } }
      setStn die letter num (fun x => { x with names := [num], state := 0 }) s
    else s

/-- NAME_RETURN (R430): at a beat boundary. -/
def execNameReturn (die letter num : Nat) (s : State) : Host.Outcome State Fault Refusal :=
  if letter = 0 then .next (rebindFrond die s) else .next (returnName die letter num s)

/-- The spare Fronds of a die take its unbound names, the lowest first (R430). -/
def rebindFronds (die : Nat) (s : State) : State :=
  (s.stns.cfg.filter fun c => c.die = die && c.unbound).foldl (fun s _ => rebindFrond die s) s

/-- Every name that may return at this beat boundary does (R430). -/
def returnNames (s : State) : State :=
  let s := (List.range 6).foldl (fun s d => rebindFronds d s) s
  (s.stns.stns.filter fun e => e.state = 1 && decide (0 < e.letter) && decide (e.letter < 5)).foldl
    (fun s e => returnName e.die e.letter e.num s) s

/-- LOCKSTEP_MISMATCH (R434): the pair is halted; an update in progress is abandoned. -/
def execLockstepMismatch (pair : Nat) (s : State) : Host.Outcome State Fault Refusal :=
  .next (abandonUpdate (chargeFinding (.pair pair) .lockstep s))

/-- STANDBY_RESUME (R430, R434): the standby pair, or a returned one, takes the role that waits for it from the journal. Log 100: DESIGN CHOICE. -/
def execStandbyResume (s : State) : Host.Outcome State Fault Refusal :=
  .next { s with hlth := { s.hlth with pairs := resumeRoles s.hlth.pairs } }

/-- MIGRATION_COMPLETE (R271): the channel's blocks lie in its zone. Log 136: DESIGN CHOICE. -/
def execMigrationComplete (tier channel : Nat) (s : State) : Host.Outcome State Fault Refusal :=
  let done (cs : List Channel) : List Channel := updAt channel (fun c => if c.cstate = 1 then { c with cstate := 2 } else c) cs
  if tier = 0 then .next { s with mem := { s.mem with pcs := done s.mem.pcs } }
  else .next { s with mem := { s.mem with lpchs := done s.mem.lpchs } }

/-- BEAT_SHADOW_CHECK (R35, R435): a die whose counter differs is counted and set again at the next boundary; a second
mismatch of the die within 1,000,000 beats is a die fault. -/
def execBeatShadowCheck (counts : List Nat) (s : State) : Host.Outcome State Fault Refusal :=
  let off (d : Nat) : Bool := decide (counts.getD d s.now ≠ s.now)
  let again := (List.range 7).any fun d => off d && (match (s.beat.shadowLast.getD d none) with
    | some b => decide (s.beat.elapsed ≤ b + 1000000)
    | none => false)
  let s := { s with beat := { s.beat with
    shadowLast := s.beat.shadowLast.zipIdx.map fun (x, d) => if off d then some s.beat.elapsed else x
    shadowFix := s.beat.shadowFix.zipIdx.map fun (x, d) => x || off d } }
  let s := (List.range 7).foldl (fun s d => if off d then setStn d 7 0 (fun e => { e with roleB := sat32 (e.roleB + 1) }) s else s) s
  .next { s with hlth := { s.hlth with dieFault := s.hlth.dieFault || again } }

/-! ### Health states (R436 to R439) -/

/-- The reason word of the conditions that hold (R436, R440). Log 101: DEDUCED. -/
def healthReason (s : State) : Nat :=
  let planned := match s.flash.install with
    | some r => (planAt s.boot.pkg r).any fun p => p.standby.isNone && decide (((s.link p.port).map fun l => l.state).getD 0 ≠ 4)
    | none => false
  let noSpare := (List.range 6).any fun d => !(s.stns.stns.any fun e => e.die = d && e.letter = 0 && e.state = 1)
  let hbm := retiredChannels s.mem.pcs
  let lp := retiredChannels s.mem.lpchs
  let active := s.hlth.pairs.any fun p => p < 2 || p = 4
  bit planned + 2 * bit (s.fab.links.any fun l => l.state = 4 && l.width = 4) + 4 * bit (s.fab.bridges.any fun b => !b.full) +
    8 * bit s.beat.clkHold + 16 * bit (s.models.models.any fun m => !m.suspects.isEmpty) + 32 * bit (!s.fab.unreachable.isEmpty) +
    64 * bit (s.net.ethUp.any fun u => !u) + 2 ^ 8 * bit noSpare +
    2 ^ 9 * bit ((s.stns.cfg.any fun c => c.unbound) || !s.stns.unbound.isEmpty) + 2 ^ 10 * bit (decide (3 ≤ hbm)) +
    2 ^ 11 * bit (decide (1 ≤ lp)) + 2 ^ 12 * bit (!s.hlth.pairs.contains 2 && s.boot.reloading.isEmpty) +
    2 ^ 13 * bit (s.fab.links.any fun l => l.state = 7) + 2 ^ 16 * bit (decide (5 ≤ hbm) || decide (2 ≤ lp)) +
    2 ^ 17 * bit (!active) + 2 ^ 18 * bit s.hlth.bridgeLost + 2 ^ 19 * bit s.hlth.dieFault + 2 ^ 24 * bit s.hlth.boardService

/-- The state of a reason word (R436, R437). Log 101: DEDUCED. -/
def healthOf (r : Nat) : Nat :=
  if field r 19 16 ≠ 0 then 3 else if field r 13 8 ≠ 0 then 2 else if field r 6 0 ≠ 0 then 1 else 0

/-- The package becomes FAILED (R439): every context as if it had faulted with cause 8, every request ends. -/
def failPackage (s : State) : State :=
  let s := (s.jobs.ctxs.filter fun c => !c.torn && decide (c.num ≠ 0)).foldl
    (fun s c => tearDown c.num (noteFault c.num 8 pkgSource 0 0 s)) s
  let s := if (s.ctx 0).isSome then noteFault 0 8 pkgSource 0 0 s else s
  let s := endCmdsOf 0 stContextFault s
  (s.serve.reqs.filter fun r => !finalState r.state).foldl (fun s r => endRequest r.id 0x11 stContextFault s) s

/-- The health state is evaluated at a beat boundary of a running package (R436 to R439). Log 101: DEDUCED. -/
def evalHealth (s : State) : State :=
  if s.boot.stage ≠ 6 then s
  else
    let r := healthReason s
    let st := healthOf r
    let old := s.hlth.state
    let s := { s with hlth := { s.hlth with reason := r, state := st, failed := s.hlth.failed || st = 3 } }
    if st = old then s
    else
      let s := { s with hlth := { s.hlth with stateChange := s.hlth.stateChange.hit } }
      let s := if 2 ≤ st || s.hlth.advised then
          let s := { s with hlth := { s.hlth with advised := true }, pins := { s.pins with alert := true } }
          record 0x0705 (if st = 3 then 6 else 5) pkgSource (leBytes 1 st ++ leBytes 4 r) s
        else s
      if st = 3 then failPackage s else s

/-- SPARES as the maps and the tests leave it (R440): the two words as one number, the low word first. -/
def sparesLeft (s : State) : Nat :=
  let spare (d : Nat) : Nat := (s.stns.stns.filter fun e => e.die = d && e.letter = 0 && e.state = 1).length
  let active := (s.hlth.pairs.filter fun p => p < 2 || p = 4).length
  let hbm := 4 - min 4 (retiredChannels s.mem.pcs)
  let low := bit (decide (retiredChannels s.mem.lpchs = 0)) * 2 ^ 16 + hbm * 2 ^ 13 + min 2 active * 2 ^ 11 +
    bit (s.hlth.pairs.contains 2) * 2 ^ 10 +
    ((List.range 4).map fun k => bit (decide (0 < spare (2 + k))) * 2 ^ (6 + k)).sum + min 2 (spare 1) * 4 + min 2 (spare 0)
  let full := (List.range 8).map fun n => bit (((s.link (16 + n)).map fun l => decide (8 ≤ goodLanes l)).getD false) * 2 ^ (16 + n)
  let unused := (List.range 15).map fun n => bit (!((s.link n).map fun l => l.spareUsed).getD true) * 2 ^ n
  low + 2 ^ 32 * (full.sum + unused.sum)

/-- SPARES (R18, R440): its At reset value until the start has applied the retirement map. -/
def sparesOf (s : State) : Nat := if s.stns.mapsApplied then sparesLeft s else 0x00FF7FFF000197CA

/-- HEALTH_QUERY (R440). -/
def execHealthQuery (h : Hdr) (s : State) : Host.Outcome State Fault Refusal :=
  hosted (.healthQuery h) h ⟨0x0701, 0, 0⟩ noRanges
    (fun _ s => replyOk h 0x0701 (leBytes 1 s.hlth.state ++ leBytes 3 0 ++ leBytes 4 s.hlth.reason ++ leBytes 8 (sparesOf s)) s) s

end Sys2Proof.Machine
end

