-- ==== Sys2Proof/Machine/Station.lean ====
section
/-! DEFINITION. What a station or Front list has before it: its streams, input tiles, hold slots, and the descriptor that a row
acts on (R72, R78, R82, R135, R140 to R142, R145). -/
namespace Sys2Proof.Machine

/-- A write that a step of a descriptor makes: address, bytes, and whether they are scale bytes, which need no alignment of 32
(R122 to R124). -/
structure MemWrite where
  addr : Nat
  data : List Byte
  scale : Bool
  deriving DecidableEq, Repr

/-- A read of a gather's step: address, length, place in the tile's image, and whether it reads scale bytes (R123). -/
structure MemRead where
  addr : Nat
  bytes : Nat
  place : Nat
  scale : Bool
  deriving DecidableEq, Repr

/-- What one step of a descriptor makes: tiles given up from each input, tiles for each output port, the list's new state, the
counts of its status entry, tiles counted, memory accesses, addresses to remember, and whether further steps follow. -/
structure Made where
  take0 : Nat
  take1 : Nat
  take2 : Nat
  out0 : List Tile
  out1 : List Tile
  list : ListSt
  conv : ConvStat
  roleA : Nat
  roleB : Nat
  mismatch : Bool
  count : Nat
  writes : List MemWrite
  reads : List MemRead
  seen : List Nat
  more : Bool
  deriving DecidableEq, Repr

/-- What a descriptor does next at its station: it needs so many tiles from each port for its step, waits for the answer to an
access, ends its command, or carries out a step. -/
inductive Work where
  | need (n0 n1 n2 : Nat)
  | idle
  | fault (cause : Nat)
  | make (m : Made)
  deriving DecidableEq, Repr

/-- What a station sees: its list, the entry it carries out, the tiles taken for the step under way, whether a port's stream has
ended with nothing left in it, whether an access of the descriptor is unanswered, the context's rounding key, the launch
iteration, the command's generation and the station's hold slots (R63, R95, R140). Logs 42, 111: DESIGN CHOICE. -/
structure Bench where
  list : ListSt
  entry : QEntry
  dry0 : Bool
  dry1 : Bool
  dry2 : Bool
  waiting : Bool
  key : Nat
  iteration : Nat
  gen : Nat
  slots : Nat
  deriving DecidableEq, Repr

/-- The tiles taken from a port. -/
def Bench.in0 (b : Bench) : List Tile := b.entry.in0
def Bench.in1 (b : Bench) : List Tile := b.entry.in1
def Bench.in2 (b : Bench) : List Tile := b.entry.in2

/-- Nothing taken and nothing made; the last step. -/
def Bench.nothing (b : Bench) : Made := ⟨0, 0, 0, [], [], b.list, ⟨0, 0⟩, 0, 0, false, 0, [], [], [], false⟩

/-- A tile of undefined contents (R153). Log 42: DESIGN CHOICE. -/
def freeTile (seed i : Nat) : Tile :=
  tileOfImage ((List.range imageBytes).map fun j => Config.freeByte seed (i * imageBytes + j))

/-- The tile of a hold slot; a slot nothing has written since the command's start is undefined (R94, R126, R153). Log 42: DESIGN CHOICE. -/
def Bench.holdTile (b : Bench) (i : Nat) : Tile :=
  match b.list.hold.find? fun h => h.1 = i with
  | some h => h.2
  | none => freeTile b.list.seed (512 * b.list.code + i)

/-- Hold slots written from a base. -/
def retainAt (hold : List (Nat × Tile)) : Nat → List Tile → List (Nat × Tile)
  | _, [] => hold
  | i, t :: ts => retainAt ((i, t) :: hold.filter fun h => h.1 ≠ i) (i + 1) ts

/-- The list of a command with a code. -/
def Cmd.list (c : Cmd) (code : Nat) : Option ListSt := c.lists.find? fun l => l.code = code

/-- A list of a command changes. -/
def setList (id code : Nat) (f : ListSt → ListSt) (s : State) : State :=
  setCmd id (fun c => { c with lists := updBy (fun l => l.code = code) f c.lists }) s

/-- An entry of a list's queue changes. -/
def setEntry (id code i : Nat) (f : QEntry → QEntry) (s : State) : State :=
  setList id code (fun l => { l with queue := updAt i f l.queue }) s

/-- The stream of a command that a port produces or consumes, by its place in the table. -/
def producedBy (c : Cmd) (word : Nat) : Option Nat := c.streams.findIdx? fun e => e.spec.producer = word
def consumedBy (c : Cmd) (word : Nat) : Option Nat := c.streams.findIdx? fun e => e.spec.consumer = word

/-- Whether the producer's list has completed (R142). -/
def streamEnded (c : Cmd) (e : StreamSt) : Bool :=
  match c.list (e.spec.producer % 4096) with
  | some l => l.completed = l.count
  | none => true

/-- The serial number of the first tile a stream still holds. -/
def firstSerial (e : StreamSt) : Nat := e.carried - e.queue.length - e.held.length

/-- Tiles in a stream's slots whose data have all arrived, from the first on (R139, R141). -/
def readyTiles (s : State) (c : Cmd) (i : Nat) (e : StreamSt) : List Tile :=
  let pending := s.fab.accesses.filterMap fun a => match a.sink with
    | .tile cmd st serial _ _ => if cmd = c.id && st = i then some serial else none
    | _ => none
  let n0 := firstSerial e
  (e.queue.zipIdx.takeWhile fun (_, j) => !pending.contains (n0 + j)).map Prod.fst

/-- Tiles at an input port, and whether its stream has ended and is empty (R142). -/
def inputOf (s : State) (c : Cmd) (word : Nat) : List Tile × Bool :=
  match consumedBy c word with
  | none => ([], true)
  | some i =>
    match c.streams[i]? with
    | none => ([], true)
    | some e => (readyTiles s c i e, streamEnded c e && e.queue.isEmpty && e.held.isEmpty)

/-- `n` tiles leave a stream's slots from its front (R141). -/
def StreamSt.take (e : StreamSt) (n : Nat) : StreamSt := { e with queue := e.queue.drop n }

/-- Tiles enter a stream: into free slots, the rest held by the producer (R141). -/
def StreamSt.put (e : StreamSt) (ts : List Tile) : StreamSt :=
  let room := if e.held.isEmpty then e.spec.depth - e.queue.length else 0
  { e with queue := e.queue ++ ts.take room, held := e.held ++ ts.drop room, carried := e.carried + ts.length }

/-- A stream of a command changes. -/
def setStream (id i : Nat) (f : StreamSt → StreamSt) (s : State) : State :=
  setCmd id (fun c => { c with streams := updAt i f c.streams }) s

/-- A port's tiles are taken. -/
def takeFrom (id word n : Nat) (s : State) : State :=
  match s.cmd id with
  | none => s
  | some c =>
    match consumedBy c word with
    | none => s
    | some i => setStream id i (fun e => e.take n) s

/-- Whether the producer of a port still holds a tile for want of a slot (R141). -/
def portHolds (c : Cmd) (word : Nat) : Bool :=
  match (producedBy c word).bind fun i => c.streams[i]? with
  | some e => !e.held.isEmpty
  | none => false

/-- Cycles that a port has stalled or starved, in units of 1,024: the spec gives no cycle of the model, so the count is
a free value (DESIGN CHOICE, log 2). -/
def addCycles (old draw : Nat) : Nat := wrap32 (old + (Config.drawn draw).toNat)

/-- A port's tiles are placed; a port with a tile held has stalled (R141, R491). -/
def putTo (id code port : Nat) (ts : List Tile) (s : State) : State :=
  match s.cmd id with
  | none => s
  | some c =>
    match producedBy c (port * 4096 + code) with
    | none => s
    | some i =>
      let s := setStream id i (fun e => e.put ts) s
      let held := match (s.cmd id).bind fun c => c.streams[i]? with
        | some e => !e.held.isEmpty
        | none => false
      if held then
        let (d, s) := draw s
        setNamed code (fun e =>
          if letterOf code = 7 || port = 0 then { e with stall0 := addCycles e.stall0 d } else { e with stall1 := addCycles e.stall1 d }) s
      else s

/-- A port has waited on an empty queue. -/
def starve (code port : Nat) (s : State) : State :=
  let (d, s) := draw s
  setNamed code (fun e =>
    if letterOf code = 7 || port = 0 then { e with starve0 := addCycles e.starve0 d }
    else if port = 1 then { e with starve1 := addCycles e.starve1 d } else { e with starve2 := addCycles e.starve2 d }) s

/-! ### The descriptor that a row acts on (R72, R78, R82, R145) -/

/-- The body of a queue entry's descriptor. -/
def bodyOf (c : Cmd) (e : QEntry) : Option DBody := (c.image.descs[e.index]?).map fun d => d.body

/-- Whether an entry's body meets a condition. -/
def entryIs (c : Cmd) (f : DBody → Bool) (e : QEntry) : Bool := ((bodyOf c e).map f).getD false

/-- A load of a Frond; a pass, matrix or element-wise; a pass into a bank; a drain of a bank; a descriptor that emits. -/
def DBody.isLoad : DBody → Bool
  | .fLoad _ => true
  | _ => false
def DBody.isPass : DBody → Bool
  | .fMma _ => true
  | .fHad _ => true
  | _ => false
def DBody.passInto (bank : Nat) : DBody → Bool
  | .fMma f => f.bank = bank
  | _ => false
def DBody.drains (bank : Nat) : DBody → Bool
  | .fDrain f => f.bank = bank
  | _ => false
def DBody.emits : DBody → Bool
  | .fDrain _ => true
  | .fHad _ => true
  | _ => false

/-- Whether every entry that meets a condition is done. -/
def allDone (c : Cmd) (f : DBody → Bool) (es : List QEntry) : Bool := es.all fun e => e.done || !entryIs c f e

/-- Whether the shadow set may be swapped in: the rows of every pass before the load that filled it have entered (R72, R73). -/
def swapDue (c : Cmd) (l : ListSt) : Bool :=
  match l.shadow with
  | some (j, _) => allDone c DBody.isPass (l.queue.filter fun e => decide (e.index < j))
  | none => false

/-- The shadow set becomes the active one (R72). -/
def swapSets (l : ListSt) : ListSt :=
  match l.shadow with
  | some x => { l with active := some x.2, shadow := none }
  | none => l

/-- A list whose shadow set has been swapped in where that is due. -/
def settled (c : Cmd) (l : ListSt) : ListSt := if swapDue c l then swapSets l else l

/-- Whether a Frond may carry out a descriptor that stands behind others (R71, R72, R78, R82): a load waits for its shadow set, or
in stall mode for the rows of earlier passes; a pass for the loads and passes before it and for the drains of its bank; a drain for
the passes into its bank; what emits keeps its order on OUT0. Log 38: DESIGN CHOICE. -/
def frondReady (c : Cmd) (l : ListSt) (before : List QEntry) (b : DBody) : Bool :=
  match b with
  | .fLoad _ => allDone c DBody.isLoad before &&
      (if l.loadMode = 0 then allDone c DBody.isPass before else l.shadow.isNone || swapDue c l)
  | .fMma f => allDone c DBody.isLoad before && allDone c DBody.isPass before && 
      before.all fun e => !entryIs c (DBody.drains f.bank) e || (e.done && !portHolds c l.code)
  | .fDrain f => allDone c (DBody.passInto f.bank) before && allDone c DBody.emits before
  | .fHad _ => allDone c DBody.isPass before && allDone c DBody.emits before &&
      (l.loadMode ≠ 0 || allDone c DBody.isLoad before)
  | _ => false

/-- Whether two descriptors of a Front work on one channel in the same direction. -/
def sameChannel : DBody → DBody → Bool
  | .sFetch f, .sFetch g => f.channel = g.channel
  | .sStore f, .sStore g => f.channel = g.channel
  | _, _ => false

/-- The entry of a list that a row with a body acts on (R145): the first with that body that is not done, when its turn has come.
A Front works on all accepted ones, those of a channel in their order; a Frond as `frondReady` says; any other station in order.
Log 38: DESIGN CHOICE. -/
def entryOf (c : Cmd) (l : ListSt) (body : DBody) : Option Nat :=
  match l.queue.findIdx? fun e => !e.done && entryIs c (fun b => b = body) e with
  | none => none
  | some i =>
    let before := l.queue.take i
    let ok := if letterOf l.code = 7 then allDone c (sameChannel body) before
      else if letterOf l.code = 0 then frondReady c l before body
      else before.all fun e => e.done
    if ok then some i else none

/-- An entry of a list's queue is done; what it had taken is given up. -/
def markDone (l : ListSt) (i : Nat) : ListSt :=
  { l with queue := updAt i (fun e => { e with done := true, in0 := [], in1 := [], in2 := [] }) l.queue }

/-- The running command, its list and the queue entry that a row of a descriptor acts on; none when there is none. Log 38: DESIGN CHOICE. -/
def atWork (s : State) (p : Place) (body : DBody) : Option (Cmd × ListSt × Nat) :=
  match s.cmd p.cmd with
  | none => none
  | some c =>
    if c.phase ≠ .running then none
    else match c.list p.code with
      | none => none
      | some l => (entryOf c l body).map fun i => (c, l, i)

/-- The entry at a place of a list's queue. -/
def ListSt.entry (l : ListSt) (i : Nat) : QEntry := l.queue.getD i (QEntry.new l.first)

/-- The context's rounding key. -/
def keyOf (s : State) (c : Cmd) : Nat := ((s.ctx c.ctx).map fun x => x.roundKey).getD 0

/-- Whether an access of a descriptor is unanswered (R135, R321). -/
def awaitingDesc (s : State) (cmd desc : Nat) : Bool := s.fab.accesses.any fun x => x.cmd = cmd && x.desc = desc

/-- What a station sees of a command at an entry. -/
def benchOf (s : State) (c : Cmd) (l : ListSt) (i : Nat) : Bench :=
  ⟨settled c l, l.entry i, (inputOf s c l.code).2, (inputOf s c (4096 + l.code)).2, (inputOf s c (8192 + l.code)).2,
    awaitingDesc s c.id (l.entry i).index, keyOf s c, c.launch.iteration, c.gen,
    stationSlots (letterOf l.code) - queueSlots c.image.streams l.code⟩

/-- The command has moved a tile, issued a descriptor or completed a memory write (R143). -/
def progress (id : Nat) (s : State) : State := setCmd id (fun c => { c with progressBeat := s.beat.elapsed }) s

/-- A step that needs so many tiles of each port, all taken so far fit for their formats (R46): carried out once they are there. -/
def withTiles (b : Bench) (n0 n1 n2 c0 c1 c2 : Nat) (k : Work) : Work :=
  if (b.in0.any fun t => !t.ok c0) || (b.in1.any fun t => !t.ok c1) || b.in2.any fun t => !t.ok c2 then .fault 1
  else if b.in0.length < n0 || b.in1.length < n1 || b.in2.length < n2 then .need n0 n1 n2
  else k

/-- STREAM_CREDIT_RETURN (R141, R143): a freed slot takes the tile its producer holds. -/
def execStreamCreditReturn (cmd stream : Nat) (s : State) : Host.Outcome State Fault Refusal :=
  let moves := match (s.cmd cmd).bind fun c => c.streams[stream]? with
    | some e => decide (e.queue.length < e.spec.depth) && !e.held.isEmpty
    | none => false
  if moves then
    .next (progress cmd (setStream cmd stream (fun e => { e with queue := e.queue ++ e.held.take 1, held := e.held.drop 1 }) s))
  else .next s

end Sys2Proof.Machine
end

