-- ==== Sys2Proof/Machine/Access.lean ====
section
/-! DEFINITION. Fabric and memory accesses of agents (R315 to R330): issue at the source, delivery at the home, the
remote-read cache, completion. -/
namespace Sys2Proof.Machine

/-- The list code an agent code belongs to: a Front channel adds 4096 × channel, a store channel 65,536 more. Log 51: DESIGN CHOICE. -/
def agentList (agent : Nat) : Nat := agent % 4096

/-- Whether an access needs a write credit (R326). -/
def kindWrites : AccessKind → Bool
  | .load _ => false
  | .inval _ => false
  | _ => true

/-- Bytes that an access covers. -/
def kindSpan : AccessKind → Nat
  | .load n => n
  | .store d => d.length
  | .atomic _ _ _ => 8
  | .txn _ _ => 256
  | .inval n => n

/-- The next sequence number of an (agent, home) pair (R319). -/
def seqFor (tbl : List (Nat × Nat × Nat)) (agent home : Nat) : Nat :=
  match tbl.find? fun e => e.1 = agent && e.2.1 = home with
  | some e => e.2.2
  | none => 0

/-- The table with a pair's next number set. -/
def seqSet (tbl : List (Nat × Nat × Nat)) (agent home n : Nat) : List (Nat × Nat × Nat) :=
  (agent, home, n) :: tbl.filter fun e => !(e.1 = agent && e.2.1 = home)

/-- Blocks that a range overlaps leave the package's remote-read cache; `job` of none takes every job's (R328). Log 52: DESIGN CHOICE. -/
def dropBlocks (job : Option Nat) (a n : Nat) (s : State) : State :=
  let hit (b : CacheBlock) : Bool := (job = none || job = some b.job) && decide (b.addr < a + n) && decide (a < b.addr + 256)
  let k := (s.fab.rrc.filter hit).length
  if k = 0 then s
  else
    let s := { s with fab := { s.fab with
      rrc := s.fab.rrc.filter fun b => !hit b
      rrcInval := wrap32 (s.fab.rrcInval + k) } }
    s

/-- Loads outstanding for blocks of a range do not fill the cache (R328). Log 52: DESIGN CHOICE. -/
def spoilFills (a n : Nat) (s : State) : State :=
  let touches (x : Access) : Bool := decide (x.addr < a + n) && decide (a < x.addr + kindSpan x.kind)
  { s with fab := { s.fab with accesses := updBy (fun x => !kindWrites x.kind && touches x) (fun x => { x with noFill := true }) s.fab.accesses } }

/-- Writes of this package outstanding at a home. -/
def creditsUsed (s : State) (home : Nat) : Nat :=
  (s.fab.accesses.filter fun x => x.home = home && kindWrites x.kind && !x.held).length

/-- An access leaves for its home; a row of an exchange travels as itself (R199, R201). -/
def sendAccess (x : Access) (s : State) : State :=
  match x.row with
  | some r => sendFab x.home 0 (.row r) s
  | none => sendFab x.home 0 (.request x.agent x.seq x.addr x.kind) s

/-- An access is issued (R319, R326, R328): a write without a credit is held. -/
def issueAccess (o : Origin) (home addr : Nat) (kind : AccessKind) (sink : Sink) (bump : Option (Nat × Nat × Nat × Nat)) (s : State) : State :=
  let s := if kindWrites kind then spoilFills addr (kindSpan kind) (dropBlocks none addr (kindSpan kind) s) else s
  let seq := seqFor s.fab.seqOut o.agent home
  let held := kindWrites kind && decide (32 ≤ creditsUsed s home)
  let x : Access := ⟨s.fab.nextAccess, home, o.agent, o.cmd, o.desc, seq, s.beat.elapsed, held, false, false, addr, kind, sink, bump, none⟩
  let s := { s with fab := { s.fab with
    accesses := s.fab.accesses ++ [x]
    nextAccess := s.fab.nextAccess + 1
    seqOut := seqSet s.fab.seqOut o.agent home (seq + 1) } }
  if held then s else sendAccess x s

/-- The oldest write held for a home leaves when a credit is free (R326). -/
def releaseHeld (home : Nat) (s : State) : State :=
  if 32 ≤ creditsUsed s home then s
  else
    match s.fab.accesses.find? fun x => x.home = home && x.held with
    | none => s
    | some x =>
      sendAccess x { s with fab := { s.fab with
        accesses := updBy (fun y => y.id = x.id) (fun y => { y with held := false }) s.fab.accesses } }

/-- Bytes of a record of a KV page: payload, scales, filled to a multiple of 32 (R158). -/
def recordBytes (fmt headDim : Nat) : Nat × Nat × Nat :=
  match Fmt.ofCode fmt with
  | none => (0, 0, 0)
  | some f =>
    let hb := headDim * f.bits / 8
    let nb := if f.isMx then headDim / 32 else 0
    (hb, nb, (hb + nb + 31) / 32 * 32)

/-- Bytes of a layer's page (R158). -/
def Layer.pageBytes (l : Layer) : Nat := 64 * ((recordBytes l.kFormat l.headDim).2.2 + (recordBytes l.vFormat l.headDim).2.2)

/-- Bytes of a page-set (R159). -/
def setBytes (ls : List Layer) : Nat := (ls.map fun l => l.kvHeads * l.pageBytes).sum

/-- Whether a range lies in the KV pool of a model that a view of the context names (R162, R282). -/
def inViewPool (s : State) (h : Handle) (a n : Nat) : Bool :=
  h.kind = 1 && (match s.model h.modelId with
    | some m => decide (m.kvBase ≤ a) && decide (a + n ≤ m.kvBase + m.pageSets * setBytes m.manifest.layers)
    | none => false)

/-- Whether a range lies in the region of a handle, or in the old region of one that has moved (R284). -/
def inRegion (s : State) (h : Handle) (a n : Nat) : Bool :=
  (h.kind ≠ 1 && decide (h.base ≤ a) && decide (a + n ≤ h.base + h.span)) ||
    s.mem.regions.any fun g => g.owner = .moving h.id && decide (g.base ≤ a) && decide (a + n ≤ g.base + h.bytes)

/-- Whether a range lies in an allocation of the context with the right, in its counters, its striped part or a KV pool it
has a view of (R124, R278, R317). Right bits: 1 READ, 2 WRITE. Log 84: DESIGN CHOICE. -/
def ownsRange (s : State) (ctx a n : Nat) (write : Bool) : Bool :=
  s.mem.handles.any fun h => h.ctx = ctx &&
    ((tbit h.rights (if write then 1 else 0) && inRegion s h a n) || inViewPool s h a n)

/-- Bytes cut at every multiple of 256 (R316): offset and length of each piece. -/
def piecesFrom : Nat → Nat → Nat → Nat → List (Nat × Nat)
  | 0, _, _, _ => []
  | fuel + 1, a, off, n =>
    if n = 0 then []
    else
      let k := min n (256 - a % 256)
      (off, k) :: piecesFrom fuel (a + k) (off + k) (n - k)

/-- The pieces of a transfer. -/
def pieces (a n : Nat) : List (Nat × Nat) := piecesFrom (n / 256 + 2) a 0 n

/-- A sink moved on by an offset. -/
def Sink.shift : Sink → Nat → Sink
  | .none, _ => .none
  | .memory a, k => .memory (a + k)
  | .relay o a, k => .relay o (a + k)
  | .buffer c l o, k => .buffer c l (o + k)
  | .tile c st n o g, k => .tile c st n (o + k) g

/-- A tile takes arriving bytes at an offset of its image (R139, R123); what a gather makes holds nothing beyond its header
(R43 to R45). -/
def Tile.patch (off : Nat) (data : List Byte) (gather : Bool) (t : Tile) : Tile :=
  let im := t.image
  let u := { tileOfImage (im.take off ++ data ++ im.drop (off + data.length)) with last := t.last }
  if gather then u.clean else u

/-- A tile of a stream takes arriving bytes (R139, R123). -/
def patchTile (cmd st serial off : Nat) (gather : Bool) (data : List Byte) (s : State) : State :=
  setStream cmd st (fun e =>
    let j := serial - firstSerial e
    let put := Tile.patch off data gather
    if serial < firstSerial e then e
    else if j < e.queue.length then { e with queue := updAt j put e.queue }
    else { e with held := updAt (j - e.queue.length) put e.held }) s

/-- Bytes put in the buffer of a list. -/
def fillBuffer (o : Nat) (data : List Byte) (l : ListSt) : ListSt :=
  { l with buf := l.buf.map fun b => b.take o ++ data ++ b.drop (o + data.length) }

/-- Arriving data go to their sink; what is passed on stays part of the copy that asked for it. -/
def deliverFor (bump : Option (Nat × Nat × Nat × Nat)) (sink : Sink) (data : List Byte) (s : State) : State :=
  match sink with
  | .none => s
  | .memory a => applyWrite a data s
  | .relay o a =>
    match target s a with
    | .here x => applyWrite x data s
    | .remote home x => issueAccess o home x (.store data) .none bump s
    | .unmapped => s
  | .buffer c code o => setList c code (fillBuffer o data) s
  | .tile c st n o g => patchTile c st n o g data s

/-- Arriving data go to their sink. -/
def deliver (sink : Sink) (data : List Byte) (s : State) : State := deliverFor none sink data s

/-- A cacheable block of the job is found in the remote-read cache; it becomes the latest used (R327). -/
def cachedBlock (s : State) (job addr n : Nat) : Option CacheBlock :=
  s.fab.rrc.find? fun b => b.job = job && decide (b.addr ≤ addr) && decide (addr + n ≤ b.addr + 256)

/-- A remote load of one piece: from the cache, or a request (R327). -/
def loadPiece (o : Origin) (job home addr n : Nat) (sink : Sink) (s : State) : State :=
  match cachedBlock s job addr n with
  | some b =>
    let s := { s with fab := { s.fab with
      rrc := (s.fab.rrc.filter fun x => x ≠ b) ++ [b]
      rrcHits := wrap32 (s.fab.rrcHits + 1) } }
    deliver sink ((b.data.drop (addr - b.addr)).take n) s
  | none =>
    issueAccess o home addr (.load n) sink none
      { s with fab := { s.fab with rrcMisses := wrap32 (s.fab.rrcMisses + 1) } }

/-- Whether a home can be reached (R303, R318). Log 84: DESIGN CHOICE. -/
def homeUp (s : State) (home : Nat) : Bool := !s.fab.unreachable.contains home

/-- The outcome of a data access at the source: done or under way, or the cause of its failure (R318, R401). -/
inductive Moved where
  | ok (s : State)
  | bad (cause : Nat)
  deriving DecidableEq, Repr

/-- Bytes read for an agent of a command from a global address into a sink (R275, R316 to R318). -/
def loadTo (c : Cmd) (o : Origin) (addr n : Nat) (sink : Sink) (s : State) : Moved :=
  if addr % 32 ≠ 0 || n % 32 ≠ 0 then .bad 2
  else
    (pieces addr n).foldl (fun r (off, k) =>
      match r with
      | .bad x => .bad x
      | .ok s =>
        match target s (addr + off) with
        | .unmapped => .bad 2
        | .here a =>
          if !ownsRange s c.ctx a k false then .bad 2
          else if s.badAt a k then .bad 3
          else .ok (deliver (sink.shift off) (s.mem.read a k) s)
        | .remote home g =>
          if !homeUp s home then .bad 4
          else .ok (loadPiece o (((s.ctx c.ctx).map fun x => x.job).getD 0) home g k (sink.shift off) s)) (.ok s)

/-- Bytes written for an agent of a command to a global address (R316 to R318). -/
def storeTo (c : Cmd) (o : Origin) (addr : Nat) (data : List Byte) (s : State) : Moved :=
  if addr % 32 ≠ 0 then .bad 2
  else
    (pieces addr data.length).foldl (fun r (off, k) =>
      match r with
      | .bad x => .bad x
      | .ok s =>
        let bs := (data.drop off).take k
        match target s (addr + off) with
        | .unmapped => .bad 2
        | .here a => if ownsRange s c.ctx a k true then .ok (applyWrite a bs s) else .bad 2
        | .remote home g =>
          if !homeUp s home then .bad 4 else .ok (issueAccess o home g (.store bs) .none none s)) (.ok s)

/-- One move after another; the first failure stops the rest (R124, R318). -/
def eachMove {α : Type} (f : α → State → Moved) : List α → State → Moved × State
  | [], s => (.ok s, s)
  | x :: xs, s =>
    match f x s with
    | .bad e => (.bad e, s)
    | .ok s => eachMove f xs s

/-! ### At the home (R317 to R320, R324, R325) -/

/-- The handle of this package that a remote access of a job may use at a local byte (R317). Rights: 8 FABRIC, 16
CACHEABLE. -/
def homeHandle (s : State) (job a n : Nat) (write : Bool) : Option Handle :=
  s.mem.handles.find? fun h =>
    h.job = job && decide (h.base ≤ a) &&
      decide (a + n ≤ h.base + h.span) && h.kind ≠ 1 &&
      (h.kind = 2 || h.kind = 3 || tbit h.rights 3) && (!write || h.kind = 2 || tbit h.rights 1)

/-- Signed value of 64 bits. -/
def signed64 (n : Nat) : Int := if n % 2 ^ 64 < 2 ^ 63 then (n % 2 ^ 64 : Nat) else (n % 2 ^ 64 : Nat) - 2 ^ 64

/-- The new value of an atomic (R324); none for a reserved code. -/
def atomicNew (op old operand compare : Nat) : Option Nat :=
  match op with
  | 0 => some ((old + operand) % 2 ^ 64)
  | 1 => some (if signed64 operand < signed64 old then operand else old)
  | 2 => some (if signed64 old < signed64 operand then operand else old)
  | 3 => some (min old operand)
  | 4 => some (max old operand)
  | 5 => some operand
  | 6 => some (if old = compare then operand else old)
  | _ => none

/-- An atomic is applied to its 8 bytes (R324, R325). It may be folded into one of the same code that was applied to them in this beat with
nothing to their line between: whether the update still pends is timing, so FOLDED counts a free value (DESIGN CHOICE, log 145). Log 53: DESIGN CHOICE. -/
def applyAtomic (op a value : Nat) (s : State) : State :=
  let follows := op ≤ 4 && s.fab.lastAtomic = some (a, op, s.now)
  let (d, s) := if follows then draw s else (0, s)
  let s := applyWrite a (leBytes 8 value) s
  { s with fab := { s.fab with
      lastAtomic := some (a, op, s.now)
      folded := if follows && decide ((Config.drawn d).toNat % 2 = 1) then sat32 (s.fab.folded + 1) else s.fab.folded } }

/-- The local byte a request names at this home. -/
def localOf (s : State) (addr : Nat) : Option Nat :=
  match target s addr with
  | .here a => some a
  | _ => none

/-- An access applied at this home: the answer's data, its success and whether it may be cached (R316, R317, R324). A read that is
uncorrectable gives no data (R275). -/
def applyAt (job addr : Nat) (kind : AccessKind) (s : State) : State × Bool × Bool × List Byte :=
  match localOf s addr with
  | none => (s, false, false, [])
  | some a =>
    match kind with
    | .load n =>
      match homeHandle s job a n false with
      | some h =>
        if addr % 32 ≠ 0 || n % 32 ≠ 0 || s.badAt a n then (s, false, false, []) else (s, true, tbit h.rights 4, s.mem.read a n)
      | none => (s, false, false, [])
    | .store d =>
      if addr % 32 ≠ 0 || d.length % 32 ≠ 0 || (homeHandle s job a d.length true).isNone then (s, false, false, [])
      else (applyWrite a d s, true, false, [])
    | .atomic op operand compare =>
      if addr % 8 ≠ 0 || s.badAt a 8 || (homeHandle s job a 8 true).isNone then (s, false, false, [])
      else
        let old := leNat (s.mem.read a 8)
        match atomicNew op old operand compare with
        | none => (s, false, false, [])
        | some v => (applyAtomic op a v s, true, false, leBytes 8 old)
    | .txn _ _ => (s, false, false, [])
    | .inval _ => (s, false, false, [])

/-- Blocks of a job that a range overlaps leave the cache, and loads of the job under way do not fill it (R328). Log 52: DESIGN CHOICE. -/
def invalidate (job a n : Nat) (s : State) : State :=
  let mine (x : Access) : Bool := ((s.cmd x.cmd).bind fun c => (s.ctx c.ctx).map fun y => y.job) = some job
  let touches (x : Access) : Bool := decide (x.addr < a + n) && decide (a < x.addr + kindSpan x.kind)
  let s := dropBlocks (some job) a n s
  { s with fab := { s.fab with
      accesses := updBy (fun x => !kindWrites x.kind && mine x && touches x) (fun x => { x with noFill := true }) s.fab.accesses } }

/-- A transaction is staged, or answered at once: 2 late, 3 busy (R337). Every line is checked under R317. Log 85: DESIGN CHOICE. -/
def stageTxn (r : FabReq) (commit : Nat) (entries : List Byte) (s : State) : State × Option (Bool × List Byte) :=
  let lines := (List.range (entries.length / 304)).map fun i => leAt entries (304 * i) 8
  let ok := lines.all fun a => decide (a % 256 = 0) && (match localOf s a with
    | some x => (homeHandle s r.job x 256 true).isSome
    | none => false)
  let answer (n : Nat) : State × Option (Bool × List Byte) :=
    ({ s with fab := { s.fab with txnNot := sat32 (s.fab.txnNot + 1) } }, some (true, leBytes 8 n))
  if !ok then (s, some (false, []))
  else if commit ≠ 0 && beatLe commit s.now then answer 2
  else if 64 ≤ s.fab.txns.length then answer 3
  else
    let beat := if commit = 0 then beatAdd s.now 1 else commit
    ({ s with fab := { s.fab with txns := s.fab.txns ++ [⟨r.pkg, r.agent, r.seq, r.job, beat, entries, none⟩] } }, none)

/-- One request applied in its turn, and answered (R320, R321). Log 84: DESIGN CHOICE. -/
def serveRequest (r : FabReq) (s : State) : State :=
  match r.kind with
  | .txn commit entries =>
    let (s, ans) := stageTxn r commit entries s
    (match ans with
    | some (ok, d) => sendFab r.pkg 5 (.response r.agent r.seq ok false d) s
    | none => s)
  | .inval n => sendFab r.pkg 5 (.response r.agent r.seq true false []) (invalidate r.job r.addr n s)
  | k =>
    let (s, ok, cacheable, d) := applyAt r.job r.addr k s
    sendFab r.pkg 5 (.response r.agent r.seq ok cacheable d) s

/-- The counter that a list's head descriptor, a Z_WAIT, waits for (R332). Log 84: DESIGN CHOICE. -/
def waitsOn (c : Cmd) (l : ListSt) : Option Nat :=
  match l.queue.find? fun e => !e.done with
  | none => none
  | some e =>
    match c.image.descs[e.index]? with
    | none => none
    | some d => match d.body with
      | DBody.zWait f => some f.counter
      | _ => none

/-- The wait of a list on a touched counter takes the LIMITED bit of the packet (R423). -/
def flagList (c : Cmd) (a n : Nat) (limited : Bool) (l : ListSt) : ListSt :=
  match l.wait, waitsOn c l with
  | some (t, _), some k =>
    let at_ := 0x140000000000 + 8 * k
    if decide (at_ < a + n) && decide (a < at_ + 8) then { l with wait := some (t, limited) } else l
  | _, _ => l

/-- A packet that touches a counter marks the waits on it with its LIMITED bit (R423). Log 84: DESIGN CHOICE. -/
def flagWaits (a n : Nat) (limited : Bool) (s : State) : State :=
  if a + n ≤ 0x140000000000 || 0x140000080000 ≤ a then s
  else { s with jobs := { s.jobs with cmds := s.jobs.cmds.map fun c => { c with lists := c.lists.map (flagList c a n limited) } } }

/-- Requests held for their turn are applied as their turns come (R319). Log 84: DESIGN CHOICE. -/
def serveHeld : Nat → Nat → Nat → State → State
  | 0, _, _, s => s
  | fuel + 1, pkg, agent, s =>
    let next := seqFor s.fab.seqIn pkg agent
    match s.fab.heldIn.find? fun r => r.pkg = pkg && r.agent = agent && r.seq = next with
    | none => s
    | some r =>
      let s := { s with fab := { s.fab with
        heldIn := s.fab.heldIn.filter fun x => x ≠ r
        seqIn := seqSet s.fab.seqIn pkg agent (next + 1) } }
      let s := serveRequest r s
      let s := match localOf s r.addr with
        | some a => flagWaits a (kindSpan r.kind) r.limited s
        | none => s
      serveHeld fuel pkg agent s

/-- FABRIC_REQUEST (R317 to R321, R324, R325): aged requests are discarded, duplicates too; one out of turn is held. The turn
of an aged request passes with it. -/
def execFabricRequest (r : FabReq) (s : State) : Host.Outcome State Fault Refusal :=
  let age := (s.now + 1024 - r.issueLow % 1024) % 1024
  let next := seqFor s.fab.seqIn r.pkg r.agent
  if 512 ≤ age then
    let s := { s with fab := { s.fab with aged := sat32 (s.fab.aged + 1) } }
    if r.seq = next then
      .next (serveHeld s.fab.heldIn.length r.pkg r.agent
        { s with fab := { s.fab with seqIn := seqSet s.fab.seqIn r.pkg r.agent (next + 1) } })
    else .next s
  else
    if r.seq < next || s.fab.heldIn.any (fun x => x.pkg = r.pkg && x.agent = r.agent && x.seq = r.seq) then .next s
    else
      let s := { s with fab := { s.fab with heldIn := s.fab.heldIn ++ [r] } }
      .next (serveHeld s.fab.heldIn.length r.pkg r.agent s)

/-! ### Completion at the source -/

/-- A whole block that a cacheable load brought fills the cache; the least recently used of 131,072 goes (R327, R328).
Logs 52, 151: DESIGN CHOICE. -/
def fillCache (job : Nat) (x : Access) (data : List Byte) (s : State) : State :=
  match x.kind with
  | .load n =>
    if x.noFill || x.addr % 256 ≠ 0 || n ≠ 256 || (cachedBlock s job x.addr 256).isSome then s
    else
      let bs := s.fab.rrc ++ [⟨job, x.addr, data⟩]
      { s with fab := { s.fab with rrc := bs.drop (bs.length - 131072) } }
  | _ => s

/-- A local arrival counter is bumped (R323, R330). -/
def bumpCounter (i inc : Nat) (s : State) : State :=
  let a := 0x140000000000 + 8 * i
  flagWaits a 8 false (applyAtomic 0 a ((leNat (s.mem.read a 8) + inc) % 2 ^ 64) s)

/-- A copy has moved every byte: its counter is bumped at its home (R323, R332). -/
def endCopy (o : Origin) (bump : Nat × Nat × Nat × Nat) (s : State) : State :=
  let (_, home, i, inc) := bump
  if home = s.boot.pkg then bumpCounter i inc s
  else issueAccess o home (home * 2 ^ 49 + 0x140000000000 + 8 * i) (.atomic 0 inc 0) .none none s

/-- The command's job. -/
def jobOf (s : State) (cmd : Nat) : Nat :=
  ((s.cmd cmd).bind fun c => (s.ctx c.ctx).map fun x => x.job).getD 0

/-- An access has been answered (R318, R321, R326 to R328): its data land, its credit returns, the last one of a copy bumps
the copy's counter; a failed access ends its command. -/
def answerAccess (x : Access) (ok cacheable : Bool) (data : List Byte) (s : State) : State :=
  let s := { s with fab := { s.fab with accesses := s.fab.accesses.filter fun y => y.id ≠ x.id } }
  let s := releaseHeld x.home s
  if !ok then contextFault x.cmd 4 (agentList x.agent) (some x.desc) s
  else
    let s := if cacheable then fillCache (jobOf s x.cmd) x data s else s
    let s := deliverFor x.bump x.sink data s
    let s := match x.bump with
      | some b => if s.fab.accesses.any fun y => decide (y.bump = x.bump) then s else endCopy ⟨x.cmd, x.desc, x.agent⟩ b s
      | none => s
    progress x.cmd s

/-- FABRIC_RESPONSE (R318, R321, R326 to R328). -/
def execFabricResponse (r : FabResp) (s : State) : Host.Outcome State Fault Refusal :=
  match s.fab.accesses.find? fun x => x.id = r.access with
  | none => .next s
  | some x => .next (answerAccess x r.ok r.cacheable r.data s)

/-- REQUEST_AGED (R319): a request of this package is still in the fabric 512 beats after issue; a hop discards it and
its access fails by timeout. -/
def execRequestAged (access : Nat) (s : State) : Host.Outcome State Fault Refusal :=
  if s.fab.accesses.any fun x => x.id = access && !x.aged && !x.held && decide (x.issued + 512 ≤ s.beat.elapsed) then
    .next { s with fab := { s.fab with
      accesses := updBy (fun x => x.id = access) (fun x => { x with aged := true }) s.fab.accesses
      aged := sat32 (s.fab.aged + 1) } }
  else .next s

/-- FABRIC_ACCESS_TIMEOUT (R318): an access is unanswered for FAB.TIMEOUT.BEATS. -/
def execFabricAccessTimeout (access : Nat) (s : State) : Host.Outcome State Fault Refusal :=
  match s.fab.accesses.find? fun x => x.id = access with
  | none => .next s
  | some x =>
    if s.beat.elapsed < x.issued + s.fab.timeout then .next s
    else
    let s := { s with fab := { s.fab with accesses := s.fab.accesses.filter fun y => y.id ≠ access } }
    .next (contextFault x.cmd 4 (agentList x.agent) (some x.desc) (releaseHeld x.home s))

/-! ### Fabric sori (R336, R337) -/

/-- The lines of a transaction: local byte, whether it compares, mask, data. -/
def txnLines (s : State) (entries : List Byte) : List (Nat × Bool × Nat × List Byte) :=
  (List.range (entries.length / 304)).map fun i =>
    let e := (entries.drop (304 * i)).take 304
    ((localOf s (leAt e 0 8)).getD 0, leAt e 8 1 = 1, leAt e 16 32, (e.drop 48).take 256)

/-- The bytes of a line with the masked ones replaced. -/
def maskInto (mask : Nat) (old new : List Byte) : List Byte :=
  (List.zip old new).zipIdx.map fun ((o, n), i) => if tbit mask i then n else o

/-- The result word of a transaction goes to its source, this package itself among them (R336, R337). -/
def answerTxn (pkg agent seq result : Nat) (s : State) : State :=
  if pkg = s.boot.pkg then
    match s.fab.accesses.find? fun x => x.home = pkg && x.agent = agent && x.seq = seq with
    | some x => answerAccess x true false (leBytes 8 result) s
    | none => s
  else sendFab pkg 5 (.response agent seq true false (leBytes 8 result)) s

/-- A transaction commits (R337): every compare is checked, then every store applied, and the result answered. -/
def commitTxn (t : StagedTxn) (s : State) : State :=
  let ls := txnLines s t.entries
  let ok := ls.all fun (a, cmp, mask, d) => !cmp || (let old := s.mem.read a 256; maskInto mask old d = old)
  let s := { s with fab := { s.fab with txns := s.fab.txns.filter fun x => x ≠ t } }
  if ok then
    let s := ls.foldl (fun s (a, cmp, mask, d) => if cmp then s else applyWrite a (maskInto mask (s.mem.read a 256) d) s) s
    answerTxn t.pkg t.agent t.seq 0 s
  else
    answerTxn t.pkg t.agent t.seq 1
      { s with fab := { s.fab with txnNot := sat32 (s.fab.txnNot + 1) } }

/-- Transactions in ascending order of source package, engine and issue sequence (R337). Log 85: DESIGN CHOICE. -/
def txnBefore (a b : StagedTxn) : Bool :=
  decide (a.pkg < b.pkg) || (a.pkg = b.pkg && (decide (a.agent < b.agent) || (a.agent = b.agent && decide (a.seq < b.seq))))

/-- An element put in its place of an ordered list. -/
def insertBy {α : Type} (before : α → α → Bool) (x : α) : List α → List α
  | [] => [x]
  | y :: ys => if before x y then x :: y :: ys else y :: insertBy before x ys

/-- A list ordered; equal elements keep their order. -/
def sortBy {α : Type} (before : α → α → Bool) (xs : List α) : List α := xs.foldl (fun acc x => insertBy before x acc) []

/-- Fabric sori that commit at this beat (R337). Log 85: DESIGN CHOICE. -/
def commitTxns (s : State) : State :=
  (sortBy txnBefore (s.fab.txns.filter fun t => beatLe t.beat s.now)).foldl (fun s t => commitTxn t s) s

/-- FABRIC_SORUS_COMMIT (R337): phase 3. -/
def execFabricSorusCommit (s : State) : Host.Outcome State Fault Refusal := .next (commitTxns s)

end Sys2Proof.Machine
end

