-- ==== Sys2Proof/Machine/Power.lean ====
section
/-! DEFINITION. The power controller (chapter 15): the governor of phase 7, caps, trips, hints, telemetry, energy. -/
namespace Sys2Proof.Machine

/-- The activity ratio a as a fraction, clamped to 0 to 1 (R408, R411). Powers in milliwatts; with fewer than 50 beats
since the start the mean runs over those there are (DESIGN CHOICE, log 13). -/
def activity (s : State) : Nat × Nat :=
  let w := s.pwr.window
  let n := max 1 w.length
  let e := (w.map Prod.fst).sum
  let dsum := (w.map Prod.snd).sum
  let (num, den) := if s.pwr.suspect then (5, 4) else (s.pwr.ratioNum, s.pwr.ratioDen)
  let pn := e * num
  let pd := n * den
  let f := s.flash.fullPower.getD (min s.pwr.levelC s.pwr.levelD) 0
  let an := (pn - s.pwr.pIdle * pd) * 8 * n
  let ad := pd * (f - s.pwr.pIdle) * dsum
  if an = 0 then (0, 1) else if ad ≤ an then (1, 1) else (an, ad)

/-- The larger of two fractions. -/
def maxFrac (x y : Nat × Nat) : Nat × Nat := if x.1 * y.2 < y.1 * x.2 then y else x

/-- Whether a hint's span covers a beat (R413). Log 34: DESIGN CHOICE. -/
def Hint.covers (h : Hint) (beat : Nat) : Bool := decide (beatSpan h.start beat < h.span)

/-- The activity ratio with the DENSE hints in force (R413). -/
def hintedActivity (s : State) : Nat × Nat :=
  (s.pwr.hints.filter fun h => h.covers s.now && h.cls = 0 && decide (h.load ≠ 0)).foldl
    (fun a h => maxFrac a (if h.set = 2 then (h.load, 255) else if h.set = 0 then (2 * h.load, 765) else (h.load, 765)))
    (activity s)

/-- predicted(l, d) scaled by 8 times the denominator of a, in milliwatts (R411). -/
def predictedNum (s : State) (a : Nat × Nat) (l d : Nat) : Nat :=
  s.pwr.pIdle * a.2 * 8 + a.1 * (s.flash.fullPower.getD l 0 - s.pwr.pIdle) * d

/-- Whether predicted(l, d) does not exceed `pct` percent of a cap in watts. -/
def within (s : State) (a : Nat × Nat) (l d cap pct : Nat) : Bool :=
  decide (predictedNum s a l d * 100 ≤ cap * 1000 * a.2 * 8 * pct)

/-- The floor: predicted(PL8, 1) rounded up to a whole watt (R412). -/
def floorWatts (s : State) (a : Nat × Nat) : Nat := (predictedNum s a 8 1 + a.2 * 8000 - 1) / (a.2 * 8000)

/-- The fastest level whose full-duty prediction does not exceed the cap; PL8 when none (R412). Log 151: DESIGN CHOICE. -/
def capTarget (s : State) (a : Nat × Nat) : Nat :=
  ((List.range 9).find? fun l => within s a l 8 s.pwr.cap 100).getD 8

/-- The cap duty (R412). -/
def capDutyOf (s : State) (a : Nat × Nat) : Nat :=
  if within s a 8 8 s.pwr.cap 100 then 8
  else (([7, 6, 5, 4, 3, 2, 1] : List Nat).find? fun d => within s a 8 d s.pwr.cap 100).getD 1

/-- The beats between raises of the cap ceiling: 10 during a QUIET hint, else 50 (R412, R413). -/
def raiseInterval (s : State) : Nat :=
  if s.pwr.hints.any fun h => h.covers s.now && h.cls = 3 then 10 else 50

/-- Level of an engine: 0 prefill, 1 decode. -/
def levelOf (p : PwrSt) (e : Nat) : Nat := if e = 0 then p.levelC else p.levelD

/-- The power controller with an engine's level set. -/
def withLevel (p : PwrSt) (e l : Nat) : PwrSt := if e = 0 then { p with levelC := l } else { p with levelD := l }

/-- The power controller with the first beat of an engine's next raise set. -/
def withNoRaise (p : PwrSt) (e b : Nat) : PwrSt := if e = 0 then { p with noRaiseC := b } else { p with noRaiseD := b }

/-- The slowest of an engine's four levels (R410). -/
def targetLevel (s : State) (e : Nat) : Nat :=
  let p := s.pwr
  max (max (if e = 0 then p.reqC else p.reqD) p.capCeil)
    (max (s.thm.ceiling.getD 0) (if p.tripUntil.isSome then 8 else 0))

/-- A raise that is complete: ACLK rises one level (R406). -/
def completeRaise (e : Nat) (s : State) : State :=
  { s with pwr := { withLevel s.pwr e (levelOf s.pwr e - 1) with raises := s.pwr.raises.filter fun r => r.engine ≠ e } }

/-- One engine's level in phase 7 (R406, R410). Log 151: DESIGN CHOICE. -/
def governEngine (e : Nat) (s : State) : State :=
  let t := targetLevel s e
  let l := levelOf s.pwr e
  let under := s.pwr.raises.find? fun r => r.engine = e
  if l < t then
    emit (.voltage e t) { s with pwr := { withLevel s.pwr e t with raises := s.pwr.raises.filter fun r => r.engine ≠ e } }
  else if t < l then
    match under with
    | some r => if r.ready && decide (r.since + 8 ≤ s.beat.elapsed) then completeRaise e s else s
    | none =>
      if (if e = 0 then s.pwr.noRaiseC else s.pwr.noRaiseD) ≤ s.beat.elapsed then
        emit (.voltage e (l - 1))
          { s with pwr := { s.pwr with raises := s.pwr.raises ++ [⟨e, s.beat.elapsed, false⟩] } }
      else s
  else
    match under with
    | some _ => emit (.voltage e l) { s with pwr := { s.pwr with raises := s.pwr.raises.filter fun r => r.engine ≠ e } }
    | none => s

/-- Caps whose beat has come take effect, the last taken winning (R417); each CAP_SET is answered with the floor. Log 34: DESIGN CHOICE. -/
def applyCaps (s : State) : State × List CapWait :=
  let due := s.pwr.caps.filter fun c => beatLe c.beat s.now
  let sorted := due.filter (fun c => c.order = 0) ++ due.filter (fun c => c.order ≠ 0)
  let cap := (sorted.getLast?.map fun c => c.watts).getD s.pwr.cap
  ({ s with pwr := { s.pwr with cap := cap, caps := s.pwr.caps.filter fun c => !beatLe c.beat s.now } }, sorted)

/-- The state of CAP_UNATTAINABLE and the gap (R417); `fresh` when a cap takes effect now. -/
def markCap (fresh : Bool) (floor : Nat) (s : State) : State :=
  let un := decide (s.pwr.cap < floor)
  let tell := un && (fresh || !s.pwr.unattainable)
  let s := { s with pwr := { s.pwr with unattainable := un, floor := floor, gap := if un then floor - s.pwr.cap else 0 } }
  if tell then record 0x0602 2 pkgSource (leBytes 2 s.pwr.cap ++ leBytes 2 floor) s else s

/-- The thermal ceiling at the first hit, and the first beat of its next step: 100 beats on while hot, 1,000 while cool (R415). -/
def thermalHit (s : State) : State :=
  let t := s.thm
  let hot := t.hottest.any fun c => decide ((t.limit : Int) ≤ c)
  let cool := t.hottest.all fun c => decide (c + 2 ≤ (t.limit : Int))
  let t' := { t with
    hit := if hot && !t.atLimit then t.hit.hit else t.hit
    atLimit := hot
    stepAt := if hot && !t.atLimit then s.beat.elapsed + 100
      else if cool && t.coolSince.isNone then s.beat.elapsed + 1000 else t.stepAt
    ceiling := if hot && t.ceiling.isNone then some (min 8 (min s.pwr.levelC s.pwr.levelD + 1)) else t.ceiling
    coolSince := if cool then (if t.coolSince.isSome then t.coolSince else some s.beat.elapsed) else none }
  { s with thm := t' }

/-- Power-level and pacing decisions of phase 7 (R37, R406, R410 to R419). -/
def phase7 (s : State) : State :=
  let s := thermalHit s
  let (s, taken) := applyCaps s
  let a := hintedActivity s
  let floor := floorWatts s a
  let s := markCap (!taken.isEmpty) floor s
  let t := capTarget s a
  let c := s.pwr.capCeil
  let up := decide (t < c) && decide (s.pwr.capRaiseAt ≤ s.beat.elapsed) && within s a (c - 1) 8 s.pwr.cap 97
  let s := { s with pwr := { s.pwr with
    capCeil := if c < t then t else if up then c - 1 else c
    capRaiseAt := if up then s.beat.elapsed + raiseInterval s else s.pwr.capRaiseAt
    capDuty := capDutyOf s a } }
  let s := governEngine 1 (governEngine 0 s)
  let d := min s.pwr.capDuty (min s.thm.duty (if s.pwr.tripUntil.isSome then 1 else 8))
  let d := if s.pwr.levelC = 8 && s.pwr.levelD = 8 then d else 8
  let s := { s with pwr := { s.pwr with duty := d } }
  taken.foldl (fun s w =>
    if w.order = 2 then s
    else finish w.session w.tag 0x0601 (if w.watts < floor then stCapUnattainable else stOk) 0 (leBytes 4 floor) s) s

/-- Whether a beat is an issue beat at a duty (R419). -/
def issueBeat (beat d : Nat) : Bool := decide (beat % 8 * d / 8 < (beat % 8 + 1) * d / 8)

/-- CAP_SET takes its place among the waiting caps (R417). `order` 0 for a sorus commit, 1 for a direct command. -/
def queueCap (h : Hdr) (watts beat order : Nat) (s : State) : State :=
  { s with pwr := { s.pwr with caps := s.pwr.caps ++ [⟨watts, beat, h.session, h.tag, order⟩] } }

/-- CAP_SET (R417, R369). -/
def execCapSet (h : Hdr) (watts beat : Nat) (s : State) : Host.Outcome State Fault Refusal :=
  hosted (.capSet h watts beat) h ⟨0x0601, roleOperate, 0⟩
    (fun _ _ => badIf (decide (watts < 300) || decide (2000 < watts)))
    (fun _ s =>
      let b := if beat = 0 || beatLe beat s.now then beatAdd s.now 1 else beat
      queueCap h watts b 1 (accept h 0x0601 [] s)) s

/-- CAP_QUERY (R369). -/
def execCapQuery (h : Hdr) (s : State) : Host.Outcome State Fault Refusal :=
  hosted (.capQuery h) h ⟨0x0602, 0, 0⟩ noRanges
    (fun _ s => replyOk h 0x0602 (leBytes 4 s.pwr.cap ++ leBytes 4 s.pwr.floor ++ leBytes 4 s.pwr.mean ++
      leBytes 1 s.pwr.levelC ++ leBytes 1 s.pwr.levelD ++ leBytes 1 s.pwr.duty) s) s

/-- The energy counter of a queue (R421). Log 14: DESIGN CHOICE. -/
def queueEnergyOf (s : State) (i : Nat) : Nat :=
  match s.jobs.ctxs.find? fun c => c.num = i / 16 with
  | some c => ((c.queue (i % 16)).map fun q => q.energy / 10 ^ 9 % 2 ^ 64).getD 0
  | none => 0

/-- ENERGY_READ (R422, R369). -/
def execEnergyRead (h : Hdr) (kind first count : Nat) (s : State) : Host.Outcome State Fault Refusal :=
  hosted (.energyRead h kind first count) h ⟨0x0603, 0, 0⟩
    (fun _ _ => badIf (decide (1 < kind) || count = 0 || decide (1024 < count) ||
      decide ((if kind = 0 then 32 else 1024) < first + count)))
    (fun _ s => replyOk h 0x0603 (((List.range count).map fun i =>
      leBytes 8 (if kind = 0 then s.pwr.energy.getD (first + i) 0 else queueEnergyOf s (first + i))).flatten) s) s

/-- CAP_REGISTER_WRITE (R19, R417): out of range it is ignored; else stored, in force from the next phase 7. -/
def execCapRegisterWrite (watts : Nat) (s : State) : Host.Outcome State Fault Refusal :=
  if watts < 300 || 2000 < watts then .next s else .next { s with pwr := { s.pwr with cap := watts } }

/-- THERMAL_STEP (R415): every 100 beats one step slower while hot, or, after 1,000 cool beats, one step back. -/
def execThermalStep (s : State) : Host.Outcome State Fault Refusal :=
  let t := { s.thm with stepAt := s.beat.elapsed + 100 }
  if s.beat.elapsed < s.thm.stepAt then .next s
  else if t.atLimit then
    match t.ceiling with
    | none => .next s
    | some c =>
      if c < 8 then .next { s with thm := { t with ceiling := some (c + 1) } }
      else .next { s with thm := { t with duty := max 1 (t.duty - 1) } }
  else
    match t.coolSince with
    | none => .next s
    | some b =>
      if s.beat.elapsed < b + 1000 then .next s
      else if t.duty < 8 then .next { s with thm := { t with duty := t.duty + 1 } }
      else
        match t.ceiling with
        | none => .next s
        | some c => .next { s with thm := { t with ceiling := if c = 0 then none else some (c - 1) } }

/-- THERMAL_TRIP (R416, R451): at 115 °C issue stops, THERM_TRIP_L falls, the record is attempted. -/
def execThermalTrip (die sensor celsius : Nat) (s : State) : Host.Outcome State Fault Refusal :=
  if celsius < 115 then .next s else
  let s := { s with thm := { s.thm with tripped := true }, pins := { s.pins with thermTrip := true } }
  .next (record 0x0605 6 (sourceCode die 7 0) (leBytes 1 die ++ leBytes 1 sensor ++ leBytes 1 celsius) s)

/-- TELEMETRY_SAMPLE (R407): the latest sample of each rail. -/
def execTelemetrySample (samples : List RailSample) (s : State) : Host.Outcome State Fault Refusal :=
  let ids := samples.map fun r => r.rail
  .next { s with pwr := { s.pwr with rails := (s.pwr.rails.filter fun r => !ids.contains r.rail) ++ samples } }

/-- The rail group of a partition (R420): dies C0 to D3 are 0 to 5, the hub 6, HBM 7, LPDDR 8, AVDD_SER 9, VDD_OPT 10. -/
def railGroup (partition : Nat) : Nat :=
  if partition < 6 then partition
  else if partition < 12 then partition - 6
  else if partition < 19 then partition - 12
  else if partition < 23 then 7
  else if partition = 23 then 8
  else if partition = 26 then 10
  else if partition = 24 || partition = 25 || partition = 27 then 9
  else 6

/-- Energy in picojoules added to a counter in millijoules with its carried fraction (R422, log 14). -/
def addEnergy (mj carry pj : Nat) : Nat × Nat := ((mj + (carry + pj) / 10 ^ 9) % 2 ^ 64, (carry + pj) % 10 ^ 9)

/-- An estimate in microjoules of one rail group, scaled to picojoules by the group's measured energy over its estimated
energy; by 1.25 while telemetry is suspect; a group with no estimate is not scaled (R422, log 33). -/
def scaledEnergy (r : Reconcile) (suspect : Bool) (group uj : Nat) : Nat :=
  let e := r.estimate.getD group 0
  if suspect then uj * 1250000 else if e = 0 then uj * 10 ^ 6 else uj * 10 ^ 6 * r.measured.getD group 0 / e

/-- The queues' counters grow by their scaled shares (R421, R422): each share names a queue by its index and a rail
group. Log 33: DESIGN CHOICE. -/
def addQueueEnergy (r : Reconcile) (suspect : Bool) (s : State) : State :=
  r.queues.foldl (fun s (i, g, uj) =>
    setQueue (i / 16) (i % 16) (fun q => { q with energy := q.energy + scaledEnergy r suspect g uj }) s) s

/-- RECONCILE_MS (R409, R422, R437): energies in microjoules of one millisecond. The VIO estimate in milliwatts joins the measured
sum, and its part of partition 30 is not scaled (R407, R420). Log 33: DESIGN CHOICE. -/
def execReconcileMs (r : Reconcile) (s : State) : Host.Outcome State Fault Refusal :=
  let e := r.estimate.sum
  let m := r.measured.sum + s.pwr.vioEstimate
  let diff := if e < m then m - e else e - m
  let apart := decide (15 * m < 100 * diff) || decide (60000 < diff)
  let pass := r.phaseOk && r.rangeOk && r.stuckOk
  let bad := if apart then s.pwr.badRun + 1 else 0
  let good := if pass && !apart then s.pwr.goodRun + 1 else 0
  let finding := decide (21 ≤ bad)
  let wasSuspect := s.pwr.suspect
  let suspect := if finding && !pass then true else if 1000 ≤ good then false else wasSuspect
  let mask := bit (!r.phaseOk) + 2 * bit (!r.rangeOk) + 4 * bit (!r.stuckOk)
  let vio (i : Nat) : Nat := if i = 30 then min s.pwr.vioEstimate (r.partition.getD i 0) else 0
  let parts := (List.range 31).map fun i => addEnergy (s.pwr.energy.getD i 0) (s.pwr.carry.getD i 0)
    (scaledEnergy r suspect (railGroup i) (r.partition.getD i 0 - vio i) + vio i * 10 ^ 6)
  let total := addEnergy (s.pwr.energy.getD 31 0) (s.pwr.carry.getD 31 0) (if suspect then e * 1250000 else m * 10 ^ 6)
  let p := { s.pwr with
    badRun := if finding then 0 else bad
    goodRun := good
    suspect := suspect
    disagree := if finding then s.pwr.disagree.hit else s.pwr.disagree
    ratioNum := if e = 0 then s.pwr.ratioNum else m
    ratioDen := if e = 0 then s.pwr.ratioDen else e
    estimate := e / 1000
    measured := m / 1000
    mean := m / 1000
    energy := (parts ++ [total]).map Prod.fst
    carry := (parts ++ [total]).map Prod.snd }
  let s := addQueueEnergy r suspect { s with pwr := p }
  let s := { s with hlth := { s.hlth with boardService := if finding && !pass then true else if suspect then s.hlth.boardService else false } }
  .next (if finding then record 0x0601 3 pkgSource (leBytes 4 (e / 1000) ++ leBytes 4 (m / 1000) ++ leBytes 1 mask) s else s)

/-- REGULATOR_READY (R406): the regulator has reached the voltage; ACLK rises in phase 7 of a beat, the eighth of the raise at the
earliest. -/
def execRegulatorReady (engine : Nat) (s : State) : Host.Outcome State Fault Refusal :=
  match s.pwr.raises.find? fun r => r.engine = engine with
  | none => .next s
  | some _ =>
    .next { s with pwr := { s.pwr with raises := updBy (fun r => r.engine = engine) (fun r => { r with ready := true }) s.pwr.raises } }

/-- RAISE_TIMEOUT (R406): 100 beats on without a report the raise is abandoned, the old voltage commanded again, and no raise of the engine for 50
beats. -/
def execRaiseTimeout (engine : Nat) (s : State) : Host.Outcome State Fault Refusal :=
  match s.pwr.raises.find? fun r => r.engine = engine with
  | none => .next s
  | some r =>
    if r.ready || s.beat.elapsed < r.since + 100 then .next s
    else
    let l := levelOf s.pwr engine
    let s := emit (.voltage engine l) { s with pwr := { withNoRaise s.pwr engine (r.since + 150) with
      raises := s.pwr.raises.filter fun x => x.engine ≠ engine
      raiseFail := s.pwr.raiseFail.hit } }
    .next (record 0x0604 3 pkgSource (leBytes 1 engine ++ leBytes 1 (l - 1)) s)

/-- POWER_TRIP_ALERT (R418): the trip ceiling and duty hold for 1,000 beats from the next phase 7; an alert during the hold extends
it. -/
def execPowerTripAlert (rail current : Nat) (s : State) : Host.Outcome State Fault Refusal :=
  let s := { s with pwr := { s.pwr with tripUntil := some (s.beat.elapsed + 1001), trip := s.pwr.trip.hit } }
  .next (record 0x0603 4 pkgSource (leBytes 1 rail ++ leBytes 4 current) s)

/-- TRIP_HOLD_EXPIRE (R418): the hold ends once its beats are over. -/
def execTripHoldExpire (s : State) : Host.Outcome State Fault Refusal :=
  if s.pwr.tripUntil.any fun b => decide (b ≤ s.beat.elapsed) then .next { s with pwr := { s.pwr with tripUntil := none } } else .next s

/-- HINT_EXPIRE (R152): the pending hint at an index is dropped once its span has ended. -/
def execHintExpire (index : Nat) (s : State) : Host.Outcome State Fault Refusal :=
  if s.pwr.hints[index]?.any fun h => beatLe (beatAdd h.start h.span) s.now then
    .next { s with pwr := { s.pwr with hints := s.pwr.hints.eraseIdx index } }
  else .next s

/-- A hint joins its set; a full set of 8 gives up the hint with the earliest start (R152). A hint whose span has ended is
no longer pending. Log 34: DESIGN CHOICE. -/
def addHint (h : Hint) (s : State) : State :=
  let pending := s.pwr.hints.filter fun x => !beatLe (beatAdd x.start x.span) s.now
  let mine := pending.filter fun x => x.set = h.set
  if mine.length < 8 then { s with pwr := { s.pwr with hints := pending ++ [h] } }
  else
    let first := mine.foldl (fun b x => if beatBefore x.start b.start then x else b) (mine.headD h)
    { s with pwr := { s.pwr with
        hints := (pending.erase first) ++ [h]
        hintDrop := s.pwr.hintDrop.hit } }

end Sys2Proof.Machine
end

