-- ==== Sys2Proof/Machine/Carry.lean ====
section
/-! DEFINITION. How a station carries out a descriptor (R72, R78, R135, R139 to R145): it takes tiles into the step under way,
starts a step only when no port holds a tile back, and faults where a stream ends short. -/
namespace Sys2Proof.Machine

/-- The origin of an entry's accesses. -/
def originOf (c : Cmd) (l : ListSt) (i : Nat) : Origin := ⟨c.id, (l.entry i).index, l.code⟩

/-- Scale bytes written in place, or a row's bytes (R123, R124). -/
def writeOne (c : Cmd) (o : Origin) (w : MemWrite) (s : State) : Moved :=
  if !w.scale then storeTo c o w.addr w.data s
  else
    match target s w.addr with
    | .unmapped => .bad 2
    | .here x => if ownsRange s c.ctx x w.data.length true then .ok (applyWrite x w.data s) else .bad 2
    | .remote home g => if homeUp s home then .ok (issueAccess o home g (.store w.data) .none none s) else .bad 4

/-- Bytes read into the image of a tile in a stream (R123, R124). -/
def readOne (c : Cmd) (o : Origin) (st serial : Nat) (r : MemRead) (s : State) : Moved :=
  let sink : Sink := .tile c.id st serial r.place true
  if !r.scale then loadTo c o r.addr r.bytes sink s
  else
    match target s r.addr with
    | .unmapped => .bad 2
    | .here a =>
      if !ownsRange s c.ctx a r.bytes false then .bad 2
      else if s.badAt a r.bytes then .bad 3
      else .ok (deliver sink (s.mem.read a r.bytes) s)
    | .remote home g =>
      if homeUp s home then .ok (loadPiece o (((s.ctx c.ctx).map fun x => x.job).getD 0) home g r.bytes sink s) else .bad 4

/-- The reads of a gather's step into the tile it has just placed. -/
def readAll (c : Cmd) (o : Origin) (st serial : Option Nat) (rs : List MemRead) (s : State) : Moved × State :=
  match st, serial with
  | some st, some n => eachMove (readOne c o st n) rs s
  | _, _ => (.ok s, s)

/-- The counts of a station's status entry take those of a step (R57, R84, R490, R491). -/
def countMade (p : Place) (m : Made) (s : State) : State :=
  setNamed p.code (fun e => { e with
    saturated := sat32 (e.saturated + m.conv.sat)
    nanOut := sat32 (e.nanOut + m.conv.nan)
    roleA := sat32 (e.roleA + m.roleA)
    roleB := sat32 (e.roleB + m.roleB) }) s

/-- A failed residue check is charged to the station that carries the name (R84, R426). -/
def chargeMismatch (p : Place) (m : Made) (s : State) : State :=
  if !m.mismatch then s
  else match carrierCode s p.code with
    | some k => chargeFinding (.station (dieOf k) (letterOf k) (numOf k)) .residue s
    | none => s

/-- The entry after a step. -/
def QEntry.stepped (e : QEntry) (m : Made) : QEntry :=
  if m.more then
    { e with
      step := e.step + 1
      count := e.count + m.count
      in0 := e.in0.drop m.take0
      in1 := e.in1.drop m.take1
      in2 := e.in2.drop m.take2
      addrs := m.seen ++ e.addrs }
  else { e with done := true, in0 := [], in1 := [], in2 := [] }

/-- What a step leaves: the list's state and entry, its memory writes (the first that fails stops the rest: R124), its tiles in
the output queues, its reads, its counts. Log 37: DESIGN CHOICE. -/
def applyMade (p : Place) (c : Cmd) (l : ListSt) (i : Nat) (m : Made) (s : State) : State :=
  let o := originOf c l i
  let s := setList c.id p.code (fun x => { m.list with queue := updAt i (fun e => e.stepped m) x.queue }) s
  match eachMove (writeOne c o) m.writes s with
  | (.bad cause, s) => contextFault c.id cause p.code (some o.desc) s
  | (.ok s, _) =>
    let st := producedBy c p.code
    let serial := st.bind fun k => (c.streams[k]?).map fun e => e.carried
    let s := putTo c.id p.code 1 m.out1 (putTo c.id p.code 0 m.out0 s)
    match readAll c o st serial m.reads s with
    | (.bad cause, s) => contextFault c.id cause p.code (some o.desc) s
    | (.ok s, _) => chargeMismatch p m (progress c.id (countMade p m s))

/-- The first port that lacks tiles and has one to take; with `any` the first that lacks tiles at all. -/
def wanting (s : State) (c : Cmd) (b : Bench) (n0 n1 n2 : Nat) (any : Bool) : Option Nat :=
  let lacks (k n have_ : Nat) : Bool := decide (have_ < n) && (any || !(inputOf s c (4096 * k + b.list.code)).1.isEmpty)
  if lacks 0 n0 b.in0.length then some 0
  else if lacks 1 n1 b.in1.length then some 1
  else if lacks 2 n2 b.in2.length then some 2
  else none

/-- An entry takes the tile at the head of a port's queue; its slot falls free (R141). Log 37: DESIGN CHOICE. -/
def absorb (p : Place) (c : Cmd) (i port : Nat) (s : State) : State :=
  let w := 4096 * port + p.code
  match (inputOf s c w).1 with
  | [] => s
  | t :: _ =>
    let add (e : QEntry) : QEntry :=
      if port = 0 then { e with in0 := e.in0 ++ [t] } else if port = 1 then { e with in1 := e.in1 ++ [t] } else { e with in2 := e.in2 ++ [t] }
    progress c.id (takeFrom c.id w 1 (setEntry c.id p.code i add s))

/-- Result rows discarded so far that are not yet counted (R111). -/
def countNoted (p : Place) (c : Cmd) (i n : Nat) (e : QEntry) (s : State) : State :=
  if n ≤ e.noted then s
  else setEntry c.id p.code i (fun e => { e with noted := n }) (setNamed p.code (fun x => { x with roleA := sat32 (x.roleA + (n - e.noted)) }) s)

/-- One turn of a station at a descriptor, and whether another may follow at once (R141, R142, R145). Log 37: DESIGN CHOICE. -/
def turn (p : Place) (body : DBody) (op : Bench → Work) (note : Bench → Nat) (s : State) : State × Bool :=
  match atWork s p body with
  | none => (s, false)
  | some (c, l, i) =>
    if (portsOf body).2.any fun k => portHolds c (k * 4096 + p.code) then (s, false)
    else
      let b := benchOf s c l i
      let s := countNoted p c i (note b) b.entry s
      match op b with
      | .idle => (s, false)
      | .fault cause => (contextFault c.id cause p.code (some b.entry.index) s, false)
      | .make m => (applyMade p c l i m s, m.more)
      | .need n0 n1 n2 =>
        match wanting s c b n0 n1 n2 false with
        | some port => (absorb p c i port s, true)
        | none =>
          if (decide (b.in0.length < n0) && b.dry0) || (decide (b.in1.length < n1) && b.dry1) || (decide (b.in2.length < n2) && b.dry2) then
            (contextFault c.id 1 p.code (some b.entry.index) s, false)
          else match wanting s c b n0 n1 n2 true with
            | some port => (starve p.code port s, false)
            | none => (s, false)

/-- Turns of a station, as long as one may follow another. Logs 37, 112: DESIGN CHOICE. -/
def turns (p : Place) (body : DBody) (op : Bench → Work) (note : Bench → Nat) : Nat → State → State
  | 0, s => s
  | n + 1, s => match turn p body op note s with
    | (t, true) => turns p body op note n t
    | (t, false) => t

/-- A station carries out a descriptor as far as its tiles and its output queues allow (R141, R145), at most 16,384 turns in one
row (DESIGN CHOICE, log 112); `note` gives the result rows that it has discarded so far (R111). -/
def runNoted (p : Place) (body : DBody) (op : Bench → Work) (note : Bench → Nat) (s : State) : State := turns p body op note 16384 s

/-- A station that discards no rows carries out a descriptor. -/
def runStation (p : Place) (body : DBody) (op : Bench → Work) (s : State) : State := runNoted p body op (fun _ => 0) s

/-! ### Completion (R135, R142) -/

/-- Ports of a descriptor's output at its list: a Front fetch delivers to its channel. -/
def outputPorts : DBody → List Nat
  | .sFetch f => [f.channel]
  | b => (portsOf b).2

/-- Whether a descriptor's last output tiles are in their queues (R135). -/
def outputsPlaced (c : Cmd) (code : Nat) (b : DBody) : Bool := (outputPorts b).all fun p => !portHolds c (p * 4096 + code)

/-- Whether an entry of a list may complete: its work is done, its output is placed and its accesses are answered (R135). -/
def mayComplete (s : State) (c : Cmd) (code : Nat) (e : QEntry) : Bool :=
  e.done && !awaitingDesc s c.id e.index && (bodyOf c e).any (outputsPlaced c code)

/-- The entry of a list that may complete: any of a Front's and of a Frond's, the head of another station's (R78, R135, R145). -/
def completing (s : State) (c : Cmd) (l : ListSt) : Option Nat :=
  if letterOf l.code = 7 || letterOf l.code = 0 then l.queue.findIdx? (mayComplete s c l.code)
  else if l.queue.head?.any (mayComplete s c l.code) then some 0 else none

/-- Whether a stream that the list produces has carried another number of tiles than it declares (R142). Log 77: DESIGN CHOICE. -/
def tilesBroken (c : Cmd) (code : Nat) : Bool :=
  c.streams.any fun e => e.spec.producer % 4096 = code && e.spec.tiles ≠ 0 && decide (e.carried ≠ e.spec.tiles)

/-- An entry of a list completes: its signal is counted, its list moves on; with the last one the list's streams end (R135, R142).
Log 77: DESIGN CHOICE. -/
def completeEntry (id code i : Nat) (s : State) : State :=
  match (s.cmd id).bind fun c => (c.list code).map fun l => (c, l) with
  | none => s
  | some (c, l) =>
    match (l.queue[i]?).bind fun e => (c.image.descs[e.index]?).map fun d => (e, d) with
    | none => s
    | some (e, d) =>
      if d.signal && decide (0xFFFFFFFF ≤ c.events.getD d.event 0) then contextFault id 7 code (some e.index) s
      else
        let s := setCmd id (fun c => if d.signal then { c with events := updAt d.event (· + 1) c.events } else c) s
        let s := setList id code (fun l => { l with completed := l.completed + 1, queue := l.queue.eraseIdx i }) s
        let s := setNamed code (fun e => { e with descs := wrap32 (e.descs + 1) }) s
        if l.completed + 1 = l.count && tilesBroken c code then contextFault id 1 code (some e.index) s else s

/-- The next entry of a list that may complete does. -/
def completeNext (id code : Nat) (s : State) : State :=
  match (s.cmd id).bind fun c => (c.list code).map fun l => (c, l) with
  | none => s
  | some (c, l) =>
    if c.phase ≠ .running then s
    else match completing s c l with
      | none => s
      | some i => completeEntry id code i s

/-- The entry that a row acts on is done. Log 38: DESIGN CHOICE. -/
def finishEntry (p : Place) (i : Nat) (s : State) : State := setList p.cmd p.code (fun l => markDone l i) s

/-- The entry that a row acts on completes at issue, with no work done (R137, R138, R151). -/
def passEntry (p : Place) (i : Nat) (s : State) : State := completeEntry p.cmd p.code i (finishEntry p i s)

end Sys2Proof.Machine
end

