-- ==== Sys2Proof/Machine/Frond.lean ====
section
/-! DEFINITION. The matrix station (chapter 03): loads, passes, drains and element-wise products. -/
namespace Sys2Proof.Machine

/-- Elements of a row from a position; none where the row is invalid or the element lies at or past K_EXTENT, so that
it contributes nothing (R45). -/
def elems (f : Fmt) (t : Tile) (r from_ n : Nat) : List (Option Num) :=
  let row := t.row r
  if !row.valid then List.replicate n none
  else
    let payload := leNat row.data
    (List.range n).map fun i =>
      let k := from_ + i
      if k < t.kExtent then
        some (f.decodeScaled (payload / 2 ^ (k * f.bits) % 2 ^ f.bits) (row.scales.getD (k / 32) 0#8).toNat)
      else none

/-- The product of two elements; an absent one contributes nothing (R45, R49). -/
def prodOf (isFp32 : Bool) (a b : Option Num) : Num :=
  match a, b with
  | some x, some y => product isFp32 x y
  | _, _ => Num.zero

/-- Column `n` of a stationary set: K_COUNT positions of tile row `n` from K_BASE (R67). -/
def setColumn (f : Fmt) (e : SetSt) (n : Nat) : List (Option Num) := elems f e.tile n e.kBase e.kCount

/-- The results of one streaming row in the normal orientation (R65, R68, R69): `ld` is the load in force. Log 41: DESIGN CHOICE. -/
def normalRow (ld : Loaded) (fs fx : Fmt) (t : Tile) (r kBase : Nat) (cols : List (List (List (Option Num))))
    (old : List Word) : List Word :=
  let is32 := decide (fs = .fp32)
  let d := setDepth fs fx
  if ld.arrange = 2 then
    (List.range 64).map fun n =>
      (ld.sets.zipIdx.foldl (fun acc (e, i) =>
        let x := elems fx t r (kBase + d * i) e.kCount
        reduceInto acc (List.zipWith (prodOf is32) x ((cols.getD i []).getD n []))) (old.getD n 0#32))
  else
    (ld.sets.zipIdx.map fun (e, i) =>
      let x := elems fx t r kBase e.kCount
      (List.range 64).map fun n =>
        reduceInto (old.getD (64 * i + n) 0#32) (List.zipWith (prodOf is32) x ((cols.getD i []).getD n []))).flatten

/-- Position `k` of the 64 columns of a set; positions from K_COUNT hold zero (R67). -/
def setRow (cols : List (List (Option Num))) (e : SetSt) (k : Nat) : List (Option Num) :=
  (List.range 64).map fun n => if k < e.kCount then (cols.getD n []).getD k none else some Num.zero

/-- The results of one streaming row in the transposed orientation (R66, R68, R69). Log 41: DESIGN CHOICE. -/
def transposedRow (ld : Loaded) (fs fx : Fmt) (t : Tile) (r kBase : Nat) (cols : List (List (List (Option Num))))
    (old : List Word) : List Word :=
  let is32 := decide (fs = .fp32)
  let d := setDepth fs fx
  if ld.arrange = 1 then
    (List.range d).map fun k =>
      ld.sets.zipIdx.foldl (fun acc (e, i) =>
        let u := elems fx t r (kBase + 64 * i) 64
        reduceInto acc (List.zipWith (prodOf is32) u (setRow (cols.getD i []) e k))) (old.getD k 0#32)
  else
    (ld.sets.zipIdx.map fun (e, i) =>
      let u := elems fx t r kBase 64
      (List.range d).map fun k =>
        reduceInto (old.getD (d * i + k) 0#32) (List.zipWith (prodOf is32) u (setRow (cols.getD i []) e k))).flatten

/-- The bank with a number. -/
def ListSt.bank (l : ListSt) (n : Nat) : Bank := if n = 0 then l.bank0 else l.bank1

/-- The list with a bank set. -/
def ListSt.setBank (l : ListSt) (n : Nat) (b : Bank) : ListSt := if n = 0 then { l with bank0 := b } else { l with bank1 := b }

/-- F_LOAD (R67, R70, R88): in stall mode the sets are active at once, in shadow mode they wait for the swap. -/
def opFLoad (f : FLoadF) (b : Bench) : Work :=
  let build (ts : List Tile) : Work :=
    let new : Loaded := ⟨f.format, f.partner, f.arrange, ts.map fun t => ⟨t, f.kBase, f.kCount⟩⟩
    let l := b.list
    let l := if f.retain then { l with hold := retainAt l.hold f.holdBase ts } else l
    let l := if l.loadMode = 0 then { l with active := some new, shadow := none } else { l with shadow := some (b.entry.index, new) }
    .make { b.nothing with list := l, roleB := 1 }
  if f.fromHold then
    let ts := (List.range f.sets).map fun i => b.holdTile (f.holdBase + i)
    if ts.any fun t => !t.ok f.format then .fault 1 else build ts
  else withTiles b f.sets 0 0 f.format 0 0 (build b.in0)

/-- Row `r` of a run of tiles, 64 rows to a tile. -/
def tileAt (ts : List Tile) (r : Nat) : Tile := ts.getD (r / 64) Tile.blank

/-- The entries of a bank under LOAD (R77): FP32 tiles by row group and column piece. -/
def loadedRows (ts : List Tile) (rows width : Nat) : List (List Word) :=
  let pieces := (width + 63) / 64
  (List.range rows).map fun r =>
    (List.range width).map fun k =>
      let t := ts.getD (r / 64 * pieces + k / 64) Tile.blank
      if (t.row (r % 64)).valid && decide (k % 64 < t.kExtent) then rowWord (t.row (r % 64)) (k % 64) else 0#32

/-- Tags and VALID bits of the stationary rows of the sets in force (R79). Under STACK several tile rows form one column: set 0's
is taken (DESIGN CHOICE, log 39). -/
def colTagsOf (ld : Loaded) : List (Bool × Word) :=
  let of (e : SetSt) : List (Bool × Word) := (List.range 64).map fun n => ((e.tile.row n).valid, (e.tile.row n).tag)
  if ld.arrange = 1 then (ld.sets.map of).flatten else (ld.sets.take 1 |>.map of).flatten

/-- Results per row of a pass (R65, R66, R68). Log 113: DESIGN CHOICE. -/
def passWidth (f : FMmaF) (ld : Loaded) (d : Nat) : Nat :=
  let n := ld.sets.length
  if f.transposed then (if ld.arrange = 2 then d * n else d) else if ld.arrange = 2 then 64 else 64 * n

/-- A row of a bank at a pass's width: missing entries read as +0, those past it are dropped. Log 113: DESIGN CHOICE. -/
def atWidth (width : Nat) (ws : List Word) : List Word := (ws ++ List.replicate (width - ws.length) 0#32).take width

/-- One pass of F_MMA over its tiles, with the tiles of LOAD (R65 to R69, R76, R77, R84). No sum of a pass that fails its check is
added: which group failed is not known here (R83). A KEEP pass of another width or orientation than the bank's resizes its rows, and
the bank keeps its orientation: the spec is silent (DESIGN CHOICE, log 113). Log 41: DESIGN CHOICE. -/
def passOf (f : FMmaF) (l : ListSt) (ld : Loaded) (fs fx : Fmt) (ts init : List Tile) (fails : Bool) : ListSt :=
  let width := passWidth f ld (setDepth fs fx)
  let old := l.bank f.bank
  let base := (if f.init = 0 then old.acc else if f.init = 2 then loadedRows init f.rows width else List.replicate f.rows []).map (atWidth width)
  let cols := ld.sets.map fun e => (List.range 64).map (setColumn fs e)
  let acc := if fails then base else (List.range f.rows).map fun r =>
    let t := tileAt ts r
    if f.transposed then transposedRow ld fs fx t (r % 64) f.tileKBase cols (base.getD r [])
    else normalRow ld fs fx t (r % 64) f.tileKBase cols (base.getD r [])
  let rowTags := (List.range f.rows).map fun r => (((tileAt ts r).row (r % 64)).valid, ((tileAt ts r).row (r % 64)).tag)
  let bank : Bank :=
    if f.init = 0 then { old with acc := acc, poisoned := old.poisoned || fails }
    else ⟨true, fails, f.transposed, acc, rowTags, colTagsOf ld⟩
  l.setBank f.bank bank

/-- F_MMA (R65 to R69, R76 to R78, R84, R89, R93). A failed residue check poisons the bank. -/
def opFMma (f : FMmaF) (b : Bench) : Work :=
  let l := b.list
  let n := (f.rows + 63) / 64
  match l.active with
  | none => .fault 1
  | some ld =>
    match Fmt.ofCode ld.format, Fmt.ofCode f.format with
    | some fs, some fx =>
      if f.format ≠ ld.partner then .fault 1
      else if f.init = 0 && (!(l.bank f.bank).opened || decide ((l.bank f.bank).rowTags.length ≠ f.rows)) then .fault 1
      else
        let nInit := if f.init = 2 then n * ((passWidth f ld (setDepth fs fx) + 63) / 64) else 0
        let pass (ts : List Tile) : Work :=
          let l := if f.retain then { l with hold := retainAt l.hold f.holdBase ts } else l
          .make { b.nothing with list := passOf f l ld fs fx ts b.in2 b.entry.fails, mismatch := b.entry.fails }
        if f.fromHold then
          let ts := (List.range n).map fun i => b.holdTile (f.holdBase + i)
          if ts.any fun t => !t.ok f.format then .fault 1 else withTiles b 0 0 nInit 0 0 Fmt.fp32.code (pass ts)
        else withTiles b 0 n nInit 0 f.format Fmt.fp32.code (pass b.in1)
    | _, _ => .fault 1

/-- Rounding settings of a conversion at a station (R54, R58): ITERATION all ones takes the launch's value. -/
def Bench.rounding (b : Bench) (f : Fmt) (c : ConvF) : Rounding :=
  ⟨f, c.stochastic, b.key, c.tensorId, if c.iteration = 0xFFFFFFFF then b.iteration else c.iteration, c.rowBase, c.colBase⟩

/-- The drained view of a bank (R79): its rows by its results, or exchanged. No stationary tile row formed the results of
a transposed bank, so with TRANSPOSE_OUT their VALID bits and tags are free, the same whenever and wherever the bank is drained
(R78, R155; DESIGN CHOICE, log 39). -/
def drainView (bank : Bank) (exchange : Bool) : List LRow × Nat :=
  let num (w : Word) : Num := f32 w
  if !exchange then
    (List.zipWith (fun (t : Bool × Word) ws => ⟨t.1, t.2, ws.map num⟩) bank.rowTags bank.acc, (bank.acc.headD []).length)
  else
    let width := (bank.acc.headD []).length
    ((List.range width).map fun q =>
      let t := if bank.transposed then Config.positionTag bank.colTags q else bank.colTags.getD q (false, 0#32)
      ⟨t.1, t.2, bank.acc.map fun ws => num (ws.getD q 0#32)⟩, bank.acc.length)

/-- F_DRAIN (R78 to R80, R84, R90): a poisoned bank emits nothing and is counted. -/
def opFDrain (f : FDrainF) (b : Bench) : Work :=
  let bank := b.list.bank f.bank
  match Fmt.ofCode f.conv.format with
  | none => .fault 1
  | some fo =>
    if !bank.opened then .fault 1
    else if bank.poisoned then .make { b.nothing with roleA := 1 }
    else
      let (rows, width) := drainView bank f.transposeOut
      let (ts, st) := emitTiles (b.rounding fo f.conv) rows width
      .make { b.nothing with out0 := ts, conv := st }

/-- One pair of F_HAD (R61, R81): the tiles of its products. R91 gives the logical row and column of the first pair only: pair `i`
is taken to begin 64 rows further for each pair before it, at COL_BASE (DESIGN CHOICE, log 114). -/
def hadPair (g : Rounding) (fa fb : Fmt) (i : Nat) (a c : Tile) : List Tile × ConvStat :=
  let rows := (List.range 64).map fun r =>
    let x := elems fa a r 0 a.kExtent
    let y := elems fb c r 0 a.kExtent
    (⟨(a.row r).valid && (c.row r).valid, (a.row r).tag, List.zipWith (prodOf (decide (fa = .fp32))) x y⟩ : LRow)
  emitGroup g (64 * i) rows a.kExtent

/-- F_HAD (R61, R81, R82, R91): a pair of tiles a step. -/
def opFHad (f : FHadF) (b : Bench) : Work :=
  match Fmt.ofCode f.formatA, Fmt.ofCode f.formatB, Fmt.ofCode f.conv.format with
  | some fa, some fb, some fo =>
    let i := b.entry.step
    let pair (x y : Tile) : Work :=
      if x.kExtent ≠ y.kExtent then .fault 1
      else
        let (ts, st) := hadPair (b.rounding fo f.conv) fa fb i x y
        .make { b.nothing with
          take1 := 1, take2 := 1, out0 := ts, conv := st, more := decide (i + 1 < f.tiles) }
    if f.fromHold then
      let x := b.holdTile (f.holdBase + i)
      if !x.ok f.formatA then .fault 1 else withTiles b 0 0 1 0 0 f.formatB (pair x (b.in2.headD Tile.blank))
    else withTiles b 0 1 1 0 f.formatA f.formatB (pair (b.in1.headD Tile.blank) (b.in2.headD Tile.blank))
  | _, _, _ => .fault 1

/-- F_LOAD (R88). -/
def execFLoad (p : Place) (f : FLoadF) (s : State) : Host.Outcome State Fault Refusal :=
  .next (runStation p (.fLoad f) (opFLoad f) s)

/-- STATIONARY_SWAP (R72, R73): the filled shadow set becomes active once the rows of every earlier pass have entered. -/
def execStationarySwap (p : Place) (s : State) : Host.Outcome State Fault Refusal :=
  match s.cmd p.cmd with
  | none => .next s
  | some c => if c.phase = .running then .next (setList p.cmd p.code (settled c) s) else .next s

/-- A residue check of the pass at work has failed (R83, R84). -/
def noteFails (p : Place) (body : DBody) (s : State) : State :=
  match atWork s p body with
  | none => s
  | some (c, _, i) => setEntry c.id p.code i (fun e => { e with fails := true }) s

/-- F_MMA (R89). -/
def execFMma (p : Place) (f : FMmaF) (residueFails : Bool) (s : State) : Host.Outcome State Fault Refusal :=
  .next (runStation p (.fMma f) (opFMma f) (if residueFails then noteFails p (.fMma f) s else s))

/-- F_DRAIN (R79). -/
def execFDrain (p : Place) (f : FDrainF) (s : State) : Host.Outcome State Fault Refusal :=
  .next (runStation p (.fDrain f) (opFDrain f) s)

/-- F_HAD (R81). -/
def execFHad (p : Place) (f : FHadF) (s : State) : Host.Outcome State Fault Refusal :=
  .next (runStation p (.fHad f) (opFHad f) s)

end Sys2Proof.Machine
end

