-- ==== Sys2Proof/Machine/Transcend.lean ====
section
/-! DEFINITION. The functions exp, log, sin, cos, tanh and rsqrt of R99. Each is evaluated in fixed point to far
beyond FP32, rounded to FP32, and moved by a free offset of at most 2 ulp that depends only on the function and the
operand bits (DESIGN CHOICE, log 3). Operands whose result is exact (exp 0, log 1, sin 0, cos 0, tanh 0) are not moved (DESIGN CHOICE, log 3). -/
namespace Sys2Proof.Machine

/-- Fractional bits of the fixed-point evaluation. -/
def fxBits : Nat := 224

/-- One in fixed point. -/
def fxOne : Int := 2 ^ 224

/-- The natural logarithm of 2 in fixed point. -/
def fxLn2 : Int := 18687211020381960287278961438292188228571477255688502128730264377179

/-- Two pi in fixed point; R107 asks for 96 bits or more. -/
def fxTwoPi : Int := 169394340781386161353548496392429742335059390090588680449301447308593

/-- The fixed-point floor of a finite value. -/
def fxOf (s : Bool) (m : Nat) (e : Int) : Int :=
  let k := e + fxBits
  let a : Int := if 0 ≤ k then (m * 2 ^ k.toNat : Nat) else (m >>> (-k).toNat : Nat)
  if s then -a else a

/-- A fixed-point number as an exact value. -/
def fxNum (a : Int) (shift : Int) : Num := .fin (a < 0) a.natAbs (shift - fxBits)

/-- Fixed-point product. -/
def fxMul (a b : Int) : Int := a * b / fxOne

/-- Taylor sum of exp over `fuel` more terms, the present term being number `n`. -/
def expTaylor (r : Int) : Nat → Nat → Int → Int
  | 0, _, t => t
  | fuel + 1, n, t => t + expTaylor r fuel (n + 1) (fxMul t r / (n + 1 : Nat))

/-- exp of a fixed-point argument: a fixed-point mantissa and a power of two. -/
def fxExp (x : Int) : Int × Int :=
  let k := x / fxLn2
  (expTaylor (x - k * fxLn2) 60 0 fxOne, k)

/-- Sum of z^(2n+1)/(2n+1). -/
def atanhSeries (z2 : Int) : Nat → Nat → Int → Int
  | 0, _, _ => 0
  | fuel + 1, n, p => p / (2 * n + 1 : Nat) + atanhSeries z2 fuel (n + 1) (fxMul p z2)

/-- The natural logarithm of a positive magnitude m * 2^e. -/
def fxLog (m : Nat) (e : Int) : Int :=
  let l := Nat.log2 m
  let mant : Int := (m * 2 ^ fxBits / 2 ^ l : Nat)
  let z := (mant - fxOne) * fxOne / (mant + fxOne)
  2 * atanhSeries (fxMul z z) 75 0 z + ((l : Int) + e) * fxLn2

/-- Alternating Taylor sum of sin or cos: the present term has degree `n`. -/
def trigTaylor (r2 : Int) : Nat → Nat → Int → Int
  | 0, _, _ => 0
  | fuel + 1, n, t => t + trigTaylor r2 fuel (n + 2) (-(fxMul t r2) / ((n + 1) * (n + 2) : Nat))

/-- An angle reduced modulo two pi into -pi to pi. -/
def fxReduce (a : Int) : Int :=
  let r := a % fxTwoPi
  if 2 * r > fxTwoPi then r - fxTwoPi else r

/-- sin of an exact angle. -/
def fxSin (a : Int) : Int := let r := fxReduce a; trigTaylor (fxMul r r) 36 1 r

/-- cos of an exact angle. -/
def fxCos (a : Int) : Int := let r := fxReduce a; trigTaylor (fxMul r r) 36 0 fxOne

/-- A value below 2^-60 in magnitude, where sin and tanh round to their argument. -/
def isTiny (m : Nat) (e : Int) : Bool := m = 0 || Num.topExp m e < -60

/-- Movement of a finite FP32 result by `off` - 2 units in the last place, staying within finite non-zero
magnitudes of the same sign. Log 3: DESIGN CHOICE. -/
def moveUlps (w : Word) (off : Fin 5) : Word :=
  let mag := w.toNat % 2 ^ 31
  if mag = 0 ∨ 0x7F800000 ≤ mag then w
  else
    let m := min (max (mag + off.val - 2) 1) 0x7F7FFFFF
    BitVec.ofNat 32 (w.toNat / 2 ^ 31 * 2 ^ 31 + m)

/-- A transcendental result: the correctly rounded value moved by the free offset of R99. Log 3: DESIGN CHOICE. -/
def withUlp (fn : Nat) (operand : Word) (exact : Num) : Word :=
  moveUlps (toF32 exact) (Config.ulpOffset fn operand)

/-- exp (R99). Log 3: DESIGN CHOICE. -/
def fexp (a : Word) : Word :=
  match f32 a with
  | .nan => nan32
  | .inf s => if s then 0#32 else 0x7F800000#32
  | .fin s m e =>
    if m = 0 then one32
    else if 8 ≤ Num.topExp m e then (if s then 0#32 else 0x7F800000#32)
    else let (t, k) := fxExp (fxOf s m e); withUlp 0 a (fxNum t k)

/-- log (R99). Log 3: DESIGN CHOICE. -/
def flog (a : Word) : Word :=
  match f32 a with
  | .nan => nan32
  | .inf s => if s then nan32 else 0x7F800000#32
  | .fin s m e =>
    if m = 0 then negInf32
    else if s then nan32
    else if a = one32 then 0#32
    else withUlp 1 a (fxNum (fxLog m e) 0)

/-- sin of an exact angle, to FP32; the operand bits of the free offset are the angle rounded to FP32. -/
def sinExact (x : Num) : Word :=
  match x with
  | .fin s m e =>
    if m = 0 then toF32 x
    else if isTiny m e then withUlp 2 (toF32 x) x
    else withUlp 2 (toF32 x) (fxNum (fxSin (fxOf s m e)) 0)
  | _ => nan32

/-- cos of an exact angle, to FP32. -/
def cosExact (x : Num) : Word :=
  match x with
  | .fin s m e =>
    if m = 0 then one32 else withUlp 3 (toF32 x) (fxNum (fxCos (fxOf s m e)) 0)
  | _ => nan32

/-- tanh (R99). -/
def ftanh (a : Word) : Word :=
  match f32 a with
  | .nan => nan32
  | .inf s => if s then 0xBF800000#32 else one32
  | .fin s m e =>
    if m = 0 then a
    else if isTiny m e then withUlp 4 a (.fin s m e)
    else if 6 ≤ Num.topExp m e then withUlp 4 a (.fin s 1 0)
    else
      let (t, k) := fxExp (fxOf false m (e + 1))
      let ex := fxNum t k
      let r := Num.div (Num.add ex (.fin true 1 0)) (Num.add ex (.fin false 1 0))
      withUlp 4 a (match r with | .fin _ m' e' => .fin s m' e' | y => y)

/-- rsqrt (R99). -/
def frsqrt (a : Word) : Word :=
  match f32 a with
  | .nan => nan32
  | .inf s => if s then nan32 else 0#32
  | .fin s m e =>
    if m = 0 then (if s then 0xFF800000#32 else 0x7F800000#32)
    else if s then nan32
    else withUlp 5 a (Num.div (.fin false 1 0) (Num.sqrt (.fin false m e)))

/-- 2^x of an exact argument, rounded to FP32: the frequency of R107, which is no function of R99's list. Log 3: DESIGN CHOICE. -/
def exp2Exact (x : Num) : Word :=
  match x with
  | .fin s m e =>
    if m = 0 then one32
    else if 9 ≤ Num.topExp m e then (if s then 0#32 else 0x7F800000#32)
    else
      let f := fxOf s m e
      let k := f / fxOne
      let (t, j) := fxExp (fxMul (f - k * fxOne) fxLn2)
      toF32 (fxNum t (j + k))
  | .inf s => if s then 0#32 else 0x7F800000#32
  | .nan => nan32

/-- The base-2 logarithm of a positive FP32 value, as an exact fixed-point value. -/
def log2Exact (a : Word) : Num :=
  match f32 a with
  | .fin false m e =>
    if m = 0 then .inf true
    else fxNum (fxLog m e * fxOne / fxLn2) 0
  | .inf false => .inf false
  | _ => .nan

/-- The logistic function of R103, step by step. -/
def fsigma (a : Word) : Word := fdiv one32 (fadd one32 (fexp (a ^^^ 0x80000000#32)))

end Sys2Proof.Machine
end

