-- ==== Sys2Proof/Machine/Crozier.lean ====
section
/-! DEFINITION. The vector station (R95 to R116): its eight operations over row groups and pieces. -/
namespace Sys2Proof.Machine

/-- The FP32 values of a logical row (R62). -/
def LRow.words (l : LRow) : List Word := l.vals.map toF32

/-- Whether a tile ends its row group: it says so, or it is short (R97). Log 111: DESIGN CHOICE. -/
def Tile.ends (t : Tile) (f : Fmt) : Bool := t.last || decide (t.kExtent < f.tileK)

/-- Elements of a row group's rows: whole pieces, and the last one's K_EXTENT. -/
def groupLen (f : Fmt) (g : List Tile) : Nat := f.tileK * (g.length - 1) + ((g.getLast?.map fun t => t.kExtent).getD 0)

/-- Whether the tiles taken from IN0 are a row group: the last of them ends it, or its stream has ended. Log 111: DESIGN CHOICE. -/
def Bench.closed (b : Bench) (f : Fmt) : Bool :=
  match b.in0.getLast? with
  | some t => t.ends f || b.dry0
  | none => false

/-- `n` row groups of `k` pieces each (R97). -/
def fixedGroups (k n : Nat) (ts : List Tile) : List (List Tile) :=
  (List.range n).map fun i => (ts.drop (i * k)).take k

/-- The piece results of a row, added to +0 in ascending order (R100). -/
def pieceSums (k : Nat) (ws : List Word) : Word := ((chunks k ws).map treeSum).foldl fadd 0#32

/-- An FP32 tile of 64 words a row (R98): validity, tag and the first words of each row. Log 39: DESIGN CHOICE. -/
def wordTile (kExtent : Nat) (rows : List (Bool × Word × List Word)) : Tile :=
  ⟨Fmt.fp32.code, kExtent, rows.map fun (v, t, ws) => if v then wordsRow v t ws else ⟨false, t, [], []⟩, true⟩

/-- Word `c` of a row of an FP32 tile; invalid rows and columns past K_EXTENT read as zero (R45). -/
def wordOf (t : Tile) (r c : Nat) : Word := if (t.row r).valid && decide (c < t.kExtent) then rowWord (t.row r) c else 0#32

/-! ### V_EWISE (R102, R103) -/

/-- The function of V_EWISE, step by step in FP32 (R103). -/
def ewise (func : Nat) (c0 c1 a b : Word) : Word :=
  match func with
  | 0 => a
  | 1 => fadd a b
  | 2 => fsub a b
  | 3 => fmul a b
  | 4 => fadd (fmul c0 a) (fmul c1 b)
  | 5 => fadd (fmul c0 a) c1
  | 6 => fmax a 0#32
  | 7 => fmul a (fsigma a)
  | 8 =>
    let cube := fmul (fmul a a) a
    let inner := fmul 0x3F4C422A#32 (fadd a (fmul 0x3D372713#32 cube))
    fmul (fmul 0x3F000000#32 a) (fadd one32 (ftanh inner))
  | 9 => fmul (fmul a (fsigma a)) b
  | 10 => fmul a a
  | 11 => fexp (fmul c0 a)
  | _ => fmin (fmax a c0) c1

/-- V_EWISE (R97, R102, R103), a row group of A a step, or what the TILES left need of one: B's pieces are matched to the columns
taken. VALID bits and tags of the output are A's (DESIGN CHOICE, log 115). Log 41: DESIGN CHOICE. -/
def opVEwise (f : EwiseF) (b : Bench) : Work :=
  match Fmt.ofCode f.formatA, Fmt.ofCode f.conv.format with
  | some fa, some fo =>
    let left := f.tiles - b.entry.count
    let len := groupLen fa b.in0
    let fb := (Fmt.ofCode f.formatB).getD .fp32
    let nb := if ewiseTakesB f.func then pieceCount fb len else 0
    let whole := b.closed fa || (!b.in0.isEmpty && decide (left * fo.tileK ≤ len))
    withTiles b (if whole then b.in0.length else b.in0.length + 1) nb 0 f.formatA f.formatB 0 (
      let width := min len (left * fo.tileK)
      let rb := readGroup fb len b.in1
      let rows := (readGroup fa len b.in0).zipIdx.map fun ((l, i) : LRow × Nat) =>
        let other := (rb.getD (if f.bcastB then 0 else i) ⟨false, 0#32, []⟩).words
        if l.valid then
          (⟨true, l.tag, (l.words.zipIdx.take width).map fun (x, k) => f32 (ewise f.func f.c0 f.c1 x (other.getD k 0#32))⟩ : LRow)
        else ⟨false, l.tag, []⟩
      let (ts, st) := emitGroup (b.rounding fo f.conv) (64 * b.entry.step) rows width
      .make { b.nothing with
        take0 := b.in0.length, take1 := nb, out0 := ts, conv := st, count := ts.length, more := decide (ts.length < left) })
  | _, _ => .fault 1

/-! ### V_SOFTMAX (R104, R105) -/

/-- Running statistics of a row: m and s_sum (R104). -/
def softStep (st : Word × Word) (piece : List Word) : Word × Word :=
  let mn := fmax st.1 (piece.foldl fmax negInf32)
  if mn = negInf32 then st
  else
    let s := fmul st.2 (if st.1 = negInf32 then 0#32 else fexp (fsub st.1 mn))
    (mn, fadd s (treeSum (piece.map fun x => fexp (fsub x mn))))

/-- Statistics of a row of scaled elements in pieces of `k` (R104). -/
def softStats (k : Nat) (xs : List Word) : Word × Word := (chunks k xs).foldl softStep (negInf32, 0#32)

/-- lse of the statistics: −∞ when s_sum is 0 (R104). -/
def lseOf (st : Word × Word) : Word := if st.2 = 0#32 then negInf32 else fadd st.1 (flog st.2)

/-- V_SOFTMAX (R104, R105), a row group a step. -/
def opVSoftmax (f : SoftmaxF) (b : Bench) : Work :=
  match Fmt.ofCode f.format with
  | none => .fault 1
  | some fi =>
    let n := pieceCount fi f.rowLen
    let ns := if f.scaleSrc then 1 else 0
    withTiles b n ns 0 f.format Fmt.fp32.code 0 (
      let rows : List (LRow × (Word × Word) × (Word × Word) × List Num) :=
        (readGroup fi f.rowLen b.in0).zipIdx.map fun ((l, r) : LRow × Nat) =>
          let sc := if f.scaleSrc then wordOf (b.in1.headD Tile.blank) r 0 else f.scale
          let raw := l.words
          let xs := raw.map fun x => fmul x sc
          let st := softStats fi.tileK xs
          let one := softStats fi.tileK raw
          let y := xs.map fun x => if st.1 = negInf32 then Num.zero else f32 (fdiv (fexp (fsub x st.1)) st.2)
          (l, st, one, y)
      let stats := wordTile 64 (rows.map fun (l, st, one, _) =>
        (l.valid, l.tag, [st.1, lseOf st] ++ if f.dual then [one.1, lseOf one] else []))
      let m := { b.nothing with
        take0 := n, take1 := ns, out1 := if f.stats || f.statsOut then [stats] else [], more := decide (b.entry.step + 1 < f.rowGroups) }
      if f.stats then .make m
      else
        match Fmt.ofCode f.conv.format with
        | none => .fault 1
        | some fo =>
          let (ts, st) := emitGroup (b.rounding fo f.conv) (64 * b.entry.step)
            (rows.map fun (l, _, _, y) => (⟨l.valid, l.tag, if l.valid then y else []⟩ : LRow)) f.rowLen
          .make { m with out0 := ts, conv := st })

/-! ### V_NORM (R106) -/

/-- A row vector from one-row tiles in piece order. -/
def vectorOf (f : Fmt) (len : Nat) (ts : List Tile) : List Word := ((readGroup f len ts).headD ⟨false, 0#32, []⟩).words

/-- r, and mu for a layer norm, of a row (R106). -/
def normStats (f : NormF) (k : Nat) (xs : List Word) : Word × Word :=
  let n := ofNat32 f.rowLen
  let mu := if f.layer then fdiv (pieceSums k xs) n else 0#32
  let ys := if f.layer then xs.map fun x => fsub x mu else xs
  (frsqrt (fadd (fdiv (pieceSums k (ys.map fun y => fmul y y)) n) f.eps), mu)

/-- V_NORM (R106), a row group a step; the vectors are taken once and kept. -/
def opVNorm (f : NormF) (b : Bench) : Work :=
  match Fmt.ofCode f.format, Fmt.ofCode f.conv.format with
  | some fi, some fo =>
    let fg := (Fmt.ofCode f.gbFormat).getD .fp32
    let n := pieceCount fi f.rowLen
    withTiles b n (if f.gain then pieceCount fg f.rowLen else 0) (if f.bias then pieceCount fg f.rowLen else 0)
      f.format f.gbFormat f.gbFormat (
      let gain := vectorOf fg f.rowLen b.in1
      let bias := vectorOf fg f.rowLen b.in2
      let rows := (readGroup fi f.rowLen b.in0).map fun (l : LRow) =>
        let xs := l.words
        let (r, mu) := normStats f fi.tileK xs
        let y := xs.zipIdx.map fun (x, i) =>
          let z := fmul (if f.layer then fsub x mu else x) r
          let z := if f.gain then fmul z (gain.getD i 0#32) else z
          f32 (if f.layer then fadd z (if f.bias then bias.getD i 0#32 else 0#32) else z)
        (l, r, mu, y)
      let stats := wordTile 64 (rows.map fun (l, r, mu, _) => (l.valid, l.tag, if f.layer then [r, mu] else [r]))
      let (ts, st) := emitGroup (b.rounding fo f.conv) (64 * b.entry.step)
        (rows.map fun (l, _, _, y) => (⟨l.valid, l.tag, if l.valid then y else []⟩ : LRow)) f.rowLen
      .make { b.nothing with
        take0 := n
        out0 := ts
        out1 := if f.statsOut then [stats] else []
        conv := st
        more := decide (b.entry.step + 1 < f.rowGroups) })
  | _, _ => .fault 1

/-! ### V_ROPE (R107, R108) -/

/-- The frequency of a pair (R107). -/
def ropeFreq (f : RopeF) (i : Nat) : Word :=
  let e := Num.mul (Num.div (.fin true (2 * i) 0) (.fin false f.rotDim 0)) (log2Exact f.base)
  fmul (exp2Exact e) f.freqScale

/-- A pair rotated (R107): exact products, one rounding. -/
def rotatePair (inverse : Bool) (c s x0 x1 : Num) : Num × Num :=
  let a := Num.mul x0 c
  let b := Num.mul x1 s
  let d := Num.mul x0 s
  let e := Num.mul x1 c
  if inverse then (f32 (toF32 (Num.add a b)), f32 (toF32 (Num.add d.neg e)))
  else (f32 (toF32 (Num.add a b.neg)), f32 (toF32 (Num.add d e)))

/-- One head rotated at a position (R107). -/
def ropeHead (f : RopeF) (freqs : List Word) (pos : Nat) (xs : List Num) : List Num :=
  let h := f.rotDim / 2
  let ang := freqs.map fun w =>
    let a := Num.mul (.fin false pos 0) (f32 w)
    (f32 (cosExact a), f32 (sinExact a))
  let pairs := ang.zipIdx.map fun ((c, s), i) =>
    let (p, q) := if f.half then (i, i + h) else (2 * i, 2 * i + 1)
    rotatePair f.inverse c s (xs.getD p Num.zero) (xs.getD q Num.zero)
  xs.zipIdx.map fun (x, k) =>
    if f.rotDim ≤ k then x
    else
      let (i, second) := if f.half then (k % h, decide (h ≤ k)) else (k / 2, decide (k % 2 = 1))
      let p := pairs.getD i (x, x)
      if second then p.2 else p.1

/-- The position word of a row: an integer from 0 to 16,777,215 (R108). -/
def posOf (w : Word) : Option Nat :=
  match natOf32 w with
  | some n => if n ≤ 16777215 then some n else none
  | none => none

/-- Whether the heads of a row group's rows are whole (R107, R108): HEAD_DIM divides each tile's K_EXTENT, or is a multiple of the
format's K and divides the row. Log 41: DESIGN CHOICE. -/
def headsWhole (f : RopeF) (fi : Fmt) (g : List Tile) : Bool :=
  if f.headDim ≤ fi.tileK then g.all fun t => t.kExtent % f.headDim = 0 else groupLen fi g % f.headDim = 0

/-- V_ROPE (R107, R108), a row group a step, or what TILES leaves of one. Rows of no whole number of heads break the rule of
their tiles. Log 41: DESIGN CHOICE. -/
def opVRope (f : RopeF) (b : Bench) : Work :=
  match Fmt.ofCode f.format, Fmt.ofCode f.conv.format with
  | some fi, some fo =>
    let left := f.tiles - b.entry.count
    let whole := b.closed fi || decide (b.in0.length = left)
    let np := if f.posMode = 1 then 1 else 0
    withTiles b (if whole then b.in0.length else b.in0.length + 1) np 0 f.format Fmt.fp32.code 0 (
      let g := b.entry.step
      let len := groupLen fi b.in0
      let freqs := (List.range (f.rotDim / 2)).map (ropeFreq f)
      let pos (r : Nat) : Option Nat := if f.posMode = 0 then some (f.posBase + 64 * g + r) else posOf (wordOf (b.in1.headD Tile.blank) r 0)
      let rows := readGroup fi len b.in0
      if !headsWhole f fi b.in0 || rows.zipIdx.any fun ((l, r) : LRow × Nat) => l.valid && (pos r).isNone then .fault 1
      else
        let out : List LRow := rows.zipIdx.map fun ((l, r) : LRow × Nat) =>
          ⟨l.valid, l.tag, if l.valid then
            ((chunks f.headDim (l.words.map f32)).map (ropeHead f freqs ((pos r).getD 0))).flatten else []⟩
        let (ts, st) := emitGroup (b.rounding fo f.conv) (64 * g) out len
        .make { b.nothing with
          take0 := b.in0.length, take1 := np, out0 := ts, conv := st, count := b.in0.length,
          more := decide (b.in0.length < left) })
  | _, _ => .fault 1

/-! ### V_CONVERT (R109) -/

/-- V_CONVERT (R55, R56, R109), a row group a step, or what TILES leaves of one. -/
def opVConvert (f : ConvertF) (b : Bench) : Work :=
  match Fmt.ofCode f.inFormat, Fmt.ofCode f.conv.format with
  | some fi, some fo =>
    let left := f.tiles - b.entry.count
    let whole := b.closed fi || decide (b.in0.length = left)
    let nf := if f.rowFactor then 1 else 0
    withTiles b (if whole then b.in0.length else b.in0.length + 1) nf 0 f.inFormat Fmt.fp32.code 0 (
      let len := groupLen fi b.in0
      let rows : List LRow := (readGroup fi len b.in0).zipIdx.map fun ((l, r) : LRow × Nat) =>
        let fr := if f.rowFactor then wordOf (b.in1.headD Tile.blank) r 0 else one32
        ⟨l.valid, l.tag, if l.valid then l.words.map fun x => f32 (fmul (fmul x f.factor) fr) else []⟩
      let (ts, st) := emitGroup (b.rounding fo f.conv) (64 * b.entry.step) rows len
      .make { b.nothing with
        take0 := b.in0.length, take1 := nf, out0 := ts, conv := st, count := b.in0.length,
        more := decide (b.in0.length < left) })
  | _, _ => .fault 1

/-! ### V_COMBINE (R110, R111) -/

/-- The arrivals of result rows: for each (row, slot) the values, none for padding; a fault; rows discarded (R111). -/
structure Arrivals where
  seen : List (Nat × Nat × Option (List Num))
  bad : Bool
  old : Nat
  deriving DecidableEq, Repr

/-- One result row taken (R110, R111). -/
def arrive (f : CombineF) (gen : Nat) (a : Arrivals) (l : LRow) : Arrivals :=
  if !l.valid then a
  else
    let t := tagOf l.tag
    if t.gen ≠ gen then { a with old := a.old + 1 }
    else if f.rows ≤ t.row || f.topk ≤ t.slot || a.seen.any fun x => x.1 = t.row && x.2.1 = t.slot then { a with bad := true }
    else { a with seen := (t.row, t.slot, if t.pad then none else some l.vals) :: a.seen }

/-- The arrivals of the row groups of results taken so far. -/
def arrivalsOf (f : CombineF) (fi : Fmt) (b : Bench) : Arrivals :=
  let k := pieceCount fi f.rowLen
  ((fixedGroups k (b.in0.length / k) b.in0).map (readGroup fi f.rowLen)).flatten.foldl (arrive f b.gen) ⟨[], false, 0⟩

/-- The combined row of R110. The products are formed from the exact values of the results (DESIGN CHOICE, log 116). Log 117: DESIGN CHOICE. -/
def combineRow (f : CombineF) (a : Arrivals) (gate : Tile) (r t : Nat) (res : List Word) : List Num :=
  (List.range f.rowLen).map fun k =>
    let acc0 := if f.residual then res.getD k 0#32 else 0#32
    f32 ((List.range f.topk).foldl (fun acc j =>
      match a.seen.find? fun x => x.1 = t && x.2.1 = j with
      | some (_, _, some ys) => toF32 (Num.add (Num.mul (f32 (wordOf gate r j)) (ys.getD k Num.zero)) (f32 acc))
      | _ => acc) acc0)

/-- Whether every slot of a row has arrived (R110). The source places results with PAD set for a row that is padding (R185): they
are counted here with its gate row; a row that is not valid routes nothing and waits for nothing (DESIGN CHOICE, log 117). -/
def rowArrived (f : CombineF) (a : Arrivals) (gate : Row) (t : Nat) : Bool :=
  !gate.valid || (tagOf gate.tag).pad || (List.range f.topk).all fun j => a.seen.any fun x => x.1 = t && x.2.1 = j

/-- V_COMBINE (R110, R111), 64 rows a step: the generation expected is the command's (R186). The residual tiles' format, which no
field names, is that of the first one (DESIGN CHOICE, log 118). -/
def opVCombine (f : CombineF) (b : Bench) : Work :=
  match Fmt.ofCode f.format, Fmt.ofCode f.conv.format with
  | some fi, some fo =>
    let i := b.entry.step
    let a := arrivalsOf f fi b
    let own := (b.in2.head?.map fun t => t.format).getD Fmt.fp32.code
    let fr := (Fmt.ofCode own).getD .fp32
    let nr := if f.residual then (if b.in2.isEmpty then 1 else pieceCount fr f.rowLen) else 0
    let gate := b.in1.headD Tile.blank
    let n := min 64 (f.rows - 64 * i)
    if a.bad then .fault 1
    else withTiles b 0 1 nr f.format Fmt.fp32.code own (
      if !((List.range n).all fun r => rowArrived f a (gate.row r) (64 * i + r)) then .need (b.in0.length + 1) 1 nr
      else
        let rs := readGroup fr f.rowLen b.in2
        let rows : List LRow := (List.range n).map fun r =>
          let v := (gate.row r).valid
          ⟨v, (gate.row r).tag, if v then combineRow f a gate r (64 * i + r) (rs.getD r ⟨false, 0#32, []⟩).words else []⟩
        let (ts, st) := emitGroup (b.rounding fo f.conv) (64 * i) rows f.rowLen
        .make { b.nothing with take1 := 1, take2 := nr, out0 := ts, conv := st, more := decide (64 * (i + 1) < f.rows) })
  | _, _ => .fault 1

/-- Result rows that a V_COMBINE has discarded so far (R111). -/
def combineOld (f : CombineF) (b : Bench) : Nat :=
  match Fmt.ofCode f.format with
  | some fi => (arrivalsOf f fi b).old
  | none => 0

/-! ### V_OPT (R112, R113) -/

/-- One element of the AdamW step: w_new, m, v and whether the gradient was finite (R112, R113). -/
def optStep (f : OptF) (gIn m v w : Word) : Word × Word × Word × Bool :=
  let g := fmul gIn f.conv.extra
  if !ffinite g then (w, m, v, false)
  else
    let m' := fadd (fmul f.beta1 m) (fmul (fsub one32 f.beta1) g)
    let v' := fadd (fmul f.beta2 v) (fmul (fmul (fsub one32 f.beta2) g) g)
    let w' := fsub (fsub w (fmul f.decay w)) (fmul f.stepLr (fdiv m' (fadd (fsqrt v') f.eps)))
    (w', m', v', true)

/-- A tensor's conversion by its own counter word; to nearest where its format forbids stochastic rounding (R112). -/
def optRounding (b : Bench) (f : OptF) (fmt : Fmt) (k : Nat) : Rounding :=
  b.rounding fmt { f.conv with tensorId := (f.conv.tensorId + k) % 2 ^ 32 }

/-- An element of the step with its new w, m and v, and whether its gradient was finite. -/
abbrev OptElem := Word × Word × Word × Bool

/-- V_OPT (R112, R113), a row group a step: row groups run until IN0 ends. -/
def opVOpt (f : OptF) (b : Bench) : Work :=
  match Fmt.ofCode f.gFormat, Fmt.ofCode f.mFormat, Fmt.ofCode f.vFormat, Fmt.ofCode f.wFormat, Fmt.ofCode f.conv.format with
  | some fg, some fm, some fv, some fw, some fo =>
    let len := groupLen fg b.in0
    let nm := pieceCount fm len
    let nv := pieceCount fv len
    let nw := pieceCount fw len
    if b.in0.isEmpty && b.dry0 then .make b.nothing
    else if (b.in0.any fun t => !t.ok f.gFormat) || (b.in2.any fun t => !t.ok f.wFormat) then .fault 1
    else if !b.closed fg then .need (b.in0.length + 1) 0 0
    else if (b.in1.take nm).any (fun t => !t.ok f.mFormat) || (b.in1.drop nm).any (fun t => !t.ok f.vFormat) then .fault 1
    else if b.in1.length < nm + nv || b.in2.length < nw then .need b.in0.length (nm + nv) nw
    else
      let rm := readGroup fm len (b.in1.take nm)
      let rv := readGroup fv len (b.in1.drop nm)
      let rw := readGroup fw len b.in2
      let rows : List (LRow × List OptElem) := (readGroup fg len b.in0).zipIdx.map fun ((l, r) : LRow × Nat) =>
        let at_ (ls : List LRow) : List Word := (ls.getD r ⟨false, 0#32, []⟩).words
        let els := l.words.zipIdx.map fun (x, k) => optStep f x ((at_ rm).getD k 0#32) ((at_ rv).getD k 0#32) ((at_ rw).getD k 0#32)
        (l, if l.valid then els else [])
      let out (pick : OptElem → Word) (fmt : Fmt) (k : Nat) : List Tile × ConvStat :=
        emitGroup (optRounding b f fmt k) (64 * b.entry.step)
          (rows.map fun (x : LRow × List OptElem) => ⟨x.1.valid, x.1.tag, x.2.map fun e => f32 (pick e)⟩) len
      let w := out (fun e => e.1) fw 1
      let m := out (fun e => e.2.1) fm 2
      let v := out (fun e => e.2.2.1) fv 3
      let sv := out (fun e => e.1) fo 0
      .make { b.nothing with
        take0 := b.in0.length
        take1 := nm + nv
        take2 := nw
        out0 := w.1 ++ m.1 ++ v.1
        out1 := sv.1
        conv := [w.2, m.2, v.2, sv.2].foldl ConvStat.plus ⟨0, 0⟩
        roleB := (rows.map fun (x : LRow × List OptElem) => (x.2.filter fun (e : OptElem) => !e.2.2.2).length).sum
        more := true }
  | _, _, _, _, _ => .fault 1

/-! ### V_SAMPLE (R114 to R116) -/

/-- A row's sampling parameters (R114). -/
structure SampleRow where
  invTemp : Word
  topK : Nat
  topP : Word
  minP : Word
  lseT : Word
  lse1 : Word
  r : Nat
  deriving DecidableEq, Repr

/-- Whether INV_TEMP is 0, which selects greedy (R114, R115). -/
def SampleRow.greedy (p : SampleRow) : Bool := p.invTemp = 0#32 || p.invTemp = 0x80000000#32

/-- Which candidates top-p keeps, in candidate order (R115). -/
def topPKeeps (topP : Word) : List Word → Word → List Bool
  | [], _ => []
  | q :: qs, c => (!fle topP c) :: topPKeeps topP qs (fadd c q)

/-- The draw over kept candidates: the first whose running sum exceeds t, else the last kept (R115). -/
def drawKept (t : Word) : List (Nat × Word × Bool) → Word → Nat → Nat
  | [], _, last => last
  | (j, q, keep) :: rest, u, last =>
    if keep then
      let u' := fadd u q
      if flt t u' then j else drawKept t rest u' j
    else drawKept t rest u last

/-- The choice of a row: the chosen candidate, what is kept, the kept sum and TAIL (R115). -/
def chooseToken (p : SampleRow) (zs : List Word) : Nat × List Bool × Word × Bool :=
  if p.greedy then (0, zs.zipIdx.map fun (_, j) => decide (j = 0), one32, false)
  else
    let q := zs.map fun z => fexp (fsub (fmul z p.invTemp) p.lseT)
    let least := fmul p.minP (q.headD 0#32)
    let k0 := q.zipIdx.map fun (x, j) => (p.topK = 0 || decide (j < p.topK)) && fle least x
    let inForce := flt p.topP one32
    let k1 := if inForce then List.zipWith (· && ·) k0 (topPKeeps p.topP q 0#32) else k0
    let keep := k1.zipIdx.map fun (x, j) => x || decide (j = 0)
    let kept := List.zipWith (fun x (k : Bool) => (x, k)) q keep
    let s := (kept.filter fun x => x.2).foldl (fun acc x => fadd acc x.1) 0#32
    let t := toF32 (Num.scale (Num.mul (f32 s) (.fin false p.r 0)) (-32))
    let j := drawKept t (kept.zipIdx.map fun ((x, k), j) => (j, x, k)) 0#32 0
    (j, keep, s, inForce && flt (q.foldl fadd 0#32) p.topP)

/-- The log-probability of candidate `j` in a basis (R115). -/
def logpOf (basis : Nat) (p : SampleRow) (c : Nat × List Bool × Word × Bool) (z : Word) (j : Nat) : Word :=
  if p.greedy then
    if basis = 2 then (if j = c.1 then 0#32 else negInf32) else fsub z p.lse1
  else if basis = 0 then fsub z p.lse1
  else
    let b1 := fsub (fmul z p.invTemp) p.lseT
    if basis = 1 then b1 else if c.2.1.getD j false then fsub b1 (flog c.2.2.1) else negInf32

/-- The output words of a sampled row (R115). -/
def sampleWords (f : SampleF) (p : SampleRow) (zs ixs : List Word) : List Word :=
  let c := chooseToken p zs
  let at_ (j : Nat) : List Word := [ixs.getD j 0#32, logpOf f.logpBasis p c (zs.getD j 0#32) j]
  at_ c.1 ++ [if c.2.2.2 then 1#32 else 0#32] ++ ((List.range (min f.topN zs.length)).map at_).flatten

/-- The parameters of a row from its statistics and parameter tiles (R114). -/
def sampleRow (stats params : Tile) (r : Nat) : SampleRow :=
  let w (c : Nat) : Word := wordOf params r c
  let ctr : Quad := ⟨(w 4).toNat, (w 5).toNat, (w 6).toNat, (w 7).toNat⟩
  ⟨w 0, (natOf32 (w 1)).getD 0, w 2, w 3, wordOf stats r 1, wordOf stats r 3,
    (philox ((w 8).toNat + 2 ^ 32 * (w 9).toNat) ctr).word 0⟩

/-- The candidates of a row: logits and indices from tile pairs (R114). -/
def candsOf (k : Nat) (pairs : List Tile) (r : Nat) : List Word × List Word :=
  let word (odd j : Nat) : Word := wordOf (pairs.getD (2 * (j / 64) + odd) Tile.blank) r (j % 64)
  ((List.range k).map (word 0), (List.range k).map (word 1))

/-- V_SAMPLE (R114 to R116), a row group a step. -/
def opVSample (f : SampleF) (b : Bench) : Work :=
  let n := 2 * ((f.kCand + 63) / 64)
  withTiles b n 1 1 Fmt.fp32.code Fmt.fp32.code Fmt.fp32.code (
    .make { b.nothing with
      take0 := n
      take1 := 1
      take2 := 1
      out0 := [wordTile 64 ((List.range 64).map fun r =>
        let row := (b.in0.headD Tile.blank).row r
        let cs := candsOf f.kCand b.in0 r
        (row.valid, row.tag, if row.valid then
          sampleWords f (sampleRow (b.in1.headD Tile.blank) (b.in2.headD Tile.blank) r) cs.1 cs.2 else []))]
      more := decide (b.entry.step + 1 < f.rowGroups) })

/-- V_EWISE (R103). -/
def execVEwise (p : Place) (f : EwiseF) (s : State) : Host.Outcome State Fault Refusal :=
  .next (runStation p (.vEwise f) (opVEwise f) s)

/-- V_SOFTMAX (R104). -/
def execVSoftmax (p : Place) (f : SoftmaxF) (s : State) : Host.Outcome State Fault Refusal :=
  .next (runStation p (.vSoftmax f) (opVSoftmax f) s)

/-- V_NORM (R106). -/
def execVNorm (p : Place) (f : NormF) (s : State) : Host.Outcome State Fault Refusal :=
  .next (runStation p (.vNorm f) (opVNorm f) s)

/-- V_ROPE (R107). -/
def execVRope (p : Place) (f : RopeF) (s : State) : Host.Outcome State Fault Refusal :=
  .next (runStation p (.vRope f) (opVRope f) s)

/-- V_CONVERT (R109). -/
def execVConvert (p : Place) (f : ConvertF) (s : State) : Host.Outcome State Fault Refusal :=
  .next (runStation p (.vConvert f) (opVConvert f) s)

/-- V_COMBINE (R110). -/
def execVCombine (p : Place) (f : CombineF) (s : State) : Host.Outcome State Fault Refusal :=
  .next (runNoted p (.vCombine f) (opVCombine f) (combineOld f) s)

/-- V_OPT (R112). -/
def execVOpt (p : Place) (f : OptF) (s : State) : Host.Outcome State Fault Refusal :=
  .next (runStation p (.vOpt f) (opVOpt f) s)

/-- V_SAMPLE (R115). -/
def execVSample (p : Place) (f : SampleF) (s : State) : Host.Outcome State Fault Refusal :=
  .next (runStation p (.vSample f) (opVSample f) s)

end Sys2Proof.Machine
end

