-- ==== Sys2Proof/Machine/Rhizoid.lean ====
section
/-! DEFINITION. The gather station (R117 to R127): ranking, counting, prefix sums, sorting, scatter and gather. -/
namespace Sys2Proof.Machine

/-! ### G_TOPK (R118) -/

/-- The total order of G_TOPK: value descending, NaN below −∞, ties to the lower index (R118). -/
def rankBefore (a b : Word × Nat) : Bool :=
  let x := f32 a.1
  let y := f32 b.1
  if x = .nan then y = .nan && decide (a.2 < b.2)
  else if y = .nan then true
  else if Num.lt y x then true
  else if Num.lt x y then false
  else decide (a.2 < b.2)

/-- Two ordered lists merged into one. -/
def mergeRanked : Nat → List (Word × Nat) → List (Word × Nat) → List (Word × Nat)
  | 0, xs, ys => xs ++ ys
  | _ + 1, [], ys => ys
  | _ + 1, xs, [] => xs
  | fuel + 1, x :: xs, y :: ys =>
    if rankBefore y x then y :: mergeRanked fuel (x :: xs) ys else x :: mergeRanked fuel xs (y :: ys)

/-- Neighbouring runs merged in pairs. -/
def mergePairs : List (List (Word × Nat)) → List (List (Word × Nat))
  | a :: b :: rest => mergeRanked (a.length + b.length) a b :: mergePairs rest
  | xs => xs

/-- Runs merged to one by `fuel` rounds. -/
def mergeRounds : Nat → List (List (Word × Nat)) → List (Word × Nat)
  | 0, xs => xs.flatten
  | fuel + 1, xs => mergeRounds fuel (mergePairs xs)

/-- A row's candidates in rank order (R118). -/
def ranked (xs : List (Word × Nat)) : List (Word × Nat) := mergeRounds (Nat.log2 xs.length + 1) (xs.map fun x => [x])

/-- The candidates of a row group by row: VALID bit, tag, and value and index of each (R118). -/
def topkRows (f : TopkF) (fi : Fmt) (ts : List Tile) : List (Bool × Word × List (Word × Nat)) :=
  let vals := if f.paired then (List.range (ts.length / 2)).map fun i => ts.getD (2 * i) Tile.blank else ts
  (readGroup fi f.rowLen vals).zipIdx.map fun ((l, r) : LRow × Nat) =>
    let cands := l.words.zipIdx.map fun ((w, j) : Word × Nat) =>
      (w, if f.paired then (wordOf (ts.getD (2 * (j / 64) + 1) Tile.blank) r (j % 64)).toNat else (j + f.indexBase) % 2 ^ 32)
    (l.valid, l.tag, if l.valid then cands else [])

/-- G_TOPK (R118), a row group a step: per 64 candidates a value tile and an index tile. -/
def opGTopk (f : TopkF) (b : Bench) : Work :=
  match Fmt.ofCode f.format with
  | none => .fault 1
  | some fi =>
    let n := if f.paired then 2 * ((f.rowLen + 63) / 64) else pieceCount fi f.rowLen
    let code (i : Nat) : Nat := if f.paired && i % 2 = 1 then Fmt.fp32.code else f.format
    if b.in0.zipIdx.any fun (t, i) => !t.ok (code i) then .fault 1
    else if b.in0.length < n then .need n 0 0
    else
      let rows := topkRows f fi b.in0
      let best := rows.map fun (v, t, cs) => (v, t, (ranked cs).take f.k)
      let out := ((List.range ((f.k + 63) / 64)).map fun i =>
        let w := min 64 (f.k - 64 * i)
        let cut (cs : List (Word × Nat)) : List (Word × Nat) := (cs.drop (64 * i)).take w
        [wordTile w (best.map fun (v, t, cs) => (v, t, (cut cs).map fun c => c.1)),
          wordTile w (best.map fun (v, t, cs) => (v, t, (cut cs).map fun c => BitVec.ofNat 32 c.2))]).flatten
      .make { b.nothing with
        take0 := n
        out0 := out
        roleB := (rows.map fun (x : Bool × Word × List (Word × Nat)) => (x.2.2.filter fun (c : Word × Nat) => f32 c.1 = .nan).length).sum
        more := decide (b.entry.step + 1 < f.rowGroups) }

/-! ### Bins (R119 to R121) -/

/-- Word `i` of a table of index words held from a slot, 4,096 to a tile (R119, R120). Log 42: DESIGN CHOICE. -/
def heldWord (b : Bench) (base i : Nat) : Nat := (wordOf (b.holdTile (base + i / 4096)) (i % 4096 / 64) (i % 64)).toNat

/-- The destination of an index word: none for all ones, translated by the map when there is one (R98, R119). -/
def destOf (b : Bench) (map : Bool) (base : Nat) (w : Nat) : Option Nat :=
  if w = 0xFFFFFFFF then none
  else if map then
    let d := heldWord b base w
    if d = 0xFFFFFFFF then none else some d
  else some w

/-- The entries of `rows` rows: row, slot and destination, of rows that are valid and not padding (R119). -/
def entriesOf (b : Bench) (slots rows : Nat) (map : Bool) (base : Nat) (ts : List Tile) : List (Nat × Nat × Nat) :=
  ((List.range rows).map fun r =>
    let t := tileAt ts r
    let row := t.row (r % 64)
    if row.valid && !(tagOf row.tag).pad then
      (List.range slots).filterMap fun j => (destOf b map base (wordOf t (r % 64) j).toNat).map fun d => (r, j, d)
    else []).flatten

/-- An index tile of the words of bins, 64 to a row (R119). -/
def binTile (ws : List Nat) : Tile :=
  wordTile 64 ((chunks 64 ws).map fun r => (true, 0#32, r.map (BitVec.ofNat 32)))

/-- Bins counted. -/
def countBins (bins : Nat) (es : List (Nat × Nat × Nat)) : List Nat :=
  (List.range bins).map fun k => (es.filter fun e => e.2.2 = k).length

/-- G_COUNT (R119). -/
def opGCount (f : CountF) (b : Bench) : Work :=
  withTiles b ((f.rows + 63) / 64) 0 0 Fmt.fp32.code 0 0 (
    let es := entriesOf b f.slots f.rows f.map f.holdBase b.in0
    if es.any fun e => decide (f.bins ≤ e.2.2) then .fault 1
    else .make { b.nothing with out0 := [binTile (countBins f.bins es)] })

/-- Running offsets of admitted counts. -/
def prefixSums : Nat → List Nat → List Nat
  | _, [] => []
  | acc, x :: xs => acc :: prefixSums (acc + x) xs

/-- G_SCAN (R120). -/
def opGScan (f : ScanF) (b : Bench) : Work :=
  withTiles b 1 0 0 Fmt.fp32.code 0 0 (
    let t := b.in0.headD Tile.blank
    let counts := (List.range f.bins).map fun k => (wordOf t (k / 64) (k % 64)).toNat
    let adm := counts.map fun c =>
      let a := if f.cap = 0 then c else min c f.cap
      if f.align64 then (a + 63) / 64 * 64 else a
    let above := if f.cap = 0 then 0 else (counts.map fun c => c - f.cap).sum
    let nOver := if f.cap = 0 then 0 else (counts.filter fun c => decide (f.cap < c)).length
    if 2147483647 < adm.sum || 2147483647 < above then .fault 1
    else
      let offs := binTile (prefixSums 0 adm)
      let l := if f.retain then { b.list with hold := retainAt b.list.hold f.holdBase [offs] } else b.list
      .make { b.nothing with
        list := l
        out0 := [offs]
        out1 := [wordTile 64 [(true, 0#32, [BitVec.ofNat 32 adm.sum, BitVec.ofNat 32 above, BitVec.ofNat 32 nOver])]] })

/-! ### G_SORT (R121, R122) -/

/-- Entries with their ranks: the number of earlier entries with the same bin (R121). -/
def withRanks : List (Nat × Nat × Nat) → List (Nat × Nat) → List (Nat × Nat × Nat × Nat)
  | [], _ => []
  | (r, j, d) :: es, seen =>
    let k := ((seen.find? fun x => x.1 = d).map Prod.snd).getD 0
    (r, j, d, k) :: withRanks es ((d, k + 1) :: seen.filter fun x => x.1 ≠ d)

/-- A placed row: its source row with the tag's slot field set (R121). Log 39: DESIGN CHOICE. -/
def placedRow (ts : List Tile) (r j : Nat) : Row :=
  let row := (tileAt ts r).row (r % 64)
  { row with tag := Tag.word { tagOf row.tag with slot := j } }

/-- Tiles of 64 positions from placed rows (R122); positions not filled are invalid, and nothing lies beyond K_EXTENT (R45). -/
def placeTiles (format kExtent n : Nat) (placed : List (Nat × Row)) : List Tile :=
  (List.range n).map fun i =>
    (⟨format, kExtent, (List.range 64).map fun r =>
      match placed.reverse.find? fun x => x.1 = 64 * i + r with
      | some x => x.2
      | none => emptyRow, true⟩ : Tile).clean

/-- What G_SORT makes: the placed rows by position, the tiles of positions, and the tiles of overflow (R121, R122). -/
structure Sorted where
  tiles : List Tile
  overflow : List Tile
  deriving DecidableEq, Repr

/-- The sort itself (R121). The rows' format, which no field names, is that of the first tile, and so is K_EXTENT (DESIGN CHOICE, log 118).
Log 39: DESIGN CHOICE. -/
def sortRows (f : SortF) (b : Bench) (ts : List Tile) (es : List (Nat × Nat × Nat)) : Sorted :=
  let ranks := withRanks es []
  let fits (e : Nat × Nat × Nat × Nat) : Bool := f.cap = 0 || decide (e.2.2.2 < f.cap)
  let placed := (ranks.filter fits).map fun (r, j, d, k) => (heldWord b f.offsetBase d + k, placedRow ts r j)
  let surplus := (ranks.filter fun e => !fits e).zipIdx.map fun ((r, j, _, _), i) => (i, placedRow ts r j)
  let top := (placed.map fun x => x.1 + 1).foldl max 0
  let h := ts.headD Tile.blank
  ⟨placeTiles h.format h.kExtent ((top + 63) / 64) placed, placeTiles h.format h.kExtent ((surplus.length + 63) / 64) surplus⟩

/-- The pieces of 256 bytes in which tile images are written one after another (R122). -/
def imagePieces (base : Nat) (ts : List Tile) : List MemWrite :=
  (ts.zipIdx.map fun (t, i) =>
    (chunks 256 t.image).zipIdx.map fun (bs, k) => (⟨base + imageBytes * i + 256 * k, bs, false⟩ : MemWrite)).flatten

/-- Hold slots that a sort's tables take (R121). -/
def sortTables (f : SortF) : Nat := if f.map then 2 else 1

/-- G_SORT (R121, R122, R124). With OUT_MODE 1 each step writes 256 bytes of the tile images, the next one only when the one before
has been answered, so that nothing follows a failure (R124). Logs 42, 118: DESIGN CHOICE. -/
def opGSort (f : SortF) (b : Bench) : Work :=
  let n := (f.rows + 63) / 64
  let own := (b.in0.head?.map fun t => t.format).getD Fmt.fp32.code
  withTiles b n n 0 own Fmt.fp32.code 0 (
    let ts := b.in0
    let live (r : Nat) : Bool := ((tileAt ts r).row (r % 64)).valid && !(tagOf ((tileAt ts r).row (r % 64)).tag).pad
    let es := (entriesOf b f.slots f.rows f.map f.mapBase b.in1).filter fun e => live e.1
    if es.any fun e => decide (f.bins ≤ e.2.2) then .fault 1
    else if (withRanks es []).any fun (_, _, d, r) => decide (2 ^ 31 ≤ heldWord b f.offsetBase d + r) then .fault 1
    else
      let made := sortRows f b ts es
      let rest := if f.cap = 0 then [] else made.overflow
      if !f.toMemory then
        if b.slots < sortTables f + made.tiles.length then .fault 1
        else .make { b.nothing with out0 := made.tiles, out1 := rest }
      else
        let ws := imagePieces f.destBase made.tiles
        if b.waiting then .idle
        else match ws[b.entry.step]? with
          | some w => .make { b.nothing with writes := [w], more := decide (b.entry.step + 1 < ws.length), out1 := if b.entry.step = 0 then rest else [] }
          | none => .make { b.nothing with out1 := rest })

/-- G_SORT (R121). -/
def execGSort (p : Place) (f : SortF) (s : State) : Host.Outcome State Fault Refusal :=
  .next (runStation p (.gSort f) (opGSort f) s)

/-! ### G_SCATTER and G_GATHER (R123 to R126) -/

/-- The address in a row of an address tile; none for all ones (R98). -/
def addrOf (t : Tile) (r : Nat) : Option Nat :=
  let a := (wordOf t r 0).toNat + 2 ^ 32 * (wordOf t r 1).toNat
  if a = 2 ^ 64 - 1 then none else some a

/-- An address moved by SCALE_DELTA. -/
def scaleAddr (f : MoveF) (a : Nat) : Nat := (((a : Int) + f.scaleDelta) % 2 ^ 64).toNat

/-- The address that a scatter writes row `r` to: none for a row that is not valid or has none (R98, R123). -/
def scatterAddr (t a : Tile) (r : Nat) : Option Nat := if (t.row r).valid then addrOf a r else none

/-- The writes of one row of a scatter (R123). -/
def scatterRow (f : MoveF) (t : Tile) (r x : Nat) : List MemWrite :=
  let row := t.row r
  ⟨x, ((padTo 256 row.data).drop f.offset).take f.rowBytes, false⟩ ::
    if f.scaleBytes = 0 then [] else [⟨scaleAddr f x, ((padTo 16 row.scales).drop f.scaleSlot).take f.scaleBytes, true⟩]

/-- G_SCATTER (R123 to R126), a row a step: the next row is not written before the one before has been answered (R124), and a row
that overwrites an earlier one is counted (R125). The rows' format is their own tile's, as no field names it (DESIGN CHOICE, log 118). -/
def opGScatter (f : MoveF) (b : Bench) : Work :=
  let own := (b.in0.head?.map fun t => t.format).getD Fmt.fp32.code
  let r := b.entry.step % 64
  withTiles b 1 1 0 own Fmt.fp32.code 0 (
    let t := b.in0.headD Tile.blank
    if b.waiting then .idle
    else
      let last := decide (r = 63)
      let m := { b.nothing with
        take0 := if last then 1 else 0, take1 := if last then 1 else 0, more := decide (b.entry.step + 1 < 64 * f.tiles) }
      match scatterAddr t (b.in1.headD Tile.blank) r with
      | none => .make m
      | some x => .make { m with writes := scatterRow f t r x, seen := [x], roleA := if b.entry.addrs.contains x then 1 else 0 })

/-- G_SCATTER (R123). -/
def execGScatter (p : Place) (f : MoveF) (s : State) : Host.Outcome State Fault Refusal :=
  .next (runStation p (.gScatter f) (opGScatter f) s)

/-- The tile that a gather starts from: rows whose address is none are zero and invalid, the others wait for their bytes (R123).
Whether it ends a row group is not said (DESIGN CHOICE, log 111). -/
def gatherTile (f : MoveF) (index i : Nat) (a : Tile) : Tile :=
  ⟨f.format, f.kExtent, (List.range 64).map fun r =>
    match addrOf a r with
    | none => ⟨false, (a.row r).tag, [], []⟩
    | some _ => ⟨true, (a.row r).tag, [], []⟩, Config.endsGroup index i⟩

/-- The reads of one row of a gather (R123). -/
def gatherRow (f : MoveF) (r x : Nat) : List MemRead :=
  ⟨x, f.rowBytes, 256 * r + f.offset, false⟩ ::
    if f.scaleBytes = 0 then [] else [⟨scaleAddr f x, f.scaleBytes, 16384 + 0x120 + 16 * r + f.scaleSlot, true⟩]

/-- G_GATHER (R123, R124), a tile a step: the output tile enters its stream and its bytes follow as they are read. -/
def opGGather (f : MoveF) (b : Bench) : Work :=
  withTiles b 0 1 0 0 Fmt.fp32.code 0 (
    let a := b.in1.headD Tile.blank
    .make { b.nothing with
      take1 := 1
      out0 := [gatherTile f b.entry.index b.entry.step a]
      reads := ((List.range 64).map fun r => ((addrOf a r).map (gatherRow f r)).getD []).flatten
      more := decide (b.entry.step + 1 < f.tiles) })

/-- G_GATHER (R123). -/
def execGGather (p : Place) (f : MoveF) (s : State) : Host.Outcome State Fault Refusal :=
  .next (runStation p (.gGather f) (opGGather f) s)

/-- G_TOPK (R118). -/
def execGTopk (p : Place) (f : TopkF) (s : State) : Host.Outcome State Fault Refusal :=
  .next (runStation p (.gTopk f) (opGTopk f) s)

/-- G_COUNT (R119). -/
def execGCount (p : Place) (f : CountF) (s : State) : Host.Outcome State Fault Refusal :=
  .next (runStation p (.gCount f) (opGCount f) s)

/-- G_SCAN (R120). -/
def execGScan (p : Place) (f : ScanF) (s : State) : Host.Outcome State Fault Refusal :=
  .next (runStation p (.gScan f) (opGScan f) s)

end Sys2Proof.Machine
end

