-- ==== Sys2Proof/Machine/Verify.lean ====
section
/-! DEFINITION. What the package samples for its requests (R114, R115, R219 to R226): the parameters of a draw, a token with its
log-probability and alternatives, a scored token, and the walk over a tree of drafts. -/
namespace Sys2Proof.Machine

/-- One alternative token with its log-probability (R222). -/
structure Alt where
  token : Nat
  logp : Word
  deriving DecidableEq, Repr

/-- A token that a step delivers (R222): its log-probability, TAIL, ACCEPTED_DRAFT and the alternatives. -/
structure Drawn where
  token : Nat
  logp : Word
  tail : Bool
  accepted : Bool
  alts : List Alt
  deriving DecidableEq, Repr

/-- INV_TEMP of a request: 0 for TEMPERATURE 0, else the reciprocal rounded once (R210, R219). -/
def invTemp (t : Word) : Word := if (f32 t).isZero then 0#32 else fdiv one32 t

/-- The draw of a request's token at a slot (R219, R220): counter slot and STREAM, key SEED. Log 120: DESIGN CHOICE. -/
def Req.drawAt (r : Req) (slot : Nat) (o : RowOut) : SampleRow :=
  ⟨invTemp r.p.temperature, r.p.topK, r.p.topP, r.p.minP, o.lseT, o.lse1, (philox r.p.seed ⟨slot, r.p.stream, 0, 0⟩).word 0⟩

/-- A row that no operand gives: `k` candidates and statistics of free value (DESIGN CHOICE, log 120). -/
def freeRow (seed row k : Nat) : RowOut :=
  let w (i : Nat) : Nat := leNat ((List.range 4).map fun j => Config.freeByte seed (65536 * row + 4 * i + j))
  ⟨(List.range k).map fun j => (w (2 * j), BitVec.ofNat 32 (w (2 * j + 1))), BitVec.ofNat 32 (w (2 * k)), BitVec.ofNat 32 (w (2 * k + 1)),
    BitVec.ofNat 32 (w (2 * k + 2))⟩

/-- The row of a step's output, free where the output holds none. -/
def rowAt (rows : List RowOut) (seed k i : Nat) : RowOut := (rows[i]?).getD (freeRow seed i k)

/-- The first TOP_N candidates with their log-probabilities, in candidate order (R222). -/
def altsOf (r : Req) (p : SampleRow) (c : Nat × List Bool × Word × Bool) (cands : List (Nat × Word)) : List Alt :=
  (cands.take r.p.topN).zipIdx.map fun (x, j) => ⟨x.1, logpOf r.p.logpBasis p c x.2 j⟩

/-- The token that a request draws at a slot from a row of K_CAND candidates (R115, R219, R222, R226). -/
def drawToken (r : Req) (k slot : Nat) (o : RowOut) : Drawn :=
  let cands := o.cands.take k
  let p := r.drawAt slot o
  let c := chooseToken p (cands.map Prod.snd)
  let x := cands.getD c.1 (0, 0#32)
  ⟨x.1, logpOf r.p.logpBasis p c x.2 c.1, c.2.2.2, false, altsOf r p c cands⟩

/-- The prompt's own token at a slot with its log-probability, from the logits of the slot before (R223). -/
def scoreToken (r : Req) (k slot : Nat) (o : RowOut) : Drawn :=
  let cands := o.cands.take k
  let p := r.drawAt slot o
  let c := chooseToken p (cands.map Prod.snd)
  let token := r.tokens.getD slot 0
  ⟨token, logpOf r.p.logpBasis p c o.own (cands.findIdx fun x => x.1 = token), c.2.2.2, false, altsOf r p c cands⟩

/-- Whether a token that is the `n`-th of a step ends its request (R214). -/
def endsRequest (r : Req) (limit n token : Nat) : Bool :=
  r.p.stops.contains token || decide (r.p.maxNew ≤ r.delivered + n) || decide (limit ≤ r.tokens.length + n)

/-- The parent of draft `d`, from 1: its deepest ancestor other than itself, or 0, the root (R178, R224). -/
def parentOf (x : Draft) (d : Nat) : Nat := (((List.range (d - 1)).filter fun i => tbit x.ancestors i).getLast?.map (· + 1)).getD 0

/-- The lowest draft whose parent is a node and whose token is given, from 1 (R224). -/
def childOf (drafts : List Draft) (node token : Nat) : Option Nat :=
  (drafts.zipIdx.find? fun (x, i) => parentOf x (i + 1) = node && x.token = token).map fun x => x.2 + 1

/-- The walk of R224: the tokens delivered, and the path of accepted drafts; `n` tokens went before. -/
def walk (r : Req) (k limit : Nat) (drafts : List Draft) (row : Nat → RowOut) : Nat → Nat → Nat → List Drawn × List Nat
  | 0, _, _ => ([], [])
  | fuel + 1, node, n =>
    let t := drawToken r k (r.tokens.length + n) (row node)
    if endsRequest r limit (n + 1) t.token then ([t], [])
    else
      match childOf drafts node t.token with
      | none => ([t], [])
      | some d =>
        let rest := walk r k limit drafts row fuel d (n + 1)
        ({ t with accepted := true } :: rest.1, d :: rest.2)

/-- What a verification step, or with no drafts a plain decode step, makes of a request (R224, R226). -/
def verify (r : Req) (k limit : Nat) (drafts : List Draft) (row : Nat → RowOut) : List Drawn × List Nat :=
  walk r k limit drafts row (drafts.length + 1) 0 0

/-- The accept record of a step (R225); `seed` when its rows are of that draw. -/
def acceptOf (cmd : Nat) (seed : Option Nat) (v : List Drawn × List Nat) : AcceptRec :=
  let last := v.1.getLast?
  ⟨some cmd, seed, v.2, (last.map fun t => t.token).getD 0, (last.map fun t => t.logp).getD 0#32⟩

/-- The context limit of a model (R210, R167). Log 60: DESIGN CHOICE. -/
def slotLimit (m : Model) : Nat := min m.manifest.contextLimit 8388608

/-- The drafts of a request in a command's plan (R224). -/
def draftsOf (c : Cmd) (request : Nat) : List Draft :=
  ((c.launch.plan.find? fun i => i.request = request).map fun i => i.drafts).getD []

/-- The accept record of a step is written before the MOVE faces read it (R178, R225); where no operand has yet given the step's rows,
they are of free value, and the commit goes by the same ones (DESIGN CHOICE, log 120). -/
def chooseAccept (c : Cmd) (seq : Nat) (s : State) : State :=
  match s.req seq with
  | none => s
  | some r =>
    if r.accept.cmd = some c.id then s
    else
      match s.model r.p.modelId with
      | none => s
      | some m =>
        let (d, s) := draw s
        let v := verify r m.kCand (slotLimit m) (draftsOf c seq) (rowAt [] d m.kCand)
        setReq r.id (fun r => { r with accept := acceptOf c.id (some d) v }) s

/-- The path of a sequence's accept record (R225). -/
def pathOf (s : State) (seq : Nat) : List Nat := ((s.req seq).map fun r => r.accept.path).getD []

end Sys2Proof.Machine
end

