-- ==== Sys2Proof/Machine/Views.lean ====
section
/-! DEFINITION. KV pages and views (R157 to R178): unit records, query entries, the faces a view delivers and accepts,
masks, and the statistics of sessions and their combine tree. -/
namespace Sys2Proof.Machine

/-- A query entry (R168). -/
structure Query where
  ancestors : Nat
  node : Nat
  valid : Bool
  pos : Nat
  deriving DecidableEq, Repr

/-- A unit record (R167). -/
structure UnitRec where
  seq : Nat
  layer : Nat
  head : Nat
  mask : Nat
  qrows : Nat
  ndraft : Nat
  gen : Nat
  window : Nat
  keys : Nat
  firstPage : Nat
  pages : Nat
  bounds : List Nat
  depth : List Nat
  stats : Nat
  part : Nat
  query : List Query
  deriving DecidableEq, Repr

/-- The mask bits of a unit (R167). -/
def UnitRec.causal (u : UnitRec) : Bool := tbit u.mask 0
def UnitRec.windowed (u : UnitRec) : Bool := tbit u.mask 1
def UnitRec.segmented (u : UnitRec) : Bool := tbit u.mask 2
def UnitRec.tree (u : UnitRec) : Bool := tbit u.mask 3

/-- Ascending numbers. -/
def ascending : List Nat → Bool
  | a :: b :: rest => decide (a ≤ b) && ascending (b :: rest)
  | _ => true

/-- What a view needs of its model and its sequence: the layer, the address of a page, and the page table (R159, R160).
Logs 46, 47, 119: DESIGN CHOICE. Log 121: DEDUCED. -/
structure ViewSt where
  layers : List Layer
  kvBase : Nat
  unit : UnitRec
  layer : Layer
  table : List PageEntry
  deriving DecidableEq, Repr

/-- A unit record read from 640 bytes; none when a field is out of range (R167, R168). Log 46: DESIGN CHOICE. -/
def parseUnit (ls : List Layer) (bs : List Byte) : Option UnitRec :=
  let u (o n : Nat) : Nat := leAt bs o n
  let entry (q : Nat) : Nat := u (0x80 + 8 * q) 8
  let qs := (List.range 64).map entry
  let query := qs.map fun e => Query.mk (field e 47 32) (field e 29 25) (tbit e 24) (field e 23 0)
  let r : UnitRec := ⟨u 0 4, u 4 2, u 6 1, u 7 1, u 8 1, u 9 1, u 10 1, u 12 4, u 16 4, u 20 4, u 24 4,
    (List.range 8).map (fun i => u (0x20 + 4 * i) 4), (List.range 16).map (fun i => u (0x40 + i) 1), u 0x50 8, u 0x58 8, query⟩
  let ends := (r.keys + r.ndraft + 63) / 64
  match ls[r.layer]? with
  | none => none
  | some l =>
    if decide (r.head < l.kvHeads) && decide (r.mask < 16) && decide (r.qrows ≤ 64) && decide (r.ndraft ≤ 16) && zeroAt bs 11 1 &&
        decide (1 ≤ r.window) && decide (r.window ≤ 16777215) && decide (1 ≤ r.keys) && decide (r.keys ≤ 8388608) &&
        r.firstPage % 16 = 0 && r.pages = ends - r.firstPage && decide (r.firstPage + r.pages ≤ 131072) && zeroAt bs 0x1C 4 &&
        ascending r.bounds && ((r.depth.take r.ndraft).all fun d => decide (1 ≤ d) && decide (d ≤ 16)) && zeroAt bs 0x60 32 &&
        (qs.all fun e => field e 63 48 = 0 && field e 31 30 = 0) && (query.all fun q => decide (q.node ≤ r.ndraft)) &&
        ((query.drop r.qrows).all fun q => !q.valid) && (r.ndraft = 0 || r.tree) && (!r.windowed || r.causal) then some r
    else none

/-- The unit that an image names: none when the plan does not hold it, its record is malformed, or a page it reads rests
outside HBM (R165, R167, R168, R282). Log 46: DESIGN CHOICE. -/
def viewUnit (s : State) (h : Handle) (n : Nat) : Option ViewSt :=
  match s.model h.modelId, s.handle h.plan with
  | some m, some p =>
    if min 4096 (p.bytes / 640) ≤ n then none
    else
      match parseUnit m.manifest.layers (s.mem.read (p.base + 640 * n) 640) with
      | none => none
      | some u =>
        match m.manifest.layers[u.layer]?, s.req u.seq with
        | some l, some r =>
          if u.qrows ≠ 0 && !((List.range u.pages).all fun i => ((r.pages[u.firstPage + i]?).map fun e => e.tier) = some 1) then none
          else some ⟨m.manifest.layers, m.kvBase, u, l, r.pages⟩
        | _, _ => none
  | _, _ => none

/-- The page of a table entry (R159). -/
def ViewSt.page (v : ViewSt) (j : Nat) : Nat :=
  let before := ((v.layers.take v.unit.layer).map fun l => l.kvHeads * l.pageBytes).sum
  let id := ((v.table[j]?).map fun e => e.pageSet).getD 0
  v.kvBase + setBytes v.layers * id + before + v.layer.pageBytes * v.unit.head

/-- The address of a slot's record of a part: 0 K, 1 V (R158, R159). -/
def ViewSt.record (v : ViewSt) (part slot : Nat) : Nat :=
  let rk := (recordBytes v.layer.kFormat v.layer.headDim).2.2
  let rv := (recordBytes v.layer.vFormat v.layer.headDim).2.2
  v.page (slot / 64) + (if part = 0 then rk * (slot % 64) else 64 * rk + rv * (slot % 64))

/-- Whether image `i` is a hole (R167, R169). -/
def ViewSt.hole (v : ViewSt) (i : Nat) : Bool := v.unit.qrows = 0 || decide (v.unit.pages ≤ i)

/-- The rotary position of a committed slot (R160). -/
def ViewSt.posOf (v : ViewSt) (slot : Nat) : Nat := (((v.table[slot / 64]?).map fun e => e.posBase).getD 0) + slot % 64

/-- The rotary position of a slot: that of the root plus its depth for a draft (R178). -/
def ViewSt.rotary (v : ViewSt) (slot : Nat) : Nat :=
  if slot < v.unit.keys then v.posOf slot
  else v.posOf (v.unit.keys - 1) + v.unit.depth.getD (slot - v.unit.keys) 0

/-- Slots of a unit: committed ones and drafts. -/
def ViewSt.slots (v : ViewSt) : Nat := v.unit.keys + v.unit.ndraft

/-- The query entry of a row. -/
def ViewSt.q (v : ViewSt) (r : Nat) : Query := v.unit.query.getD r ⟨0, 0, false, 0⟩

/-- The segment of a position (R170). -/
def ViewSt.seg (v : ViewSt) (p : Nat) : Nat := (v.unit.bounds.filter fun b => b ≠ 0xFFFFFFFF && decide (b ≤ p)).length

/-- Whether a query row sees a key slot (R170). -/
def ViewSt.sees (v : ViewSt) (q : Query) (slot : Nat) : Bool :=
  let u := v.unit
  if u.keys + u.ndraft ≤ slot then false
  else if slot < u.keys then
    let p := v.posOf slot
    (!u.causal || decide (p ≤ q.pos)) && (!u.windowed || decide ((q.pos : Int) - p < u.window)) &&
      (!u.segmented || v.seg p = v.seg q.pos)
  else u.tree && tbit q.ancestors (slot - u.keys)

/-! ### Statistics (R176, R177) -/

/-- A FP32 word of memory at a local address; the address is a global one. -/
def statWord (s : State) (a : Nat) : Word :=
  match target s a with
  | .here x => BitVec.ofNat 32 (leNat (s.mem.read x 4))
  | _ => 0#32

/-- Sessions of the unit, numbered from the first entry of the page table (R174). -/
def ViewSt.sessions (v : ViewSt) : Nat :=
  if v.unit.qrows = 0 || v.unit.pages = 0 then 0 else (v.unit.firstPage + v.unit.pages + 15) / 16

/-- The address of the statistics of session `j`, row `q` (R167). -/
def ViewSt.statAddr (v : ViewSt) (j q : Nat) : Nat := v.unit.stats + 256 + 512 * j + 8 * q

/-- Whether session `j` has no image, or a row no statistics that the SSTAT face has kept (R176, log 119). -/
def ViewSt.statAbsent (v : ViewSt) (s : State) (j q : Nat) : Bool :=
  decide (16 * (j + 1) ≤ v.unit.firstPage) || decide (v.sessions ≤ j) ||
    !(match target s (v.statAddr j q) with
      | .here a => s.mem.sstat.contains a
      | _ => false)

/-- m and lse of session `j`, row `q` (R167, R176). -/
def ViewSt.sessionStat (v : ViewSt) (s : State) (j q : Nat) : Word × Word :=
  if v.statAbsent s j q then (negInf32, negInf32) else (statWord s (v.statAddr j q), statWord s (v.statAddr j q + 4))

/-- lse and gates of a group of member lse values (R176). Log 47: DESIGN CHOICE. -/
def groupStat (ls : List Word) : Word × List Word :=
  let t := ls.foldl fmax negInf32
  if t = negInf32 then (negInf32, ls.map fun _ => 0#32)
  else
    let sum := ls.foldl (fun acc l => fadd acc (fexp (fsub l t))) 0#32
    let lse := fadd t (flog sum)
    (lse, ls.map fun l => fexp (fsub l lse))

/-- The member lse values of a level, from 1 (R176). -/
def levelLse : Nat → List Word → List Word
  | 0, ls => ls
  | n + 1, ls => levelLse n ((chunks 8 ls).map fun g => (groupStat g).1)

/-- The combine levels of a number of sessions (R174). -/
def levelsFor : Nat → Nat → Nat
  | 0, _ => 1
  | fuel + 1, n => if n ≤ 8 then 1 else 1 + levelsFor fuel ((n + 7) / 8)

/-- Session lse values of a row. -/
def ViewSt.lses (v : ViewSt) (s : State) (q : Nat) : List Word :=
  (List.range v.sessions).map fun j => (v.sessionStat s j q).2

/-- Saved m and lse of a row (R177). -/
def ViewSt.rowStat (v : ViewSt) (s : State) (q : Nat) : Word × Word :=
  let ms := (List.range v.sessions).map fun j => (v.sessionStat s j q).1
  let top := levelLse (levelsFor 64 v.sessions) (v.lses s q)
  (ms.foldl fmax negInf32, top.headD negInf32)

/-- D of a row (R167). -/
def ViewSt.dOf (v : ViewSt) (s : State) (q : Nat) : Word := statWord s (v.unit.stats + 4 * q)

/-- Members of a level, from 1. -/
def ViewSt.members (v : ViewSt) : Nat → Nat
  | 0 => v.sessions
  | 1 => v.sessions
  | n + 2 => (v.members (n + 1) + 7) / 8

/-- Members of the levels below one. -/
def ViewSt.membersBelow (v : ViewSt) (level : Nat) : Nat := ((List.range (level - 1)).map fun i => v.members (i + 1)).sum

/-- Column pieces of a row of the head dimension (R166). -/
def ViewSt.pieces (v : ViewSt) : Nat := (v.layer.headDim + 63) / 64

/-- Level, member and piece of a PARTIAL image (R166). -/
def ViewSt.partOf (v : ViewSt) (i : Nat) : Nat × Nat × Nat :=
  (i / 16384 + 1, i % 16384 / max 1 v.pieces, i % 16384 % max 1 v.pieces)

/-- Columns of a piece. -/
def ViewSt.width (v : ViewSt) (piece : Nat) : Nat := min 64 (v.layer.headDim - 64 * piece)

/-- The address of a row of a PARTIAL piece: members of a level after those of the levels below (R167). -/
def ViewSt.partAddr (v : ViewSt) (level member piece q : Nat) : Nat :=
  v.unit.part + 4 * v.layer.headDim * v.unit.qrows * (v.membersBelow level + member) + 4 * v.layer.headDim * q + 256 * piece

/-! ### The faces that a fetch reads (R166) -/

/-- An FP32 tile of 64 rows, each with its VALID bit, tag and words. -/
def faceTile (row : Nat → Bool × Word × List Word) : Tile := wordTile 64 ((List.range 64).map row)

/-- An address tile; none is all ones (R98). -/
def addrTile (a : Nat → Option Nat) : Tile :=
  faceTile fun r =>
    let x := (a r).getD (2 ^ 64 - 1)
    (true, 0#32, [BitVec.ofNat 32 x, BitVec.ofNat 32 (x / 2 ^ 32)])

/-- The K or V face (R166, R169). -/
def ViewSt.partTile (v : ViewSt) (s : State) (part i : Nat) : Tile :=
  let fmt := if part = 0 then v.layer.kFormat else v.layer.vFormat
  let (hb, nb, _) := recordBytes fmt v.layer.headDim
  ⟨fmt, v.layer.headDim, (List.range 64).map fun r =>
    if v.hole i then emptyRow
    else
      let slot := 64 * (v.unit.firstPage + i) + r
      let a := v.record part slot
      ⟨decide (slot < v.slots), 0#32, s.mem.read a hb, s.mem.read (a + hb) nb⟩, true⟩

/-- The bytes of a part of a page, as a run (R158). -/
def ViewSt.partRun (v : ViewSt) (part i : Nat) : Nat × Nat :=
  let fmt := if part = 0 then v.layer.kFormat else v.layer.vFormat
  (v.record part (64 * (v.unit.firstPage + i)), 64 * (recordBytes fmt v.layer.headDim).2.2)

/-- The POS face. -/
def ViewSt.posTile (v : ViewSt) (i : Nat) : Tile :=
  faceTile fun r =>
    let slot := 64 * (v.unit.firstPage + i) + r
    let live := !v.hole i && decide (slot < v.slots)
    (live, 0#32, if live then [ofNat32 (v.rotary slot)] else [])

/-- The MASK and BIAS faces (R171): `seen` is what a seen slot holds, `blank` what a column of an invalid row holds. -/
def ViewSt.maskTile (v : ViewSt) (i : Nat) (seen : Nat → Word) (blank : Word) : Tile :=
  faceTile fun r =>
    let slot := 64 * (v.unit.firstPage + i) + r
    (true, 0#32, (List.range 64).map fun q =>
      if v.hole i then negInf32
      else if !(v.q q).valid then blank
      else if v.sees (v.q q) slot then seen q
      else negInf32)

/-- −lse of a row; −∞ where lse is −∞ (R171). -/
def ViewSt.biasOf (v : ViewSt) (s : State) (q : Nat) : Word :=
  let lse := (v.rowStat s q).2
  if lse = negInf32 then negInf32 else fsub 0#32 lse

/-- The slot that a query row appends to (R162, R178): that of its draft, or the last one of its page table at its position. -/
def ViewSt.appendSlot (v : ViewSt) (q : Query) : Option Nat :=
  if !q.valid then none
  else if q.node ≠ 0 then some (v.unit.keys + q.node - 1)
  else
    let hit := v.table.zipIdx.filter fun (e, _) => decide (e.posBase ≤ q.pos) && decide (q.pos < e.posBase + 64)
    let slots := (hit.map fun (e, j) => 64 * j + (q.pos - e.posBase)).filter fun x => decide (x < v.unit.keys)
    slots.getLast?

/-- A global address of this package. -/
def ownAddr (s : State) (a : Nat) : Nat := s.boot.pkg * 2 ^ 49 + a

/-- The query rows of a plan's units from a number on that share a layer and a KV head, one unit after the other: the batch rows of
an appending step (DEDUCED, log 121). -/
def batchRows (s : State) (h : Handle) (first : ViewSt) : Nat → Nat → List (ViewSt × Query)
  | 0, _ => []
  | fuel + 1, n =>
    match viewUnit s h n with
    | none => []
    | some v =>
      if v.unit.layer ≠ first.unit.layer || v.unit.head ≠ first.unit.head then []
      else (v.unit.query.take v.unit.qrows).map (fun q => (v, q)) ++ batchRows s h first fuel (n + 1)

/-- Image `i` of the APPEND faces (R162, R166). -/
def appendTile (s : State) (rows : List (ViewSt × Query)) (part i : Nat) : Tile :=
  addrTile fun r => (rows[64 * i + r]?).bind fun (v, q) => (v.appendSlot q).bind fun x =>
    if ((v.table[x / 64]?).map fun e => e.tier) = some 1 then some (ownAddr s (v.record part x)) else none

/-- Image `i` of the MOVE faces (R178): the records of an accepted path, or their destinations. -/
def ViewSt.moveTile (v : ViewSt) (s : State) (path : List Nat) (dst : Bool) (i : Nat) : Tile :=
  addrTile fun r =>
    if 2 ≤ i then none
    else (path[r]?).map fun d => ownAddr s (v.record i (v.unit.keys + (if dst then r else d - 1)))

/-- A row of FP32 words of memory. Log 47: DESIGN CHOICE. -/
def statRow (s : State) (a n : Nat) : List Word := (List.range n).map fun c => statWord s (a + 4 * c)

/-- Whether a member of a level is absent for a row: at level 1 its statistics, above it every member of its group (R176). -/
def ViewSt.memberAbsent (v : ViewSt) (s : State) (q : Nat) : Nat → Nat → Bool
  | 0, j => v.statAbsent s j q
  | n + 1, j => if n = 0 then v.statAbsent s j q else (List.range 8).all fun k => v.memberAbsent s q n (8 * j + k)

/-- Image `i` of the PARTIAL face (R166, R176). Log 47: DESIGN CHOICE. -/
def ViewSt.partialTile (v : ViewSt) (s : State) (i : Nat) : Tile :=
  let (level, member, piece) := v.partOf i
  wordTile (v.width piece) ((List.range 64).map fun r =>
    let absent := decide (v.members level ≤ member) || v.memberAbsent s r level member
    let tag := Tag.word ⟨v.unit.gen, r, member % 8, false, false, absent⟩
    let ok := (v.q r).valid
    (ok, tag, if ok && !absent then statRow s (v.partAddr level member piece r) (v.width piece) else []))

/-- Image `i` of the GATE face (R176). -/
def ViewSt.gateTile (v : ViewSt) (s : State) (i : Nat) : Tile :=
  let level := i / 16384
  let group := i % 16384
  faceTile fun r =>
    let ls := ((levelLse level (v.lses s r)).drop (8 * group)).take 8
    let gates := (groupStat ls).2
    ((v.q r).valid, 0#32, (List.range 8).map fun j => gates.getD j 0#32)

/-- The tile that a view delivers; none for a face that is reserved or write-only (R165, R166); `rows`
are the batch rows that the APPEND faces go by. -/
def ViewSt.tile (v : ViewSt) (s : State) (rows : List (ViewSt × Query)) (face i : Nat) : Option Tile :=
  match face with
  | 0 => some (v.partTile s 0 i)
  | 1 => some (v.partTile s 1 i)
  | 2 => some (v.posTile i)
  | 3 => some (v.maskTile i (fun _ => 0#32) 0#32)
  | 4 => some (v.maskTile i (v.biasOf s) negInf32)
  | 5 => some (faceTile fun _ => (true, 0#32, (List.range 64).map fun q =>
      if (v.q q).valid then v.dOf s q ^^^ 0x80000000#32 else 0#32))
  | 7 => some (faceTile fun q =>
      let (m, lse) := v.rowStat s q
      ((v.q q).valid, 0#32, if (v.q q).valid then [m, lse, v.dOf s q] else []))
  | 8 => some (v.partialTile s i)
  | 9 => some (v.gateTile s i)
  | 10 => some (appendTile s rows 0 i)
  | 11 => some (appendTile s rows 1 i)
  | 12 => some (v.moveTile s (pathOf s v.unit.seq) false i)
  | 13 => some (v.moveTile s (pathOf s v.unit.seq) true i)
  | _ => none

/-- What a tile written to a face leaves in memory: address and bytes of each write; none for a face that takes none
(R165, R166). Rows of a PARTIAL piece at QROWS and above, and members that a level does not have, have no place and are dropped
(DEDUCED, log 121). Log 46: DESIGN CHOICE. -/
def ViewSt.writes (v : ViewSt) (face i : Nat) (t : Tile) : Option (List (Nat × List Byte)) :=
  let rows := (List.range 64).filter fun r => (t.row r).valid
  let word (r c : Nat) : List Byte := leBytes 4 (wordOf t r c).toNat
  match face with
  | 6 => some (rows.map fun r => (v.statAddr i r, word r 0 ++ word r 1))
  | 7 => some (rows.map fun r => (v.unit.stats + 4 * r, word r 0))
  | 8 =>
    let (level, member, piece) := v.partOf i
    if v.members level ≤ member then some []
    else some ((rows.filter fun r => decide (r < v.unit.qrows)).map fun r =>
      (v.partAddr level member piece r, ((List.range (v.width piece)).map fun c => word r c).flatten))
  | _ => none

end Sys2Proof.Machine
end

