-- ==== Sys2Proof/Machine/FrontIO.lean ====
section
/-! DEFINITION. The descriptors of a Front and of a tier mover (R137 to R139, R151, R152, R165, R276, R283): waiting,
hints, fetches and stores of tile images, moves and fills. -/
namespace Sys2Proof.Machine

/-- The handle that a command's slot binds, and the region it holds (R144, R284). -/
def slotHandle (s : State) (c : Cmd) (slot : Nat) : Option (Handle × Nat) :=
  match c.launch.handles[slot]? with
  | none => none
  | some id => (s.handle id).map fun h => (h, c.bases.getD slot h.base)

/-- A striped address at an offset of a handle (R285). Log 74: DESIGN CHOICE. -/
def stripeAddr (s : State) (h : Handle) (off : Nat) : Nat := ownAddr s (h.stripeBase + off)

/-- Bytes of a slot read into a sink (R139, R275, R317, R332). Log 45: DESIGN CHOICE. -/
def slotRead (c : Cmd) (o : Origin) (slot off n : Nat) (sink : Sink) (s : State) : Moved :=
  match slotHandle s c slot with
  | none => .bad 2
  | some (h, base) =>
    if h.kind = 1 || decide (h.bytes < off + n) then .bad 2
    else if h.kind = 3 then loadTo c o (stripeAddr s h off) n sink s
    else if s.badAt (base + off) n then .bad 3
    else .ok (deliver sink (s.mem.read (base + off) n) s)

/-- Bytes written to a slot (R139, R317, R332). Log 45: DESIGN CHOICE. -/
def slotWrite (c : Cmd) (o : Origin) (slot off : Nat) (data : List Byte) (s : State) : Moved :=
  match slotHandle s c slot with
  | none => .bad 2
  | some (h, base) =>
    if h.kind = 1 || decide (h.bytes < off + data.length) then .bad 2
    else if h.kind = 3 then storeTo c o (stripeAddr s h off) data s
    else .ok (applyWrite (base + off) data s)

/-- An entry has done a step of a Front, its last when `n` of them are done (R139). -/
def stepEntry (p : Place) (i n : Nat) (s : State) : State :=
  progress p.cmd (setEntry p.cmd p.code i (fun e => { e with step := e.step + 1, done := decide (n ≤ e.step + 1) }) s)

/-- A move of an entry's step: the step is done, or its command ends. -/
def landMove (p : Place) (i n desc : Nat) (r : Moved) (s : State) : State × Bool :=
  match r with
  | .ok s => (stepEntry p i n s, true)
  | .bad cause => (contextFault p.cmd cause p.code (some desc) s, false)

/-- Steps of a Front's descriptor, as long as one may follow another. -/
def frontSteps (f : State → State × Bool) : Nat → State → State
  | 0, s => s
  | n + 1, s =>
    match f s with
    | (t, true) => frontSteps f n t
    | (t, false) => t

/-! ### Waiting and hints -/

/-- S_SYNC (R137): does no work and completes at issue. -/
def execSSync (at_ : Place) (s : State) : Host.Outcome State Fault Refusal :=
  match atWork s at_ .sSync with
  | none => .next s
  | some (_, _, i) => .next (passEntry at_ i s)

/-- The beat an S_BEAT names (R138). -/
def beatNamed (c : Cmd) (absolute : Bool) (beat : Nat) : Nat := if absolute then beat else beatAdd c.startBeat beat

/-- S_BEAT (R138): holds its list until the beat; a beat already begun completes it at issue and counts as late. Log 54: DESIGN CHOICE. -/
def execSBeat (at_ : Place) (absolute : Bool) (beat : Nat) (s : State) : Host.Outcome State Fault Refusal :=
  match atWork s at_ (.sBeat absolute beat) with
  | none => .next s
  | some (c, _, i) =>
    let t := beatNamed c absolute beat
    if beatLe t s.now then
      .next (passEntry at_ i (setNamed at_.code (fun e => { e with roleA := sat32 (e.roleA + 1) }) s))
    else .next (setList c.id at_.code (fun l => { l with sbeat := some t }) s)

/-- The set of hints that a Front's engine keeps: prefill on C0 and C1, decode on D0 to D3, none on the hub (R152). -/
def hintSet (code scope : Nat) : Option Nat :=
  if scope = 1 then some 2 else if dieOf code < 2 then some 0 else if dieOf code < 6 then some 1 else none

/-- HINT (R151, R152): handed to Isobar at issue. -/
def execHint (at_ : Place) (f : HintF) (s : State) : Host.Outcome State Fault Refusal :=
  match atWork s at_ (.hint f) with
  | none => .next s
  | some (c, _, i) =>
    let s := match hintSet at_.code f.scope with
      | none => s
      | some k => addHint ⟨k, c.ctx, f.cls, f.load, beatAdd s.now f.ahead, f.span⟩ s
    .next (passEntry at_ i s)

/-! ### S_FETCH (R139, R165, R276) -/

/-- Stalled beats and episodes of a context on a tier for a cause (R286, R287). -/
def addStall (ctx tier cause beats episodes : Nat) (s : State) : State :=
  setCtx ctx (fun x =>
    let hit (e : Stall) : Bool := e.tier = tier && e.cause = cause
    if x.stalls.any hit then
      { x with stalls := updBy hit (fun e => { e with
          beats := (e.beats + beats) % 2 ^ 48, episodes := sat32 (e.episodes + episodes), lastBeat := s.beat.elapsed }) x.stalls }
    else { x with stalls := x.stalls ++ [⟨tier, cause, beats % 2 ^ 48, sat32 episodes, s.beat.elapsed⟩] }) s

/-- A fetch from a tier has kept a consumer waiting for a time the spec gives no rule for: LATE counts by free values
(DESIGN CHOICE, log 2). Log 54: DESIGN CHOICE. -/
def lateStall (ctx tier : Nat) (s : State) : State :=
  let (d, s) := draw s
  let (e, s) := draw s
  addStall ctx tier 0 (Config.drawn d).toNat (Config.drawn e).toNat s

/-- A read that is retried keeps a consumer waiting (R274, R286): ERROR counts by free values, since the spec gives the retry no
time (DESIGN CHOICE, log 2). Log 54: DESIGN CHOICE. -/
def errorStall (ctx tier : Nat) (s : State) : State :=
  let (d, s) := draw s
  let (e, s) := draw s
  addStall ctx tier 1 (Config.drawn d).toNat (Config.drawn e).toNat s

/-- A Drizzle stream cache serves an image, or fills with it, dropping the least recently used of 7,281 (R276). Log 45: DESIGN CHOICE. -/
def useCache (die : Nat) (run : Nat × Nat) (s : State) : State :=
  if die < 2 || 6 ≤ die then s
  else
    { s with mem := { s.mem with caches := updAt (die - 2) (fun c =>
        let hit := c.images.contains run
        let images := (c.images.erase run) ++ [run]
        { c with
          images := images.drop (images.length - 7281)
          hits := wrap32 (c.hits + bit hit)
          misses := wrap32 (c.misses + bit (!hit)) }) s.mem.caches } }

/-- Bytes of an image that a fetch reads: payload and sideband (R139). -/
def fetchBytes : Nat := 17696

/-- One image fetched through a view (R165, R166); the unit's GEN is the command's generation (R186). Log 46: DESIGN CHOICE. -/
def fetchFace (c : Cmd) (p : Place) (f : XferF) (h : Handle) (off : Nat) (s : State) : Moved :=
  let face := off / 2 ^ 44
  let i := off % 2 ^ 32 / imageBytes
  let u := off / 2 ^ 32 % 4096
  if off % 2 ^ 32 % imageBytes ≠ 0 || 131072 ≤ i || 2 ^ 48 ≤ off then .bad 2
  else
    match (viewUnit s h u).map fun v => { v with unit := { v.unit with gen := c.gen } } with
    | none => .bad 2
    | some v =>
      let s := if face = 12 || face = 13 then chooseAccept c v.unit.seq s else s
      let rows := if face = 10 || face = 11 then batchRows s h v (4096 - u) u else []
      match v.tile s rows face i with
      | none => .bad 2
      | some t =>
        let s := if f.cache && decide (face < 2) && !v.hole i then useCache (dieOf p.code) (v.partRun face i) s else s
        .ok (putTo c.id p.code f.channel [t] s)

/-- One image fetched from a slot (R139), the descriptor's `k`-th: a striped one is filled as its bytes arrive. Log 45: DESIGN CHOICE. -/
def fetchImage (c : Cmd) (p : Place) (f : XferF) (desc k : Nat) (s : State) : Moved :=
  match slotHandle s c f.handle with
  | none => .bad 2
  | some (h, base) =>
    let off := f.offset + k * (if f.stride = 0 then imageBytes else f.stride)
    let put (im : List Byte) (s : State) : State :=
      putTo c.id p.code f.channel [{ tileOfImage im with last := Config.endsGroup desc k }] s
    if h.kind = 1 then if f.stride ≠ 0 then .bad 2 else fetchFace c p f h off s
    else if h.bytes < off + imageBytes then .bad 2
    else if h.kind = 3 then
      match producedBy c (f.channel * 4096 + p.code) with
      | none => .bad 1
      | some st =>
        let serial := (((s.cmd c.id).bind fun x => x.streams[st]?).map fun e => e.carried).getD 0
        loadTo c ⟨c.id, desc, p.code + 4096 * f.channel⟩ (stripeAddr s h off) fetchBytes (.tile c.id st serial 0 false) (put [] s)
    else if s.badAt (base + off) fetchBytes then .bad 3
    else
      let s := if f.cache then useCache (dieOf p.code) (base + off, imageBytes) s else s
      .ok (put (s.mem.read (base + off) fetchBytes) s)

/-- The next image of an S_FETCH, when its channel holds none back (R139, R141). -/
def fetchStep (p : Place) (f : XferF) (s : State) : State × Bool :=
  match atWork s p (.sFetch f) with
  | none => (s, false)
  | some (c, l, i) =>
    if portHolds c (f.channel * 4096 + p.code) then (s, false)
    else
      let e := l.entry i
      let tier := ((slotHandle s c f.handle).map fun h => if h.1.kind = 0 then h.1.tier else 0).getD 0
      let s := if e.step = 0 then lateStall c.ctx tier s else s
      landMove p i f.tiles e.index (fetchImage c p f e.index e.step s) s

/-- S_FETCH (R139): its images in order, as far as the queue takes them (R141); a queue has at most 64 slots. -/
def execSFetch (at_ : Place) (f : XferF) (s : State) : Host.Outcome State Fault Refusal := .next (frontSteps (fetchStep at_ f) 66 s)

/-! ### S_STORE (R139, R165) -/

/-- One write of a face: its bytes must lie in memory of this package that the context may write (R124). -/
def faceWrite (c : Cmd) (w : Nat × List Byte) (s : State) : Moved :=
  match target s w.1 with
  | .here x => if ownsRange s c.ctx x w.2.length true then .ok (applyWrite x w.2 s) else .bad 2
  | _ => .bad 2

/-- The SSTAT face keeps rows of statistics (R166, R176). -/
def keepStats (face : Nat) (ws : List (Nat × List Byte)) (s : State) : State :=
  if face ≠ 6 then s
  else
    let kept := ws.filterMap fun w => match target s w.1 with
      | .here x => some x
      | _ => none
    { s with mem := { s.mem with sstat := (s.mem.sstat ++ kept).eraseDups } }

/-- One image stored to a slot or through a view (R139, R165, R166), the descriptor's `k`-th. -/
def storeImage (c : Cmd) (p : Place) (f : XferF) (desc k : Nat) (t : Tile) (s : State) : Moved :=
  match slotHandle s c f.handle with
  | none => .bad 2
  | some (h, _) =>
    let off := f.offset + k * (if f.stride = 0 then imageBytes else f.stride)
    if h.kind = 1 then
      let i := off % 2 ^ 32 / imageBytes
      if f.stride ≠ 0 || off % 2 ^ 32 % imageBytes ≠ 0 || 131072 ≤ i || 2 ^ 48 ≤ off then .bad 2
      else
        match viewUnit s h (off / 2 ^ 32 % 4096) with
        | none => .bad 2
        | some v =>
          match v.writes (off / 2 ^ 44) i t with
          | none => .bad 2
          | some ws =>
            match (eachMove (faceWrite c) ws s).1 with
            | .ok s => .ok (keepStats (off / 2 ^ 44) ws s)
            | .bad cause => .bad cause
    else slotWrite c ⟨c.id, desc, p.code + 4096 * f.channel + 65536⟩ f.handle off t.image s

/-- The next image of an S_STORE, once its tile is there; a stream that has ended short of it ends the command (R139, R142). -/
def storeStep (p : Place) (f : XferF) (s : State) : State × Bool :=
  match atWork s p (.sStore f) with
  | none => (s, false)
  | some (c, l, i) =>
    let w := f.channel * 4096 + p.code
    let e := l.entry i
    match inputOf s c w with
    | ([], true) => (contextFault c.id 1 p.code (some e.index) s, false)
    | ([], false) => (starve p.code f.channel s, false)
    | (t :: _, _) => landMove p i f.tiles e.index (storeImage c p f e.index e.step t (takeFrom c.id w 1 s)) s

/-- S_STORE (R139): its tiles in order, as far as they have come; a queue has at most 64 slots. -/
def execSStore (at_ : Place) (f : XferF) (s : State) : Host.Outcome State Fault Refusal := .next (frontSteps (storeStep at_ f) 66 s)

/-! ### Tier movers (R283) -/

/-- The bytes of a range of a slot as runs of local memory; none when some lie elsewhere: a tier mover reaches local memory
only (R315). Log 45: DESIGN CHOICE. -/
def localRuns (s : State) (c : Cmd) (slot off n : Nat) : Option (List (Nat × Nat)) :=
  match slotHandle s c slot with
  | none => none
  | some (h, base) =>
    if h.kind = 1 || decide (h.bytes < off + n) then none
    else if h.kind = 3 then
      (pieces (h.stripeBase + off) n).foldr (fun (o, k) acc =>
        match acc, target s (stripeAddr s h (off + o)) with
        | some rs, .here a => some ((a, k) :: rs)
        | _, _ => none) (some [])
    else some [(base + off, n)]

/-- Bytes stored over runs of memory, in ascending order. -/
def storeRuns : List (Nat × Nat) → List Byte → State → State
  | [], _, s => s
  | (a, k) :: rest, bs, s => storeRuns rest (bs.drop k) (applyWrite a (bs.take k) s)

/-- A tier mover counts the bytes it has moved; its register shows them in units of 10^6 (R491). -/
def countMoved (p : Place) (n : Nat) (s : State) : State := setNamed p.code (fun e => { e with roleA := e.roleA + n }) s

/-- T_MOVE (R275, R283). -/
def execTMove (at_ : Place) (f : TMoveF) (s : State) : Host.Outcome State Fault Refusal :=
  match atWork s at_ (.tMove f) with
  | none => .next s
  | some (c, l, i) =>
    match localRuns s c f.src f.srcOffset f.bytes, localRuns s c f.dst f.dstOffset f.bytes with
    | some from_, some into =>
      let data := (from_.map fun (a, k) => s.mem.read a k).flatten
      if from_.any fun (a, k) => s.badAt a k then .next (contextFault c.id 3 at_.code (some (l.entry i).index) s)
      else .next (progress c.id (finishEntry at_ i (countMoved at_ f.bytes (storeRuns into data s))))
    | _, _ => .next (contextFault c.id 2 at_.code (some (l.entry i).index) s)

/-- T_FILL (R283). -/
def execTFill (at_ : Place) (f : TMoveF) (s : State) : Host.Outcome State Fault Refusal :=
  match atWork s at_ (.tFill f) with
  | none => .next s
  | some (c, l, i) =>
    match localRuns s c f.dst f.dstOffset f.bytes with
    | some into =>
      .next (progress c.id (finishEntry at_ i (countMoved at_ f.bytes
        (storeRuns into ((List.replicate (f.bytes / 4) (leBytes 4 f.pattern)).flatten) s))))
    | none => .next (contextFault c.id 2 at_.code (some (l.entry i).index) s)

end Sys2Proof.Machine
end

