-- ==== Sys2Proof/Machine/Zephyr.lean ====
section
/-! DEFINITION. The fabric copy engines (R322, R331 to R336): copies, waits, atomics, invalidations, reductions and fabric
sori. -/
namespace Sys2Proof.Machine

/-- The ORDER byte of a Zephyr descriptor (R322). -/
def zOrderOf : DBody → Option ZOrder
  | .zCopy f => some f.order
  | .zWait f => some f.order
  | .zAtomic f => some f.order
  | .zInval f => some f.order
  | .zReduce f => some f.order
  | .zXchg f => some f.order
  | .zTxn f => some f.order
  | _ => none

/-- Whether a descriptor may issue (R322): no earlier descriptor with ACQUIRE is incomplete and, with RELEASE, every earlier
write of the engine has been acknowledged. -/
def mayIssue (s : State) (c : Cmd) (l : ListSt) (i : Nat) (o : ZOrder) : Bool :=
  let acquires (e : QEntry) : Bool := match c.image.descs[e.index]? with
    | some d => ((zOrderOf d.body).map fun o => o.acquire).getD false
    | none => false
  !((l.queue.take i).any acquires) &&
    (!o.release || !(s.fab.accesses.any fun x => x.cmd = c.id && agentList x.agent = l.code && kindWrites x.kind))

/-- The entry that a Zephyr row acts on, when its order lets it issue. -/
def zWork (s : State) (p : Place) (body : DBody) (o : ZOrder) : Option (Cmd × ListSt × Nat) :=
  match atWork s p body with
  | none => none
  | some (c, l, i) => if mayIssue s c l i o then some (c, l, i) else none

/-- A remote address operand (R331). -/
def zAddr (c : Cmd) (aslot off : Nat) : Nat := if aslot = 0xFF then off else (c.launch.addr.getD aslot 0 + off) % 2 ^ 64

/-- The local address of an arrival counter (R330). -/
def counterAddr (i : Nat) : Nat := 0x140000000000 + 8 * i

/-- A descriptor begins to wait (R423). -/
def startWait (p : Place) (s : State) : State :=
  setList p.cmd p.code (fun l => if l.wait.isSome then l else { l with wait := some (s.beat.elapsed, false) }) s

/-- A wait ends (R423): its beats are pace-wait when the packet that ended it carried LIMITED. -/
def endWait (p : Place) (limited : Bool) (s : State) : State :=
  let since := ((s.cmd p.cmd).bind fun c => c.list p.code).bind fun l => l.wait
  let s := setList p.cmd p.code (fun l => { l with wait := none }) s
  match since with
  | none => s
  | some (t, _) =>
    if !limited then s
    else
      let n := s.beat.elapsed - t
      let ctx := ((s.cmd p.cmd).map fun c => c.ctx).getD 0
      setCtx ctx (fun x => { x with paceWaitNow := sat32 (x.paceWaitNow + n) })
        { s with pwr := { s.pwr with paceWait := sat32 (s.pwr.paceWait + n) } }

/-- Whether the latest packet for a list's wait carried LIMITED. -/
def waitLimited (l : ListSt) : Bool := (l.wait.map Prod.snd).getD false

/-! ### Z_COPY, Z_WAIT, Z_INVAL -/

/-- Whether a range may be written: the cause of the failure if not (R317, R318). -/
def destBad (s : State) (c : Cmd) (a n : Nat) : Option Nat :=
  (pieces a n).findSome? fun (o, k) =>
    match target s (a + o) with
    | .unmapped => some 2
    | .here x => if ownsRange s c.ctx x k true then none else some 2
    | .remote home _ => if homeUp s home then none else some 4

/-- The accesses issued since `first` belong to a copy. -/
def tagCopy (first cmd : Nat) (bump : Nat × Nat × Nat × Nat) (s : State) : State :=
  { s with fab := { s.fab with
      accesses := updBy (fun x => x.cmd = cmd && decide (first ≤ x.id)) (fun x => { x with bump := some bump }) s.fab.accesses } }

/-- The data movement of a Z_COPY (R332). -/
def copyMove (c : Cmd) (o : Origin) (f : ZCopyF) (a : Nat) (s : State) : Moved :=
  match slotHandle s c f.handle with
  | none => .bad 2
  | some (h, base) =>
    if h.kind = 1 || decide (h.bytes < f.localOffset + f.bytes) then .bad 2
    else if f.get then
      if h.kind = 3 then loadTo c o a f.bytes (.relay o (stripeAddr s h f.localOffset)) s
      else loadTo c o a f.bytes (.memory (base + f.localOffset)) s
    else if h.kind = 3 then
      match destBad s c a f.bytes with
      | some cause => .bad cause
      | none => loadTo c o (stripeAddr s h f.localOffset) f.bytes (.relay o a) s
    else if s.badAt (base + f.localOffset) f.bytes then .bad 3
    else storeTo c o a (s.mem.read (base + f.localOffset) f.bytes) s

/-- The home at which a copy bumps its counter: that of REMOTE for a PUT, this package for a GET (R332). -/
def bumpHome (s : State) (f : ZCopyF) (a : Nat) : Nat :=
  if f.get then s.boot.pkg
  else match target s a with
    | .remote home _ => home
    | _ => s.boot.pkg

/-- Whether the context may touch a local counter (R317, R330). -/
def ownsCounter (s : State) (c : Cmd) (i : Nat) (write : Bool) : Bool := ownsRange s c.ctx (counterAddr i) 8 write

/-- Z_COPY (R323, R332). -/
def execZCopy (at_ : Place) (f : ZCopyF) (s : State) : Host.Outcome State Fault Refusal :=
  match zWork s at_ (.zCopy f) f.order with
  | none => .next s
  | some (c, l, i) =>
    let o := originOf c l i
    let a := zAddr c f.aslot f.remote
    let home := bumpHome s f a
    let badCounter := match f.counter with
      | some k => home = s.boot.pkg && !ownsCounter s c k true
      | none => false
    if badCounter then .next (contextFault c.id 2 at_.code (some o.desc) s)
    else
      let first := s.fab.nextAccess
      match copyMove c o f a s with
      | .bad cause => .next (contextFault c.id cause at_.code (some o.desc) s)
      | .ok s =>
        let s := match f.counter with
          | none => s
          | some k =>
            let b := (first, home, k, f.inc)
            if s.fab.accesses.any fun x => x.cmd = c.id && decide (first ≤ x.id) then tagCopy first c.id b s
            else endCopy o b s
        .next (progress c.id (finishEntry at_ i s))

/-- Z_WAIT (R323, R332): completes once the counter is at or above VALUE. -/
def execZWait (at_ : Place) (f : ZWaitF) (s : State) : Host.Outcome State Fault Refusal :=
  match zWork s at_ (.zWait f) f.order with
  | none => .next s
  | some (c, l, i) =>
    if !ownsCounter s c f.counter false then .next (contextFault c.id 2 at_.code (some (l.entry i).index) s)
    else if f.value ≤ leNat (s.mem.read (counterAddr f.counter) 8) then
      .next (finishEntry at_ i (endWait at_ (waitLimited l) s))
    else .next (startWait at_ s)

/-- The packages of a command's job (R317, R382). -/
def jobMembers (s : State) (c : Cmd) : List Nat := membersOf (((s.ctx c.ctx).map fun x => x.members).getD 0)

/-- Z_INVAL (R328, R332): the own cache at once; with SCOPE 1 every other package of the job acknowledges. -/
def execZInval (at_ : Place) (f : ZInvalF) (s : State) : Host.Outcome State Fault Refusal :=
  match zWork s at_ (.zInval f) f.order with
  | none => .next s
  | some (c, l, i) =>
    let o := originOf c l i
    let a := zAddr c f.aslot f.addr
    let s := invalidate (jobOf s c.id) a f.bytes s
    let others := if f.jobScope then (jobMembers s c).filter fun m => m ≠ s.boot.pkg else []
    if others.any fun m => !homeUp s m then .next (contextFault c.id 4 at_.code (some o.desc) s)
    else .next (finishEntry at_ i (others.foldl (fun s m => issueAccess o m a (.inval f.bytes) .none none s) s))

/-! ### An engine's buffer -/

/-- Bytes of a slot read into the engine's buffer, from its end on. -/
def bufferRead (c : Cmd) (o : Origin) (p : Place) (slot off n : Nat) (s : State) : Moved :=
  let have_ := (((s.cmd c.id).bind fun x => x.list p.code).bind fun l => l.buf).getD []
  let n' := (n + 31) / 32 * 32
  let s := setList c.id p.code (fun l => { l with buf := some (have_ ++ List.replicate n' 0#8) }) s
  let striped : Bool := match slotHandle s c slot with
    | some (h, _) => decide (h.kind = 3)
    | none => false
  slotRead c o slot off (if striped then n' else n) (.buffer c.id p.code have_.length) s

/-- The engine's buffer. -/
def bufferOf (s : State) (p : Place) : Option (List Byte) := ((s.cmd p.cmd).bind fun c => c.list p.code).bind fun l => l.buf

/-- The buffer is given up. -/
def dropBuffer (p : Place) (s : State) : State := setList p.cmd p.code (fun l => { l with buf := none }) s

/-- The source bytes of a descriptor: read once into the buffer, then handed on when all have arrived. -/
def withSource (c : Cmd) (o : Origin) (p : Place) (slot off n : Nat) (k : List Byte → State → State) (s : State) : State :=
  let started : Moved := if (bufferOf s p).isSome then .ok s else bufferRead c o p slot off n s
  match started with
  | .bad cause => contextFault c.id cause p.code (some o.desc) s
  | .ok s =>
    if awaitingDesc s c.id o.desc then s
    else k ((bufferOf s p).getD []) s

/-! ### Z_ATOMIC (R324, R332) -/

/-- An entry of Z_ATOMIC: address, operation, operand, compare. Log 51: DESIGN CHOICE. -/
def atomicEntry (bs : List Byte) (i : Nat) : Nat × Nat × Nat × Nat :=
  (leAt bs (32 * i) 8, leAt bs (32 * i + 8) 1, leAt bs (32 * i + 16) 8, leAt bs (32 * i + 24) 8)

/-- One atomic issued; its old value goes to its place in the result slot (R320, R324). Log 51: DESIGN CHOICE. -/
def issueAtomic (c : Cmd) (o : Origin) (f : ZAtomicF) (x : Nat × Nat × Nat × Nat × Nat) (s : State) : Moved :=
  let (i, a, op, operand, compare) := x
  let dst := f.dstOffset + 8 * i
  if a % 8 ≠ 0 then .bad 2
  else
    match target s a, slotHandle s c f.dst with
    | .unmapped, _ => .bad 2
    | _, none => .bad 2
    | .here b, _ =>
      if !ownsRange s c.ctx b 8 true then .bad 2
      else if s.badAt b 8 then .bad 3
      else
        let old := leNat (s.mem.read b 8)
        match atomicNew op old operand compare with
        | none => .bad 4
        | some v => slotWrite c o f.dst dst (leBytes 8 old) (flagWaits b 8 false (applyAtomic op b v s))
    | .remote home g, some (h, base) =>
      if !homeUp s home then .bad 4
      else if h.kind = 1 || h.kind = 3 || decide (h.bytes < dst + 8) then .bad 2
      else .ok (issueAccess o home g (.atomic op operand compare) (.memory (base + dst)) none s)

/-- The moves of an engine's entry land: the entry is done, or its command ends. -/
def landMoves (p : Place) (i : Nat) (o : Origin) (r : Moved × State) : State :=
  match r with
  | (.ok s, _) => progress p.cmd (finishEntry p i s)
  | (.bad cause, s) => contextFault p.cmd cause p.code (some o.desc) s

/-- Z_ATOMIC (R324, R332): entries issue in list order. -/
def execZAtomic (at_ : Place) (f : ZAtomicF) (s : State) : Host.Outcome State Fault Refusal :=
  match zWork s at_ (.zAtomic f) f.order with
  | none => .next s
  | some (c, l, i) =>
    let o := originOf c l i
    .next (withSource c o at_ f.src f.srcOffset (32 * f.count) (fun bs s =>
      let xs := (List.range f.count).map fun j => (j, atomicEntry bs j)
      landMoves at_ i o (eachMove (issueAtomic c o f) xs (dropBuffer at_ s))) s)

/-! ### Z_REDUCE (R333) -/

/-- The members of a reduction: positions FIRST + k × STEP of the job's packages; none when a position has no package. -/
def reduceMembers (s : State) (c : Cmd) (f : ZReduceF) : Option (List Nat) :=
  let ms := jobMembers s c
  let ks := (List.range f.count).map fun k => ms[f.first + k * f.step]?
  if ks.all Option.isSome then some (ks.filterMap id) else none

/-- The FP32 values of elements in a format. -/
def elemWords (f : Fmt) (bs : List Byte) (n : Nat) : List Word :=
  (chunks (f.bits / 8) (bs.take (n * (f.bits / 8)))).map fun e => toF32 (f.decode (leNat e))

/-- Elements converted to a format, with what the conversion counts (R56, R57). -/
def elemBytes (f : Fmt) (ws : List Word) : List Byte × ConvStat :=
  let r := convertRun f (ws.map f32) fun _ => none
  ((r.1.map fun r => leBytes (f.bits / 8) r).flatten, r.2.2)

/-- The reduction of one element's contributions (R100, R333). -/
def reduceElem (max_ arrival : Bool) (ws : List Word) : Word :=
  if max_ then ws.foldl fmax (ws.headD 0#32)
  else if arrival then (ws.drop 1).foldl fadd (ws.headD 0#32)
  else treeSum ws

/-- The result of a reduction from the contributions in the order in which they are added. Log 50: DESIGN CHOICE. -/
def reduceAll (f : ZReduceF) (fi fo : Fmt) (cs : List (List Byte)) : List Byte × ConvStat :=
  let cols := cs.map fun b => elemWords fi b f.elements
  elemBytes fo ((List.range f.elements).map fun i => reduceElem f.max f.arrival (cols.map fun ws => ws.getD i 0#32))

/-- The contributions of a reduction in the order in which they are added: by member under FIXED; the own one and then by
arrival under ARRIVAL. Log 50: DESIGN CHOICE. -/
def reduceOrder (own : Nat) (ms : List Nat) (f : ZReduceF) (mine : List Byte) (arr : List Contribution) : List (List Byte) :=
  if f.arrival then mine :: (arr.filter fun x => ms.contains x.pkg && decide (x.pkg ≠ own)).map fun x => x.data
  else ms.map fun m => if m = own then mine else ((arr.find? fun x => x.pkg = m).map fun x => x.data).getD []

/-- Z_REDUCE (R333): the own contribution leaves for every other member once; the result is written when every member's
contribution is here. As a global operation it fails when a member is lost or 100,000 beats pass (R309, R311). Log 50: DESIGN CHOICE. -/
def execZReduce (at_ : Place) (f : ZReduceF) (arrivals : List Contribution) (s : State) : Host.Outcome State Fault Refusal :=
  match zWork s at_ (.zReduce f) f.order with
  | none => .next s
  | some (c, l, i) =>
    let o := originOf c l i
    let fail (cause : Nat) (s : State) : State := contextFault c.id cause at_.code (some o.desc) s
    match reduceMembers s c f, Fmt.ofCode f.inFormat, Fmt.ofCode f.outFormat with
    | some ms, some fi, some fo =>
      let own := s.boot.pkg
      let lost := s.beat.clkHold || ms.any fun m => m ≠ own && !homeUp s m
      let late := match l.wait with
        | some (t, _) => decide (t + 100000 ≤ s.beat.elapsed)
        | none => false
      if !ms.contains own || lost || late then .next (fail 6 s)
      else
        .next (withSource c o at_ f.src f.srcOffset (f.elements * (fi.bits / 8)) (fun mine s =>
          let mine := mine.take (f.elements * (fi.bits / 8))
          let others := ms.filter fun m => m ≠ own
          let s := if l.wait.isSome then s
            else startWait at_ (others.foldl (fun s m => sendFab m 0 (.contribution mine) s) s)
          if others.all fun m => arrivals.any fun x => x.pkg = m then
            let limited := (arrivals.getLast?.map fun x => x.limited).getD false
            let r := reduceAll f fi fo (reduceOrder own ms f mine arrivals)
            match slotWrite c o f.dst f.dstOffset r.1 s with
            | .bad cause => fail cause s
            | .ok s =>
              let s := setNamed at_.code (fun e => { e with
                saturated := sat32 (e.saturated + r.2.sat)
                nanOut := sat32 (e.nanOut + r.2.nan) }) s
              progress c.id (finishEntry at_ i (dropBuffer at_ (endWait at_ limited s)))
          else s) s)
    | _, _, _ => .next (fail 6 s)

/-! ### Z_TXN (R336, R337) -/

/-- The entries of a transaction with ASLOT added to every line address. -/
def txnEntries (c : Cmd) (f : ZTxnF) (bs : List Byte) : List Byte :=
  ((List.range f.count).map fun i =>
    let e := padTo 304 ((bs.drop (304 * i)).take 304)
    leBytes 8 (zAddr c f.aslot (leAt e 0 8)) ++ e.drop 8).flatten

/-- The line addresses of a transaction. Log 85: DESIGN CHOICE. -/
def txnAddrs (f : ZTxnF) (es : List Byte) : List Nat := (List.range f.count).map fun i => leAt es (304 * i) 8

/-- The home of an address: this package's own, another, or none. Log 85: DESIGN CHOICE. -/
def homeOfAddr (s : State) (a : Nat) : Option Nat :=
  match target s a with
  | .here _ => some s.boot.pkg
  | .remote home _ => some home
  | .unmapped => none

/-- A transaction on this package's own lines is staged, or answered at once (R337). Log 85: DESIGN CHOICE. -/
def stageOwn (c : Cmd) (o : Origin) (f : ZTxnF) (es : List Byte) (sink : Sink) (s : State) : Moved :=
  let own := s.boot.pkg
  let ok := (txnAddrs f es).all fun a => decide (a % 256 = 0) && (match localOf s a with
    | some x => ownsRange s c.ctx x 256 true
    | none => false)
  if !ok then .bad 2
  else
    let seq := seqFor s.fab.seqOut o.agent own
    let x : Access := ⟨s.fab.nextAccess, own, o.agent, c.id, o.desc, seq, s.beat.elapsed, false, false, true, 0, .txn f.beat es, sink, none, none⟩
    let s := { s with fab := { s.fab with
      accesses := s.fab.accesses ++ [x]
      nextAccess := s.fab.nextAccess + 1
      seqOut := seqSet s.fab.seqOut o.agent own (seq + 1) } }
    let not_ (n : Nat) : State :=
      answerTxn own o.agent seq n { s with fab := { s.fab with txnNot := sat32 (s.fab.txnNot + 1) } }
    if f.beat ≠ 0 && beatLe f.beat s.now then .ok (not_ 2)
    else if 64 ≤ s.fab.txns.length then .ok (not_ 3)
    else
      let beat := if f.beat = 0 then beatAdd s.now 1 else f.beat
      .ok { s with fab := { s.fab with txns := s.fab.txns ++ [⟨own, o.agent, seq, jobOf s c.id, beat, es, none⟩] } }

/-- Z_TXN (R336, R337): lines of different homes end the command; the result word is written when it comes. -/
def execZTxn (at_ : Place) (f : ZTxnF) (s : State) : Host.Outcome State Fault Refusal :=
  match zWork s at_ (.zTxn f) f.order with
  | none => .next s
  | some (c, l, i) =>
    let o := originOf c l i
    .next (withSource c o at_ f.src f.srcOffset (304 * f.count) (fun bs s =>
      let s := dropBuffer at_ s
      let es := txnEntries c f bs
      let homes := ((txnAddrs f es).map (homeOfAddr s)).eraseDups
      let moved : Moved :=
        match homes, slotHandle s c f.res with
        | [some home], some (h, base) =>
          if h.kind = 1 || h.kind = 3 || decide (h.bytes < f.resOffset + 8) then .bad 2
          else
            let sink : Sink := .memory (base + f.resOffset)
            if home = s.boot.pkg then stageOwn c o f es sink s
            else if !homeUp s home then .bad 4
            else
              let s := (txnAddrs f es).foldl (fun s a => spoilFills a 256 (dropBlocks none a 256 s)) s
              .ok (issueAccess o home ((txnAddrs f es).headD 0) (.txn f.beat es) sink none s)
        | _, _ => .bad 2
      landMoves at_ i o (moved, s)) s)

end Sys2Proof.Machine
end

