-- ==== Sys2Proof/Machine/Exchange.lean ====
section
/-! DEFINITION. The expert exchange (R184 to R204, R334, R335): capacities, rounds, count records, rows and results. -/
namespace Sys2Proof.Machine

/-- The model with an index on the package. -/
def modelAt (s : State) (index : Nat) : Option Model := s.models.models.find? fun m => m.index = index

/-- The instance table a command is pinned to (R193). Log 48: DESIGN CHOICE. -/
def tableFor (m : Model) (c : Cmd) : Option InstTable :=
  match m.tables.find? fun t => t.version = c.instVersion with
  | some t => some t
  | none => m.tables.getLast?

/-- The instances of an expert (R193). Log 48: DESIGN CHOICE. -/
def instancesOf (t : InstTable) (layer expert : Nat) : List (Nat × Nat) :=
  ((t.entries.find? fun e => e.layer = layer && e.expert = expert).map fun e => e.inst).getD []

/-- The capacity of an instance for one half, round and source (R194). -/
def capacityOf (l : Layer) (rows : Nat) : Nat := max l.cMin ((l.cfQ8 * l.topk * rows + 256 * l.experts - 1) / (256 * max 1 l.experts))

/-- Where one entry of an expert goes: round and instance by its rank (R195). -/
def roundOf (n c r : Nat) : Nat × Nat := (r / (n * c) + 1, r % (n * c) / c)

/-- What a source does with the entries of a half (R195, R196): those sent (position, destination, slot, round), those
dropped, and for each expert its count and the rounds it needs. -/
structure Assignment where
  entries : List (Nat × Nat × Nat × Nat)
  dropped : List Nat
  experts : List (Nat × Nat × Nat)
  deriving DecidableEq, Repr

/-- The assignment of a half under the pinned table and its capacity factor (R190); none when an entry's expert has no instance
(R193). -/
def assign (t : InstTable) (l : Layer) (layer : Nat) (counts offsets : List Nat) : Option Assignment :=
  let rows := (counts.sum + l.topk - 1) / max 1 l.topk
  let factor := ((t.factors.find? fun x => x.1 = layer).map Prod.snd).getD l.cfQ8
  let c := capacityOf { l with cfQ8 := factor } rows
  let live := (counts.zipIdx.zip offsets).filter fun ((k, _), _) => decide (0 < k)
  if live.any fun ((_, e), _) => (instancesOf t layer e).isEmpty then none
  else
    let made := live.map fun ((k, e), off) =>
      let inst := instancesOf t layer e
      (List.range k).map fun r =>
        let (round, i) := roundOf inst.length c r
        let (pkg, slot) := inst.getD i (0, 0)
        (off + r, pkg, slot, round)
    let all := made.flatten
    let keep (x : Nat × Nat × Nat × Nat) : Bool := l.drop ≠ 1 || decide (x.2.2.2 ≤ 1)
    some ⟨all.filter keep, (all.filter fun x => !keep x).map fun x => x.1,
      live.map fun ((k, e), _) => (e, k, (k - 1) / max 1 ((instancesOf t layer e).length * c) + 1)⟩

/-! ### Rows that arrive -/

/-- A Zephyr's entry counts a row discarded for its generation (R201). -/
def discardRow (code : Nat) (s : State) : State := setNamed code (fun e => { e with roleA := sat32 (e.roleA + 1) }) s

/-- The Z_XCHG at the head of a list. -/
def headExchange (c : Cmd) (l : ListSt) : Option ZXchgF :=
  match (l.queue.find? fun e => !e.done).bind fun e => c.image.descs[e.index]? with
  | none => none
  | some d =>
    match d.body with
    | DBody.zXchg f => some f
    | _ => none

/-- The running list that carries out an exchange of a role, model, layer and half. -/
def exchangeList (s : State) (job role modelId layer half : Nat) : Option (Cmd × ListSt) :=
  let has (c : Cmd) (l : ListSt) : Bool := match headExchange c l with
    | some f => f.role = role && f.layer = layer && f.half = half && ((modelAt s f.model).map fun m => m.id) = some modelId
    | none => false
  s.jobs.cmds.findSome? fun c =>
    if c.phase = .running && ((s.ctx c.ctx).map fun x => x.job) = some job then (c.lists.find? (has c)).map fun l => (c, l) else none

/-- The wait of a list on an exchange takes the LIMITED bit of a packet (R423). -/
def flagExchangeList (c : Cmd) (limited : Bool) (l : ListSt) : ListSt :=
  match headExchange c l with
  | some _ => { l with wait := l.wait.map fun w => (w.1, limited) }
  | none => l

/-- A packet of a job's exchange marks the waits of its Z_XCHG descriptors with its LIMITED bit (R423). -/
def flagExchange (job : Nat) (limited : Bool) (s : State) : State :=
  { s with jobs := { s.jobs with cmds := s.jobs.cmds.map fun c =>
      if ((s.ctx c.ctx).map fun x => x.job) = some job then { c with lists := c.lists.map (flagExchangeList c limited) } else c } }

/-- The byte offset of a position's tile image in a window (R191, R197, R199). -/
def windowImage (f : ZXchgF) (piece x : Nat) : Nat := f.bufOffset + f.pieceStride * piece + imageBytes * (x / 64)

/-- A row put in its place of a tile image in memory: payload, scales, tag, VALID bit, and FORMAT and K_EXTENT unless
`format` is 0 (R44). -/
def storeRow (c : Cmd) (slot off r format kExtent : Nat) (tag : Word) (data scales : List Byte) (s : State) : Option State :=
  match localRuns s c slot off imageBytes with
  | none => none
  | some runs =>
    let old := (runs.map fun (a, k) => s.mem.read a k).flatten
    let t := tileOfImage old
    let t := { t with
      format := if format = 0 then t.format else format
      kExtent := if format = 0 then t.kExtent else kExtent
      rows := updAt r (fun _ => ⟨true, tag, padTo 256 data, padTo 16 scales⟩) t.rows }
    some (storeRuns runs t.image s)

/-- The descriptor of the SEND that a window belongs to. -/
def sendFields (c : Cmd) (x : XSend) : Option ZXchgF := (c.list x.code).bind (headExchange c)

/-- The engine that a discarded row is counted on when no exchange waits for it. -/
def firstZephyr : Nat := sourceCode 6 4 0

/-- The latest count record of a source for a layer and half (R197, R201). -/
def latestCounts (s : State) (pkg job modelId layer half : Nat) : Option (CountRec × Option Nat) :=
  s.fab.counts.find? fun (r, _) => r.pkg = pkg && r.job = job && r.model = modelId && r.layer = layer && r.half = half

/-- A result row reaches its return window, or is discarded (R199, R201). -/
def acceptResult (r : XRow) (s : State) : State :=
  match s.fab.sends.find? fun x => x.model = r.model && x.layer = r.layer && x.half = r.half && jobOf s x.cmd = r.job with
  | none => discardRow firstZephyr s
  | some x =>
    match s.cmd x.cmd with
    | none => discardRow x.code s
    | some c =>
      if (tagOf r.tag).gen ≠ c.gen then discardRow x.code s
      else
        match sendFields c x with
        | none => discardRow x.code s
        | some f =>
          match storeRow c f.ret (windowImage f r.piece r.position) (r.position % 64) r.format r.kExtent r.tag r.data r.scales s with
          | none => contextFault c.id 2 x.code none s
          | some s =>
            progress c.id { s with fab := { s.fab with
              sends := updBy (fun y => y = x) (fun y => { y with back := y.back ++ [(r.position, r.piece, r.pieces)] }) s.fab.sends } }

/-- A row reaches a receive window, or is discarded (R197, R201). -/
def acceptRow (r : XRow) (s : State) : State :=
  if r.toReturn then acceptResult r s
  else
    let engine := ((exchangeList s r.job 1 r.model r.layer r.half).map fun x => x.2.code).getD firstZephyr
    match latestCounts s r.pkg r.job r.model r.layer r.half with
    | none => discardRow engine s
    | some (rec, _) =>
      if (tagOf r.tag).gen ≠ rec.gen then discardRow engine s
      else { s with fab := { s.fab with rows := s.fab.rows ++ [r] } }

/-- A count record becomes its source's latest; rows of an earlier generation of the source are no longer waited for (R197,
R201). -/
def acceptCounts (r : CountRec) (s : State) : State :=
  let same (x : CountRec) : Bool := x.pkg = r.pkg && x.job = r.job && x.model = r.model && x.layer = r.layer && x.half = r.half
  let stale (x : XRow) : Bool := x.pkg = r.pkg && x.job = r.job && x.model = r.model && x.layer = r.layer && x.half = r.half &&
    decide ((tagOf x.tag).gen ≠ r.gen)
  { s with fab := { s.fab with
      counts := (s.fab.counts.filter fun x => !same x.1) ++ [(r, none)]
      rows := s.fab.rows.filter fun x => !stale x } }

/-- COUNT_RECORD (R197). -/
def execCountRecord (r : CountRec) (s : State) : Host.Outcome State Fault Refusal :=
  .next (flagExchange r.job r.limited (acceptCounts r s))

/-- EXCHANGE_ROW (R198, R199, R201, R202). -/
def execExchangeRow (r : XRow) (s : State) : Host.Outcome State Fault Refusal :=
  .next (flagExchange r.job r.limited (acceptRow r s))

/-! ### SEND -/

/-- A row leaves for a package, once it has a write credit there; the engine waits for its acknowledgement as for any write (R199, R321,
R326). Log 49: DESIGN CHOICE. -/
def issueRow (o : Origin) (dest : Nat) (r : XRow) (s : State) : State :=
  if dest = s.boot.pkg then acceptRow r s
  else
    let seq := seqFor s.fab.seqOut o.agent dest
    let held := decide (32 ≤ creditsUsed s dest)
    let x : Access := ⟨s.fab.nextAccess, dest, o.agent, o.cmd, o.desc, seq, s.beat.elapsed, held, false, true, 0, .store r.data, .none,
      none, some r⟩
    let s := { s with fab := { s.fab with
      accesses := s.fab.accesses ++ [x]
      nextAccess := s.fab.nextAccess + 1
      seqOut := seqSet s.fab.seqOut o.agent dest (seq + 1) } }
    if held then s else sendAccess x s

/-- The tile of a piece and position in a SEND's buffer: the count tile, the offset tile, then `n` tiles a piece. -/
def bufferTile (buf : List Byte) (n piece x : Nat) : Tile := tileOfImage ((buf.drop (imageBytes * (2 + n * piece + x / 64))).take imageBytes)

/-- The tag of a row with the command's generation (R186). -/
def withGen (gen : Nat) (w : Word) : Word := Tag.word { tagOf w with gen := gen }

/-- The rows of one entry, a row for each piece. -/
def entryRows (s : State) (c : Cmd) (f : ZXchgF) (modelId : Nat) (buf : List Byte) (n : Nat) (e : Nat × Nat × Nat × Nat) : List XRow :=
  (List.range f.pieces).map fun p =>
    let t := bufferTile buf n p e.1
    let row := t.row (e.1 % 64)
    ⟨s.boot.pkg, jobOf s c.id, modelId, f.layer, f.half, false, e.2.2.1, e.2.2.2, e.1, p, f.pieces, t.format, t.kExtent,
      withGen c.gen row.tag, padTo 256 row.data, padTo 16 row.scales, limitedNow s⟩

/-- Whether every piece of an entry's result is in the return window. -/
def hasReturned (x : XSend) (pos : Nat) : Bool :=
  let got := (x.back.filter fun b => b.1 = pos).map fun b => b.2
  match got with
  | [] => false
  | (_, n) :: _ => decide (n ≤ (got.map Prod.fst).eraseDups.length)

/-- The next round that may be sent to a destination: all rounds sent so far have returned (R198). -/
def nextRound (x : XSend) (dest : Nat) : Option Nat :=
  let mine := x.entries.filter fun e => e.2.1 = dest
  let sent (r : Nat) : Bool := x.sent.contains (dest, r)
  let rounds := (mine.map fun e => e.2.2.2).eraseDups
  let owed := mine.any fun e => sent e.2.2.2 && !hasReturned x e.1
  if owed then none
  else (rounds.filter fun r => !sent r).foldl (fun b r => match b with
    | none => some r
    | some q => some (min q r)) none

/-- Every round that may be sent leaves. Log 49: DESIGN CHOICE. -/
def sendRounds (c : Cmd) (o : Origin) (p : Place) (f : ZXchgF) (modelId : Nat) (buf : List Byte) (n : Nat) (s : State) : State :=
  match s.fab.sends.find? fun x => x.cmd = c.id && x.code = p.code with
  | none => s
  | some x =>
    ((x.entries.map fun e => e.2.1).eraseDups).foldl (fun s dest =>
      match nextRound x dest with
      | none => s
      | some r =>
        let es := x.entries.filter fun e => e.2.1 = dest && e.2.2.2 = r
        let s := { s with fab := { s.fab with
          sends := updBy (fun y => y.cmd = c.id && y.code = p.code) (fun y => { y with sent := y.sent ++ [(dest, r)] }) s.fab.sends } }
        ((es.map (entryRows s c f modelId buf n)).flatten).foldl (fun s row => issueRow o dest row s) s) s

/-- The count record of a source for a destination (R197). -/
def countsFor (es : List (Nat × Nat × Nat × Nat)) (dest : Nat) : List (Nat × Nat × Nat) :=
  let mine := (es.filter fun e => e.2.1 = dest).map fun e => (e.2.2.1, e.2.2.2)
  mine.eraseDups.map fun k => (k.1, k.2, (mine.filter fun x => x = k).length)

/-- Count records leave for every package of the job (R197). -/
def sendCounts (c : Cmd) (f : ZXchgF) (modelId : Nat) (es : List (Nat × Nat × Nat × Nat)) (s : State) : State :=
  (jobMembers s c).foldl (fun s m =>
    let r : CountRec := ⟨s.boot.pkg, jobOf s c.id, modelId, f.layer, f.half, c.gen, limitedNow s, countsFor es m⟩
    if m = s.boot.pkg then acceptCounts r s else sendFab m 0 (.counts r) s) s

/-- A dropped entry's padding rows and its count (R196). -/
def placeDropped (c : Cmd) (p : Place) (f : ZXchgF) (buf : List Byte) (n x : Nat) (s : State) : State :=
  let s := setNamed p.code (fun e => { e with roleB := sat32 (e.roleB + 1) }) s
  (List.range f.pieces).foldl (fun s q =>
    let row := (bufferTile buf n q x).row (x % 64)
    let tag := Tag.word { tagOf row.tag with gen := c.gen, pad := true }
    (storeRow c f.ret (windowImage f q x) (x % 64) 0 0 tag [] [] s).getD s) s

/-- What a SEND counts, noted in its command (R204). -/
def noteCounts (c : Cmd) (index layer : Nat) (xs : List (Nat × Nat × Nat)) (s : State) : State :=
  setCmd c.id (fun c => { c with counts := c.counts ++ xs.map fun x => ⟨layer + 65536 * index, x.1, x.2.1, x.2.2⟩ }) s

/-- Words of a tile of index words, 64 to a row. -/
def indexWords (t : Tile) (n : Nat) : List Nat := (List.range n).map fun i => (wordOf t (i / 64) (i % 64)).toNat

/-- A SEND begins: capacities and rounds are computed and the count records sent (R194 to R197, R204). -/
def beginSend (c : Cmd) (o : Origin) (p : Place) (f : ZXchgF) (m : Model) (l : Layer) (t : InstTable) (buf : List Byte) (n : Nat) (s : State) : State :=
  let counts := indexWords (tileOfImage (buf.take imageBytes)) l.experts
  let offsets := indexWords (tileOfImage ((buf.drop imageBytes).take imageBytes)) l.experts
  match assign t l f.layer counts offsets with
  | none => contextFault c.id 1 p.code (some o.desc) s
  | some a =>
    let s := { s with fab := { s.fab with
      sends := s.fab.sends ++ [⟨c.id, p.code, m.id, f.layer, f.half, a.entries, [], []⟩] } }
    let s := a.dropped.foldl (fun s x => placeDropped c p f buf n x s) s
    sendCounts c f m.id a.entries (noteCounts c f.model f.layer a.experts s)

/-- SEND with its buffer read: begun once, rounds sent as results return, complete with the last result (R195 to R199). -/
def runSend (c : Cmd) (o : Origin) (p : Place) (i : Nat) (f : ZXchgF) (m : Model) (l : Layer) (t : InstTable) (buf : List Byte) (n : Nat) (s : State) : State :=
  let mine (x : XSend) : Bool := x.cmd = c.id && x.code = p.code
  let s := if s.fab.sends.any mine then s else beginSend c o p f m l t buf n s
  match s.fab.sends.find? mine with
  | none => s
  | some _ =>
    let s := sendRounds c o p f m.id buf n s
    match s.fab.sends.find? mine with
    | none => s
    | some x =>
      if x.entries.all fun e => hasReturned x e.1 then
        let limited := (((s.cmd c.id).bind fun y => y.list p.code).map waitLimited).getD false
        let s := { s with fab := { s.fab with sends := s.fab.sends.filter fun y => !mine y } }
        finishEntry p i (dropBuffer p (endWait p limited s))
      else startWait p s

/-- SEND (R195 to R199, R335): the count and offset tiles are read first, then the dispatch buffer's tiles. -/
def exchangeSend (c : Cmd) (o : Origin) (p : Place) (i : Nat) (f : ZXchgF) (m : Model) (l : Layer) (t : InstTable) (s : State) : State :=
  withSource c o p f.buf f.countOffset (2 * imageBytes) (fun buf s =>
    let total := (indexWords (tileOfImage (buf.take imageBytes)) l.experts).sum
    let n := (total + 63) / 64
    if buf.length < imageBytes * (2 + n * f.pieces) then
      let images := ((List.range f.pieces).map fun q => (List.range n).map fun k => windowImage f q (64 * k)).flatten
      match eachMove (fun off s => bufferRead c o p f.buf off imageBytes s) images s with
      | (.bad cause, s) => contextFault c.id cause p.code (some o.desc) s
      | (.ok s, _) =>
        if awaitingDesc s c.id o.desc then s
        else runSend c o p i f m l t ((bufferOf s p).getD []) n s
    else runSend c o p i f m l t buf n s) s

/-! ### RECEIVE and RETURN -/

/-- Rows that a count record announces for a slot and round. Log 48: DESIGN CHOICE. -/
def announced (r : CountRec) (lslot round : Nat) : Nat :=
  ((r.counts.filter fun x => x.1 = lslot && x.2.1 = round).map fun x => x.2.2).sum

/-- The rows of one source for a slot and round that have arrived whole: positions and tags, ascending (R197). -/
def arrivedRows (s : State) (pkg job modelId : Nat) (f : ZXchgF) : List (Nat × Word) :=
  let mine := s.fab.rows.filter fun r => r.pkg = pkg && r.job = job && r.model = modelId && r.layer = f.layer && r.half = f.half &&
    r.lslot = f.lslot && r.round = f.round
  let whole := (mine.filter fun r => r.piece = 0).filter fun r =>
    (List.range f.pieces).all fun p => mine.any fun x => x.position = r.position && x.piece = p
  sortBy (fun a b => decide (a.1 < b.1)) (whole.map fun r => (r.position, r.tag))

/-- The batch's tile images of one piece (R197). -/
def batchTiles (rows : List (Option XRow)) : List Tile :=
  let h := (rows.findSome? id)
  (chunks 64 rows).map fun rs =>
    ⟨(h.map fun r => r.format).getD 0, (h.map fun r => r.kExtent).getD 0, rs.map fun r => match r with
      | some x => ⟨true, x.tag, x.data, x.scales⟩
      | none => emptyRow, true⟩

/-- A batch is whole: its rows are laid out in the receive slot (R197, R335). -/
def layBatch (c : Cmd) (o : Origin) (p : Place) (i : Nat) (f : ZXchgF) (modelId job : Nat) (limited : Bool) (rows : List (Nat × Nat × Word)) (s : State) : State :=
  let is (r : XRow) : Bool := r.job = job && r.model = modelId && r.layer = f.layer && r.half = f.half && r.lslot = f.lslot && r.round = f.round
  let tiles := ((List.range f.pieces).map fun q =>
    let ts := batchTiles (rows.map fun (pkg, pos, _) => s.fab.rows.find? fun r => is r && r.pkg = pkg && r.position = pos && r.piece = q)
    ts.zipIdx.map fun (t, k) => (windowImage f q (64 * k), t)).flatten
  let s := { s with fab := { s.fab with
    rows := s.fab.rows.filter fun r => !is r
    batches := s.fab.batches ++ [⟨c.id, modelId, f.layer, f.half, f.lslot, f.round, rows⟩] } }
  landMoves p i o (eachMove (fun (x : Nat × Tile) s => slotWrite c o f.buf x.1 x.2.image s) tiles (endWait p limited s))

/-- RECEIVE (R197, R198, R335): complete when every row announced for its slot and round has arrived. Log 48: DESIGN CHOICE. -/
def exchangeReceive (c : Cmd) (o : Origin) (p : Place) (i : Nat) (f : ZXchgF) (modelId : Nat) (limited : Bool) (s : State) : State :=
  let job := jobOf s c.id
  let ms := jobMembers s c
  let usable (m : Nat) : Option CountRec := match latestCounts s m job modelId f.layer f.half with
    | some (r, u) => if u = none || u = some c.id then some r else none
    | none => none
  if ms.any fun m => (usable m).isNone then startWait p s
  else
    let key (r : CountRec) : Bool := r.job = job && r.model = modelId && r.layer = f.layer && r.half = f.half
    let s := { s with fab := { s.fab with counts := s.fab.counts.map fun x => if key x.1 then (x.1, some c.id) else x } }
    let got := ms.map fun m => (m, ((usable m).map fun r => announced r f.lslot f.round).getD 0, arrivedRows s m job modelId f)
    if got.all fun g => g.2.2.length = g.2.1 then
      layBatch c o p i f modelId job limited ((got.map fun g => g.2.2.map fun x => (g.1, x.1, x.2)).flatten) s
    else startWait p s

/-- The result rows of a batch with their destinations (R199). -/
def resultRows (s : State) (f : ZXchgF) (b : XBatch) (job : Nat) (buf : List Byte) (n : Nat) : List (Nat × XRow) :=
  (b.rows.zipIdx.map fun ((pkg, pos, tag), x) => (List.range f.pieces).map fun q =>
    let t := tileOfImage ((buf.drop (imageBytes * (n * q + x / 64))).take imageBytes)
    let row := t.row (x % 64)
    (pkg, (⟨s.boot.pkg, job, b.model, f.layer, f.half, true, f.lslot, f.round, pos, q, f.pieces, t.format, t.kExtent, tag,
      padTo 256 row.data, padTo 16 row.scales, limitedNow s⟩ : XRow))).flatten

/-- RETURN (R199, R335): every result row goes back to the position it came from. Log 49: DESIGN CHOICE. -/
def exchangeReturn (c : Cmd) (o : Origin) (p : Place) (i : Nat) (f : ZXchgF) (modelId : Nat) (limited : Bool) (s : State) : State :=
  let is (b : XBatch) : Bool := b.cmd = c.id && b.model = modelId && b.layer = f.layer && b.half = f.half && b.lslot = f.lslot && b.round = f.round
  match s.fab.batches.find? is with
  | none => startWait p s
  | some b =>
    let n := (b.rows.length + 63) / 64
    let images := ((List.range f.pieces).map fun q => (List.range n).map fun k => windowImage f q (64 * k)).flatten
    let read : Moved × State := if (bufferOf s p).isSome then (.ok s, s)
      else eachMove (fun off s => bufferRead c o p f.buf off imageBytes s) images s
    match read with
    | (.bad cause, s) => contextFault c.id cause p.code (some o.desc) s
    | (.ok s, _) =>
      if awaitingDesc s c.id o.desc then s
      else
        let rows := resultRows s f b (jobOf s c.id) ((bufferOf s p).getD []) n
        let s := dropBuffer p (endWait p limited s)
        let s := { s with fab := { s.fab with batches := s.fab.batches.filter fun b => !is b } }
        finishEntry p i (rows.foldl (fun s (dest, r) => issueRow o dest r s) s)

/-- Z_XCHG (R193 to R204, R334, R335). -/
def execZXchg (at_ : Place) (f : ZXchgF) (s : State) : Host.Outcome State Fault Refusal :=
  match zWork s at_ (.zXchg f) f.order with
  | none => .next s
  | some (c, l, i) =>
    let o := originOf c l i
    match modelAt s f.model with
    | none => .next (contextFault c.id 1 at_.code (some o.desc) s)
    | some m =>
      match m.manifest.layers[f.layer]?, tableFor m c with
      | some layer, some t =>
        if layer.experts = 0 then .next (contextFault c.id 1 at_.code (some o.desc) s)
        else if f.role = 0 then .next (exchangeSend c o at_ i f m layer t s)
        else if f.role = 1 then .next (exchangeReceive c o at_ i f m.id (waitLimited l) s)
        else .next (exchangeReturn c o at_ i f m.id (waitLimited l) s)
      | _, _ => .next (contextFault c.id 1 at_.code (some o.desc) s)

end Sys2Proof.Machine
end

