-- ==== Sys2Proof/Machine/Fabric.lean ====
section
/-! DEFINITION. Global operations (R309 to R313) and transit (R307): barriers, broadcasts, snapshots, forwarded packets. -/
namespace Sys2Proof.Machine

/-- The coordinator of a member list: the lowest id (R309). -/
def coordOf (members : List Nat) : Nat := members.foldl min 255

/-- Groups of the appliance (R289). -/
def groupCount (s : State) : Nat := (s.flash.install.map fun r => r.groups).getD 0

/-- The collector of a group: its lowest package with an UP global link to the coordinator's group; in that group the
coordinator (R310). Where no such link is UP, the link leads to the third group of R303 (DESIGN CHOICE, log 129). -/
def collectorOf (s : State) (group coord : Nat) : Option Nat :=
  if group = coord / 16 then some coord
  else
    let ends (k : Nat) : List Nat := (upGlobals s group k).map fun x => x.1
    let us := match ends (coord / 16) with
      | [] => ((thirdGroup s (groupCount s) group (coord / 16)).map ends).getD []
      | us => us
    match us with
    | [] => none
    | u :: us => some (us.foldl min u)

/-- Nanoseconds of L_glob (R310), at the plan's longest fibre. -/
def globNs (s : State) : Nat :=
  700 + 5 * (((s.flash.install.map fun r => r.globals.map fun g => g.metres).getD []).foldl max 0)

/-- Nanoseconds that the detours on the path from the coordinator to a member add (R303, R310): 450 for a copper hop, a copper hop
and a global hop for a third group. -/
def pathExtra (s : State) (coord m : Nat) : Nat :=
  let hop (a b : Nat) : Nat := if copperHops s a b = some 2 then 450 else 0
  if m / 16 = coord / 16 then hop coord m
  else
    match collectorOf s (m / 16) coord with
    | none => 0
    | some k =>
      let direct := (upGlobals s (m / 16) (coord / 16)).filter fun x => x.1 = k
      match (direct.map fun x => hop coord x.2.1) with
      | [] => 450 + globNs s + hop k m
      | e :: es => es.foldl min e + hop k m

/-- Nanoseconds of T₃ for a member list (R310), with the extra hops of the longest path. Log 82: DESIGN CHOICE. -/
def routeBound (s : State) (members : List Nat) : Nat :=
  let many := (members.map fun m => m / 16).eraseDups.length
  (if many ≤ 1 then 450 else 900 + globNs s) + (members.map (pathExtra s (coordOf members))).foldl max 0

/-- A global operation of the package. -/
def State.op (s : State) (id : Nat) : Option GlobalOp := s.fab.ops.find? fun o => o.id = id

/-- A global operation changes. -/
def setOp (id : Nat) (f : GlobalOp → GlobalOp) (s : State) : State :=
  { s with fab := { s.fab with ops := updBy (fun o => o.id = id) f s.fab.ops } }

/-- Members of a group. -/
def inGroup (members : List Nat) (g : Nat) : List Nat := members.filter fun m => m / 16 = g

/-- The release of a barrier leaves the coordinator for its own group and for the other groups' collectors (R310). -/
def sendRelease (o : GlobalOp) (beat : Nat) (s : State) : State :=
  let own := s.boot.pkg
  let groups := (o.members.map fun m => m / 16).eraseDups
  let dests := (groups.map fun g =>
    if g = own / 16 then (inGroup o.members g).filter fun m => m ≠ own
    else match collectorOf s g o.coord with
      | some k => [k]
      | none => []).flatten
  dests.foldl (fun s m => sendFab m 10 (.release o.id beat o.members) s) s

/-- What an arrival says of the broadcast it belongs to (R312). -/
def Bcast.announced (b : Bcast) : BcastPart := ⟨b.root, b.bytes, b.base, none⟩

/-- Beats from an event in this beat to the first boundary that is some nanoseconds later (R310): where in the beat the event falls is
a free value (DESIGN CHOICE, log 132). -/
def beatsAfter (ns : Nat) (s : State) : Nat × State :=
  let (d, s) := draw s
  (((Config.drawn d).toNat % 1000 + ns + 999) / 1000, s)

/-- Arrivals known here are taken as far as they go (R310): the coordinator with all of them names the completion beat, for a
broadcast with the time of its bytes at 1.6 TB/s (R312); a collector with its whole group sends one arrival on. Logs 82, 132: DESIGN CHOICE. -/
def gather (id : Nat) (fresh : List Nat) (s : State) : State :=
  match s.op id with
  | none => s
  | some o =>
    let own := s.boot.pkg
    let before := o.arrived
    let after := (before ++ fresh).eraseDups
    let s := setOp id (fun o => { o with arrived := after }) s
    let all (xs ms : List Nat) : Bool := ms.all fun m => xs.contains m
    if own = o.coord then
      if all after o.members && o.completeAt.isNone then
        let (n, s) := beatsAfter (routeBound s o.members + (o.bcast.map fun b => b.bytes / 1600).getD 0) s
        let beat := beatAdd s.now n
        sendRelease o beat (setOp id (fun o => { o with completeAt := some beat }) s)
      else s
    else
      let mine := inGroup o.members (own / 16)
      if collectorOf s (own / 16) o.coord = some own then
        if all after mine && !all before mine then
          sendFab o.coord 10 (.arrival id o.members mine (o.bcast.map Bcast.announced)) s else s
      else s

/-- This package's own arrival goes to its collector (R310); where it has none the operation fails (R311). -/
def arriveHere (id : Nat) (s : State) : State :=
  let own := s.boot.pkg
  match s.op id with
  | none => s
  | some o =>
    match collectorOf s (own / 16) o.coord with
    | none => failOp id false s
    | some k =>
      if k = own then gather id [own] s
      else if o.arrived.contains own then s
      else sendFab k 10 (.arrival id o.members [own] (o.bcast.map Bcast.announced))
        (setOp id (fun o => { o with arrived := (o.arrived ++ [own]).eraseDups }) s)

/-- An operation that this package first hears of. -/
def addOp (id : Nat) (members : List Nat) (session tag timeout : Nat) (s : State) : State :=
  { s with fab := { s.fab with ops := s.fab.ops ++
      [⟨id, members, coordOf members, session, tag, s.beat.elapsed, timeout, [], none, false, none⟩] } }

/-- A BARRIER enters the package (R310): its arrival goes to the collector. Logs 82, 132: DESIGN CHOICE. -/
def enterBarrier (h : Hdr) (id timeout : Nat) (members : List Nat) (s : State) : State :=
  let s := if (s.op id).isSome then
      setOp id (fun o => { o with session := h.session, tag := h.tag, startBeat := s.beat.elapsed, timeout := timeout }) s
    else addOp id members h.session h.tag timeout s
  arriveHere id s

/-- BARRIER (R309 to R311, R368). Log 82: DESIGN CHOICE. -/
def execBarrier (h : Hdr) (id timeout members : Nat) (s : State) : Host.Outcome State Fault Refusal :=
  let ms := membersOf members
  hosted (.barrier h id timeout members) h ⟨0x0504, roleJobs, featFabric⟩
    (fun _ s => badIf (!ms.contains s.boot.pkg || (timeout ≠ 0 && (decide (timeout < 1000) || decide (10000000 < timeout)))))
    (fun _ s =>
      let clash := match s.op id with
        | some o => if o.session ≠ 0 then some stBusy else if o.members ≠ ms then some stBadParam else none
        | none => if 64 ≤ s.fab.ops.length then some stNoResource else none
      match clash with
      | some st => reply h 0x0504 st 0 [] s
      | none =>
        if s.beat.clkHold || ms.any fun m => s.fab.unreachable.contains m then reply h 0x0504 stDegraded 0 [] (tellFailed id ms s)
        else enterBarrier h id (if timeout = 0 then 100000 else timeout) ms (accept h 0x0504 [] s)) s

/-! ### Broadcasts (R312) -/

/-- Planned global links between two groups, oriented from the first (R291). -/
def plannedGlobals (s : State) (g k : Nat) : List (Nat × Nat) :=
  ((s.flash.install.map fun r => r.globals).getD []).filterMap fun l =>
    if l.standby then none
    else if l.pkgA / 16 = g && l.pkgB / 16 = k then some (l.pkgA, l.pkgB)
    else if l.pkgB / 16 = g && l.pkgA / 16 = k then some (l.pkgB, l.pkgA) else none

/-- The packages to which a package passes a piece on (R312): the root to its group and to the ends there of the links that carry the
piece, piece i going to each other group over its planned link i mod n; those ends across; the far ends to their group. The tree is the
model's reading of 'a fixed tree' (DEDUCED, log 133). -/
def treeNext (s : State) (root : Nat) (members : List Nat) (i node : Nat) : List Nat :=
  let g := root / 16
  let far := ((members.map fun m => m / 16).eraseDups.filter fun k => k ≠ g).filterMap fun k =>
    let xs := plannedGlobals s g k
    xs[i % xs.length]?
  let across := (far.filter fun x => x.1 = node).map Prod.snd
  let down := if far.any fun x => x.2 = node then (inGroup members (node / 16)).filter fun m => m ≠ node else []
  let first := if node = root then ((inGroup members g ++ far.map Prod.fst).eraseDups.filter fun m => m ≠ root) else []
  first ++ across ++ down

/-- A piece goes on along the tree. Log 133: DEDUCED. -/
def passPiece (id : Nat) (members : List Nat) (p : BcastPart) (i : Nat) (data : List Byte) (s : State) : State :=
  (treeNext s p.root members i s.boot.pkg).foldl (fun s m => sendFab m 0 (.bcast id members { p with piece := some (i, data) }) s) s

/-- What an arrival brings of a broadcast (R312): at the root its start, with every piece of 64 KiB sent along the tree; at another
package a piece, written where this package keeps the data, and passed on. -/
def takePart (id : Nat) (members : List Nat) (p : BcastPart) (s : State) : State :=
  let own := s.boot.pkg
  let s := setOp id (fun o => if o.bcast.isSome then o else { o with bcast := some ⟨p.root, p.bytes, p.base, []⟩ }) s
  match p.piece with
  | some (i, data) =>
    let s := if members.contains own && p.root ≠ own then storeBytes (p.base + 65536 * i) data s else s
    let s := setOp id (fun o => { o with bcast := o.bcast.map fun b => { b with pieces := (b.pieces ++ [i]).eraseDups } }) s
    passPiece id members p i data s
  | none =>
    if p.root ≠ own then s
    else (List.range ((p.bytes + 65535) / 65536)).foldl (fun s i =>
      passPiece id members p i (s.mem.read (p.base + 65536 * i) (min 65536 (p.bytes - 65536 * i))) s) s

/-- BARRIER_ARRIVAL (R309 to R312): a collector or the coordinator need not have its own host's BARRIER yet, nor be a member. A
package without BEAT_CLK, or with 64 operations in progress, takes no part, and the members hear of it (DESIGN CHOICE, log 130).
Log 82: DESIGN CHOICE. Log 133: DEDUCED. -/
def execBarrierArrival (id : Nat) (members : List Nat) (a : ArrivalP) (s : State) : Host.Outcome State Fault Refusal :=
  let own := s.boot.pkg
  let relay := a.merged.isEmpty && !members.contains own
  let fresh := (s.op id).isNone && !relay
  if !relay && (s.beat.clkHold && members.contains own || fresh && decide (64 ≤ s.fab.ops.length)) then .next (tellFailed id members s)
  else
    let s := if fresh then addOp id members 0 0 100000 s else s
    let s := match a.part with
      | some p => takePart id members p s
      | none => s
    .next (if a.merged.contains own then arriveHere id (gather id (a.merged.filter fun m => m ≠ own) s) else gather id a.merged s)

/-- BARRIER_RELEASE (R310, R423): the completion beat is kept, and a collector passes it on to its group. -/
def execBarrierRelease (id beat : Nat) (members : List Nat) (limited : Bool) (s : State) : Host.Outcome State Fault Refusal :=
  let own := s.boot.pkg
  let coord := coordOf members
  let passOn := decide (own / 16 ≠ coord / 16) && collectorOf s (own / 16) coord = some own
  let s := if passOn then ((inGroup members (own / 16)).filter fun m => m ≠ own).foldl
      (fun s m => sendFab m 10 (.release id beat members) s) s else s
  if members.contains own then .next (setOp id (fun o => { o with completeAt := some beat, limited := limited }) s)
  else .next { s with fab := { s.fab with ops := s.fab.ops.filter fun o => o.id ≠ id } }

/-- A barrier completes in phase 9 of its beat (R310, R423). -/
def completeBarrier (id : Nat) (s : State) : State :=
  match s.op id with
  | none => s
  | some o =>
    match o.completeAt with
    | none => s
    | some c =>
      if beatLe c s.now then
        let s := { s with fab := { s.fab with ops := s.fab.ops.filter fun x => x.id ≠ id } }
        let s := if o.limited then
            { s with pwr := { s.pwr with paceWait := sat32 (s.pwr.paceWait + (s.beat.elapsed - o.startBeat)) } } else s
        if o.session = 0 then s else finish o.session o.tag 0x0504 stOk 0 (leBytes 8 c) s
      else s

/-- BARRIER_COMPLETE (R310). -/
def execBarrierComplete (id : Nat) (s : State) : Host.Outcome State Fault Refusal := .next (completeBarrier id s)

/-- GLOBAL_OP_TIMEOUT (R311): at the coordinator the timeout, which the other members hear of; at a member the word of it. -/
def execGlobalOpTimeout (id : Nat) (s : State) : Host.Outcome State Fault Refusal :=
  match s.op id with
  | none => .next s
  | some o =>
    if o.coord = s.boot.pkg && decide (s.beat.elapsed < o.startBeat + o.timeout) then .next s else .next (failOp id false s)

/-! ### Snapshots (R313) -/

/-- A pair of handles of a snapshot: both of the context, the source readable, the destination writable, of one size. -/
def snapPairOk (s : State) (ctx : Nat) (p : Nat × Nat) : Bool :=
  match s.handle p.1, s.handle p.2 with
  | some a, some b => a.ctx = ctx && b.ctx = ctx && a.kind ≠ 1 && b.kind ≠ 1 && tbit a.rights 0 && tbit b.rights 1 && a.span = b.span
  | _, _ => false

/-- The refusal of a SNAPSHOT_AT, if any. -/
def snapRefusal (principal ctx : Nat) (pairs : List (Nat × Nat)) (s : State) : Option (Nat × Nat) :=
  if pairs.isEmpty || 16 < pairs.length then some (stBadParam, 0)
  else match ctxRefusal s principal ctx with
    | some r => some r
    | none => if pairs.all (snapPairOk s ctx) then none else some (stBadParam, 0)

/-- A snapshot waits for its beat. -/
def addSnapshot (h : Hdr) (beat ctx : Nat) (pairs : List (Nat × Nat)) (s : State) : State :=
  { s with fab := { s.fab with
      snaps := s.fab.snaps ++ [⟨s.fab.nextSnap, h.session, h.tag, beat, ctx, pairs, false, []⟩]
      nextSnap := s.fab.nextSnap + 1 } }

/-- SNAPSHOT_AT outside a sorus (R313). -/
def execSnapshotAt (h : Hdr) (beat ctx : Nat) (pairs : List (Nat × Nat)) (s : State) : Host.Outcome State Fault Refusal :=
  hosted (.snapshotAt h beat ctx pairs) h ⟨0x0505, roleJobs, featLearn⟩
    (fun e s => match snapRefusal e.principal ctx pairs s with
      | some r => some r
      | none => if h.sorus = 0 && !beatBefore s.now beat then some (stBadParam, 0) else none)
    (fun _ s => addSnapshot h beat ctx pairs (accept h 0x0505 [] s)) s

/-- The 64 KiB units of a pair of regions, ascending. -/
def unitsOf (s : State) (p : Nat × Nat) : List (Nat × Nat × Nat) :=
  match s.handle p.1, s.handle p.2 with
  | some a, some b => (List.range ((a.span + 65535) / 65536)).map fun i =>
      (a.base + 65536 * i, b.base + 65536 * i, min 65536 (a.span - 65536 * i))
  | _, _ => []

/-- A snapshot freezes its regions in phase 5 of its beat, and with it issue in that beat. Log 83: DESIGN CHOICE. -/
def capture (id : Nat) (s : State) : State :=
  let due := s.fab.snaps.any fun x => x.id = id && !x.captured && beatLe x.beat s.now
  { s with fab := { s.fab with
      frozen := if due then some s.now else s.fab.frozen
      snaps := updBy (fun x => x.id = id && !x.captured && beatLe x.beat s.now)
        (fun x => { x with captured := true, units := (x.pairs.map (unitsOf s)).flatten }) s.fab.snaps } }

/-- SNAPSHOT_CAPTURE (R313). Log 83: DESIGN CHOICE. -/
def execSnapshotCapture (snap : Nat) (s : State) : Host.Outcome State Fault Refusal := .next (capture snap s)

/-- Snapshots whose last unit is copied are answered (R313). -/
def finishSnaps (s : State) : State :=
  (s.fab.snaps.filter fun x => x.captured && x.units.isEmpty).foldl (fun s x =>
    finish x.session x.tag 0x0505 stOk 0 (leBytes 8 s.now)
      { s with fab := { s.fab with snaps := s.fab.snaps.filter fun y => y.id ≠ x.id } }) s

/-- SNAPSHOT_UNIT_COPY (R313): the next unit in ascending order. -/
def execSnapshotUnitCopy (snap : Nat) (s : State) : Host.Outcome State Fault Refusal :=
  match s.fab.snaps.find? fun x => x.id = snap && x.captured with
  | none => .next s
  | some x =>
    match x.units with
    | [] => .next (finishSnaps s)
    | u :: _ => .next (finishSnaps (copyUnit snap u s))

/-! ### Transit (R301 to R307, R319) -/

/-- TRANSIT_PACKET (R301 to R307, R319): forwarded on the route of its source, destination and address, at the next level of its
class, and counted on the link it leaves by; one that is 512 beats old is discarded. It enters no memory and no station.
Log 81: DESIGN CHOICE. -/
def execTransitPacket (p : TransitP) (s : State) : Host.Outcome State Fault Refusal :=
  if p.dest = s.boot.pkg || 15 ≤ p.channel || p.channel % 5 = 4 then .next s
  else if 512 ≤ (s.now + 1024 - p.issueLow % 1024) % 1024 then
    .next { s with fab := { s.fab with aged := sat32 (s.fab.aged + 1) } }
  else
    match egressOf s p.src p.dest p.addr with
    | none => .next s
    | some port =>
      let p' := { p with channel := p.channel + 1 }
      .next (emit (.fabric p.dest p'.channel (some port) false (.transit p')) (setLink port (fun l => { l with
        shared := true
        transitBytes := (l.transitBytes + p.bytes) % 1000000
        transitMb := wrap32 (l.transitMb + (l.transitBytes + p.bytes) / 1000000) }) s))

end Sys2Proof.Machine
end

