-- ==== Sys2Proof/Machine/Pool.lean ====
section
/-! DEFINITION. The tiers' pools (R277, R279, R281): free runs, regions, accounts' reserves, eviction, and the start of the move
of a tensor's tiles between tiers (R253). -/
namespace Sys2Proof.Machine

/-- A length rounded up to the 64 KiB of R278. Log 64: DESIGN CHOICE. -/
def roundUp64K (n : Nat) : Nat := (n + 65535) / 65536 * 65536

/-- First address of a tier's window (R267). -/
def tierBase (tier : Nat) : Nat := if tier = 0 then 0 else lpBase

/-- Whether a run of bytes lies in a tier and touches none of the regions. -/
def runFree (s : State) (tier : Nat) (regs : List Region) (a n : Nat) : Bool :=
  decide (a + n ≤ tierBase tier + poolSize s tier) && regs.all fun g => !overlaps a n g.base g.bytes

/-- The lowest free run of a length, aligned to 64 KiB. Log 64: DESIGN CHOICE. -/
def findRun (s : State) (tier : Nat) (regs : List Region) (n : Nat) : Option Nat :=
  let starts := tierBase tier :: regs.map fun g => roundUp64K (g.base + g.bytes)
  (starts.filter fun a => runFree s tier regs a n).foldl (fun best a => match best with
    | none => some a
    | some b => some (min a b)) none

/-- Regions of a tier. -/
def tierRegions (s : State) (tier : Nat) : List Region := s.mem.regions.filter fun g => g.tier = tier

/-- Reserves of a tier's accounts that are not used, without those of one account (R277). -/
def unusedReserves (s : State) (tier : Nat) (but : Option Nat) : Nat :=
  ((s.mem.accounts.filter fun a => a.tier = tier && some a.id ≠ but).map fun a => a.reserve - a.used).sum

/-- The run that a demand can take now out of free space, for an account or without one (R277, R278). -/
def roomFor (s : State) (tier : Nat) (account : Option Nat) (n : Nat) : Option Nat :=
  if freeSpace s tier < n + unusedReserves s tier account then none else findRun s tier (tierRegions s tier) n

/-- Whether a region falls free without a new decision: freed, on its way to another tier, or only read by commands that still
run. -/
def leaving (s : State) (g : Region) : Bool :=
  g.freeAt.isSome || (s.mem.limMoves.any fun l => l.old = g.base) || (match g.owner with
    | .old _ => true
    | .moving _ => true
    | _ => false)

/-- Whether a demand can take its run once every leaving region is free. -/
def roomLater (s : State) (tier : Nat) (account : Option Nat) (n : Nat) : Bool :=
  let s' := { s with mem := { s.mem with regions := s.mem.regions.filter fun g => !leaving s g } }
  (roomFor s' tier account n).isSome

/-- A region is taken. Log 64: DESIGN CHOICE. -/
def takeRegion (tier base n : Nat) (o : Owner) (s : State) : State :=
  { s with mem := { s.mem with regions := s.mem.regions ++ [⟨tier, base, n, o, none⟩] } }

/-- The first of a list by a key, the earliest of equal ones. -/
def leastBy {α : Type} (key : α → Nat) (xs : List α) : Option α :=
  xs.foldl (fun best x => match best with
    | none => some x
    | some b => if key x < key b then some x else some b) none

/-- A paused request's page-sets in LPDDR are freed; it stays PAUSED without pages (R228, R279). Log 65: DESIGN CHOICE. -/
def evictPaused (rid : Nat) (s : State) : State :=
  let k := match s.req rid with
    | some r => (r.pages.filter fun p => p.tier = 2).length
    | none => 0
  let s := freePages rid s
  { s with mem := { s.mem with evictLp := sat32 (s.mem.evictLp + k) } }

/-- The paused request whose LPDDR pages are evicted next: paused longest, then the lower id (R279). Log 65: DESIGN CHOICE. -/
def pausedVictim (s : State) : Option Nat :=
  let held := s.serve.reqs.filter fun r => r.resumeTo.isNone && s.mem.regions.any fun g => g.owner = .paused r.id
  (leastBy (fun r => r.pausedAt) held).map fun r => r.id

/-- LPDDR space made by eviction, at most `fuel` victims; none when it cannot be made. -/
def makeRoomLp (account : Option Nat) (n : Nat) : Nat → State → Option State
  | 0, s => if (roomFor s 1 account n).isSome then some s else none
  | fuel + 1, s =>
    if (roomFor s 1 account n).isSome then some s
    else
      match pausedVictim s with
      | none => none
      | some r => makeRoomLp account n fuel (evictPaused r s)

/-- Started commands of a model that have not committed and so still read its regions (R253, R262). -/
def pinnedCmds (s : State) (modelId : Nat) : List Nat :=
  (s.jobs.cmds.filter fun c => c.launch.modelId = modelId && decide (c.phase ≠ .waiting) && !c.committed).map fun c => c.id

/-- A region is freed, or kept until the commands that read it have committed (R253). -/
def retireRegion (base : Nat) (pinned : List Nat) (s : State) : State :=
  let regs := if pinned.isEmpty then s.mem.regions.filter fun g => g.base ≠ base
    else updBy (fun g => g.base = base) (fun g => { g with owner := .old pinned }) s.mem.regions
  { s with mem := { s.mem with regions := regs } }

/-- Every pointer of a model to one region points at another (R253). -/
def repoint (modelId old new : Nat) (s : State) : State :=
  setModel modelId (fun m => { m with
    epochs := m.epochs.map fun e => { e with table := updBy (fun p => p.addr = old) (fun p => { p with addr := new }) e.table } }) s

/-- A tensor's tiles start on their way to a run of another tier (R253): its region is taken, and the copy is checked and switched
in at a later step-boundary beat. -/
def startLim (l : LimMove) (s : State) : State :=
  let owner : Owner := match l.version with
    | none => .tensor l.model l.tensor
    | some (slot, v) => .adapter l.model slot v l.tensor
  let s := takeRegion l.tier l.new l.bytes owner s
  { s with mem := { s.mem with limMoves := s.mem.limMoves ++ [l] } }

/-- Whether a region is on its way to another tier. -/
def movingFrom (s : State) (base : Nat) : Bool := s.mem.limMoves.any fun l => l.old = base

/-- Cold experts of ACTIVE models that rest in HBM: model, tensor, bytes and when a step last fetched them (R279). Log 65: DESIGN CHOICE. -/
def coldVictims (s : State) : List (Nat × Nat × Nat × Nat) :=
  ((s.models.models.filter fun m => m.state = 3).map fun m =>
    (m.placed.filter fun t => t.tier = 0 && !m.suspects.contains t.base && t.fresh.isNone && !movingFrom s t.base &&
      ((m.manifest.tensors.find? fun x => x.id = t.tensor).map fun x => x.cls) = some 1).map
        fun t => (m.id, t.tensor, t.bytes, t.touched)).flatten

/-- The cold expert evicted next: fetched longest ago, then the lower tensor id. Log 65: DESIGN CHOICE. -/
def coldVictim (s : State) : Option (Nat × Nat × Nat × Nat) :=
  let vs := coldVictims s
  match leastBy (fun v => v.2.2.2) vs with
  | none => none
  | some b => (leastBy (fun v => v.2.1) (vs.filter fun v => v.2.2.2 = b.2.2.2)).map fun v =>
      (v.1, v.2.1, v.2.2.1, (((s.model v.1).bind fun m => m.placed.find? fun t => t.tensor = v.2.1).map fun t => t.base).getD 0)

/-- HBM space made by eviction to LPDDR, at most `fuel` victims: afterwards the demand fits once the leaving regions are
free. None when it cannot be made. -/
def makeRoomHbm (account : Option Nat) (n : Nat) : Nat → State → Option State
  | 0, s => if roomLater s 0 account n then some s else none
  | fuel + 1, s =>
    if roomLater s 0 account n then some s
    else
      match coldVictim s with
      | none => none
      | some (m, t, bytes, old) =>
        match makeRoomLp none bytes s.serve.reqs.length s with
        | none => none
        | some s =>
          match roomFor s 1 none bytes with
          | none => none
          | some new =>
            let s := startLim ⟨m, t, none, 1, old, new, bytes⟩ s
            makeRoomHbm account n fuel { s with mem := { s.mem with evictHbm := sat32 (s.mem.evictHbm + 1) } }

/-- What a demand meets (R279): its run now, space that comes when steps commit, or no space at all. -/
inductive Room where
  | now (base : Nat) (s : State)
  | later (s : State)
  | never
  deriving DecidableEq, Repr

/-- A demand of `n` bytes in a tier, by eviction where free space is short (R279). Log 66: DESIGN CHOICE. -/
def demandRoom (tier : Nat) (account : Option Nat) (n : Nat) (s : State) : Room :=
  match roomFor s tier account n with
  | some b => .now b s
  | none =>
    let made := if tier = 1 then makeRoomLp account n s.serve.reqs.length s
      else makeRoomHbm account n (coldVictims s).length s
    match made with
    | none => if roomLater s tier account n then .later s else .never
    | some s' =>
      match roomFor s' tier account n with
      | some b => .now b s'
      | none => .later s'

/-- A command that leaves no trace of a commit is pinned no longer: regions kept for commands that have all committed or
ended fall free (R253). -/
def freeOldRegions (s : State) : State :=
  let live (id : Nat) : Bool := s.jobs.cmds.any fun c => c.id = id && !c.committed
  { s with mem := { s.mem with regions := s.mem.regions.filter fun g => match g.owner with
      | .old ids => ids.any live
      | _ => true } }

end Sys2Proof.Machine
end

