-- ==== Sys2Proof/Machine/Manifest.lean ====
section
/-! DEFINITION. Manifests (R237 to R243), the layout of shard bytes (R514) and their conversion into tile images (R245,
R247). -/
namespace Sys2Proof.Machine

/-- Whether a KV format and head dimension are allowed for a part (R157): codes of K, or of V with MXFP4. -/
def kvPartOk (isV : Bool) (fmt headDim : Nat) : Bool :=
  decide (32 ≤ headDim) && decide (headDim ≤ 256) && headDim % 32 = 0 &&
    ([1, 2, 8].contains fmt || (isV && fmt = 5 && headDim % 64 = 0))

/-- A layer entry (R239). -/
def parseLayer (bs : List Byte) : Option Layer :=
  let u (o n : Nat) : Nat := leAt bs o n
  let l : Layer := ⟨u 0 2, u 2 1, u 3 1, u 4 2, u 6 1, u 7 1, u 8 4, u 12 1, u 13 1, u 14 2⟩
  if decide (l.experts ≤ 4096) && (if l.experts = 0 then l.topk = 0 else decide (1 ≤ l.topk) && decide (l.topk ≤ 8)) &&
      decide (l.gateMode ≤ 1) && decide (256 ≤ l.cfQ8) && decide (l.cfQ8 ≤ 2048) && decide (l.drop ≤ 1) &&
      decide (1 ≤ l.kvHeads) && decide (1 ≤ l.cMin) && decide (l.cMin ≤ 65536) && kvPartOk false l.kFormat l.headDim &&
      kvPartOk true l.vFormat l.headDim && zeroAt bs 16 16 then some l else none

/-- A tensor entry (R240), with the checks that need only the layers and the manifest's kind. -/
def parseTensor (kind : Nat) (layers : List Layer) (bs : List Byte) : Option Tensor :=
  let u (o n : Nat) : Nat := leAt bs o n
  let t : Tensor := ⟨u 0 4, u 4 2, u 6 2, u 8 4, u 12 4, u 16 1, u 17 1, u 18 1, u 32 32⟩
  let experts := ((layers[t.layer]?).map fun l => l.experts).getD 0
  if (t.layer = 0xFFFF || decide (t.layer < layers.length)) && (t.expert = 0xFFFF || (t.layer ≠ 0xFFFF && decide (t.expert < experts))) &&
      decide (1 ≤ t.n) && decide (t.n ≤ 16777216) && decide (1 ≤ t.k) && decide (t.k ≤ 16777216) && isFmt t.format &&
      (if kind = 1 then t.cls = 2 else decide (t.cls ≤ 1)) && zeroAt bs 19 13 then some t else none

/-- Elements of a tile row of a format code (R42). -/
def tileKOf (code : Nat) : Nat := ((Fmt.ofCode code).map Fmt.tileK).getD 1

/-- Blocks in a row piece of `n` elements. -/
def blocksIn (n : Nat) : Nat := (n + 31) / 32

/-- Bytes of a shard after decompression (R514). -/
def rawBytesOf (f : Fmt) (rows klen : Nat) : Nat :=
  if f.isMx then
    (rows * klen * f.bits + 7) / 8 + rows * (klen / f.tileK * blocksIn f.tileK + blocksIn (klen % f.tileK))
  else rows * klen * f.bits / 8

/-- A shard entry (R241, R243, R514). Log 63: DESIGN CHOICE. -/
def parseShard (ts : List Tensor) (alts : Nat) (bs : List Byte) : Option Shard :=
  let u (o n : Nat) : Nat := leAt bs o n
  let x : Shard := ⟨u 0 4, u 4 1, u 5 1, u 8 8, u 16 8, (bs.drop 0x18).take 48, (bs.drop 0x48).take 48, u 0x78 4, u 0x7C 4,
    u 0x80 4, u 0x84 4, u 0x88 4, u 0x8C 2, u 0x8E 1⟩
  match ts.find? fun t => t.id = x.tensor, Fmt.ofCode x.srcFormat with
  | some t, some f =>
    let tk := tileKOf t.format
    if decide (x.compression ≤ 1) && zeroAt bs 6 2 && ([8, 9, 10].contains x.srcFormat || x.srcFormat = t.format) &&
        decide (1 ≤ x.bytes) && decide (x.bytes ≤ 1073741824) && x.rawBytes = rawBytesOf f x.rows x.klen && x.row0 % 64 = 0 &&
        decide (1 ≤ x.rows) && decide (x.row0 + x.rows ≤ t.n) && (x.rows % 64 = 0 || x.row0 + x.rows = t.n) && x.k0 % tk = 0 &&
        decide (1 ≤ x.klen) && decide (x.k0 + x.klen ≤ t.k) && (x.klen % tk = 0 || x.k0 + x.klen = t.k) &&
        decide (x.altCount ≤ 4) && decide (x.altFirst + x.altCount ≤ alts) && zeroAt bs 0x8F 1 then some x else none
  | _, _ => none

/-- An alternate entry (R242). -/
def parseAlt (bs : List Byte) : Option AltEntry :=
  let u (o n : Nat) : Nat := leAt bs o n
  if decide (u 0 1 ≤ 1) && zeroAt bs 2 2 && zeroAt bs 8 8 then some ⟨u 0 1 = 1, u 1 1, u 4 4⟩ else none

/-- Whether the shards of a tensor cover each of its elements exactly once (R243): pairwise disjoint, of the same area. -/
def shardsCover (xs : List Shard) (t : Tensor) : Bool :=
  let mine := xs.filter fun x => x.tensor = t.id
  (mine.map fun x => x.rows * x.klen).sum = t.n * t.k &&
    mine.all fun a => mine.all fun b =>
      a.index = b.index || !(overlaps a.row0 a.rows b.row0 b.rows && overlaps a.k0 a.klen b.k0 b.klen)

/-- What a manifest's bytes come to: the manifest, or the status that refuses it. -/
inductive Reading where
  | ok (m : Manifest)
  | refused (status : Nat)
  deriving DecidableEq, Repr

/-- The tables of a manifest lie at multiples of 16 after the header, inside the body, apart (R237). -/
def manifestTablesOk (body : Nat) (ts : List (Nat × Nat)) : Bool :=
  tablesApart body ts && ts.all fun t => decide (128 ≤ t.1)

/-- A manifest read after its signatures (R237 to R243). Log 62: DESIGN CHOICE. -/
def parseBody (bs : List Byte) : Option Manifest :=
  let u (o n : Nat) : Nat := leAt bs o n
  let kind := u 6 1
  let nT := u 0x18 4
  let nS := u 0x1C 4
  let nA := u 0x20 2
  let nL := u 0x22 2
  let body := u 0x38 8
  let tables := [(u 0x28 4, 32 * nL), (u 0x2C 4, 64 * nT), (u 0x30 4, 144 * nS), (u 0x34 4, 16 * nA)]
  let headOk := decide (kind ≤ 1) && (if kind = 1 then decide (u 7 1 ≤ 63) && u 0x10 4 = 0 else u 7 1 = 0 && decide (1 ≤ u 0x10 4) &&
      decide (u 0x10 4 ≤ 0xFFFFFFFE)) && u 8 8 ≠ 0 && decide (1 ≤ nT) && decide (nT ≤ 1048576) && decide (1 ≤ nS) &&
    decide (nS ≤ 1048576) && decide (nA ≤ 4096) && decide (1 ≤ nL) && decide (nL ≤ 4096) && decide (1 ≤ u 0x24 4) &&
    decide (u 0x24 4 ≤ 8388608) && body % 16 = 0 && decide (body ≤ bs.length) && (u 5 1 ≠ 0 || zeroAt bs 0x40 64) &&
    manifestTablesOk body tables
  if !headOk then none
  else
    match parseTable parseLayer 32 nL (bs.drop (u 0x28 4)), parseTable parseAlt 16 nA (bs.drop (u 0x34 4)) with
    | some ls, some alts =>
      match parseTable (parseTensor kind ls) 64 nT (bs.drop (u 0x2C 4)) with
      | none => none
      | some ts =>
        match parseTable (parseShard ts nA) 144 nS (bs.drop (u 0x30 4)) with
        | none => none
        | some xs =>
          if (ts.map fun t => t.id).Nodup && (xs.zipIdx.all fun (x, i) => x.index = i) && ts.all (shardsCover xs) then
            some ⟨kind, u 7 1, u 8 8, u 0x10 4, u 0x14 4, u 0x24 4, ls, ts, xs, alts⟩
          else none
    | _, _ => none

/-- A manifest as MODEL_DECLARE and ADAPTER_LOAD read it: form, major version, signatures, anti-rollback, then the checks of
R243. Logs 4, 62: DESIGN CHOICE. -/
def readManifest (s : State) (sigOk : Bool) (bs : List Byte) : Reading :=
  if bs.length < 128 || decide (268435456 < bs.length) || leAt bs 0 4 ≠ 0x53464D4B then .refused stBadParam
  else if leAt bs 4 1 ≠ 1 then .refused stVersion
  else if !sigOk then .refused stSignature
  else if leAt bs 0x14 4 < s.flash.counters.manifest then .refused stDenied
  else
    match parseBody bs with
    | some m => .ok m
    | none => .refused stBadParam

/-- Tensors of a manifest that a package holds (R243). -/
def Manifest.heldBy (m : Manifest) (pkg : Nat) : List Tensor := m.tensors.filter fun t => tbit t.packages pkg

/-- Packages that hold some tensor of a manifest (R251). -/
def Manifest.holders (m : Manifest) : List Nat := (List.range 256).filter fun p => m.tensors.any fun t => tbit t.packages p

/-- Tile columns and rows of a tensor (R247). -/
def Tensor.kt (t : Tensor) : Nat := (t.k + tileKOf t.format - 1) / tileKOf t.format
def Tensor.nt (t : Tensor) : Nat := (t.n + 63) / 64

/-- Bytes of a tensor's region (R247). -/
def Tensor.regionBytes (t : Tensor) : Nat := t.nt * t.kt * imageBytes

/-! ### Conversion -/

/-- Code of element `n` of a stream packed without gaps (R514). -/
def packedAt (bits : Nat) (bs : List Byte) (n : Nat) : Nat :=
  leNat ((bs.drop (n * bits / 8)).take ((bits + 14) / 8)) / 2 ^ (n * bits % 8) % 2 ^ bits

/-- One row piece of a shard in the resident format: `k` is its first element in the row (R245 stage 3, R514). -/
def shardRow (dst src : Fmt) (x : Shard) (raw : List Byte) (i k : Nat) : Row :=
  let n := min dst.tileK (x.klen - k)
  let codes := (List.range n).map fun j => packedAt src.bits raw (i * x.klen + k + j)
  if src = dst then
    let perRow := x.klen / src.tileK * blocksIn src.tileK + blocksIn (x.klen % src.tileK)
    let at_ := (x.rows * x.klen * src.bits + 7) / 8 + i * perRow + k / src.tileK * blocksIn src.tileK
    ⟨true, 0#32, packRow dst codes, if src.isMx then (raw.drop at_).take (blocksIn n) else []⟩
  else
    let (cs, sc, _) := convertRun dst (codes.map src.decode) fun _ => none
    ⟨true, 0#32, packRow dst cs, sc⟩

/-- The tile images of a shard, each with its place in the tensor's region (R245 stages 3 and 4, R247). Log 63: DESIGN CHOICE. -/
def shardImages (t : Tensor) (x : Shard) (raw : List Byte) : List (Nat × List Byte) :=
  match Fmt.ofCode t.format, Fmt.ofCode x.srcFormat with
  | some dst, some src =>
    ((List.range ((x.rows + 63) / 64)).map fun ti => (List.range ((x.klen + dst.tileK - 1) / dst.tileK)).map fun tj =>
      let rows := (List.range (min 64 (x.rows - 64 * ti))).map fun r => shardRow dst src x raw (64 * ti + r) (dst.tileK * tj)
      let tile : Tile := ⟨t.format, min dst.tileK (x.klen - dst.tileK * tj), rows, false⟩
      ((x.row0 / 64 + ti) * t.kt + x.k0 / dst.tileK + tj, tile.image)).flatten
  | _, _ => []

/-- Places of a shard's images in its tensor's region, in the order of R254. -/
def shardPlaces (t : Tensor) (x : Shard) : List Nat :=
  let tk := tileKOf t.format
  ((List.range ((x.rows + 63) / 64)).map fun ti => (List.range ((x.klen + tk - 1) / tk)).map fun tj =>
    (x.row0 / 64 + ti) * t.kt + x.k0 / tk + tj).flatten

/-- The resident digest of a shard as its images now lie in a region (R254). -/
def shardDigest (s : State) (base : Nat) (t : Tensor) (x : Shard) : List Byte :=
  sha384 ((shardPlaces t x).map fun i => s.mem.read (base + imageBytes * i) imageBytes).flatten

/-- The resident digest of a whole region (R254). -/
def regionDigest (s : State) (base bytes : Nat) : List Byte := sha384 (s.mem.read base bytes)

end Sys2Proof.Machine
end

