-- ==== Sys2Proof/Machine/Zstd.lean ====
section
/-! DEFINITION. The decompressor of R246: Zstandard frames of RFC 8878, with a window of at most 8 MiB and no dictionary,
skippable frames ignored and checksums checked. The format is that of the RFC the spec names (PRESUMED, log 5). -/
namespace Sys2Proof.Machine

/-! ### Bits -/

/-- A bitstream that is read from its end: the bytes as a number and the bits that are left. -/
abbrev BackBits := Nat × Nat

/-- The bits of a backward stream: its last byte holds the marker bit. -/
def backBits (bs : List Byte) : Option BackBits :=
  match bs.getLast? with
  | none => none
  | some b => if b = 0#8 then none else some (leNat bs, 8 * (bs.length - 1) + Nat.log2 b.toNat)

/-- The next `n` bits of a backward stream, with zeros below its start. -/
def peekBack (n : Nat) (b : BackBits) : Nat :=
  if n ≤ b.2 then b.1 / 2 ^ (b.2 - n) % 2 ^ n else b.1 % 2 ^ b.2 * 2 ^ (n - b.2)

/-- `n` bits read from a backward stream that holds them. -/
def readBack (n : Nat) (b : BackBits) : Option (Nat × BackBits) :=
  if n ≤ b.2 then some (peekBack n b, (b.1, b.2 - n)) else none

/-! ### Finite state entropy -/

/-- One state of a decoding table: its symbol, how many bits it reads, and what is added to them. -/
structure FseCell where
  sym : Nat
  bits : Nat
  base : Nat
  deriving DecidableEq, Repr

/-- A decoding table of 2 to the power `log` states. -/
structure FseTable where
  log : Nat
  cells : List FseCell
  deriving DecidableEq, Repr

/-- Runs of zero probabilities: two bits each, three asking for a further run. It takes fuel, the description and the place. -/
def zeroRuns (v : Nat) : Nat → Nat → Nat × Nat
  | 0, pos => (0, pos)
  | fuel + 1, pos =>
    let r := v / 2 ^ pos % 4
    if r = 3 then
      let (n, p) := zeroRuns v fuel (pos + 2)
      (n + 3, p)
    else (r, pos + 2)

/-- The probabilities of a table description from a bit place on: fuel, what remains, the place and those read. A
probability of -1 is `none`. -/
def readProbs (v : Nat) : Nat → Nat → Nat → List (Option Nat) → Option (List (Option Nat) × Nat)
  | 0, _, _, _ => none
  | fuel + 1, rest, pos, acc =>
    if rest = 0 then some (acc, pos)
    else
      let bits := Nat.log2 (rest + 1) + 1
      let x := v / 2 ^ pos % 2 ^ bits
      let low := x % 2 ^ (bits - 1)
      let spare := 2 ^ bits - 1 - (rest + 1)
      let (val, used) := if low < spare then (low, bits - 1) else if 2 ^ (bits - 1) ≤ x then (x - spare, bits) else (x, bits)
      if val = 0 then readProbs v fuel (rest - 1) (pos + used) (acc ++ [none])
      else if rest < val - 1 then none
      else if val = 1 then
        let (n, p) := zeroRuns v 256 (pos + used)
        readProbs v fuel rest p (acc ++ some 0 :: List.replicate n (some 0))
      else readProbs v fuel (rest - (val - 1)) (pos + used) (acc ++ [some (val - 1)])

/-- The next place of the spread that a symbol below `high` may take. -/
def spreadNext (step mask high : Nat) : Nat → Nat → Nat
  | 0, pos => pos
  | fuel + 1, pos =>
    let p := (pos + step) % (mask + 1)
    if high ≤ p then spreadNext step mask high fuel p else p

/-- The places of the symbols in the table (one a state), from place 0 on. -/
def spread (step mask high : Nat) : List Nat → Nat → List (Nat × Nat)
  | [], _ => []
  | s :: rest, pos => (pos, s) :: spread step mask high rest (spreadNext step mask high (mask + 1) pos)

/-- The states numbered: each takes the count of its symbol so far. -/
def numberCells (log : Nat) : List Nat → List (Nat × Nat) → List FseCell
  | [], _ => []
  | s :: rest, next =>
    let n := ((next.find? fun x => x.1 = s).map Prod.snd).getD 1
    let bits := log - Nat.log2 n
    ⟨s, bits, n * 2 ^ bits - 2 ^ log⟩ :: numberCells log rest (next.map fun x => if x.1 = s then (x.1, n + 1) else x)

/-- The decoding table of probabilities. -/
def fseTable (log : Nat) (probs : List (Option Nat)) : FseTable :=
  let size := 2 ^ log
  let tagged := probs.zipIdx
  let rare := tagged.filterMap fun (p, s) => if p = none then some s else none
  let high := size - rare.length
  let runs := (tagged.map fun (p, s) => List.replicate (p.getD 0) s).flatten
  let placed := spread (size / 2 + size / 8 + 3) (size - 1) high runs 0
  let symAt (i : Nat) : Nat :=
    if high ≤ i then rare.getD (size - 1 - i) 0 else ((placed.find? fun x => x.1 = i).map Prod.snd).getD 0
  let first := tagged.map fun (p, s) => (s, p.getD 1)
  ⟨log, numberCells log ((List.range size).map symAt) first⟩

/-- A table of one symbol. -/
def rleTable (s : Nat) : FseTable := ⟨0, [⟨s, 0, 0⟩]⟩

/-- A table description at the head of the bytes, with at most `maxLog` and symbols below `syms`: the table and the rest. Log 5: PRESUMED. -/
def readTable (maxLog syms : Nat) (bs : List Byte) : Option (FseTable × List Byte) :=
  match bs with
  | [] => none
  | b :: _ =>
    let log := b.toNat % 16 + 5
    if maxLog < log then none
    else
      match readProbs (leNat (bs.take 512)) 1024 (2 ^ log) 4 [] with
      | none => none
      | some (probs, pos) =>
        let n := (pos + 7) / 8
        if decide (syms < probs.length) || decide (bs.length < n) then none else some (fseTable log probs, bs.drop n)

/-- The cell of a state. -/
def FseTable.cell (t : FseTable) (state : Nat) : FseCell := t.cells.getD state ⟨0, 0, 0⟩

/-! ### Huffman codes -/

/-- A Huffman table: the code length limit and, by the next bits, a symbol and its length. -/
structure HufTable where
  log : Nat
  cells : List (Nat × Nat)
  deriving DecidableEq, Repr

/-- Weights from two states in turn, until the stream is used up. It takes fuel and the bits; `a` speaks next. -/
def hufWeights (t : FseTable) : Nat → Nat → Nat → BackBits → List Nat → Option (List Nat)
  | 0, _, _, _, _ => none
  | fuel + 1, a, b, bits, acc =>
    let c := t.cell a
    let acc := c.sym :: acc
    if bits.2 < c.bits then some ((t.cell b).sym :: acc).reverse
    else hufWeights t fuel b (c.base + peekBack c.bits bits) (bits.1, bits.2 - c.bits) acc

/-- The table of weights, the last of which completes them to a power of two. -/
def hufTable (ws : List Nat) : Option HufTable :=
  let total := ((ws.filter fun w => w ≠ 0).map fun w => 2 ^ (w - 1)).sum
  if total = 0 then none
  else
    let log := Nat.log2 total + 1
    let left := 2 ^ log - total
    if decide (11 < log) || 2 ^ Nat.log2 left ≠ left || decide (255 < ws.length) then none
    else
      let all := (ws ++ [Nat.log2 left + 1]).zipIdx
      let ofWeight (w : Nat) : List (Nat × Nat) :=
        (all.filterMap fun (x, s) => if x = w then some (List.replicate (2 ^ (w - 1)) (s, log + 1 - w)) else none).flatten
      some ⟨log, ((List.range log).map fun i => ofWeight (i + 1)).flatten⟩

/-- A Huffman tree description at the head of the bytes: the table and the rest. Log 5: PRESUMED. -/
def readTree (bs : List Byte) : Option (HufTable × List Byte) :=
  match bs with
  | [] => none
  | b :: rest =>
    let h := b.toNat
    if 128 ≤ h then
      let n := h - 127
      let k := (n + 1) / 2
      if rest.length < k then none
      else
        let ws := ((rest.take k).map fun x => [x.toNat / 16, x.toNat % 16]).flatten.take n
        (hufTable ws).map fun t => (t, rest.drop k)
    else if rest.length < h then none
    else
      match readTable 6 13 (rest.take h) with
      | none => none
      | some (t, stream) =>
        match (backBits stream).bind (readBack t.log) with
        | none => none
        | some (a, bits) =>
          match readBack t.log bits with
          | none => none
          | some (b, bits) =>
            ((hufWeights t 512 a b bits []).bind hufTable).map fun x => (x, rest.drop h)

/-- The symbols of one Huffman stream, which its bits fill exactly. -/
def hufSymbols (t : HufTable) : Nat → BackBits → List Byte → Option (List Byte)
  | 0, _, _ => none
  | fuel + 1, bits, acc =>
    if bits.2 = 0 then some acc.reverse
    else
      match t.cells[peekBack t.log bits]? with
      | none => none
      | some (s, n) => if bits.2 < n then none else hufSymbols t fuel (bits.1, bits.2 - n) (BitVec.ofNat 8 s :: acc)

/-- A Huffman stream that regenerates `n` bytes. -/
def hufStream (t : HufTable) (n : Nat) (bs : List Byte) : Option (List Byte) :=
  match backBits bs with
  | none => none
  | some bits => (hufSymbols t (bits.2 + 1) bits []).filter fun xs => xs.length = n

/-! ### Blocks -/

/-- What a frame carries from block to block: its window, the Huffman and sequence tables, the three repeat offsets, and
what it has produced, newest first. -/
structure ZFrame where
  window : Nat
  huf : Option HufTable
  ll : Option FseTable
  off : Option FseTable
  ml : Option FseTable
  reps : Nat × Nat × Nat
  out : List Byte
  deriving DecidableEq, Repr

/-- The largest block of a frame. -/
def ZFrame.blockMax (f : ZFrame) : Nat := min f.window 131072

/-- The literals of a block, the Huffman table in force, and the rest. -/
def readLiterals (f : ZFrame) (bs : List Byte) : Option (List Byte × Option HufTable × List Byte) :=
  let b0 := leAt bs 0 1
  let kind := b0 % 4
  let sf := b0 / 4 % 4
  if bs.isEmpty then none
  else if kind ≤ 1 then
    let (hdr, n) := if sf % 2 = 0 then (1, b0 / 8) else if sf = 1 then (2, leAt bs 0 2 / 16) else (3, leAt bs 0 3 / 16)
    let body := bs.drop hdr
    if decide (bs.length < hdr) || decide (f.blockMax < n) then none
    else if kind = 0 then if body.length < n then none else some (body.take n, f.huf, body.drop n)
    else
      match body with
      | [] => none
      | b :: rest => some (List.replicate n b, f.huf, rest)
  else
    let (hdr, w) := if sf ≤ 1 then (3, 10) else if sf = 2 then (4, 14) else (5, 18)
    let v := leAt bs 0 hdr / 16
    let n := v % 2 ^ w
    let size := v / 2 ^ w
    let body := bs.drop hdr
    if decide (bs.length < hdr + size) || decide (f.blockMax < n) then none
    else
      match (if kind = 2 then readTree (body.take size) else f.huf.map fun t => (t, body.take size)) with
      | none => none
      | some (t, streams) =>
        let rest := body.drop size
        if sf = 0 then (hufStream t n streams).map fun xs => (xs, some t, rest)
        else
          let s1 := leAt streams 0 2
          let s2 := leAt streams 2 2
          let s3 := leAt streams 4 2
          let each := (n + 3) / 4
          let data := streams.drop 6
          if decide (streams.length < 6 + s1 + s2 + s3) || decide (n < 3 * each) then none
          else
            match hufStream t each (data.take s1), hufStream t each ((data.drop s1).take s2),
              hufStream t each ((data.drop (s1 + s2)).take s3), hufStream t (n - 3 * each) (data.drop (s1 + s2 + s3)) with
            | some a, some b, some c, some d => some (a ++ b ++ c ++ d, some t, rest)
            | _, _, _, _ => none

/-- Baseline and extra bits of a literals length code. -/
def llCode (c : Nat) : Option (Nat × Nat) :=
  if c < 16 then some (c, 0)
  else ([(16, 1), (18, 1), (20, 1), (22, 1), (24, 2), (28, 2), (32, 3), (40, 3), (48, 4), (64, 6), (128, 7), (256, 8), (512, 9),
    (1024, 10), (2048, 11), (4096, 12), (8192, 13), (16384, 14), (32768, 15), (65536, 16)] : List (Nat × Nat))[c - 16]?

/-- Baseline and extra bits of a match length code. -/
def mlCode (c : Nat) : Option (Nat × Nat) :=
  if c < 32 then some (c + 3, 0)
  else ([(35, 1), (37, 1), (39, 1), (41, 1), (43, 2), (47, 2), (51, 3), (59, 3), (67, 4), (83, 4), (99, 5), (131, 7), (259, 8),
    (515, 9), (1027, 10), (2051, 11), (4099, 12), (8195, 13), (16387, 14), (32771, 15), (65539, 16)] : List (Nat × Nat))[c - 32]?

/-- The default probabilities of literals lengths. -/
def llDefault : List (Option Nat) :=
  ([4, 3, 2, 2, 2, 2, 2, 2, 2, 2, 2, 2, 2, 1, 1, 1, 2, 2, 2, 2, 2, 2, 2, 2, 2, 3, 2, 1, 1, 1, 1, 1] : List Nat).map some ++
    List.replicate 4 none

/-- The default probabilities of match lengths. -/
def mlDefault : List (Option Nat) :=
  ([1, 4, 3, 2, 2, 2, 2, 2, 2] : List Nat).map some ++ List.replicate 37 (some 1) ++ List.replicate 7 none

/-- The default probabilities of offset codes. -/
def offDefault : List (Option Nat) :=
  ([1, 1, 1, 1, 1, 1, 2, 2, 2] : List Nat).map some ++ List.replicate 15 (some 1) ++ List.replicate 5 none

/-- A sequence table by its mode: predefined, of one symbol, described, or the one before. -/
def seqTable (mode maxLog syms defLog : Nat) (deflt : List (Option Nat)) (prev : Option FseTable) (bs : List Byte) :
    Option (FseTable × List Byte) :=
  if mode = 0 then some (fseTable defLog deflt, bs)
  else if mode = 1 then
    match bs with
    | [] => none
    | b :: rest => if b.toNat < syms then some (rleTable b.toNat, rest) else none
  else if mode = 2 then readTable maxLog syms bs
  else prev.map fun t => (t, bs)

/-- One sequence: literals to copy, then a match. -/
structure ZSeq where
  lits : Nat
  len : Nat
  off : Nat
  deriving DecidableEq, Repr

/-- The sequences of a block from three states; the offset is still a value of the repeat code. -/
def readSeqs (ll off ml : FseTable) : Nat → Nat → Nat → Nat → BackBits → List ZSeq → Option (List ZSeq)
  | 0, _, _, _, bits, acc => if bits.2 = 0 then some acc.reverse else none
  | n + 1, l, o, m, bits, acc =>
    let cl := ll.cell l
    let co := off.cell o
    let cm := ml.cell m
    match llCode cl.sym, mlCode cm.sym with
    | some (lb, le), some (mb, me) =>
      match readBack co.sym bits with
      | none => none
      | some (x, bits) =>
        match readBack me bits with
        | none => none
        | some (y, bits) =>
          match readBack le bits with
          | none => none
          | some (z, bits) =>
            let acc := ⟨lb + z, mb + y, 2 ^ co.sym + x⟩ :: acc
            if n = 0 then if bits.2 = 0 then some acc.reverse else none
            else
              match readBack cl.bits bits with
              | none => none
              | some (dl, bits) =>
                match readBack cm.bits bits with
                | none => none
                | some (dm, bits) =>
                  match readBack co.bits bits with
                  | none => none
                  | some (d, bits) => readSeqs ll off ml n (cl.base + dl) (co.base + d) (cm.base + dm) bits acc
    | _, _ => none

/-- The offset of a sequence and the repeat offsets after it. -/
def seqOffset (reps : Nat × Nat × Nat) (lits off : Nat) : Nat × (Nat × Nat × Nat) :=
  let (a, b, c) := reps
  if 3 < off then (off - 3, off - 3, a, b)
  else
    let k := if lits = 0 then off + 1 else off
    if k = 1 then (a, a, b, c)
    else if k = 2 then (b, b, a, c)
    else if k = 3 then (c, c, a, b)
    else (a - 1, a - 1, a, b)

/-- A match copied byte by byte from the output, newest first. -/
def copyMatch (off : Nat) : Nat → List Byte → Option (List Byte)
  | 0, out => some out
  | n + 1, out => match out[off - 1]? with
    | some b => copyMatch off n (b :: out)
    | none => none

/-- The sequences of a block executed: the rest of the literals follows the last. -/
def runSeqs (window : Nat) : List ZSeq → List Byte → (Nat × Nat × Nat) → List Byte → Option ((Nat × Nat × Nat) × List Byte)
  | [], lits, reps, out => some (reps, lits.reverse ++ out)
  | q :: qs, lits, reps, out =>
    if lits.length < q.lits then none
    else
      let (off, reps) := seqOffset reps q.lits q.off
      if off = 0 || decide (window < off) then none
      else
        match copyMatch off q.len ((lits.take q.lits).reverse ++ out) with
        | none => none
        | some out => runSeqs window qs (lits.drop q.lits) reps out

/-- A compressed block. Log 5: PRESUMED. -/
def zBlock (f : ZFrame) (bs : List Byte) : Option ZFrame :=
  match readLiterals f bs with
  | none => none
  | some (lits, huf, seq) =>
    let f := { f with huf := huf }
    let b0 := leAt seq 0 1
    let (hdr, n) := if b0 < 128 then (1, b0) else if b0 < 255 then (2, (b0 - 128) * 256 + leAt seq 1 1)
      else (3, leAt seq 1 2 + 0x7F00)
    if seq.length < hdr then none
    else if n = 0 then if seq.length = hdr then some { f with out := lits.reverse ++ f.out } else none
    else
      let modes := leAt seq hdr 1
      if decide (seq.length < hdr + 1) || modes % 4 ≠ 0 then none
      else
        match seqTable (modes / 64) 9 36 6 llDefault f.ll (seq.drop (hdr + 1)) with
        | none => none
        | some (ll, r1) =>
          match seqTable (modes / 16 % 4) 8 32 5 offDefault f.off r1 with
          | none => none
          | some (off, r2) =>
            match seqTable (modes / 4 % 4) 9 53 6 mlDefault f.ml r2 with
            | none => none
            | some (ml, r3) =>
              match (backBits r3).bind (readBack ll.log) with
              | none => none
              | some (l, bits) =>
                match readBack off.log bits with
                | none => none
                | some (o, bits) =>
                  match readBack ml.log bits with
                  | none => none
                  | some (m, bits) =>
                    match (readSeqs ll off ml n l o m bits []).bind fun qs => runSeqs f.window qs lits f.reps f.out with
                    | none => none
                    | some (reps, out) => some { f with ll := some ll, off := some off, ml := some ml, reps := reps, out := out }

/-- The blocks of a frame, and what follows them. -/
def zBlocks : Nat → ZFrame → List Byte → Option (ZFrame × List Byte)
  | 0, _, _ => none
  | fuel + 1, f, bs =>
    if bs.length < 3 then none
    else
      let v := leAt bs 0 3
      let kind := v / 2 % 4
      let n := v / 8
      let body := bs.drop 3
      let used := if kind = 1 then 1 else n
      if decide (f.blockMax < n) || decide (body.length < used) then none
      else
        let next : Option ZFrame :=
          if kind = 0 then some { f with out := (body.take n).reverse ++ f.out }
          else if kind = 1 then some { f with out := List.replicate n (body.headD 0#8) ++ f.out }
          else if kind = 2 then (zBlock f (body.take n)).filter fun g => decide (g.out.length ≤ f.out.length + f.blockMax)
          else none
        match next with
        | none => none
        | some g => if v % 2 = 1 then some (g, body.drop used) else zBlocks fuel g (body.drop used)

/-! ### XXH64 -/

/-- The primes of XXH64. -/
def xxhPrime : Nat → DWord
  | 1 => 0x9E3779B185EBCA87#64
  | 2 => 0xC2B2AE3D27D4EB4F#64
  | 3 => 0x165667B19E3779F9#64
  | 4 => 0x85EBCA77C2B2AE63#64
  | _ => 0x27D4EB2F165667C5#64

/-- One round on an accumulator. -/
def xxhRound (acc x : DWord) : DWord := (acc + x * xxhPrime 2).rotateLeft 31 * xxhPrime 1

/-- The four lanes over stripes of 32 bytes. -/
def xxhLanes (bs : List Byte) : DWord × DWord × DWord × DWord :=
  let lane (k : Nat) (init : DWord) : DWord :=
    ((chunks 32 bs).filter fun c => c.length = 32).foldl (fun a c => xxhRound a (BitVec.ofNat 64 (leAt c (8 * k) 8))) init
  (lane 0 (xxhPrime 1 + xxhPrime 2), lane 1 (xxhPrime 2), lane 2 0#64, lane 3 (0#64 - xxhPrime 1))

/-- A lane merged into the digest. -/
def xxhMerge (h v : DWord) : DWord := (h ^^^ xxhRound 0#64 v) * xxhPrime 1 + xxhPrime 4

/-- XXH64 with seed 0. Log 5: PRESUMED. -/
def xxh64 (bs : List Byte) : DWord :=
  let n := bs.length
  let h : DWord :=
    if 32 ≤ n then
      let (a, b, c, d) := xxhLanes bs
      xxhMerge (xxhMerge (xxhMerge (xxhMerge (a.rotateLeft 1 + b.rotateLeft 7 + c.rotateLeft 12 + d.rotateLeft 18) a) b) c) d
    else xxhPrime 5
  let h := h + BitVec.ofNat 64 n
  let rest := bs.drop (n / 32 * 32)
  let k := rest.length / 8
  let h := (chunks 8 (rest.take (8 * k))).foldl (fun h c =>
    (h ^^^ xxhRound 0#64 (BitVec.ofNat 64 (leNat c))).rotateLeft 27 * xxhPrime 1 + xxhPrime 4) h
  let rest := rest.drop (8 * k)
  let (h, rest) := if 4 ≤ rest.length then
      ((h ^^^ BitVec.ofNat 64 (leAt rest 0 4) * xxhPrime 1).rotateLeft 23 * xxhPrime 2 + xxhPrime 3, rest.drop 4)
    else (h, rest)
  let h := rest.foldl (fun h b => (h ^^^ BitVec.ofNat 64 b.toNat * xxhPrime 5).rotateLeft 11 * xxhPrime 1) h
  let h := (h ^^^ h >>> 33) * xxhPrime 2
  let h := (h ^^^ h >>> 29) * xxhPrime 3
  h ^^^ h >>> 32

/-! ### Frames -/

/-- A frame after its magic number: what it holds and what follows it (R246). Log 5: PRESUMED. -/
def zFrame (bs : List Byte) : Option (List Byte × List Byte) :=
  let fhd := leAt bs 0 1
  let single := fhd / 32 % 2 = 1
  let dictBytes := [0, 1, 2, 4].getD (fhd % 4) 0
  let sizeBytes := if fhd / 64 = 0 then if single then 1 else 0 else 2 ^ (fhd / 64)
  let at0 := if single then 1 else 2
  let hdr := at0 + dictBytes + sizeBytes
  let field := leAt bs (at0 + dictBytes) sizeBytes
  let size := if sizeBytes = 0 then none else some (if sizeBytes = 2 then field + 256 else field)
  let w := leAt bs 1 1
  let window := if single then size.getD 0 else 2 ^ (10 + w / 8) + 2 ^ (10 + w / 8) / 8 * (w % 8)
  if bs.isEmpty || decide (bs.length < hdr) || fhd / 8 % 2 = 1 || leAt bs at0 dictBytes ≠ 0 || decide (8388608 < window) then none
  else
    match zBlocks bs.length ⟨window, none, none, none, none, (1, 4, 8), []⟩ (bs.drop hdr) with
    | none => none
    | some (f, rest) =>
      let out := f.out.reverse
      if size.any fun n => n ≠ out.length then none
      else if fhd / 4 % 2 = 0 then some (out, rest)
      else if decide (rest.length < 4) || leAt rest 0 4 ≠ (xxh64 out).toNat % 2 ^ 32 then none
      else some (out, rest.drop 4)

/-- Frames one after another; `seen` says that one Zstandard frame has been read. -/
def zFrames : Nat → Bool → List Byte → List Byte → Option (List Byte)
  | 0, _, _, _ => none
  | fuel + 1, seen, bs, acc =>
    if bs.isEmpty then if seen then some acc else none
    else if bs.length < 4 then none
    else if leAt bs 0 4 = 0xFD2FB528 then
      match zFrame (bs.drop 4) with
      | none => none
      | some (out, rest) => zFrames fuel true rest (acc ++ out)
    else if leAt bs 0 4 / 16 = 0x184D2A5 then
      let n := leAt bs 4 4
      if bs.length < 8 + n then none else zFrames fuel seen (bs.drop (8 + n)) acc
    else none

/-- The decompressor (R246): none is a failed stage 2. Log 5: PRESUMED. -/
def zstd (bs : List Byte) : Option (List Byte) := zFrames (bs.length + 1) false bs []

end Sys2Proof.Machine
end

