-- ==== Sys2Proof/Machine/Weights.lean ====
section
/-! DEFINITION. Models and the arrival of weights (R244 to R253): declaration and placement, the converter, shard
attempts, activation. -/
namespace Sys2Proof.Machine

/-! ### Placement (R252) -/

/-- What the placement of tensors comes to. -/
inductive Placing where
  | done (ps : List PlacedTensor) (s : State)
  | waits (s : State)
  | never
  deriving DecidableEq, Repr

/-- A placement with one more tensor in front. -/
def Placing.cons (p : PlacedTensor) : Placing → Placing
  | .done ps s => .done (p :: ps) s
  | x => x

/-- Tensors placed in order (R252): CLASS 0 in HBM; cold experts in HBM while they fit, the rest in LPDDR; an adapter's in HBM
while they fit, cold experts giving way, the rest in LPDDR. `hbm` says that HBM has not yet been too full. Log 64: DESIGN CHOICE. -/
def placeAll (owner : Nat → Owner) : List Tensor → Bool → State → Placing
  | [], _, s => .done [] s
  | t :: ts, hbm, s =>
    let n := t.regionBytes
    let put (tier b : Nat) (hbm : Bool) (s : State) : Placing :=
      (placeAll owner ts hbm (takeRegion tier b n (owner t.id) s)).cons ⟨t.id, tier, b, n, false, 0, none⟩
    let lp (s : State) : Placing := match demandRoom 1 none n s with
      | .now b s => put 1 b false s
      | .later s => .waits s
      | .never => .never
    if t.cls = 0 then
      match demandRoom 0 none n s with
      | .now b s => put 0 b hbm s
      | .later s => .waits s
      | .never => .never
    else if !hbm then lp s
    else if t.cls = 1 then
      match roomFor s 0 none n with
      | some b => put 0 b true s
      | none => lp s
    else
      match demandRoom 0 none n s with
      | .now b s => put 0 b true s
      | .later s => .waits s
      | .never => lp s

/-- A list sorted by a key, ascending and stable. -/
def byKey {α : Type} (key : α → Nat) (xs : List α) : List α :=
  xs.foldl (fun acc x => (acc.takeWhile fun y => decide (key y ≤ key x)) ++ x :: acc.dropWhile fun y => decide (key y ≤ key x)) []

/-- The tensors of a manifest that this package places, in the order of R252. Log 64: DESIGN CHOICE. -/
def placeOrder (s : State) (m : Manifest) : List Tensor :=
  let held := byKey (fun t => t.id) (m.heldBy s.boot.pkg)
  (held.filter fun t => t.cls = 0) ++ held.filter fun t => t.cls ≠ 0

/-- Regions of an owner given back. -/
def dropRegions (p : Owner → Bool) (s : State) : State :=
  { s with mem := { s.mem with regions := s.mem.regions.filter fun g => !p g.owner } }

/-- The standing of the shards a package waits for, at the first attempt (R248). -/
def freshShards (s : State) (m : Manifest) (source : Nat) : List ShardSt :=
  let ids := (m.heldBy s.boot.pkg).map fun t => t.id
  (m.shards.filter fun x => ids.contains x.tensor).map fun x => ⟨x.index, 0, 1, 0, source, s.beat.elapsed⟩

/-- Bytes that a placement puts in a tier. -/
def tierBytes (ps : List PlacedTensor) (tier : Nat) : Nat := ((ps.filter fun p => p.tier = tier).map fun p => p.bytes).sum

/-- The lowest free model index (R364). -/
def freeIndex (s : State) : Nat :=
  ((List.range 8).find? fun i => !(s.models.models.any fun m => m.index = i)).getD 0

/-- A declared model enters LOADING, or LOADED when the package waits for no shard of it (R244). -/
def addModel (m : Manifest) (timeout source : Nat) (ps : List PlacedTensor) (s : State) : State :=
  let xs := freshShards s m source
  let x : Model := ⟨freeIndex s, m.modelId, if xs.isEmpty then 2 else 1, m, timeout, source, xs, ps, [], [], 0, [], 0, 0, 0, [], [], [],
    [], 0, [], false⟩
  { s with models := { s.models with models := s.models.models ++ [x] } }

/-- The adapter slot of a model. -/
def Model.slotOf (m : Model) (slot : Nat) : Option AdapterSlot := m.adapters.find? fun a => a.slot = slot

/-- A model's adapter slot changes; one that nothing has used starts its version counter at 1 (R263). -/
def setSlot (modelId slot : Nat) (f : AdapterSlot → AdapterSlot) (s : State) : State :=
  setModel modelId (fun m => { m with adapters :=
    if (m.slotOf slot).isSome then updBy (fun a => a.slot = slot) f m.adapters
    else m.adapters ++ [f ⟨slot, 1, false, []⟩] }) s

/-- The staged version of a slot (R263). -/
def AdapterSlot.staged (a : AdapterSlot) : Option AdapterVer := a.versions.find? fun v => !v.live

/-- A version counter in 16 bits that starts at 1 again (R263). -/
def nextVersion (n : Nat) : Nat := if n = 65535 then 1 else n + 1

/-- A loaded adapter is staged (R263). -/
def addAdapter (m : Manifest) (timeout source : Nat) (ps : List PlacedTensor) (s : State) : State :=
  let xs := freshShards s m source
  setSlot m.modelId m.slot (fun a => { a with
    next := nextVersion a.next
    versions := a.versions ++ [⟨a.next, false, false, m, timeout, source, xs, ps⟩] }) s

/-- The version that the next load into a slot takes. -/
def versionFor (s : State) (modelId slot : Nat) : Nat :=
  (((s.model modelId).bind fun m => m.slotOf slot).map fun a => a.next).getD 1

/-- The owner of a tensor's region under a manifest. -/
def ownerFor (s : State) (m : Manifest) (tensor : Nat) : Owner :=
  if m.kind = 0 then .tensor m.modelId tensor else .adapter m.modelId m.slot (versionFor s m.modelId m.slot) tensor

/-- Whether a region belongs to a manifest's own placement. -/
def ownedBy (s : State) (m : Manifest) (o : Owner) : Bool :=
  (m.heldBy s.boot.pkg).any fun t => o = ownerFor s m t.id

/-- A placed manifest is taken up and answered (R252, R263, R364). -/
def takeUp (ans : Answer) (m : Manifest) (timeout source : Nat) (ps : List PlacedTensor) (s : State) : State :=
  if m.kind = 0 then
    ans stOk 0 (leBytes 1 (freeIndex s) ++ leBytes 7 0 ++ leBytes 8 (tierBytes ps 0) ++ leBytes 8 (tierBytes ps 1))
      (addModel m timeout source ps s)
  else ans stOk 0 (leBytes 2 (versionFor s m.modelId m.slot)) (addAdapter m timeout source ps s)

/-- A demand waits for eviction (R279). Log 66: DESIGN CHOICE. -/
def waitFor (session tag principal : Nat) (w : Want) (s : State) : State :=
  let (d, s) := draw s
  { s with mem := { s.mem with demands := s.mem.demands ++ [⟨d, session, tag, principal, w, s.beat.elapsed⟩] } }

/-- Opcode of a manifest's command. -/
def declareOp (m : Manifest) : Nat := if m.kind = 0 then 0x0101 else 0x0107

/-- A manifest is placed, waits for space, or is refused (R252, R279). Log 62: DESIGN CHOICE. -/
def placeManifest (h : Hdr) (m : Manifest) (timeout source : Nat) (s : State) : State :=
  match placeAll (ownerFor s m) (placeOrder s m) true s with
  | .done ps s => takeUp (answerNow h (declareOp m)) m timeout source ps s
  | .waits s' => waitFor h.session h.tag source (.place m timeout) (accept h (declareOp m) [] (dropRegions (ownedBy s m) s'))
  | .never => reply h (declareOp m) stNoResource 0 [] s

/-- Whether a manifest of the same model, or for the same slot of it, waits for space. Log 62: DESIGN CHOICE. -/
def placeWaits (s : State) (m : Manifest) : Bool :=
  s.mem.demands.any fun d => match d.want with
    | .place x _ => x.kind = m.kind && x.modelId = m.modelId && (m.kind = 0 || x.slot = m.slot)
    | _ => false

/-- Base models that wait for space. Log 62: DESIGN CHOICE. -/
def waitingModels (s : State) : Nat :=
  (s.mem.demands.filter fun d => match d.want with
    | .place x _ => x.kind = 0
    | _ => false).length

/-- Whether the models and slots stand so that a manifest cannot be taken up (R244, R263). -/
def placeRefusal (s : State) (m : Manifest) : Option (Nat × Nat) :=
  if m.kind = 0 then
    if (s.model m.modelId).isSome then some (stConflict, modelCode s m.modelId)
    else if 8 ≤ s.models.models.length then some (stNoResource, 0)
    else none
  else if modelCode s m.modelId ≠ 0x33 then some (stConflict, modelCode s m.modelId)
  else if (((s.model m.modelId).bind fun x => x.slotOf m.slot).bind fun a => a.staged).isSome then some (stConflict, 0x52)
  else none

/-! ### Declaring and withdrawing -/

/-- A SHARD_TIMEOUT of 0 stands for 30 s (R248). -/
def shardSeconds (n : Nat) : Nat := if n = 0 then 30 else n

/-- MODEL_DECLARE (R238, R243, R244, R252). -/
def execModelDeclare (h : Hdr) (w : WinRef) (shardTimeout : Nat) (sigOk : Bool) (s : State) : Host.Outcome State Fault Refusal :=
  hosted (.modelDeclare h w shardTimeout sigOk) h ⟨0x0101, roleModels, featRoce⟩
    (fun _ _ => badIf (decide (3600 < shardTimeout)))
    (fun e s =>
      match windowBytes s e.principal w with
      | none => reply h 0x0101 stBadParam 0 [] s
      | some bs =>
        match readManifest s sigOk bs with
        | .refused st => reply h 0x0101 st 0 [] s
        | .ok m =>
          if m.kind ≠ 0 then reply h 0x0101 stBadParam 0 [] s
          else
            match placeRefusal s m with
            | some (st, d) => reply h 0x0101 st d [] s
            | none =>
              if placeWaits s m then reply h 0x0101 stBusy 0 [] s
              else if 8 ≤ s.models.models.length + waitingModels s then reply h 0x0101 stNoResource 0 [] s
              else placeManifest h m (shardSeconds shardTimeout) e.principal s) s

/-- Whether something of a model is still in use (R244): a request that is not final, a step pinned to one of its epochs. -/
def modelInUse (s : State) (id : Nat) : Bool :=
  (s.serve.reqs.any fun r => r.p.modelId = id && !finalState r.state) || !(pinnedCmds s id).isEmpty

/-- Whether a region belongs to a model. -/
def ofModel (id : Nat) : Owner → Bool
  | .tensor m _ => m = id
  | .adapter m _ _ _ => m = id
  | .kvPool m => m = id
  | .replica m _ _ _ => m = id
  | _ => false

/-- A model returns to ABSENT and its tiles are freed (R244). -/
def withdrawModel (id : Nat) (s : State) : State :=
  let s := dropRegions (ofModel id) s
  { s with
    models := { s.models with
      models := s.models.models.filter fun m => m.id ≠ id
      converter := s.models.converter.filter fun p => p.modelId ≠ id }
    mem := { s.mem with limMoves := s.mem.limMoves.filter fun l => l.model ≠ id } }

/-- MODEL_DECLARE with WITHDRAW (R244). -/
def execModelWithdraw (h : Hdr) (modelId : Nat) (s : State) : Host.Outcome State Fault Refusal :=
  hosted (.modelWithdraw h modelId) h ⟨0x0101, roleModels, 0⟩ noRanges
    (fun _ s =>
      match s.model modelId with
      | none => reply h 0x0101 stConflict 0x30 [] s
      | some m =>
        if m.state = 3 && modelInUse s modelId then reply h 0x0101 stConflict 0x33 [] s
        else replyOk h 0x0101 [] (withdrawModel modelId s)) s

/-! ### Shards -/

/-- What a set of shards belongs to: a model's manifest, or a version of one of its adapter slots. -/
structure ShardSet where
  manifest : Manifest
  shards : List ShardSt
  placed : List PlacedTensor
  source : Nat
  deriving DecidableEq, Repr

/-- Whether some shard is still pending. -/
def anyPending (xs : List ShardSt) : Bool := xs.any fun x => x.state = 0

/-- The version of a slot whose shards arrive: one with a pending shard, else the staged one (R256, R263). -/
def AdapterSlot.loading (a : AdapterSlot) : Option AdapterVer :=
  match a.versions.find? fun v => anyPending v.shards with
  | some v => some v
  | none => a.staged

/-- The shards of a model, or of the version of a slot that arrives. A model's tensors may rest in a later epoch's region, with the
manifest's own kept for an earlier one (R256, R258). -/
def shardSet (s : State) (modelId : Nat) : Option Nat → Option ShardSet
  | none => (s.model modelId).map fun m => ⟨m.manifest, m.shards, m.placed ++ m.origins, m.source⟩
  | some slot => (((s.model modelId).bind fun m => m.slotOf slot).bind fun a => a.loading).map fun v =>
      ⟨v.manifest, v.shards, v.placed, v.source⟩

/-- A version of a slot changes. -/
def setVersion (modelId slot version : Nat) (f : AdapterVer → AdapterVer) (s : State) : State :=
  setSlot modelId slot (fun a => { a with versions := updBy (fun v => v.version = version) f a.versions }) s

/-- The standing of a shard changes. -/
def setShard (modelId : Nat) (slot : Option Nat) (index : Nat) (f : ShardSt → ShardSt) (s : State) : State :=
  match slot with
  | none => setModel modelId (fun m => { m with shards := updBy (fun x => x.index = index) f m.shards }) s
  | some k =>
    match ((s.model modelId).bind fun m => m.slotOf k).bind fun a => a.loading with
    | none => s
    | some v => setVersion modelId k v.version (fun v => { v with shards := updBy (fun x => x.index = index) f v.shards }) s

/-- The adapter slot whose load takes the pushes of an active model: the lowest with a pending shard (R263). -/
def loadingSlot (m : Model) : Option Nat :=
  leastBy id ((m.adapters.filter fun a => match a.loading with
    | some v => anyPending v.shards
    | none => false).map fun a => a.slot)

/-- Whose shard a push names: the model's while it is LOADING or reloads that shard (R256), else that of the adapter being
loaded; none is a conflict with the model's state (R250). Log 67: DESIGN CHOICE. -/
def pushTarget (s : State) (modelId shard : Nat) : Option (Option Nat) :=
  match s.model modelId with
  | none => none
  | some m =>
    if m.state = 1 || (m.state = 3 && m.shards.any fun x => x.index = shard && x.state = 0) then some none
    else if m.state = 3 then (loadingSlot m).map some
    else none

/-- SHARD_PUSH (R245, R250): the bytes are taken and the shard queues for the converter. A shard that has failed finally takes
no more bytes. Log 67: DESIGN CHOICE. -/
def execShardPush (h : Hdr) (modelId shard window offset : Nat) (s : State) : Host.Outcome State Fault Refusal :=
  hosted (.shardPush h modelId shard window offset) h ⟨0x0102, roleModels, featRoce⟩ noRanges
    (fun e s =>
      match pushTarget s modelId shard with
      | none => reply h 0x0102 stConflict (modelCode s modelId) [] s
      | some slot =>
        match shardSet s modelId slot with
        | none => reply h 0x0102 stConflict (modelCode s modelId) [] s
        | some set =>
          match set.shards.find? fun x => x.index = shard, set.manifest.shards[shard]? with
          | some st, some x =>
            if st.state = 1 then reply h 0x0102 stOk 1 [] s
            else
              match windowBytes s e.principal ⟨window, offset, x.bytes⟩ with
              | none => reply h 0x0102 stBadParam 0 [] s
              | some bs =>
                if st.state = 2 then replyOk h 0x0102 [] s
                else replyOk h 0x0102 [] { s with models := { s.models with
                  converter := s.models.converter ++ [⟨modelId, slot, shard, bs⟩] } }
          | _, _ => reply h 0x0102 stBadParam 0 [] s) s

/-- The failure list of R249. -/
def failureList (xs : List ShardSt) : List Byte :=
  ((xs.filter fun x => x.state = 2).map fun x => leBytes 4 x.index ++ leBytes 1 x.cause ++ leBytes 1 x.attempt ++ leBytes 2 0).flatten

/-- The final status of shards that have failed (R249). -/
def failStatusOf (xs : List ShardSt) : Nat :=
  if xs.any fun x => x.state = 2 && x.cause ≠ 4 then stDigest else stShardMissing

/-- SHARD_STATUS (R249, R364): of an adapter load in progress, else of the model. Log 67: DESIGN CHOICE. -/
def execShardStatus (h : Hdr) (modelId first count : Nat) (s : State) : Host.Outcome State Fault Refusal :=
  hosted (.shardStatus h modelId first count) h ⟨0x0103, roleModels, 0⟩ (fun _ _ => badIf (count = 0 || decide (256 < count)))
    (fun _ s =>
      match s.model modelId with
      | none => reply h 0x0103 stConflict 0x30 [] s
      | some m =>
        let xs := ((if m.state = 3 then (loadingSlot m).bind fun k => (shardSet s modelId (some k)).map fun v => v.shards
          else none)).getD m.shards
        let n (st : Nat) : Nat := (xs.filter fun x => x.state = st).length
        let entries := (xs.filter fun x => decide (first ≤ x.index) && decide (x.index < first + count)).map fun x =>
          leBytes 4 x.index ++ leBytes 1 x.state ++ leBytes 1 x.attempt ++ leBytes 1 x.cause ++ leBytes 1 0 ++ leBytes 4 x.asked ++
            leBytes 4 0
        let head := leBytes 1 (modelCode s modelId) ++ leBytes 3 0 ++ leBytes 4 (n 1) ++ leBytes 4 (n 0) ++ leBytes 4 (n 2)
        if m.state = 4 then reply h 0x0103 m.failStatus 0 (head ++ entries.flatten ++ failureList xs) s
        else replyOk h 0x0103 (head ++ entries.flatten) s) s

/-- Requests of a model that can run no more end with ST_CONTEXT_FAULT. -/
def endRequestsOf (p : Req → Bool) (s : State) : State :=
  (s.serve.reqs.filter fun r => p r && !finalState r.state).foldl (fun s r => endRequest r.id 0x11 stContextFault s) s

/-- A model enters FAILED (R244, R249, R256). Log 67: DESIGN CHOICE. -/
def failModel (id status : Nat) (s : State) : State :=
  endRequestsOf (fun r => r.p.modelId = id) (setModel id (fun m => { m with state := 4, failStatus := status }) s)

/-- Whether a region belongs to a version of an adapter. -/
def ofVersion (modelId slot version : Nat) : Owner → Bool
  | .adapter m k n _ => m = modelId && k = slot && n = version
  | _ => false

/-- A version that cannot be completed is dropped with its tiles; requests that use it end with ST_CONTEXT_FAULT. Log 67: DESIGN CHOICE. -/
def dropVersion (modelId slot version : Nat) (s : State) : State :=
  let s := endRequestsOf (fun r => r.p.modelId = modelId && r.adapters.contains (slot, version)) s
  setSlot modelId slot (fun a => { a with versions := a.versions.filter fun w => w.version ≠ version })
    (dropRegions (ofVersion modelId slot version) s)

/-- Versions of a slot some shard of which has failed finally. -/
def failedVersions (s : State) (modelId slot : Nat) : List Nat :=
  match (s.model modelId).bind fun m => m.slotOf slot with
  | none => []
  | some a => (a.versions.filter fun v => !anyPending v.shards && v.shards.any fun x => x.state = 2).map fun v => v.version

/-- With no shard pending any more the set is loaded or has failed (R244, R249). A model that has been ACTIVE stays as it is: its
reload is switched in at a beat boundary (R256, R257). -/
def settleShards (modelId : Nat) (slot : Option Nat) (s : State) : State :=
  match slot with
  | some k => (failedVersions s modelId k).foldl (fun s v => dropVersion modelId k v s) s
  | none =>
    match s.model modelId with
    | none => s
    | some m =>
      if anyPending m.shards then s
      else if m.shards.any fun x => x.state = 2 then failModel modelId (failStatusOf m.shards) s
      else setModel modelId (fun m => { m with state := if m.state = 1 && m.epochs.isEmpty then 2 else m.state }) s

/-- Who is asked for a re-request (R248): the principal, or 0xFFFF_FFFF for a peer package. -/
def askedFor (set : ShardSet) (x : Shard) (n : Nat) : Nat :=
  if x.altCount = 0 then set.source
  else
    match set.manifest.alts[x.altFirst + (n - 1) % x.altCount]? with
    | some a => if a.peer then 0xFFFFFFFF else a.principal
    | none => set.source

/-- A re-request to a peer alternate asks it for the shard's tile images (R248, log 124). -/
def askPeer (modelId shard : Nat) (set : ShardSet) (x : Shard) (n : Nat) (s : State) : State :=
  match set.manifest.alts[x.altFirst + (n - 1) % x.altCount]? with
  | some a => if a.peer && decide (0 < x.altCount) then sendFab a.pkg 0 (.tileRead modelId shard) s else s
  | none => s

/-- A shard attempt fails with a cause (R248, R249). -/
def failAttempt (modelId : Nat) (slot : Option Nat) (shard cause : Nat) (s : State) : State :=
  match shardSet s modelId slot with
  | none => s
  | some set =>
    match set.shards.find? fun x => x.index = shard, set.manifest.shards[shard]? with
    | some st, some x =>
      if st.state ≠ 0 then s
      else
        let s := record 0x0101 3 pkgSource (leBytes 8 modelId ++ leBytes 4 shard ++ leBytes 1 st.attempt ++ leBytes 1 cause) s
        let f (y : ShardSt) : ShardSt :=
          if 4 ≤ y.attempt then { y with state := 2, cause := cause }
          else { y with attempt := y.attempt + 1, cause := cause, asked := askedFor set x y.attempt, since := s.beat.elapsed }
        let s := if 4 ≤ st.attempt then s else askPeer modelId shard set x st.attempt s
        settleShards modelId slot (setShard modelId slot shard f s)
    | _, _ => s

/-- Tile images are written where a tensor's region, or the fresh one of a reload, takes them, and the shard is verified. -/
def acceptShard (modelId : Nat) (slot : Option Nat) (x : Shard) (images : List (Nat × List Byte)) (s : State) : State :=
  let held := ((shardSet s modelId slot).map fun set => set.placed.filter fun p => p.tensor = x.tensor).getD []
  match (held.find? fun p => p.fresh.isSome).or held.head? with
  | none => s
  | some p =>
    let base := p.fresh.getD p.base
    let s := images.foldl (fun s i => storeBytes (base + imageBytes * i.1) i.2 s) s
    settleShards modelId slot (setShard modelId slot x.index (fun y => { y with state := 1, cause := 0 }) s)

/-- The six stages of the converter on one shard (R245): a cause of R249 when one fails. Log 63: DESIGN CHOICE. -/
def convertShard (t : Tensor) (x : Shard) (bytes : List Byte) : Except Nat (List (Nat × List Byte)) :=
  if sha384 bytes ≠ x.digest then .error 1
  else
    match if x.compression = 1 then zstd bytes else some bytes with
    | none => .error 2
    | some raw =>
      if raw.length ≠ x.rawBytes then .error 2
      else
        let images := shardImages t x raw
        if sha384 (images.map Prod.snd).flatten ≠ x.rdigest then .error 3 else .ok images

/-- SHARD_CONVERT (R245): the converter takes the oldest queued shard through its stages. -/
def execShardConvert (s : State) : Host.Outcome State Fault Refusal :=
  match s.models.converter with
  | [] => .next s
  | p :: rest =>
    let s := { s with models := { s.models with converter := rest } }
    match shardSet s p.modelId p.slot with
    | none => .next s
    | some set =>
      match set.shards.find? fun x => x.index = p.shard, set.manifest.shards[p.shard]? with
      | some st, some x =>
        if st.state ≠ 0 then .next s
        else
          match set.manifest.tensors.find? fun t => t.id = x.tensor with
          | none => .next s
          | some t =>
            match convertShard t x p.bytes with
            | .error c => .next (failAttempt p.modelId p.slot p.shard c s)
            | .ok images => .next (acceptShard p.modelId p.slot x images s)
      | _, _ => .next s

/-- Whether the converter still holds a push of a shard (R250). -/
def queuedShard (s : State) (modelId : Nat) (slot : Option Nat) (shard : Nat) : Bool :=
  s.models.converter.any fun p => p.modelId = modelId && p.slot = slot && p.shard = shard

/-- SHARD_TIMEOUT in seconds of the manifest that a shard belongs to (R248). -/
def shardSecondsOf (s : State) (modelId : Nat) (slot : Option Nat) : Nat :=
  match slot with
  | none => ((s.model modelId).map fun m => m.timeout).getD 0
  | some k => ((((s.model modelId).bind fun m => m.slotOf k).bind fun a => a.loading).map fun v => v.timeout).getD 0

/-- Whether the attempt of a shard has had its SHARD_TIMEOUT (R248). Log 20: DESIGN CHOICE. -/
def attemptOver (s : State) (modelId : Nat) (slot : Option Nat) (shard : Nat) : Bool :=
  (shardSet s modelId slot).any fun set => set.shards.any fun x =>
    x.index = shard && decide (x.since + shardSecondsOf s modelId slot * 1000000 ≤ s.beat.elapsed)

/-- SHARD_TIMEOUT (R248, R250): the timeout of a shard that waits for the converter does not run. -/
def execShardTimeout (modelId shard : Nat) (s : State) : Host.Outcome State Fault Refusal :=
  match pushTarget s modelId shard with
  | none => .next s
  | some slot => 
    if queuedShard s modelId slot shard || !attemptOver s modelId slot shard then .next s
    else .next (failAttempt modelId slot shard 4 s)

/-- SHARD_PEER_READ (R248): tile images read from a peer alternate, checked against RDIGEST only. Log 124: DESIGN CHOICE. -/
def execShardPeerRead (modelId shard : Nat) (images : List Byte) (s : State) : Host.Outcome State Fault Refusal :=
  match pushTarget s modelId shard with
  | none => .next s
  | some slot =>
    match shardSet s modelId slot with
    | none => .next s
    | some set =>
      match set.shards.find? fun x => x.index = shard, set.manifest.shards[shard]? with
      | some st, some x =>
        if st.state ≠ 0 || st.asked ≠ 0xFFFFFFFF then .next s
        else
          match set.manifest.tensors.find? fun t => t.id = x.tensor with
          | none => .next s
          | some t =>
            if sha384 images ≠ x.rdigest then .next (failAttempt modelId slot shard 3 s)
            else .next (acceptShard modelId slot x ((shardPlaces t x).zip (chunks imageBytes images)) s)
      | _, _ => .next s

/-! ### Sori of one command -/

/-- A check at prepare (R378): the state with what it reserved, and the first failure. It takes the sorus and the place of
the command in it. -/
abbrev Prep := Nat → Nat → State → State × Option (Nat × Nat)

/-- A check that reserves nothing. -/
def plainPrep (f : State → Option (Nat × Nat)) : Prep := fun _ _ s => (s, f s)

/-- A command runs as a sorus of its own on this package (R377): it commits in phase 3 of beat a + 16. A check that is
ST_BUSY is repeated until beat e − 4 (R279, R378). Log 68: DEDUCED. Log 91: DESIGN CHOICE. -/
def ownSorus (i : Instr) (h : Hdr) (op : Nat) (prep : Prep) (s : State) : State :=
  let (d, s) := draw s
  let id := 2 ^ 32 + d
  let add (st : Nat) (s : State) : State :=
    { s with sori := { s.sori with sori := s.sori.sori ++ [⟨id, h.session, [s.boot.pkg], st, [i], entryBytes i, s.beat.elapsed,
        beatAdd s.now 16, none, [], s.boot.pkg, if st = 2 then some true else none, false, 0, true, false,
        ((s.session h.session).map fun e => e.principal).getD 0⟩] } }
  match prep id 0 s with
  | (s, none) => add 2 (accept h op [] s)
  | (s', some (st, d)) => if st = stBusy then add 1 (accept h op [] s') else reply h op st d [] s

/-- The region reserved for a command of a sorus. -/
def reservedRegion (s : State) (sorus index : Nat) : Option Region :=
  s.mem.regions.find? fun g => g.owner = .reserved sorus index

/-! ### Activation (R251) -/

/-- The longest free run of HBM. -/
def longestRun (s : State) : Nat :=
  let regs := tierRegions s 0
  let starts := 0 :: regs.map fun g => roundUp64K (g.base + g.bytes)
  let room (a : Nat) : Nat :=
    if regs.any fun g => decide (g.base ≤ a) && decide (a < g.base + g.bytes) then 0
    else ((regs.filter fun g => decide (a ≤ g.base)).map fun g => g.base).foldl min hbmWindow - a
  (starts.map room).foldl max 0

/-- Page-sets that KV_PAGESETS 0 stands for (R281): as many as HBM's free space holds with 2 % of the window kept free. -/
def largestPool (s : State) (m : Manifest) : Nat :=
  let free := freeSpace s 0 - unusedReserves s 0 none - hbmWindow * 2 / 100
  min 2147483647 (min free (longestRun s) / max 1 (setBytes m.layers))

/-- The members of a sorus; a sorus of one command has this package alone. -/
def sorusMembers (s : State) (sid : Nat) : List Nat := ((s.sorus sid).map fun x => x.members).getD [s.boot.pkg]

/-- The preconditions of MODEL_ACTIVATE, with the KV pool reserved when a count is asked (R251, R281). Log 68: DEDUCED. -/
def activatePrep (modelId kvPagesets : Nat) : Prep := fun sid k s =>
  match s.model modelId with
  | none => (s, some (stConflict, 0x30))
  | some m =>
    if m.state ≠ 2 then (s, some (stConflict, modelCode s modelId))
    else if decide (1 < m.manifest.holders.length) && !(m.manifest.holders.all (sorusMembers s sid).contains) then
      (s, some (stTxnAborted, 0))
    else if kvPagesets = 0 then (s, if largestPool s m.manifest = 0 then some (stNoResource, 0) else none)
    else
      let n := kvPagesets * setBytes m.manifest.layers
      match demandRoom 0 none n s with
      | .now b s => (takeRegion 0 b n (.reserved sid k) s, none)
      | .later s => (s, some (stBusy, 0))
      | .never => (s, some (stNoResource, 0))

/-- The first instance table of a model (R193): the instance of an expert is the lowest package that holds its tensors, at
the rank of the expert among those of its layer there. Log 48: DESIGN CHOICE. -/
def firstTable (m : Manifest) : InstTable :=
  let home (l e : Nat) : Option Nat :=
    let pkgs := (m.tensors.filter fun t => t.layer = l && t.expert = e).map fun t => t.packages
    match pkgs with
    | [] => none
    | p :: _ => (List.range 256).find? fun i => tbit p i
  let entries := (m.layers.zipIdx.map fun (y, l) =>
    ((List.range y.experts).foldl (fun (acc : List InstEntry × List (Nat × Nat)) e =>
      match home l e with
      | none => (acc.1 ++ [⟨l, e, false, 0, []⟩], acc.2)
      | some p =>
        let n := ((acc.2.find? fun x => x.1 = p).map Prod.snd).getD 0
        (acc.1 ++ [⟨l, e, false, 0, [(p, n)]⟩], (p, n + 1) :: acc.2.filter fun x => x.1 ≠ p)) ([], [])).1).flatten
  ⟨1, entries, []⟩

/-- The anti-rollback counter for manifests is raised (R457). -/
def raiseManifest (v : Nat) (s : State) : State :=
  { s with flash := { s.flash with counters := { s.flash.counters with manifest := max s.flash.counters.manifest v } } }

/-- The pointer table of the initial epoch (R258). -/
def firstEpochTable (s : State) (m : Model) : List Pointer :=
  m.placed.map fun p => ⟨p.tensor, p.base, regionDigest s p.base p.bytes⟩

/-- The commit of MODEL_ACTIVATE in phase 3 (R251, R281, R380). -/
def activateCommit (ans : Answer) (modelId kCand kvPagesets sid k : Nat) (s : State) : State :=
  match s.model modelId with
  | none => ans stConflict 0x30 [] s
  | some m =>
    if m.state ≠ 2 then ans stConflict (modelCode s modelId) [] s
    else
      let size := setBytes m.manifest.layers
      let n := if kvPagesets = 0 then largestPool s m.manifest else kvPagesets
      let s := dropRegions (fun o => o = .reserved sid k) (match reservedRegion s sid k with
        | some g => takeRegion 0 g.base g.bytes (.kvPool modelId) s
        | none => match roomFor s 0 none (n * size) with
          | some b => takeRegion 0 b (n * size) (.kvPool modelId) s
          | none => s)
      match s.mem.regions.find? fun g => g.owner = .kvPool modelId with
      | none => ans stNoResource 0 [] s
      | some g =>
        let e := m.manifest.epochId
        let s := setModel modelId (fun m => { m with
          state := 3
          epochs := [⟨e, false, firstEpochTable s m⟩]
          follow := e
          usedEpochs := [e]
          kCand := if kCand = 0 then 1024 else kCand
          pageSets := n
          kvBase := g.base
          usedSets := []
          tables := [firstTable m.manifest] }) s
        ans stOk 0 (leBytes 8 s.now ++ leBytes 4 n) (raiseManifest m.manifest.secVersion s)

/-- MODEL_ACTIVATE (R249, R251): a model that several packages hold is activated only inside a sorus. Log 68: DEDUCED. -/
def execModelActivate (h : Hdr) (modelId kCand kvPagesets : Nat) (s : State) : Host.Outcome State Fault Refusal :=
  hosted (.modelActivate h modelId kCand kvPagesets) h ⟨0x0104, roleModels, 0⟩
    (fun _ _ => badIf ((kCand ≠ 0 && (decide (kCand < 16) || decide (4096 < kCand))) || decide (2147483647 < kvPagesets)))
    (fun _ s =>
      match s.model modelId with
      | none => reply h 0x0104 stConflict 0x30 [] s
      | some m =>
        if m.state = 4 then reply h 0x0104 m.failStatus 0 (failureList m.shards) s
        else if 1 < m.manifest.holders.length then reply h 0x0104 stTxnAborted 0 [] s
        else ownSorus (.modelActivate h modelId kCand kvPagesets) h 0x0104 (activatePrep modelId kvPagesets) s) s

end Sys2Proof.Machine
end

