-- ==== Sys2Proof/Machine/Epochs.lean ====
section
/-! DEFINITION. Epochs (R258 to R262), adapters (R263 to R265), variants (R207), resident digests and scrubbing (R254 to
R257). -/
namespace Sys2Proof.Machine

/-! ### Epochs -/

/-- Whether a step or a request is pinned to an epoch (R259, R261). Log 70: DESIGN CHOICE. -/
def epochPinned (s : State) (modelId e : Nat) : Bool :=
  (s.jobs.cmds.any fun c => c.launch.modelId = modelId && !c.committed && (c.epoch = some e || c.launch.namedEpoch = some e)) ||
    s.serve.reqs.any fun r => r.p.modelId = modelId && !finalState r.state && r.pin = some e

/-- Whether an epoch is live (R259). -/
def epochLive (s : State) (m : Model) (e : Epoch) : Bool := e.id = m.follow || e.held || epochPinned s m.id e.id

/-- Whether a region is still named by a model: by a pointer table, a placement or a reload. -/
def regionNamed (m : Model) (g : Region) : Bool :=
  let in_ (a : Nat) : Bool := decide (g.base ≤ a) && decide (a < g.base + g.bytes)
  (m.epochs.any fun e => e.table.any fun p => in_ p.addr) || (m.placed.any fun p => in_ p.base || p.fresh.any in_) ||
    m.origins.any fun p => p.fresh.any in_

/-- Regions of a model's tensors that nothing names are freed (R258), and a manifest region that a later epoch has replaced is
remembered only while a table names it. -/
def sweepRegions (modelId : Nat) (s : State) : State :=
  match s.model modelId with
  | none => s
  | some m =>
    let s : State := { s with mem := { s.mem with regions := s.mem.regions.filter fun g => match g.owner with
      | .tensor x _ => x ≠ modelId || regionNamed m g || s.mem.limMoves.any fun l => l.new = g.base
      | _ => true } }
    let named (p : PlacedTensor) : Bool := m.epochs.any fun e => e.table.any fun q => q.addr = p.base
    setModel modelId (fun m => { m with origins := m.origins.filter named }) s

/-- Epochs of a model that are no longer live are freed with their regions (R258, R262). -/
def sweepEpochs (modelId : Nat) (s : State) : State :=
  match s.model modelId with
  | none => s
  | some m =>
    if m.epochs.all (epochLive s m) then s
    else sweepRegions modelId (setModel modelId (fun m => { m with epochs := m.epochs.filter (epochLive s m) }) s)

/-- EPOCH_FREE (R262): after phase 9 of a beat at which the epoch is no longer live. -/
def execEpochFree (modelId epoch : Nat) (s : State) : Host.Outcome State Fault Refusal :=
  match (s.model modelId).bind fun m => (m.epochs.find? fun e => e.id = epoch).map fun e => (m, e) with
  | none => .next s
  | some (m, e) =>
    if epochLive s m e then .next s
    else .next (sweepRegions modelId (setModel modelId (fun m => { m with epochs := m.epochs.filter fun x => x.id ≠ epoch }) s))

/-- The rows of a new pointer table, as many as the package holds tensors (R258); none when a reserved byte is set. Log 69: DESIGN CHOICE. -/
def parsePointers : Nat → List Byte → Option (List Pointer)
  | 0, _ => some []
  | n + 1, bs =>
    if zeroAt bs 4 4 then (parsePointers n (bs.drop 64)).map (⟨leAt bs 0 4, leAt bs 8 8, (bs.drop 16).take 48⟩ :: ·) else none

/-- The table that EPOCH_PUBLISH names: it covers exactly the tensors the package holds (R260). -/
def newTable (s : State) (m : Model) (table : Nat) : Option (List Pointer) :=
  match s.handle table with
  | none => none
  | some h =>
    let held := (m.manifest.heldBy s.boot.pkg).map fun t => t.id
    if h.bytes < 64 * held.length then none
    else
      match parsePointers held.length (s.mem.read h.base (64 * held.length)) with
      | none => none
      | some ps =>
        let ids := ps.map fun p => p.tensor
        if ids.Nodup && held.all ids.contains then some ps else none

/-- Bytes of a tensor's region by its id. -/
def tensorBytes (m : Model) (tensor : Nat) : Nat :=
  ((m.manifest.tensors.find? fun t => t.id = tensor).map Tensor.regionBytes).getD 0

/-- Rows of a table that point at a region no live epoch of the model names for that tensor (R258, R260). Log 69: DESIGN CHOICE. -/
def newRows (m : Model) (ps : List Pointer) : List Pointer :=
  ps.filter fun p => !(m.epochs.any fun e => e.table.any fun q => q.tensor = p.tensor && q.addr = p.addr)

/-- The digests of the new regions (R260): busy while one is not computed, a mismatch when one differs. -/
def digestRefusal (s : State) (m : Model) (ps : List Pointer) : Option (Nat × Nat) :=
  let known (p : Pointer) : Option (List Byte) :=
    (s.models.digests.find? fun d => d.1 = p.addr && d.2.1 = tensorBytes m p.tensor).map fun d => d.2.2
  let rows := newRows m ps
  let differs (p : Pointer) : Bool := match known p with
    | some d => d ≠ p.rdigest
    | none => false
  if rows.any differs then some (stDigest, 0)
  else if rows.any (fun p => (known p).isNone) then some (stBusy, 0)
  else none

/-- The follow epoch of a model, its live epochs with their holds, and the ids it has used, as they stand after the publishes and
retires that come before a command in its sorus (R259 to R262). -/
structure Track where
  follow : Nat
  live : List (Nat × Bool)
  used : List Nat
  deriving DecidableEq, Repr

/-- The track of a model now. -/
def trackOf (s : State) (m : Model) : Track := ⟨m.follow, (m.epochs.filter (epochLive s m)).map fun e => (e.id, e.held), m.usedEpochs⟩

/-- A track after one more staged command. -/
def Track.after (s : State) (modelId : Nat) (t : Track) (i : Instr) : Track :=
  let kept (follow : Nat) (xs : List (Nat × Bool)) : List (Nat × Bool) :=
    xs.filter fun x => x.1 = follow || x.2 || epochPinned s modelId x.1
  match i with
  | .epochPublish h m e _ =>
    if m = modelId then
      ⟨e, kept e (updBy (fun x => x.1 = t.follow) (fun x => (x.1, x.2 || tbit h.cflags 0)) t.live ++ [(e, false)]), t.used ++ [e]⟩
    else t
  | .epochRetire _ m e =>
    if m = modelId then { t with live := kept t.follow (updBy (fun x => x.1 = e) (fun x => (x.1, false)) t.live) } else t
  | _ => t

/-- The track of a model that a command of a sorus meets. -/
def trackBefore (s : State) (m : Model) (sid k : Nat) : Track :=
  ((((s.sorus sid).map fun x => x.staged).getD []).take k).foldl (fun t i => t.after s m.id i) (trackOf s m)

/-- The preconditions of EPOCH_PUBLISH (R260). Log 69: DESIGN CHOICE. -/
def publishPrep (modelId epoch table : Nat) : Prep := fun sid k s => (s,
  match s.model modelId with
  | none => some (stConflict, 0x30)
  | some m =>
    let t := trackBefore s m sid k
    if m.state ≠ 3 then some (stConflict, modelCode s modelId)
    else if epoch = 0 || decide (0xFFFFFFFE < epoch) || t.used.any (fun e => decide (epoch ≤ e)) then some (stBadParam, 0)
    else
      match newTable s m table with
      | none => some (stBadParam, 0)
      | some ps =>
        match digestRefusal s m ps with
        | some r => some r
        | none =>
          if 8 ≤ t.live.length + 1 then some (stNoResource, 0)
          else if decide (1 < m.manifest.holders.length) && !(m.manifest.holders.all (sorusMembers s sid).contains) then
            some (stTxnAborted, 0)
          else none)

/-- The tier of a local address. -/
def tierOf (a : Nat) : Nat := if a < hbmWindow then 0 else 1

/-- A learned region passes from the allocation that holds it to the model: it is freed with the last table that names it
(R258). Log 69: DESIGN CHOICE. -/
def adoptRegion (modelId : Nat) (p : Pointer) (s : State) : State :=
  let adopt (g : Region) : Region :=
    match g.owner with
    | .handle _ =>
      if decide (g.base ≤ p.addr) && decide (p.addr < g.base + g.bytes) then
        { g with owner := .tensor modelId p.tensor, freeAt := none } else g
    | _ => g
  { s with mem := { s.mem with regions := s.mem.regions.map adopt } }

/-- The commit of EPOCH_PUBLISH in phase 3 (R233, R261). Log 69: DESIGN CHOICE. -/
def publishCommit (ans : Answer) (hold : Bool) (modelId epoch table : Nat) (s : State) : State :=
  match s.model modelId with
  | none => ans stConflict 0x30 [] s
  | some m =>
    if m.state ≠ 3 then ans stConflict (modelCode s modelId) [] s
    else if m.usedEpochs.any (fun e => decide (epoch ≤ e)) then ans stBadParam 0 [] s
    else
      match newTable s m table with
      | none => ans stBadParam 0 [] s
      | some ps =>
        let rows := newRows m ps
        let s := rows.foldl (fun s p => adoptRegion modelId p s) s
        let place (t : PlacedTensor) : PlacedTensor := match ps.find? fun p => p.tensor = t.tensor with
          | none => t
          | some p => if p.addr = t.base then t else { t with
            base := p.addr, tier := tierOf p.addr, learned := !(m.origins.any fun q => q.base = p.addr), fresh := none }
        let replaced := m.placed.filter fun t => !t.learned && (place t).base ≠ t.base
        ans stOk 0 [] (setModel modelId (fun m => { m with
          origins := (m.origins ++ replaced).filter fun q => !(ps.any fun p => p.addr = q.base)
          epochs := updBy (fun e => e.id = m.follow) (fun e => { e with held := e.held || hold }) m.epochs ++ [⟨epoch, false, ps⟩]
          follow := epoch
          usedEpochs := m.usedEpochs ++ [epoch]
          placed := m.placed.map place }) s)

/-- Whether a handle may be named by a principal (R359). -/
def handleDenied (s : State) (principal id : Nat) : Bool :=
  match s.handle id with
  | none => false
  | some h => ((s.ctx h.ctx).map fun c => c.principal) ≠ some principal

/-- EPOCH_PUBLISH (R260, R261): outside an explicit sorus it runs as one of its own. -/
def execEpochPublish (h : Hdr) (modelId epoch table : Nat) (s : State) : Host.Outcome State Fault Refusal :=
  hosted (.epochPublish h modelId epoch table) h ⟨0x0105, roleModels, featLearn⟩
    (fun e s => if (s.handle table).isNone then some (stBadParam, 0)
      else if handleDenied s e.principal table then some (stDenied, 0) else none)
    (fun _ s => ownSorus (.epochPublish h modelId epoch table) h 0x0105 (publishPrep modelId epoch table) s) s

/-- The refusals of EPOCH_RETIRE (R262). -/
def retireRefusal (s : State) (modelId epoch : Nat) : Option (Nat × Nat) :=
  match s.model modelId with
  | none => some (stConflict, 0x30)
  | some m =>
    if m.state ≠ 3 then some (stConflict, modelCode s modelId)
    else if !m.usedEpochs.contains epoch then some (stBadParam, 0)
    else if m.follow = epoch then some (stConflict, 0x56)
    else
      match m.epochs.find? fun e => e.id = epoch with
      | none => some (stConflict, 0x54)
      | some e => if e.held then none else if epochLive s m e then some (stConflict, 0x55) else some (stConflict, 0x54)

/-- The check of EPOCH_RETIRE at prepare: a publish staged before it will have superseded the follow epoch (R262). -/
def retirePrep (modelId epoch : Nat) : Prep := fun sid k s =>
  let earlier := (((s.sorus sid).map fun x => x.staged).getD []).take k
  let follows := earlier.filterMap fun i => match i with
    | .epochPublish _ m e _ => if m = modelId then some e else none
    | _ => none
  let bad := match retireRefusal s modelId epoch with
    | none => none
    | some r =>
      if follows.isEmpty then some r
      else if follows.getLast? = some epoch then some (stConflict, 0x56)
      else if follows.contains epoch || ((s.model modelId).map fun m => m.follow) = some epoch then none
      else some r
  (s, bad)

/-- EPOCH_RETIRE releases the hold (R262). -/
def retireCommit (ans : Answer) (modelId epoch : Nat) (s : State) : State :=
  match retireRefusal s modelId epoch with
  | some (st, d) => ans st d [] s
  | none => ans stOk 0 [] (setModel modelId (fun m => { m with
      epochs := updBy (fun e => e.id = epoch) (fun e => { e with held := false }) m.epochs }) s)

/-- EPOCH_RETIRE (R262). -/
def execEpochRetire (h : Hdr) (modelId epoch : Nat) (s : State) : Host.Outcome State Fault Refusal :=
  hosted (.epochRetire h modelId epoch) h ⟨0x0106, roleModels, featLearn⟩ noRanges
    (fun _ s => retireCommit (answerNow h 0x0106) modelId epoch s) s

/-- DIGEST_COMPLETE (R254, R260): the resident digest of a newly written region. -/
def execDigestComplete (addr bytes : Nat) (s : State) : Host.Outcome State Fault Refusal :=
  .next { s with models := { s.models with
    digests := (addr, bytes, regionDigest s addr bytes) :: s.models.digests.filter fun d => d.1 ≠ addr } }

/-! ### Adapters -/

/-- Whether a request uses a version of an adapter. -/
def usesVersion (modelId slot version : Nat) (r : Req) : Bool :=
  r.p.modelId = modelId && !finalState r.state && r.adapters.contains (slot, version)

/-- Versions that are not current and that no request uses are freed (R232, R264, R265). -/
def sweepAdapters (s : State) : State :=
  let gone := (s.models.models.map fun m => (m.adapters.map fun a =>
    (a.versions.filter fun v => v.live && !v.current && !(s.serve.reqs.any (usesVersion m.id a.slot v.version))).map
      fun v => (m.id, a.slot, v.version)).flatten).flatten
  gone.foldl (fun s x => setSlot x.1 x.2.1 (fun a => { a with versions := a.versions.filter fun v => v.version ≠ x.2.2 })
    (dropRegions (ofVersion x.1 x.2.1 x.2.2) s)) s

/-- ADAPTER_LOAD (R263). -/
def execAdapterLoad (h : Hdr) (modelId slot : Nat) (w : WinRef) (shardTimeout : Nat) (sigOk : Bool) (s : State) :
    Host.Outcome State Fault Refusal :=
  hosted (.adapterLoad h modelId slot w shardTimeout sigOk) h ⟨0x0107, roleModels, featRoce⟩
    (fun _ _ => badIf (decide (63 < slot) || decide (3600 < shardTimeout)))
    (fun e s =>
      if modelCode s modelId ≠ 0x33 then reply h 0x0107 stConflict (modelCode s modelId) [] s
      else if (((s.model modelId).bind fun m => m.slotOf slot).bind fun a => a.staged).isSome then reply h 0x0107 stConflict 0x52 [] s
      else
        match windowBytes s e.principal w with
        | none => reply h 0x0107 stBadParam 0 [] s
        | some bs =>
          match readManifest s sigOk bs with
          | .refused st => reply h 0x0107 st 0 [] s
          | .ok m =>
            if m.kind ≠ 1 || m.modelId ≠ modelId || m.slot ≠ slot then reply h 0x0107 stBadParam 0 [] s
            else if placeWaits s m then reply h 0x0107 stBusy 0 [] s
            else placeManifest h m (shardSeconds shardTimeout) e.principal s) s

/-- A staged version that is verified (R263). -/
def verifiedStaged (s : State) (modelId slot : Nat) : Option AdapterVer :=
  (((s.model modelId).bind fun m => m.slotOf slot).bind fun a => a.staged).filter fun v => v.shards.all fun x => x.state = 1

/-- A staged version becomes the live one of its slot (R263, R264). -/
def makeLive (modelId slot : Nat) (v : AdapterVer) (s : State) : State :=
  raiseManifest v.manifest.secVersion (setSlot modelId slot (fun a => { a with
    closed := false
    versions := a.versions.map fun w => { w with live := w.live || w.version = v.version, current := w.version = v.version } }) s)

/-- The staged version of a slot without a live version becomes live once it is verified (R263). -/
def enliven (modelId slot : Nat) (s : State) : State :=
  match verifiedStaged s modelId slot with
  | none => s
  | some v =>
    if ((s.model modelId).bind fun m => m.slotOf slot).any (fun a => a.versions.any fun w => w.live) then s
    else makeLive modelId slot v s

/-- ADAPTER_VERSION_LIVE (R263). -/
def execAdapterVersionLive (modelId slot : Nat) (s : State) : Host.Outcome State Fault Refusal := .next (enliven modelId slot s)

/-- Every slot with a verified first version takes it at this beat (R263). -/
def enlivenAll (s : State) : State :=
  (s.models.models.map fun m => m.adapters.map fun a => (m.id, a.slot)).flatten.foldl (fun s x => enliven x.1 x.2 s) s

/-- Requests on versions of a slot other than one end with ST_RETIRED (R213, R214, R264, R265). -/
def retireRequests (modelId slot : Nat) (keep : Option Nat) (s : State) : State :=
  (s.serve.reqs.filter fun r => r.p.modelId = modelId && !finalState r.state &&
    r.adapters.any fun a => a.1 = slot && some a.2 ≠ keep).foldl (fun s r => endRequest r.id 0x11 stRetired s) s

/-- The preconditions of ADAPTER_REPLACE (R263, R264). Log 71: DESIGN CHOICE. -/
def replaceRefusal (s : State) (modelId slot : Nat) : Option (Nat × Nat) :=
  if modelCode s modelId ≠ 0x33 then some (stConflict, modelCode s modelId)
  else if (verifiedStaged s modelId slot).isNone then some (stConflict, 0x51)
  else if ((s.model modelId).bind fun m => m.slotOf slot).any (fun a => decide (4 ≤ (a.versions.filter fun v => v.live).length)) then
    some (stNoResource, 0)
  else none

/-- The commit of ADAPTER_REPLACE (R264). -/
def replaceCommit (ans : Answer) (force : Bool) (modelId slot : Nat) (s : State) : State :=
  match replaceRefusal s modelId slot, verifiedStaged s modelId slot with
  | some (st, d), _ => ans st d [] s
  | none, none => ans stConflict 0x51 [] s
  | none, some v =>
    let s := makeLive modelId slot v s
    let s := if force then retireRequests modelId slot (some v.version) s else s
    ans stOk 0 (leBytes 2 v.version ++ leBytes 6 0 ++ leBytes 8 s.now) (sweepAdapters s)

/-- ADAPTER_REPLACE (R264): outside an explicit sorus it runs as one of its own. -/
def execAdapterReplace (h : Hdr) (modelId slot : Nat) (s : State) : Host.Outcome State Fault Refusal :=
  hosted (.adapterReplace h modelId slot) h ⟨0x0108, roleModels, 0⟩
    (fun _ _ => badIf (decide (63 < slot)))
    (fun _ s => ownSorus (.adapterReplace h modelId slot) h 0x0108 (plainPrep fun s => replaceRefusal s modelId slot) s) s

/-- The preconditions of ADAPTER_UNLOAD (R265): the slot has a live version. Log 71: DESIGN CHOICE. -/
def unloadRefusal (s : State) (modelId slot : Nat) : Option (Nat × Nat) :=
  if modelCode s modelId ≠ 0x33 then some (stConflict, modelCode s modelId)
  else if ((s.model modelId).bind fun m => m.slotOf slot).any (fun a => !a.closed && a.versions.any fun v => v.current) then none
  else some (stConflict, 0x51)

/-- The commit of ADAPTER_UNLOAD (R265): the slot closes, a staged version goes with it. -/
def unloadCommit (ans : Answer) (force : Bool) (modelId slot : Nat) (s : State) : State :=
  match unloadRefusal s modelId slot with
  | some (st, d) => ans st d [] s
  | none =>
    let s := match ((s.model modelId).bind fun m => m.slotOf slot).bind fun a => a.staged with
      | some v => dropVersion modelId slot v.version s
      | none => s
    let s := setSlot modelId slot (fun a => { a with
      closed := true
      versions := a.versions.map fun v => { v with current := false } }) s
    let s := if force then retireRequests modelId slot none s else s
    ans stOk 0 (leBytes 8 0 ++ leBytes 8 s.now) (sweepAdapters s)

/-- ADAPTER_UNLOAD (R265). -/
def execAdapterUnload (h : Hdr) (modelId slot : Nat) (s : State) : Host.Outcome State Fault Refusal :=
  hosted (.adapterUnload h modelId slot) h ⟨0x0109, roleModels, 0⟩
    (fun _ _ => badIf (decide (63 < slot)))
    (fun _ s => ownSorus (.adapterUnload h modelId slot) h 0x0109 (plainPrep fun s => unloadRefusal s modelId slot) s) s

/-! ### Variants -/

/-- The private experts that VARIANT_DEFINE lists: layer and expert, 4 bytes each (R364). -/
def variantEntries (bs : List Byte) : List (Nat × Nat) := (chunks 4 bs).map fun e => (leAt e 0 2, leAt e 2 2)

/-- Whether a variant's private experts are allowed (R207): of routed layers, of no other variant, and every variant and the base model
still see at least TOPK experts in every routed layer (the rule names the variant that is defined; log 125). Log 71: DESIGN CHOICE. -/
def variantOk (m : Model) (variant : Nat) (es : List (Nat × Nat)) : Bool :=
  let others := m.variants.filter fun v => v.id ≠ variant
  let taken := (others.map fun v => v.entries).flatten
  let all := (variant, es) :: others.map fun v => (v.id, v.entries)
  let seen (u : Nat) (i experts : Nat) : Nat :=
    experts - ((all.filter fun v => v.1 ≠ u).map fun v => v.2.filter fun e => e.1 = i).flatten.eraseDups.length
  (es.all fun e => match m.manifest.layers[e.1]? with
    | some l => decide (e.2 < l.experts) && !taken.contains e
    | none => false) &&
  m.manifest.layers.zipIdx.all fun (l, i) => l.experts = 0 || ((0, []) :: all).all fun v => decide (l.topk ≤ seen v.1 i l.experts)

/-- The mask rows of a variant (R207, R188): for each routed layer +0 at an expert index that it sees and −∞ at every other. -/
def maskRows (m : Model) (vs : List Variant) (variant : Nat) : List (Nat × List Word) :=
  let hidden := ((vs.filter fun v => v.id ≠ variant).map fun v => v.entries).flatten
  m.manifest.layers.zipIdx.filterMap fun (l, i) =>
    if l.experts = 0 then none
    else some (i, (List.range l.experts).map fun e => if hidden.contains (i, e) then 0xFF800000#32 else 0#32)

/-- The refusals of VARIANT_DEFINE (R207, R364). Logs 71, 125: DESIGN CHOICE. -/
def variantRefusal (s : State) (principal : Nat) (delete : Bool) (p : VariantP) : Option (Nat × Nat) :=
  match s.model p.modelId with
  | none => some (stConflict, 0x30)
  | some m =>
    if m.state = 4 then some (stConflict, 0x34)
    else if s.serve.reqs.any (fun r => r.p.modelId = p.modelId && r.p.variant = p.variant && !finalState r.state) then
      some (stConflict, 0x50)
    else if delete then badIf (!(m.variants.any fun v => v.id = p.variant))
    else
      match windowBytes s principal ⟨p.window, p.offset, 4 * p.entries⟩ with
      | none => if p.entries = 0 then badIf (!variantOk m p.variant []) else some (stBadParam, 0)
      | some bs => badIf (!variantOk m p.variant (variantEntries bs))

/-- The instance table with the private experts of a variant marked (R193, R207), as a new version. -/
def markPrivate (variant : Nat) (es : List (Nat × Nat)) (t : InstTable) : InstTable :=
  ⟨t.version + 1, t.entries.map fun e =>
    if es.contains (e.layer, e.expert) then { e with priv := true, variant := variant }
    else if e.priv && e.variant = variant then { e with priv := false, variant := 0 } else e, t.factors⟩

/-- Versions of an instance table that a command is still pinned to, and the latest (R193, R205). -/
def keepTables (s : State) (m : Model) (ts : List InstTable) : List InstTable :=
  let pinned (t : InstTable) : Bool := s.jobs.cmds.any fun c => c.launch.modelId = m.id && c.instVersion = t.version && !c.committed
  ts.zipIdx.filterMap fun (t, i) => if i + 1 = ts.length || pinned t then some t else none

/-- The tables of a model with a new version made from the latest (R193, R205). -/
def nextTables (s : State) (m : Model) (f : InstTable → InstTable) : List InstTable :=
  match m.tables.getLast? with
  | some t => keepTables s m (m.tables ++ [f t])
  | none => []

/-- The effect of VARIANT_DEFINE (R207). -/
def variantCommit (ans : Answer) (principal : Nat) (delete : Bool) (p : VariantP) (s : State) : State :=
  match variantRefusal s principal delete p with
  | some (st, d) => ans st d [] s
  | none =>
    let es := if delete then [] else
      ((windowBytes s principal ⟨p.window, p.offset, 4 * p.entries⟩).map variantEntries).getD []
    ans stOk 0 [] (setModel p.modelId (fun m =>
      let rest := m.variants.filter fun v => v.id ≠ p.variant
      let vs := if delete then rest else rest ++ [⟨p.variant, p.slots, es, []⟩]
      { m with
        variants := vs.map fun v => { v with masks := maskRows m vs v.id }
        tables := nextTables s m (markPrivate p.variant es) }) s)

/-- VARIANT_DEFINE (R207, R364). -/
def execVariantDefine (h : Hdr) (p : VariantP) (s : State) : Host.Outcome State Fault Refusal :=
  hosted (.variantDefine h p) h ⟨0x010A, roleModels, if tbit h.cflags 0 then 0 else featRoce⟩
    (fun _ _ => badIf (p.variant = 0 || decide (65535 < p.variant)))
    (fun e s => variantCommit (answerNow h 0x010A) e.principal (tbit h.cflags 0) p s) s

/-! ### Scrubbing (R255 to R257) -/

/-- The placements of a model's manifest regions: those in use, and those that only an earlier epoch names (R256, R258). -/
def Model.shardRegions (m : Model) : List PlacedTensor := (m.placed.filter fun p => !p.learned) ++ m.origins

/-- A suspect manifest region of a model is reloaded under the attempt rules into a fresh region, where there is one (R248,
R256). Log 72: DESIGN CHOICE. -/
def beginReload (modelId addr : Nat) (s : State) : State :=
  match (s.model modelId).bind fun m => (m.shardRegions.find? fun p => p.base = addr && p.fresh.isNone).map fun p => (m, p) with
  | none => s
  | some (m, p) =>
    match roomFor s p.tier none p.bytes with
    | none => s
    | some b =>
      let mine (i : Nat) : Bool := ((m.manifest.shards[i]?).map fun x => x.tensor) = some p.tensor
      let mark := updBy (fun q : PlacedTensor => q.base = addr) fun q => { q with fresh := some b }
      setModel modelId (fun m => { m with
        placed := mark m.placed
        origins := mark m.origins
        shards := updBy (fun x => mine x.index) (fun x => ⟨x.index, 0, 1, 0, m.source, s.beat.elapsed⟩) m.shards })
        (takeRegion p.tier b p.bytes (.tensor modelId p.tensor) s)

/-- A suspect region of an adapter version is reloaded likewise. -/
def beginAdapterReload (modelId slot version addr : Nat) (s : State) : State :=
  match ((s.model modelId).bind fun m => m.slotOf slot).bind fun a => a.versions.find? fun v => v.version = version with
  | none => s
  | some v =>
    match v.placed.find? fun p => p.base = addr && p.fresh.isNone with
    | none => s
    | some p =>
      match roomFor s p.tier none p.bytes with
      | none => s
      | some b =>
        let mine (i : Nat) : Bool := ((v.manifest.shards[i]?).map fun x => x.tensor) = some p.tensor
        setVersion modelId slot version (fun v => { v with
          placed := updBy (fun q => q.base = addr) (fun q => { q with fresh := some b }) v.placed
          shards := updBy (fun x => mine x.index) (fun x => ⟨x.index, 0, 1, 0, v.source, s.beat.elapsed⟩) v.shards })
          (takeRegion p.tier b p.bytes (.adapter modelId slot version p.tensor) s)

/-- Reloads of every suspect region that has none under way (R256). Log 72: DESIGN CHOICE. -/
def beginReloads (s : State) : State :=
  s.models.models.foldl (fun s m =>
    let s := m.suspects.foldl (fun s a => beginReload m.id a s) s
    (m.adapters.map fun a => (a.versions.map fun v => m.suspects.map fun x => (a.slot, v.version, x)).flatten).flatten.foldl
      (fun s x => beginAdapterReload m.id x.1 x.2.1 x.2.2 s) s) s

/-- Whether a model names a region by its first address. -/
def namesRegion (m : Model) (addr : Nat) : Bool :=
  (m.placed.any fun p => p.base = addr) || (m.epochs.any fun e => e.table.any fun p => p.addr = addr) ||
    m.adapters.any fun a => a.versions.any fun v => v.placed.any fun p => p.base = addr

/-- The tensor that a model's region holds. -/
def regionTensor (m : Model) (addr : Nat) : Nat :=
  match m.placed.find? fun p => p.base = addr with
  | some p => p.tensor
  | none =>
    match (m.epochs.map fun e => e.table).flatten.find? fun p => p.addr = addr with
    | some p => p.tensor
    | none =>
      (((m.adapters.map fun a => (a.versions.map fun v => v.placed).flatten).flatten.find? fun p => p.base = addr).map
        fun p => p.tensor).getD 0

/-- A region that failed its second hash is marked suspect: recorded, counted, its steps held, its reload begun (R256). -/
def markSuspect (addr : Nat) (s : State) : State :=
  match s.models.models.find? fun m => namesRegion m addr with
  | none => s
  | some m =>
    if m.suspects.contains addr then s
    else
      let s := record 0x0102 4 pkgSource (leBytes 8 addr ++ leBytes 4 (regionTensor m addr) ++ leBytes 1 1) s
      let s := { s with mem := { s.mem with suspect := sat32 (s.mem.suspect + 1) } }
      beginReloads (setModel m.id (fun m => { m with suspects := m.suspects ++ [addr] }) s)

/-- SCRUB_PASS (R255, R256): a complete pass and what it found. Log 72: DESIGN CHOICE. -/
def execScrubPass (findings : List ScrubFinding) (s : State) : Host.Outcome State Fault Refusal :=
  let s := { s with mem := { s.mem with passes := wrap32 (s.mem.passes + 1), scrubNext := s.mem.scrubInterval } }
  .next (findings.foldl (fun s f =>
    if f.firstOk then s
    else if f.secondOk then { s with mem := { s.mem with cleared := sat32 (s.mem.cleared + 1) } }
    else markSuspect f.addr s) s)

/-- A model's verified fresh regions are switched in (R256). Log 72: DESIGN CHOICE. -/
def switchReload (modelId : Nat) (p : PlacedTensor) (b : Nat) (s : State) : State :=
  let s := retireRegion p.base (pinnedCmds s modelId) s
  let s := repoint modelId p.base b s
  let move := updBy (fun q : PlacedTensor => q.base = p.base) fun q => { q with base := b, fresh := none }
  setModel modelId (fun m => { m with
    suspects := m.suspects.filter fun a => a ≠ p.base
    placed := move m.placed
    origins := move m.origins }) s

/-- An adapter version's verified fresh region is switched in (R256). -/
def switchAdapterReload (modelId slot version : Nat) (p : PlacedTensor) (b : Nat) (s : State) : State :=
  let s := retireRegion p.base (pinnedCmds s modelId) s
  let s := setVersion modelId slot version (fun v => { v with
    placed := updBy (fun q => q.tensor = p.tensor) (fun q => { q with base := b, fresh := none }) v.placed }) s
  setModel modelId (fun m => { m with suspects := m.suspects.filter fun a => a ≠ p.base }) s

/-- Whether every shard of a tensor is verified. -/
def tensorVerified (m : Manifest) (xs : List ShardSt) (tensor : Nat) : Bool :=
  xs.all fun x => x.state = 1 || ((m.shards[x.index]?).map fun y => y.tensor) ≠ some tensor

/-- The KV pool of a model is taken anew with the count it had, since a warm reset frees every pool (R281, R288, log 126). -/
def retakePool (modelId : Nat) (s : State) : State :=
  match s.model modelId with
  | none => s
  | some m =>
    if s.mem.regions.any fun g => g.owner = .kvPool modelId then s
    else
      let n := m.pageSets * setBytes m.manifest.layers
      match roomFor s 0 none n with
      | some b => setModel modelId (fun m => { m with kvBase := b }) (takeRegion 0 b n (.kvPool modelId) s)
      | none => setModel modelId (fun m => { m with pageSets := 0 }) s

/-- A model whose regions have all verified after a warm reset returns to ACTIVE (R257). -/
def wakeModel (modelId : Nat) (s : State) : State :=
  match s.model modelId with
  | none => s
  | some m =>
    if m.state = 1 && !m.verifying && !m.epochs.isEmpty && m.suspects.isEmpty then
      retakePool modelId (setModel modelId (fun m => { m with state := 3 }) s)
    else s

/-- Every reload that is complete is switched in at this beat (R256), and a model that only waited for reloads wakes (R257). -/
def switchReloads (s : State) : State :=
  let s := s.models.models.foldl (fun s m =>
    let s := m.shardRegions.foldl (fun s p => match p.fresh with
      | some b => if tensorVerified m.manifest m.shards p.tensor then switchReload m.id p b s else s
      | none => s) s
    (m.adapters.map fun a => (a.versions.map fun v => v.placed.map fun p => (a.slot, v, p)).flatten).flatten.foldl
      (fun s (x : Nat × AdapterVer × PlacedTensor) => match x.2.2.fresh with
        | some b =>
          if tensorVerified x.2.1.manifest x.2.1.shards x.2.2.tensor then switchAdapterReload m.id x.1 x.2.1.version x.2.2 b s else s
        | none => s) s) s
  s.models.models.foldl (fun s m => wakeModel m.id s) s

/-- Whether a suspect region of a model was written by learning: none of its manifest regions or adapters holds it. Log 72: DESIGN CHOICE. -/
def learnedSuspect (m : Model) (addr : Nat) : Bool :=
  m.suspects.contains addr && !(m.shardRegions.any fun p => p.base = addr) &&
    !(m.adapters.any fun a => a.versions.any fun v => v.placed.any fun p => p.base = addr)

/-- An epoch is withdrawn (R256): a follow epoch leaves the model FAILED; requests pinned to it end with ST_CONTEXT_FAULT. -/
def withdrawEpoch (modelId epoch : Nat) (s : State) : State :=
  match s.model modelId with
  | none => s
  | some m =>
    let s := endRequestsOf (fun r => r.p.modelId = modelId && r.pin = some epoch) s
    let s := setModel modelId (fun m => { m with epochs := m.epochs.filter fun e => e.id ≠ epoch }) s
    let s := if m.follow = epoch then failModel modelId stDigest s else s
    let s := sweepRegions modelId s
    setModel modelId (fun m => { m with suspects := m.suspects.filter (namesRegion m) }) s

/-- Epochs of a model that name a suspect learned region (R256). -/
def spoiltEpochs (m : Model) : List Nat :=
  (m.epochs.filter fun e => e.table.any fun p => learnedSuspect m p.addr).map fun e => e.id

/-- EPOCH_WITHDRAW (R256). -/
def execEpochWithdraw (modelId epoch : Nat) (s : State) : Host.Outcome State Fault Refusal :=
  match s.model modelId with
  | none => .next s
  | some m => if (spoiltEpochs m).contains epoch then .next (withdrawEpoch modelId epoch s) else .next s

/-- Every epoch that names a suspect learned region is withdrawn in phase 3 (R256). -/
def withdrawSpoilt (s : State) : State :=
  s.models.models.foldl (fun s m => (spoiltEpochs m).foldl (fun s e => withdrawEpoch m.id e s) s) s

/-- REVERIFY_COMPLETE (R257): a model whose regions all verify returns to ACTIVE; a mismatch follows R256, and the model wakes once its
reloads are switched in. Log 78: DESIGN CHOICE. Log 126: DEDUCED. -/
def execReverifyComplete (modelId : Nat) (badRegions : List Nat) (s : State) : Host.Outcome State Fault Refusal :=
  match s.model modelId with
  | none => .next s
  | some m =>
    if !m.verifying then .next s
    else
      .next (wakeModel modelId (badRegions.foldl (fun s a => if namesRegion m a then markSuspect a s else s)
        (setModel modelId (fun m => { m with verifying := false }) s)))

/-! ### Instance tables as Limcel changes them (R190, R205, R206) -/

/-- Whether the bytes of an expert's tensors are those of its primary: the images of each shard have the resident digest of the
manifest (R205, R206, R254). -/
def replicaSound (m : Manifest) (layer expert : Nat) (tiles : List (Nat × List Byte)) : Bool :=
  let ts := m.tensors.filter fun t => t.layer = layer && t.expert = expert
  !ts.isEmpty && ts.all fun t => match tiles.find? fun x => x.1 = t.id with
    | none => false
    | some (_, bs) => bs.length = t.regionBytes && (m.shards.filter fun x => x.tensor = t.id).all fun x =>
        sha384 ((shardPlaces t x).map fun i => (bs.drop (imageBytes * i)).take imageBytes).flatten = x.rdigest

/-- An expert's instances change in a new version of a table. -/
def withInstances (layer expert : Nat) (f : List (Nat × Nat) → List (Nat × Nat)) (t : InstTable) : InstTable :=
  { t with
    version := t.version + 1
    entries := updBy (fun e => e.layer = layer && e.expert = expert) (fun e => { e with inst := f e.inst }) t.entries }

/-- The instance tables of a model take a new version (R205). -/
def commitTable (modelId : Nat) (f : InstTable → InstTable) (s : State) : State :=
  setModel modelId (fun m => { m with tables := nextTables s m f }) s

/-- A replica enters the table (R205): at this package once its tiles are in place and verified; at another, which checks its own.
An expert has at most eight instances (R193). -/
def replicaEnters (modelId layer expert pkg lslot : Nat) (tiles : List (Nat × List Byte)) (s : State) : State :=
  match s.model modelId with
  | none => s
  | some m =>
    let insts := (m.tables.getLast?.bind fun t => (t.entries.find? fun e => e.layer = layer && e.expert = expert).map
      fun e => e.inst).getD []
    let enter := commitTable modelId (withInstances layer expert fun xs => xs ++ [(pkg, lslot)])
    if m.state ≠ 3 || insts.isEmpty || decide (8 ≤ insts.length) || insts.contains (pkg, lslot) || decide (4096 ≤ lslot) then s
    else if pkg ≠ s.boot.pkg then enter s
    else if !replicaSound m.manifest layer expert tiles then s
    else
      let bytes := (tiles.map fun x => x.2).flatten
      match roomFor s 0 none bytes.length with
      | none => s
      | some b => enter (storeBytes b bytes (takeRegion 0 b bytes.length (.replica modelId layer expert lslot) s))

/-- Tables that no running step is pinned to go, and with the last that names a replica of this package its expert slot (R205). -/
def sweepReplicas (s : State) : State :=
  let s := s.models.models.foldl (fun s m => setModel m.id (fun m => { m with tables := keepTables s m m.tables }) s) s
  let named (m l e k : Nat) : Bool := ((s.model m).map fun x => x.tables).any fun ts => ts.any fun t => t.entries.any fun y =>
    y.layer = l && y.expert = e && y.inst.contains (s.boot.pkg, k)
  { s with mem := { s.mem with regions := s.mem.regions.filter fun g => match g.owner with
      | .replica m l e k => named m l e k
      | _ => true } }

/-- A replica leaves the table; the primary stays (R193, R205). -/
def replicaLeaves (modelId layer expert pkg lslot : Nat) (s : State) : State :=
  sweepReplicas (commitTable modelId (withInstances layer expert fun xs =>
    xs.take 1 ++ (xs.drop 1).filter fun x => x ≠ (pkg, lslot)) s)

/-- A layer's capacity factor changes for the steps that start later (R190). -/
def capacityChanges (modelId layer cfQ8 : Nat) (s : State) : State :=
  if cfQ8 < 256 || 2048 < cfQ8 then s
  else commitTable modelId (fun t => { t with
    version := t.version + 1
    factors := (layer, cfQ8) :: t.factors.filter fun x => x.1 ≠ layer }) s

end Sys2Proof.Machine
end

