-- ==== Sys2Proof/Machine/Serving.lean ====
section
/-! DEFINITION. Serving (chapter 08): submissions and their checks, cancel, pause, resume, page tables, the start and the
commit of serving steps, token events. -/
namespace Sys2Proof.Machine

/-! ### Parameters (R210) -/

/-- FP32 ranges of the sampling parameters: 0 or 0.01 to 100.0; above 0 to 1.0; 0 to below 1.0. -/
def temperatureOk (w : Word) : Bool := (f32 w).isZero || (fle 0x3C23D70A#32 w && fle w 0x42C80000#32)
def topPOk (w : Word) : Bool := flt 0#32 w && fle w one32
def minPOk (w : Word) : Bool := fle 0#32 w && flt w one32

/-- Flags of a request (R210). -/
def subPinned (p : SubmitP) : Bool := tbit p.flags 0
def subScore (p : SubmitP) : Bool := tbit p.flags 1
def subSpeculates (p : SubmitP) : Bool := tbit p.flags 2
def subInWindow (p : SubmitP) : Bool := tbit p.flags 3
def subSeedGiven (p : SubmitP) : Bool := tbit p.flags 4

/-- Whether a parameter lies outside the range that does not depend on the model (R210). SCORE_FROM keeps its range without SCORE too,
but for its default 1, which a prompt of one token could not meet (DEDUCED, log 57). -/
def submitBad (p : SubmitP) : Bool :=
  decide (32 ≤ p.flags) || p.promptLen = 0 || decide (8388608 < p.promptLen) || decide (1048576 < p.maxNew) ||
    (p.maxNew = 0 && !(subScore p)) || decide (8 < p.stops.length) || !temperatureOk p.temperature || !topPOk p.topP || !minPOk p.minP ||
    decide (2 < p.logpBasis) || decide (20 < p.topN) || p.scoreFrom = 0 ||
    (decide (p.promptLen ≤ p.scoreFrom) && (subScore p || p.scoreFrom ≠ 1)) ||
    decide (2 ^ 48 ≤ p.deadline) || p.pauseTtl = 0 || decide (86400 < p.pauseTtl)

/-- The prompt of a submission: inline, or read from the window when the command is taken (R345, R365). -/
def promptOf (s : State) (principal : Nat) (p : SubmitP) : Option (List Nat) :=
  if subInWindow p then
    (windowBytes s principal ⟨p.window, p.windowOffset, 4 * p.promptLen⟩).map fun bs => (chunks 4 bs).map leNat
  else if p.tokens.length = p.promptLen then some p.tokens else none

/-- Adapter slots of a variant. -/
def variantSlots (m : Model) (variant : Nat) : List Nat :=
  match m.variants.find? fun v => v.id = variant with
  | some v => (List.range 64).filter fun i => tbit v.slots i
  | none => []

/-- The current version of a slot that takes new requests (R263 to R265). Log 58: DESIGN CHOICE. -/
def currentVersion (m : Model) (slot : Nat) : Option Nat :=
  match m.slotOf slot with
  | some a => if a.closed then none else (a.versions.find? fun v => v.current).map fun v => v.version
  | none => none

/-- The refusals of a submission that depend on the package's state (R209, R210, R216, R265). Log 57: DEDUCED. Log 71: DESIGN CHOICE. -/
def submitRefusal (s : State) (p : SubmitP) : Option (Nat × Nat) :=
  match s.model p.modelId with
  | none => some (stConflict, 0x30)
  | some m =>
    if m.state ≠ 3 then some (stConflict, modelCode s p.modelId)
    else if p.variant ≠ 0 && !(m.variants.any fun v => v.id = p.variant) then some (stBadParam, 0)
    else if decide (m.kCand < p.topK) || decide (m.kCand < p.topN) || decide (slotLimit m < p.promptLen + p.maxNew) then
      some (stBadParam, 0)
    else if (variantSlots m p.variant).any fun i => (currentVersion m i).isNone then some (stConflict, 0x51)
    else if 131072 ≤ (s.serve.reqs.filter fun r => !finalState r.state).length then some (stNoResource, 0)
    else none

/-! ### Page tables (R160, R161, R227 to R229) -/

/-- Page-sets of a model that are free (R281). -/
def freeSets (m : Model) : Nat := m.pageSets - m.usedSets.length

/-- The lowest free page-set id of a model. -/
def freeSet (m : Model) : Option Nat :=
  if freeSets m = 0 then none
  else (List.range (m.usedSets.length + 1)).find? fun i => !(m.usedSets.any fun u => u.id = i)

/-- A page-set is taken for one sequence; none while no set is free (R281). -/
def takeSet (modelId : Nat) (s : State) : Option (Nat × State) :=
  match s.model modelId with
  | none => none
  | some m => (freeSet m).map fun i => (i, setModel modelId (fun m => { m with usedSets := m.usedSets ++ [⟨i, 1⟩] }) s)

/-- `n` page-sets are taken, or none. -/
def takeSets (modelId : Nat) : Nat → State → Option (List Nat × State)
  | 0, s => some ([], s)
  | n + 1, s =>
    match takeSet modelId s with
    | none => none
    | some (i, s) => (takeSets modelId n s).map fun r => (i :: r.1, r.2)

/-- Bytes of a model's page-sets (R159). -/
def setSize (s : State) (modelId : Nat) : Nat := ((s.model modelId).map fun m => setBytes m.manifest.layers).getD 0

/-- Address of an HBM page-set (R159). -/
def setAddr (s : State) (modelId id : Nat) : Nat :=
  ((s.model modelId).map fun m => m.kvBase).getD 0 + setSize s modelId * id

/-- The page-set that the next append goes to is made private by a copy (R161). -/
def unshare (rid : Nat) (s : State) : Option State :=
  match s.req rid with
  | none => none
  | some r =>
    match r.pages[r.fill / 64]? with
    | none => some s
    | some e =>
      if !e.shared then some s
      else
        match takeSet r.p.modelId s with
        | none => none
        | some (i, s) =>
          let m := r.p.modelId
          let s := storeBytes (setAddr s m i) (s.mem.read (setAddr s m e.pageSet) (setSize s m)) s
          let s := setModel m (fun m => { m with usedSets := dropSet m.usedSets e.pageSet }) s
          some (setReq rid (fun r => { r with
            pages := updAt (r.fill / 64) (fun e => { e with shared := false, pageSet := i }) r.pages }) s)

/-- The rotary position of a new table entry: it goes on from the last one (R160, R173). -/
def posBaseAt (pages : List PageEntry) (j : Nat) : Nat :=
  match pages.getLast? with
  | some e => e.posBase + 64 * (j + 1 - pages.length)
  | none => 64 * j

/-- A page table grows until it covers a number of slots. Log 60: DESIGN CHOICE. -/
def extendPages (rid slots : Nat) (s : State) : Option State :=
  match unshare rid s with
  | none => none
  | some s =>
    match s.req rid with
    | none => none
    | some r =>
      match takeSets r.p.modelId ((slots + 63) / 64 - r.pages.length) s with
      | none => none
      | some (ids, s) =>
        some (setReq rid (fun r => { r with
          pages := r.pages ++ ids.zipIdx.map fun (i, k) => ⟨posBaseAt r.pages (r.pages.length + k), 1, false, i⟩ }) s)

/-- Pages of a request in HBM that a pause moves: shared sets stay while another sequence uses them (R227). -/
def movable (s : State) (r : Req) : List PageEntry :=
  let refs (i : Nat) : Nat := (((s.model r.p.modelId).bind fun m => m.usedSets.find? fun u => u.id = i).map fun u => u.refs).getD 0
  r.pages.filter fun e => e.tier = 1 && !(e.shared && decide (1 < refs e.pageSet))

/-- The LPDDR region a paused request's pages rest in or move to. -/
def pausedRegion (s : State) (rid : Nat) : Option Region := s.mem.regions.find? fun g => g.owner = .paused rid

/-- An attempt to move a paused request's pages to LPDDR has failed (R227, R279). -/
def pauseMoveFails (s : State) : State := { s with mem := { s.mem with pauseInHbm := sat32 (s.mem.pauseInHbm + 1) } }

/-- Whether the move of a paused request's pages waits for space. -/
def pauseWaits (s : State) (rid : Nat) : Bool := s.mem.demands.any fun d => d.want = .pauseMove rid

/-- An attempt to move a paused request's pages to LPDDR begins, waits for space that is to come, or fails (R227, R279). Log 66: DESIGN CHOICE. -/
def startPauseMove (rid : Nat) (s : State) : State :=
  match s.req rid with
  | none => s
  | some r =>
    let n := (movable s r).length
    if n = 0 || (pausedRegion s rid).isSome || pauseWaits s rid then s
    else
      let bytes := n * setSize s r.p.modelId
      match demandRoom 1 none bytes s with
      | .now b s => takeRegion 1 b bytes (.paused rid) s
      | .later s => waitFor 0 0 r.principal (.pauseMove rid) s
      | .never => pauseMoveFails s

/-- A request becomes PAUSED and its pages start to move (R227). -/
def becomePaused (rid : Nat) (s : State) : State :=
  startPauseMove rid (setReq rid (fun r => { r with state := 5, pausePending := false, pausedAt := s.beat.elapsed }) s)

/-- The pages of a pause have reached LPDDR: their entries take TIER 0b10 and the place in the region, and the HBM sets are
free (R227). -/
def finishPauseMove (rid : Nat) (s : State) : State :=
  match s.req rid, pausedRegion s rid with
  | some r, some g =>
    let ms := movable s r
    if r.state ≠ 5 || r.resumeTo.isSome || ms.isEmpty then s
    else
      let m := r.p.modelId
      let size := setSize s m
      let s := ms.zipIdx.foldl (fun s (e, i) =>
        storeBytes (g.base + size * i) (s.mem.read (setAddr s m e.pageSet) size) s) s
      let ids := ms.map fun e => e.pageSet
      let s := setModel m (fun m => { m with usedSets := ids.foldl dropSet m.usedSets }) s
      setReq rid (fun r => { r with pages := r.pages.map fun e =>
        if e.tier = 1 && ids.contains e.pageSet then { e with tier := 2, shared := false, pageSet := ids.idxOf e.pageSet } else e }) s
  | _, _ => s

/-- PAUSE_MOVE_COMPLETE (R227). -/
def execPauseMoveComplete (request : Nat) (s : State) : Host.Outcome State Fault Refusal := .next (finishPauseMove request s)

/-- PAUSE_MOVE_RETRY (R227): once per second until the move succeeds or the pages are freed. -/
def execPauseMoveRetry (request : Nat) (s : State) : Host.Outcome State Fault Refusal :=
  match s.req request with
  | none => .next s
  | some r => if r.state = 5 && r.resumeTo.isNone then .next (startPauseMove request s) else .next s

/-- The pages of a resume are back in HBM; the request changes state in the next phase 4 (R229). -/
def finishResumeMove (rid : Nat) (s : State) : State :=
  match s.req rid, pausedRegion s rid with
  | some r, some g =>
    if r.resumeTo.isNone || r.resumeSets.isEmpty then s
    else
      let m := r.p.modelId
      let size := setSize s m
      let s := r.resumeSets.zipIdx.foldl (fun s (id, i) =>
        storeBytes (setAddr s m id) (s.mem.read (g.base + size * i) size) s) s
      let s := dropRegions (fun o => o = .paused rid) s
      setReq rid (fun r => { r with
        resumeSets := []
        pages := r.pages.map fun e => if e.tier = 2 then { e with tier := 1, pageSet := r.resumeSets.getD e.pageSet 0 } else e }) s
  | _, _ => s

/-- RESUME_MOVE_COMPLETE (R229). -/
def execResumeMoveComplete (request : Nat) (s : State) : Host.Outcome State Fault Refusal := .next (finishResumeMove request s)

/-! ### Actions of phase 4 (R215 to R218, R227 to R229) -/

/-- REQ_CANCEL takes effect (R218): in the beat in which the request completed it is a late cancel. -/
def cancelNow (ans : Answer) (rid : Nat) (s : State) : State :=
  match s.req rid with
  | none => ans stBadParam 0 [] s
  | some r =>
    if r.state = 0x10 && r.finalAt = s.beat.elapsed then ans stLateCancel 0 [] s
    else if finalState r.state then ans stConflict r.state [] s
    else ans stOk 0 [] (endRequest rid 0x11 stCancelled s)

/-- A request leaves the plans of steps that have not started. Log 59: DESIGN CHOICE. -/
def leavePlans (rid : Nat) (s : State) : State :=
  let leave (c : Cmd) : Cmd :=
    { c with launch := { c.launch with plan := c.launch.plan.filter fun i => i.request ≠ rid } }
  { s with jobs := { s.jobs with cmds := updBy (fun c => c.kind = .step && c.phase = .waiting) leave s.jobs.cmds } }

/-- REQ_PAUSE takes effect (R216, R227). -/
def pauseNow (ans : Answer) (rid : Nat) (s : State) : State :=
  match s.req rid with
  | none => ans stBadParam 0 [] s
  | some r =>
    if finalState r.state || r.state = 5 || r.pausePending then ans stConflict r.state [] s
    else if r.state = 1 then ans stOk 0 [] (becomePaused rid (leavePlans rid s))
    else if inStep s rid then ans stOk 1 [] (setReq rid (fun r => { r with pausePending := true }) s)
    else ans stOk 0 [] (becomePaused rid s)

/-- REQ_RESUME takes effect (R229). -/
def resumeNow (ans : Answer) (rid : Nat) (s : State) : State :=
  match s.req rid with
  | none => ans stBadParam 0 [] s
  | some r =>
    let back := if r.delivered = 0 || decide (r.fill + 1 < r.tokens.length) then 1 else 3
    let enter (st : Nat) (s : State) : State := setReq rid (fun r => { r with state := st, queuedAt := s.beat.elapsed }) s
    if r.state ≠ 5 || r.resumeTo.isSome then ans stConflict r.state [] s
    else if r.pages.isEmpty && decide (0 < r.fill + r.delivered) then
      ans stOk 1 [] (setReq rid (fun r => { r with fill := 0 }) (enter 1 s))
    else
      let away := (r.pages.filter fun e => e.tier = 2).length
      if away = 0 then ans stOk 0 [] (enter back (dropRegions (fun o => o = .paused rid) s))
      else
        match takeSets r.p.modelId away s with
        | none => ans stNoResource 0 [] s
        | some (ids, s) => ans stOk 0 [] (setReq rid (fun r => { r with resumeTo := some back, resumeSets := ids }) s)

/-- A request enters QUEUED (R209, R213, R216). Log 55: DESIGN CHOICE. -/
def submitNow (ans : Answer) (sid tag principal : Nat) (p : SubmitP) (s : State) : State :=
  match submitRefusal s p with
  | some (st, d) => ans st d [] s
  | none =>
    let (d, s) := if subSeedGiven p then (0, s) else draw s
    let p := { p with seed := if subSeedGiven p then p.seed else (Config.drawn d).toNat }
    let id := s.serve.nextReq
    let r : Req := ⟨id, principal, sid, tag, p, p.tokens, 0, 1, 0, [], false, 0, [], none, none, [], 0, 0, s.beat.elapsed, false, 0, 0,
      AcceptRec.none⟩
    let s := takeAcct principal { s with serve := { s.serve with reqs := s.serve.reqs ++ [r], nextReq := id + 1 } }
    ans stOk 0 (leBytes 4 id ++ leBytes 1 1 ++ leBytes 3 0 ++ leBytes 8 p.seed) s

/-- The principal of a session; a session that has gone owns nothing. -/
def principalOf (s : State) (sid : Nat) : Nat := ((s.session sid).map fun e => e.principal).getD 0

/-- The adapter version a request reports: that of its lowest slot. Log 58: DESIGN CHOICE. -/
def Req.version (r : Req) : Nat := ((leastBy (fun a => a.1) r.adapters).map Prod.snd).getD 0

/-- REQ_QUERY answers (R212, R216, R365). -/
def queryNow (ans : Answer) (rid : Nat) (s : State) : State :=
  match s.req rid with
  | none => ans stBadParam 0 [] s
  | some r => ans stOk 0 (leBytes 1 r.state ++ leBytes 3 0 ++ leBytes 4 r.delivered ++ leBytes 4 r.fill ++ leBytes 4 r.lastEpoch ++
      leBytes 2 r.version ++ leBytes 6 0 ++ leBytes 8 r.lastCommit) s

/-- A request action takes effect; a submission whose session has gone is dropped. Log 56: DESIGN CHOICE. -/
def act (a : Instr) (s : State) : State :=
  match a with
  | .reqCancel h r => cancelNow (answerLater h.session h.tag 0x0202) r s
  | .reqPause h r => pauseNow (answerLater h.session h.tag 0x0203) r s
  | .reqResume h r => resumeNow (answerLater h.session h.tag 0x0204) r s
  | .reqQuery h r => queryNow (answerLater h.session h.tag 0x0205) r s
  | .reqSubmit h p =>
    match s.session h.session with
    | none => s
    | some e => submitNow (answerLater h.session h.tag 0x0201) h.session h.tag e.principal p s
  | _ => s

/-- The group of an action in phase 4 and the request it names (R215); a query, which no group holds, sees what the others leave
(DESIGN CHOICE, log 56). -/
def actionGroup (a : Instr) : Nat × Nat :=
  match a with
  | .reqCancel _ r => (2, r)
  | .reqPause _ r => (3, r)
  | .reqResume _ r => (4, r)
  | .reqQuery _ r => (6, r)
  | _ => (5, 0)

/-- A request expires (R228). -/
def expire (rid : Nat) (s : State) : State := endRequest rid 0x12 stExpired s

/-- A paused request's pages are freed at the end of its PAUSE_TTL; it stays PAUSED (R228). -/
def lapse (rid : Nat) (s : State) : State :=
  match s.req rid with
  | none => s
  | some r => if r.state = 5 && r.resumeTo.isNone then freePages rid s else s

/-- Whether a request's deadline has come (R210, R228). Log 20: DESIGN CHOICE. -/
def deadlineDue (s : State) (r : Req) : Bool := r.p.deadline ≠ 0 && beatLe r.p.deadline s.now

/-- Whether a paused request's residence is over, and whether its hold limit is reached (R228). Log 20: DESIGN CHOICE. -/
def ttlDue (s : State) (r : Req) : Bool := r.state = 5 && decide (r.pausedAt + r.p.pauseTtl * 1000000 ≤ s.beat.elapsed)
def holdDue (s : State) (r : Req) : Bool :=
  r.state = 5 && r.p.deadline = 0 && decide (r.pausedAt + 86400000000 ≤ s.beat.elapsed)

/-- Expiries, lapses and hold limits of one request (R215 group 1). Log 59: DESIGN CHOICE. -/
def ripen (r : Req) (s : State) : State :=
  if finalState r.state then s
  else if deadlineDue s r then expire r.id s
  else if holdDue s r then expire r.id s
  else if ttlDue s r then lapse r.id s
  else s

/-- A resumed request whose pages are back enters its state (R229). -/
def enterResumed (r : Req) (s : State) : State :=
  match r.resumeTo with
  | some st =>
    if r.resumeSets.isEmpty && !finalState r.state then
      setReq r.id (fun r => { r with state := st, resumeTo := none, queuedAt := s.beat.elapsed }) s
    else s
  | none => s

/-- Requests whose pause waited for the commit of their last launched step become PAUSED (R227). -/
def settlePauses (s : State) : State :=
  (s.serve.reqs.filter fun r => r.pausePending && !inStep s r.id).foldl (fun s r => becomePaused r.id s) s

/-- Pages of final requests that no launched step holds any more return (R180, R217). -/
def releasePages (s : State) : State :=
  (s.serve.reqs.filter fun r => finalState r.state && !(r.pages.isEmpty && r.resumeSets.isEmpty) && !stepHolds s r.id).foldl
    (fun s r => freePages r.id s) s

/-- Phase 4 (R37, R215): the groups in order, each in ascending request id. Pauses and pages that waited for a step which
has ended without a commit are settled with the pauses. Log 56: DESIGN CHOICE. -/
def phase4 (s : State) : State :=
  let acts := s.serve.actions
  let s := { s with serve := { s.serve with actions := [] } }
  let s := (byKey (fun r => r.id) s.serve.reqs).foldl (fun s r => ripen r s) s
  let group (g : Nat) : List Instr := byKey (fun a => (actionGroup a).2) (acts.filter fun a => (actionGroup a).1 = g)
  let run (g : Nat) (s : State) : State := (group g).foldl (fun s a => act a s) s
  let s := releasePages (settlePauses (run 3 (run 2 s)))
  let s := s.serve.reqs.foldl (fun s r => enterResumed r s) s
  run 6 (run 5 (run 4 s))

/-- REQ_EXPIRE (R215): the request's DEADLINE is reached. -/
def execReqExpire (request : Nat) (s : State) : Host.Outcome State Fault Refusal :=
  match s.req request with
  | none => .next s
  | some r => if deadlineDue s r then .next (expire request s) else .next s

/-- PAUSE_TTL_EXPIRE (R228): the residence of a paused request's pages is over. -/
def execPauseTtlExpire (request : Nat) (s : State) : Host.Outcome State Fault Refusal :=
  match s.req request with
  | none => .next s
  | some r => if ttlDue s r then .next (lapse request s) else .next s

/-- PAUSED_HOLD_EXPIRE (R228): a PAUSED request without a DEADLINE, 86,400 s after its pause. -/
def execPausedHoldExpire (request : Nat) (s : State) : Host.Outcome State Fault Refusal :=
  match s.req request with
  | none => .next s
  | some r => if holdDue s r then .next (expire request s) else .next s

/-- REQUEST_FORGET (R212): a request in a final state for 60 s is forgotten. -/
def execRequestForget (request : Nat) (s : State) : Host.Outcome State Fault Refusal :=
  match s.req request with
  | none => .next s
  | some r =>
    if finalState r.state && decide (r.finalAt + 60000000 ≤ s.beat.elapsed) then
      .next { s with serve := { s.serve with reqs := s.serve.reqs.filter fun x => x.id ≠ request } }
    else .next s

/-! ### Host commands -/

/-- An action waits for phase 4; its command has been answered ST_ACCEPTED (R215, R349). Log 56: DESIGN CHOICE. -/
def postAction (cmd : Instr) (s : State) : State :=
  { s with serve := { s.serve with actions := s.serve.actions ++ [cmd] } }

/-- A command that names a request: known, and the principal's own (R212, R359). -/
def requestRanges (rid : Nat) (e : Session) (s : State) : Option (Nat × Nat) :=
  match s.req rid with
  | none => some (stBadParam, 0)
  | some r => if r.principal = e.principal then none else some (stDenied, 0)

/-- A submission with its prompt read from the window (R345, R365), empty where the window does not give it. -/
def withPrompt (s : State) (principal : Nat) (p : SubmitP) : SubmitP :=
  if subInWindow p then
    { p with tokens := (promptOf s principal p).getD [] }
  else p

/-- REQ_SUBMIT (R210, R215): the prompt is read now, the request enters QUEUED in phase 4. -/
def execReqSubmit (h : Hdr) (p : SubmitP) (s : State) : Host.Outcome State Fault Refusal :=
  let q := withPrompt s (principalOf s h.session) p
  hosted (.reqSubmit h q) h ⟨0x0201, roleServe, (if subInWindow p then featRoce else 0) + if subSpeculates p then featSpeculate else 0⟩
    (fun _ _ => badIf (submitBad p || decide (q.tokens.length ≠ p.promptLen)))
    (fun _ s => postAction (.reqSubmit h q) (accept h 0x0201 [] s)) s

/-- REQ_CANCEL (R215, R218). -/
def execReqCancel (h : Hdr) (request : Nat) (s : State) : Host.Outcome State Fault Refusal :=
  hosted (.reqCancel h request) h ⟨0x0202, roleServe, 0⟩ (requestRanges request) (fun _ s => postAction (.reqCancel h request) (accept h 0x0202 [] s)) s

/-- REQ_PAUSE (R215, R227). -/
def execReqPause (h : Hdr) (request : Nat) (s : State) : Host.Outcome State Fault Refusal :=
  hosted (.reqPause h request) h ⟨0x0203, roleServe, 0⟩ (requestRanges request) (fun _ s => postAction (.reqPause h request) (accept h 0x0203 [] s)) s

/-- REQ_RESUME (R215, R229). -/
def execReqResume (h : Hdr) (request : Nat) (s : State) : Host.Outcome State Fault Refusal :=
  hosted (.reqResume h request) h ⟨0x0204, roleServe, 0⟩ (requestRanges request) (fun _ s => postAction (.reqResume h request) (accept h 0x0204 [] s)) s

/-- REQ_QUERY (R212, R215, R365). -/
def execReqQuery (h : Hdr) (request : Nat) (s : State) : Host.Outcome State Fault Refusal :=
  hosted (.reqQuery h request) h ⟨0x0205, roleServe, 0⟩ (requestRanges request)
    (fun _ s => postAction (.reqQuery h request) (accept h 0x0205 [] s)) s

/-! ### Checks of staged request commands (R216, R378) -/

/-- The state conflict of a command that names a request. Log 59: DESIGN CHOICE. -/
def requestConflict (s : State) (rid : Nat) (legal : Req → Bool) : Option (Nat × Nat) :=
  match s.req rid with
  | none => some (stBadParam, 0)
  | some r => if legal r then none else some (stConflict, r.state)

/-- The check of REQ_CANCEL, REQ_PAUSE and REQ_RESUME at prepare. -/
def cancelRefusal (s : State) (rid : Nat) : Option (Nat × Nat) := requestConflict s rid fun r => !finalState r.state
def pauseRefusal (s : State) (rid : Nat) : Option (Nat × Nat) :=
  requestConflict s rid fun r => !finalState r.state && r.state ≠ 5 && !r.pausePending
def resumeRefusal (s : State) (rid : Nat) : Option (Nat × Nat) := requestConflict s rid fun r => r.state = 5 && r.resumeTo.isNone

/-! ### Steps -/

/-- The bucket of a waiting time (R398). -/
def waitBucket (w : Nat) : Nat := if w ≤ 1 then 0 else min 15 (Nat.log2 w)

/-- An interactive wait is counted for a principal (R398, R403). Log 59: DESIGN CHOICE. -/
def countWait (principal w : Nat) (s : State) : State :=
  setAcct principal (fun a => { a with
    hist := updAt (waitBucket w) (fun n => sat32 (n + 1)) a.hist
    wait := min (a.wait + w) (2 ^ 48 - 1) }) s

/-- The pins of a request at its first prefill step (R231, R232): the follow track's epoch, the current adapter versions. -/
def pinRequest (m : Model) (r : Req) : Req :=
  { r with
    pin := if subPinned r.p && r.pin.isNone then some m.follow else r.pin
    adapters := if r.adapters.isEmpty then
        (variantSlots m r.p.variant).filterMap fun i => (currentVersion m i).map fun v => (i, v)
      else r.adapters }

/-- A request of a step that starts in phase 9 (R180, R213, R217, R231, R232): one pinned to another epoch is dropped, its units run on. -/
def startItem (c : Cmd) (i : PlanItem) (s : State) : State :=
  match s.req i.request, s.model c.launch.modelId with
  | some r, some m =>
    if finalState r.state then s
    else if r.pin.isSome && r.pin ≠ c.epoch then
      setCtx 0 (fun x => { x with epochDrops := sat32 (x.epochDrops + 1) })
        (setCmd c.id (fun c => { c with
          dropped := c.dropped ++ [i.request]
          launch := { c.launch with plan := c.launch.plan.filter fun j => j.request ≠ i.request } }) s)
    else if c.launch.decode then (if r.state = 3 then setReq r.id (fun r => { r with state := 4 }) s else s)
    else if r.state = 1 then
      let s := if r.counted then s else countWait r.principal (s.beat.elapsed - r.queuedAt) s
      setReq r.id (fun r => { pinRequest m r with state := 2, counted := true }) s
    else s
  | _, _ => s

/-- The plan of a step that starts. -/
def startPlan (c : Cmd) (s : State) : State := c.launch.plan.foldl (fun s i => startItem c i s) s

/-- A TOKEN_EVENT (R222, R354, R365): `eflags` bit 0 LAST, 1 TAIL, 2 ACCEPTED_DRAFT, 3 SCORED. Log 55: DESIGN CHOICE. -/
def sendToken (c : Cmd) (r : Req) (slot eflags : Nat) (t : Drawn) (s : State) : State :=
  sendEvent r.session r.principal (.token r.tag (leBytes 4 r.id ++ leBytes 4 slot ++ leBytes 4 t.token ++ leBytes 4 t.logp.toNat ++
    leBytes 1 r.p.logpBasis ++ leBytes 1 eflags ++ leBytes 1 t.alts.length ++ leBytes 1 0 ++ leBytes 4 (c.epoch.getD 0) ++
    leBytes 2 r.version ++ leBytes 6 0 ++ leBytes 8 s.now ++
    (t.alts.map fun a => leBytes 4 a.token ++ leBytes 4 a.logp.toNat).flatten))
    (setReq r.id (fun r => { r with unacked := r.unacked + 1 }) s)

/-- The tokens of a step are delivered in slot order; one that ends the request is the last (R214, R222, R224). -/
def deliverTokens (c : Cmd) (limit rid : Nat) : List Drawn → State → State
  | [], s => s
  | t :: ts, s =>
    match s.req rid with
    | none => s
    | some r =>
      let last := endsRequest r limit 1 t.token
      let s := sendToken c r r.tokens.length (bit last + 2 * bit t.tail + 4 * bit t.accepted) t s
      let s := setReq rid (fun r => { r with tokens := r.tokens ++ [t.token], delivered := r.delivered + 1 }) s
      if last then endRequest rid 0x10 stOk s else deliverTokens c limit rid ts s

/-- The events of a scored prompt, one for every slot from SCORE_FROM on, each from the logits of the slot before it (R223). -/
def deliverScores (c : Cmd) (k : Nat) (row : Nat → RowOut) (r : Req) (s : State) : State :=
  (List.range (r.tokens.length - r.p.scoreFrom)).foldl (fun s i =>
    let slot := r.p.scoreFrom + i
    let t := scoreToken r k slot (row i)
    sendToken c r slot (8 + 2 * bit t.tail) t s) s

/-- The sampled rows of a step for a request: those of which its MOVE faces already hold the outcome, else the step's own, free where
it gives none (R221, log 120). -/
def sampledRows (c : Cmd) (outs : List StepOut) (k : Nat) (r : Req) (s : State) : (Nat → RowOut) × State :=
  let (d, s) := draw s
  let given := ((outs.find? fun o => o.request = r.id).map fun o => o.rows).getD []
  match r.accept.seed with
  | some d0 => (if r.accept.cmd = some c.id then rowAt [] d0 k else rowAt given d k, s)
  | none => (rowAt given d k, s)

/-- A decode step's commit for one request (R178, R224 to R226): the walk over its drafts is delivered, FILL becomes the committed slots
with the root and the accepted path, and the accept record is written. -/
def commitDecode (c : Cmd) (k limit : Nat) (i : PlanItem) (row : Nat → RowOut) (r : Req) (s : State) : State :=
  let v := verify r k limit i.drafts row
  let s := setReq r.id (fun x => { x with
    fill := r.tokens.length + v.2.length
    accept := if r.accept.cmd = some c.id then r.accept else acceptOf c.id none v }) s
  deliverTokens c limit r.id v.1 s

/-- The commit of a prompt's last chunk (R179, R213, R223): a scored request ends, any other has its first token and enters HANDOFF
unless that ends it. -/
def commitPrompt (c : Cmd) (k limit : Nat) (row : Nat → RowOut) (r : Req) (s : State) : State :=
  let s := setReq r.id (fun x => { x with fill := r.tokens.length }) s
  if subScore r.p then endRequest r.id 0x10 stOk (deliverScores c k row r s)
  else
    let s := deliverTokens c limit r.id (verify r k limit [] row).1 s
    setReq r.id (fun r => if finalState r.state then r else { r with state := 3 }) s

/-- What a committing step does to one request of its plan (R163, R179, R180, R213, R217, R223, R224). Log 59: DESIGN CHOICE. -/
def commitItem (c : Cmd) (outs : List StepOut) (i : PlanItem) (s : State) : State :=
  match s.req i.request with
  | none => s
  | some r =>
    if finalState r.state then s
    else
      let limit := ((s.model r.p.modelId).map slotLimit).getD 8388608
      let k := ((s.model r.p.modelId).map fun m => m.kCand).getD 0
      let s := setReq r.id (fun r => { r with lastEpoch := c.epoch.getD 0, lastCommit := s.now }) s
      if !c.launch.decode && !i.last then setReq r.id (fun r => { r with fill := r.fill + i.slots }) s
      else
        let (row, s) := sampledRows c outs k r s
        if c.launch.decode then commitDecode c k limit i row r s else commitPrompt c k limit row r s

/-- A serving step's commit (R147, R163, R179, R180). -/
def commitServing (c : Cmd) (outs : List StepOut) (s : State) : State :=
  settlePauses (c.launch.plan.foldl (fun s i => commitItem c outs i s) s)

/-- Slots that launched steps which have not committed will append for a request. -/
def inFlight (s : State) (r : Req) : Nat :=
  ((s.jobs.cmds.filter fun c => c.kind = .step && !c.committed).map fun c =>
    ((c.launch.plan.filter fun i => i.request = r.id).map fun i =>
      if c.launch.decode then (if subSpeculates r.p then 17 else 1) else i.slots).sum).sum

/-- Whether a request runs on a step's track (R230, R231): unpinned ones, and those pinned to the follow epoch, on the follow track,
others on the fixed track of their epoch. -/
def onTrack (m : Model) (fixedEpoch : Option Nat) (r : Req) : Bool :=
  match fixedEpoch with
  | none => r.pin.isNone || r.pin = some m.follow
  | some e => r.pin = some e

/-- Whether Limcel may put a request into a plan (R180, R213, R227, R231, R354), and the slots the plan must have pages for.
Log 60: DESIGN CHOICE. -/
def planSlots (s : State) (decode : Bool) (modelId : Nat) (fixedEpoch : Option Nat) (i : PlanItem) : Option Nat :=
  match s.req i.request, s.model modelId with
  | some r, some m =>
    let ahead := inFlight s r
    if r.p.modelId ≠ modelId || r.pausePending || r.resumeTo.isSome || decide (256 < r.unacked) || !onTrack m fixedEpoch r then none
    else if decode then
      if r.state = 3 || r.state = 4 then some (r.fill + ahead + (if subSpeculates r.p then 17 else 1)) else none
    else
      let upTo := r.fill + ahead + i.slots
      if (r.state = 1 || r.state = 2) && decide (1 ≤ i.slots) && decide (upTo ≤ r.tokens.length) && i.last = decide (upTo = r.tokens.length)
      then some upTo else none
  | _, _ => none

/-- A plan item with the drafts that its request may carry: at most 16, and none without SPECULATE or in a prefill (R224). -/
def clipDrafts (s : State) (decode : Bool) (i : PlanItem) : PlanItem :=
  { i with drafts := if decode && (s.req i.request).any (fun r => subSpeculates r.p) then i.drafts.take 16 else [] }

/-- The plan that Limcel freezes: the items that may enter it and for whose slots there are page-sets (R161, R180, R281). Log 61: DESIGN CHOICE. -/
def freezePlan (decode : Bool) (modelId : Nat) (fixedEpoch : Option Nat) : List PlanItem → State → List PlanItem × State
  | [], s => ([], s)
  | i :: is, s =>
    match (planSlots s decode modelId fixedEpoch i).bind fun n => extendPages i.request n s with
    | none => freezePlan decode modelId fixedEpoch is s
    | some t =>
      let (js, u) := freezePlan decode modelId fixedEpoch is t
      (clipDrafts s decode i :: js, u)

/-- The plan that Limcel proposes, with every request in HANDOFF that it does not name: such a request joins the first decode step
launched (R180). Log 61: DESIGN CHOICE. -/
def fullPlan (s : State) (p : StepLaunchP) : List PlanItem :=
  if p.decode then
    p.plan ++ ((s.serve.reqs.filter fun r => r.state = 3 && r.p.modelId = p.modelId && !(p.plan.any fun i => i.request = r.id)).map
      fun r => ⟨r.id, 1, false, []⟩)
  else p.plan

/-- A cached prefix is reused (R161, R173): the entries of a donor's page table that hold the same tokens become the first entries of a
request that has none yet, shared, with rotary positions of their own; the request's prefill goes on behind them. -/
def reusePrefix (request donor first count posBase : Nat) (s : State) : State :=
  match s.req request, s.req donor with
  | some r, some d =>
    let es := (d.pages.drop first).take count
    let n := 64 * count
    let same := (d.tokens.drop (64 * first)).take n = r.tokens.take n
    if request = donor || r.state ≠ 1 || !r.pages.isEmpty || r.fill ≠ 0 || r.p.modelId ≠ d.p.modelId || r.p.variant ≠ d.p.variant ||
        es.length ≠ count || (es.any fun e => e.tier ≠ 1) || decide (d.fill < 64 * first + n) || !same || decide (r.tokens.length ≤ n) ||
        decide (16777152 < posBase + n) then s
    else
      let ids := es.map fun e => e.pageSet
      let s := setModel r.p.modelId (fun m => { m with
        usedSets := updBy (fun u => ids.contains u.id) (fun u => { u with refs := u.refs + 1 }) m.usedSets }) s
      let s := setReq donor (fun d => { d with
        pages := updBy (fun e => e.tier = 1 && ids.contains e.pageSet) (fun e => { e with shared := true }) d.pages }) s
      setReq request (fun r => { r with
        fill := n
        pages := ids.zipIdx.map fun (i, k) => ⟨posBase + 64 * k, 1, true, i⟩ }) s
  | _, _ => s

end Sys2Proof.Machine
end

