-- ==== Sys2Proof/Machine/Contexts.lean ====
section
/-! DEFINITION. Programs (R132, R133), contexts and queues (R382 to R387), launches (R130, R144, R261, R366), copies (R284)
and pre-emption (R390 to R393). -/
namespace Sys2Proof.Machine

/-! ### Programs -/

/-- Whether a layer of a model index uses DROP (R154, R196). Log 122: DESIGN CHOICE. -/
def layerDrops (s : State) (index layer : Nat) : Bool :=
  match modelAt s index with
  | some m => ((m.manifest.layers[layer]?).map fun l => l.drop) = some 1
  | none => false

/-- A program by its id. -/
def State.program (s : State) (id : Nat) : Option Placed := s.jobs.programs.find? fun p => p.id = id

/-- An image is placed, or refused (R132, R133). -/
def loadProgram (h : Hdr) (principal : Nat) (bs : List Byte) (s : State) : State :=
  if leAt bs 0 4 = 0x4D535450 && leAt bs 4 1 ≠ 1 then reply h 0x0301 stVersion 0 [] s
  else
    match parseImage bs with
    | none => reply h 0x0301 stBadParam 0 [] s
    | some m =>
      if !imageOk m (layerDrops s) then reply h 0x0301 stBadParam 0 [] s
      else if 256 ≤ s.jobs.programs.length || 16777216 < (s.jobs.programs.map fun p => p.image.imageBytes).sum + m.imageBytes then
        reply h 0x0301 stNoResource 0 [] s
      else
        replyOk h 0x0301 (leBytes 4 s.jobs.nextProgram) { s with jobs := { s.jobs with
          programs := s.jobs.programs ++ [⟨s.jobs.nextProgram, principal, m⟩]
          nextProgram := s.jobs.nextProgram + 1 } }

/-- PROG_LOAD (R132, R133). -/
def execProgLoad (h : Hdr) (w : WinRef) (s : State) : Host.Outcome State Fault Refusal :=
  hosted (.progLoad h w) h ⟨0x0301, roleJobs, featRoce + featLearn⟩ noRanges
    (fun e s =>
      match windowBytes s e.principal w with
      | none => reply h 0x0301 stBadParam 0 [] s
      | some bs => loadProgram h e.principal bs s) s

/-- Whether a command of a program waits or has not retired (R133). -/
def programInUse (s : State) (id : Nat) : Bool :=
  s.jobs.cmds.any fun c => c.kind ≠ .copy && c.launch.program = id && !c.phase.over

/-- PROG_UNLOAD (R133). -/
def execProgUnload (h : Hdr) (program : Nat) (s : State) : Host.Outcome State Fault Refusal :=
  hosted (.progUnload h program) h ⟨0x0302, roleJobs, featLearn⟩
    (fun e s => match s.program program with
      | none => some (stBadParam, 0)
      | some p => if p.owner = e.principal then none else some (stDenied, 0))
    (fun _ s =>
      if programInUse s program then reply h 0x0302 stConflict 0x50 [] s
      else replyOk h 0x0302 [] { s with jobs := { s.jobs with programs := s.jobs.programs.filter fun p => p.id ≠ program } }) s

/-! ### Contexts -/

/-- A context as CTX_CREATE makes it (R382, R401). Log 92: DESIGN CHOICE. -/
def newCtx (n principal : Nat) (persist : Bool) (p : CtxP) : Ctx where
  num := n
  torn := false
  job := p.job
  persist := persist
  principal := principal
  wdog := if p.wdog = 0 then 100000 else p.wdog
  roundKey := p.roundKey
  members := p.members
  faulted := Flag.zero
  cause := 0
  faultSeq := 0
  faultSource := 0
  faultMark := 0
  lateCommits := 0
  hotSteps := 0
  epochDrops := 0
  snapWaits := 0
  slowdown := 0
  covered := 0
  claimWait := 0
  transitWait := 0
  paceWait := 0
  windowBeat := 0
  claimWaitNow := 0
  paceWaitNow := 0
  retired := []
  nextGen := 0
  blockedGens := []
  queues := []
  stalls := []

/-- The lowest free number of the contexts that hosts create (R382). -/
def freeCtx (s : State) : Option Nat := ((List.range 63).map (· + 1)).find? fun n => (s.ctx n).isNone

/-- CTX_CREATE (R382, R516). -/
def execCtxCreate (h : Hdr) (p : CtxP) (s : State) : Host.Outcome State Fault Refusal :=
  hosted (.ctxCreate h p) h ⟨0x0306, roleJobs, featLearn⟩
    (fun _ s => badIf ((p.wdog ≠ 0 && (decide (p.wdog < 1000) || decide (10000000 < p.wdog))) || !tbit p.members s.boot.pkg))
    (fun e s =>
      match freeCtx s with
      | none => reply h 0x0306 stNoResource 0 [] s
      | some n =>
        replyOk h 0x0306 (leBytes 1 n) (takeAcct e.principal { s with jobs := { s.jobs with
          freed := s.jobs.freed.filter fun x => x.num ≠ n
          ctxs := s.jobs.ctxs ++ [newCtx n e.principal (tbit h.cflags 0) p] } })) s

/-- Whether a context has a command that waits or runs (R397). -/
def ctxHasWork (s : State) (n : Nat) : Bool := s.jobs.cmds.any fun c => c.ctx = n && !c.phase.over

/-- CTX_DESTROY (R383, R397, R515). -/
def execCtxDestroy (h : Hdr) (ctx : Nat) (s : State) : Host.Outcome State Fault Refusal :=
  hosted (.ctxDestroy h ctx) h ⟨0x0307, roleJobs, featLearn⟩
    (fun e s => (ctxRefusal s e.principal ctx).filter fun r => r.2 ≠ 0x58)
    (fun _ s =>
      if ctxHasWork s ctx && !tbit h.cflags 0 then reply h 0x0307 stConflict 0x50 [] s
      else replyOk h 0x0307 [] (destroyCtx ctx s)) s

/-! ### Queues -/

/-- QUEUE_CREATE (R384). Log 92: DESIGN CHOICE. -/
def execQueueCreate (h : Hdr) (ctx cls priority : Nat) (s : State) : Host.Outcome State Fault Refusal :=
  hosted (.queueCreate h ctx cls priority) h ⟨0x0304, roleJobs, featLearn⟩
    (fun e s => match ctxRefusal s e.principal ctx with
      | some r => some r
      | none => badIf (decide (1 < cls) || decide (7 < priority)))
    (fun _ s =>
      match (s.ctx ctx).bind fun c => (List.range 16).find? fun q => (c.queue q).isNone with
      | none => reply h 0x0304 stNoResource 0 [] s
      | some q =>
        replyOk h 0x0304 (leBytes 1 q) (setCtx ctx (fun c => { c with
          queues := byKey (fun e => e.num) (c.queues ++ [⟨q, cls, priority, 0x5B, 0, 0, 0, 0, 0, 0, 0⟩]) }) s)) s

/-- The commands of a queue that have not started, in order (R385). -/
def waitingOf (s : State) (ctx q : Nat) : List Cmd :=
  s.jobs.cmds.filter fun c => c.ctx = ctx && c.queue = q && c.kind ≠ .copy && c.phase = .waiting

/-- Whether a command of a queue has started and its claims are still held (R390). -/
def queueBusy (s : State) (ctx q : Nat) : Bool :=
  s.jobs.cmds.any fun c => c.ctx = ctx && c.queue = q && c.kind ≠ .copy && (c.phase = .running || c.phase = .restarting || c.phase = .retired)

/-- A queue that a PREEMPT acted on is withdrawn from it (R391): with none left it receives ST_CANCELLED. -/
def withdrawOne (ctx q : Nat) (p : Preempt) (s : State) : State :=
  if p.ctx ≠ ctx || p.resume || !p.applied || !p.waiting.contains q then s
  else
    let p' := { p with waiting := p.waiting.filter (fun x => x ≠ q), acted := p.acted.filter (fun x => x ≠ q) }
    if p'.acted.isEmpty then
      finish p.session p.tag 0x0308 stCancelled 0 [] { s with jobs := { s.jobs with preempts := s.jobs.preempts.filter fun x => x ≠ p } }
    else { s with jobs := { s.jobs with preempts := updBy (fun x => x = p) (fun _ => p') s.jobs.preempts } }

/-- A queue is withdrawn from every PREEMPT that waits for it. Log 92: DESIGN CHOICE. -/
def withdraw (ctx q : Nat) (s : State) : State := s.jobs.preempts.foldl (fun s p => withdrawOne ctx q p s) s

/-- QUEUE_DESTROY (R386): a queue with a command that waits or runs stays. -/
def execQueueDestroy (h : Hdr) (ctx queue : Nat) (s : State) : Host.Outcome State Fault Refusal :=
  hosted (.queueDestroy h ctx queue) h ⟨0x0305, roleJobs, featLearn⟩
    (fun e s => match ctxRefusal s e.principal ctx with
      | some r => some r
      | none => badIf ((s.ctx ctx).bind fun c => c.queue queue).isNone)
    (fun _ s =>
      if s.jobs.cmds.any fun c => c.ctx = ctx && c.queue = queue && c.kind ≠ .copy && !c.phase.over then reply h 0x0305 stConflict 0x50 [] s
      else replyOk h 0x0305 [] (withdraw ctx queue (setCtx ctx (fun c => { c with queues := c.queues.filter fun e => e.num ≠ queue }) s))) s

/-! ### Launching -/

/-- Whether a handle may take a slot (R130, R278, R282): of the context, with the slot's rights and room. -/
def slotTakes (s : State) (ctx : Nat) (x : HandleSlot × Nat) : Bool :=
  match s.handle x.2 with
  | none => false
  | some h =>
    h.ctx = ctx && (!x.1.read || tbit h.rights 0) && (!x.1.write || tbit h.rights 1) &&
      decide (x.1.minBytes ≤ if h.kind = 1 then 2 ^ 48 else h.bytes)

/-- Whether two slots that a T_MOVE uses with overlapping ranges are given one handle (R284). -/
def launchOverlaps (m : Image) (handles : List Nat) : Bool :=
  m.descs.any fun d => match d.body with
    | .tMove f => handles[f.src]? = handles[f.dst]? && overlaps f.srcOffset f.bytes f.dstOffset f.bytes
    | _ => false

/-- Handles that fit the slots of an image. -/
def handlesFit (s : State) (ctx : Nat) (m : Image) (handles : List Nat) : Bool :=
  handles.length = m.handles.length && (m.handles.zip handles).all (slotTakes s ctx) && !launchOverlaps m handles

/-- A handle of another principal (R359). -/
def handlesDenied (s : State) (principal : Nat) (handles : List Nat) : Bool := handles.any (handleDenied s principal)

/-- The refusal of a model and an epoch that a launch names (R261); MODEL_ID 0 names none. -/
def epochRefusal (s : State) (modelId : Nat) (named : Option Nat) : Option (Nat × Nat) :=
  if modelId = 0 then none
  else
    match s.model modelId with
    | none => some (stConflict, 0x30)
    | some m =>
      if m.state ≠ 3 then some (stConflict, modelCode s modelId)
      else
        match named with
        | none => none
        | some e => if m.epochs.any fun x => x.id = e && epochLive s m x then none else some (stConflict, 0x54)

/-- The epoch that LAUNCH names (R366). Log 70: DESIGN CHOICE. -/
def namedEpoch (h : Hdr) (p : LaunchP) : Option Nat := if tbit h.cflags 1 then some p.epoch else none

/-- Whether a DETERMINISTIC image would discard rows of a model on the package (R154, R196): the model may have come after the
image (DESIGN CHOICE, log 122). -/
def dropsRows (s : State) (m : Image) : Bool :=
  m.deterministic && m.descs.any fun d => match d.body with
    | .zXchg f => f.role = 0 && layerDrops s f.model f.layer
    | _ => false

/-- The refusal of a LAUNCH, if any (R130, R154, R196, R261, R284, R359, R383, R384, R432). Logs 43, 122: DESIGN CHOICE. -/
def launchRefusal (s : State) (principal : Nat) (named : Option Nat) (p : LaunchP) : Option (Nat × Nat) :=
  match ctxRefusal s principal p.ctx with
  | some r => some r
  | none =>
    match (s.ctx p.ctx).bind fun c => c.queue p.queue, s.program p.program with
    | some _, some m =>
      if m.owner ≠ principal || handlesDenied s principal p.handles then some (stDenied, 0)
      else if !handlesFit s p.ctx m.image p.handles || dropsRows s m.image then some (stBadParam, 0)
      else
        match epochRefusal s p.modelId named with
        | some r => some r
        | none =>
          if namesUnbound s m.image || !fitsShared s m.image then some (stDegraded, 0)
          else if 255 ≤ (waitingOf s p.ctx p.queue).length then some (stNoResource, 0)
          else none
    | _, _ => some (stBadParam, 0)

/-- A command before its start. -/
def newCmd (s : State) (ctx queue : Nat) (kind : CmdKind) (launch : LaunchSt) (image : Image) (eligible : Nat) : Cmd where
  id := s.jobs.nextCmd
  ctx := ctx
  queue := queue
  kind := kind
  launch := launch
  image := image
  phase := .waiting
  eligible := eligible
  agedAt := none
  firstStart := 0
  startBeat := 0
  retireBeat := 0
  committed := false
  restarted := false
  progressBeat := 0
  epoch := none
  instVersion := 0
  gen := 0
  events := []
  lists := []
  streams := []
  dropped := []
  late := 0
  bases := []
  counts := []
  hot := false

/-- HEAD_ELIGIBLE of a queue is that of its head command (R387). Log 93: DESIGN CHOICE. -/
def fixHead (ctx q : Nat) (s : State) : State :=
  setQueue ctx q (fun e => { e with headEligible := ((waitingOf s ctx q).head?.map fun c => c.eligible).getD 0 }) s

/-- A command is placed at the tail of its queue (R385, R387). Log 93: DESIGN CHOICE. -/
def addCmd (c : Cmd) (s : State) : State :=
  let s := { s with jobs := { s.jobs with cmds := s.jobs.cmds ++ [c], nextCmd := (s.jobs.nextCmd + 1) % 2 ^ 32 } }
  if c.kind = .copy then s else fixHead c.ctx c.queue (setQueue c.ctx c.queue (fun e => { e with tail := wrap32 (e.tail + 1) }) s)

/-- What a LAUNCH binds. -/
def launchOf (h : Hdr) (principal : Nat) (p : LaunchP) : LaunchSt :=
  ⟨principal, h.session, h.tag, p.program, p.handles, p.addr, p.iteration, p.modelId, namedEpoch h p, tbit h.cflags 0, p.commitBeat,
    false, [], none⟩

/-- A launch is taken, eligible from a beat on (R388). -/
def takeLaunch (h : Hdr) (principal : Nat) (p : LaunchP) (eligible : Nat) (s : State) : State :=
  match s.program p.program with
  | none => s
  | some m => addCmd (newCmd s p.ctx p.queue .launch (launchOf h principal p) m.image eligible) s

/-- LAUNCH (R144, R366, R388). -/
def execLaunch (h : Hdr) (p : LaunchP) (s : State) : Host.Outcome State Fault Refusal :=
  hosted (.launch h p) h ⟨0x0303, roleJobs, featLearn⟩
    (fun e s => if h.sorus = 0 then launchRefusal s e.principal (namedEpoch h p) p else none)
    (fun e s =>
      takeLaunch h e.principal p (beatAdd s.now 1) (accept h 0x0303 (leBytes 4 s.jobs.nextCmd) s)) s

/-- A LAUNCH of a sorus in phase 3 of its commit beat (R380, R388, R396). -/
def launchCommit (h : Hdr) (principal : Nat) (p : LaunchP) (s : State) : State :=
  match launchRefusal s principal (namedEpoch h p) p with
  | some (st, d) => finish h.session h.tag 0x0303 st d [] s
  | none => setCmd s.jobs.nextCmd (fun c => { c with launch := { c.launch with stagedAt := some s.now } }) (takeLaunch h principal p s.now s)

/-! ### Copies (R284) -/

/-- The refusal of a COPY, if any (R283, R284). -/
def copyRefusal (s : State) (principal : Nat) (p : CopyP) : Option (Nat × Nat) :=
  match ctxRefusal s principal p.ctx with
  | some r => some r
  | none =>
    let slot (id : Nat) (r w : Bool) (off : Nat) : Bool := slotTakes s p.ctx (⟨r, w, off + p.bytes⟩, id)
    if handlesDenied s principal [p.src, p.dst] then some (stDenied, 0)
    else badIf (!slot p.src true false p.srcOffset || !slot p.dst false true p.dstOffset || p.srcOffset % 256 ≠ 0 ||
      p.dstOffset % 256 ≠ 0 || p.bytes % 256 ≠ 0 || decide (p.bytes < 256) || decide (2 ^ 40 < p.bytes) ||
      (p.src = p.dst && overlaps p.srcOffset p.bytes p.dstOffset p.bytes))

/-- The image of a COPY on a tier mover: one T_MOVE. -/
def copyImage (code : Nat) (p : CopyP) : Image :=
  ⟨false, false, 0, 0, 0, [⟨code, 0, 1⟩], [⟨true, false, p.srcOffset + p.bytes⟩, ⟨false, true, p.dstOffset + p.bytes⟩], [],
    [⟨false, false, 0, 0, 0, 0, .tMove ⟨0, 1, 0, p.srcOffset, p.dstOffset, p.bytes⟩⟩]⟩

/-- The source code of tier mover H.T00 (R8). -/
def firstMover : Nat := sourceCode 6 3 0

/-- COPY (R284): one T_MOVE as a bulk command of its context, in no queue. -/
def execCopy (h : Hdr) (p : CopyP) (s : State) : Host.Outcome State Fault Refusal :=
  hosted (.copy h p) h ⟨0x0404, roleJobs, 0⟩
    (fun e s => copyRefusal s e.principal p)
    (fun e s =>
      let l : LaunchSt := ⟨e.principal, h.session, h.tag, 0, [p.src, p.dst], [], 0, 0, none, false, 0, false, [], none⟩
      let s := accept h 0x0404 [] s
      addCmd (newCmd s p.ctx 0 .copy l (copyImage firstMover p) (beatAdd s.now 1)) s) s

/-! ### Serving steps (R180, R230) -/

/-- Whether a serving program that samples runs what R221 says: V_SOFTMAX STATS with DUAL and SCALE_SRC, and G_TOPK and V_SAMPLE
with the model's K_CAND (R211, R221). -/
def samplesOk (kCand : Nat) (m : Image) (samples : Bool) : Bool :=
  let has (f : DBody → Bool) : Bool := m.descs.any fun d => f d.body
  let stats : DBody → Bool
    | .vSoftmax f => f.stats && f.dual && f.scaleSrc
    | _ => false
  let topk : DBody → Bool
    | .gTopk f => f.k = kCand
    | _ => false
  let sample : DBody → Bool
    | .vSample f => f.kCand = kCand
    | _ => false
  let other : DBody → Bool
    | .vSample f => f.kCand ≠ kCand
    | _ => false
  !has other && (!samples || (has stats && has topk && has sample))

/-- SERVING_STEP_LAUNCH (R180, R221, R230): Limcel freezes a plan and launches a step into a queue of context 0. Log 61: DESIGN CHOICE. -/
def execServingStepLaunch (p : StepLaunchP) (s : State) : Host.Outcome State Fault Refusal :=
  match s.program p.program, (s.ctx 0).bind fun c => c.queue p.queue with
  | some m, some _ =>
    let kCand := ((s.model p.modelId).map fun x => x.kCand).getD 0
    if s.boot.stage ≠ 6 || s.hlth.failed || p.modelId = 0 || (epochRefusal s p.modelId p.fixedEpoch).isSome ||
        !handlesFit s 0 m.image p.handles || dropsRows s m.image || namesUnbound s m.image || !fitsShared s m.image ||
        !samplesOk kCand m.image (p.decode || p.plan.any fun i => i.last) || decide (255 ≤ (waitingOf s 0 p.queue).length) then .next s
    else
      let (plan, s) := freezePlan p.decode p.modelId p.fixedEpoch (fullPlan s p) s
      let l : LaunchSt := ⟨0, 0, 0, p.program, p.handles, [], 0, p.modelId, p.fixedEpoch, true, 0, p.decode, plan, none⟩
      .next (addCmd (newCmd s 0 p.queue .step l m.image (beatAdd s.now 1)) s)
  | _, _ => .next s

/-! ### Pre-emption -/

/-- The queues of a context that a PREEMPT or a RESUME with a queue number can act on (R391). Log 92: DESIGN CHOICE. -/
def preemptTargets (c : Ctx) (q : Nat) (resume : Bool) : List Nat :=
  let ok (e : Queue) : Bool := if resume then e.state ≠ 0x5B else e.state = 0x5B
  (c.queues.filter fun e => (q = 0xFF || e.num = q) && ok e).map fun e => e.num

/-- The code that a command which can act on no queue is answered with (R391). -/
def preemptCode (c : Ctx) (q : Nat) : Nat :=
  match c.queues.find? fun e => q = 0xFF || e.num = q with
  | some e => e.state
  | none => 0x5B

/-- The refusal of a PREEMPT or a RESUME, if any (R391). -/
def preemptRefusal (s : State) (principal ctx q : Nat) (resume : Bool) : Option (Nat × Nat) :=
  match ctxRefusal s principal ctx with
  | some r => some r
  | none =>
    match s.ctx ctx with
    | none => some (stBadParam, 0)
    | some c =>
      if c.queues.isEmpty || (q ≠ 0xFF && (c.queue q).isNone) then some (stBadParam, 0)
      else if (preemptTargets c q resume).isEmpty then some (stConflict, preemptCode c q)
      else none

/-- A PREEMPT or a RESUME waits for its beat (R390). -/
def postPreempt (h : Hdr) (ctx q : Nat) (resume : Bool) (beat : Nat) (s : State) : State :=
  { s with jobs := { s.jobs with preempts := s.jobs.preempts ++ [⟨h.session, h.tag, ctx, resume, beat, false, [q], [], [], 0, none⟩] } }

/-- The beat B of a command taken now (R390). Log 94: DESIGN CHOICE. -/
def preemptBeat (s : State) (beat : Nat) : Nat := if beat = 0 || beatBefore beat s.now then beatAdd s.now 1 else beat

/-- The ranges of a PREEMPT. -/
def preemptRanges (h : Hdr) (ctx q : Nat) (resume : Bool) (e : Session) (s : State) : Option (Nat × Nat) :=
  if h.sorus = 0 then preemptRefusal s e.principal ctx q resume else none

/-- PREEMPT (R390). -/
def execPreempt (h : Hdr) (ctx queue beat : Nat) (s : State) : Host.Outcome State Fault Refusal :=
  hosted (.preempt h ctx queue beat) h ⟨0x0308, roleJobs, featLearn⟩ (preemptRanges h ctx queue false)
    (fun _ s => postPreempt h ctx queue false (preemptBeat s beat) (accept h 0x0308 [] s)) s

/-- PREEMPT with RESUME (R391). -/
def execPreemptResume (h : Hdr) (ctx queue beat : Nat) (s : State) : Host.Outcome State Fault Refusal :=
  hosted (.preemptResume h ctx queue beat) h ⟨0x0308, roleJobs, featLearn⟩ (preemptRanges h ctx queue true)
    (fun _ s => postPreempt h ctx queue true (preemptBeat s beat) (accept h 0x0308 [] s)) s

/-- A PREEMPT of a sorus in phase 3 of its commit beat (R380, R396). Log 94: DESIGN CHOICE. -/
def preemptCommit (h : Hdr) (principal ctx q : Nat) (resume : Bool) (beat : Nat) (s : State) : State :=
  match preemptRefusal s principal ctx q resume with
  | some (st, d) => finish h.session h.tag 0x0308 st d [] s
  | none =>
    let mark (p : Preempt) : Preempt :=
      if p.session = h.session && p.tag = h.tag then { p with stagedAt := some s.now } else p
    let s := postPreempt h ctx q resume (if beat = 0 || beatBefore beat s.now then s.now else beat) s
    { s with jobs := { s.jobs with preempts := s.jobs.preempts.map mark } }

/-- The payload of a grant or resume record: issuer 0 a host, 1 Limcel (R393, R451). -/
def grantPayload (s : State) (ctx q issuer : Nat) : List Byte := leBytes 1 ctx ++ leBytes 1 q ++ leBytes 1 issuer ++ leBytes 8 s.now

/-- Limcel's own pre-emptions have no session (R393). -/
def Preempt.issuer (p : Preempt) : Nat := bit (p.session = 0)

/-- Limcel holds or resumes a queue in phase 6 of this beat (R393). -/
def holdQueue (ctx q : Nat) (resume : Bool) (s : State) : State :=
  if (s.ctx ctx).isNone then s
  else { s with jobs := { s.jobs with preempts := s.jobs.preempts ++ [⟨0, 0, ctx, resume, s.now, false, [q], [], [], 0, none⟩] } }

/-- A pre-emption suffered is counted (R398): on an interactive queue for its owner, on one of context 0 for every principal
with a request in QUEUED, PREFILL, HANDOFF or DECODE. -/
def countGrant (ctx : Nat) (s : State) : State :=
  let add (p : Nat) (s : State) : State := setAcct p (fun a => { a with preempts := sat32 (a.preempts + 1) }) s
  if ctx = 0 then
    (((s.serve.reqs.filter fun r => decide (1 ≤ r.state) && decide (r.state ≤ 4)).map fun r => r.principal).eraseDups).foldl (fun s p => add p s) s
  else match s.ctx ctx with
    | some c => add c.principal s
    | none => s

/-- A queue is granted (R390, R393, R398). -/
def grantQueue (ctx q : Nat) (s : State) : State :=
  match (s.ctx ctx).bind fun c => c.queue q with
  | none => s
  | some e =>
    if e.state ≠ 0x5A || queueBusy s ctx q then s
    else
      let s := setQueue ctx q (fun e => { e with state := 0x59, grants := sat32 (e.grants + 1), heldSince := s.now }) s
      let by_ := ((s.jobs.preempts.find? fun p => p.ctx = ctx && p.waiting.contains q).map fun p => p.issuer).getD 0
      let s := record 0x0301 1 pkgSource (grantPayload s ctx q by_) s
      let s := if e.cls = 0 then countGrant ctx s else s
      let mark (p : Preempt) : Preempt := { p with waiting := p.waiting.filter (fun x => x ≠ q), lastGrant := s.now }
      { s with jobs := { s.jobs with preempts := updBy (fun p => p.ctx = ctx && p.waiting.contains q) mark s.jobs.preempts } }

/-- PREEMPT_GRANT (R390). -/
def execPreemptGrant (ctx queue : Nat) (s : State) : Host.Outcome State Fault Refusal := .next (grantQueue ctx queue s)

/-- A queue is READY again (R391, R393). -/
def readyQueue (ctx q issuer : Nat) (s : State) : State :=
  let s := withdraw ctx q s
  record 0x0302 1 pkgSource (grantPayload s ctx q issuer) (setQueue ctx q (fun e => { e with state := 0x5B }) s)

/-- A PREEMPT or RESUME whose beat has come acts on its queues (R390, R391). Log 92: DESIGN CHOICE. -/
def applyPreempt (p : Preempt) (s : State) : State :=
  match s.ctx p.ctx with
  | none => s
  | some c =>
    let q := p.wanted.headD 0xFF
    let ts := preemptTargets c q p.resume
    let put (f : Preempt → Preempt) (s : State) : State :=
      { s with jobs := { s.jobs with preempts := updBy (fun x => x = p) f s.jobs.preempts } }
    if ts.isEmpty then
      finish p.session p.tag 0x0308 stConflict (preemptCode c q) []
        { s with jobs := { s.jobs with preempts := s.jobs.preempts.filter fun x => x ≠ p } }
    else if p.resume then ts.foldl (fun s q => readyQueue p.ctx q p.issuer s) (put (fun p => { p with applied := true, acted := ts, lastGrant := s.now }) s)
    else ts.foldl (fun s q => setQueue p.ctx q (fun e => { e with state := 0x5A }) s)
      (put (fun p => { p with applied := true, waiting := ts, acted := ts }) s)

/-- Phase 6 (R37): pre-emptions and resumes that are due, then the grants. -/
def phase6 (s : State) : State :=
  let s := (s.jobs.preempts.filter fun p => !p.applied && beatLe p.beat s.now).foldl (fun s p => applyPreempt p s) s
  (s.jobs.ctxs.map fun c => c.queues.map fun q => (c.num, q.num)).flatten.foldl (fun s x => grantQueue x.1 x.2 s) s

/-- Replies of pre-emptions whose last grant lies before this beat (R390). -/
def answerPreempts (s : State) : State :=
  (s.jobs.preempts.filter fun p => p.applied && p.waiting.isEmpty && beatBefore p.lastGrant s.now).foldl (fun s p =>
    finish p.session p.tag 0x0308 stOk 0 (leBytes 8 p.lastGrant)
      { s with jobs := { s.jobs with preempts := s.jobs.preempts.filter fun x => x ≠ p } }) s

end Sys2Proof.Machine
end

