-- ==== Sys2Proof/Machine/Scheduler.lean ====
section
/-! DEFINITION. Starting, issuing, completing, retiring and restarting commands (R135, R142 to R149, R186, R187, R388, R389),
the watchdog and slowdown reporting (R143, R400). -/
namespace Sys2Proof.Machine

/-! ### Issue (R145) -/

/-- Whether a snapshot has been captured in this beat: issue pauses in it (R313). -/
def issueFrozen (s : State) : Bool := s.fab.frozen = some s.now

/-- Whether Fronts of a die issue in this beat (R313, R416, R419): the hub is not paced. Log 97: DEDUCED. -/
def diesIssue (s : State) (die : Nat) : Bool := !s.thm.tripped && !issueFrozen s && (die = 6 || issueBeat s.now s.pwr.duty)

/-- Whether an entry of a Front's list is an S_BEAT that has not completed (R138). -/
def waitsForBeat (c : Cmd) (e : QEntry) : Bool :=
  !e.done && (match c.image.descs[e.index]? with
    | some d => (match d.body with
      | .sBeat _ _ => true
      | _ => false)
    | none => false)

/-- Whether an accepted S_BEAT of a Front's list still holds it (R138). Log 97: DEDUCED. -/
def heldByBeat (c : Cmd) (l : ListSt) : Bool := l.sbeat.isSome || l.queue.any (waitsForBeat c)

/-- Whether the next descriptor of a list may issue (R135, R145): its WAIT is met and its station has room. -/
def issueReady (s : State) (c : Cmd) (l : ListSt) : Bool :=
  decide (l.issued < l.count) && diesIssue s (dieOf l.code) &&
    (if letterOf l.code = 7 then !heldByBeat c l else decide (l.queue.length < 4)) &&
    match c.image.descs[l.first + l.issued]? with
    | some d => !d.wait || decide (d.waitValue ≤ c.events.getD d.event 0)
    | none => false

/-- The next descriptor of a list issues, if it may. -/
def issueNext (id code : Nat) (s : State) : State :=
  match (s.cmd id).bind fun c => (c.list code).map fun l => (c, l) with
  | none => s
  | some (c, l) =>
    if c.phase = .running && issueReady s c l then
      progress id (setList id code (fun l => { l with issued := l.issued + 1, queue := l.queue ++ [QEntry.new (l.first + l.issued)] }) s)
    else s

/-- DESCRIPTOR_ISSUE (R145). -/
def execDescriptorIssue (at_ : Place) (s : State) : Host.Outcome State Fault Refusal := .next (issueNext at_.cmd at_.code s)

/-! ### Completion (R135, R142) -/

/-- DESCRIPTOR_COMPLETE (R135). -/
def execDescriptorComplete (at_ : Place) (s : State) : Host.Outcome State Fault Refusal := .next (completeNext at_.cmd at_.code s)

/-! ### Retirement (R146, R147) -/

/-- Whether every list of a command has completed. -/
def listsDone (c : Cmd) : Bool := c.lists.all fun l => l.completed = l.count

/-- The consumer of the first stream that still holds a tile. Log 77: DESIGN CHOICE. -/
def leftover (c : Cmd) : Option Nat :=
  (c.streams.find? fun e => !(e.queue.isEmpty && e.held.isEmpty)).map fun e => e.spec.consumer % 4096

/-- Whether a command counts as bulk (R284, R399). -/
def isBulk (s : State) (c : Cmd) : Bool :=
  c.kind = .copy || ((s.ctx c.ctx).bind fun x => x.queue c.queue).any fun q => q.cls = 1

/-- The bulk counts of a command's principal change; context 0 has none (R399, R516). -/
def countBulk (c : Cmd) (f : Acct → Acct) (s : State) : State :=
  if c.ctx ≠ 0 && isBulk s c then setAcct c.launch.principal f s else s

/-- What other sources have announced of the experts of this package's instances, in the count records that a command has used
(R197, R204): the rows of one source for an expert and its largest round (DEDUCED, log 137). -/
def heardCounts (s : State) (c : Cmd) : List ExpertCount :=
  (s.fab.counts.filter fun x => x.2 = some c.id && decide (x.1.pkg ≠ s.boot.pkg)).flatMap fun (r, _) =>
    match (s.model r.model).bind fun m => (m.tables.find? fun t => t.version = c.instVersion).map fun t => (m, t) with
    | none => []
    | some (m, t) => (t.entries.filter fun e => e.layer = r.layer).filterMap fun e =>
        let mine := r.counts.filter fun x => e.inst.contains (s.boot.pkg, x.1) && decide (0 < x.2.2)
        if mine.isEmpty then none
        else some ⟨r.layer + 65536 * m.index, e.expert, (mine.map fun x => x.2.2).sum, (mine.map fun x => x.2.1).foldl max 0⟩

/-- The hot experts of a step (R204): each with the largest count from one source and the rounds that that source needed. Log 137: DEDUCED. -/
def hotExperts (s : State) (c : Cmd) : List ExpertCount :=
  let all := c.counts ++ heardCounts s c
  let hot := ((all.filter fun x => decide (1 < x.rounds)).map fun x => (x.key, x.expert)).eraseDups
  hot.filterMap fun h => (all.filter fun x => x.key = h.1 && x.expert = h.2).foldl (fun best x => match best with
    | none => some x
    | some b => if b.rows < x.rows then some x else some b) none

/-- A hot expert is recorded, at most once per layer and expert in 1,000,000 beats (R204). -/
def recordHot (x : ExpertCount) (s : State) : State :=
  let is (y : Nat × Nat × Nat) : Bool := y.1 = x.key && y.2.1 = x.expert
  if s.serve.lastHot.any fun y => is y && decide (s.beat.elapsed < y.2.2 + 1000000) then s
  else
    let s := { s with serve := { s.serve with
      lastHot := (x.key, x.expert, s.beat.elapsed) :: s.serve.lastHot.filter fun y => !is y } }
    record 0x0201 2 pkgSource (leBytes 2 (x.key % 65536) ++ leBytes 2 x.expert ++ leBytes 4 x.rows ++ leBytes 4 x.rounds) s

/-- A command retires (R146): it leaves nothing behind (R153), its hot experts are recorded (R204); one that has no step commit is answered. -/
def retireCmd (c : Cmd) (s : State) : State :=
  let s := countBulk c (fun a => { a with bulkRetired := sat32 (a.bulkRetired + 1) }) s
  let s := if c.kind = .copy then s
    else setCtx c.ctx (fun x => { x with retired := x.retired ++ [(c.launch.program, beatSpan c.startBeat s.now)] }) s
  let hot := hotExperts s c
  let s := hot.foldl (fun s x => recordHot x s) s
  let s := setCmd c.id (fun c => { clearRun c with
    phase := .retired, retireBeat := s.now, committed := !c.launch.isStep, counts := [], hot := c.hot || !hot.isEmpty }) s
  let s := orphan c.id s
  if c.launch.isStep then releasePages s else finishCmd { c with retireBeat := s.now } stOk 0 s

/-- The producer of the first stream that declares tiles and whose producer's list has no descriptor to end it (R142). Log 77: DESIGN CHOICE. -/
def neverCarried (c : Cmd) : Option Nat :=
  (c.streams.find? fun e => e.spec.tiles ≠ 0 && (c.list (e.spec.producer % 4096)).any fun l => l.count = 0).map
    fun e => e.spec.producer % 4096

/-- COMMAND_RETIRE (R142, R146): tiles left in a queue, or a declared stream that an empty list has ended, end the command
instead. -/
def execCommandRetire (cmd : Nat) (s : State) : Host.Outcome State Fault Refusal :=
  match s.cmd cmd with
  | none => .next s
  | some c =>
    if c.phase ≠ .running || !listsDone c || s.fab.accesses.any (fun a => a.cmd = cmd) then .next s
    else
      match (leftover c).or (neverCarried c) with
      | some code => .next (contextFaultAt cmd 1 code s)
      | none => .next (retireCmd c s)

/-- The beat at which a retired step commits (R147): r, or the later beat its launch names. -/
def commitBeatOf (c : Cmd) : Nat :=
  let r := beatAdd c.retireBeat 1
  if c.launch.commitBeat ≠ 0 && beatBefore r c.launch.commitBeat then c.launch.commitBeat else r

/-- A step commits (R147, R204): late when its named beat lay before r. -/
def commitStep (c : Cmd) (outs : List StepOut) (s : State) : State :=
  let late := c.launch.commitBeat ≠ 0 && beatBefore c.launch.commitBeat (beatAdd c.retireBeat 1)
  let s := setCtx c.ctx (fun x => { x with
    lateCommits := sat32 (x.lateCommits + bit late), hotSteps := sat32 (x.hotSteps + bit c.hot) }) s
  let s := setCmd c.id (fun c => { c with committed := true }) s
  let s := if c.kind = .step then commitServing c outs s
    else finishCmd c stOk (if beatLe (commitBeatOf c) s.now then s.now else commitBeatOf c) s
  { s with jobs := { s.jobs with cmds := s.jobs.cmds.filter fun x => !(x.id = c.id && x.phase = .released) } }

/-- Whether a command waits for its step commit. -/
def awaitsCommit (c : Cmd) : Bool := c.launch.isStep && c.phase.over && !c.committed

/-- STEP_COMMIT (R147): of a retired step that has not committed, once its commit beat has come. -/
def execStepCommit (cmd : Nat) (outs : List StepOut) (s : State) : Host.Outcome State Fault Refusal :=
  match s.cmd cmd with
  | none => .next s
  | some c => if awaitsCommit c && beatLe (commitBeatOf c) s.now then .next (commitStep c outs s) else .next s

/-- Phase 2 (R37): the step commits that are due. -/
def phase2 (outs : List (Nat × List StepOut)) (s : State) : State :=
  (s.jobs.cmds.filter fun c => awaitsCommit c && beatLe (commitBeatOf c) s.now).foldl (fun s c =>
    commitStep c (((outs.find? fun o => o.1 = c.id).map fun o => o.2).getD []) s) s

/-- Claims of commands that retired or ended fall free at a beat boundary (R146, R148). -/
def releaseClaims (s : State) : State :=
  let free (c : Cmd) : Option Cmd :=
    if c.phase = .retired then (if c.committed then none else some { c with phase := .released }) else some c
  { s with jobs := { s.jobs with cmds := s.jobs.cmds.filterMap free } }

/-! ### Starting (R144, R186, R187, R385, R388, R389) -/

/-- A candidate of phase 9: its command, class, priority, waiting time, and the order of contexts and queues. -/
structure Cand where
  id : Nat
  cls : Nat
  prio : Nat
  wait : Nat
  ctx : Nat
  queue : Nat
  copy : Bool
  aged : Option Nat
  deriving DecidableEq, Repr

/-- The rank key of a candidate, lower first (R284, R389). -/
def Cand.key (x : Cand) : List Nat := [x.cls, 7 - x.prio, 2 ^ 48 - x.wait, x.ctx, x.queue, x.id]

/-- Lexicographic order of rank keys. -/
def keyBefore : List Nat → List Nat → Bool
  | a :: as, b :: bs => decide (a < b) || (a = b && keyBefore as bs)
  | _, _ => false

/-- The candidates of phase 9: the head of every READY queue without a running command, and every COPY (R389). -/
def candidates (s : State) : List Cand :=
  let due (c : Cmd) : Bool := c.phase = .waiting && beatLe c.eligible s.now
  let heads := (s.jobs.ctxs.map fun x => x.queues.filterMap fun q =>
    if q.state ≠ 0x5B || (s.jobs.cmds.any fun c => c.ctx = x.num && c.queue = q.num && c.kind ≠ .copy && (c.phase = .running || c.phase = .restarting))
    then none
    else match (waitingOf s x.num q.num).head? with
      | some c => if due c then some ⟨c.id, q.cls, q.priority, beatSpan c.eligible s.now, x.num, q.num, false, c.agedAt⟩ else none
      | none => none).flatten
  let copies := (s.jobs.cmds.filter fun c => c.kind = .copy && due c).map fun c =>
    ⟨c.id, 1, 0, beatSpan c.eligible s.now, c.ctx, 16, true, c.agedAt⟩
  sortBy (fun a b => keyBefore a.key b.key) (heads ++ copies)

/-- Candidates age, and commands that are none have not aged (R389). -/
def ageCands (s : State) : State :=
  let cs := candidates s
  let age (c : Cmd) : Cmd := match cs.find? fun x => x.id = c.id with
    | none => { c with agedAt := none }
    | some x => if c.agedAt.isNone && decide (s.jobs.ageBeats ≤ x.wait) then { c with agedAt := some s.now } else c
  { s with jobs := { s.jobs with cmds := s.jobs.cmds.map age } }

/-- The eight tier movers by name. Log 98: DESIGN CHOICE. -/
def movers : List Nat := (List.range 8).map fun i => firstMover + i

/-- The silicon of a tier mover's name. -/
def moverClaim (s : State) (code : Nat) : Nat := (carrierCode s code).getD code

/-- Claims that candidates have in reserve, each with its reserver, in the order of R389. Log 152: DESIGN CHOICE. -/
def reservations (s : State) : List (Nat × Nat) :=
  let aged := (candidates s).filterMap fun x => x.aged.map fun b => (beatSpan b s.now, x)
  let ordered := sortBy (fun (a b : Nat × Cand) => decide (b.1 < a.1)) aged
  ordered.foldl (fun (held : List (Nat × Nat)) x =>
    let taken (k : Nat) : Bool := held.any fun r => r.1 = k
    let wants := if x.2.copy then ((movers.map (moverClaim s)).find? fun k => !taken k).toList
      else match s.cmd x.2.id with
        | some c => (claimsOf s c.image).filter fun k => !taken k
        | none => []
    held ++ wants.map fun k => (k, x.2.id)) []

/-- Claims that commands hold (R144, R149). -/
def heldClaims (s : State) : List Nat :=
  ((s.jobs.cmds.filter fun c => c.phase = .running || c.phase = .retired || c.phase = .restarting).map fun c => claimsOf s c.image).flatten

/-- Whether every station that carries a name of an image is in service. -/
def carriersUp (s : State) (m : Image) : Bool :=
  m.bindings.all fun b => letterOf b.code = 7 || (match carrier s (dieOf b.code) (letterOf b.code) (numOf b.code) with
    | some e => decide (e.state < 2)
    | none => false)

/-- The epoch a command is pinned to at its start (R144, R230, R261). Log 70: DESIGN CHOICE. -/
def startEpoch (s : State) (c : Cmd) : Option Nat :=
  if c.launch.modelId = 0 then none
  else match c.launch.namedEpoch with
    | some e => some e
    | none => (s.model c.launch.modelId).map fun m => m.follow

/-- Whether a command would read a suspect region (R256). Log 72: DESIGN CHOICE. -/
def readsSuspect (s : State) (c : Cmd) : Bool :=
  match s.model c.launch.modelId with
  | none => false
  | some m => m.suspects.any fun a =>
      (m.epochs.any fun e => some e.id = startEpoch s c && e.table.any fun p => p.addr = a) ||
        m.adapters.any fun k => k.versions.any fun v => v.placed.any fun p => p.base = a

/-- Whether this package is in doubt about a sorus (R379). -/
def inDoubt (s : State) : Bool := s.sori.sori.any fun x => x.inDoubt

/-- Whether a handle of a command with WRITE is being moved (R284). -/
def writesMoving (s : State) (c : Cmd) : Bool :=
  (c.image.handles.zip c.launch.handles).any fun x => x.1.write && (s.handle x.2).any fun h => h.move.isSome

/-- Whether every die that an image binds issues in this beat (R419). Log 98: DESIGN CHOICE. -/
def bindsIssue (s : State) (m : Image) : Bool := m.bindings.all fun b => diesIssue s (dieOf b.code)

/-- Whether a candidate may start once its claims are free (R244, R256, R284, R313, R379, R419). Log 97: DEDUCED. -/
def mayStart (s : State) (c : Cmd) : Bool :=
  !issueFrozen s && bindsIssue s c.image && !writesMoving s c && !(readsSuspect s c) && !(c.launch.isStep && inDoubt s) && carriersUp s c.image &&
    (c.launch.modelId = 0 || modelCode s c.launch.modelId = 0x33)

/-- The next generation of a context (R187): one that an ended command blocks is skipped. -/
def freeGen (s : State) (x : Ctx) : Nat :=
  let blocked (g : Nat) : Bool := x.blockedGens.any fun b => b.1 = g && decide (s.beat.elapsed ≤ b.2 + 1000)
  (((List.range 256).map fun i => (x.nextGen + i) % 256).find? fun g => !blocked g).getD x.nextGen

/-- A list at a command's start (R70, R94, R144); `seed` is the draw of its SRAM's undefined contents. -/
def newList (s : State) (b : Binding) (seed : Nat) : ListSt :=
  let mode := ((s.stns.cfg.find? fun c => letterOf b.code = 0 && c.die = dieOf b.code && c.num = numOf b.code).map fun c => c.loadMode).getD 0
  ⟨b.code, b.first, b.count, 0, 0, [], [], none, none, Bank.empty, Bank.empty, mode, none, none, none, seed⟩

/-- The run of a command at a start or a restart: counters zero, queues empty, a new generation, its first descriptors issued
(R144, R186). -/
def beginRun (id : Nat) (s : State) : State :=
  match s.cmd id with
  | none => s
  | some c =>
    let g := ((s.ctx c.ctx).map (freeGen s)).getD 0
    let s := setCtx c.ctx (fun x => { x with
      nextGen := (g + 1) % 256
      blockedGens := x.blockedGens.filter fun b => decide (s.beat.elapsed ≤ b.2 + 1000) }) s
    let s := setCmd id (fun c => { c with
      phase := .running
      gen := g
      progressBeat := s.beat.elapsed
      events := List.replicate 64 0
      lists := c.image.bindings.zipIdx.map fun (b, i) => newList s b (s.fresh + i)
      streams := c.image.streams.map fun e => ⟨e, [], [], 0⟩ }) s
    let s := { s with fresh := s.fresh + c.image.bindings.length }
    let runs (k : FrondCfg) : Bool := c.image.bindings.any fun b => letterOf b.code = 0 && dieOf b.code = k.die && numOf b.code = k.num
    let s := { s with stns := { s.stns with cfg := updBy runs (fun k => { k with runMode := k.loadMode }) s.stns.cfg } }
    c.image.bindings.foldl (fun s b => issueNext id b.code s) s

/-- Cold experts whose regions the handles of a step give it are touched when it starts (R279). Log 65: DESIGN CHOICE. -/
def touchModel (modelId : Nat) (handles : List Nat) (s : State) : State :=
  let runs := handles.filterMap fun h => (s.handle h).map fun x => (x.base, x.span)
  let cold (m : Model) (t : PlacedTensor) : Bool := ((m.manifest.tensors.find? fun x => x.id = t.tensor).map fun x => x.cls) = some 1 &&
    runs.any fun r => overlaps r.1 r.2 t.base t.bytes
  setModel modelId (fun m => { m with placed := updBy (cold m) (fun t => { t with touched := s.beat.elapsed }) m.placed }) s

/-- The figures of a start: the queue's, the principal's and the Fronts' (R387, R398, R399, R402, R491). -/
def countStart (c : Cmd) (s : State) : State :=
  let s := if c.kind = .copy then s
    else fixHead c.ctx c.queue (setQueue c.ctx c.queue (fun q => { q with head := wrap32 (q.head + 1), started := sat32 (q.started + 1) }) s)
  let s := countBulk c (fun a => { a with bulkStarted := sat32 (a.bulkStarted + 1) }) s
  let s := if c.ctx ≠ 0 && !isBulk s c then countWait c.launch.principal (beatSpan c.eligible s.now) s else s
  let dies := (List.range 7).filter fun d => c.image.bindings.any fun b => dieOf b.code = d
  dies.foldl (fun s d => setNamed (sourceCode d 7 0) (fun e => { e with roleC := sat32 (e.roleC + 1) }) s) s

/-- A command starts (R144): pinned to its epoch and instance table, its handles to their regions. -/
def startCmd (id : Nat) (img : Image) (s : State) : State :=
  match s.cmd id with
  | none => s
  | some c =>
    let e := startEpoch s c
    let bases := c.launch.handles.map fun h => ((s.handle h).map fun x => x.base).getD 0
    let inst := (((s.model c.launch.modelId).bind fun m => m.tables.getLast?).map fun t => t.version).getD 0
    let s := setCmd id (fun c => { c with
      image := img, firstStart := s.now, startBeat := s.now, agedAt := none, epoch := e, instVersion := inst, bases := bases, phase := .running }) s
    let s := countStart { c with image := img } s
    let s := if c.launch.isStep then touchModel c.launch.modelId c.launch.handles s else s
    let s := if c.kind = .step then startPlan { c with epoch := e } s else s
    beginRun id s

/-- The image a candidate would start with, if its claims are free and nobody else has them in reserve (R284, R389).
Logs 98, 152: DESIGN CHOICE. -/
def startImage (s : State) (held : List Nat) (res : List (Nat × Nat)) (c : Cmd) : Option Image :=
  let open_ (k : Nat) : Bool := !held.contains k && (res.all fun r => r.1 ≠ k || r.2 = c.id)
  if c.kind = .copy then
    (movers.find? fun code => open_ (moverClaim s code) && carriersUp s { c.image with bindings := [⟨code, 0, 1⟩] }).map fun code =>
      { c.image with bindings := [⟨code, 0, 1⟩] }
  else if (claimsOf s c.image).all open_ then some c.image
  else none

/-- One candidate is visited. -/
def visit (res : List (Nat × Nat)) (x : Cand) (s : State) : State :=
  match s.cmd x.id with
  | none => s
  | some c =>
    if c.phase ≠ .waiting then s
    else
      match startImage s (heldClaims s) res c with
      | none => s
      | some img => if mayStart s { c with image := img } then startCmd c.id img s else s

/-- Heads of queues that name a station nothing carries, or no longer fit a shared one, end (R86, R432). -/
def dropUnbound (s : State) : State :=
  (candidates s).foldl (fun s x => match s.cmd x.id with
    | some c => if c.kind ≠ .copy && (namesUnbound s c.image || !fitsShared s c.image) then
        fixHead c.ctx c.queue (setQueue c.ctx c.queue (fun q => { q with head := wrap32 (q.head + 1) }) (endCmd c.id stDegraded s))
      else s
    | none => s) s

/-- Whether a context has the head command of a queue that is eligible and has not started (R388, R400). -/
def headWaits (s : State) (c : Ctx) : Bool :=
  c.queues.any fun q => (waitingOf s c.num q.num).head?.any fun x => beatLe x.eligible s.now

/-- Contexts with an eligible head that has not started are counted (R400). Log 29: DESIGN CHOICE. -/
def countClaimWaits (s : State) : State :=
  { s with jobs := { s.jobs with
      ctxs := updBy (headWaits s) (fun c => { c with claimWaitNow := c.claimWaitNow + 1 }) s.jobs.ctxs } }

/-- A restart of a command whose names are carried again (R149). Log 96: DESIGN CHOICE. -/
def restart (id : Nat) (s : State) : State :=
  match s.cmd id with
  | none => s
  | some c =>
    if c.phase = .restarting && carriersUp s c.image && bindsIssue s c.image then
      beginRun id (setCmd id (fun c => { c with restarted := true, startBeat := s.now, counts := [], hot := false }) s)
    else s

/-- COMMAND_RESTART (R149). Log 96: DESIGN CHOICE. -/
def execCommandRestart (cmd : Nat) (s : State) : Host.Outcome State Fault Refusal := .next (restart cmd s)

/-- Phase 9 (R37, R389): restarts, then the scheduler. -/
def phase9 (s : State) : State :=
  let s := ageCands (dropUnbound s)
  let s := (s.jobs.cmds.filter fun c => c.phase = .restarting).foldl (fun s c => restart c.id s) s
  countClaimWaits ((candidates s).foldl (fun s x => visit (reservations s) x s) s)

/-- COMMAND_START (R144, R389): the scheduler chooses what starts. -/
def execCommandStart (s : State) : Host.Outcome State Fault Refusal := .next (phase9 s)

/-! ### Faults and the watchdog -/

/-- CONTEXT_FAULT (R394, R395): a running command ends with a cause of R401. -/
def execContextFault (cmd cause : Nat) (at_ : Place) (s : State) : Host.Outcome State Fault Refusal :=
  if 1 ≤ cause && cause ≤ 8 then .next (contextFaultAt cmd cause at_.code s) else .next s

/-- WATCHDOG_EXPIRY (R143): every list that has not completed is recorded; the one of the lowest binding code is shown. -/
def execWatchdogExpiry (cmd : Nat) (s : State) : Host.Outcome State Fault Refusal :=
  match s.cmd cmd with
  | none => .next s
  | some c =>
    let limit := ((s.ctx c.ctx).map fun x => x.wdog).getD 100000
    if c.phase ≠ .running || s.beat.elapsed < c.progressBeat + limit then .next s
    else
      let open_ := byKey (fun l => l.code) (c.lists.filter fun l => decide (l.completed < l.count))
      match open_ with
      | [] => .next (contextFaultAt cmd 5 ((c.lists.head?.map fun l => l.code).getD 0) s)
      | l :: rest =>
        let note (s : State) (x : ListSt) : State :=
          let (seq, mark) := headOf c x.code
          record 0x0303 3 x.code (leBytes 1 c.ctx ++ leBytes 1 5 ++ leBytes 2 seq ++ leBytes 2 x.code ++ leBytes 4 mark) s
        .next (contextFaultAt cmd 5 l.code (rest.foldl note s))

/-! ### Slowdown (R400) -/

/-- S of a context over the commands that the solo-run model covers: program and beats taken, program and beats alone. -/
def slowdownOf (solo : List (Nat × Nat)) (retired : List (Nat × Nat)) : Nat × Nat :=
  let cs := retired.filterMap fun r => (solo.find? fun e => e.1 = r.1).map fun e => (r.2, e.2)
  let a := (cs.map Prod.fst).sum
  let e := (cs.map Prod.snd).sum
  (if e = 0 then 0 else min 65535 (256 * a / e), min 65535 cs.length)

/-- One context's window closes. The wait behind transit is a free value (DESIGN CHOICE, log 2). -/
def closeWindow (solo : List (Nat × Nat)) (n : Nat) (s : State) : State :=
  let (d, s) := draw s
  setCtx n (fun c => { c with
    slowdown := (slowdownOf solo c.retired).1
    covered := (slowdownOf solo c.retired).2
    claimWait := c.claimWaitNow
    transitWait := (Config.drawn d).toNat % 2 ^ 32
    paceWait := c.paceWaitNow
    windowBeat := s.now % 2 ^ 32
    claimWaitNow := 0
    paceWaitNow := 0
    retired := [] }) s

/-- SLOWDOWN_WINDOW (R400): in a beat whose number is a multiple of 1,000,000. -/
def execSlowdownWindow (solo : List (Nat × Nat)) (s : State) : Host.Outcome State Fault Refusal :=
  if s.now % 1000000 ≠ 0 then .next s else .next ((s.jobs.ctxs.map fun c => c.num).foldl (fun s n => closeWindow solo n s) s)

end Sys2Proof.Machine
end

