-- ==== Sys2Proof/Machine/Memory.lean ====
section
/-! DEFINITION. Accounts, allocations and their end (R277 to R282, R285, R330), moves between tiers (R253, R284), the placement
of blocks on channels (R270, R271, R273) and memory errors (R274, R275). -/
namespace Sys2Proof.Machine

/-! ### Accounts (R277) -/

/-- An account by its id. -/
def State.account (s : State) (id : Nat) : Option Account := s.mem.accounts.find? fun a => a.id = id

/-- An account changes. -/
def setAccount (id : Nat) (f : Account → Account) (s : State) : State :=
  { s with mem := { s.mem with accounts := updBy (fun a => a.id = id) f s.mem.accounts } }

/-- Reserves of a tier's accounts (R277). -/
def reserves (s : State) (tier : Nat) : Nat := ((s.mem.accounts.filter fun a => a.tier = tier).map fun a => a.reserve).sum

/-- POOL_CREATE (R277): with the new account the sum of the tier's reserves is within the pool's free space. Log 73: DESIGN CHOICE. -/
def execPoolCreate (h : Hdr) (ctx tier reserve limit : Nat) (s : State) : Host.Outcome State Fault Refusal :=
  hosted (.poolCreate h ctx tier reserve limit) h ⟨0x0401, roleJobs, 0⟩
    (fun e s => match ctxRefusal s e.principal ctx with
      | some r => some r
      | none => badIf (decide (1 < tier) || decide (limit < reserve)))
    (fun _ s =>
      match (List.range 256).find? fun i => (s.account i).isNone with
      | none => reply h 0x0401 stNoResource 0 [] s
      | some i =>
        if freeSpace s tier < reserves s tier + reserve then reply h 0x0401 stNoResource 0 [] s
        else replyOk h 0x0401 (leBytes 1 i) { s with mem := { s.mem with
          accounts := s.mem.accounts ++ [⟨i, ctx, tier, reserve, limit, 0⟩] } }) s

/-! ### Allocations (R278, R282, R285, R330) -/

/-- Rights of an allocation (R367). -/
def allocRoce (p : AllocP) : Bool := tbit p.rights 2

/-- Whether a parameter lies outside the range that depends on nothing else (R278, R285, R367). -/
def allocBad (p : AllocP) : Bool :=
  decide (3 < p.kind) || decide (31 < p.rights) || (tbit p.rights 4 && !tbit p.rights 3) ||
    (if p.kind = 0 || p.kind = 3 then p.bytes = 0 || (allocRoce p && decide (2 ^ 34 < p.bytes)) else p.bytes ≠ 0)

/-- Members of a striped allocation (R285). Log 74: DESIGN CHOICE. -/
def stripeMembers (p : AllocP) : List Nat := membersOf p.members

/-- Bytes of a striped allocation that each member backs (R285). Log 74: DESIGN CHOICE. -/
def stripeShare (p : AllocP) : Nat :=
  let blocks := roundUp64K p.bytes / 4096
  (blocks + (stripeMembers p).length - 1) / max 1 (stripeMembers p).length * 4096

/-- Bytes of the region that an allocation takes (R278). Log 73: DESIGN CHOICE. -/
def regionSize (p : AllocP) : Nat := if p.kind = 3 then roundUp64K (stripeShare p) else if p.kind = 0 then roundUp64K p.bytes else 0

/-- Whether a striped range is well placed here (R267, R285): in the striped region, aligned, unused, this package a member.
Log 74: DESIGN CHOICE. -/
def stripeOk (s : State) (p : AllocP) : Bool :=
  p.stripeBase % 65536 = 0 && decide (0x180000000000 ≤ p.stripeBase) &&
    decide (p.stripeBase + roundUp64K p.bytes ≤ 0x1FFF00000000) && (stripeMembers p).contains s.boot.pkg &&
    s.mem.handles.all fun h => h.kind ≠ 3 || !overlaps p.stripeBase (roundUp64K p.bytes) h.stripeBase h.bytes

/-- Whether a handle may be the plan of a view (R282). -/
def planOk (s : State) (ctx : Nat) (p : AllocP) : Bool :=
  match s.handle p.plan with
  | some h => h.ctx = ctx && h.kind = 0 && tbit h.rights 0 && decide (h.bytes ≤ 2621440)
  | none => false

/-- The lowest free run of 64 counters (R330). -/
def freeCounters (s : State) : Option Nat :=
  ((List.range 1024).map fun i => 0x140000000000 + 512 * i).find? fun a => s.mem.handles.all fun h => h.kind ≠ 2 || h.base ≠ a

/-- The lowest free RoCE window (R267). Log 27: DESIGN CHOICE. -/
def freeWindow (s : State) : Option Nat := (List.range 256).find? fun w => s.mem.windows.all fun x => x.1 ≠ w

/-- The refusal of an ALLOC, if any, before its space is asked for; `members` are those of its sorus, or this package alone. -/
def allocRefusal (s : State) (principal : Nat) (members : List Nat) (p : AllocP) : Option (Nat × Nat) :=
  match s.account p.account with
  | none => some (stBadParam, 0)
  | some a =>
    match ctxRefusal s principal a.ctx with
    | some r => some r
    | none =>
      if p.kind = 1 && modelCode s p.modelId ≠ 0x33 then some (stConflict, modelCode s p.modelId)
      else if (p.kind = 1 && !planOk s a.ctx p) || (p.kind = 3 && (!stripeOk s p || a.tier ≠ 0 || !(stripeMembers p).all members.contains)) then
        some (stBadParam, 0)
      else if a.limit < a.used + regionSize p || (p.kind = 2 && (freeCounters s).isNone) || (allocRoce p && (freeWindow s).isNone) then
        some (stNoResource, 0)
      else none

/-- The handle of an allocation is made and answered (R278, R282, R285, R330, R367). Its contents are undefined; counters are
zero. -/
def makeHandle (ans : Answer) (p : AllocP) (a : Account) (base : Nat) (s : State) : State :=
  let id := s.mem.nextHandle
  let n := regionSize p
  let w := if allocRoce p then freeWindow s else none
  let (k, s) := if allocRoce p then draw s else (0, s)
  let key := if allocRoce p then (Config.drawn k).toNat % 2 ^ 32 else 0
  let (seed, s) := draw s
  let job := ((s.ctx a.ctx).map fun c => c.job).getD 0
  let x : Handle := ⟨id, a.ctx, job, p.kind, if p.kind = 1 then p.rights ||| 3 else p.rights, p.account, a.tier, base,
    if p.kind = 2 then 512 else if p.kind = 1 then 0 else roundUp64K p.bytes, w, key, p.modelId, p.plan, p.stripeBase,
    if p.kind = 3 then stripeMembers p else [], none⟩
  let mem := if n = 0 then s.mem else s.mem.undefine ⟨base, n, seed⟩
  let s := { s with mem := { mem with
    handles := mem.handles ++ [x]
    nextHandle := id + 1
    windows := match w with
      | some w => mem.windows ++ [(w, id)]
      | none => mem.windows } }
  let s := if p.kind = 2 then storeBytes base (List.replicate 512 0#8) s else s
  let s := setAccount p.account (fun a => { a with used := a.used + n }) s
  let addr := if p.kind = 1 then 0 else ownAddr s (if p.kind = 3 then p.stripeBase else base)
  ans stOk 0 (leBytes 4 id ++ leBytes 2 (w.getD 0) ++ leBytes 2 0 ++ leBytes 8 addr ++ leBytes 4 key) s

/-- An allocation whose region is at hand. Log 73: DESIGN CHOICE. -/
def finishAlloc (ans : Answer) (p : AllocP) (base : Nat) (s : State) : State :=
  match s.account p.account with
  | none => ans stBadParam 0 [] s
  | some a =>
    let o : Owner := .handle s.mem.nextHandle
    makeHandle ans p a base (if regionSize p = 0 then s else takeRegion a.tier base (regionSize p) o s)

/-- Where an allocation without a region stands. -/
def allocBase (s : State) (p : AllocP) : Nat := if p.kind = 2 then (freeCounters s).getD 0 else 0

/-- ALLOC outside a sorus (R278, R279). Log 73: DESIGN CHOICE. -/
def allocNow (h : Hdr) (principal : Nat) (p : AllocP) (s : State) : State :=
  match s.account p.account with
  | none => reply h 0x0402 stBadParam 0 [] s
  | some a =>
    if regionSize p = 0 then finishAlloc (answerNow h 0x0402) p (allocBase s p) s
    else
      match demandRoom a.tier (some a.id) (regionSize p) s with
      | .now b s => finishAlloc (answerNow h 0x0402) p b s
      | .later s => waitFor h.session h.tag principal (.alloc p) (accept h 0x0402 [] s)
      | .never => reply h 0x0402 stNoResource 0 [] s

/-- ALLOC (R278, R282, R285, R330). -/
def execAlloc (h : Hdr) (p : AllocP) (s : State) : Host.Outcome State Fault Refusal :=
  hosted (.alloc h p) h ⟨0x0402, roleJobs, if allocRoce p then featRoce else 0⟩
    (fun e s => if allocBad p then some (stBadParam, 0)
      else if h.sorus = 0 then allocRefusal s e.principal [s.boot.pkg] p else none)
    (fun e s => allocNow h e.principal p s) s

/-- The check of ALLOC at prepare: its space is reserved (R279, R378). -/
def allocPrep (principal : Nat) (p : AllocP) : Prep := fun sid k s =>
  match allocRefusal s principal (sorusMembers s sid) p, s.account p.account with
  | some r, _ => (s, some r)
  | none, none => (s, some (stBadParam, 0))
  | none, some a =>
    if regionSize p = 0 then (s, none)
    else
      match demandRoom a.tier (some a.id) (regionSize p) s with
      | .now b s => (takeRegion a.tier b (regionSize p) (.reserved sid k) s, none)
      | .later s => (s, some (stBusy, 0))
      | .never => (s, some (stNoResource, 0))

/-- The commit of ALLOC in phase 3. -/
def allocCommit (ans : Answer) (principal : Nat) (p : AllocP) (sid k : Nat) (s : State) : State :=
  let region := reservedRegion s sid k
  let members := sorusMembers s sid
  let s := dropRegions (fun o => o = .reserved sid k) s
  match allocRefusal s principal members p with
  | some (st, d) => ans st d [] s
  | none =>
    match region with
    | some g => finishAlloc ans p g.base s
    | none => if regionSize p = 0 then finishAlloc ans p (allocBase s p) s else ans stNoResource 0 [] s

/-- Whether a command that waits or runs binds a handle (R280). -/
def handleBound (s : State) (id : Nat) : Bool := s.jobs.cmds.any fun c => c.launch.handles.contains id && !c.phase.over

/-- The refusal of a FREE by the handle's state (R280, R282). -/
def freeConflict (s : State) (id : Nat) : Option (Nat × Nat) :=
  if handleBound s id || (s.handle id).any (fun h => h.move.isSome) || s.mem.handles.any (fun h => h.kind = 1 && h.plan = id) then
    some (stConflict, 0x50)
  else none

/-- A handle that a command names: known, and the principal's own (R359). -/
def handleRanges (id : Nat) (e : Session) (s : State) : Option (Nat × Nat) :=
  if (s.handle id).isNone then some (stBadParam, 0) else if handleDenied s e.principal id then some (stDenied, 0) else none

/-- A handle is freed (R280): its region returns at the next beat boundary, one that has passed to a model at once. -/
def freeHandle (ans : Answer) (id : Nat) (s : State) : State :=
  match s.handle id with
  | none => ans stBadParam 0 [] s
  | some h =>
    match freeConflict s id with
    | some (st, d) => ans st d [] s
    | none =>
      let kept := s.mem.regions.any fun g => g.owner = .handle id
      let n := if h.kind = 0 then h.bytes else if h.kind = 3 then roundUp64K h.span else 0
      let s := if kept then s else setAccount h.account (fun a => { a with used := a.used - n }) s
      let go (g : Region) : Region := { g with owner := .freed h.account, freeAt := some (beatAdd s.now 1) }
      ans stOk 0 [] { s with mem := { s.mem with
        handles := s.mem.handles.filter fun x => x.id ≠ id
        windows := s.mem.windows.filter fun w => w.2 ≠ id
        regions := updBy (fun g => g.owner = .handle id) go s.mem.regions } }

/-- FREE (R280). -/
def execFree (h : Hdr) (handle : Nat) (s : State) : Host.Outcome State Fault Refusal :=
  hosted (.free h handle) h ⟨0x0403, roleJobs, 0⟩ (handleRanges handle) (fun _ s => freeHandle (answerNow h 0x0403) handle s) s

/-- Freed regions whose beat has come return to their accounts and pools (R280). -/
def returnRegions (s : State) : State :=
  let due (g : Region) : Bool := g.freeAt.any fun b => beatLe b s.now
  let s := (s.mem.regions.filter due).foldl (fun s g => match g.owner with
    | .freed a => setAccount a (fun x => { x with used := x.used - g.bytes }) s
    | _ => s) s
  { s with mem := { s.mem with regions := s.mem.regions.filter fun g => !due g } }

/-! ### Limcel's tier moves (R253) -/

/-- The move of a tensor of an ACTIVE model to another tier, its new place still open: a cold expert, or a tensor of an adapter
version; none where it may not move. -/
def limPlace (s : State) (modelId tensor tier : Nat) : Option LimMove :=
  match s.model modelId with
  | none => none
  | some m =>
    let may (p : PlacedTensor) : Bool :=
      p.tensor = tensor && p.tier ≠ tier && p.fresh.isNone && !m.suspects.contains p.base && !movingFrom s p.base
    let cold := decide (((m.manifest.tensors.find? fun t => t.id = tensor).map fun t => t.cls) = some 1)
    if m.state ≠ 3 || 1 < tier then none
    else
      match m.placed.find? fun p => cold && may p with
      | some p => some ⟨modelId, tensor, none, tier, p.base, 0, p.bytes⟩
      | none => (((m.adapters.map fun a => (a.versions.map fun v => (v.placed.filter may).map
          fun p => (⟨modelId, tensor, some (a.slot, v.version), tier, p.base, 0, p.bytes⟩ : LimMove)).flatten).flatten)).head?

/-- LIMCEL_TIER_MOVE (R253, R279): the tiles start on their way, or the demand waits for its space without a limit. -/
def execLimcelTierMove (modelId tensor tier : Nat) (s : State) : Host.Outcome State Fault Refusal :=
  match limPlace s modelId tensor tier with
  | none => .next s
  | some l =>
    if s.mem.demands.any fun d => d.want = .limcelMove modelId tensor tier then .next s
    else
      match demandRoom tier none l.bytes s with
      | .now b s => .next (startLim { l with new := b } s)
      | .later s => .next (waitFor 0 0 0 (.limcelMove modelId tensor tier) s)
      | .never => .next s

/-- A move is given up: the tensor keeps its old place (R275). -/
def dropLim (l : LimMove) (s : State) : State :=
  { s with mem := { s.mem with
      limMoves := s.mem.limMoves.filter fun x => x ≠ l
      regions := s.mem.regions.filter fun g => g.base ≠ l.new } }

/-- Whether the images of a region have the resident digests of a manifest's shards of a tensor (R254). -/
def shardsSound (s : State) (m : Manifest) (tensor base : Nat) : Bool :=
  match m.tensors.find? fun t => t.id = tensor with
  | none => false
  | some t => (m.shards.filter fun x => x.tensor = tensor).all fun x => shardDigest s base t x = x.rdigest

/-- Whether the copy of a move has the resident digest: that of its shards, or of its pointer where learning wrote it (R253, R254).
Log 138: DESIGN CHOICE. -/
def copySound (s : State) (l : LimMove) : Bool :=
  match s.model l.model, l.version with
  | none, _ => false
  | some m, none =>
    if m.shardRegions.any fun p => p.base = l.old then shardsSound s m.manifest l.tensor l.new
    else m.epochs.any fun e => e.table.any fun p => p.addr = l.old && p.rdigest = regionDigest s l.new l.bytes
  | some m, some (slot, v) =>
    ((m.slotOf slot).bind fun a => a.versions.find? fun x => x.version = v).any fun x => shardsSound s x.manifest l.tensor l.new

/-- A tensor that rested at one place rests at another. -/
def restAt (l : LimMove) (ps : List PlacedTensor) : List PlacedTensor :=
  updBy (fun p => p.base = l.old) (fun p => { p with tier := l.tier, base := l.new }) ps

/-- A move is complete (R253, R275): a copy that reads well and verifies is switched in, and the old region stays for the steps pinned
to it; any other move is given up. Logs 138, 143: DESIGN CHOICE. -/
def switchLim (l : LimMove) (s : State) : State :=
  let lives := s.mem.regions.any fun g => g.base = l.old && (match g.owner with
    | .tensor _ _ => true
    | .adapter _ _ _ _ => true
    | _ => false)
  if !lives || s.badAt l.old l.bytes || (s.model l.model).any fun m => m.suspects.contains l.old then dropLim l s
  else
    let t := storeBytes l.new (s.mem.read l.old l.bytes) s
    if !copySound t l then dropLim l t
    else
      let t := { t with mem := { t.mem with limMoves := t.mem.limMoves.filter fun x => x ≠ l } }
      let t := repoint l.model l.old l.new (retireRegion l.old (pinnedCmds t l.model) t)
      match l.version with
      | none => setModel l.model (fun m => { m with placed := restAt l m.placed, origins := restAt l m.origins }) t
      | some (slot, v) => setVersion l.model slot v (fun x => { x with placed := restAt l x.placed }) t

/-- Phase 3: the moves under way are switched in. The time that the tier movers take is not modelled (R253, log 138). -/
def switchLims (s : State) : State := s.mem.limMoves.foldl (fun s l => switchLim l s) s

/-! ### Waiting demands (R279) -/

/-- A waiting demand that can now be met is met. Log 66: DESIGN CHOICE. -/
def retryDemand (d : Demand) (s : State) : State :=
  let gone (s : State) : State := { s with mem := { s.mem with demands := s.mem.demands.filter fun x => x.id ≠ d.id } }
  match d.want with
  | .alloc p =>
    let ans := answerLater d.session d.tag 0x0402
    match allocRefusal s d.principal [s.boot.pkg] p, s.account p.account with
    | some (st, x), _ => ans st x [] (gone s)
    | none, none => ans stBadParam 0 [] (gone s)
    | none, some a =>
      match roomFor s a.tier (some a.id) (regionSize p) with
      | some b => finishAlloc ans p b (gone s)
      | none => s
  | .place m timeout =>
    match placeRefusal s m with
    | some (st, x) => answerLater d.session d.tag (declareOp m) st x [] (gone s)
    | none =>
      match placeAll (ownerFor s m) (placeOrder s m) true s with
      | .done ps s' => takeUp (answerLater d.session d.tag (declareOp m)) m timeout d.principal ps (gone s')
      | _ => s
  | .pauseMove rid =>
    match s.req rid with
    | none => gone s
    | some r =>
      let bytes := (movable s r).length * setSize s r.p.modelId
      if r.state ≠ 5 || r.resumeTo.isSome || bytes = 0 then gone s
      else match roomFor s 1 none bytes with
        | some b => takeRegion 1 b bytes (.paused rid) (gone s)
        | none => s
  | .limcelMove m tensor tier =>
    match limPlace s m tensor tier with
    | none => gone s
    | some l =>
      match roomFor s tier none l.bytes with
      | some b => startLim { l with new := b } (gone s)
      | none => s

/-- Every waiting demand is tried again, oldest first. -/
def retryDemands (s : State) : State := s.mem.demands.foldl (fun s d => retryDemand d s) s

/-! ### TIER_MOVE (R284) -/

/-- A handle changes. -/
def setHandle (id : Nat) (f : Handle → Handle) (s : State) : State :=
  { s with mem := { s.mem with handles := updBy (fun h => h.id = id) f s.mem.handles } }

/-- TIER_MOVE (R284): of a plain allocation to another tier. Log 75: DESIGN CHOICE. -/
def execTierMove (h : Hdr) (handle tier : Nat) (s : State) : Host.Outcome State Fault Refusal :=
  hosted (.tierMove h handle tier) h ⟨0x0405, roleJobs, 0⟩
    (fun e s => match handleRanges handle e s with
      | some r => some r
      | none => badIf (decide (1 < tier) || (s.handle handle).any fun x => x.kind ≠ 0 || x.tier = tier))
    (fun _ s =>
      if (s.handle handle).any fun x => x.move.isSome then reply h 0x0405 stConflict 0x50 [] s
      else accept h 0x0405 [] (setHandle handle (fun x => { x with move := some ⟨tier, none, false, h.session, h.tag, 2 ^ 64⟩ }) s)) s

/-- Whether a running command binds a handle with WRITE (R284). -/
def writersRun (s : State) (id : Nat) : Bool :=
  s.jobs.cmds.any fun c => (c.phase = .running || c.phase = .restarting) &&
    (c.image.handles.zip c.launch.handles).any fun x => x.1.write && x.2 = id

/-- A TIER_MOVE ends without a move: the handle keeps its region (R275, R279). Log 75: DESIGN CHOICE. -/
def dropMove (h : Handle) (m : TierMoveSt) (status : Nat) (s : State) : State :=
  let s := match m.newBase with
    | some b => { s with mem := { s.mem with regions := s.mem.regions.filter fun g => !(g.owner = .handle h.id && g.base = b) } }
    | none => s
  finish m.session m.tag 0x0405 status 0 [] (setHandle h.id (fun x => { x with move := none }) s)

/-- At a beat boundary the region of a move is taken once no writer runs (R279, R284). Log 75: DESIGN CHOICE. -/
def beginMove (h : Handle) (s : State) : State :=
  match h.move with
  | none => s
  | some m =>
    if m.newBase.isSome || writersRun s h.id then s
    else
      let since := min m.since s.beat.elapsed
      match demandRoom m.tier none h.bytes s with
      | .now b s => setHandle h.id (fun x => { x with move := some { m with newBase := some b, since := since } })
          (takeRegion m.tier b h.bytes (.handle h.id) s)
      | .later s => setHandle h.id (fun x => { x with move := some { m with since := since } }) s
      | .never => dropMove h m stNoResource s

/-- Every TIER_MOVE that may begin takes its region. -/
def beginMoves (s : State) : State := s.mem.handles.foldl (fun s h => beginMove h s) s

/-- TIER_MOVE_COPY (R275, R284): the tier movers have copied the region, or met a read that gives no data. -/
def execTierMoveCopy (handle : Nat) (s : State) : Host.Outcome State Fault Refusal :=
  match (s.handle handle).bind fun h => h.move.bind fun m => m.newBase.map fun b => (h, m, b) with
  | none => .next s
  | some (h, m, b) =>
    if m.copied then .next s
    else if s.badAt h.base h.bytes then .next (dropMove h m stInternal (recordInternal 0x0405 m.tag s))
    else .next (setHandle handle (fun x => { x with move := some { m with copied := true } })
      (storeBytes b (s.mem.read h.base h.bytes) s))

/-- Whether a started command that has not retired still holds a region of a handle. -/
def heldBase (s : State) (base : Nat) : Bool :=
  s.jobs.cmds.any fun c => (c.phase = .running || c.phase = .restarting) && c.bases.contains base

/-- The handle points at its new region (R284): the old one stays for the commands that hold it. -/
def switchMove (handle : Nat) (s : State) : State :=
  match (s.handle handle).bind fun h => h.move.bind fun m => m.newBase.map fun b => (h, m, b) with
  | none => s
  | some (h, m, b) =>
    if !m.copied then s
    else
      let old (g : Region) : Bool := g.owner = .handle handle && g.base = h.base
      let regs := if heldBase s h.base then updBy old (fun g => { g with owner := .moving handle }) s.mem.regions
        else s.mem.regions.filter fun g => !old g
      let s := { s with mem := { s.mem with regions := regs } }
      finish m.session m.tag 0x0405 stOk 0 (leBytes 8 s.now) (setHandle handle (fun x => { x with base := b, tier := m.tier, move := none }) s)

/-- TIER_MOVE_SWITCH (R284). -/
def execTierMoveSwitch (handle : Nat) (s : State) : Host.Outcome State Fault Refusal := .next (switchMove handle s)

/-- Phase 3: every complete copy is switched in. -/
def switchMoves (s : State) : State := s.mem.handles.foldl (fun s h => switchMove h.id s) s

/-- Old regions of moved handles fall free with the last command that holds them (R284). -/
def freeMoved (s : State) : State :=
  { s with mem := { s.mem with regions := s.mem.regions.filter fun g => match g.owner with
      | .moving _ => heldBase s g.base
      | _ => true } }

/-- Whether a demand has waited its 100 ms (R279). Log 20: DESIGN CHOICE. -/
def waitOver (s : State) (since : Nat) : Bool := decide (since + 100000 ≤ s.beat.elapsed)

/-- EVICTION_WAIT_TIMEOUT (R279): a demand's 100 ms are over. A TIER_MOVE is named by 2^32 plus its handle. Log 75: DESIGN CHOICE. -/
def execEvictionWaitTimeout (demand : Nat) (s : State) : Host.Outcome State Fault Refusal :=
  if 2 ^ 32 ≤ demand then
    match (s.mem.handles.find? fun x => decide (2 ^ 32 + x.id = demand)).bind fun h => h.move.map fun m => (h, m) with
    | none => .next s
    | some (h, m) => if m.newBase.isSome || !waitOver s m.since then .next s else .next (dropMove h m stBusy s)
  else
    match s.mem.demands.find? fun d => d.id = demand with
    | none => .next s
    | some d =>
      let gone : State := { s with mem := { s.mem with demands := s.mem.demands.filter fun x => x.id ≠ demand } }
      if !waitOver s d.since then .next s
      else
        match d.want with
        | .alloc _ => .next (finish d.session d.tag 0x0402 stBusy 0 []
            { gone with mem := { gone.mem with allocBusy := sat32 (gone.mem.allocBusy + 1) } })
        | .place m _ => .next (finish d.session d.tag (declareOp m) stBusy 0 [] gone)
        | .pauseMove _ => .next (pauseMoveFails gone)
        | .limcelMove _ _ _ => .next s

/-! ### Handles of Limcel (R147, R282) -/

/-- Where a handle that Limcel makes in context 0 stands, and whether it takes a region: the tiles of a resident tensor, a new region, a
KV view over a plan of context 0, or counters; none where there is nothing to stand on. -/
def ownBase (s : State) (kind tier bytes : Nat) (at_ : Option Nat) (modelId plan : Nat) : Option (Nat × Bool) :=
  let resident (a : Nat) : Bool := s.mem.regions.any fun g => decide (g.base ≤ a) && decide (a + bytes ≤ g.base + g.bytes) &&
    (match g.owner with
    | .tensor _ _ => true
    | .adapter _ _ _ _ => true
    | .replica _ _ _ _ => true
    | _ => false)
  let planned := (s.handle plan).any fun h => h.ctx = 0 && h.kind = 0 && decide (h.bytes ≤ 2621440)
  if kind = 0 && decide (0 < bytes) then
    match at_ with
    | some a => if resident a then some (a, false) else none
    | none => if 1 < tier then none else (roomFor s tier none (roundUp64K bytes)).map fun b => (b, true)
  else if kind = 1 && modelCode s modelId = 0x33 && planned then some (0, false)
  else if kind = 2 then (freeCounters s).map fun a => (a, false)
  else none

/-- Limcel makes a handle of context 0, which no account carries, for the programs of serving steps (R147, R282, log 61).
Logs 40, 143: DESIGN CHOICE. -/
def ownHandle (kind rights tier bytes : Nat) (at_ : Option Nat) (modelId plan : Nat) (s : State) : State :=
  match ownBase s kind tier bytes at_ modelId plan with
  | none => s
  | some (base, takes) =>
    let id := s.mem.nextHandle
    let job := ((s.ctx 0).map fun c => c.job).getD 0
    let n := if kind = 2 then 512 else if kind = 1 then 0 else if takes then roundUp64K bytes else bytes
    let (seed, s) := draw s
    let s := if takes then takeRegion tier base n (.handle id) s else s
    let mem := if takes then s.mem.undefine ⟨base, n, seed⟩ else s.mem
    let x : Handle := ⟨id, 0, job, kind, rights % 4 + rights / 8 % 4 * 8, 256, tier, base, n, none, 0, modelId, plan, 0, [], none⟩
    let s := { s with mem := { mem with handles := mem.handles ++ [x], nextHandle := id + 1 } }
    if kind = 2 then storeBytes base (List.replicate 512 0#8) s else s

/-- Limcel gives up a handle of context 0 that nothing binds. Log 61: DESIGN CHOICE. -/
def dropHandle (id : Nat) (s : State) : State :=
  if (s.handle id).any fun h => h.ctx = 0 && (freeConflict s id).isNone then
    { s with mem := { s.mem with
        handles := s.mem.handles.filter fun x => x.id ≠ id
        regions := s.mem.regions.filter fun g => g.owner ≠ .handle id } }
  else s

/-- Limcel writes into a handle of context 0 that has a region of its own: plans, parameters, tables. Log 61: DESIGN CHOICE. -/
def fillHandle (id offset : Nat) (data : List Byte) (s : State) : State :=
  match s.handle id with
  | none => s
  | some h =>
    if h.ctx = 0 && h.kind = 0 && decide (offset + data.length ≤ h.bytes) && s.mem.regions.any (fun g => g.owner = .handle id) then
      applyWrite (h.base + offset) data s
    else s

/-! ### Channels (R270, R271, R273) -/

/-- The channel and row of a block before any displacement. -/
def blockHome (tier b : Nat) : Nat × Nat :=
  if tier = 0 then ((b % 256) ^^^ (b / 2 ^ 8 % 256) ^^^ (b / 2 ^ 16 % 256) ^^^ (b / 2 ^ 24 % 256), b / 256)
  else ((b % 32) ^^^ (b / 2 ^ 5 % 32) ^^^ (b / 2 ^ 10 % 32) ^^^ (b / 2 ^ 15 % 32) ^^^ (b / 2 ^ 20 % 32) ^^^ (b / 2 ^ 25 % 32), b / 32)

/-- The k-th retirement of a tier moves the blocks of its channel, in the order it holds them, over the surviving channels. `held`
counts the blocks of each channel; the place is a channel and the rank of a block in it. `moved` says whether the block of the
address has left a channel that still migrates. -/
def displace (cs : List Channel) (moved : Bool) (k : Nat) (held : List Nat) (place : Nat × Nat) : List Nat × (Nat × Nat) :=
  match cs.findIdx? fun c => c.cstate ≠ 0 && c.zone = k with
  | none => (held, place)
  | some r =>
    let alive := (List.range cs.length).filter fun i => match cs[i]? with
      | some c => c.cstate = 0 || decide (k < c.zone)
      | none => false
    let n := held.getD r 0
    let len := alive.length
    let left := moved || ((cs[r]?).map fun c => c.cstate) ≠ some 1
    if len = 0 then (held, place)
    else
      let dst := alive.getD (place.2 % len) 0
      let place := if place.1 = r && left then (dst, held.getD dst 0 + place.2 / len) else place
      (alive.zipIdx.foldl (fun hs x => updAt x.1 (· + (n + len - 1 - x.2) / len) hs) held, place)

/-- Retirements that a tier can displace (R271). -/
def zonesOf (tier : Nat) : Nat := if tier = 0 then 4 else 1

/-- The channel that now holds the block of an address (R270, R271, R273): while a channel migrates, each of its blocks is where the
migration has it (DESIGN CHOICE, log 136). A retirement beyond the tier's zones displaces nothing. -/
def channelOf (s : State) (tier addr : Nat) : Nat :=
  let cs := if tier = 0 then s.mem.pcs else s.mem.lpchs
  let own := if tier = 0 then 598016 else s.mem.lpWindow / (32 * 4096)
  let block := (addr - tierBase tier) / 4096
  let start := (List.replicate cs.length own, blockHome tier block)
  let moved := Config.blockMoved tier block s.beat.elapsed
  ((List.range (min (zonesOf tier) (retiredChannels cs))).foldl (fun a k => displace cs moved k a.1 a.2) start).2.1

/-- The unit of a tier's channel. -/
def channelUnit (tier n : Nat) : HwUnit := if tier = 0 then .pc n else .lpch n

/-- Whether a local address lies in a tier's window. -/
def inTier (s : State) (tier addr : Nat) : Bool := decide (tier < 2) && decide (tierBase tier ≤ addr) && decide (addr < tierBase tier + poolSize s tier)

/-- MEMORY_CORRECTABLE (R274, R426, R519): corrected in the data and charged to its channel. -/
def execMemoryCorrectable (tier addr : Nat) (hard : Bool) (s : State) : Host.Outcome State Fault Refusal :=
  if inTier s tier addr then
    .next (chargeFinding (channelUnit tier (channelOf s tier addr)) (if hard then .memHard else .memTransient) s)
  else .next s

/-- The first address of the model region that holds an address. -/
def weightRegion (s : State) (addr : Nat) : Option Nat :=
  (s.mem.regions.find? fun g => decide (g.base ≤ addr) && decide (addr < g.base + g.bytes) && (match g.owner with
    | .tensor _ _ => true
    | .adapter _ _ _ _ => true
    | _ => false)).map fun g => g.base

/-- TIER_MOVEs that are copying a region with the address are abandoned with a record (R275, R360). Log 75: DESIGN CHOICE. -/
def dropMovesAt (addr : Nat) (s : State) : State :=
  s.mem.handles.foldl (fun s h => match h.move with
    | some m =>
      if m.newBase.isSome && !m.copied && decide (h.base ≤ addr) && decide (addr < h.base + h.bytes) then
        dropMove h m stInternal (recordInternal 0x0405 m.tag s)
      else s
    | none => s) s

/-- A word of a tier reads as uncorrectable until a write covers it (R275, log 123). -/
def spoilWord (addr : Nat) (s : State) : State :=
  let w := addr / 32 * 32
  if s.mem.bad.contains w then s else { s with mem := { s.mem with bad := s.mem.bad ++ [w] } }

/-- MEMORY_UNCORRECTABLE (R275, R426): every command that waited for the data ends; a read that no command issued ends a
TIER_MOVE; a resident weight region becomes suspect. Log 76: DESIGN CHOICE. -/
def execMemoryUncorrectable (tier addr : Nat) (cmds : List Nat) (s : State) : Host.Outcome State Fault Refusal :=
  if !inTier s tier addr then .next s
  else
    let s := spoilWord addr (chargeFinding (channelUnit tier (channelOf s tier addr)) .memUncorrectable s)
    let at_ (s : State) (id : Nat) : Nat := (((s.cmd id).bind fun c => (c.lists.find? fun l => decide (l.completed < l.count)).map
      fun l => l.code)).getD pkgSource
    let stall (id : Nat) (s : State) : State := match s.cmd id with
      | some c => errorStall c.ctx tier s
      | none => s
    let s := cmds.foldl (fun s id => contextFaultAt id 3 (at_ s id) (stall id s)) s
    let s := if cmds.isEmpty then dropMovesAt addr s else s
    match weightRegion s addr with
    | some b => .next (markSuspect b s)
    | none => .next s

end Sys2Proof.Machine
end

