-- ==== Sys2Proof/Machine/Time.lean ====
section
/-! DEFINITION. The clock: PTP (R342, R442, R469), alignment (R470), holdovers (R471, R472). -/
namespace Sys2Proof.Machine

/-- The stamps of events pass to the PTP timescale once PTP is locked with the counter aligned (R442, R469). -/
def takePtp (s : State) : State :=
  if s.beat.ptpLock && s.beat.aligned && !s.beat.onPtp then
    { s with beat := { s.beat with onPtp := true, ptpBase := s.beat.ptpTime - s.beat.elapsed } }
  else s

/-- PTP lock is lost (R469, R480). -/
def losePtp (s : State) : State :=
  if s.beat.ptpLock then
    { s with beat := { s.beat with ptpLock := false, ptpUnlock := s.beat.ptpUnlock.hit, goodRun := 0, badRun := 0 } }
  else { s with beat := { s.beat with goodRun := 0, badRun := 0 } }

/-- An offset as BEAT.PTP_OFFSET holds it: 32 bits, saturating (R480). -/
def satOffset (n : Int) : Int := max (-2147483648) (min 2147483647 n)

/-- PTP_SYNC (R342, R469): locked after 16 consecutive intervals within 200 ns, unlocked after 4 above 1 µs. -/
def execPtpSync (timeUs : Nat) (offsetNs : Int) (s : State) : Host.Outcome State Fault Refusal :=
  let b := s.beat
  let good := if offsetNs.natAbs ≤ 200 then b.goodRun + 1 else 0
  let bad := if 1000 < offsetNs.natAbs then b.badRun + 1 else 0
  let s := { s with beat := { b with ptpTime := timeUs, syncAt := b.elapsed, ptpOffset := satOffset offsetNs, goodRun := good, badRun := bad } }
  if 4 ≤ bad then .next (losePtp s)
  else if 16 ≤ good then .next (takePtp { s with beat := { s.beat with ptpLock := true } })
  else .next s

/-- PTP_TIMEOUT (R469): no Sync for 3 s. -/
def execPtpTimeout (s : State) : Host.Outcome State Fault Refusal :=
  if s.beat.elapsed < s.beat.syncAt + 3000000 then .next s else .next (losePtp s)

/-! ### BEAT_SET (R470) -/

/-- Whether a command is running or launched, or a sorus but one is open. -/
def clockInUse (s : State) (but : Option Nat) : Bool :=
  (s.jobs.cmds.any fun c => !c.phase.over) || s.sori.sori.any fun x => decide (x.state < 3) && some x.id ≠ but

/-- The refusal of a BEAT_SET, if any (R470, R507). Log 32: DEDUCED. -/
def beatSetRefusal (s : State) (second : Nat) (sorus : Option Nat) : Option (Nat × Nat) :=
  if !s.beat.ptpLock || s.beat.clkHold || decide (250 < s.beat.ptpOffset.natAbs) then some (stConflict, 0x53)
  else if second * 1000000 < s.beat.ptpTime + 2000000 || s.beat.ptpTime + 60000000 < second * 1000000 then some (stBadParam, 0)
  else if s.beat.aligned && clockInUse s sorus then some (stConflict, 0x50)
  else if s.beat.setPending.isSome then some (stBusy, 0)
  else none

/-- A BEAT_SET waits for the edge nearest its second. Log 32: DEDUCED. -/
def awaitEdge (session tag second : Nat) (s : State) : State :=
  { s with beat := { s.beat with setPending := some ⟨second, session, tag⟩ } }

/-- BEAT_SET (R470). -/
def execBeatSet (h : Hdr) (second : Nat) (s : State) : Host.Outcome State Fault Refusal :=
  hosted (.beatSet h second) h ⟨0x0506, roleOperate, 0⟩ noRanges
    (fun _ s =>
      match beatSetRefusal s second none with
      | some (st, d) => reply h 0x0506 st d [] s
      | none => awaitEdge h.session h.tag second (accept h 0x0506 [] s)) s

/-- At the edge nearest PTP time S the counter takes S × 10^6 modulo 2^48 (R470). Log 32: DEDUCED. -/
def alignNow (s : State) : State :=
  match s.beat.setPending with
  | none => s
  | some p =>
    if s.beat.ptpTime < p.second * 1000000 then s
    else
      let v := p.second * 1000000 % 2 ^ 48
      let s := takePtp { s with beat := { s.beat with count := v, aligned := true, setPending := none } }
      finish p.session p.tag 0x0506 stOk 0 (leBytes 8 v) s

/-! ### Holdovers (R471, R472) -/

/-- A holdover is recorded: input 0 BEAT_MARK, 1 BEAT_CLK (R451). Log 32: DEDUCED. -/
def recordHoldover (input : Nat) (s : State) : State := record 0x0504 4 pkgSource (leBytes 1 input ++ leBytes 8 s.now) s

/-- BEAT_MARK_LOSS (R471). -/
def execBeatMarkLoss (s : State) : Host.Outcome State Fault Refusal :=
  if s.beat.markHold then .next s
  else .next (recordHoldover 0 { s with beat := { s.beat with markHold := true, markLost := s.beat.markLost.hit } })

/-- BEAT_MARK_RECOVER (R471): 16 consecutive edges, each within a cycle. -/
def execBeatMarkRecover (s : State) : Host.Outcome State Fault Refusal := .next { s with beat := { s.beat with markHold := false } }

/-- Global operations in progress here fail as the package leaves them (R309, R311). -/
def leaveOps (s : State) : State := s.fab.ops.foldl (fun s o => failOp o.id true s) s

/-- BEAT_CLK_LOSS (R309, R472): the package leaves global operations. -/
def execBeatClkLoss (s : State) : Host.Outcome State Fault Refusal :=
  if s.beat.clkHold then .next s
  else .next (leaveOps (recordHoldover 1 { s with beat := { s.beat with clkHold := true, clkLost := s.beat.clkLost.hit } }))

/-- The correction from one beat number to another, the shorter way round (R472). -/
def slipFrom (old new : Nat) : Int :=
  let d := beatSpan old new
  if d < 2 ^ 47 then d else (d : Int) - 2 ^ 48

/-- BEAT_CLK_RECOVER (R472): with PTP locked an aligned counter takes the edge's number; what was scheduled for skipped beats
comes at the next beat, since every phase compares beats in serial order. Log 32: DEDUCED. -/
def execBeatClkRecover (edgeBeat : Nat) (s : State) : Host.Outcome State Fault Refusal :=
  if !s.beat.clkHold then .next s
  else
    let s := { s with beat := { s.beat with clkHold := false } }
    if s.beat.ptpLock && s.beat.aligned then
      let d := slipFrom s.beat.count (edgeBeat % 2 ^ 48)
      .next { s with beat := { s.beat with
        count := edgeBeat % 2 ^ 48, slip := d, slipFlag := if d = 0 then s.beat.slipFlag else s.beat.slipFlag.hit } }
    else .next s

end Sys2Proof.Machine
end

