-- ==== Sys2Proof/Machine/Regs.lean ====
section
/-! DEFINITION. The register file (chapter 19, and the register tables of chapters 10 to 18): the live value of every
word, latched HI words, reads by Ialux and I3C, writes by access type and range. -/
namespace Sys2Proof.Machine

/-- An integer in two's complement. -/
def twos (bits : Nat) (i : Int) : Nat := (i % (2 ^ bits : Int)).toNat

/-- A flag word: flags from bit 31 down. -/
def flagWord (fs : List Flag) : Nat := go fs 31
where
  go : List Flag → Nat → Nat
    | [], _ => 0
    | f :: fs, b => f.bit * 2 ^ b + go fs (b - 1)

/-- The word of a table at an offset; none beyond its end. -/
def tableWord (ws : List Nat) (o : Nat) : Option Nat := ws[o / 4]?

/-- The ID block (R486). -/
def idWord (s : State) (o : Nat) : Option Nat :=
  tableWord [0x5D0ADD01, 2 ^ 24 + s.boot.stepping % 2 ^ 16, s.flash.serial % 2 ^ 32, s.flash.serial / 2 ^ 32 % 2 ^ 32,
    bit s.boot.pkgValid * 2 ^ 16 + s.pins.slotId % 2 ^ 8 * 2 ^ 8 + s.boot.pkg, leAt s.boot.lcHeader 8 4,
    leAt s.boot.s1Header 8 4, s.boot.configVersion, s.boot.lpDensity * 2 ^ 24, s.mem.lpWindow / 4096] o

/-- Whether the record in effect enables MACsec on a port (R341, R487). -/
def macsecOn (s : State) (port : Nat) : Bool :=
  match s.flash.install with
  | some r => s.boot.pkgValid && r.macsec.getD port false
  | none => false

/-- The GSTAT block (R479, R487). -/
def gstatWord (s : State) (o : Nat) : Option Nat :=
  if o = 0x000 then
    some (s.boot.stage * 2 ^ 28 + s.boot.error * 2 ^ 24 + s.boot.resetKind * 2 ^ 22 + s.boot.s1Slot * 2 ^ 21 +
      s.boot.lcSlot * 2 ^ 20 + bit s.flash.staged * 2 ^ 19 + bit (s.boot.macsecWait.any id) * 2 ^ 18)
  else if o = 0x010 then
    some (bit (s.net.ethUp.getD 0 false) * 2 ^ 31 + bit (s.net.ethUp.getD 1 false) * 2 ^ 30 + bit (macsecOn s 0) * 2 ^ 29 +
      bit (macsecOn s 1) * 2 ^ 28 + s.net.failover.bit * 2 ^ 27 + s.net.failover.count)
  else if 0x020 ≤ o && decide (o < 0x03C) then s.net.discards[(o - 0x020) / 4]?
  else if o = 0x040 then some s.sori.doubtBeats
  else if o = 0x044 then some s.sori.doubtSori
  else if o = 0x100 then some (s.boot.mboxStatus * 2 ^ 24)
  else if 0x140 ≤ o && decide (o < 0x180) then some 0
  else none

/-- The BEAT block (R480). -/
def beatWord (s : State) (o : Nat) : Option Nat :=
  let b := s.beat
  if o = 0x00 then some (b.count % 2 ^ 32)
  else if o = 0x04 then some (b.count / 2 ^ 32 % 2 ^ 16)
  else if o = 0x08 then some (bit b.aligned * 2 ^ 31 + bit b.ptpLock * 2 ^ 30 + bit b.markHold * 2 ^ 29 + bit b.clkHold * 2 ^ 28)
  else if o = 0x10 then some (flagWord [b.markLost, b.clkLost, b.slipFlag, b.ptpUnlock])
  else if o = 0x14 then some (b.markLost.count * 2 ^ 16 + b.clkLost.count)
  else if o = 0x18 then some (b.slipFlag.count * 2 ^ 16 + b.ptpUnlock.count)
  else if o = 0x20 then some (twos 32 b.slip)
  else if o = 0x24 then some (twos 32 (max (-2 ^ 31) (min (2 ^ 31 - 1) b.ptpOffset)))
  else none

/-- The slowest of the cap, thermal and trip ceilings (R424). -/
def slowestCeiling (s : State) : Nat := max s.pwr.capCeil (max (s.thm.ceiling.getD 0) (if s.pwr.tripUntil.isSome then 8 else 0))

/-- The PWR block (R424). -/
def pwrWord (s : State) (o : Nat) : Option Nat :=
  let p := s.pwr
  if o = 0x00 then some p.cap
  else if o = 0x04 then
    some (p.levelC * 2 ^ 28 + p.levelD * 2 ^ 24 + slowestCeiling s * 2 ^ 20 + p.duty * 2 ^ 16 + bit p.unattainable * 2 ^ 15 +
      bit p.suspect * 2 ^ 14 + bit p.tripUntil.isSome * 2 ^ 13 + bit (s.thm.ceiling.isSome || decide (s.thm.duty < 8)) * 2 ^ 12)
  else if o = 0x08 then some (p.floor % 2 ^ 16 * 2 ^ 16 + p.mean % 2 ^ 16)
  else if o = 0x0C then some (p.reqC * 2 ^ 28 + p.reqD * 2 ^ 24)
  else if o = 0x10 then some (flagWord [p.trip, p.disagree, p.hintDrop, p.raiseFail])
  else if o = 0x14 then some (p.trip.count * 2 ^ 16 + p.disagree.count)
  else if o = 0x18 then some (p.hintDrop.count * 2 ^ 16 + p.raiseFail.count)
  else if o = 0x1C then some (p.gap % 2 ^ 16)
  else if o = 0x20 then some (p.estimate % 2 ^ 16 * 2 ^ 16 + p.measured % 2 ^ 16)
  else if o = 0x24 then some p.limited
  else if o = 0x28 then some p.paced
  else if o = 0x2C then some p.paceWait
  else if 0x100 ≤ o && decide (o < 0x200) then
    let e := p.energy.getD ((o - 0x100) / 8) 0
    some (if o % 8 = 0 then e % 2 ^ 32 else e / 2 ^ 32 % 2 ^ 32)
  else none

/-- The THM block (R425). -/
def thmWord (s : State) (o : Nat) : Option Nat :=
  if o = 0x00 then some s.thm.limit
  else if o = 0x04 then some (s.thm.hit.bit * 2 ^ 31 + s.thm.hit.count)
  else if 0x10 ≤ o && decide (o < 0x2C) then
    let d := (o - 0x10) / 4
    some (twos 8 (s.thm.peak.getD d 0) * 2 ^ 8 + twos 8 (s.thm.hottest.getD d 0))
  else none

/-- The HLTH block (R440). -/
def hlthWord (s : State) (o : Nat) : Option Nat :=
  let h := s.hlth
  if o = 0x00 then some h.state
  else if o = 0x04 then some h.reason
  else if o = 0x08 then some (flagWord [h.stateChange, h.suspectFlag, h.retiredFlag, h.exoneratedFlag])
  else if o = 0x0C then some (h.stateChange.count * 2 ^ 16 + h.suspectFlag.count)
  else if o = 0x10 then some (h.retiredFlag.count * 2 ^ 16 + h.exoneratedFlag.count)
  else if o = 0x20 then some (sparesOf s % 2 ^ 32)
  else if o = 0x24 then some (sparesOf s / 2 ^ 32)
  else if 0x100 ≤ o && decide (o < 0x190) then
    let k := h.classes.getD ((o - 0x100) / 16) ⟨0, 0, 0, 0, 0, 0⟩
    let w := o % 16
    if 0x180 ≤ o && decide (w < 8) then none
    else some (if w = 0 then k.threshold else if w = 4 then k.leakMs else if w = 8 then k.retired else k.exonerated)
  else none

/-- The RIME block (R452). -/
def rimeWord (s : State) (o : Nat) : Option Nat :=
  let r := s.rime
  if o = 0x00 then some (bit r.freeze.isSome * 2 ^ 31 + bit r.keepFull * 2 ^ 30 + r.holding.length)
  else if o = 0x04 then some r.next
  else if o = 0x08 then some r.lost
  else if o = 0x10 then some (flagWord [r.overflow, r.mirrorFail])
  else if o = 0x14 then some (r.overflow.count * 2 ^ 16 + r.mirrorFail.count)
  else none

/-- The FAB.LINK entry of a port (R308). -/
def linkWord (l : Link) (w : Nat) : Option Nat :=
  tableWord [l.state * 2 ^ 28 + l.width * 2 ^ 24 + l.peerPkg * 2 ^ 16 + l.peerPort * 2 ^ 8 + l.version * 2 ^ 4 +
      bit l.spareUsed * 2 ^ 3 + l.mismatch.bit * 2 ^ 2,
    l.downCount * 2 ^ 16 + l.mismatch.count, l.ownerWait, l.transitMb] w

/-- The highest bucket level among a bridge's lanes (R489). -/
def bridgeLevel (b : Bridge) : Nat := b.lanes.foldl (fun n x => max n x.2.level) 0

/-- The FAB block (R308, R338, R489). -/
def fabWord (s : State) (o : Nat) : Option Nat :=
  let f := s.fab
  if o = 0x10 then some f.ownerPct
  else if o = 0x20 then some f.timeout
  else if 0x40 ≤ o && decide (o < 0x60) then
    tableWord [f.updates / 1000 % 2 ^ 32, f.folded, f.creditWait, f.aged, f.rrcHits, f.rrcMisses, f.rrcInval, f.txnNot] (o - 0x40)
  else if 0x60 ≤ o && decide (o < 0x6C) then tableWord [f.badEntries, f.detours, f.unreachable.length] (o - 0x60)
  else if 0x100 ≤ o && decide (o < 0x400) then
    match s.link ((o - 0x100) / 0x20) with
    | some l => linkWord l (o % 0x20)
    | none => none
  else if 0x400 ≤ o && decide (o < 0xA00) then
    match s.link ((o - 0x400) / 0x40) with
    | some l => (l.lanes[o % 0x40 / 4]?).map fun x => x.lstate * 2 ^ 30 + bit x.marked * 2 ^ 29 + x.level
    | none => none
  else if 0xA00 ≤ o && decide (o < 0xAE0) then
    match f.bridges[(o - 0xA00) / 16]? with
    | some b => tableWord [bit b.full * 2 ^ 31 + b.repaired % 2 ^ 8 * 2 ^ 16 + bridgeLevel b, b.crc, b.repairs, 0] (o % 16)
    | none => none
  else none

/-- One channel word (R488). -/
def channelWord (c : Channel) : Nat := c.cstate * 2 ^ 30 + c.zone % 4 * 2 ^ 28 + c.level

/-- A context by its number, or what a destroyed one has left of its counts (R287, R401). -/
def State.counted (s : State) (n : Nat) : Option Ctx := (s.ctx n).or (s.jobs.freed.find? fun x => x.num = n)

/-- One MEM.STALL word of a context (R287). -/
def stallWord (s : State) (o : Nat) : Option Nat :=
  let i := o % 0x80 / 0x10
  if 6 ≤ i then none
  else
    let e : Option Stall := match s.counted (o / 0x80) with
      | some c => c.stalls.find? fun e => e.tier = i / 3 && e.cause = i % 3
      | none => none
    let beats := (e.map fun e => e.beats).getD 0
    tableWord [beats % 2 ^ 32, beats / 2 ^ 32 % 2 ^ 16, (e.map fun e => e.episodes).getD 0, 0] (o % 0x10)

/-- The MEM block (R287, R488). Log 139: DESIGN CHOICE. -/
def memWord (s : State) (o : Nat) : Option Nat :=
  let m := s.mem
  if o < 0x10 then tableWord [m.scrubInterval, m.passes, m.cleared, m.suspect] o
  else if 0x40 ≤ o && decide (o < 0x60) then
    let e := if o < 0x50 then m.eccHbm else m.eccLp
    tableWord [flagWord [e.transient, e.hard, e.ue], e.transient.count * 2 ^ 16 + e.hard.count, e.ue.count * 2 ^ 16, 0] (o % 16)
  else if 0x80 ≤ o && decide (o < 0x90) then tableWord [m.evictHbm, m.evictLp, m.allocBusy, m.pauseInHbm] (o - 0x80)
  else if 0x100 ≤ o && decide (o < 0x140) then
    match m.caches[(o - 0x100) / 16]? with
    | some c => tableWord [c.hits, c.misses, c.removed, 0] (o % 16)
    | none => none
  else if 0x400 ≤ o && decide (o < 0x800) then (m.pcs[(o - 0x400) / 4]?).map channelWord
  else if 0x800 ≤ o && decide (o < 0x880) then (m.lpchs[(o - 0x800) / 4]?).map channelWord
  else if 0x1000 ≤ o && decide (o < 0x3000) then stallWord s ((o / 0x1000 - 1) * 0x1000 + o % 0x1000)
  else none

/-- The context words of CTX (R401). A FREE context shows the reset values, but for the counts, which restart at its creation.
Logs 28, 139: DESIGN CHOICE. -/
def ctxWord (s : State) (n w : Nat) : Option Nat :=
  match s.counted n with
  | none => if w < 0x40 then some (if w = 8 then 100000 else 0) else none
  | some c =>
    let live (k : Nat) : Nat := if (s.ctx n).isSome then k else 0
    tableWord [live ((if c.torn then 2 else 1) * 2 ^ 30 + c.job * 2 ^ 8 + bit c.persist), live c.principal,
      if (s.ctx n).isSome then c.wdog else 100000,
      c.faulted.bit * 2 ^ 31 + c.faulted.count, c.cause * 2 ^ 28 + c.faultSeq * 2 ^ 12 + c.faultSource, c.faultMark,
      c.lateCommits, c.hotSteps, c.epochDrops, c.snapWaits, c.slowdown * 2 ^ 16 + c.covered, c.claimWait, c.transitWait,
      c.paceWait, c.windowBeat % 2 ^ 32, 0] w

/-- The queue words of CTX (R402). DEPTH counts the launched commands not started. Log 29: DESIGN CHOICE. -/
def queueWord (s : State) (n q w : Nat) : Option Nat :=
  match (s.ctx n).bind fun c => c.queue q with
  | none => tableWord [0, 0, 0, 0] w
  | some e =>
    let depth := (s.jobs.cmds.filter fun c => c.ctx = n && c.queue = q && c.kind ≠ .copy && c.phase = .waiting).length
    tableWord [(0x5C - e.state) * 2 ^ 30 + e.cls * 2 ^ 29 + e.priority * 2 ^ 26 + depth % 2 ^ 8, e.grants,
      e.heldSince % 2 ^ 32, e.started] w

/-- An accounting slot (R403). -/
def acctWord (a : Acct) (w : Nat) : Option Nat :=
  tableWord ([a.principal] ++ (List.range 16).map (fun k => a.hist.getD k 0) ++
    [a.wait % 2 ^ 32, a.wait / 2 ^ 32 % 2 ^ 16, a.preempts, a.bulkStarted, a.bulkRetired]) w

/-- The CTX block (R401 to R403). -/
def ctxBlockWord (s : State) (o : Nat) : Option Nat :=
  if o < 0x8000 then
    let n := o / 0x200
    let w := o % 0x200
    if w < 0x100 then ctxWord s n w else queueWord s n ((w - 0x100) / 16) (w % 16)
  else if o < 0xC000 then acctWord (s.jobs.acct.getD (o % 0x4000 / 0x100) Acct.empty) (o % 0x100)
  else if o = 0xFF00 then some s.jobs.ageBeats
  else none

/-- Die, letter and number of an STN entry (R490); none where there is none. -/
def stnIndex (i : Nat) : Option (Nat × Nat × Nat) :=
  let d := i / 128
  let k := i % 128 / 32
  let n := i % 32
  let l := if k = 3 then 7 else if d = 6 then 3 + k else k
  if d < 7 && decide (n < (if k = 3 then 1 else stationCount d l)) then some (d, l, n) else none

/-- The running or held command that claims a station's silicon (R144). -/
def claimant (s : State) (code : Nat) : Option Cmd :=
  s.jobs.cmds.find? fun c => (c.phase = .running || c.phase = .retired || c.phase = .restarting) && (claimsOf s c.image).contains code

/-- The station entry's words (R490, R491). -/
def stnWord (s : State) (e : StnSt) (w : Nat) : Option Nat :=
  let cl := claimant s (sourceCode e.die e.letter e.num)
  let n0 := e.names[0]?
  let n1 := e.names[1]?
  tableWord [e.state * 2 ^ 30 + bit cl.isSome * 2 ^ 29 + bit e.marked * 2 ^ 28 + ((cl.map fun c => c.ctx).getD 0) * 2 ^ 22 +
      bit n1.isSome * 2 ^ 21 + n1.getD 0 * 2 ^ 15 + bit n0.isSome * 2 ^ 14 + n0.getD 0 * 2 ^ 8,
    e.level, flagWord [e.mismatch, e.eccCe, e.eccUe], e.mismatch.count * 2 ^ 16 + e.eccCe.count, e.eccUe.count * 2 ^ 16,
    e.saturated, e.nanOut, e.stall0, e.stall1, e.starve0, e.starve1, e.starve2, e.roleA, e.roleB, e.roleC, e.descs] w

/-- The STN block (R490). -/
def stnBlockWord (s : State) (o : Nat) : Option Nat :=
  match stnIndex (o / 0x40) with
  | none => none
  | some (d, l, n) => (stnOf s d l n).bind fun e => stnWord s e (o % 0x40)

/-- The FROND block (R492). -/
def frondWord (s : State) (o : Nat) : Option Nat :=
  let i := o / 16
  match s.stns.cfg.find? fun c => c.die = i / 32 && c.num = i % 32 with
  | none => none
  | some c => tableWord [c.loadMode, bit c.unbound * 2 ^ 31 + c.runMode * 2 ^ 30 + c.phys, 0, 0] (o % 16)

/-- The live value of the register word at an offset from the CSR base; none where there is no register (R481). -/
def regLive (s : State) (o : Nat) : Option Nat :=
  if o % 4 ≠ 0 then none
  else if o < 0x1000 then idWord s o
  else if o < 0x2000 then gstatWord s (o % 0x1000)
  else if o < 0x3000 then beatWord s (o % 0x1000)
  else if o < 0x10000 then none
  else if o < 0x11000 then pwrWord s (o % 0x1000)
  else if o < 0x12000 then thmWord s (o % 0x1000)
  else if o < 0x20000 then none
  else if o < 0x21000 then hlthWord s (o % 0x1000)
  else if o < 0x22000 then rimeWord s (o % 0x1000)
  else if o < 0x30000 then none
  else if o < 0x31000 then fabWord s (o % 0x1000)
  else if o < 0x40000 then none
  else if o < 0x50000 then memWord s (o % 0x10000)
  else if o < 0x60000 then ctxBlockWord s (o % 0x10000)
  else if o < 0x70000 then stnBlockWord s (o % 0x10000)
  else if o < 0x80000 then frondWord s (o % 0x10000)
  else none

/-! ### Reads -/

/-- Whether an offset is the LO word of a value that spans two words; its HI word lies 4 above (R482). -/
def isLo (o : Nat) : Bool :=
  o = 0x8 || o = 0x2000 || (decide (0x10100 ≤ o) && decide (o < 0x10200) && o % 8 = 0) ||
    (decide (0x41000 ≤ o) && decide (o < 0x43000) && o % 16 = 0 && decide (o % 0x80 < 0x60)) ||
    (decide (0x58000 ≤ o) && decide (o < 0x5C000) && o % 0x100 = 0x44)

/-- The value a requester reads: a HI word it has latched, otherwise the live value (R482). -/
def regSeen (s : State) (requester o : Nat) : Option Nat :=
  match s.net.latches.find? fun l => l.requester = requester && l.offset = o with
  | some l => some l.value
  | none => regLive s o

/-- The latches that a requester's read of an offset leaves: a LO word latches its HI word (R482). Log 28: DESIGN CHOICE. -/
def latchRead (requester o : Nat) (s : State) : State :=
  if isLo o then
    match regLive s (o + 4) with
    | none => s
    | some v =>
      { s with net := { s.net with
          latches := ⟨requester, o + 4, v⟩ :: s.net.latches.filter fun l => !(l.requester = requester && l.offset = o + 4) } }
  else s

/-- What a read of an offset does besides: a LO word latches, and HLTH.STATE releases ALERT_L (R438, R482). -/
def readEffect (requester o : Nat) (s : State) : State :=
  let s := latchRead requester o s
  if o = 0x20000 then { s with pins := { s.pins with alert := false } } else s

/-- Consecutive words as a requester reads them, from offset `o`. Log 28: DESIGN CHOICE. -/
def readWords (requester o count : Nat) (s : State) : List (Option Nat) × State :=
  let offs := (List.range count).map fun k => o + 4 * k
  let s' := offs.foldl (fun s x => readEffect requester x s) s
  (offs.map fun x => if isLo (x - 4) && decide (o ≤ x - 4) && decide (4 ≤ x) then regLive s x else regSeen s requester x, s')

/-- REG_READ (R371, R481 to R483): every word exists, else ST_BAD_PARAM. -/
def execRegRead (h : Hdr) (offset count : Nat) (s : State) : Host.Outcome State Fault Refusal :=
  hosted (.regRead h offset count) h ⟨0x0801, 0, 0⟩
    (fun _ s => badIf (count = 0 || decide (256 < count) ||
      ((List.range count).any fun k => (regLive s (offset + 4 * k)).isNone)))
    (fun _ s =>
      let (ws, s') := readWords h.session offset count s
      replyOk h 0x0801 ((ws.map fun w => leBytes 4 (w.getD 0)).flatten) s') s

/-- LATCHED_READ (R482). -/
def execLatchedRead (requester offset : Nat) (s : State) : Host.Outcome State Fault Refusal := .next (latchRead requester offset s)

/-- HLTH_STATE_READ (R438): ALERT_L is released. -/
def execHlthStateRead (requester : Nat) (s : State) : Host.Outcome State Fault Refusal :=
  .next (readEffect requester 0x20000 s)

/-- Whether I3C reads the block an offset lies in (R477, R481). -/
def i3cSees (o : Nat) : Bool :=
  decide (o < 0x3000) || (decide (0x10000 ≤ o) && decide (o < 0x12000)) || (decide (0x20000 ≤ o) && decide (o < 0x21000))

/-- I3C_OFFSET_WRITE (R477): the reads that follow return consecutive words; any other offset reads zero. -/
def execI3cOffsetWrite (offset count : Nat) (s : State) : Host.Outcome State Fault Refusal :=
  let (ws, s') := readWords 0 offset count s
  let seen := (List.range count).zip ws |>.map fun x =>
    if i3cSees (offset + 4 * x.1) then BitVec.ofNat 32 (x.2.getD 0) else 0#32
  .next (emit (.i3c seen) s')

/-! ### Writes -/

/-- A word with the bits of a mask replaced (R483). -/
def merged (old : Nat) (value mask : Word) : Nat := ((BitVec.ofNat 32 old &&& ~~~mask) ||| (value &&& mask)).toNat

/-- Ranges of HLTH.CLASS (R426): least and greatest THRESHOLD and LEAK_MS. -/
def classRanges (c : Nat) : (Nat × Nat) × (Nat × Nat) :=
  if c < 3 then ((16, 1024), (1000, 3600000))
  else if c < 5 then ((64, 4096), (1000, 600000))
  else if c < 7 then ((8, 1024), (10, 10000))
  else ((16, 1024), (1000, 3600000))

/-- A field of a state in a range, or no write at all (R19). -/
def ranged (n lo hi : Nat) (s : State) : Option State := if lo ≤ n && decide (n ≤ hi) then some s else none

/-- A write of HLTH.CLASS (R426, R428). Log 28: DESIGN CHOICE. -/
def writeClass (o : Nat) (value mask : Word) (s : State) : Option State :=
  let c := (o % 0x1000 - 0x100) / 16
  let k := s.hlth.classes.getD c ⟨0, 0, 0, 0, 0, 0⟩
  let (t, l) := classRanges c
  if o % 16 = 0 then
    let n := merged k.threshold value mask % 2 ^ 16
    ranged n t.1 t.2 (setClass c (fun k => { k with threshold := n }) s)
  else if o % 16 = 4 then
    let n := merged k.leakMs value mask
    ranged n l.1 l.2 (setClass c (fun k => { k with leakMs := n }) s)
  else some s

/-- The w1c flags of BEAT, GSTAT, PWR and THM (R424, R425, R480, R487): the bits of `b` that are 1 clear. -/
def clearHubFlags (o b : Nat) (s : State) : State :=
  let t (i : Nat) : Bool := tbit b i
  if o = 0x1010 then { s with net := { s.net with failover := s.net.failover.w1c (t 27) } }
  else if o = 0x2010 then
    { s with beat := { s.beat with
        markLost := s.beat.markLost.w1c (t 31)
        clkLost := s.beat.clkLost.w1c (t 30)
        slipFlag := s.beat.slipFlag.w1c (t 29)
        ptpUnlock := s.beat.ptpUnlock.w1c (t 28) } }
  else if o = 0x10010 then
    { s with pwr := { s.pwr with
        trip := s.pwr.trip.w1c (t 31)
        disagree := s.pwr.disagree.w1c (t 30)
        hintDrop := s.pwr.hintDrop.w1c (t 29)
        raiseFail := s.pwr.raiseFail.w1c (t 28) } }
  else if o = 0x11004 then { s with thm := { s.thm with hit := s.thm.hit.w1c (t 31) } }
  else s

/-- The w1c flags of HLTH, RIME, FAB, MEM, CTX and STN (R308, R401, R440, R452, R488, R490). -/
def clearFlags (o b : Nat) (s : State) : State :=
  let t (i : Nat) : Bool := tbit b i
  let ecc (e : Ecc) : Ecc := ⟨e.transient.w1c (t 31), e.hard.w1c (t 30), e.ue.w1c (t 29)⟩
  if o = 0x20008 then
    { s with hlth := { s.hlth with
        stateChange := s.hlth.stateChange.w1c (t 31)
        suspectFlag := s.hlth.suspectFlag.w1c (t 30)
        retiredFlag := s.hlth.retiredFlag.w1c (t 29)
        exoneratedFlag := s.hlth.exoneratedFlag.w1c (t 28) } }
  else if o = 0x21010 then
    { s with rime := { s.rime with overflow := s.rime.overflow.w1c (t 31), mirrorFail := s.rime.mirrorFail.w1c (t 30) } }
  else if 0x30100 ≤ o && decide (o < 0x30400) then
    if o % 0x20 = 0 then setLink ((o % 0x1000 - 0x100) / 0x20) (fun l => { l with mismatch := l.mismatch.w1c (t 2) }) s else s
  else if o = 0x40040 then { s with mem := { s.mem with eccHbm := ecc s.mem.eccHbm } }
  else if o = 0x40050 then { s with mem := { s.mem with eccLp := ecc s.mem.eccLp } }
  else if 0x50000 ≤ o && decide (o < 0x58000) then
    let n := o % 0x10000 / 0x200
    let clear (c : Ctx) : Ctx := { c with faulted := c.faulted.w1c (t 31) }
    if o % 0x200 = 0x0C then
      let s := setCtx n clear s
      { s with jobs := { s.jobs with freed := updBy (fun c => c.num = n) clear s.jobs.freed } }
    else s
  else if 0x60000 ≤ o && decide (o < 0x70000) then
    match stnIndex (o % 0x10000 / 0x40) with
    | none => s
    | some (d, l, n) =>
      if o % 0x40 = 8 then
        setStn d l n (fun e => { e with
          mismatch := e.mismatch.w1c (t 31)
          eccCe := e.eccCe.w1c (t 30)
          eccUe := e.eccUe.w1c (t 29) }) s
      else s
  else clearHubFlags o b s

/-- LOAD_MODE of a Frond name (R70, R492). -/
def setLoadMode (die num mode : Nat) (s : State) : State :=
  { s with stns := { s.stns with
      cfg := updBy (fun c => c.die = die && c.num = num) (fun c => { c with loadMode := mode }) s.stns.cfg } }

/-- A write of the bits of a mask to the word at an offset, by its access type (R16, R17); none when a field would leave
its range (R19). Limcel's writes reach PWR.REQ (R424). -/
def writeReg (limcel : Bool) (o : Nat) (value mask : Word) (s : State) : Option State :=
  if o = 0x10000 then
    let n := merged s.pwr.cap value mask % 2 ^ 12
    ranged n 300 2000 { s with pwr := { s.pwr with cap := n } }
  else if o = 0x1000C then
    if limcel then
      let n := merged (s.pwr.reqC * 2 ^ 28 + s.pwr.reqD * 2 ^ 24) value mask
      if field n 31 28 ≤ 8 && decide (field n 27 24 ≤ 8) then
        some { s with pwr := { s.pwr with reqC := field n 31 28, reqD := field n 27 24 } }
      else none
    else some s
  else if o = 0x11000 then
    let n := merged s.thm.limit value mask % 2 ^ 8
    ranged n 85 105 { s with thm := { s.thm with limit := n } }
  else if 0x20100 ≤ o && decide (o < 0x20180) then writeClass o value mask s
  else if o = 0x30010 then
    let n := merged s.fab.ownerPct value mask % 2 ^ 8
    ranged n 10 90 { s with fab := { s.fab with ownerPct := n } }
  else if o = 0x30020 then
    let n := merged s.fab.timeout value mask
    ranged n 600 1000000 { s with fab := { s.fab with timeout := n } }
  else if o = 0x40000 then
    let n := merged s.mem.scrubInterval value mask % 2 ^ 8
    ranged n 1 168 { s with mem := { s.mem with scrubInterval := n } }
  else if o = 0x5FF00 then
    let n := merged s.jobs.ageBeats value mask
    ranged n 100 1000000 { s with jobs := { s.jobs with ageBeats := n } }
  else if 0x70000 ≤ o && decide (o < 0x80000) then
    let i := o % 0x10000 / 16
    if o % 16 = 0 then
      match s.stns.cfg.find? fun c => c.die = i / 32 && c.num = i % 32 with
      | some c => some (setLoadMode c.die c.num (merged c.loadMode value mask % 2) s)
      | none => some s
    else some s
  else some (clearFlags o (value &&& mask).toNat s)

/-- Whether an offset is a word of the mailbox (R479). -/
def mailboxWord (o : Nat) : Bool := o = 0x1100 || (decide (0x1140 ≤ o) && decide (o < 0x1180))

/-- The refusal of a REG_WRITE (R19, R371, R479), if any. -/
def regWriteRefusal (o : Nat) (value mask : Word) (s : State) : Option (Nat × Nat) :=
  if (regLive s o).isNone then some (stBadParam, 0)
  else if mailboxWord o then some (stDenied, 0)
  else if (writeReg false o value mask s).isNone then some (stBadParam, 0)
  else none

/-- A REG_WRITE is applied; READBACK is the value after it (R483). -/
def regWriteAt (ans : Answer) (o : Nat) (value mask : Word) (s : State) : State :=
  match writeReg false o value mask s with
  | none => ans stBadParam 0 [] s
  | some s => ans stOk 0 (leBytes 4 ((regLive s o).getD 0)) s

/-- REG_WRITE (R371, R483, R484). -/
def execRegWrite (h : Hdr) (offset : Nat) (value mask : Word) (s : State) : Host.Outcome State Fault Refusal :=
  hosted (.regWrite h offset value mask) h ⟨0x0802, roleOperate, 0⟩
    (fun _ s => regWriteRefusal offset value mask s)
    (fun _ s => regWriteAt (answerNow h 0x0802) offset value mask s) s

/-- REGISTER_WRITE (R16, R19): a write by register access; out of range it is ignored as a whole, and where there is no
register nothing happens. Log 28: DESIGN CHOICE. -/
def execRegisterWrite (offset : Nat) (value : Word) (s : State) : Host.Outcome State Fault Refusal :=
  if (regLive s offset).isNone then .next s
  else .next ((writeReg true offset value 0xFFFFFFFF#32 s).getD s)

/-- LOAD_MODE_WRITE (R70, R492): in force from the name's next command start. -/
def execLoadModeWrite (die num mode : Nat) (s : State) : Host.Outcome State Fault Refusal :=
  if mode < 2 then .next (setLoadMode die num mode s) else .next s

end Sys2Proof.Machine
end

