-- ==== Sys2Proof/Machine/Boot.lean ====
section
/-! DEFINITION. Start-up, resets, firmware, identity and the mailbox (chapters 18 and 20): R257, R288, R314, R430, R453 to
R468, R473 to R479, R500, R501, R510, R511. -/
namespace Sys2Proof.Machine

/-! ### Resets (R453, R466, R467, R500, R501) -/

/-- POWER_ON_RESET (R453, R458, R501): POR_L is released with power good; stage 1 begins. -/
def execPowerOnReset (s : State) : Host.Outcome State Fault Refusal := .next s.powerOn

/-- POR_ASSERT (R501): POR_L low for 1 ms or more holds the package in power-on reset; a shorter pulse is ignored. Log 104: DESIGN CHOICE. -/
def execPorAssert (heldUs : Nat) (s : State) : Host.Outcome State Fault Refusal :=
  if heldUs < 1000 then .next s
  else
    let s := s.powerOn
    .next { s with pins := { s.pins with porLow := true } }

/-- POWER_FAIL (R500): PWR_GOOD falls; the package stops and holds itself in power-on reset. -/
def execPowerFail (s : State) : Host.Outcome State Fault Refusal :=
  let s := s.powerOn
  .next { s with pins := { s.pins with pwrGood := false } }

/-- An instance table without the replicas of a package: a warm reset frees their regions (R205, R288). -/
def InstTable.primary (pkg : Nat) (t : InstTable) : InstTable :=
  { t with entries := t.entries.map fun e => { e with inst := e.inst.take 1 ++ (e.inst.drop 1).filter fun x => x.1 ≠ pkg } }

/-- A model with what survives a warm reset (R257, R288): the follow-track epoch, the placements, the live adapter versions. It is
LOADING until its regions have verified (R467). Log 78: DESIGN CHOICE. -/
def Model.retained (pkg : Nat) (m : Model) : Model :=
  { m with
    state := 1
    verifying := true
    origins := []
    tables := (m.tables.getLast?.map (InstTable.primary pkg)).toList
    epochs := (m.epochs.filter fun e => e.id = m.follow).map fun e => { e with held := false }
    placed := m.placed.map fun p => { p with fresh := none }
    usedSets := []
    adapters := m.adapters.map fun a => { a with versions := a.versions.filter fun v => v.live }
    suspects := [] }

/-- Whether a region is listed in the retention directory (R288): a tensor of a follow-track epoch or of a live adapter version.
Logs 78, 107: DESIGN CHOICE. -/
def regionRetained (ms : List Model) (g : Region) : Bool :=
  match g.owner with
  | .tensor m _ => ms.any fun x => x.id = m && regionNamed x g
  | .adapter m k v _ => ms.any fun x => x.id = m && x.adapters.any fun a => a.slot = k && a.versions.any fun y => y.version = v
  | _ => false

/-- The retention directory as bytes (R288), each region with its tier, address and length; the spec gives it no form (DESIGN CHOICE, log 142). -/
def directoryBytes (rs : List Region) : List Byte := rs.flatMap fun g => leBytes 1 g.tier ++ leBytes 8 g.base ++ leBytes 8 g.bytes

/-- Whether the directory that the package reads after a warm reset has the digest kept beside it (R288). Log 142: DESIGN CHOICE. -/
def directorySound (r : Retention) : Bool := sha384 (directoryBytes r.regions) = r.digest

/-- A station entry over a warm reset: STATE and MARKED are sticky (R18, R490). -/
def StnSt.kept (e : StnSt) : StnSt := { StnSt.zero e.die e.letter e.num with state := e.state, marked := e.marked }

/-- A lane over a warm reset: LSTATE and MARKED are sticky (R489). -/
def Lane.kept (x : Lane) : Lane := { x with level := 0 }

/-- A port over a warm reset: SPARE_USED and the lanes' standing are sticky (R308, R489). -/
def Link.kept (l : Link) : Link := { Link.zero l.port with spareUsed := l.spareUsed, lanes := l.lanes.map Lane.kept }

/-- A bridge link over a warm reset: REPAIRED and its lanes' standing are sticky (R18, R489). -/
def Bridge.kept (b : Bridge) : Bridge := ⟨true, b.repaired, 0, 0, b.lanes.map fun x => (x.1, x.2.kept)⟩

/-- A channel over a warm reset (R488). -/
def Channel.kept (c : Channel) : Channel := { c with level := 0 }

/-- The beat unit over a warm reset: the counter keeps running and stays aligned while BEAT_CLK is present (R453, R480).
Stamps are boot-relative again (R469). -/
def BeatSt.kept (b : BeatSt) : BeatSt :=
  if b.clkHold then { BeatSt.zero with elapsed := b.elapsed }
  else { BeatSt.zero with count := b.count, elapsed := b.elapsed, aligned := b.aligned }

/-- The package in self-refresh after the entry to a warm reset of a kind (R288, R448, R453, R466): issue has stopped, no
command commits, the freeze has ended, the directory is written; everything but what R453 and R18 keep is at reset. Log 78: DESIGN CHOICE. -/
def enterRefresh (kind : Nat) (s : State) : State :=
  let s := endFreeze s
  let ms := (s.models.models.filter fun m => m.state = 3).map (Model.retained s.boot.pkg)
  let rs := (s.mem.regions.filter (regionRetained ms)).map fun g => { g with freeAt := none }
  let m := { MemSt.zero with
    cells := s.mem.cells
    undef := s.mem.undef
    sstat := s.mem.sstat
    bad := s.mem.bad
    regions := rs
    pcs := s.mem.pcs.map Channel.kept
    lpchs := s.mem.lpchs.map Channel.kept
    retention := some ⟨rs, sha384 (directoryBytes rs)⟩ }
  { State.reset with
    pins := { s.pins with warmLow := kind = 1 }
    flash := s.flash
    boot := { BootSt.zero with stepping := s.boot.stepping, stage := 9, error := s.boot.error, resetKind := kind }
    beat := s.beat.kept
    thm := { ThmSt.zero with peak := s.thm.peak, tripped := s.thm.tripped }
    hlth := { HlthSt.zero with
      classes := classDefaults.zipIdx.map fun c => { c.1 with retired := (s.hlth.classes.getD c.2 c.1).retired } }
    rime := { RimeSt.zero with circ := s.rime.circ, keepFull := s.rime.keepFull, next := s.rime.next, lost := s.rime.lost }
    stns := { StnsSt.zero with stns := s.stns.stns.map StnSt.kept }
    models := ⟨ms, [], []⟩
    mem := m
    fab := { FabSt.zero with links := s.fab.links.map Link.kept, bridges := s.fab.bridges.map Bridge.kept }
    out := s.out
    fresh := s.fresh
    pending := s.pending }

/-- Whether a warm reset acts as a power-on reset (R501): before a power-on start has reached stage 4, or once memory is
given up. Log 104: DESIGN CHOICE. -/
def warmActsAsPor (s : State) : Bool :=
  (s.boot.resetKind = 0 && (decide (s.boot.stage < 4) || (s.boot.stage = 15 && decide (s.boot.error < 8)))) || s.boot.stage = 8

/-- A warm reset begins (R466, R501); in self-refresh already, nothing changes. Logs 78, 107: DESIGN CHOICE. -/
def warmReset (kind : Nat) (s : State) : State :=
  if s.pins.porLow || !s.pins.pwrGood || s.boot.stage = 9 then s
  else if warmActsAsPor s then s.powerOn
  else enterRefresh kind s

/-- WARM_RESET_ASSERT (R466, R501): WARM_RST_L stays low for more than 1 µs. -/
def execWarmResetAssert (s : State) : Host.Outcome State Fault Refusal := .next (warmReset 1 s)

/-- RESET with SCOPE 1 (R466, R375): the reply leaves, then the warm reset begins. -/
def execResetWarm (h : Hdr) (s : State) : Host.Outcome State Fault Refusal :=
  hosted (.resetWarm h) h ⟨0x0A05, roleOperate, 0⟩ (fun _ _ => badIf (h.sorus ≠ 0))
    (fun _ s => warmReset 2 (replyOk h 0x0A05 [] s)) s

/-- WARM_RESTART (R466, R467): entry is complete and WARM_RST_L released; stage 1 begins. -/
def execWarmRestart (s : State) : Host.Outcome State Fault Refusal :=
  if s.boot.stage = 9 then
    .next { s with boot := { s.boot with stage := 1 }, pins := { s.pins with warmLow := false } }
  else .next s

/-! ### RESET with SCOPE STATIONS (R314, R515) -/

/-- The refusal of a station reset, if any: a context that does not exist, is another's or is torn down. Log 83: DESIGN CHOICE. -/
def resetRefusal (s : State) (principal : Nat) (cs : List Nat) : Option (Nat × Nat) := cs.findSome? (ctxRefusal s principal)

/-- A station reset takes its place in the next phase 6 (R314). -/
def resetCommit (ans : Answer) (principal : Nat) (cs : List Nat) (s : State) : State :=
  match resetRefusal s principal cs with
  | some (st, d) => ans st d [] s
  | none => ans stOk 0 [] { s with jobs := { s.jobs with resets := s.jobs.resets ++ cs } }

/-- RESET with SCOPE STATIONS (R314). Log 83: DESIGN CHOICE. -/
def execResetStations (h : Hdr) (ctxs : List Nat) (s : State) : Host.Outcome State Fault Refusal :=
  hosted (.resetStations h ctxs) h ⟨0x0A05, roleOperate, 0⟩
    (fun e s => if h.sorus = 0 then resetRefusal s e.principal ctxs else badIf (ctxs.any fun c => decide (63 < c)))
    (fun e s => resetCommit (answerNow h 0x0A05) e.principal ctxs s) s

/-- Station resets in phase 6, after the grants: every command of the contexts ends, without teardown (R314). Log 83: DESIGN CHOICE. -/
def applyResets (s : State) : State :=
  let s := s.jobs.resets.foldl (fun s n => endCmdsOf n stCancelled s) s
  { s with jobs := { s.jobs with resets := [] } }

/-! ### Images in the flash (R455, R459) -/

/-- The checks of R455 on a stored header; the signatures' outcome is the stage's own. Log 103: DESIGN CHOICE. -/
def headerBoots (s : State) (kind counter : Nat) (h : List Byte) : Bool := headerFormOk kind h && headerRollbackOk s counter h

/-- The slot that boots (R459): the pointed one, or the other one where that fails R455; none when neither verifies. Logs 4, 103: DESIGN CHOICE. -/
def bootSlot (s : State) (kind counter pointer : Nat) (slots : List (List Byte)) (fallback : Bool) : Option Nat :=
  let ok (i : Nat) : Bool := headerBoots s kind counter (slots.getD i [])
  if ok pointer && !fallback then some pointer else if ok (1 - pointer) then some (1 - pointer) else none

/-! ### Start-up stages (R458 to R461, R467) -/

/-- A stage fails (R460): HALTED, ALERT_L, every port dark. -/
def halt (code : Nat) (s : State) : State :=
  { s with
    boot := { s.boot with stage := 15, error := code }
    pins := { s.pins with alert := true }
    net := { s.net with ethUp := [false, false] }
    fab := { s.fab with links := s.fab.links.map fun l => { l with state := 0, width := 0 } } }

/-- The start waits for an installation record (R461). -/
def waitPlan (code : Nat) (s : State) : State := { s with boot := { s.boot with stage := 7, error := code } }

/-- The recorder at a start: the circulating area comes from the flash ring after a power-on reset and stays in place over a warm one;
numbering and KEEP_FULL are restored from the flash after either (R18, R445, R446, R452). The numbering goes on from the area too, which
may be ahead of the ring (DEDUCED, log 141). Logs 30, 31: DESIGN CHOICE. -/
def reloadRecorder (s : State) : State :=
  let circ := if s.boot.resetKind = 0 then s.flash.ring else s.rime.circ
  let seqs := (s.flash.keep ++ s.flash.ring ++ circ).map fun r => r.seq + 1
  { s with rime := { s.rime with
      circ := circ
      keepFull := decide (512 ≤ s.flash.keep.length)
      next := seqs.foldl max 0 % 2 ^ 32 } }

/-- Stage 1 ends (R458, R459): stage-1 runs from a slot that verifies; the recorder is restored. Logs 31, 103: DESIGN CHOICE. -/
def endRom (inp : StageInput) (s : State) : State :=
  match bootSlot s 1 s.flash.counters.stage1 s.flash.bootS1 s.flash.stage1 inp.fallback with
  | none => halt 1 s
  | some i =>
    let s := reloadRecorder s
    { s with boot := { s.boot with stage := 2, s1Slot := i, s1Header := s.flash.stage1.getD i [] } }

/-- The stations with the names of manufacture (R6, R7, R490). -/
def freshNames (s : State) : State :=
  { s with stns := { s.stns with
      mapsApplied := true
      cfg := allNames
      unbound := []
      stns := s.stns.stns.map fun e =>
        if e.letter = 7 then e
        else if e.num < nameCount e.die e.letter then { e with state := 0, names := [e.num] }
        else { e with state := 1, names := [] } } }

/-- One entry of the retirement map is applied (R7, R271, R430): a Frond that was suspected has given its name to a spare, and one that
was exonerated waits until every name has its stand-in; a retired station's name is its partner's; retired channels lie in their
zones. Log 102: DESIGN CHOICE. -/
def applyMap (s : State) (e : MapEntry) : State :=
  let status := match e.retired with
    | none => 2
    | some true => 3
    | some false => 0
  match e.unit with
  | .station d l n =>
    if l = 0 then setUnit e.unit 0 (if status = 0 then 2 else status) e.marked (moveFrond d n s).1
    else
      let s := setUnit e.unit 0 status e.marked s
      if status = 3 then (movePartner d l n s).1 else s
  | .pc n => if status = 3 then
      { s with mem := { s.mem with pcs := updAt n (fun _ => ⟨2, retiredChannels s.mem.pcs, 0⟩) s.mem.pcs } } else s
  | .lpch n => if status = 3 then
      { s with mem := { s.mem with lpchs := updAt n (fun _ => ⟨2, retiredChannels s.mem.lpchs, 0⟩) s.mem.lpchs } } else s
  | .pair n =>
    let s := setUnit e.unit 0 status e.marked s
    if status = 0 then s else haltPair n s
  | u => setUnit u 0 status e.marked s

/-- An exonerated Frond becomes the last of the spares of its die: the names that it and others gave up stay with their stand-ins (R7,
R430). -/
def spareAgain (s : State) (e : MapEntry) : State :=
  match e.unit, e.retired with
  | .station d 0 n, some false => setUnit e.unit 0 1 e.marked (setStn d 0 n (fun x => { x with names := [] }) s)
  | _, _ => s

/-- The repair map and then the retirement map are applied (R430); the units retired since manufacture are counted (R440).
Log 102: DESIGN CHOICE. -/
def applyMaps (s : State) : State :=
  let s := { s with mem := { s.mem with pcs := s.mem.pcs.map fun _ => Channel.zero, lpchs := s.mem.lpchs.map fun _ => Channel.zero } }
  let s := s.flash.map.foldl spareAgain (s.flash.map.foldl applyMap (freshNames s))
  let count (c : Nat) : Nat := (s.flash.map.filter fun e => e.retired = some true && classOf e.unit = c).length
  { s with hlth := { s.hlth with classes := s.hlth.classes.zipIdx.map fun c => { c.1 with retired := count c.2 } } }

/-- The outcome of a start's test of one unit (R85, R430, R459): a suspect one is exonerated or retired, one in service that
fails is retired and replaced. Log 102: DESIGN CHOICE. -/
def testedAtStart (failed : List HwUnit) (s : State) (u : HwUnit) : State :=
  if underTest s u then
    if failed.contains u then
      let s := retireUnit u s
      match u with
      | .station _ l _ => if l = 0 then s else (takeUnit u s).1
      | .fabLane _ _ => (takeUnit u s).1
      | _ => s
    else
      let s := exonerateUnit u s
      match u with
      | .station d l n => if l = 0 then s else setStn d l n (fun e => { e with state := 0 }) s
      | _ => s
  else if failed.contains u && !unitOut s u then (takeUnit u (retireUnit u s)).1
  else s

/-- Whether a unit is tested by the built-in self-test of stage 2 (R430); the others by their bring-up. Log 102: DESIGN CHOICE. -/
def selfTested : HwUnit → Bool
  | .station _ _ _ => true
  | .pair _ => true
  | _ => false

/-- The units that a stage tests: those the map shows suspect, and those that failed. Log 102: DESIGN CHOICE. -/
def testUnits (s : State) (failed : List HwUnit) (p : HwUnit → Bool) : List HwUnit :=
  ((((s.flash.map.filter fun e => e.retired = none).map fun e => e.unit) ++ failed).filter p).foldl
    (fun us u => if us.contains u then us else us ++ [u]) []

/-- Stage 2 ends (R430, R456, R458, R459). -/
def endStage1 (inp : StageInput) (s : State) : State :=
  if !(headerBoots s 3 s.flash.counters.config s.flash.configHeader && hDevice s.flash.configHeader = s.flash.serial) then halt 3 s
  else
    let s := applyMaps s
    let s := (testUnits s inp.failedUnits selfTested).foldl (testedAtStart inp.failedUnits) s
    let s := { s with hlth := { s.hlth with pairs := resumeRoles s.hlth.pairs } }
    if field (healthReason s) 19 16 ≠ 0 then halt 4 s
    else { s with boot := { s.boot with stage := 3, configVersion := hVersion s.flash.configHeader } }

/-- The LPDDR window in bytes for a density per channel in GB (R272). -/
def lpWindowOf (gb : Nat) : Nat := 32 * (1024 * (gb * 10 ^ 9 * 15 / 16 / 4194304)) * 4096

/-- Stage 3 ends (R272, R458, R459, R467): after a power-on reset HBM holds zeros and LPDDR undefined bytes; after a warm
reset memory is kept. Limcel runs from a slot that verifies. -/
def endMemory (inp : StageInput) (s : State) : State :=
  if inp.lpDensity < 8 || 32 < inp.lpDensity then halt 6 s
  else
    match bootSlot s 2 s.flash.counters.limcel s.flash.bootLc s.flash.limcel inp.fallback with
    | none => halt 7 s
    | some i =>
      let w := lpWindowOf inp.lpDensity
      let s := if s.boot.resetKind = 0 then
          let (d, s) := draw s
          { s with mem := { s.mem with cells := [], undef := [⟨lpBase, w, d⟩] } }
        else s
      { s with
        mem := { s.mem with lpWindow := w }
        boot := { s.boot with stage := 4, lpDensity := inp.lpDensity, lcSlot := i, lcHeader := s.flash.limcel.getD i [] } }

/-- The serving context with its queues (R382, log 40). -/
def servingCtx : Ctx :=
  { newCtx 0 0xFFFFFFFF false ⟨0, 0, 0, 0⟩ with queues := (List.range 16).map fun q => ⟨q, 0, 7, 0x5B, 0, 0, 0, 0, 0, 0, 0⟩ }

/-- The record in effect from this start on: the pending one where there is one (R300, R461). Log 105: DESIGN CHOICE. -/
def takePending (s : State) : State :=
  match s.flash.pending with
  | none => s
  | some (r, bs) => { s with flash := { s.flash with install := some r, installHeader := bs.take 128, pending := none } }

/-- A port at the start of LINKS (R295, R298): every port trains at the same time, but for the standby links. Log 8: DESIGN CHOICE. -/
def startPort (s : State) (l : Link) : Link :=
  let standby := match planOf s l.port with
    | some p => p.standby.isSome
    | none => false
  { l with since := s.beat.elapsed, state := if l.lanes.all fun x => decide (2 ≤ x.lstate) then 7 else if standby then 0 else 1 }

/-- A record as the package reads it under the straps of this start (R461): the one read before, where they are the same. -/
def lookUp (s : State) (r : InstallRec) : Option InstallRec := if r.slot = s.pins.slotId then some r else readInstall s r.raw

/-- The retained regions after stage 4 of a warm restart (R288, R467): all of them, or none where the directory fails its digest. -/
def takeDirectory (inp : StageInput) (s : State) : State :=
  let kept := inp.directoryOk && s.mem.retention.any directorySound
  if s.boot.resetKind ≠ 0 && !kept then
    { s with models := ⟨[], [], []⟩, mem := { s.mem with regions := [], retention := none } }
  else { s with mem := { s.mem with retention := none } }

/-- Stage 4 ends (R271, R288, R289, R382, R451, R461, R467). Log 40: DESIGN CHOICE. -/
def endLimcel (inp : StageInput) (s : State) : State :=
  match s.flash.install, s.flash.install.bind (lookUp s) with
  | none, _ => waitPlan 8 s
  | some _, none => waitPlan 9 s
  | some _, some r =>
    if r.secVersion < s.flash.counters.install || hKey s.flash.installHeader < s.flash.counters.keyRevoke then waitPlan 8 s
    else if !groupSound r then waitPlan 9 s
    else if r.device ≠ 0 && r.device ≠ s.flash.serial then waitPlan 9 s
    else
      let restored := s.rime.circ.length
      let s := { s with
        flash := { s.flash with install := some r, counters := { s.flash.counters with install := max s.flash.counters.install r.secVersion } }
        boot := { s.boot with
          stage := 5
          pkgValid := true
          pkg := r.pkg
          macsecWait := [r.macsec.getD 0 false, r.macsec.getD 1 false] }
        jobs := { s.jobs with ctxs := [servingCtx] } }
      let s := takeDirectory inp s
      let s := { s with fab := { s.fab with links := s.fab.links.map (startPort s), routesStale := true } }
      record 0x0003 1 pkgSource (leBytes 1 s.boot.resetKind ++ leBytes 4 restored ++ leBytes 4 (hVersion s.boot.lcHeader)) s

/-- The counters that READY raises (R457). Log 103: DESIGN CHOICE. -/
def raiseCounters (s : State) : State :=
  let c := s.flash.counters
  { s with flash := { s.flash with counters := { c with
      stage1 := max c.stage1 (hSecVersion s.boot.s1Header)
      limcel := max c.limcel (hSecVersion s.boot.lcHeader)
      config := max c.config (hSecVersion s.flash.configHeader)
      keyRevoke := max c.keyRevoke (max (hKeyFloor s.boot.s1Header) (hKeyFloor s.boot.lcHeader)) } } }

/-- Stage 5 ends (R411, R430, R457, R458). -/
def endLinks (inp : StageInput) (s : State) : State :=
  let s := (testUnits s inp.failedUnits fun u => !selfTested u).foldl (testedAtStart inp.failedUnits) s
  raiseCounters { s with boot := { s.boot with stage := 6 }, pwr := { s.pwr with pIdle := inp.pIdle } }

/-- The stage that a failure's code belongs to (R460). -/
def failedStage (code : Nat) : Nat :=
  if code = 1 || code = 2 then 1 else if code = 3 || code = 4 then 2 else if code = 5 || code = 6 || code = 7 then 3
  else if code = 8 || code = 9 then 4 else 0

/-- BOOT_STAGE_COMPLETE (R458 to R461, R467). A code that belongs to another stage changes nothing. -/
def execBootStageComplete (inp : StageInput) (s : State) : Host.Outcome State Fault Refusal :=
  if s.pins.porLow || !s.pins.pwrGood then .next s
  else
    let st := s.boot.stage
    match inp.result with
    | .failed code =>
      if failedStage code ≠ st || code = 0 then .next s
      else if st = 4 then .next (waitPlan code (takePending s))
      else .next (halt code s)
    | .ok =>
      if st = 1 then .next (endRom inp s)
      else if st = 2 then .next (endStage1 inp s)
      else if st = 3 then .next (endMemory inp s)
      else if st = 4 then .next (endLimcel inp (takePending s))
      else if st = 5 then .next (endLinks inp s)
      else .next s

/-! ### The mailbox (R461, R468, R479) -/

/-- Whether the mailbox answers (R509). -/
def mailboxAnswers (s : State) : Bool := !s.pins.porLow && s.pins.pwrGood && s.boot.stage ≠ 9

/-- A mailbox command with its parameter bytes and the STATUS it leaves: 2 done, 3 refused. -/
def mailbox (cmd status : Nat) (bs : List Byte) (s : State) : State :=
  { s with boot := { s.boot with
      mboxCmd := cmd
      mboxStatus := status
      mboxData := (List.range 16).map fun k => BitVec.ofNat 32 (leAt (bs ++ List.replicate 64 0#8) (4 * k) 4) } }

/-- MACSEC_KEY (R341, R478, R479): the key of a port that has MACsec enabled. Log 105: DESIGN CHOICE. -/
def execMacsecKey (port : Nat) (cak ckn : List Byte) (s : State) : Host.Outcome State Fault Refusal :=
  if !mailboxAnswers s then .next s
  else
    let bs := leBytes 1 port ++ cak ++ ckn
    if 2 ≤ port || !macsecOn s port then .next (mailbox 1 3 bs s)
    else
      .next (mailbox 1 2 bs { s with boot := { s.boot with
        macsecWait := updAt port (fun _ => false) s.boot.macsecWait
        macsecKeys := (port, cak, ckn) :: s.boot.macsecKeys.filter fun k => k.1 ≠ port } })

/-- Whether the circulating area has been loaded since the last reset (R446, R468). Log 104: DESIGN CHOICE. -/
def areaLoaded (s : State) : Bool :=
  s.boot.resetKind ≠ 0 || !(s.boot.stage = 1 || (s.boot.stage = 15 && decide (s.boot.error < 3)))

/-- The circulating area is mirrored to the flash ring if it has been loaded (R446). Log 104: DESIGN CHOICE. -/
def mirrorNow (s : State) : State := if areaLoaded s then { s with flash := { s.flash with ring := s.rime.circ } } else s

/-- Every port goes down (R468). -/
def darken (s : State) : State :=
  { s with
    net := { s.net with ethUp := [false, false] }
    fab := { s.fab with links := s.fab.links.map fun l =>
      { l with state := 0, width := 0, downCount := if l.state = 4 then min 0xFFFF (l.downCount + 1) else l.downCount } } }

/-- SHUTDOWN (R468). Log 104: DESIGN CHOICE. -/
def execShutdown (s : State) : Host.Outcome State Fault Refusal :=
  if !mailboxAnswers s then .next s
  else if s.boot.stage = 8 then .next (mailbox 2 2 [] s)
  else if 4 ≤ s.boot.stage && decide (s.boot.stage ≤ 6) then
    let s := (s.jobs.cmds.filter fun c => c.phase ≠ .waiting).foldl (fun s c => endCmd c.id stCancelled s) s
    let s := (s.serve.reqs.filter fun r => !finalState r.state).foldl (fun s r => endRequest r.id 0x11 stCancelled s) s
    let s := darken (mirrorNow s)
    .next (mailbox 2 2 [] { s with boot := { s.boot with stage := 8 } })
  else
    let s := mirrorNow s
    .next (mailbox 2 2 [] { s with boot := { s.boot with stage := 8 } })

/-- Bytes laid into a buffer at an offset. -/
def layBytes (buf : List Byte) (off : Nat) (data : List Byte) : List Byte :=
  padTo off (buf.take off) ++ data ++ buf.drop (off + data.length)

/-- INSTALL_CHUNK (R461, R479): in WAIT_PLAN, up to 56 bytes of a new installation record of at most 1 MiB. Log 105: DESIGN CHOICE. -/
def execInstallChunk (offset : Nat) (data : List Byte) (s : State) : Host.Outcome State Fault Refusal :=
  if !mailboxAnswers s then .next s
  else
    let bs := leBytes 4 offset ++ leBytes 2 data.length ++ data
    if s.boot.stage ≠ 7 || 56 < data.length || 1048576 < offset + data.length then .next (mailbox 3 3 bs s)
    else .next (mailbox 3 2 bs { s with boot := { s.boot with installBuf := layBytes s.boot.installBuf offset data } })

/-- INSTALL_COMMIT (R289, R291, R461, R479): a record that verifies and matches becomes the record in effect, and the start continues at
stage 4. Logs 8, 105: DESIGN CHOICE. -/
def execInstallCommit (total : Nat) (sigOk : Bool) (s : State) : Host.Outcome State Fault Refusal :=
  if !mailboxAnswers s then .next s
  else
    let bs := s.boot.installBuf.take total
    let refused := mailbox 4 3 (leBytes 4 total) s
    if s.boot.stage ≠ 7 || bs.length ≠ total || !sigOk || !recordVerifies s bs then .next refused
    else
      match readInstall s bs with
      | none => .next refused
      | some r =>
        if !planSound r || r.secVersion < s.flash.counters.install || (r.device ≠ 0 && r.device ≠ s.flash.serial) then .next refused
        else
          .next (mailbox 4 2 (leBytes 4 total) { s with
            flash := { s.flash with install := some r, installHeader := bs.take 128 }
            boot := { s.boot with stage := 4, installBuf := [] } })

/-! ### Live firmware update (R473 to R476) -/

/-- The refusal of a staged image, if any (R473). Logs 4, 106: DESIGN CHOICE. -/
def fwRefusal (s : State) (bs : List Byte) (sigOk discard : Bool) : Option (Nat × Nat) :=
  let k := hKind bs
  let counter := if k = 1 then s.flash.counters.stage1 else s.flash.counters.limcel
  if k ≠ 1 && k ≠ 2 then some (stBadParam, 0)
  else if !sigOk || !imageWhole k bs then some (stSignature, 0)
  else if !headerRollbackOk s counter bs then some (stDenied, 0)
  else if k = 2 && (decide (hJournalVer s.boot.lcHeader < hJournalMin bs) ||
      decide (hJournalVer bs < hJournalMin s.boot.lcHeader)) then some (stVersion, 0)
  else if k = 2 && s.flash.staged && !discard then some (stConflict, 0x52)
  else none

/-- FW_STAGE (R473): the image goes to the inactive slot of its kind. -/
def execFwStage (h : Hdr) (w : WinRef) (sigOk : Bool) (s : State) : Host.Outcome State Fault Refusal :=
  hosted (.fwStage h w sigOk) h ⟨0x0A01, roleOperate, featRoce⟩ noRanges
    (fun e s =>
      match windowBytes s e.principal w with
      | none => reply h 0x0A01 stBadParam 0 [] s
      | some bs =>
        match fwRefusal s bs sigOk (tbit h.cflags 0) with
        | some (st, d) => reply h 0x0A01 st d [] s
        | none =>
          let hd := bs.take 128
          replyOk h 0x0A01 (leBytes 4 (hVersion hd))
            (if hKind hd = 1 then
              { s with flash := { s.flash with
                  stage1 := updAt (1 - s.boot.s1Slot) (fun _ => hd) s.flash.stage1
                  bootS1 := 1 - s.boot.s1Slot } }
            else
              { s with flash := { s.flash with
                  limcel := updAt (1 - s.boot.lcSlot) (fun _ => hd) s.flash.limcel
                  staged := true } })) s

/-- Whether a beat lies in the 301 beats from an activation's beat (R474). -/
def nearActivation (a beat : Nat) : Bool := decide (beatSpan a beat ≤ 300)

/-- The refusal of an activation, if any (R474). -/
def activateFwRefusal (s : State) (beat : Nat) : Option (Nat × Nat) :=
  if !s.flash.staged then some (stConflict, 0x51)
  else if !s.hlth.pairs.contains 2 then some (stDegraded, 0)
  else if beatBefore beat (beatAdd s.now 100000) then some (stBadParam, 0)
  else if s.boot.activation.isSome || s.sori.sori.any fun x => x.state = 2 && nearActivation beat x.commitBeat then some (stBusy, 0)
  else none

/-- FW_ACTIVATE (R474). -/
def execFwActivate (h : Hdr) (beat : Nat) (s : State) : Host.Outcome State Fault Refusal :=
  hosted (.fwActivate h beat) h ⟨0x0A02, roleOperate, 0⟩ noRanges
    (fun _ s =>
      match activateFwRefusal s beat with
      | some (st, d) => reply h 0x0A02 st d [] s
      | none => accept h 0x0A02 [] { s with boot := { s.boot with activation := some ⟨beat, h.session, h.tag⟩ } }) s

/-- FW_TAKEOVER (R475, R476): at the boundary of the activation's beat the standby pair takes both roles under the staged
image; without one ready the activation is abandoned. Log 100: DESIGN CHOICE. -/
def execFwTakeover (pauseNs : Nat) (s : State) : Host.Outcome State Fault Refusal :=
  match s.boot.activation with
  | none => .next s
  | some a =>
    if beatBefore s.now a.beat then .next s
    else
      let s := { s with boot := { s.boot with activation := none } }
      match s.hlth.pairs.findIdx? fun r => r = 2 with
      | none => .next (finish a.session a.tag 0x0A02 stBusy 0 [] s)
      | some k =>
        let i := 1 - s.boot.lcSlot
        let hd := s.flash.limcel.getD i []
        let old := ((List.range 3).filter fun p => (s.hlth.pairs.getD p 3) = 0) ++
          (List.range 3).filter fun p => (s.hlth.pairs.getD p 3) = 1 || (s.hlth.pairs.getD p 3) = 4
        let c := s.flash.counters
        let s := { s with
          hlth := { s.hlth with pairs := (s.hlth.pairs.map fun _ => 3).set k 4 }
          boot := { s.boot with
            lcSlot := i
            lcHeader := hd
            reloading := old
            pauseUntil := some (beatAdd a.beat ((pauseNs + 999) / 1000)) }
          flash := { s.flash with bootLc := i, staged := false, counters := { c with limcel := max c.limcel (hSecVersion hd) } } }
        .next (finish a.session a.tag 0x0A02 stOk 0 (leBytes 4 pauseNs) s)

/-- PAIR_RELOAD_COMPLETE (R476): the first reloaded pair takes role 1, the second stands by. Log 100: DESIGN CHOICE. -/
def execPairReloadComplete (pair : Nat) (s : State) : Host.Outcome State Fault Refusal :=
  if s.boot.reloading.contains pair then
    .next { s with
      boot := { s.boot with reloading := s.boot.reloading.filter fun p => p ≠ pair }
      hlth := { s.hlth with pairs := resumeRoles (updAt pair (fun _ => 2) s.hlth.pairs) } }
  else .next s

/-! ### Identity (R462 to R464) -/

/-- The retirement map as measured: class, unit number, outcome and mark of each entry. Log 6: DESIGN CHOICE. -/
def mapBytes (m : List MapEntry) : List Byte :=
  (m.map fun e => leBytes 1 (classOf e.unit) ++ leBytes 2 (unitNumber e.unit) ++
    leBytes 1 (match e.retired with | none => 2 | some true => 3 | some false => 0) ++ leBytes 1 (bit e.marked)).flatten

/-- Measurements 2 to 8 (R464); measurement 1 is fixed at manufacture. Log 6: DESIGN CHOICE. -/
def measurements (s : State) : List Byte :=
  let c := s.flash.counters
  sha384 s.boot.s1Header ++ sha384 s.boot.lcHeader ++ sha384 s.flash.configHeader ++ sha384 s.flash.installHeader ++
    leBytes 4 c.stage1 ++ leBytes 4 c.limcel ++ leBytes 4 c.config ++ leBytes 4 c.install ++ leBytes 4 c.manifest ++
    leBytes 4 c.keyRevoke ++ sha384 (mapBytes s.flash.map) ++
    if s.flash.staged then sha384 (s.flash.limcel.getD (1 - s.boot.lcSlot) []) else List.replicate 48 0#8

/-- What the alias certificate carries: measurements 2, 3 and 4 (R462). Log 6: DESIGN CHOICE. -/
def aliasMeasurements (s : State) : List Byte := sha384 s.boot.s1Header ++ sha384 s.boot.lcHeader ++ sha384 s.flash.configHeader

/-- ATTEST (R464): the signed SPDM MEASUREMENTS response. -/
def execAttest (h : Hdr) (message : List Byte) (s : State) : Host.Outcome State Fault Refusal :=
  hosted (.attest h message) h ⟨0x0A03, 0, 0⟩ noRanges
    (fun _ s => replyOk h 0x0A03 (Config.spdmMeasurements (measurements s) message) s) s

/-- CERT_READ (R463): bytes of slot 0, the only one. Log 106: DESIGN CHOICE. -/
def execCertRead (h : Hdr) (slot offset length : Nat) (s : State) : Host.Outcome State Fault Refusal :=
  hosted (.certRead h slot offset length) h ⟨0x0A04, 0, 0⟩
    (fun _ _ => badIf (slot ≠ 0 || length = 0 || decide (4096 < length)))
    (fun _ s => replyOk h 0x0A04 (((Config.certChain (aliasMeasurements s)).drop offset).take length) s) s

/-! ### The test port (R510, R511) -/

/-- The IDCODE (R510). -/
def idcode (s : State) : Word := BitVec.ofNat 32 (s.boot.stepping % 16 * 2 ^ 28 + 0x0DD015CD % 2 ^ 28)

/-- JTAG_INSTRUCTION (R510, R511): EXTEST, CLAMP and HIGHZ act as BYPASS unless POR_L is low. -/
def execJtagInstruction (op : JtagOp) (s : State) : Host.Outcome State Fault Refusal :=
  let op' := match op with
    | .extest => if s.pins.porLow then .extest else .bypass
    | .clamp => if s.pins.porLow then .clamp else .bypass
    | .highz => if s.pins.porLow then .highz else .bypass
    | x => x
  .next (emit (.testPort op' (if op' = .idcode then some (idcode s) else none)) { s with pins := { s.pins with jtag := op' } })

end Sys2Proof.Machine
end

