-- ==== Sys2Proof/Machine/Sorus.lean ====
section
/-! DEFINITION. Sori (chapter 13, R374 to R381): opening, preparing, deciding, committing, and doubt (R309, R379, R474). -/
namespace Sys2Proof.Machine

/-! ### What each staged command needs and does -/

/-- The legal states of a request command (R216). -/
def requestPrep (s : State) (rid : Nat) (legal : Req → Bool) : Option (Nat × Nat) :=
  match s.req rid with
  | none => some (stBadParam, 0)
  | some r => if legal r then none else some (stConflict, r.state)

/-- The preconditions of a DISABLE or an ENABLE (R305). -/
def linkPrep (s : State) (port : Nat) (enable : Bool) : Option (Nat × Nat) :=
  let st := linkStateOf s port
  if st = 5 || st = 7 || (enable && (planOf s port).isNone) then some (stConflict, st) else none

/-- The preconditions of SNAPSHOT_AT in a sorus (R313): the beat comes after the commit beat. -/
def snapshotPrep (s : State) (principal sid beat ctx : Nat) (pairs : List (Nat × Nat)) : Option (Nat × Nat) :=
  match s.sorus sid with
  | none => some (stBadParam, 0)
  | some x => if beatBefore x.commitBeat beat then snapRefusal principal ctx pairs s else some (stBadParam, 0)

/-- The check of one staged command at prepare, with its reservation (R378). Log 91: DESIGN CHOICE. -/
def prepOne (principal : Nat) (i : Instr) : Prep := fun sid k s =>
  match i with
  | .modelActivate _ m _ n => activatePrep m n sid k s
  | .epochPublish _ m e t => publishPrep m e t sid k s
  | .epochRetire _ m e => retirePrep m e sid k s
  | .adapterReplace _ m a => (s, replaceRefusal s m a)
  | .adapterUnload _ m a => (s, unloadRefusal s m a)
  | .variantDefine h p => (s, variantRefusal s principal (tbit h.cflags 0) p)
  | .reqSubmit _ p => (s, submitRefusal s p)
  | .reqCancel _ r => (s, requestPrep s r fun r => !finalState r.state)
  | .reqPause _ r => (s, requestPrep s r fun r => decide (r.state < 5) && !r.pausePending)
  | .reqResume _ r => (s, requestPrep s r fun r => r.state = 5 && r.resumeTo.isNone)
  | .alloc _ p => allocPrep principal p sid k s
  | .free _ x => (s, if (s.handle x).isNone then some (stBadParam, 0) else freeConflict s x)
  | .launch h p => (s, launchRefusal s principal (namedEpoch h p) p)
  | .preempt _ c q _ => (s, preemptRefusal s principal c q false)
  | .preemptResume _ c q _ => (s, preemptRefusal s principal c q true)
  | .linkCtlDisable _ p => (s, linkPrep s p false)
  | .linkCtlEnable _ p => (s, linkPrep s p true)
  | .linkCtlRetrain _ p _ => (s, retrainRefusal s p)
  | .snapshotAt _ b c ps => (s, snapshotPrep s principal sid b c ps)
  | .beatSet _ sec => (s, beatSetRefusal s sec (some sid))
  | .regWrite _ o v m => (s, regWriteRefusal o v m s)
  | .resetStations _ cs => (s, resetRefusal s principal cs)
  | _ => (s, none)

/-- Whether a check that is ST_BUSY waits for space (R279). Log 66: DESIGN CHOICE. -/
def waitsForSpace (i : Instr) (status : Nat) : Bool :=
  status = stBusy && match i with
    | .alloc _ _ => true
    | .modelActivate _ _ _ _ => true
    | _ => false

/-- What one staged command does in phase 3 of the commit beat (R37, R380). -/
def commitOne (principal sid k : Nat) (i : Instr) (s : State) : State :=
  match i with
  | .modelActivate h m kc n => activateCommit (answerLater h.session h.tag 0x0104) m kc n sid k s
  | .epochPublish h m e t => publishCommit (answerLater h.session h.tag 0x0105) (tbit h.cflags 0) m e t s
  | .epochRetire h m e => retireCommit (answerLater h.session h.tag 0x0106) m e s
  | .adapterReplace h m a => replaceCommit (answerLater h.session h.tag 0x0108) (tbit h.cflags 0) m a s
  | .adapterUnload h m a => unloadCommit (answerLater h.session h.tag 0x0109) (tbit h.cflags 0) m a s
  | .variantDefine h p => variantCommit (answerLater h.session h.tag 0x010A) principal (tbit h.cflags 0) p s
  | .reqSubmit h p => postAction (.reqSubmit h p) s
  | .reqCancel h r => postAction (.reqCancel h r) s
  | .reqPause h r => postAction (.reqPause h r) s
  | .reqResume h r => postAction (.reqResume h r) s
  | .alloc h p => allocCommit (answerLater h.session h.tag 0x0402) principal p sid k s
  | .free h x => freeHandle (answerLater h.session h.tag 0x0403) x s
  | .launch h p => launchCommit h principal p s
  | .preempt h c q b => preemptCommit h principal c q false b s
  | .preemptResume h c q b => preemptCommit h principal c q true b s
  | .linkCtlQuery h p => finish h.session h.tag 0x0503 stOk 0 (leBytes 1 (linkStateOf s p)) s
  | .linkCtlDisable h p => linkDisable (answerLater h.session h.tag 0x0503) p s
  | .linkCtlEnable h p => linkEnable (answerLater h.session h.tag 0x0503) p s
  | .linkCtlRetrain h p b =>
    match retrainRefusal s p with
    | some (st, d) => finish h.session h.tag 0x0503 st d [] s
    | none => linkRetrain h.session h.tag p (if beatLe b s.now then s.now else b) s
  | .snapshotAt h b c ps =>
    match snapRefusal principal c ps s with
    | some (st, d) => finish h.session h.tag 0x0505 st d [] s
    | none => addSnapshot h b c ps s
  | .beatSet h sec =>
    match beatSetRefusal s sec (some sid) with
    | some (st, d) => finish h.session h.tag 0x0506 st d [] s
    | none => awaitEdge h.session h.tag sec s
  | .capSet h w _ => queueCap h w s.now 0 s
  | .regWrite h o v m => regWriteAt (answerLater h.session h.tag 0x0802) o v m s
  | .resetStations h cs => resetCommit (answerLater h.session h.tag 0x0A05) principal cs s
  | _ => s

/-! ### Preparing (R378) -/

/-- Whether another prepared sorus names an object that a staged command would change (R378). -/
def heldByOther (i : Instr) (sid : Nat) (s : State) : Bool :=
  s.sori.sori.any fun x => x.state = 2 && x.id ≠ sid &&
    x.staged.any fun j => (namesOf j).any fun b => (objectsOf i).any fun a => a.meets b

/-- The staged commands are checked in order; the first failure ends the checks. Log 87: DEDUCED. -/
def prepAll (principal sid : Nat) : Nat → List Instr → State → State × Option (Nat × Instr × Nat)
  | _, [], s => (s, none)
  | k, i :: is, s =>
    if heldByOther i sid s then (s, some (k, i, stBusy))
    else
      match prepOne principal i sid k s with
      | (s, some (st, _)) => (s, some (k, i, st))
      | (s, none) => prepAll principal sid (k + 1) is s

/-- What a sorus has reserved falls free. -/
def dropReserved (sid : Nat) (s : State) : State := dropRegions (fun o => match o with | .reserved y _ => y = sid | _ => false) s

/-- The coordinator aborts a sorus (R378, R381): the other members are told. Log 88: DEDUCED. -/
def coordAbort (x : Sorus) (pkg index status : Nat) (s : State) : State :=
  abortSorus x.id pkg index status (sendDecision x false s)

/-- The coordinator takes an answer (R378): the first failure aborts; with every member prepared before e − 4 it commits. Log 88: DEDUCED. -/
def takeAnswer (sid pkg status index : Nat) (s : State) : State :=
  match s.sorus sid with
  | none => s
  | some x =>
    if x.decided.isSome || (x.answers.any fun a => a.1 = pkg) || !x.members.contains pkg || (x.state ≠ 1 && x.state ≠ 2) then s
    else if status ≠ stOk then coordAbort x pkg index status s
    else
      let answers := x.answers ++ [(pkg, status, index)]
      let s := setSorus sid (fun x => { x with answers := answers }) s
      if (x.members.all fun m => answers.any fun a => a.1 = m) && beatBefore (beatAdd s.now 4) x.commitBeat then
        setSorus sid (fun x => { x with decided := some true }) (sendDecision x true s)
      else s

/-- A member answers its coordinator. -/
def answerCoord (x : Sorus) (status index : Nat) (s : State) : State :=
  if x.coord = s.boot.pkg then takeAnswer x.id s.boot.pkg status index s
  else
    sendFab x.coord 10 (.prepared x.id status index)
      (setSorus x.id (fun x => { x with answers := x.answers ++ [(s.boot.pkg, status, index)] }) s)

/-- Whether a member has answered its coordinator. Log 91: DESIGN CHOICE. -/
def answered (s : State) (x : Sorus) : Bool := x.answers.any fun a => a.1 = s.boot.pkg

/-- Whether a live update stands in the way of a commit beat (R474). -/
def updateBlocks (s : State) (commitBeat : Nat) : Bool :=
  match s.boot.activation with
  | some a => nearActivation a.beat commitBeat
  | none => match s.boot.pauseUntil with
    | some u => beatLe commitBeat u
    | none => false

/-- A member prepares a sorus that is PREPARING (R279, R309, R378, R439, R474). One that waits for space stays PREPARING. Log 87: DEDUCED. -/
def memberPrepare (sid : Nat) (s : State) : State :=
  match s.sorus sid with
  | none => s
  | some x =>
    if x.state ≠ 1 || answered s x then s
    else if s.beat.clkHold || s.hlth.failed then answerCoord x stDegraded 0 s
    else if updateBlocks s x.commitBeat then answerCoord x stBusy 0 s
    else
      match prepAll x.principal sid 0 x.staged s with
      | (s, none) =>
        answerCoord x stOk 0 (setSorus sid (fun x => { x with state := 2, decided := if x.own then some true else none }) s)
      | (s, some (k, i, st)) =>
        let s := dropReserved sid s
        if waitsForSpace i st then s else if x.own then abortSorus sid s.boot.pkg k st s else answerCoord x st k s

/-- The deadline of prepare, beat e − 4 (R378): the coordinator aborts for the first member without an answer; a member that
still waits for space answers ST_BUSY. Log 88: DEDUCED. -/
def prepareDeadline (sid : Nat) (s : State) : State :=
  match s.sorus sid with
  | none => s
  | some x =>
    if x.decided.isSome || (x.state ≠ 1 && x.state ≠ 2) then s
    else if x.own then (if x.state = 1 then abortSorus sid s.boot.pkg 0 stBusy s else s)
    else if x.coord = s.boot.pkg then
      match x.members.find? fun m => !(x.answers.any fun a => a.1 = m) with
      | some m => coordAbort x m 0 stBusy s
      | none => s
    else if x.state = 1 && !answered s x then answerCoord x stBusy 0 s
    else s

/-- SORUS_PREPARE (R309, R378): a host is denied; the coordinator's word prepares an OPEN sorus. Log 87: DEDUCED. -/
def execSorusPrepare (src : PrepSource) (sorus coord commitBeat : Nat) (s : State) : Host.Outcome State Fault Refusal :=
  match src with
  | .host h => hosted (.sorusPrepare (.host h) sorus coord commitBeat) h ⟨0x0904, 0, 0⟩ (fun _ _ => some (stDenied, 0)) (fun _ s => s) s
  | .fabric =>
    match s.sorus sorus with
    | none => .next (sendFab coord 10 (.prepared sorus stConflict 0) s)
    | some x =>
      if s.hlth.failed || s.beat.clkHold then .next (sendFab coord 10 (.prepared sorus stDegraded 0) s)
      else if x.state ≠ 0 || x.own then .next (sendFab coord 10 (.prepared sorus stConflict 0) s)
      else
        .next (memberPrepare sorus (setSorus sorus (fun x => { x with state := 1, commitBeat := commitBeat, coord := coord }) s))

/-- SORUS_PREPARED (R378): a member's answer reaches the coordinator. -/
def execSorusPrepared (sorus pkg status index : Nat) (s : State) : Host.Outcome State Fault Refusal :=
  match s.sorus sorus with
  | none => .next s
  | some x => if x.coord = s.boot.pkg && !x.own then .next (takeAnswer sorus pkg status index s) else .next s

/-- SORUS_PREPARE_DEADLINE (R378). -/
def execSorusPrepareDeadline (sorus : Nat) (s : State) : Host.Outcome State Fault Refusal :=
  if (s.sorus sorus).any fun x => beatLe x.commitBeat (beatAdd s.now 4) then .next (prepareDeadline sorus s) else .next s

/-! ### Opening, committing, aborting (R374 to R377) -/

/-- The members a SORUS_OPEN names: none for this package alone (R372). Log 86: DESIGN CHOICE. -/
def sorusMap (s : State) (members : Nat) : List Nat := if members = 0 then [s.boot.pkg] else membersOf members

/-- SORUS_OPEN (R374, R376, R518). Log 86: DESIGN CHOICE. -/
def execSorusOpen (h : Hdr) (sorus members : Nat) (s : State) : Host.Outcome State Fault Refusal :=
  let ms := sorusMap s members
  hosted (.sorusOpen h sorus members) h ⟨0x0901, 0, if ms = [s.boot.pkg] then 0 else featFabric⟩
    (fun _ s => badIf (sorus = 0 || !(ms.contains s.boot.pkg)))
    (fun e s =>
      match (s.sorus sorus).filter fun x => decide (x.state < 3) with
      | some x => reply h 0x0901 stConflict (0x40 + x.state) [] s
      | none =>
        if 32 ≤ (s.sori.sori.filter fun x => decide (x.state < 3) && !x.own).length then reply h 0x0901 stNoResource 0 [] s
        else
          let x : Sorus := ⟨sorus, h.session, ms, 0, [], 0, s.beat.elapsed, 0, none, [], ms.headD s.boot.pkg, none, false, 0, false,
            false, e.principal⟩
          replyOk h 0x0901 [] { s with sori := { s.sori with sori := (s.sori.sori.filter fun y => y.id ≠ sorus) ++ [x] } }) s

/-- The refusal of a command on a sorus, if any: unknown, another principal's, or no longer OPEN to the session (R359, R374,
R376). Log 86: DESIGN CHOICE. -/
def sorusRefusal (s : State) (e : Session) (sorus : Nat) : Option (Nat × Nat) :=
  match s.sorus sorus with
  | none => some (stConflict, 0x44)
  | some x =>
    if x.principal ≠ e.principal then some (stDenied, 0)
    else if x.session ≠ e.id || x.state ≠ 0 then some (stConflict, 0x40 + x.state)
    else none

/-- The commit beat of a SORUS_COMMIT taken now; none for one earlier than a + 16 (R377). -/
def commitBeatFor (s : State) (mode beat : Nat) : Option Nat :=
  let least := beatAdd s.now 16
  if mode = 0 && beat ≠ 0 then (if beatBefore beat least then none else some beat) else some least

/-- SORUS_COMMIT (R377, R378): the coordinator fixes the commit beat and prepares every member, itself included. Log 88: DEDUCED. -/
def execSorusCommit (h : Hdr) (sorus mode beat : Nat) (s : State) : Host.Outcome State Fault Refusal :=
  hosted (.sorusCommit h sorus mode beat) h ⟨0x0902, 0, 0⟩ (fun _ _ => badIf (decide (1 < mode)))
    (fun e s =>
      match sorusRefusal s e sorus, s.sorus sorus with
      | some (st, d), _ => reply h 0x0902 st d [] s
      | none, none => s
      | none, some x =>
        if x.coord ≠ s.boot.pkg then reply h 0x0902 stBadParam x.coord [] s
        else
          match commitBeatFor s mode beat with
          | none => reply h 0x0902 stBadParam 0 [] s
          | some b =>
            let s := accept h 0x0902 [] s
            let s := setSorus sorus (fun x => { x with state := 1, commitBeat := b, commitTag := some h.tag }) s
            let s := (x.members.filter fun m => m ≠ s.boot.pkg).foldl (fun s m => sendFab m 10 (.prepare sorus b) s) s
            memberPrepare sorus s) s

/-- SORUS_ABORT (R376): legal while the sorus is OPEN. -/
def execSorusAbort (h : Hdr) (sorus : Nat) (s : State) : Host.Outcome State Fault Refusal :=
  hosted (.sorusAbort h sorus) h ⟨0x0903, 0, 0⟩ noRanges
    (fun e s =>
      match sorusRefusal s e sorus with
      | some (st, d) => reply h 0x0903 st d [] s
      | none => replyOk h 0x0903 [] (abortSorus sorus s.boot.pkg 0 stTxnAborted s)) s

/-- SORUS_TIMEOUT (R376): a sorus not committed within 10 s of its SORUS_OPEN aborts. Log 89: DESIGN CHOICE. -/
def execSorusTimeout (sorus : Nat) (s : State) : Host.Outcome State Fault Refusal :=
  match s.sorus sorus with
  | none => .next s
  | some x =>
    if x.state = 0 && decide (x.openedAt + 10000000 ≤ s.beat.elapsed) then .next (abortSorus sorus s.boot.pkg 0 stTxnAborted s)
    else .next s

/-! ### Decision, doubt and commit (R378 to R381) -/

/-- The end of a doubt is recorded (R379, R451). Log 89: DESIGN CHOICE. -/
def recordDoubt (x : Sorus) (s : State) : State :=
  if x.inDoubt then record 0x0901 4 pkgSource (leBytes 4 x.id ++ leBytes 8 x.commitBeat ++ leBytes 4 x.heldBeats) s else s

/-- SORUS_DECISION (R378, R379): COMMIT is applied in phase 3 of e, or of the next beat when it comes late. -/
def execSorusDecision (sorus : Nat) (commit : Bool) (s : State) : Host.Outcome State Fault Refusal :=
  match s.sorus sorus with
  | none => .next s
  | some x =>
    if x.decided.isSome || x.own || (x.state ≠ 1 && x.state ≠ 2) then .next s
    else if commit then
      if x.state = 2 then .next (setSorus sorus (fun x => { x with decided := some true }) s) else .next s
    else .next (abortSorus sorus x.coord 0 stTxnAborted (recordDoubt x s))

/-- SORUS_DECISION_QUERY (R379): a member in doubt asks; one that holds a decision answers. -/
def execSorusDecisionQuery (sorus pkg : Nat) (s : State) : Host.Outcome State Fault Refusal :=
  match (s.sorus sorus).bind fun x => x.decided with
  | none => .next s
  | some d => .next (sendFab pkg 10 (.decision sorus d) s)

/-- SORUS_IN_DOUBT_TIMEOUT (R379): 100,000 beats after e the member asks the others; when none holds a decision it aborts.
Log 89: DESIGN CHOICE. -/
def execSorusInDoubtTimeout (sorus : Nat) (s : State) : Host.Outcome State Fault Refusal :=
  match s.sorus sorus with
  | none => .next s
  | some x =>
    if !x.inDoubt || x.decided.isSome || beatBefore s.now (beatAdd x.commitBeat 100000) then .next s
    else
      let others := x.members.filter fun m => m ≠ s.boot.pkg
      if x.asked || others.isEmpty then .next (abortSorus sorus x.coord 0 stTxnAborted (recordDoubt x s))
      else
        .next (others.foldl (fun s m => sendFab m 10 (.askDecision sorus) s) (setSorus sorus (fun x => { x with asked := true }) s))

/-- The staged commands take effect in order. -/
def commitAll (principal sid : Nat) : Nat → List Instr → State → State
  | _, [], s => s
  | k, i :: is, s => commitAll principal sid (k + 1) is (commitOne principal sid k i s)

/-- A decided sorus takes effect (R377, R380, R381). -/
def applySorus (sid : Nat) (s : State) : State :=
  match s.sorus sid with
  | none => s
  | some x =>
    if x.state ≠ 2 || x.decided ≠ some true || beatBefore s.now x.commitBeat then s
    else
      let s := commitAll x.principal sid 0 x.staged (recordDoubt x s)
      let s := setSorus sid (fun x => { x with state := 3, staged := [], inDoubt := false }) (dropReserved sid s)
      match x.commitTag with
      | some tag => finish x.session tag 0x0902 stOk 0 (leBytes 8 x.commitBeat ++ leBytes 8 0) s
      | none => s

/-- SORUS_COMMIT_APPLY (R381). -/
def execSorusCommitApply (sorus : Nat) (s : State) : Host.Outcome State Fault Refusal := .next (applySorus sorus s)

/-- A prepared sorus that reaches phase 3 of its commit beat without a decision is in doubt, and every beat it is held counts
(R379, R487). Log 89: DESIGN CHOICE. -/
def enterDoubt (sid : Nat) (s : State) : State :=
  match s.sorus sid with
  | none => s
  | some x =>
    if x.state ≠ 2 || x.decided.isSome || beatBefore s.now x.commitBeat then s
    else
      let s := setSorus sid (fun x => { x with inDoubt := true, heldBeats := sat32 (x.heldBeats + 1) }) s
      { s with sori := { s.sori with
          doubtBeats := sat32 (s.sori.doubtBeats + 1)
          doubtSori := if x.inDoubt then s.sori.doubtSori else sat32 (s.sori.doubtSori + 1) } }

/-- The sori of a beat in phase 3, in ascending id; a command that runs as a sorus of its own comes after them (R37, R381). -/
def phase3Sori (s : State) : State :=
  (byKey (fun i => i) (s.sori.sori.map fun x => x.id)).foldl (fun s i => enterDoubt i (applySorus i s)) s

/-- At the start of a beat waiting sori are prepared again, and those that reach e − 4 meet their deadline (R279, R378). -/
def phase1Sori (s : State) : State :=
  let ids := byKey (fun i => i) (s.sori.sori.map fun x => x.id)
  ids.foldl (fun s i =>
    match s.sorus i with
    | none => s
    | some x =>
      if (x.state = 1 || x.state = 2) && x.decided.isNone then
        if beatLe x.commitBeat (beatAdd s.now 4) then prepareDeadline i s else memberPrepare i s
      else s) s

end Sys2Proof.Machine
end

