-- ==== Sys2Proof/Machine/Frames.lean ====
section
/-! DEFINITION. FRAME_RECEIVE (chapter 13): discards, the receive window, acknowledgement, and the reading of command
entries from their bytes (R346 to R348, R351, R355, R356, R358, R362 to R373). -/
namespace Sys2Proof.Machine

/-! ### The layouts of R363 to R373 -/

/-- The fields of an opcode's parameters, each with its offset and size, and the fixed length; none where the opcode is no
command of the tables. A list begins at the fixed length. -/
def layout (op : Nat) : Option (Nat × List (Nat × Nat)) :=
  match op with
  | 0x0001 => some (0x10, [(0, 16)])
  | 0x0002 => some (8, [(0, 1), (4, 4)])
  | 0x0003 => some (0, [])
  | 0x0004 => some (0, [])
  | 0x0005 => some (0, [])
  | 0x0101 => some (0x20, [(0, 8), (8, 2), (0xC, 4), (0x10, 8), (0x18, 8)])
  | 0x0102 => some (0x18, [(0, 8), (8, 4), (0xC, 2), (0x10, 8)])
  | 0x0103 => some (0x10, [(0, 16)])
  | 0x0104 => some (0x10, [(0, 8), (8, 2), (0xC, 4)])
  | 0x0105 => some (0x10, [(0, 16)])
  | 0x0106 => some (0xC, [(0, 12)])
  | 0x0107 => some (0x20, [(0, 8), (8, 1), (0xA, 2), (0xC, 4), (0x10, 16)])
  | 0x0108 => some (9, [(0, 9)])
  | 0x0109 => some (9, [(0, 9)])
  | 0x010A => some (0x28, [(0, 8), (8, 2), (0x10, 8), (0x18, 2), (0x1C, 4), (0x20, 8)])
  | 0x0201 => some (0x70, [(0, 0x43), (0x44, 0x22), (0x68, 8)])
  | 0x0202 => some (4, [(0, 4)])
  | 0x0203 => some (4, [(0, 4)])
  | 0x0204 => some (4, [(0, 4)])
  | 0x0205 => some (4, [(0, 4)])
  | 0x0301 => some (0x10, [(0, 2), (4, 4), (8, 8)])
  | 0x0302 => some (4, [(0, 4)])
  | 0x0303 => some (0xA0, [(0, 7), (8, 0x98)])
  | 0x0304 => some (3, [(0, 3)])
  | 0x0305 => some (2, [(0, 2)])
  | 0x0306 => some (0x30, [(0, 2), (4, 4), (8, 0x28)])
  | 0x0307 => some (1, [(0, 1)])
  | 0x0308 => some (0x10, [(0, 2), (8, 8)])
  | 0x0401 => some (0x18, [(0, 2), (8, 16)])
  | 0x0402 => some (0x40, [(0, 3), (4, 4), (8, 0x38)])
  | 0x0403 => some (4, [(0, 4)])
  | 0x0404 => some (0x28, [(0, 1), (4, 4), (8, 4), (0x10, 0x18)])
  | 0x0405 => some (5, [(0, 5)])
  | 0x0501 => some (0, [])
  | 0x0502 => some (0x10, [(0, 2), (4, 4), (8, 8)])
  | 0x0503 => some (0x10, [(0, 2), (8, 8)])
  | 0x0504 => some (0x28, [(0, 0x28)])
  | 0x0505 => some (0x10, [(0, 10)])
  | 0x0506 => some (8, [(0, 8)])
  | 0x0601 => some (0x10, [(0, 4), (8, 8)])
  | 0x0602 => some (0, [])
  | 0x0603 => some (0xC, [(0, 1), (4, 8)])
  | 0x0701 => some (0, [])
  | 0x0702 => some (0, [])
  | 0x0703 => some (0xC, [(0, 1), (4, 8)])
  | 0x0704 => some (0, [])
  | 0x0705 => some (0, [])
  | 0x0801 => some (6, [(0, 6)])
  | 0x0802 => some (0xC, [(0, 12)])
  | 0x0901 => some (0x28, [(0, 4), (8, 0x20)])
  | 0x0902 => some (0x10, [(0, 5), (8, 8)])
  | 0x0903 => some (4, [(0, 4)])
  | 0x0904 => some (0x10, [(0, 5), (8, 8)])
  | 0x0A01 => some (0x10, [(0, 2), (4, 4), (8, 8)])
  | 0x0A02 => some (8, [(0, 8)])
  | 0x0A03 => some (8, [(0, 4)])
  | 0x0A04 => some (0xC, [(0, 1), (4, 8)])
  | 0x0A05 => some (8, [(0, 2)])
  | _ => none

/-- The bytes of a list that follows the fixed part (R362). -/
def listBytes (op : Nat) (b : List Byte) : Nat :=
  match op with
  | 0x0002 => if leAt b 0 1 = 1 then 8 + 8 * leAt b 8 1 else leAt b 4 4
  | 0x0201 => if tbit (leAt b 0xA 2) 3 then 0 else 4 * leAt b 0xC 4
  | 0x0303 => 4 * leAt b 6 1
  | 0x0505 => 8 * leAt b 9 1
  | 0x0A03 => leAt b 0 4
  | 0x0A05 => leAt b 1 1
  | _ => 0

/-- Whether a byte of the fixed part lies in a listed field. -/
def listed (fields : List (Nat × Nat)) (i : Nat) : Bool := fields.any fun f => decide (f.1 ≤ i) && decide (i < f.1 + f.2)

/-- The parameters agree with their layout: the length, zeros in every offset not listed, and codes of R363 to R373 that a
field cannot exceed (R362). -/
def layoutOk (op : Nat) (b : List Byte) : Bool :=
  match layout op with
  | none => false
  | some (n, fields) =>
    decide (b.length = n + listBytes op b) &&
      ((b.take n).zipIdx.all fun x => x.1 = 0#8 || listed fields x.2) &&
      (match op with
        | 0x0002 => decide (leAt b 0 1 ≠ 1) || (b.drop 9).take 7 = List.replicate 7 0#8
        | 0x0201 => decide (leAt b 0x42 1 ≤ 8)
        | 0x0303 => decide (leAt b 6 1 ≤ 64)
        | 0x0503 => decide (leAt b 1 1 ≤ 3)
        | 0x0A05 => decide (leAt b 0 1 ≤ 1)
        | _ => true)

/-- `n` little-endian numbers of `size` bytes. -/
def leList (b : List Byte) (off size : Nat) : Nat → List Nat
  | 0 => []
  | n + 1 => leAt b off size :: leList b (off + size) size n

/-- Whether the bytes that a command names in a window carry a signature that verifies (R235, R300, R455). -/
def windowSigned (s : State) (h : Hdr) (w : WinRef) : Bool :=
  match s.session h.session with
  | none => false
  | some e =>
    match windowBytes s e.principal w with
    | some b => Config.signatureOk b
    | none => false

/-- The queue pairs of SESSION_OPEN PHASE 1 (R363). -/
def qpEntries (b : List Byte) (n : Nat) : List QpEntry :=
  (List.range n).map fun i =>
    ⟨leAt b (0x10 + 8 * i) 3, leAt b (0x13 + 8 * i) 1, leAt b (0x14 + 8 * i) 3, leAt b (0x17 + 8 * i) 1⟩

/-- REQ_SUBMIT parameters (R365). -/
def submitBody (b : List Byte) : SubmitP :=
  let flags := leAt b 0xA 2
  { modelId := leAt b 0 8, variant := leAt b 8 2, flags := flags, promptLen := leAt b 0xC 4, maxNew := leAt b 0x10 4,
    temperature := BitVec.ofNat 32 (leAt b 0x14 4), topK := leAt b 0x18 4, topP := BitVec.ofNat 32 (leAt b 0x1C 4),
    minP := BitVec.ofNat 32 (leAt b 0x20 4), stream := leAt b 0x24 4, seed := leAt b 0x28 8, deadline := leAt b 0x30 8,
    pauseTtl := leAt b 0x38 4, scoreFrom := leAt b 0x3C 4, logpBasis := leAt b 0x40 1, topN := leAt b 0x41 1,
    stops := leList b 0x44 4 (leAt b 0x42 1), window := leAt b 0x64 2, windowOffset := leAt b 0x68 8,
    tokens := if tbit flags 3 then [] else leList b 0x70 4 (leAt b 0xC 4) }

/-- LAUNCH parameters (R366). -/
def launchBody (b : List Byte) : LaunchP :=
  ⟨leAt b 0 4, leAt b 4 1, leAt b 5 1, leAt b 8 4, leAt b 0xC 4, leAt b 0x10 8, leAt b 0x18 8, leList b 0x20 8 16,
    leList b 0xA0 4 (leAt b 6 1)⟩

/-- The command that an entry's parameters spell, once its layout holds. Log 25: DESIGN CHOICE. -/
def commandOf (s : State) (h : Hdr) (op : Nat) (b : List Byte) : Option Instr :=
  let w8 : WinRef := ⟨leAt b 8 2, leAt b 0x10 8, leAt b 0x18 8⟩
  let wA : WinRef := ⟨leAt b 0xA 2, leAt b 0x10 8, leAt b 0x18 8⟩
  let w0 : WinRef := ⟨leAt b 0 2, leAt b 8 8, leAt b 4 4⟩
  match op with
  | 0x0001 => some (.hello h ⟨leAt b 0 1, leAt b 1 1, leAt b 2 1, leAt b 3 1, leAt b 4 2, leAt b 6 2, leAt b 8 8⟩)
  | 0x0002 =>
    if leAt b 0 1 = 1 then some (.sessionOpen h 1 .failed (qpEntries b (leAt b 8 1)))
    else some (.sessionOpen h (leAt b 0 1) (Config.spdm (b.drop 8)) [])
  | 0x0003 => some (.sessionClose h)
  | 0x0004 => some (.keepalive h)
  | 0x0005 => some (.capsQuery h)
  | 0x0101 =>
    if tbit h.cflags 0 then some (.modelWithdraw h (leAt b 0 8))
    else some (.modelDeclare h w8 (leAt b 0xC 4) (windowSigned s h w8))
  | 0x0102 => some (.shardPush h (leAt b 0 8) (leAt b 8 4) (leAt b 0xC 2) (leAt b 0x10 8))
  | 0x0103 => some (.shardStatus h (leAt b 0 8) (leAt b 8 4) (leAt b 0xC 4))
  | 0x0104 => some (.modelActivate h (leAt b 0 8) (leAt b 8 2) (leAt b 0xC 4))
  | 0x0105 => some (.epochPublish h (leAt b 0 8) (leAt b 8 4) (leAt b 0xC 4))
  | 0x0106 => some (.epochRetire h (leAt b 0 8) (leAt b 8 4))
  | 0x0107 => some (.adapterLoad h (leAt b 0 8) (leAt b 8 1) wA (leAt b 0xC 4) (windowSigned s h wA))
  | 0x0108 => some (.adapterReplace h (leAt b 0 8) (leAt b 8 1))
  | 0x0109 => some (.adapterUnload h (leAt b 0 8) (leAt b 8 1))
  | 0x010A => some (.variantDefine h ⟨leAt b 0 8, leAt b 8 2, leAt b 0x10 8, leAt b 0x18 2, leAt b 0x1C 4, leAt b 0x20 8⟩)
  | 0x0201 => some (.reqSubmit h (submitBody b))
  | 0x0202 => some (.reqCancel h (leAt b 0 4))
  | 0x0203 => some (.reqPause h (leAt b 0 4))
  | 0x0204 => some (.reqResume h (leAt b 0 4))
  | 0x0205 => some (.reqQuery h (leAt b 0 4))
  | 0x0301 => some (.progLoad h w0)
  | 0x0302 => some (.progUnload h (leAt b 0 4))
  | 0x0303 => some (.launch h (launchBody b))
  | 0x0304 => some (.queueCreate h (leAt b 0 1) (leAt b 1 1) (leAt b 2 1))
  | 0x0305 => some (.queueDestroy h (leAt b 0 1) (leAt b 1 1))
  | 0x0306 => some (.ctxCreate h ⟨leAt b 0 2, leAt b 4 4, leAt b 8 8, leAt b 0x10 0x20⟩)
  | 0x0307 => some (.ctxDestroy h (leAt b 0 1))
  | 0x0308 =>
    if tbit h.cflags 0 then some (.preemptResume h (leAt b 0 1) (leAt b 1 1) (leAt b 8 8))
    else some (.preempt h (leAt b 0 1) (leAt b 1 1) (leAt b 8 8))
  | 0x0401 => some (.poolCreate h (leAt b 0 1) (leAt b 1 1) (leAt b 8 8) (leAt b 0x10 8))
  | 0x0402 =>
    some (.alloc h ⟨leAt b 0 1, leAt b 1 1, leAt b 2 1, leAt b 4 4, leAt b 8 8, leAt b 0x10 8, leAt b 0x18 8, leAt b 0x20 0x20⟩)
  | 0x0403 => some (.free h (leAt b 0 4))
  | 0x0404 => some (.copy h ⟨leAt b 0 1, leAt b 4 4, leAt b 8 4, leAt b 0x10 8, leAt b 0x18 8, leAt b 0x20 8⟩)
  | 0x0405 => some (.tierMove h (leAt b 0 4) (leAt b 4 1))
  | 0x0501 => some (.topoQuery h)
  | 0x0502 => some (.planLoad h w0 (windowSigned s h w0))
  | 0x0503 =>
    match leAt b 1 1 with
    | 0 => some (.linkCtlQuery h (leAt b 0 1))
    | 1 => some (.linkCtlDisable h (leAt b 0 1))
    | 2 => some (.linkCtlEnable h (leAt b 0 1))
    | _ => some (.linkCtlRetrain h (leAt b 0 1) (leAt b 8 8))
  | 0x0504 => some (.barrier h (leAt b 0 4) (leAt b 4 4) (leAt b 8 0x20))
  | 0x0505 =>
    some (.snapshotAt h (leAt b 0 8) (leAt b 8 1)
      ((List.range (leAt b 9 1)).map fun i => (leAt b (0x10 + 8 * i) 4, leAt b (0x14 + 8 * i) 4)))
  | 0x0506 => some (.beatSet h (leAt b 0 8))
  | 0x0601 => some (.capSet h (leAt b 0 4) (leAt b 8 8))
  | 0x0602 => some (.capQuery h)
  | 0x0603 => some (.energyRead h (leAt b 0 1) (leAt b 4 4) (leAt b 8 4))
  | 0x0701 => some (.healthQuery h)
  | 0x0702 => some (.rimeFreeze h)
  | 0x0703 => some (.rimeRead h (leAt b 0 1) (leAt b 4 4) (leAt b 8 4))
  | 0x0704 => some (.rimeThaw h)
  | 0x0705 => some (.rimeClear h)
  | 0x0801 => some (.regRead h (leAt b 0 4) (leAt b 4 2))
  | 0x0802 => some (.regWrite h (leAt b 0 4) (BitVec.ofNat 32 (leAt b 4 4)) (BitVec.ofNat 32 (leAt b 8 4)))
  | 0x0901 => some (.sorusOpen h (leAt b 0 4) (leAt b 8 0x20))
  | 0x0902 => some (.sorusCommit h (leAt b 0 4) (leAt b 4 1) (leAt b 8 8))
  | 0x0903 => some (.sorusAbort h (leAt b 0 4))
  | 0x0904 => some (.sorusPrepare (.host h) (leAt b 0 4) (leAt b 4 1) (leAt b 8 8))
  | 0x0A01 => some (.fwStage h w0 (windowSigned s h w0))
  | 0x0A02 => some (.fwActivate h (leAt b 0 8))
  | 0x0A03 => some (.attest h (b.drop 8))
  | 0x0A04 => some (.certRead h (leAt b 0 1) (leAt b 4 4) (leAt b 8 4))
  | 0x0A05 => if leAt b 0 1 = 0 then some (.resetStations h (leList b 8 1 (leAt b 1 1))) else some (.resetWarm h)
  | _ => none

/-! ### Taking the entries -/

/-- The state a command leaves. -/
def outcomeState (s : State) (o : Host.Outcome State Fault Refusal) : State :=
  match o with
  | .next t => t
  | _ => s

/-- A host command taken from a frame (R358); no other command arrives in one. Logs 16, 21: DESIGN CHOICE. -/
def takeHost (i : Instr) (s : State) : State :=
  outcomeState s <| match i with
  | .hello h p => execHello h p s
  | .sessionOpen h ph x q => execSessionOpen h ph x q s
  | .sessionClose h => execSessionClose h s
  | .keepalive h => execKeepalive h s
  | .capsQuery h => execCapsQuery h s
  | .modelDeclare h w t g => execModelDeclare h w t g s
  | .modelWithdraw h m => execModelWithdraw h m s
  | .shardPush h m k w o => execShardPush h m k w o s
  | .shardStatus h m f c => execShardStatus h m f c s
  | .modelActivate h m k p => execModelActivate h m k p s
  | .epochPublish h m e t => execEpochPublish h m e t s
  | .epochRetire h m e => execEpochRetire h m e s
  | .adapterLoad h m k w t g => execAdapterLoad h m k w t g s
  | .adapterReplace h m k => execAdapterReplace h m k s
  | .adapterUnload h m k => execAdapterUnload h m k s
  | .variantDefine h p => execVariantDefine h p s
  | .reqSubmit h p => execReqSubmit h p s
  | .reqCancel h r => execReqCancel h r s
  | .reqPause h r => execReqPause h r s
  | .reqResume h r => execReqResume h r s
  | .reqQuery h r => execReqQuery h r s
  | .progLoad h w => execProgLoad h w s
  | .progUnload h p => execProgUnload h p s
  | .launch h p => execLaunch h p s
  | .queueCreate h c k p => execQueueCreate h c k p s
  | .queueDestroy h c q => execQueueDestroy h c q s
  | .ctxCreate h p => execCtxCreate h p s
  | .ctxDestroy h c => execCtxDestroy h c s
  | .preempt h c q b => execPreempt h c q b s
  | .preemptResume h c q b => execPreemptResume h c q b s
  | .poolCreate h c t r l => execPoolCreate h c t r l s
  | .alloc h p => execAlloc h p s
  | .free h x => execFree h x s
  | .copy h p => execCopy h p s
  | .tierMove h x t => execTierMove h x t s
  | .topoQuery h => execTopoQuery h s
  | .planLoad h w g => execPlanLoad h w g s
  | .linkCtlQuery h p => execLinkCtlQuery h p s
  | .linkCtlDisable h p => execLinkCtlDisable h p s
  | .linkCtlEnable h p => execLinkCtlEnable h p s
  | .linkCtlRetrain h p b => execLinkCtlRetrain h p b s
  | .barrier h x t m => execBarrier h x t m s
  | .snapshotAt h b c p => execSnapshotAt h b c p s
  | .beatSet h x => execBeatSet h x s
  | .capSet h w b => execCapSet h w b s
  | .capQuery h => execCapQuery h s
  | .energyRead h k f c => execEnergyRead h k f c s
  | .healthQuery h => execHealthQuery h s
  | .rimeFreeze h => execRimeFreeze h s
  | .rimeRead h a f m => execRimeRead h a f m s
  | .rimeThaw h => execRimeThaw h s
  | .rimeClear h => execRimeClear h s
  | .regRead h o c => execRegRead h o c s
  | .regWrite h o v m => execRegWrite h o v m s
  | .sorusOpen h x m => execSorusOpen h x m s
  | .sorusCommit h x m b => execSorusCommit h x m b s
  | .sorusAbort h x => execSorusAbort h x s
  | .sorusPrepare p x c b => execSorusPrepare p x c b s
  | .fwStage h w g => execFwStage h w g s
  | .fwActivate h b => execFwActivate h b s
  | .attest h m => execAttest h m s
  | .certRead h k o n => execCertRead h k o n s
  | .resetStations h cs => execResetStations h cs s
  | .resetWarm h => execResetWarm h s
  | _ => .next s

/-- The header a command takes from its frame and entry. -/
def entryHdr (f : Frame) (e : RawEntry) : Hdr := ⟨f.session, f.src, f.port, e.tag, e.cflags, e.sorus⟩

/-- An entry is malformed when it runs past the payload or sets a reserved header bit (R351). -/
def malformed (e : RawEntry) : Bool :=
  e.overruns || e.reservedSet || decide (e.body.length < e.plen) ||
    ((layout e.opcode).isSome && decide (e.cflags &&& cflagsMask e.opcode ≠ e.cflags))

/-- An entry refused for its format; one that names an open sorus of its session aborts it (R374). Logs 25, 86: DESIGN CHOICE. -/
def refuseEntry (h : Hdr) (op status : Nat) (s : State) : State :=
  let s' := reply h op status 0 [] s
  match s.sorus h.sorus with
  | some x => if x.session = h.session && x.state = 0 then abortSorus x.id s.boot.pkg x.staged.length status s' else s'
  | none => s'

/-- One entry taken in entry order (R347, R351, R358, R362): whether a malformed one went before, and the state. Log 25: DESIGN CHOICE. -/
def takeEntry (f : Frame) (acc : Bool × State) (e : RawEntry) : Bool × State :=
  let s := acc.2
  let h := entryHdr f e
  let op := e.opcode % 0x8000
  if f.session ≠ 0 && (s.session f.session).isNone then acc
  else if acc.1 || malformed e then (true, refuseEntry h op stMalformed s)
  else if (layout e.opcode).isNone then (false, refuseEntry h op stUnknownOpcode s)
  else
    let b := e.body.take e.plen
    if !layoutOk e.opcode b then (false, refuseEntry h op stBadParam s)
    else match commandOf s h e.opcode b with
      | some i => (false, takeHost i s)
      | none => (false, s)

/-- The commands of a frame, in entry order. Log 24: DESIGN CHOICE. -/
def takeEntries (f : Frame) (s : State) : State := (f.entries.foldl (takeEntry f) (false, s)).2

/-! ### The receive window and acknowledgement -/

/-- Serial distance modulo 2^32 (R355). -/
def seqDist (a b : Nat) : Nat := (b + 2 ^ 32 - a % 2 ^ 32) % 2 ^ 32

/-- Whether ACK or ACK_MAP covers a frame (R346, R355 to R357). -/
def covered (f : Frame) (minor seq : Nat) : Bool :=
  let d := seqDist seq f.ack
  if 0 < d && decide (d < 2 ^ 31) then true
  else
    let i := seqDist f.ack seq
    minor = 1 && decide (0 < i) && decide (i ≤ 64) && tbit f.ackMap (i - 1)

/-- Entries that waited for room in the 64 unacknowledged frames leave (R355). -/
def sendWaiting (sid : Nat) (s : State) : State :=
  match s.session sid with
  | none => s
  | some e =>
    let n := min (64 - e.unacked.length) e.waitingOut.length
    (e.waitingOut.take n).foldl (fun s d => sendEntry sid d s)
      (setSession sid (fun e => { e with waitingOut := e.waitingOut.drop n }) s)

/-- An acknowledged token event is outstanding no longer (R354). -/
def ackEvent (x : DevFrame) (s : State) : State :=
  match x.entry with
  | some (.token _ body) => setReq (leAt body 0 4) (fun r => { r with unacked := r.unacked - 1 }) s
  | _ => s

/-- An acknowledgement of a frame that was sent once measures a round trip (R357). -/
def measure (x : DevFrame) (e : Session) (now : Nat) : Session :=
  if x.sentAt = x.lastAt then { e with srtt := Config.smoothedRtt e.srtt (now - x.sentAt) } else e

/-- A frame acknowledges the package's own frames and the events in them (R354 to R357). -/
def applyAck (f : Frame) (s : State) : State :=
  let acked := ((s.session f.session).map fun e => e.unacked.filter fun x => covered f e.minor x.seq).getD []
  let s := acked.foldl (fun s x => setSession f.session (fun e => measure x e s.beat.elapsed) (ackEvent x s)) s
  sendWaiting f.session
    (setSession f.session (fun e => { e with unacked := e.unacked.filter fun x => !covered f e.minor x.seq }) s)

/-- A frame whose turn has come is processed: the next expected number advances, its commands are taken (R355, R358). Log 23: DESIGN CHOICE. -/
def processFrame (f : Frame) (s : State) : State :=
  takeEntries f (setSession f.session (fun e => { e with
    nextIn := (e.nextIn + 1) % 2 ^ 32
    held := e.held.filter fun x => x.1 ≠ f.seq }) s)

/-- Held frames that now follow without a gap are processed in SEQ order (R355). Log 24: DESIGN CHOICE. -/
def processHeld (sid : Nat) : Nat → State → State
  | 0, s => s
  | n + 1, s =>
    match s.session sid with
    | none => s
    | some e =>
      match e.held.find? fun x => x.1 = e.nextIn with
      | none => s
      | some x => processHeld sid n (processFrame x.2 s)

/-- An ACK_ONLY frame of the package, with its own sequence number (R355, R356). Log 24: DESIGN CHOICE. -/
def sendAck (sid : Nat) (s : State) : State :=
  match s.session sid with
  | none => s
  | some e =>
    if 64 ≤ e.unacked.length then s
    else emit (.ackOnly sid e.nextOut e.nextIn)
      (setSession sid (fun e => { e with
        unacked := e.unacked ++ [⟨e.nextOut, none, s.beat.elapsed, s.beat.elapsed, e.rto⟩]
        nextOut := (e.nextOut + 1) % 2 ^ 32
        framesOut := e.framesOut + 1 }) s)

/-- The number of the next frame that the session sends. -/
def sentBy (s : State) (sid : Nat) : Nat :=
  match s.session sid with
  | some e => e.nextOut
  | none => 0

/-- An accepted frame is acknowledged by the next frame, or by an ACK_ONLY frame when none left (R356). A frame that only
acknowledges needs none. -/
def acknowledge (f : Frame) (before : Nat) (s : State) : State :=
  if f.ackOnly || sentBy s f.session ≠ before then s else sendAck f.session s

/-- A frame of the session has arrived: its port and source take what the package sends, and the idle time starts anew (R340,
R354). -/
def heard (f : Frame) (s : State) : State :=
  setSession f.session (fun e => { e with src := f.src, port := f.port, lastFrame := s.beat.elapsed }) s

/-- A frame inside a session, past its tag and version (R340, R351, R355, R356). -/
def sessionFrame (f : Frame) (e : Session) (s : State) : State :=
  let d := seqDist e.nextIn f.seq
  let again := decide (2 ^ 31 ≤ d) || (e.held.any fun x => x.1 = f.seq)
  if again then sendAck f.session (heard f s)
  else if 64 ≤ d then discard 5 s
  else
    let before := sentBy s f.session
    let s := setSession f.session (fun e => { e with framesIn := e.framesIn + 1 }) (heard f s)
    let s := applyAck f s
    if d = 0 then acknowledge f before (processHeld f.session 64 (processFrame f s))
    else acknowledge f before (setSession f.session (fun e => { e with held := e.held ++ [(f.seq, f)] }) s)

/-- Whether an entry may stand on session 0 (R351). -/
def openerEntry (e : RawEntry) : Bool := e.opcode = 0x0001 || (e.opcode = 0x0002 && e.body.headD 1#8 = 0#8)

/-- FRAME_RECEIVE (R351, R355 to R358, R475). Causes of a discard: 0 MAGIC, 1 length, 2 tag, 3 session, 4 version, 5 window,
6 session 0. Logs 23, 24: DESIGN CHOICE. -/
def execFrameReceive (f : Frame) (s : State) : Host.Outcome State Fault Refusal :=
  if s.boot.stage ≠ 6 || !s.net.ethUp.getD f.port false then .next s
  else if macsecOn s f.port && !f.macsecOk then .next s
  else if s.boot.pauseUntil.isSome then .next (holdRow (.frameReceive f) s)
  else if f.magic ≠ 0x1A1C then .next (discard 0 s)
  else if !f.lengthOk then .next (discard 1 s)
  else if f.session = 0 then
    if !f.tagOk then .next (discard 2 s)
    else if f.entries.any fun e => !openerEntry e then .next (discard 6 s)
    else .next (takeEntries f s)
  else
    match s.session f.session with
    | none => .next (discard 3 s)
    | some e =>
      if !f.tagOk then .next (discard 2 s)
      else if f.verMajor ≠ e.major || f.verMinor ≠ e.minor then .next (discard 4 s)
      else .next (sessionFrame f e s)

/-- What waited for the end of a pause is taken (R475). -/
def takeHeld (i : Instr) (s : State) : State :=
  match i with
  | .frameReceive f => outcomeState s (execFrameReceive f s)
  | i => takeHost i s

end Sys2Proof.Machine
end

