-- ==== Sys2Proof/Machine/Beat.lean ====
section
/-! DEFINITION. BEAT_TICK: a beat edge and the nine phases of R37. -/
namespace Sys2Proof.Machine

/-! ### The boundary and phase 1 -/

/-- Clock, sampling and latches of a beat edge, which run in every stage (R35, R37, R415, R425, R428, R434, R435, R442,
R470): the counter takes the beat, every shadow counter set wrong follows it, the journals are written. The window of the
50-beat power keeps each beat's estimate and the duty of the beat it describes (R408, R411). -/
def advance (inp : BeatInput) (s : State) : State :=
  let b := s.beat
  let p := s.pwr
  let w := p.window ++ [(inp.estimate, p.duty)]
  { s with
    beat := { b with
      count := beatAdd b.count 1
      elapsed := b.elapsed + 1
      ptpTime := b.ptpTime + 1
      shadowFix := b.shadowFix.map fun _ => false }
    pwr := { p with window := w.drop (w.length - 50) }
    thm := { s.thm with hottest := inp.temps, peak := (s.thm.peak.zip inp.temps).map fun x => max x.1 x.2 }
    hlth := { s.hlth with
      journal := b.elapsed + 1
      classes := s.hlth.classes.map fun c => { c with inThreshold := c.threshold, inLeak := c.leakMs } } }

/-- The pause of a live update ends, and the frames that came in it are taken (R475). -/
def endPause (s : State) : State :=
  match s.boot.pauseUntil with
  | some u =>
    if beatLe u s.now then
      s.boot.heldRows.foldl (fun s i => takeHeld i s) { s with boot := { s.boot with pauseUntil := none, heldRows := [] } }
    else s
  | none => s

/-- What a beat boundary does before the phases: names return and the health state is evaluated (R430, R436); claims, regions
and grants of the beat before are settled (R146, R280, R284, R390); prepared sori meet e - 4 (R378). Log 35: DESIGN CHOICE. -/
def boundary (s : State) : State :=
  phase1Sori (beginMoves (returnRegions (answerPreempts (releaseClaims (evalHealth (returnNames (endPause s)))))))

/-! ### Limcel's policy -/

/-- What Limcel changes in phase 3 (R147, R190, R205, R393): instance tables and capacity factors, committed at a step-boundary beat,
the handles of context 0, and the queues that it holds or resumes in phase 6. -/
def applyPolicy (p : Policy) (s : State) : State :=
  match p with
  | .replicaIn m l e pkg k tiles => replicaEnters m l e pkg k tiles s
  | .replicaOut m l e pkg k => replicaLeaves m l e pkg k s
  | .capacity m l cf => capacityChanges m l cf s
  | .ownHandle k r t n a m p => ownHandle k r t n a m p s
  | .dropHandle h => dropHandle h s
  | .fill h o d => fillHandle h o d s
  | .hold c q => holdQueue c q false s
  | .release c q => holdQueue c q true s
  | .reuse _ _ _ _ _ => s

/-- What Limcel changes with the requests, after phase 4 (R161, R173). -/
def applyReuse (p : Policy) (s : State) : State :=
  match p with
  | .reuse r d f n b => reusePrefix r d f n b s
  | _ => s

/-! ### Phases -/

/-- Phase 3 (R37): sori, what takes effect with them, Limcel's policy, and then the fabric sori (R248, R253, R256, R263, R284, R337). -/
def phase3 (ps : List Policy) (s : State) : State :=
  let s := switchLims (switchMoves (withdrawSpoilt (switchReloads (enlivenAll (phase3Sori s)))))
  commitTxns (ps.foldl (fun s p => applyPolicy p s) s)

/-- Phase 5 (R313). -/
def phase5 (s : State) : State := s.fab.snaps.foldl (fun s x => capture x.id s) s

/-- The S_BEAT at work in a list completes once its beat has come (R135, R138). -/
def releaseBeat (id : Nat) (l : ListSt) (s : State) : State :=
  match l.sbeat, (s.cmd id).bind fun c => l.queue.findIdx? (waitsForBeat c) with
  | some t, some i => if beatLe t s.now then passEntry ⟨id, l.code⟩ i (setList id l.code (fun l => { l with sbeat := none }) s) else s
  | _, _ => s

/-- Lists that an S_BEAT holds go on in phase 9 of its beat (R138). -/
def releaseBeats (s : State) : State :=
  (s.jobs.cmds.filter fun c => c.phase = .running).foldl (fun s c => c.lists.foldl (fun s l => releaseBeat c.id l s) s) s

/-- Barriers whose beat has come complete in phase 9 (R310). -/
def completeBarriers (s : State) : State := s.fab.ops.foldl (fun s o => completeBarrier o.id s) s

/-- Phase 9 as a whole (R37, R138, R310); during the pause of a live update no command starts (R475). -/
def phase9All (paused : Bool) (s : State) : State := completeBarriers (releaseBeats (if paused then s else phase9 s))

/-! ### After phase 9 -/

/-- A stalled beat counts once; an episode begins where the beat before was not stalled (R286). Log 36: DESIGN CHOICE. -/
def stallBeat (ctx tier : Nat) (s : State) : State :=
  let goesOn := (s.ctx ctx).any fun x => x.stalls.any fun e =>
    e.tier = tier && e.cause = 2 && decide (e.lastBeat + 1 = s.beat.elapsed)
  addStall ctx tier 2 1 (bit (!goesOn)) s

/-- The tier whose space a waiting placement lacks (R252): HBM while the CLASS 0 tensors do not fit it. Log 144: DESIGN CHOICE. -/
def placeTier (s : State) (m : Manifest) : Nat :=
  let hot := ((m.heldBy s.boot.pkg).filter fun t => t.cls = 0).map Tensor.regionBytes
  if freeSpace s 0 < hot.sum then 0 else 1

/-- The context and tier that a waiting demand stalls (R279, R286); one of the package itself stalls context 0 (DESIGN CHOICE, log 144). Log 36: DESIGN CHOICE. -/
def demandStall (s : State) (d : Demand) : Option (Nat × Nat) :=
  match d.want with
  | .alloc p => (s.account p.account).map fun a => (a.ctx, a.tier)
  | .place m _ => some (0, placeTier s m)
  | .pauseMove _ => some (0, 1)
  | .limcelMove _ _ tier => some (0, tier)

/-- The context and tier that a TIER_MOVE without its region stalls. -/
def moveStall (s : State) (h : Handle) : Option (Nat × Nat) :=
  match h.move with
  | some m => if m.newBase.isNone && !writersRun s h.id then some (h.ctx, m.tier) else none
  | none => none

/-- The context and tier that a sorus stalls while one of its commands waits for space (R279, R378). -/
def sorusStall (s : State) (x : Sorus) : Option (Nat × Nat) :=
  if x.state ≠ 1 || answered s x then none
  else
    match (prepAll x.principal x.id 0 x.staged s).2 with
    | some (_, i, st) =>
      if !waitsForSpace i st then none
      else (match i with
        | .alloc _ p => (s.account p.account).map fun a => (a.ctx, a.tier)
        | _ => some (0, 0))
    | none => none

/-- Whether a request needs a page-set for its next slots while its model has none free (R161, R178, R281). -/
def waitsForSet (s : State) (r : Req) : Bool :=
  let ahead := if (r.state = 3 || r.state = 4) && subSpeculates r.p then 17 else 1
  let copies := (r.pages[r.fill / 64]?).any fun e => e.shared
  1 ≤ r.state && r.state ≤ 4 && (copies || decide (64 * r.pages.length < r.fill + ahead)) && !inStep s r.id &&
    (s.model r.p.modelId).any fun m => m.state = 3 && freeSets m = 0

/-- The POOL_EMPTY stalls of the beat, once per context and tier (R281, R286). Log 36: DESIGN CHOICE. -/
def countStalls (s : State) : State :=
  let ds := s.mem.demands.filterMap (demandStall s) ++ s.mem.handles.filterMap (moveStall s) ++ s.sori.sori.filterMap (sorusStall s)
  let kv := if s.serve.reqs.any (waitsForSet s) then [(0, 0)] else []
  (ds ++ kv).eraseDups.foldl (fun s x => stallBeat x.1 x.2 s) s

/-- Whether an access is a write that waits for credit (R315, R338). Log 36: DESIGN CHOICE. -/
def heldWrite (a : Access) : Bool :=
  a.held && match a.kind with
    | .load _ => false
    | _ => true

/-- The counts of the beat: limited, withheld and credit-waiting beats (R338, R419, R423). -/
def countBeat (s : State) : State :=
  let p := s.pwr
  { s with
    pwr := { p with
      limited := if limitedNow s then sat32 (p.limited + 1) else p.limited
      paced := if issueBeat s.now p.duty then p.paced else sat32 (p.paced + 1) }
    fab := { s.fab with
      creditWait := if s.fab.accesses.any heldWrite then sat32 (s.fab.creditWait + 1) else s.fab.creditWait } }

/-- What falls free or is tried again when the phases are over: old regions, epochs and adapter versions that nothing
uses, replicas no table names, waiting demands, reloads, snapshots (R205, R248, R256, R262, R264, R279, R284,
R313). Log 35: DESIGN CHOICE. -/
def afterPhases (s : State) : State :=
  let s := freeMoved (freeOldRegions (releasePages s))
  let s := sweepReplicas (s.models.models.foldl (fun s m => sweepEpochs m.id s) s)
  finishSnaps (beginReloads (retryDemands (sweepAdapters s)))

/-- The phases of a beat of a package that is READY (R37). Log 35: DESIGN CHOICE. -/
def phases (inp : BeatInput) (s : State) : State :=
  let s := boundary s
  let paused := s.boot.pauseUntil.isSome
  let s := phase3 inp.policy (phase2 inp.outs s)
  let s := phase5 (if paused then s else inp.policy.foldl (fun s p => applyReuse p s) (phase4 s))
  let s := if paused then s else applyResets (phase6 s)
  let s := phase9All paused (phase8 (phase7 s))
  countBeat (countStalls (afterPhases s))

/-- BEAT_TICK (R37, R470): while POR_L is low or power is out there is no beat; before READY the counter runs and the sensors
are sampled, and nothing is scheduled. Logs 21, 35: DESIGN CHOICE. -/
def execBeatTick (inp : BeatInput) (s : State) : Host.Outcome State Fault Refusal :=
  if s.pins.porLow || !s.pins.pwrGood then .next s
  else
    let s := alignNow (advance inp s)
    if s.boot.stage = 6 then .next (phases inp s) else .next s

end Sys2Proof.Machine
end

