-- ==== Sys2Proof/Machine/Dispatch.lean ====
section
/-! DEFINITION. The meaning of every command but for the queue: one arm per row of opcode_table.json. -/
namespace Sys2Proof.Machine

/-- The command's effect on everything but the queue. -/
def exec (i : Instr) (s : State) : Host.Outcome State Fault Refusal :=
  match i with
  | .hello h p => Sys2Proof.Machine.execHello h p s
  | .sessionOpen h phase spdm qps => Sys2Proof.Machine.execSessionOpen h phase spdm qps s
  | .sessionClose h => Sys2Proof.Machine.execSessionClose h s
  | .keepalive h => Sys2Proof.Machine.execKeepalive h s
  | .capsQuery h => Sys2Proof.Machine.execCapsQuery h s
  | .modelDeclare h w shardTimeout sigOk => Sys2Proof.Machine.execModelDeclare h w shardTimeout sigOk s
  | .modelWithdraw h modelId => Sys2Proof.Machine.execModelWithdraw h modelId s
  | .shardPush h modelId shard window offset => Sys2Proof.Machine.execShardPush h modelId shard window offset s
  | .shardStatus h modelId first count => Sys2Proof.Machine.execShardStatus h modelId first count s
  | .modelActivate h modelId kCand kvPagesets => Sys2Proof.Machine.execModelActivate h modelId kCand kvPagesets s
  | .epochPublish h modelId epoch table => Sys2Proof.Machine.execEpochPublish h modelId epoch table s
  | .epochRetire h modelId epoch => Sys2Proof.Machine.execEpochRetire h modelId epoch s
  | .adapterLoad h modelId slot w shardTimeout sigOk => Sys2Proof.Machine.execAdapterLoad h modelId slot w shardTimeout sigOk s
  | .adapterReplace h modelId slot => Sys2Proof.Machine.execAdapterReplace h modelId slot s
  | .adapterUnload h modelId slot => Sys2Proof.Machine.execAdapterUnload h modelId slot s
  | .variantDefine h p => Sys2Proof.Machine.execVariantDefine h p s
  | .reqSubmit h p => Sys2Proof.Machine.execReqSubmit h p s
  | .reqCancel h request => Sys2Proof.Machine.execReqCancel h request s
  | .reqPause h request => Sys2Proof.Machine.execReqPause h request s
  | .reqResume h request => Sys2Proof.Machine.execReqResume h request s
  | .reqQuery h request => Sys2Proof.Machine.execReqQuery h request s
  | .progLoad h w => Sys2Proof.Machine.execProgLoad h w s
  | .progUnload h program => Sys2Proof.Machine.execProgUnload h program s
  | .launch h p => Sys2Proof.Machine.execLaunch h p s
  | .queueCreate h ctx cls priority => Sys2Proof.Machine.execQueueCreate h ctx cls priority s
  | .queueDestroy h ctx queue => Sys2Proof.Machine.execQueueDestroy h ctx queue s
  | .ctxCreate h p => Sys2Proof.Machine.execCtxCreate h p s
  | .ctxDestroy h ctx => Sys2Proof.Machine.execCtxDestroy h ctx s
  | .preempt h ctx queue beat => Sys2Proof.Machine.execPreempt h ctx queue beat s
  | .preemptResume h ctx queue beat => Sys2Proof.Machine.execPreemptResume h ctx queue beat s
  | .poolCreate h ctx tier reserve limit => Sys2Proof.Machine.execPoolCreate h ctx tier reserve limit s
  | .alloc h p => Sys2Proof.Machine.execAlloc h p s
  | .free h handle => Sys2Proof.Machine.execFree h handle s
  | .copy h p => Sys2Proof.Machine.execCopy h p s
  | .tierMove h handle tier => Sys2Proof.Machine.execTierMove h handle tier s
  | .topoQuery h => Sys2Proof.Machine.execTopoQuery h s
  | .planLoad h w sigOk => Sys2Proof.Machine.execPlanLoad h w sigOk s
  | .linkCtlQuery h port => Sys2Proof.Machine.execLinkCtlQuery h port s
  | .linkCtlDisable h port => Sys2Proof.Machine.execLinkCtlDisable h port s
  | .linkCtlEnable h port => Sys2Proof.Machine.execLinkCtlEnable h port s
  | .linkCtlRetrain h port beat => Sys2Proof.Machine.execLinkCtlRetrain h port beat s
  | .barrier h id timeout members => Sys2Proof.Machine.execBarrier h id timeout members s
  | .snapshotAt h beat ctx pairs => Sys2Proof.Machine.execSnapshotAt h beat ctx pairs s
  | .beatSet h second => Sys2Proof.Machine.execBeatSet h second s
  | .capSet h watts beat => Sys2Proof.Machine.execCapSet h watts beat s
  | .capQuery h => Sys2Proof.Machine.execCapQuery h s
  | .energyRead h kind first count => Sys2Proof.Machine.execEnergyRead h kind first count s
  | .healthQuery h => Sys2Proof.Machine.execHealthQuery h s
  | .rimeFreeze h => Sys2Proof.Machine.execRimeFreeze h s
  | .rimeRead h area first maxBytes => Sys2Proof.Machine.execRimeRead h area first maxBytes s
  | .rimeThaw h => Sys2Proof.Machine.execRimeThaw h s
  | .rimeClear h => Sys2Proof.Machine.execRimeClear h s
  | .regRead h offset count => Sys2Proof.Machine.execRegRead h offset count s
  | .regWrite h offset value mask => Sys2Proof.Machine.execRegWrite h offset value mask s
  | .sorusOpen h sorus members => Sys2Proof.Machine.execSorusOpen h sorus members s
  | .sorusCommit h sorus mode beat => Sys2Proof.Machine.execSorusCommit h sorus mode beat s
  | .sorusAbort h sorus => Sys2Proof.Machine.execSorusAbort h sorus s
  | .sorusPrepare src sorus coord commitBeat => Sys2Proof.Machine.execSorusPrepare src sorus coord commitBeat s
  | .fwStage h w sigOk => Sys2Proof.Machine.execFwStage h w sigOk s
  | .fwActivate h beat => Sys2Proof.Machine.execFwActivate h beat s
  | .attest h message => Sys2Proof.Machine.execAttest h message s
  | .certRead h slot offset length => Sys2Proof.Machine.execCertRead h slot offset length s
  | .resetStations h ctxs => Sys2Proof.Machine.execResetStations h ctxs s
  | .resetWarm h => Sys2Proof.Machine.execResetWarm h s
  | .frameReceive f => Sys2Proof.Machine.execFrameReceive f s
  | .retransmit session seq => Sys2Proof.Machine.execRetransmit session seq s
  | .sessionIdleTimeout session => Sys2Proof.Machine.execSessionIdleTimeout session s
  | .sessionAckTimeout session => Sys2Proof.Machine.execSessionAckTimeout session s
  | .keyUpdate session => Sys2Proof.Machine.execKeyUpdate session s
  | .sessionKeyExpiry session => Sys2Proof.Machine.execSessionKeyExpiry session s
  | .principalLoss principal => Sys2Proof.Machine.execPrincipalLoss principal s
  | .requestForget request => Sys2Proof.Machine.execRequestForget request s
  | .acctSlotRelease slot => Sys2Proof.Machine.execAcctSlotRelease slot s
  | .rdmaWrite p => Sys2Proof.Machine.execRdmaWrite p s
  | .ethLinkLoss port => Sys2Proof.Machine.execEthLinkLoss port s
  | .ptpSync timeUs offsetNs => Sys2Proof.Machine.execPtpSync timeUs offsetNs s
  | .ptpTimeout => Sys2Proof.Machine.execPtpTimeout s
  | .beatTick inp => Sys2Proof.Machine.execBeatTick inp s
  | .thermalStep => Sys2Proof.Machine.execThermalStep s
  | .stepCommit cmd outs => Sys2Proof.Machine.execStepCommit cmd outs s
  | .sorusCommitApply sorus => Sys2Proof.Machine.execSorusCommitApply sorus s
  | .snapshotCapture snap => Sys2Proof.Machine.execSnapshotCapture snap s
  | .preemptGrant ctx queue => Sys2Proof.Machine.execPreemptGrant ctx queue s
  | .retrainWindow => Sys2Proof.Machine.execRetrainWindow s
  | .commandStart => Sys2Proof.Machine.execCommandStart s
  | .descriptorIssue at_ => Sys2Proof.Machine.execDescriptorIssue at_ s
  | .descriptorComplete at_ => Sys2Proof.Machine.execDescriptorComplete at_ s
  | .commandRetire cmd => Sys2Proof.Machine.execCommandRetire cmd s
  | .commandRestart cmd => Sys2Proof.Machine.execCommandRestart cmd s
  | .watchdogExpiry cmd => Sys2Proof.Machine.execWatchdogExpiry cmd s
  | .contextFault cmd cause at_ => Sys2Proof.Machine.execContextFault cmd cause at_ s
  | .streamCreditReturn cmd stream => Sys2Proof.Machine.execStreamCreditReturn cmd stream s
  | .sSync at_ => Sys2Proof.Machine.execSSync at_ s
  | .sBeat at_ absolute beat => Sys2Proof.Machine.execSBeat at_ absolute beat s
  | .hint at_ f => Sys2Proof.Machine.execHint at_ f s
  | .sFetch at_ f => Sys2Proof.Machine.execSFetch at_ f s
  | .sStore at_ f => Sys2Proof.Machine.execSStore at_ f s
  | .fLoad at_ f => Sys2Proof.Machine.execFLoad at_ f s
  | .stationarySwap at_ => Sys2Proof.Machine.execStationarySwap at_ s
  | .fMma at_ f residueFails => Sys2Proof.Machine.execFMma at_ f residueFails s
  | .fDrain at_ f => Sys2Proof.Machine.execFDrain at_ f s
  | .fHad at_ f => Sys2Proof.Machine.execFHad at_ f s
  | .vEwise at_ f => Sys2Proof.Machine.execVEwise at_ f s
  | .vSoftmax at_ f => Sys2Proof.Machine.execVSoftmax at_ f s
  | .vNorm at_ f => Sys2Proof.Machine.execVNorm at_ f s
  | .vRope at_ f => Sys2Proof.Machine.execVRope at_ f s
  | .vConvert at_ f => Sys2Proof.Machine.execVConvert at_ f s
  | .vCombine at_ f => Sys2Proof.Machine.execVCombine at_ f s
  | .vOpt at_ f => Sys2Proof.Machine.execVOpt at_ f s
  | .vSample at_ f => Sys2Proof.Machine.execVSample at_ f s
  | .gTopk at_ f => Sys2Proof.Machine.execGTopk at_ f s
  | .gCount at_ f => Sys2Proof.Machine.execGCount at_ f s
  | .gScan at_ f => Sys2Proof.Machine.execGScan at_ f s
  | .gSort at_ f => Sys2Proof.Machine.execGSort at_ f s
  | .gScatter at_ f => Sys2Proof.Machine.execGScatter at_ f s
  | .gGather at_ f => Sys2Proof.Machine.execGGather at_ f s
  | .tMove at_ f => Sys2Proof.Machine.execTMove at_ f s
  | .tFill at_ f => Sys2Proof.Machine.execTFill at_ f s
  | .zCopy at_ f => Sys2Proof.Machine.execZCopy at_ f s
  | .zWait at_ f => Sys2Proof.Machine.execZWait at_ f s
  | .zAtomic at_ f => Sys2Proof.Machine.execZAtomic at_ f s
  | .zInval at_ f => Sys2Proof.Machine.execZInval at_ f s
  | .zReduce at_ f arrivals => Sys2Proof.Machine.execZReduce at_ f arrivals s
  | .zXchg at_ f => Sys2Proof.Machine.execZXchg at_ f s
  | .zTxn at_ f => Sys2Proof.Machine.execZTxn at_ f s
  | .fabricRequest r => Sys2Proof.Machine.execFabricRequest r s
  | .fabricResponse r => Sys2Proof.Machine.execFabricResponse r s
  | .requestAged access => Sys2Proof.Machine.execRequestAged access s
  | .fabricAccessTimeout access => Sys2Proof.Machine.execFabricAccessTimeout access s
  | .fabricSorusCommit => Sys2Proof.Machine.execFabricSorusCommit s
  | .countRecord r => Sys2Proof.Machine.execCountRecord r s
  | .exchangeRow r => Sys2Proof.Machine.execExchangeRow r s
  | .barrierArrival id members a => Sys2Proof.Machine.execBarrierArrival id members a s
  | .barrierRelease id beat members limited => Sys2Proof.Machine.execBarrierRelease id beat members limited s
  | .barrierComplete id => Sys2Proof.Machine.execBarrierComplete id s
  | .globalOpTimeout id => Sys2Proof.Machine.execGlobalOpTimeout id s
  | .sorusPrepared sorus pkg status index => Sys2Proof.Machine.execSorusPrepared sorus pkg status index s
  | .sorusPrepareDeadline sorus => Sys2Proof.Machine.execSorusPrepareDeadline sorus s
  | .sorusDecision sorus commit => Sys2Proof.Machine.execSorusDecision sorus commit s
  | .sorusInDoubtTimeout sorus => Sys2Proof.Machine.execSorusInDoubtTimeout sorus s
  | .sorusTimeout sorus => Sys2Proof.Machine.execSorusTimeout sorus s
  | .linkDetect port => Sys2Proof.Machine.execLinkDetect port s
  | .linkEqualiseDone port goodLanes => Sys2Proof.Machine.execLinkEqualiseDone port goodLanes s
  | .linkStageTimeout port => Sys2Proof.Machine.execLinkStageTimeout port s
  | .identRecord port r => Sys2Proof.Machine.execIdentRecord port r s
  | .identResend port => Sys2Proof.Machine.execIdentResend port s
  | .linkRetry port => Sys2Proof.Machine.execLinkRetry port s
  | .linkDown port => Sys2Proof.Machine.execLinkDown port s
  | .linkStateRecord pkg port up => Sys2Proof.Machine.execLinkStateRecord pkg port up s
  | .laserFeedLoss port => Sys2Proof.Machine.execLaserFeedLoss port s
  | .faultFinding unit finding => Sys2Proof.Machine.execFaultFinding unit finding s
  | .memoryCorrectable tier addr hard => Sys2Proof.Machine.execMemoryCorrectable tier addr hard s
  | .memoryUncorrectable tier addr cmds => Sys2Proof.Machine.execMemoryUncorrectable tier addr cmds s
  | .bucketLeak => Sys2Proof.Machine.execBucketLeak s
  | .takeover unit micros => Sys2Proof.Machine.execTakeover unit micros s
  | .unitTestComplete unit passed => Sys2Proof.Machine.execUnitTestComplete unit passed s
  | .nameReturn die letter num => Sys2Proof.Machine.execNameReturn die letter num s
  | .lockstepMismatch pair => Sys2Proof.Machine.execLockstepMismatch pair s
  | .standbyResume => Sys2Proof.Machine.execStandbyResume s
  | .migrationComplete tier channel => Sys2Proof.Machine.execMigrationComplete tier channel s
  | .beatShadowCheck counts => Sys2Proof.Machine.execBeatShadowCheck counts s
  | .scrubPass findings => Sys2Proof.Machine.execScrubPass findings s
  | .epochWithdraw modelId epoch => Sys2Proof.Machine.execEpochWithdraw modelId epoch s
  | .epochFree modelId epoch => Sys2Proof.Machine.execEpochFree modelId epoch s
  | .digestComplete addr bytes => Sys2Proof.Machine.execDigestComplete addr bytes s
  | .shardConvert => Sys2Proof.Machine.execShardConvert s
  | .shardTimeout modelId shard => Sys2Proof.Machine.execShardTimeout modelId shard s
  | .shardPeerRead modelId shard images => Sys2Proof.Machine.execShardPeerRead modelId shard images s
  | .adapterVersionLive modelId slot => Sys2Proof.Machine.execAdapterVersionLive modelId slot s
  | .reqExpire request => Sys2Proof.Machine.execReqExpire request s
  | .pauseTtlExpire request => Sys2Proof.Machine.execPauseTtlExpire request s
  | .pausedHoldExpire request => Sys2Proof.Machine.execPausedHoldExpire request s
  | .pauseMoveRetry request => Sys2Proof.Machine.execPauseMoveRetry request s
  | .resumeMoveComplete request => Sys2Proof.Machine.execResumeMoveComplete request s
  | .evictionWaitTimeout demand => Sys2Proof.Machine.execEvictionWaitTimeout demand s
  | .tierMoveCopy handle => Sys2Proof.Machine.execTierMoveCopy handle s
  | .tierMoveSwitch handle => Sys2Proof.Machine.execTierMoveSwitch handle s
  | .limcelTierMove modelId tensor tier => Sys2Proof.Machine.execLimcelTierMove modelId tensor tier s
  | .hintExpire index => Sys2Proof.Machine.execHintExpire index s
  | .slowdownWindow solo => Sys2Proof.Machine.execSlowdownWindow solo s
  | .telemetrySample samples => Sys2Proof.Machine.execTelemetrySample samples s
  | .reconcileMs r => Sys2Proof.Machine.execReconcileMs r s
  | .regulatorReady engine => Sys2Proof.Machine.execRegulatorReady engine s
  | .raiseTimeout engine => Sys2Proof.Machine.execRaiseTimeout engine s
  | .powerTripAlert rail current => Sys2Proof.Machine.execPowerTripAlert rail current s
  | .tripHoldExpire => Sys2Proof.Machine.execTripHoldExpire s
  | .thermalTrip die sensor celsius => Sys2Proof.Machine.execThermalTrip die sensor celsius s
  | .rimeMirror failed => Sys2Proof.Machine.execRimeMirror failed s
  | .rimeFreezeExpire => Sys2Proof.Machine.execRimeFreezeExpire s
  | .powerOnReset => Sys2Proof.Machine.execPowerOnReset s
  | .bootStageComplete inp => Sys2Proof.Machine.execBootStageComplete inp s
  | .warmResetAssert => Sys2Proof.Machine.execWarmResetAssert s
  | .warmRestart => Sys2Proof.Machine.execWarmRestart s
  | .reverifyComplete modelId badRegions => Sys2Proof.Machine.execReverifyComplete modelId badRegions s
  | .powerFail => Sys2Proof.Machine.execPowerFail s
  | .beatMarkLoss => Sys2Proof.Machine.execBeatMarkLoss s
  | .beatMarkRecover => Sys2Proof.Machine.execBeatMarkRecover s
  | .beatClkLoss => Sys2Proof.Machine.execBeatClkLoss s
  | .beatClkRecover edgeBeat => Sys2Proof.Machine.execBeatClkRecover edgeBeat s
  | .fwTakeover pauseNs => Sys2Proof.Machine.execFwTakeover pauseNs s
  | .pairReloadComplete pair => Sys2Proof.Machine.execPairReloadComplete pair s
  | .macsecKey port cak ckn => Sys2Proof.Machine.execMacsecKey port cak ckn s
  | .shutdown => Sys2Proof.Machine.execShutdown s
  | .installChunk offset data => Sys2Proof.Machine.execInstallChunk offset data s
  | .installCommit total sigOk => Sys2Proof.Machine.execInstallCommit total sigOk s
  | .loadModeWrite die num mode => Sys2Proof.Machine.execLoadModeWrite die num mode s
  | .capRegisterWrite watts => Sys2Proof.Machine.execCapRegisterWrite watts s
  | .registerWrite offset value => Sys2Proof.Machine.execRegisterWrite offset value s
  | .latchedRead requester offset => Sys2Proof.Machine.execLatchedRead requester offset s
  | .hlthStateRead requester => Sys2Proof.Machine.execHlthStateRead requester s
  | .i3cOffsetWrite offset count => Sys2Proof.Machine.execI3cOffsetWrite offset count s
  | .porAssert heldUs => Sys2Proof.Machine.execPorAssert heldUs s
  | .ethLinkUp port => Sys2Proof.Machine.execEthLinkUp port s
  | .neighborDiscoveryArp q => Sys2Proof.Machine.execNeighborDiscoveryArp q s
  | .jtagInstruction op => Sys2Proof.Machine.execJtagInstruction op s
  | .servingStepLaunch p => Sys2Proof.Machine.execServingStepLaunch p s
  | .pauseMoveComplete request => Sys2Proof.Machine.execPauseMoveComplete request s
  | .snapshotUnitCopy snap => Sys2Proof.Machine.execSnapshotUnitCopy snap s
  | .transitPacket p => Sys2Proof.Machine.execTransitPacket p s
  | .sorusDecisionQuery sorus pkg => Sys2Proof.Machine.execSorusDecisionQuery sorus pkg s

end Sys2Proof.Machine
end

