-- ==== Sys2Proof/Laws/PerInstr.lean ====
section
/-! SUPPORT. A property of every command as syntax: the opcode of a command that may be staged is stageable, and its entry in
a frame takes a multiple of 8 bytes, at least 16 (R347, R375). -/
namespace Sys2Proof.Laws.Family

/-- The opcode under which the command would be staged is one of R375's, and the entry's length is a whole number of 8-byte
units from its header on. -/
def Statement (i : Instr) : Prop :=
  (∀ h op, Machine.hdrOf i = some (h, op) → Machine.stageable op = true) ∧ Machine.entryBytes i % 8 = 0 ∧ 16 ≤ Machine.entryBytes i

end Sys2Proof.Laws.Family

/-- A command that is never staged. -/
theorem Sys2Proof.Laws.Family.of_none {i : Sys2Proof.Instr} (h : Sys2Proof.Machine.hdrOf i = none)
    (n : Sys2Proof.Machine.entryBytes i = 32) : Sys2Proof.Laws.Family.Statement i :=
  ⟨fun _ _ hh => by simp [h] at hh, by simp [n], by simp [n]⟩

/-- A command that is staged under an opcode. -/
theorem Sys2Proof.Laws.Family.of_some {i : Sys2Proof.Instr} {h : Sys2Proof.Hdr} {op k : Nat}
    (e : Sys2Proof.Machine.hdrOf i = some (h, op)) (o : Sys2Proof.Machine.stageable op = true)
    (n : Sys2Proof.Machine.entryBytes i = 8 * (k + 2)) : Sys2Proof.Laws.Family.Statement i :=
  ⟨fun a b hh => by rw [e] at hh; cases hh; exact o, by omega, by omega⟩

theorem Sys2Proof.Laws.Family.hello : ∀ x1 x2, Sys2Proof.Laws.Family.Statement (.hello x1 x2) :=
  fun _ _ => Sys2Proof.Laws.Family.of_none rfl rfl
theorem Sys2Proof.Laws.Family.sessionOpen : ∀ x1 x2 x3 x4, Sys2Proof.Laws.Family.Statement (.sessionOpen x1 x2 x3 x4) :=
  fun _ _ _ _ => Sys2Proof.Laws.Family.of_none rfl rfl
theorem Sys2Proof.Laws.Family.sessionClose : ∀ x1, Sys2Proof.Laws.Family.Statement (.sessionClose x1) :=
  fun _ => Sys2Proof.Laws.Family.of_none rfl rfl
theorem Sys2Proof.Laws.Family.keepalive : ∀ x1, Sys2Proof.Laws.Family.Statement (.keepalive x1) :=
  fun _ => Sys2Proof.Laws.Family.of_none rfl rfl
theorem Sys2Proof.Laws.Family.capsQuery : ∀ x1, Sys2Proof.Laws.Family.Statement (.capsQuery x1) :=
  fun _ => Sys2Proof.Laws.Family.of_none rfl rfl
theorem Sys2Proof.Laws.Family.modelDeclare : ∀ x1 x2 x3 x4, Sys2Proof.Laws.Family.Statement (.modelDeclare x1 x2 x3 x4) :=
  fun _ _ _ _ => Sys2Proof.Laws.Family.of_none rfl rfl
theorem Sys2Proof.Laws.Family.modelWithdraw : ∀ x1 x2, Sys2Proof.Laws.Family.Statement (.modelWithdraw x1 x2) :=
  fun _ _ => Sys2Proof.Laws.Family.of_none rfl rfl
theorem Sys2Proof.Laws.Family.shardPush : ∀ x1 x2 x3 x4 x5, Sys2Proof.Laws.Family.Statement (.shardPush x1 x2 x3 x4 x5) :=
  fun _ _ _ _ _ => Sys2Proof.Laws.Family.of_none rfl rfl
theorem Sys2Proof.Laws.Family.shardStatus : ∀ x1 x2 x3 x4, Sys2Proof.Laws.Family.Statement (.shardStatus x1 x2 x3 x4) :=
  fun _ _ _ _ => Sys2Proof.Laws.Family.of_none rfl rfl
theorem Sys2Proof.Laws.Family.modelActivate : ∀ x1 x2 x3 x4, Sys2Proof.Laws.Family.Statement (.modelActivate x1 x2 x3 x4) :=
  fun _ _ _ _ => Sys2Proof.Laws.Family.of_some (k := 2) rfl rfl rfl
theorem Sys2Proof.Laws.Family.epochPublish : ∀ x1 x2 x3 x4, Sys2Proof.Laws.Family.Statement (.epochPublish x1 x2 x3 x4) :=
  fun _ _ _ _ => Sys2Proof.Laws.Family.of_some (k := 2) rfl rfl rfl
theorem Sys2Proof.Laws.Family.epochRetire : ∀ x1 x2 x3, Sys2Proof.Laws.Family.Statement (.epochRetire x1 x2 x3) :=
  fun _ _ _ => Sys2Proof.Laws.Family.of_some (k := 2) rfl rfl rfl
theorem Sys2Proof.Laws.Family.adapterLoad : ∀ x1 x2 x3 x4 x5 x6, Sys2Proof.Laws.Family.Statement (.adapterLoad x1 x2 x3 x4 x5 x6) :=
  fun _ _ _ _ _ _ => Sys2Proof.Laws.Family.of_none rfl rfl
theorem Sys2Proof.Laws.Family.adapterReplace : ∀ x1 x2 x3, Sys2Proof.Laws.Family.Statement (.adapterReplace x1 x2 x3) :=
  fun _ _ _ => Sys2Proof.Laws.Family.of_some (k := 2) rfl rfl rfl
theorem Sys2Proof.Laws.Family.adapterUnload : ∀ x1 x2 x3, Sys2Proof.Laws.Family.Statement (.adapterUnload x1 x2 x3) :=
  fun _ _ _ => Sys2Proof.Laws.Family.of_some (k := 2) rfl rfl rfl
theorem Sys2Proof.Laws.Family.variantDefine : ∀ x1 x2, Sys2Proof.Laws.Family.Statement (.variantDefine x1 x2) :=
  fun _ _ => Sys2Proof.Laws.Family.of_some (k := 5) rfl rfl rfl
theorem Sys2Proof.Laws.Family.reqSubmit : ∀ x1 x2, Sys2Proof.Laws.Family.Statement (.reqSubmit x1 x2) := by
  intro h p
  refine ⟨fun a b hh => by cases hh; rfl, ?_, ?_⟩ <;> (simp only [Sys2Proof.Machine.entryBytes]; split <;> omega)
theorem Sys2Proof.Laws.Family.reqCancel : ∀ x1 x2, Sys2Proof.Laws.Family.Statement (.reqCancel x1 x2) :=
  fun _ _ => Sys2Proof.Laws.Family.of_some (k := 1) rfl rfl rfl
theorem Sys2Proof.Laws.Family.reqPause : ∀ x1 x2, Sys2Proof.Laws.Family.Statement (.reqPause x1 x2) :=
  fun _ _ => Sys2Proof.Laws.Family.of_some (k := 1) rfl rfl rfl
theorem Sys2Proof.Laws.Family.reqResume : ∀ x1 x2, Sys2Proof.Laws.Family.Statement (.reqResume x1 x2) :=
  fun _ _ => Sys2Proof.Laws.Family.of_some (k := 1) rfl rfl rfl
theorem Sys2Proof.Laws.Family.reqQuery : ∀ x1 x2, Sys2Proof.Laws.Family.Statement (.reqQuery x1 x2) :=
  fun _ _ => Sys2Proof.Laws.Family.of_none rfl rfl
theorem Sys2Proof.Laws.Family.progLoad : ∀ x1 x2, Sys2Proof.Laws.Family.Statement (.progLoad x1 x2) :=
  fun _ _ => Sys2Proof.Laws.Family.of_none rfl rfl
theorem Sys2Proof.Laws.Family.progUnload : ∀ x1 x2, Sys2Proof.Laws.Family.Statement (.progUnload x1 x2) :=
  fun _ _ => Sys2Proof.Laws.Family.of_none rfl rfl
theorem Sys2Proof.Laws.Family.launch : ∀ x1 x2, Sys2Proof.Laws.Family.Statement (.launch x1 x2) := by
  intro x1 x2
  refine ⟨fun a b hh => by cases hh; rfl, ?_, ?_⟩ <;> (simp only [Sys2Proof.Machine.entryBytes]; omega)
theorem Sys2Proof.Laws.Family.queueCreate : ∀ x1 x2 x3 x4, Sys2Proof.Laws.Family.Statement (.queueCreate x1 x2 x3 x4) :=
  fun _ _ _ _ => Sys2Proof.Laws.Family.of_none rfl rfl
theorem Sys2Proof.Laws.Family.queueDestroy : ∀ x1 x2 x3, Sys2Proof.Laws.Family.Statement (.queueDestroy x1 x2 x3) :=
  fun _ _ _ => Sys2Proof.Laws.Family.of_none rfl rfl
theorem Sys2Proof.Laws.Family.ctxCreate : ∀ x1 x2, Sys2Proof.Laws.Family.Statement (.ctxCreate x1 x2) :=
  fun _ _ => Sys2Proof.Laws.Family.of_none rfl rfl
theorem Sys2Proof.Laws.Family.ctxDestroy : ∀ x1 x2, Sys2Proof.Laws.Family.Statement (.ctxDestroy x1 x2) :=
  fun _ _ => Sys2Proof.Laws.Family.of_none rfl rfl
theorem Sys2Proof.Laws.Family.preempt : ∀ x1 x2 x3 x4, Sys2Proof.Laws.Family.Statement (.preempt x1 x2 x3 x4) :=
  fun _ _ _ _ => Sys2Proof.Laws.Family.of_some (k := 2) rfl rfl rfl
theorem Sys2Proof.Laws.Family.preemptResume : ∀ x1 x2 x3 x4, Sys2Proof.Laws.Family.Statement (.preemptResume x1 x2 x3 x4) :=
  fun _ _ _ _ => Sys2Proof.Laws.Family.of_some (k := 2) rfl rfl rfl
theorem Sys2Proof.Laws.Family.poolCreate : ∀ x1 x2 x3 x4 x5, Sys2Proof.Laws.Family.Statement (.poolCreate x1 x2 x3 x4 x5) :=
  fun _ _ _ _ _ => Sys2Proof.Laws.Family.of_none rfl rfl
theorem Sys2Proof.Laws.Family.alloc : ∀ x1 x2, Sys2Proof.Laws.Family.Statement (.alloc x1 x2) :=
  fun _ _ => Sys2Proof.Laws.Family.of_some (k := 8) rfl rfl rfl
theorem Sys2Proof.Laws.Family.free : ∀ x1 x2, Sys2Proof.Laws.Family.Statement (.free x1 x2) :=
  fun _ _ => Sys2Proof.Laws.Family.of_some (k := 1) rfl rfl rfl
theorem Sys2Proof.Laws.Family.copy : ∀ x1 x2, Sys2Proof.Laws.Family.Statement (.copy x1 x2) :=
  fun _ _ => Sys2Proof.Laws.Family.of_none rfl rfl
theorem Sys2Proof.Laws.Family.tierMove : ∀ x1 x2 x3, Sys2Proof.Laws.Family.Statement (.tierMove x1 x2 x3) :=
  fun _ _ _ => Sys2Proof.Laws.Family.of_none rfl rfl
theorem Sys2Proof.Laws.Family.topoQuery : ∀ x1, Sys2Proof.Laws.Family.Statement (.topoQuery x1) :=
  fun _ => Sys2Proof.Laws.Family.of_none rfl rfl
theorem Sys2Proof.Laws.Family.planLoad : ∀ x1 x2 x3, Sys2Proof.Laws.Family.Statement (.planLoad x1 x2 x3) :=
  fun _ _ _ => Sys2Proof.Laws.Family.of_none rfl rfl
theorem Sys2Proof.Laws.Family.linkCtlQuery : ∀ x1 x2, Sys2Proof.Laws.Family.Statement (.linkCtlQuery x1 x2) :=
  fun _ _ => Sys2Proof.Laws.Family.of_some (k := 2) rfl rfl rfl
theorem Sys2Proof.Laws.Family.linkCtlDisable : ∀ x1 x2, Sys2Proof.Laws.Family.Statement (.linkCtlDisable x1 x2) :=
  fun _ _ => Sys2Proof.Laws.Family.of_some (k := 2) rfl rfl rfl
theorem Sys2Proof.Laws.Family.linkCtlEnable : ∀ x1 x2, Sys2Proof.Laws.Family.Statement (.linkCtlEnable x1 x2) :=
  fun _ _ => Sys2Proof.Laws.Family.of_some (k := 2) rfl rfl rfl
theorem Sys2Proof.Laws.Family.linkCtlRetrain : ∀ x1 x2 x3, Sys2Proof.Laws.Family.Statement (.linkCtlRetrain x1 x2 x3) :=
  fun _ _ _ => Sys2Proof.Laws.Family.of_some (k := 2) rfl rfl rfl
theorem Sys2Proof.Laws.Family.barrier : ∀ x1 x2 x3 x4, Sys2Proof.Laws.Family.Statement (.barrier x1 x2 x3 x4) :=
  fun _ _ _ _ => Sys2Proof.Laws.Family.of_none rfl rfl
theorem Sys2Proof.Laws.Family.snapshotAt : ∀ x1 x2 x3 x4, Sys2Proof.Laws.Family.Statement (.snapshotAt x1 x2 x3 x4) := by
  intro x1 x2 x3 x4
  refine ⟨fun a b hh => by cases hh; rfl, ?_, ?_⟩ <;> (simp only [Sys2Proof.Machine.entryBytes]; omega)
theorem Sys2Proof.Laws.Family.beatSet : ∀ x1 x2, Sys2Proof.Laws.Family.Statement (.beatSet x1 x2) :=
  fun _ _ => Sys2Proof.Laws.Family.of_some (k := 1) rfl rfl rfl
theorem Sys2Proof.Laws.Family.capSet : ∀ x1 x2 x3, Sys2Proof.Laws.Family.Statement (.capSet x1 x2 x3) :=
  fun _ _ _ => Sys2Proof.Laws.Family.of_some (k := 2) rfl rfl rfl
theorem Sys2Proof.Laws.Family.capQuery : ∀ x1, Sys2Proof.Laws.Family.Statement (.capQuery x1) :=
  fun _ => Sys2Proof.Laws.Family.of_none rfl rfl
theorem Sys2Proof.Laws.Family.energyRead : ∀ x1 x2 x3 x4, Sys2Proof.Laws.Family.Statement (.energyRead x1 x2 x3 x4) :=
  fun _ _ _ _ => Sys2Proof.Laws.Family.of_none rfl rfl
theorem Sys2Proof.Laws.Family.healthQuery : ∀ x1, Sys2Proof.Laws.Family.Statement (.healthQuery x1) :=
  fun _ => Sys2Proof.Laws.Family.of_none rfl rfl
theorem Sys2Proof.Laws.Family.rimeFreeze : ∀ x1, Sys2Proof.Laws.Family.Statement (.rimeFreeze x1) :=
  fun _ => Sys2Proof.Laws.Family.of_none rfl rfl
theorem Sys2Proof.Laws.Family.rimeRead : ∀ x1 x2 x3 x4, Sys2Proof.Laws.Family.Statement (.rimeRead x1 x2 x3 x4) :=
  fun _ _ _ _ => Sys2Proof.Laws.Family.of_none rfl rfl
theorem Sys2Proof.Laws.Family.rimeThaw : ∀ x1, Sys2Proof.Laws.Family.Statement (.rimeThaw x1) :=
  fun _ => Sys2Proof.Laws.Family.of_none rfl rfl
theorem Sys2Proof.Laws.Family.rimeClear : ∀ x1, Sys2Proof.Laws.Family.Statement (.rimeClear x1) :=
  fun _ => Sys2Proof.Laws.Family.of_none rfl rfl
theorem Sys2Proof.Laws.Family.regRead : ∀ x1 x2 x3, Sys2Proof.Laws.Family.Statement (.regRead x1 x2 x3) :=
  fun _ _ _ => Sys2Proof.Laws.Family.of_none rfl rfl
theorem Sys2Proof.Laws.Family.regWrite : ∀ x1 x2 x3 x4, Sys2Proof.Laws.Family.Statement (.regWrite x1 x2 x3 x4) :=
  fun _ _ _ _ => Sys2Proof.Laws.Family.of_some (k := 2) rfl rfl rfl
theorem Sys2Proof.Laws.Family.sorusOpen : ∀ x1 x2 x3, Sys2Proof.Laws.Family.Statement (.sorusOpen x1 x2 x3) :=
  fun _ _ _ => Sys2Proof.Laws.Family.of_none rfl rfl
theorem Sys2Proof.Laws.Family.sorusCommit : ∀ x1 x2 x3 x4, Sys2Proof.Laws.Family.Statement (.sorusCommit x1 x2 x3 x4) :=
  fun _ _ _ _ => Sys2Proof.Laws.Family.of_none rfl rfl
theorem Sys2Proof.Laws.Family.sorusAbort : ∀ x1 x2, Sys2Proof.Laws.Family.Statement (.sorusAbort x1 x2) :=
  fun _ _ => Sys2Proof.Laws.Family.of_none rfl rfl
theorem Sys2Proof.Laws.Family.sorusPrepare : ∀ x1 x2 x3 x4, Sys2Proof.Laws.Family.Statement (.sorusPrepare x1 x2 x3 x4) :=
  fun _ _ _ _ => Sys2Proof.Laws.Family.of_none rfl rfl
theorem Sys2Proof.Laws.Family.fwStage : ∀ x1 x2 x3, Sys2Proof.Laws.Family.Statement (.fwStage x1 x2 x3) :=
  fun _ _ _ => Sys2Proof.Laws.Family.of_none rfl rfl
theorem Sys2Proof.Laws.Family.fwActivate : ∀ x1 x2, Sys2Proof.Laws.Family.Statement (.fwActivate x1 x2) :=
  fun _ _ => Sys2Proof.Laws.Family.of_none rfl rfl
theorem Sys2Proof.Laws.Family.attest : ∀ x1 x2, Sys2Proof.Laws.Family.Statement (.attest x1 x2) :=
  fun _ _ => Sys2Proof.Laws.Family.of_none rfl rfl
theorem Sys2Proof.Laws.Family.certRead : ∀ x1 x2 x3 x4, Sys2Proof.Laws.Family.Statement (.certRead x1 x2 x3 x4) :=
  fun _ _ _ _ => Sys2Proof.Laws.Family.of_none rfl rfl
theorem Sys2Proof.Laws.Family.resetStations : ∀ x1 x2, Sys2Proof.Laws.Family.Statement (.resetStations x1 x2) := by
  intro x1 x2
  refine ⟨fun a b hh => by cases hh; rfl, ?_, ?_⟩ <;> (simp only [Sys2Proof.Machine.entryBytes]; omega)
theorem Sys2Proof.Laws.Family.resetWarm : ∀ x1, Sys2Proof.Laws.Family.Statement (.resetWarm x1) :=
  fun _ => Sys2Proof.Laws.Family.of_none rfl rfl
theorem Sys2Proof.Laws.Family.frameReceive : ∀ x1, Sys2Proof.Laws.Family.Statement (.frameReceive x1) :=
  fun _ => Sys2Proof.Laws.Family.of_none rfl rfl
theorem Sys2Proof.Laws.Family.retransmit : ∀ x1 x2, Sys2Proof.Laws.Family.Statement (.retransmit x1 x2) :=
  fun _ _ => Sys2Proof.Laws.Family.of_none rfl rfl
theorem Sys2Proof.Laws.Family.sessionIdleTimeout : ∀ x1, Sys2Proof.Laws.Family.Statement (.sessionIdleTimeout x1) :=
  fun _ => Sys2Proof.Laws.Family.of_none rfl rfl
theorem Sys2Proof.Laws.Family.sessionAckTimeout : ∀ x1, Sys2Proof.Laws.Family.Statement (.sessionAckTimeout x1) :=
  fun _ => Sys2Proof.Laws.Family.of_none rfl rfl
theorem Sys2Proof.Laws.Family.keyUpdate : ∀ x1, Sys2Proof.Laws.Family.Statement (.keyUpdate x1) :=
  fun _ => Sys2Proof.Laws.Family.of_none rfl rfl
theorem Sys2Proof.Laws.Family.sessionKeyExpiry : ∀ x1, Sys2Proof.Laws.Family.Statement (.sessionKeyExpiry x1) :=
  fun _ => Sys2Proof.Laws.Family.of_none rfl rfl
theorem Sys2Proof.Laws.Family.principalLoss : ∀ x1, Sys2Proof.Laws.Family.Statement (.principalLoss x1) :=
  fun _ => Sys2Proof.Laws.Family.of_none rfl rfl
theorem Sys2Proof.Laws.Family.requestForget : ∀ x1, Sys2Proof.Laws.Family.Statement (.requestForget x1) :=
  fun _ => Sys2Proof.Laws.Family.of_none rfl rfl
theorem Sys2Proof.Laws.Family.acctSlotRelease : ∀ x1, Sys2Proof.Laws.Family.Statement (.acctSlotRelease x1) :=
  fun _ => Sys2Proof.Laws.Family.of_none rfl rfl
theorem Sys2Proof.Laws.Family.rdmaWrite : ∀ x1, Sys2Proof.Laws.Family.Statement (.rdmaWrite x1) :=
  fun _ => Sys2Proof.Laws.Family.of_none rfl rfl
theorem Sys2Proof.Laws.Family.ethLinkLoss : ∀ x1, Sys2Proof.Laws.Family.Statement (.ethLinkLoss x1) :=
  fun _ => Sys2Proof.Laws.Family.of_none rfl rfl
theorem Sys2Proof.Laws.Family.ptpSync : ∀ x1 x2, Sys2Proof.Laws.Family.Statement (.ptpSync x1 x2) :=
  fun _ _ => Sys2Proof.Laws.Family.of_none rfl rfl
theorem Sys2Proof.Laws.Family.ptpTimeout : Sys2Proof.Laws.Family.Statement (.ptpTimeout) :=
  Sys2Proof.Laws.Family.of_none rfl rfl
theorem Sys2Proof.Laws.Family.beatTick : ∀ x1, Sys2Proof.Laws.Family.Statement (.beatTick x1) :=
  fun _ => Sys2Proof.Laws.Family.of_none rfl rfl
theorem Sys2Proof.Laws.Family.thermalStep : Sys2Proof.Laws.Family.Statement (.thermalStep) :=
  Sys2Proof.Laws.Family.of_none rfl rfl
theorem Sys2Proof.Laws.Family.stepCommit : ∀ x1 x2, Sys2Proof.Laws.Family.Statement (.stepCommit x1 x2) :=
  fun _ _ => Sys2Proof.Laws.Family.of_none rfl rfl
theorem Sys2Proof.Laws.Family.sorusCommitApply : ∀ x1, Sys2Proof.Laws.Family.Statement (.sorusCommitApply x1) :=
  fun _ => Sys2Proof.Laws.Family.of_none rfl rfl
theorem Sys2Proof.Laws.Family.snapshotCapture : ∀ x1, Sys2Proof.Laws.Family.Statement (.snapshotCapture x1) :=
  fun _ => Sys2Proof.Laws.Family.of_none rfl rfl
theorem Sys2Proof.Laws.Family.preemptGrant : ∀ x1 x2, Sys2Proof.Laws.Family.Statement (.preemptGrant x1 x2) :=
  fun _ _ => Sys2Proof.Laws.Family.of_none rfl rfl
theorem Sys2Proof.Laws.Family.retrainWindow : Sys2Proof.Laws.Family.Statement (.retrainWindow) :=
  Sys2Proof.Laws.Family.of_none rfl rfl
theorem Sys2Proof.Laws.Family.commandStart : Sys2Proof.Laws.Family.Statement (.commandStart) :=
  Sys2Proof.Laws.Family.of_none rfl rfl
theorem Sys2Proof.Laws.Family.descriptorIssue : ∀ x1, Sys2Proof.Laws.Family.Statement (.descriptorIssue x1) :=
  fun _ => Sys2Proof.Laws.Family.of_none rfl rfl
theorem Sys2Proof.Laws.Family.descriptorComplete : ∀ x1, Sys2Proof.Laws.Family.Statement (.descriptorComplete x1) :=
  fun _ => Sys2Proof.Laws.Family.of_none rfl rfl
theorem Sys2Proof.Laws.Family.commandRetire : ∀ x1, Sys2Proof.Laws.Family.Statement (.commandRetire x1) :=
  fun _ => Sys2Proof.Laws.Family.of_none rfl rfl
theorem Sys2Proof.Laws.Family.commandRestart : ∀ x1, Sys2Proof.Laws.Family.Statement (.commandRestart x1) :=
  fun _ => Sys2Proof.Laws.Family.of_none rfl rfl
theorem Sys2Proof.Laws.Family.watchdogExpiry : ∀ x1, Sys2Proof.Laws.Family.Statement (.watchdogExpiry x1) :=
  fun _ => Sys2Proof.Laws.Family.of_none rfl rfl
theorem Sys2Proof.Laws.Family.contextFault : ∀ x1 x2 x3, Sys2Proof.Laws.Family.Statement (.contextFault x1 x2 x3) :=
  fun _ _ _ => Sys2Proof.Laws.Family.of_none rfl rfl
theorem Sys2Proof.Laws.Family.streamCreditReturn : ∀ x1 x2, Sys2Proof.Laws.Family.Statement (.streamCreditReturn x1 x2) :=
  fun _ _ => Sys2Proof.Laws.Family.of_none rfl rfl
theorem Sys2Proof.Laws.Family.sSync : ∀ x1, Sys2Proof.Laws.Family.Statement (.sSync x1) :=
  fun _ => Sys2Proof.Laws.Family.of_none rfl rfl
theorem Sys2Proof.Laws.Family.sBeat : ∀ x1 x2 x3, Sys2Proof.Laws.Family.Statement (.sBeat x1 x2 x3) :=
  fun _ _ _ => Sys2Proof.Laws.Family.of_none rfl rfl
theorem Sys2Proof.Laws.Family.hint : ∀ x1 x2, Sys2Proof.Laws.Family.Statement (.hint x1 x2) :=
  fun _ _ => Sys2Proof.Laws.Family.of_none rfl rfl
theorem Sys2Proof.Laws.Family.sFetch : ∀ x1 x2, Sys2Proof.Laws.Family.Statement (.sFetch x1 x2) :=
  fun _ _ => Sys2Proof.Laws.Family.of_none rfl rfl
theorem Sys2Proof.Laws.Family.sStore : ∀ x1 x2, Sys2Proof.Laws.Family.Statement (.sStore x1 x2) :=
  fun _ _ => Sys2Proof.Laws.Family.of_none rfl rfl
theorem Sys2Proof.Laws.Family.fLoad : ∀ x1 x2, Sys2Proof.Laws.Family.Statement (.fLoad x1 x2) :=
  fun _ _ => Sys2Proof.Laws.Family.of_none rfl rfl
theorem Sys2Proof.Laws.Family.stationarySwap : ∀ x1, Sys2Proof.Laws.Family.Statement (.stationarySwap x1) :=
  fun _ => Sys2Proof.Laws.Family.of_none rfl rfl
theorem Sys2Proof.Laws.Family.fMma : ∀ x1 x2 x3, Sys2Proof.Laws.Family.Statement (.fMma x1 x2 x3) :=
  fun _ _ _ => Sys2Proof.Laws.Family.of_none rfl rfl
theorem Sys2Proof.Laws.Family.fDrain : ∀ x1 x2, Sys2Proof.Laws.Family.Statement (.fDrain x1 x2) :=
  fun _ _ => Sys2Proof.Laws.Family.of_none rfl rfl
theorem Sys2Proof.Laws.Family.fHad : ∀ x1 x2, Sys2Proof.Laws.Family.Statement (.fHad x1 x2) :=
  fun _ _ => Sys2Proof.Laws.Family.of_none rfl rfl
theorem Sys2Proof.Laws.Family.vEwise : ∀ x1 x2, Sys2Proof.Laws.Family.Statement (.vEwise x1 x2) :=
  fun _ _ => Sys2Proof.Laws.Family.of_none rfl rfl
theorem Sys2Proof.Laws.Family.vSoftmax : ∀ x1 x2, Sys2Proof.Laws.Family.Statement (.vSoftmax x1 x2) :=
  fun _ _ => Sys2Proof.Laws.Family.of_none rfl rfl
theorem Sys2Proof.Laws.Family.vNorm : ∀ x1 x2, Sys2Proof.Laws.Family.Statement (.vNorm x1 x2) :=
  fun _ _ => Sys2Proof.Laws.Family.of_none rfl rfl
theorem Sys2Proof.Laws.Family.vRope : ∀ x1 x2, Sys2Proof.Laws.Family.Statement (.vRope x1 x2) :=
  fun _ _ => Sys2Proof.Laws.Family.of_none rfl rfl
theorem Sys2Proof.Laws.Family.vConvert : ∀ x1 x2, Sys2Proof.Laws.Family.Statement (.vConvert x1 x2) :=
  fun _ _ => Sys2Proof.Laws.Family.of_none rfl rfl
theorem Sys2Proof.Laws.Family.vCombine : ∀ x1 x2, Sys2Proof.Laws.Family.Statement (.vCombine x1 x2) :=
  fun _ _ => Sys2Proof.Laws.Family.of_none rfl rfl
theorem Sys2Proof.Laws.Family.vOpt : ∀ x1 x2, Sys2Proof.Laws.Family.Statement (.vOpt x1 x2) :=
  fun _ _ => Sys2Proof.Laws.Family.of_none rfl rfl
theorem Sys2Proof.Laws.Family.vSample : ∀ x1 x2, Sys2Proof.Laws.Family.Statement (.vSample x1 x2) :=
  fun _ _ => Sys2Proof.Laws.Family.of_none rfl rfl
theorem Sys2Proof.Laws.Family.gTopk : ∀ x1 x2, Sys2Proof.Laws.Family.Statement (.gTopk x1 x2) :=
  fun _ _ => Sys2Proof.Laws.Family.of_none rfl rfl
theorem Sys2Proof.Laws.Family.gCount : ∀ x1 x2, Sys2Proof.Laws.Family.Statement (.gCount x1 x2) :=
  fun _ _ => Sys2Proof.Laws.Family.of_none rfl rfl
theorem Sys2Proof.Laws.Family.gScan : ∀ x1 x2, Sys2Proof.Laws.Family.Statement (.gScan x1 x2) :=
  fun _ _ => Sys2Proof.Laws.Family.of_none rfl rfl
theorem Sys2Proof.Laws.Family.gSort : ∀ x1 x2, Sys2Proof.Laws.Family.Statement (.gSort x1 x2) :=
  fun _ _ => Sys2Proof.Laws.Family.of_none rfl rfl
theorem Sys2Proof.Laws.Family.gScatter : ∀ x1 x2, Sys2Proof.Laws.Family.Statement (.gScatter x1 x2) :=
  fun _ _ => Sys2Proof.Laws.Family.of_none rfl rfl
theorem Sys2Proof.Laws.Family.gGather : ∀ x1 x2, Sys2Proof.Laws.Family.Statement (.gGather x1 x2) :=
  fun _ _ => Sys2Proof.Laws.Family.of_none rfl rfl
theorem Sys2Proof.Laws.Family.tMove : ∀ x1 x2, Sys2Proof.Laws.Family.Statement (.tMove x1 x2) :=
  fun _ _ => Sys2Proof.Laws.Family.of_none rfl rfl
theorem Sys2Proof.Laws.Family.tFill : ∀ x1 x2, Sys2Proof.Laws.Family.Statement (.tFill x1 x2) :=
  fun _ _ => Sys2Proof.Laws.Family.of_none rfl rfl
theorem Sys2Proof.Laws.Family.zCopy : ∀ x1 x2, Sys2Proof.Laws.Family.Statement (.zCopy x1 x2) :=
  fun _ _ => Sys2Proof.Laws.Family.of_none rfl rfl
theorem Sys2Proof.Laws.Family.zWait : ∀ x1 x2, Sys2Proof.Laws.Family.Statement (.zWait x1 x2) :=
  fun _ _ => Sys2Proof.Laws.Family.of_none rfl rfl
theorem Sys2Proof.Laws.Family.zAtomic : ∀ x1 x2, Sys2Proof.Laws.Family.Statement (.zAtomic x1 x2) :=
  fun _ _ => Sys2Proof.Laws.Family.of_none rfl rfl
theorem Sys2Proof.Laws.Family.zInval : ∀ x1 x2, Sys2Proof.Laws.Family.Statement (.zInval x1 x2) :=
  fun _ _ => Sys2Proof.Laws.Family.of_none rfl rfl
theorem Sys2Proof.Laws.Family.zReduce : ∀ x1 x2 x3, Sys2Proof.Laws.Family.Statement (.zReduce x1 x2 x3) :=
  fun _ _ _ => Sys2Proof.Laws.Family.of_none rfl rfl
theorem Sys2Proof.Laws.Family.zXchg : ∀ x1 x2, Sys2Proof.Laws.Family.Statement (.zXchg x1 x2) :=
  fun _ _ => Sys2Proof.Laws.Family.of_none rfl rfl
theorem Sys2Proof.Laws.Family.zTxn : ∀ x1 x2, Sys2Proof.Laws.Family.Statement (.zTxn x1 x2) :=
  fun _ _ => Sys2Proof.Laws.Family.of_none rfl rfl
theorem Sys2Proof.Laws.Family.fabricRequest : ∀ x1, Sys2Proof.Laws.Family.Statement (.fabricRequest x1) :=
  fun _ => Sys2Proof.Laws.Family.of_none rfl rfl
theorem Sys2Proof.Laws.Family.fabricResponse : ∀ x1, Sys2Proof.Laws.Family.Statement (.fabricResponse x1) :=
  fun _ => Sys2Proof.Laws.Family.of_none rfl rfl
theorem Sys2Proof.Laws.Family.requestAged : ∀ x1, Sys2Proof.Laws.Family.Statement (.requestAged x1) :=
  fun _ => Sys2Proof.Laws.Family.of_none rfl rfl
theorem Sys2Proof.Laws.Family.fabricAccessTimeout : ∀ x1, Sys2Proof.Laws.Family.Statement (.fabricAccessTimeout x1) :=
  fun _ => Sys2Proof.Laws.Family.of_none rfl rfl
theorem Sys2Proof.Laws.Family.fabricSorusCommit : Sys2Proof.Laws.Family.Statement (.fabricSorusCommit) :=
  Sys2Proof.Laws.Family.of_none rfl rfl
theorem Sys2Proof.Laws.Family.countRecord : ∀ x1, Sys2Proof.Laws.Family.Statement (.countRecord x1) :=
  fun _ => Sys2Proof.Laws.Family.of_none rfl rfl
theorem Sys2Proof.Laws.Family.exchangeRow : ∀ x1, Sys2Proof.Laws.Family.Statement (.exchangeRow x1) :=
  fun _ => Sys2Proof.Laws.Family.of_none rfl rfl
theorem Sys2Proof.Laws.Family.barrierArrival : ∀ x1 x2 x3, Sys2Proof.Laws.Family.Statement (.barrierArrival x1 x2 x3) :=
  fun _ _ _ => Sys2Proof.Laws.Family.of_none rfl rfl
theorem Sys2Proof.Laws.Family.barrierRelease : ∀ x1 x2 x3 x4, Sys2Proof.Laws.Family.Statement (.barrierRelease x1 x2 x3 x4) :=
  fun _ _ _ _ => Sys2Proof.Laws.Family.of_none rfl rfl
theorem Sys2Proof.Laws.Family.barrierComplete : ∀ x1, Sys2Proof.Laws.Family.Statement (.barrierComplete x1) :=
  fun _ => Sys2Proof.Laws.Family.of_none rfl rfl
theorem Sys2Proof.Laws.Family.globalOpTimeout : ∀ x1, Sys2Proof.Laws.Family.Statement (.globalOpTimeout x1) :=
  fun _ => Sys2Proof.Laws.Family.of_none rfl rfl
theorem Sys2Proof.Laws.Family.sorusPrepared : ∀ x1 x2 x3 x4, Sys2Proof.Laws.Family.Statement (.sorusPrepared x1 x2 x3 x4) :=
  fun _ _ _ _ => Sys2Proof.Laws.Family.of_none rfl rfl
theorem Sys2Proof.Laws.Family.sorusPrepareDeadline : ∀ x1, Sys2Proof.Laws.Family.Statement (.sorusPrepareDeadline x1) :=
  fun _ => Sys2Proof.Laws.Family.of_none rfl rfl
theorem Sys2Proof.Laws.Family.sorusDecision : ∀ x1 x2, Sys2Proof.Laws.Family.Statement (.sorusDecision x1 x2) :=
  fun _ _ => Sys2Proof.Laws.Family.of_none rfl rfl
theorem Sys2Proof.Laws.Family.sorusInDoubtTimeout : ∀ x1, Sys2Proof.Laws.Family.Statement (.sorusInDoubtTimeout x1) :=
  fun _ => Sys2Proof.Laws.Family.of_none rfl rfl
theorem Sys2Proof.Laws.Family.sorusTimeout : ∀ x1, Sys2Proof.Laws.Family.Statement (.sorusTimeout x1) :=
  fun _ => Sys2Proof.Laws.Family.of_none rfl rfl
theorem Sys2Proof.Laws.Family.linkDetect : ∀ x1, Sys2Proof.Laws.Family.Statement (.linkDetect x1) :=
  fun _ => Sys2Proof.Laws.Family.of_none rfl rfl
theorem Sys2Proof.Laws.Family.linkEqualiseDone : ∀ x1 x2, Sys2Proof.Laws.Family.Statement (.linkEqualiseDone x1 x2) :=
  fun _ _ => Sys2Proof.Laws.Family.of_none rfl rfl
theorem Sys2Proof.Laws.Family.linkStageTimeout : ∀ x1, Sys2Proof.Laws.Family.Statement (.linkStageTimeout x1) :=
  fun _ => Sys2Proof.Laws.Family.of_none rfl rfl
theorem Sys2Proof.Laws.Family.identRecord : ∀ x1 x2, Sys2Proof.Laws.Family.Statement (.identRecord x1 x2) :=
  fun _ _ => Sys2Proof.Laws.Family.of_none rfl rfl
theorem Sys2Proof.Laws.Family.identResend : ∀ x1, Sys2Proof.Laws.Family.Statement (.identResend x1) :=
  fun _ => Sys2Proof.Laws.Family.of_none rfl rfl
theorem Sys2Proof.Laws.Family.linkRetry : ∀ x1, Sys2Proof.Laws.Family.Statement (.linkRetry x1) :=
  fun _ => Sys2Proof.Laws.Family.of_none rfl rfl
theorem Sys2Proof.Laws.Family.linkDown : ∀ x1, Sys2Proof.Laws.Family.Statement (.linkDown x1) :=
  fun _ => Sys2Proof.Laws.Family.of_none rfl rfl
theorem Sys2Proof.Laws.Family.linkStateRecord : ∀ x1 x2 x3, Sys2Proof.Laws.Family.Statement (.linkStateRecord x1 x2 x3) :=
  fun _ _ _ => Sys2Proof.Laws.Family.of_none rfl rfl
theorem Sys2Proof.Laws.Family.laserFeedLoss : ∀ x1, Sys2Proof.Laws.Family.Statement (.laserFeedLoss x1) :=
  fun _ => Sys2Proof.Laws.Family.of_none rfl rfl
theorem Sys2Proof.Laws.Family.faultFinding : ∀ x1 x2, Sys2Proof.Laws.Family.Statement (.faultFinding x1 x2) :=
  fun _ _ => Sys2Proof.Laws.Family.of_none rfl rfl
theorem Sys2Proof.Laws.Family.memoryCorrectable : ∀ x1 x2 x3, Sys2Proof.Laws.Family.Statement (.memoryCorrectable x1 x2 x3) :=
  fun _ _ _ => Sys2Proof.Laws.Family.of_none rfl rfl
theorem Sys2Proof.Laws.Family.memoryUncorrectable : ∀ x1 x2 x3, Sys2Proof.Laws.Family.Statement (.memoryUncorrectable x1 x2 x3) :=
  fun _ _ _ => Sys2Proof.Laws.Family.of_none rfl rfl
theorem Sys2Proof.Laws.Family.bucketLeak : Sys2Proof.Laws.Family.Statement (.bucketLeak) :=
  Sys2Proof.Laws.Family.of_none rfl rfl
theorem Sys2Proof.Laws.Family.takeover : ∀ x1 x2, Sys2Proof.Laws.Family.Statement (.takeover x1 x2) :=
  fun _ _ => Sys2Proof.Laws.Family.of_none rfl rfl
theorem Sys2Proof.Laws.Family.unitTestComplete : ∀ x1 x2, Sys2Proof.Laws.Family.Statement (.unitTestComplete x1 x2) :=
  fun _ _ => Sys2Proof.Laws.Family.of_none rfl rfl
theorem Sys2Proof.Laws.Family.nameReturn : ∀ x1 x2 x3, Sys2Proof.Laws.Family.Statement (.nameReturn x1 x2 x3) :=
  fun _ _ _ => Sys2Proof.Laws.Family.of_none rfl rfl
theorem Sys2Proof.Laws.Family.lockstepMismatch : ∀ x1, Sys2Proof.Laws.Family.Statement (.lockstepMismatch x1) :=
  fun _ => Sys2Proof.Laws.Family.of_none rfl rfl
theorem Sys2Proof.Laws.Family.standbyResume : Sys2Proof.Laws.Family.Statement (.standbyResume) :=
  Sys2Proof.Laws.Family.of_none rfl rfl
theorem Sys2Proof.Laws.Family.migrationComplete : ∀ x1 x2, Sys2Proof.Laws.Family.Statement (.migrationComplete x1 x2) :=
  fun _ _ => Sys2Proof.Laws.Family.of_none rfl rfl
theorem Sys2Proof.Laws.Family.beatShadowCheck : ∀ x1, Sys2Proof.Laws.Family.Statement (.beatShadowCheck x1) :=
  fun _ => Sys2Proof.Laws.Family.of_none rfl rfl
theorem Sys2Proof.Laws.Family.scrubPass : ∀ x1, Sys2Proof.Laws.Family.Statement (.scrubPass x1) :=
  fun _ => Sys2Proof.Laws.Family.of_none rfl rfl
theorem Sys2Proof.Laws.Family.epochWithdraw : ∀ x1 x2, Sys2Proof.Laws.Family.Statement (.epochWithdraw x1 x2) :=
  fun _ _ => Sys2Proof.Laws.Family.of_none rfl rfl
theorem Sys2Proof.Laws.Family.epochFree : ∀ x1 x2, Sys2Proof.Laws.Family.Statement (.epochFree x1 x2) :=
  fun _ _ => Sys2Proof.Laws.Family.of_none rfl rfl
theorem Sys2Proof.Laws.Family.digestComplete : ∀ x1 x2, Sys2Proof.Laws.Family.Statement (.digestComplete x1 x2) :=
  fun _ _ => Sys2Proof.Laws.Family.of_none rfl rfl
theorem Sys2Proof.Laws.Family.shardConvert : Sys2Proof.Laws.Family.Statement (.shardConvert) :=
  Sys2Proof.Laws.Family.of_none rfl rfl
theorem Sys2Proof.Laws.Family.shardTimeout : ∀ x1 x2, Sys2Proof.Laws.Family.Statement (.shardTimeout x1 x2) :=
  fun _ _ => Sys2Proof.Laws.Family.of_none rfl rfl
theorem Sys2Proof.Laws.Family.shardPeerRead : ∀ x1 x2 x3, Sys2Proof.Laws.Family.Statement (.shardPeerRead x1 x2 x3) :=
  fun _ _ _ => Sys2Proof.Laws.Family.of_none rfl rfl
theorem Sys2Proof.Laws.Family.adapterVersionLive : ∀ x1 x2, Sys2Proof.Laws.Family.Statement (.adapterVersionLive x1 x2) :=
  fun _ _ => Sys2Proof.Laws.Family.of_none rfl rfl
theorem Sys2Proof.Laws.Family.reqExpire : ∀ x1, Sys2Proof.Laws.Family.Statement (.reqExpire x1) :=
  fun _ => Sys2Proof.Laws.Family.of_none rfl rfl
theorem Sys2Proof.Laws.Family.pauseTtlExpire : ∀ x1, Sys2Proof.Laws.Family.Statement (.pauseTtlExpire x1) :=
  fun _ => Sys2Proof.Laws.Family.of_none rfl rfl
theorem Sys2Proof.Laws.Family.pausedHoldExpire : ∀ x1, Sys2Proof.Laws.Family.Statement (.pausedHoldExpire x1) :=
  fun _ => Sys2Proof.Laws.Family.of_none rfl rfl
theorem Sys2Proof.Laws.Family.pauseMoveRetry : ∀ x1, Sys2Proof.Laws.Family.Statement (.pauseMoveRetry x1) :=
  fun _ => Sys2Proof.Laws.Family.of_none rfl rfl
theorem Sys2Proof.Laws.Family.resumeMoveComplete : ∀ x1, Sys2Proof.Laws.Family.Statement (.resumeMoveComplete x1) :=
  fun _ => Sys2Proof.Laws.Family.of_none rfl rfl
theorem Sys2Proof.Laws.Family.evictionWaitTimeout : ∀ x1, Sys2Proof.Laws.Family.Statement (.evictionWaitTimeout x1) :=
  fun _ => Sys2Proof.Laws.Family.of_none rfl rfl
theorem Sys2Proof.Laws.Family.tierMoveCopy : ∀ x1, Sys2Proof.Laws.Family.Statement (.tierMoveCopy x1) :=
  fun _ => Sys2Proof.Laws.Family.of_none rfl rfl
theorem Sys2Proof.Laws.Family.tierMoveSwitch : ∀ x1, Sys2Proof.Laws.Family.Statement (.tierMoveSwitch x1) :=
  fun _ => Sys2Proof.Laws.Family.of_none rfl rfl
theorem Sys2Proof.Laws.Family.limcelTierMove : ∀ x1 x2 x3, Sys2Proof.Laws.Family.Statement (.limcelTierMove x1 x2 x3) :=
  fun _ _ _ => Sys2Proof.Laws.Family.of_none rfl rfl
theorem Sys2Proof.Laws.Family.hintExpire : ∀ x1, Sys2Proof.Laws.Family.Statement (.hintExpire x1) :=
  fun _ => Sys2Proof.Laws.Family.of_none rfl rfl
theorem Sys2Proof.Laws.Family.slowdownWindow : ∀ x1, Sys2Proof.Laws.Family.Statement (.slowdownWindow x1) :=
  fun _ => Sys2Proof.Laws.Family.of_none rfl rfl
theorem Sys2Proof.Laws.Family.telemetrySample : ∀ x1, Sys2Proof.Laws.Family.Statement (.telemetrySample x1) :=
  fun _ => Sys2Proof.Laws.Family.of_none rfl rfl
theorem Sys2Proof.Laws.Family.reconcileMs : ∀ x1, Sys2Proof.Laws.Family.Statement (.reconcileMs x1) :=
  fun _ => Sys2Proof.Laws.Family.of_none rfl rfl
theorem Sys2Proof.Laws.Family.regulatorReady : ∀ x1, Sys2Proof.Laws.Family.Statement (.regulatorReady x1) :=
  fun _ => Sys2Proof.Laws.Family.of_none rfl rfl
theorem Sys2Proof.Laws.Family.raiseTimeout : ∀ x1, Sys2Proof.Laws.Family.Statement (.raiseTimeout x1) :=
  fun _ => Sys2Proof.Laws.Family.of_none rfl rfl
theorem Sys2Proof.Laws.Family.powerTripAlert : ∀ x1 x2, Sys2Proof.Laws.Family.Statement (.powerTripAlert x1 x2) :=
  fun _ _ => Sys2Proof.Laws.Family.of_none rfl rfl
theorem Sys2Proof.Laws.Family.tripHoldExpire : Sys2Proof.Laws.Family.Statement (.tripHoldExpire) :=
  Sys2Proof.Laws.Family.of_none rfl rfl
theorem Sys2Proof.Laws.Family.thermalTrip : ∀ x1 x2 x3, Sys2Proof.Laws.Family.Statement (.thermalTrip x1 x2 x3) :=
  fun _ _ _ => Sys2Proof.Laws.Family.of_none rfl rfl
theorem Sys2Proof.Laws.Family.rimeMirror : ∀ x1, Sys2Proof.Laws.Family.Statement (.rimeMirror x1) :=
  fun _ => Sys2Proof.Laws.Family.of_none rfl rfl
theorem Sys2Proof.Laws.Family.rimeFreezeExpire : Sys2Proof.Laws.Family.Statement (.rimeFreezeExpire) :=
  Sys2Proof.Laws.Family.of_none rfl rfl
theorem Sys2Proof.Laws.Family.powerOnReset : Sys2Proof.Laws.Family.Statement (.powerOnReset) :=
  Sys2Proof.Laws.Family.of_none rfl rfl
theorem Sys2Proof.Laws.Family.bootStageComplete : ∀ x1, Sys2Proof.Laws.Family.Statement (.bootStageComplete x1) :=
  fun _ => Sys2Proof.Laws.Family.of_none rfl rfl
theorem Sys2Proof.Laws.Family.warmResetAssert : Sys2Proof.Laws.Family.Statement (.warmResetAssert) :=
  Sys2Proof.Laws.Family.of_none rfl rfl
theorem Sys2Proof.Laws.Family.warmRestart : Sys2Proof.Laws.Family.Statement (.warmRestart) :=
  Sys2Proof.Laws.Family.of_none rfl rfl
theorem Sys2Proof.Laws.Family.reverifyComplete : ∀ x1 x2, Sys2Proof.Laws.Family.Statement (.reverifyComplete x1 x2) :=
  fun _ _ => Sys2Proof.Laws.Family.of_none rfl rfl
theorem Sys2Proof.Laws.Family.powerFail : Sys2Proof.Laws.Family.Statement (.powerFail) :=
  Sys2Proof.Laws.Family.of_none rfl rfl
theorem Sys2Proof.Laws.Family.beatMarkLoss : Sys2Proof.Laws.Family.Statement (.beatMarkLoss) :=
  Sys2Proof.Laws.Family.of_none rfl rfl
theorem Sys2Proof.Laws.Family.beatMarkRecover : Sys2Proof.Laws.Family.Statement (.beatMarkRecover) :=
  Sys2Proof.Laws.Family.of_none rfl rfl
theorem Sys2Proof.Laws.Family.beatClkLoss : Sys2Proof.Laws.Family.Statement (.beatClkLoss) :=
  Sys2Proof.Laws.Family.of_none rfl rfl
theorem Sys2Proof.Laws.Family.beatClkRecover : ∀ x1, Sys2Proof.Laws.Family.Statement (.beatClkRecover x1) :=
  fun _ => Sys2Proof.Laws.Family.of_none rfl rfl
theorem Sys2Proof.Laws.Family.fwTakeover : ∀ x1, Sys2Proof.Laws.Family.Statement (.fwTakeover x1) :=
  fun _ => Sys2Proof.Laws.Family.of_none rfl rfl
theorem Sys2Proof.Laws.Family.pairReloadComplete : ∀ x1, Sys2Proof.Laws.Family.Statement (.pairReloadComplete x1) :=
  fun _ => Sys2Proof.Laws.Family.of_none rfl rfl
theorem Sys2Proof.Laws.Family.macsecKey : ∀ x1 x2 x3, Sys2Proof.Laws.Family.Statement (.macsecKey x1 x2 x3) :=
  fun _ _ _ => Sys2Proof.Laws.Family.of_none rfl rfl
theorem Sys2Proof.Laws.Family.shutdown : Sys2Proof.Laws.Family.Statement (.shutdown) :=
  Sys2Proof.Laws.Family.of_none rfl rfl
theorem Sys2Proof.Laws.Family.installChunk : ∀ x1 x2, Sys2Proof.Laws.Family.Statement (.installChunk x1 x2) :=
  fun _ _ => Sys2Proof.Laws.Family.of_none rfl rfl
theorem Sys2Proof.Laws.Family.installCommit : ∀ x1 x2, Sys2Proof.Laws.Family.Statement (.installCommit x1 x2) :=
  fun _ _ => Sys2Proof.Laws.Family.of_none rfl rfl
theorem Sys2Proof.Laws.Family.loadModeWrite : ∀ x1 x2 x3, Sys2Proof.Laws.Family.Statement (.loadModeWrite x1 x2 x3) :=
  fun _ _ _ => Sys2Proof.Laws.Family.of_none rfl rfl
theorem Sys2Proof.Laws.Family.capRegisterWrite : ∀ x1, Sys2Proof.Laws.Family.Statement (.capRegisterWrite x1) :=
  fun _ => Sys2Proof.Laws.Family.of_none rfl rfl
theorem Sys2Proof.Laws.Family.registerWrite : ∀ x1 x2, Sys2Proof.Laws.Family.Statement (.registerWrite x1 x2) :=
  fun _ _ => Sys2Proof.Laws.Family.of_none rfl rfl
theorem Sys2Proof.Laws.Family.latchedRead : ∀ x1 x2, Sys2Proof.Laws.Family.Statement (.latchedRead x1 x2) :=
  fun _ _ => Sys2Proof.Laws.Family.of_none rfl rfl
theorem Sys2Proof.Laws.Family.hlthStateRead : ∀ x1, Sys2Proof.Laws.Family.Statement (.hlthStateRead x1) :=
  fun _ => Sys2Proof.Laws.Family.of_none rfl rfl
theorem Sys2Proof.Laws.Family.i3cOffsetWrite : ∀ x1 x2, Sys2Proof.Laws.Family.Statement (.i3cOffsetWrite x1 x2) :=
  fun _ _ => Sys2Proof.Laws.Family.of_none rfl rfl
theorem Sys2Proof.Laws.Family.porAssert : ∀ x1, Sys2Proof.Laws.Family.Statement (.porAssert x1) :=
  fun _ => Sys2Proof.Laws.Family.of_none rfl rfl
theorem Sys2Proof.Laws.Family.ethLinkUp : ∀ x1, Sys2Proof.Laws.Family.Statement (.ethLinkUp x1) :=
  fun _ => Sys2Proof.Laws.Family.of_none rfl rfl
theorem Sys2Proof.Laws.Family.neighborDiscoveryArp : ∀ x1, Sys2Proof.Laws.Family.Statement (.neighborDiscoveryArp x1) :=
  fun _ => Sys2Proof.Laws.Family.of_none rfl rfl
theorem Sys2Proof.Laws.Family.jtagInstruction : ∀ x1, Sys2Proof.Laws.Family.Statement (.jtagInstruction x1) :=
  fun _ => Sys2Proof.Laws.Family.of_none rfl rfl
theorem Sys2Proof.Laws.Family.servingStepLaunch : ∀ x1, Sys2Proof.Laws.Family.Statement (.servingStepLaunch x1) :=
  fun _ => Sys2Proof.Laws.Family.of_none rfl rfl
theorem Sys2Proof.Laws.Family.pauseMoveComplete : ∀ x1, Sys2Proof.Laws.Family.Statement (.pauseMoveComplete x1) :=
  fun _ => Sys2Proof.Laws.Family.of_none rfl rfl
theorem Sys2Proof.Laws.Family.snapshotUnitCopy : ∀ x1, Sys2Proof.Laws.Family.Statement (.snapshotUnitCopy x1) :=
  fun _ => Sys2Proof.Laws.Family.of_none rfl rfl
theorem Sys2Proof.Laws.Family.transitPacket : ∀ x1, Sys2Proof.Laws.Family.Statement (.transitPacket x1) :=
  fun _ => Sys2Proof.Laws.Family.of_none rfl rfl
theorem Sys2Proof.Laws.Family.sorusDecisionQuery : ∀ x1 x2, Sys2Proof.Laws.Family.Statement (.sorusDecisionQuery x1 x2) :=
  fun _ _ => Sys2Proof.Laws.Family.of_none rfl rfl
end

