-- ==== Sys2Proof/Certificates/Slice0/Obligations.lean ====
section
/-! DEFINITION. The statements for the provers: one `Obligations.<Name>` each, over the commands' meanings. The
abbreviations of Sys2Proof.Claims name hypotheses and groups of unchanged parts. -/
namespace Sys2Proof.Claims
open Sys2Proof.Machine

/-- A host command that the package takes and carries out at once: READY, no pause of a live update, a live session, no undefined
CFLAGS bit, no refusal of its gate, no sorus, no object held by a prepared sorus (R348, R351, R358, R359, R374, R378, R475). -/
abbrev Served (i : Instr) (h : Hdr) (g : Gate) (e : Session) (s : State) : Prop :=
  s.boot.stage = 6 ∧ s.boot.pauseUntil = none ∧ s.session h.session = some e ∧ flagsOver h (cflagsMask g.opcode) = false ∧ gateRefusal g e s = none ∧
    h.sorus = 0 ∧ lockedBySorus i s = false

/-- POR_L is released and power is good. -/
abbrev Powered (s : State) : Prop := s.pins.porLow = false ∧ s.pins.pwrGood = true

/-- A command is taken as a sorus of its own that has opened on this package and prepared at once (R377). It commits in phase 3 of the
beat 16 later, where the command has the effect `commitOne` (R380, R381). -/
abbrev OwnSorusPrepared (i : Instr) (h : Hdr) (s t : State) : Prop :=
  ∃ x, t.sori.sori = s.sori.sori ++ [x] ∧ x.id = 2 ^ 32 + s.fresh ∧ x.session = h.session ∧ x.state = 2 ∧ x.own = true ∧
    x.staged = [i] ∧ x.members = [s.boot.pkg] ∧ x.commitBeat = beatAdd s.now 16 ∧
    ∀ u : State, u.sorus x.id = some x → beatBefore u.now x.commitBeat = false →
      exec (.sorusCommitApply x.id) u = .next (setSorus x.id (fun y => { y with state := 3, staged := [], inDoubt := false })
        (dropReserved x.id (commitOne x.principal x.id 0 i u)))

/-- The installation record does not make the port the standby of its own pair of groups. -/
abbrev notItsStandby (s : State) (port : Nat) : Prop :=
  ∀ r, s.flash.install = some r → ∀ p ∈ planAt s.boot.pkg r, p.port = port → p.standby = none ∨ p.standby ≠ pairOfPort s s.boot.pkg port

/-- A request command completes in phase 4 (R215): it is accepted now and nothing else of the machine's serving, memory, commands and
models changes; a phase 4 that finds it alone, with no request due for anything else, gives it the effect `act`. -/
abbrev ActsInPhase4 (i : Instr) (s : State) : Prop :=
  (∃ t, exec i s = .next t ∧ t.serve = { s.serve with actions := s.serve.actions ++ [i] } ∧ t.mem = s.mem ∧ t.jobs = s.jobs ∧
    t.models = s.models) ∧
  ∀ u : State, u.serve.actions = [i] →
    (∀ x ∈ u.serve.reqs, deadlineDue u x = false ∧ ttlDue u x = false ∧ holdDue u x = false ∧ x.pausePending = false ∧
      x.resumeTo = none ∧ (finalState x.state = true → x.pages = [] ∧ x.resumeSets = [])) →
    phase4 u = act i { u with serve := { u.serve with actions := [] } }

/-- The rows that a matrix, vector or sort station carries out: the place, the descriptor's body, what it makes of the station's view,
and the result rows it has discarded (chapters 03 and 04). -/
def stationRow : Instr → Option (Place × DBody × (Bench → Work) × (Bench → Nat))
  | .fLoad p f => some (p, .fLoad f, opFLoad f, fun _ => 0)
  | .fMma p f false => some (p, .fMma f, opFMma f, fun _ => 0)
  | .fDrain p f => some (p, .fDrain f, opFDrain f, fun _ => 0)
  | .fHad p f => some (p, .fHad f, opFHad f, fun _ => 0)
  | .vEwise p f => some (p, .vEwise f, opVEwise f, fun _ => 0)
  | .vSoftmax p f => some (p, .vSoftmax f, opVSoftmax f, fun _ => 0)
  | .vNorm p f => some (p, .vNorm f, opVNorm f, fun _ => 0)
  | .vRope p f => some (p, .vRope f, opVRope f, fun _ => 0)
  | .vConvert p f => some (p, .vConvert f, opVConvert f, fun _ => 0)
  | .vCombine p f => some (p, .vCombine f, opVCombine f, combineOld f)
  | .vOpt p f => some (p, .vOpt f, opVOpt f, fun _ => 0)
  | .vSample p f => some (p, .vSample f, opVSample f, fun _ => 0)
  | .gTopk p f => some (p, .gTopk f, opGTopk f, fun _ => 0)
  | .gCount p f => some (p, .gCount f, opGCount f, fun _ => 0)
  | .gScan p f => some (p, .gScan f, opGScan f, fun _ => 0)
  | .gSort p f => some (p, .gSort f, opGSort f, fun _ => 0)
  | .gScatter p f => some (p, .gScatter f, opGScatter f, fun _ => 0)
  | .gGather p f => some (p, .gGather f, opGGather f, fun _ => 0)
  | _ => none

/-- A descriptor with this body is at work at a place, no output port of it holds a tile back, and `b` is what its station sees. -/
abbrev AtStation (p : Place) (body : DBody) (s : State) (c : Cmd) (l : ListSt) (k : Nat) (b : Bench) : Prop :=
  atWork s p body = some (c, l, k) ∧ b = benchOf s c l k ∧ ∀ q ∈ (portsOf body).2, portHolds c (q * 4096 + p.code) = false

/-- The command completes with a step `m` of its descriptor: the tiles, writes, reads and counts of the step are those of `applyMade`,
and further steps follow at once where the descriptor has more to do. -/
abbrev CarriedOut (i : Instr) (p : Place) (body : DBody) (op : Bench → Work) (c : Cmd) (l : ListSt) (k : Nat) (m : Made) (s : State) :
    Prop :=
  exec i s = .next (if m.more then turns p body op (fun _ => 0) 16383 (applyMade p c l k m s) else applyMade p c l k m s)

/-- Whether each tile of a list is well formed and of a format. -/
abbrev allOk (ts : List Tile) (code : Nat) : Prop := ∀ t ∈ ts, t.ok code = true

/-- The commands that may change a byte of memory. -/
def mayStore : Instr → Bool
  | .alloc .. | .barrierArrival .. | .beatTick .. | .bootStageComplete .. | .exchangeRow .. | .fabricRequest .. | .fabricResponse ..
    | .fabricSorusCommit .. | .frameReceive .. | .gScatter .. | .gSort .. | .pauseMoveComplete .. | .porAssert .. | .powerFail ..
    | .powerOnReset .. | .rdmaWrite .. | .resetWarm .. | .resumeMoveComplete .. | .sFetch .. | .sStore .. | .servingStepLaunch ..
    | .shardConvert .. | .shardPeerRead .. | .snapshotUnitCopy .. | .sorusCommitApply .. | .tFill .. | .tMove .. | .tierMoveCopy ..
    | .warmResetAssert .. | .zAtomic .. | .zCopy .. | .zReduce .. | .zTxn .. | .zXchg .. => true
  | _ => false

/-- The commands that may raise an anti-rollback counter. -/
def mayCount : Instr → Bool
  | .adapterVersionLive .. | .beatTick .. | .bootStageComplete .. | .frameReceive .. | .fwTakeover .. | .porAssert .. | .powerFail ..
    | .powerOnReset .. | .resetWarm .. | .sorusCommitApply .. | .warmResetAssert .. => true
  | _ => false

/-- The commands that may replace the installation record. -/
def mayInstall : Instr → Bool
  | .beatTick .. | .bootStageComplete .. | .frameReceive .. | .installCommit .. | .porAssert .. | .powerFail .. | .powerOnReset ..
    | .resetWarm .. | .warmResetAssert .. => true
  | _ => false

/-- The commands that may move a pin, or a register of the management pins. -/
def mayPin : Instr → Bool
  | .beatTick .. | .bootStageComplete .. | .frameReceive .. | .hlthStateRead .. | .i3cOffsetWrite .. | .jtagInstruction ..
    | .porAssert .. | .powerFail .. | .powerOnReset .. | .regRead .. | .resetWarm .. | .thermalTrip .. | .warmResetAssert ..
    | .warmRestart .. => true
  | _ => false

end Sys2Proof.Claims

open Sys2Proof Sys2Proof.Machine Sys2Proof.Claims

/-- A step runs the front command on the state with the queue's rest. -/
def Obligations.StepRunsTheFrontCommand : Prop :=
  ∀ (c : Instr) (rest : List Instr) (s : State),
    step { s with pending := c :: rest } = exec c { s with pending := rest }

/-- A step takes the front command and leaves the rest of the queue as it was. On an empty queue the package idles (the model's choice, log
11), and no table word spells a command. -/
def Obligations.QueueIsFirstInFirstOut : Prop :=
  (∀ (c : Instr) (rest : List Instr) (s t : State), step { s with pending := c :: rest } = .next t → t.pending = rest) ∧
  (∀ s : State, s.pending = [] → step s = .next s) ∧
  (∀ nbits w : Nat, decodeTableWord nbits w = none) ∧
  (∀ (s : State) (nbits w : Nat), s.withFetchWord nbits w = s)

/-- Every command answers a next state from every state. -/
def Obligations.EveryCommandAnswersNext : Prop := ∀ (c : Instr) (s : State), Completes c s

/-- HELLO (R352) and the phases of SESSION_OPEN (R353). KEEPALIVE and CAPS_QUERY only answer (R363). -/
def Obligations.SessionsOpen : Prop :=
  (∀ (h : Hdr) (p : HelloP) (s : State),
    s.boot.stage = 6 → s.boot.pauseUntil = none → h.session = 0 → h.cflags = 0 → p.idle ≤ 300 →
    p.minMajor * 256 + p.minMinor ≤ 257 → 257 ≤ p.maxMajor * 256 + p.maxMinor →
      exec (.hello h p) s = .next (replyOk h 0x0001
        ([1#8, 1#8, BitVec.ofNat 8 s.boot.pkg, 0#8] ++ leBytes 2 (min p.mtu (portMtu s h.port)) ++ leBytes 2 0 ++
          leBytes 8 (p.features &&& 0xF))
        { s with net := { s.net with hellos :=
            ⟨h.src, 1, 1, p.features &&& 0xF, if p.idle = 0 then 10 else p.idle, min p.mtu (portMtu s h.port)⟩ ::
              (s.net.hellos.filter fun x => x.src ≠ h.src) } })) ∧
  (∀ (h : Hdr) (p : HelloP) (s : State),
    s.boot.stage = 6 → s.boot.pauseUntil = none → h.session = 0 → h.cflags = 0 → p.idle ≤ 300 →
    p.minMajor * 256 + p.minMinor ≤ p.maxMajor * 256 + p.maxMinor →
    (p.maxMajor * 256 + p.maxMinor < 256 ∨ 257 < p.minMajor * 256 + p.minMinor) →
      exec (.hello h p) s = .next (reply h 0x0001 0x0012 0x0101 [] s)) ∧
  (∀ (h : Hdr) (r : List Byte) (qps : List QpEntry) (s : State), s.boot.stage = 6 → s.boot.pauseUntil = none → h.session = 0 → h.cflags = 0 →
      exec (.sessionOpen h 0 (.answer r) qps) s = .next (replyOk h 0x0002 r s)) ∧
  (∀ (h : Hdr) (sid principal roles : Nat) (r : List Byte) (qps : List QpEntry) (hs : HelloSt) (s : State),
    s.boot.stage = 6 → s.boot.pauseUntil = none → h.session = 0 → h.cflags = 0 → s.net.sessions.length < 128 → sid ≠ 0 → s.session sid = none →
    s.net.hellos.find? (fun x => x.src = h.src) = some hs → principal < 0xFFFFFFFF → (∀ x ∈ s.net.events, x.principal ≠ principal) →
      exec (.sessionOpen h 0 (.finish sid principal roles r) qps) s =
        .next (replyOk h 0x0002 (leBytes 4 sid ++ leBytes 4 principal ++ r)
          { s with net := { s.net with
              sessions := s.net.sessions ++ [⟨sid, h.src, h.port, principal, roles, hs.features, hs.major, hs.minor, hs.idle,
                0, [], 0, [], [], 0, s.beat.elapsed, s.net.opens, 0, 0, false, 0⟩]
              opens := s.net.opens + 1
              gone := (s.net.gone.filter fun g => g.principal ≠ principal)
              hellos := (s.net.hellos.filter fun x => x.src ≠ h.src) } })) ∧
  (∀ (h : Hdr) (spdm : SpdmStep) (qps : List QpEntry) (e : Session) (s : State),
    h.session ≠ 0 → Served (.sessionOpen h 1 spdm qps) h ⟨0x0002, 0, featRoce⟩ e s →
    qps ≠ [] → qps.length ≤ 64 → (∀ q ∈ qps, q.port ≤ 1 ∧ 3 ≤ q.pmtu ∧ q.pmtu ≤ 5) →
    (s.net.qps.filter fun q => q.session = h.session).length + qps.length ≤ 64 → s.net.qps.length + qps.length ≤ 512 →
      ∃ t, exec (.sessionOpen h 1 spdm qps) s = .next t ∧ t.net.nextQpn = s.net.nextQpn + qps.length ∧
        t.net.qps = s.net.qps ++ addQps qps h.session (s.net.nextQpn + 1) ∧ t.mem = s.mem ∧ t.jobs = s.jobs) ∧
  (∀ (h : Hdr) (r : List Byte) (qps : List QpEntry) (e : Session) (s : State),
    h.session ≠ 0 → Served (.sessionOpen h 0 (.answer r) qps) h ⟨0x0002, 0, 0⟩ e s →
      exec (.sessionOpen h 0 (.answer r) qps) s = .next (replyOk h 0x0002 r (setSession h.session newKey s))) ∧
  (∀ (h : Hdr) (e : Session) (s : State), Served (.keepalive h) h ⟨0x0004, 0, 0⟩ e s →
    exec (.keepalive h) s = .next (replyOk h 0x0004 (leBytes 8 s.now ++ leBytes 1 s.hlth.state) s)) ∧
  (∀ (h : Hdr) (e : Session) (s : State), Served (.capsQuery h) h ⟨0x0005, 0, 0⟩ e s →
    exec (.capsQuery h) s = .next (replyOk h 0x0005
      (leBytes 1 s.boot.pkg ++ leBytes 1 s.hlth.state ++ leBytes 2 s.boot.stepping ++ leBytes 4 (leAt s.boot.lcHeader 8 4) ++
        ((List.range 6).map fun d => BitVec.ofNat 8 (boundFronds s d)) ++ leBytes 2 0 ++ leBytes 8 0x9200000000 ++
        leBytes 8 s.mem.lpWindow ++ leBytes 8 (freeSpace s 0) ++ leBytes 8 (freeSpace s 1) ++ leBytes 8 0xF) s))

/-- A session that closes is gone with its queue pairs and latched words, and its principal is gone with its last session (R354):
SESSION_CLOSE, the two timeouts and the key's expiry. A principal without a session for the time of R354 loses its requests that have not
ended: a cancel of each waits for phase 4 (R215), the contexts it made without PERSIST are destroyed, and the principal is known no
longer. -/
def Obligations.SessionsCloseWhole : Prop :=
  (∀ (h : Hdr) (e : Session) (s : State), Served (.sessionClose h) h ⟨0x0003, 0, 0⟩ e s →
    ∃ t, exec (.sessionClose h) s = .next t ∧ t.session h.session = none ∧ t.mem.cells = s.mem.cells ∧
      (∀ q ∈ t.net.qps, q.session ≠ h.session) ∧ (∀ l ∈ t.net.latches, l.requester ≠ h.session)) ∧
  (∀ (h : Hdr) (e : Session) (s : State), Served (.sessionClose h) h ⟨0x0003, 0, 0⟩ e s → h.cflags % 2 = 0 →
    exec (.sessionClose h) s = .next (closeSession h.session (replyOk h 0x0003 [] s))) ∧
  (∀ (h : Hdr) (e : Session) (s : State), Served (.sessionClose h) h ⟨0x0003, 0, 0⟩ e s → h.cflags % 2 = 1 →
    exec (.sessionClose h) s = .next (closeSession h.session (replyOk h 0x0003 [] (losePrincipal e.principal s)))) ∧
  (∀ (sid : Nat) (e : Session) (s : State), s.session sid = some e → e.lastFrame + e.idle * 1000000 ≤ s.beat.elapsed →
    ∃ t, exec (.sessionIdleTimeout sid) s = .next t ∧ t.session sid = none ∧ t.mem.cells = s.mem.cells ∧
      (∀ q ∈ t.net.qps, q.session ≠ sid) ∧ (∀ l ∈ t.net.latches, l.requester ≠ sid)) ∧
  (∀ (sid : Nat) (e : Session) (s : State), s.session sid = some e →
    (∃ f ∈ e.unacked, f.sentAt + 2000000 ≤ s.beat.elapsed) →
    ∃ t, exec (.sessionAckTimeout sid) s = .next t ∧ t.session sid = none ∧ t.mem.cells = s.mem.cells ∧
      (∀ q ∈ t.net.qps, q.session ≠ sid) ∧ (∀ l ∈ t.net.latches, l.requester ≠ sid)) ∧
  (∀ (sid : Nat) (e : Session) (s : State), s.session sid = some e → 2 ^ 31 ≤ e.framesIn ∨ 2 ^ 31 ≤ e.framesOut →
    ∃ t, exec (.sessionKeyExpiry sid) s = .next t ∧ t.session sid = none ∧ t.mem.cells = s.mem.cells ∧
      (∀ q ∈ t.net.qps, q.session ≠ sid) ∧ (∀ l ∈ t.net.latches, l.requester ≠ sid)) ∧
  (∀ (p : Nat) (s : State), (∀ e ∈ s.net.sessions, e.principal ≠ p) →
    (∃ g ∈ s.net.gone, g.principal = p ∧ g.since + 60000000 ≤ s.beat.elapsed) →
    ∃ t, exec (.principalLoss p) s = .next t ∧ (∀ g ∈ t.net.gone, g.principal ≠ p) ∧
      (∀ r ∈ s.serve.reqs, r.principal = p → finalState r.state = false → .reqCancel noHost r.id ∈ t.serve.actions) ∧
      (∀ c ∈ t.jobs.ctxs, c.principal = p → c.persist = true ∨ c.num = 0))

/-- The transport's timers: RETRANSMIT resends and doubles the RTO up to 10 ms (R357), KEY_UPDATE starts an update (R350), ACCT_SLOT_RELEASE
frees a slot at rest (R516). The Ethernet ports (R339, R340, R344): loss of link puts the port's queue pairs in error, link-up lights a
port that waits for no key, and a query for the port's own address is answered. RDMA_WRITE (R344): in its window with the right key it
stores exactly its bytes and is acknowledged; every other byte reads as before. Outside, nothing is stored. -/
def Obligations.EthernetAndTransport : Prop :=
  (∀ (sid seq : Nat) (e : Session) (f : DevFrame) (s : State), s.session sid = some e →
    e.unacked.find? (fun x => x.seq = seq) = some f → f.lastAt + f.rto ≤ s.beat.elapsed → f.rto ≤ 10000 →
      exec (.retransmit sid seq) s = .next (emit (.retransmit sid (sendPort s e) seq f.entry)
        (setSession sid (fun e => { e with
          unacked := updBy (fun x => x.seq = seq)
            (fun x => { x with lastAt := s.beat.elapsed, rto := max x.rto (min (2 * x.rto) 10000) }) e.unacked }) s))) ∧
  (∀ (sid : Nat) (e : Session) (s : State), s.session sid = some e → 2 ^ 30 ≤ e.framesIn ∨ 2 ^ 30 ≤ e.framesOut →
    e.updating = false →
      exec (.keyUpdate sid) s = .next (emit (.keyUpdate sid) (setSession sid (fun e => { e with updating := true }) s))) ∧
  (∀ (slot : Nat) (a : Acct) (s : State), s.jobs.acct[slot]? = some a → 
    (∃ b, a.idleSince = some b ∧ b + 60000000 ≤ s.beat.elapsed) →
      exec (.acctSlotRelease slot) s = .next { s with jobs := { s.jobs with
        acct := s.jobs.acct.set slot { a with used := false, idleSince := none } } }) ∧
  (∀ (port : Nat) (s : State), s.net.ethUp.getD port false = true →
    exec (.ethLinkLoss port) s = .next { s with net := { s.net with
      ethUp := updAt port (fun _ => false) s.net.ethUp
      qps := updBy (fun q => q.port = port) (fun q => { q with error := true }) s.net.qps
      failover := if (s.net.sessions.any fun e => e.port = port) && s.net.ethUp.getD (1 - port) false then s.net.failover.hit
        else s.net.failover } }) ∧
  (∀ (port : Nat) (s : State), s.boot.stage = 5 ∨ s.boot.stage = 6 → s.boot.macsecWait.getD port false = false →
    (∀ e ∈ s.hlth.units, e.unit = .eth port → e.status < 2) →
    exec (.ethLinkUp port) s = .next { s with net := { s.net with ethUp := updAt port (fun _ => true) s.net.ethUp } }) ∧
  (∀ (q : NdQuery) (r : InstallRec) (s : State), s.flash.install = some r → s.net.ethUp.getD q.port false = true →
    (if q.ipv6 then r.ipv6 else r.ipv4).getD q.port 0 = q.target → q.target ≠ 0 →
      exec (.neighborDiscoveryArp q) s = .next { s with out := s.out ++ [.neighbour q.port q.target] }) ∧
  (∀ (p : RdmaP) (q : QueuePair) (b : Handle) (s : State),
    s.net.qps.find? (fun q => q.qpn = p.qpn) = some q → q.error = false → p.isWrite = true →
    s.mem.handles.find? (fun x => x.window = some p.window) = some b → b.rKey = p.rKey →
    p.offset + p.data.length ≤ b.span → s.mem.wf = true →
      ∃ t, exec (.rdmaWrite p) s = .next t ∧ t.mem.wf = true ∧ t.out.getLast? = some (.roceAck p.qpn) ∧
        (∀ k (hk : k < p.data.length), t.mem.readByte (b.base + p.offset + k) = p.data[k]) ∧
        (blockedUnits s (b.base + p.offset) p.data.length = [] → ∀ a, ¬ (b.base + p.offset ≤ a ∧ a < b.base + p.offset + p.data.length) →
          t.mem.readByte a = s.mem.readByte a)) ∧
  (∀ (p : RdmaP) (q : QueuePair) (b : Handle) (s : State),
    s.net.qps.find? (fun q => q.qpn = p.qpn) = some q → q.error = false → p.isWrite = true →
    s.mem.handles.find? (fun x => x.window = some p.window) = some b →
    (b.rKey ≠ p.rKey ∨ b.span < p.offset + p.data.length) →
      ∃ t, exec (.rdmaWrite p) s = .next t ∧ t.mem = s.mem ∧ t.out.getLast? = some (.roceNakAccess p.qpn))

/-- A reply is an entry with bit 15 of the opcode set, the status, the command's tag and FINAL (R349); in a session it leaves in the session's
next frame, which is kept until it is acknowledged (R355, R357). FRAME_RECEIVE (R351, R355, R356): a frame is discarded and counted by its
first fault; the frame whose turn it is moves the window on by one and is acknowledged. -/
def Obligations.FramesInOrder : Prop :=
  (∀ (h : Hdr) (op st d : Nat) (r : List Byte) (s : State) (e : Session),
    h.session ≠ 0 → s.session h.session = some e → e.unacked.length < 64 →
      (reply h op st d r s).out =
        s.out ++ [.frame h.session (sendPort s e) e.nextOut (.reply ⟨0x8000 + op, st, h.tag, d, true, r⟩)] ∧
      (reply h op st d r s).session h.session =
        some { e with
          unacked := e.unacked ++ [⟨e.nextOut, some (.reply ⟨0x8000 + op, st, h.tag, d, true, r⟩), s.beat.elapsed, s.beat.elapsed, max 100 (2 * e.srtt)⟩]
          nextOut := (e.nextOut + 1) % 2 ^ 32
          framesOut := e.framesOut + 1 }) ∧
  (∀ (h : Hdr) (op st d : Nat) (r : List Byte) (s : State), h.session = 0 →
    reply h op st d r s = { s with out := s.out ++ [.plain h.src ⟨0x8000 + op, st, h.tag, d, true, r⟩] }) ∧
  (∀ (f : Frame) (s : State), s.boot.stage = 6 → s.boot.pauseUntil = none → s.net.ethUp.getD f.port false = true → macsecOn s f.port = false →
    f.magic ≠ 0x1A1C → exec (.frameReceive f) s = .next (discard 0 s)) ∧
  (∀ (f : Frame) (s : State), s.boot.stage = 6 → s.boot.pauseUntil = none → s.net.ethUp.getD f.port false = true → macsecOn s f.port = false →
    f.magic = 0x1A1C → f.lengthOk = false → exec (.frameReceive f) s = .next (discard 1 s)) ∧
  (∀ (f : Frame) (s : State), s.boot.stage = 6 → s.boot.pauseUntil = none → s.net.ethUp.getD f.port false = true → macsecOn s f.port = false →
    f.magic = 0x1A1C → f.lengthOk = true → f.session ≠ 0 → s.session f.session = none →
      exec (.frameReceive f) s = .next (discard 3 s)) ∧
  (∀ (f : Frame) (e : Session) (s : State), s.boot.stage = 6 → s.boot.pauseUntil = none → s.net.ethUp.getD f.port false = true → macsecOn s f.port = false →
    f.magic = 0x1A1C → f.lengthOk = true → f.session ≠ 0 → s.session f.session = some e → f.tagOk = true →
    (f.verMajor ≠ e.major ∨ f.verMinor ≠ e.minor) → exec (.frameReceive f) s = .next (discard 4 s)) ∧
  (∀ (f : Frame) (e : Session) (s : State), s.boot.stage = 6 → s.boot.pauseUntil = none → s.net.ethUp.getD f.port false = true → macsecOn s f.port = false →
    f.magic = 0x1A1C → f.lengthOk = true → f.session ≠ 0 → s.session f.session = some e → f.tagOk = true → f.verMajor = e.major →
    f.verMinor = e.minor → f.seq = e.nextIn → e.nextIn < 2 ^ 32 → f.entries = [] → f.ackOnly = false → e.held = [] → e.unacked = [] →
    e.waitingOut = [] →
      ∃ t e', exec (.frameReceive f) s = .next t ∧ t.session f.session = some e' ∧ e'.nextIn = (e.nextIn + 1) % 2 ^ 32 ∧
        e'.lastFrame = s.beat.elapsed ∧ t.out = s.out ++ [.ackOnly f.session e.nextOut ((e.nextIn + 1) % 2 ^ 32)] ∧ t.mem = s.mem ∧
        t.jobs = s.jobs) ∧
  (∀ (f : Frame) (s : State), s.boot.stage ≠ 6 → exec (.frameReceive f) s = .next s)

/-- The gate of a host command (R358, R359, R439, R470): without READY nothing is taken; in the pause of a live update a command waits (R475);
outside a sorus a failed package, an unaligned counter, a missing role or feature and the 4,096 outstanding commands refuse, in this order
(the model's choice of order), and nothing else happens. -/
def Obligations.GatesRefuse : Prop :=
  ∀ (i : Instr) (h : Hdr) (g : Gate) (ranges : Session → State → Option (Nat × Nat)) (run : Session → State → State) (e : Session)
    (s : State), s.session h.session = some e → flagsOver h (cflagsMask g.opcode) = false → h.sorus = 0 →
    (s.boot.stage ≠ 6 → hosted i h g ranges run s = .next s) ∧
    (s.boot.stage = 6 → s.boot.pauseUntil ≠ none → hosted i h g ranges run s = .next (holdRow i s)) ∧
    (s.boot.stage = 6 → s.boot.pauseUntil = none → s.hlth.failed = true → failedOpcode g.opcode = false →
      hosted i h g ranges run s = .next (reply h g.opcode 0x0071 0 [] s)) ∧
    (s.boot.stage = 6 → s.boot.pauseUntil = none → s.hlth.failed = false → s.beat.aligned = false → earlyOpcode g.opcode = false →
      hosted i h g ranges run s = .next (reply h g.opcode 0x0020 0x53 [] s)) ∧
    (s.boot.stage = 6 → s.boot.pauseUntil = none → s.hlth.failed = false → s.beat.aligned = true → g.role ≠ 0 → g.role &&& e.roles = 0 →
      hosted i h g ranges run s = .next (reply h g.opcode 0x0031 0 [] s)) ∧
    (s.boot.stage = 6 → s.boot.pauseUntil = none → s.hlth.failed = false → s.beat.aligned = true → g.role = 0 → g.features = 0 → 4096 ≤ e.outstanding →
      hosted i h g ranges run s = .next (reply h g.opcode 0x0021 0 [] s))

/-- A command that names an open sorus of its session is staged and does nothing yet (R374, R375): it is appended to the sorus and its sender
hears of it when the sorus ends. A host's commands on sori (R374 to R377): SORUS_OPEN makes an OPEN sorus with nothing staged, SORUS_ABORT
ends one and tells every staged command, SORUS_COMMIT prepares every member for its beat. -/
def Obligations.SoriStageAndClose : Prop :=
  (∀ (i : Instr) (h : Hdr) (g : Gate) (ranges : Session → State → Option (Nat × Nat)) (run : Session → State → State) (e : Session)
    (x : Sorus) (s : State), s.boot.stage = 6 → s.boot.pauseUntil = none → s.session h.session = some e →
    flagsOver h (cflagsMask g.opcode) = false → gateRefusal g e s = none → ranges e s = none → h.sorus ≠ 0 → s.sorus h.sorus = some x → x.session = h.session → x.state = 0 →
    stageable g.opcode = true → x.staged.length < 256 → x.bytes + entryBytes i ≤ 65536 →
      ∃ t x', hosted i h g ranges run s = .next t ∧ t.sorus h.sorus = some x' ∧ x'.staged = x.staged ++ [i] ∧ x'.state = 0 ∧
        t.mem = s.mem ∧ t.jobs = s.jobs ∧ t.serve = s.serve ∧ t.models = s.models) ∧
  (∀ (h : Hdr) (id members : Nat) (e : Session) (s : State),
    Served (.sorusOpen h id members) h ⟨0x0901, 0, if sorusMap s members = [s.boot.pkg] then 0 else featFabric⟩ e s → id ≠ 0 →
    s.boot.pkg ∈ sorusMap s members → s.sorus id = none →
    (s.sori.sori.filter fun x => decide (x.state < 3) && !x.own).length < 32 →
      ∃ t x, exec (.sorusOpen h id members) s = .next t ∧ t.sorus id = some x ∧ x.session = h.session ∧
        x.members = sorusMap s members ∧ x.state = 0 ∧ x.staged = [] ∧ x.own = false ∧ x.principal = e.principal ∧ t.mem = s.mem ∧
        t.jobs = s.jobs) ∧
  (∀ (h : Hdr) (id : Nat) (e : Session) (s : State), Served (.sorusAbort h id) h ⟨0x0903, 0, 0⟩ e s → sorusRefusal s e id = none →
      ∃ t x, exec (.sorusAbort h id) s = .next t ∧ t.sorus id = some x ∧ x.state = 4 ∧ x.staged = [] ∧ x.decided = some false ∧
        t.mem.cells = s.mem.cells ∧ t.jobs = s.jobs ∧ t.serve = s.serve) ∧
  (∀ (h : Hdr) (id mode beat b : Nat) (x : Sorus) (e : Session) (s : State),
    Served (.sorusCommit h id mode beat) h ⟨0x0902, 0, 0⟩ e s → mode ≤ 1 → sorusRefusal s e id = none → s.sorus id = some x →
    x.coord = s.boot.pkg → commitBeatFor s mode beat = some b →
      exec (.sorusCommit h id mode beat) s = .next (memberPrepare id ((x.members.filter fun m => m ≠ s.boot.pkg).foldl
        (fun u m => sendFab m 10 (.prepare id b) u)
        (setSorus id (fun x => { x with state := 1, commitBeat := b, commitTag := some h.tag }) (accept h 0x0902 [] s))))) ∧
  (∀ (h : Hdr) (id mode beat : Nat) (x : Sorus) (e : Session) (s : State),
    Served (.sorusCommit h id mode beat) h ⟨0x0902, 0, 0⟩ e s → mode ≤ 1 → sorusRefusal s e id = none → s.sorus id = some x →
    x.coord = s.boot.pkg → commitBeatFor s mode beat = none →
      exec (.sorusCommit h id mode beat) s = .next (reply h 0x0902 stBadParam 0 [] s))

/-- Reads: REG_READ answers words that all exist as its session sees them; a LO word's read latches its HI word (R482), HLTH.STATE releases
ALERT_L (R438), I3C sees its blocks and zero elsewhere (R477). Writes: the bits of the mask are replaced and the reply reads the word back
(R483); a value outside its field's range is refused whole, or ignored where a register access writes it (R19); LOAD_MODE and CAP by their
own commands (R70, R417). A register write leaves alone what it does not name: memory, the queue, sessions and jobs beside their flags; a
read-only word is as it was (R16, R17). -/
def Obligations.RegisterAccesses : Prop :=
  (∀ (h : Hdr) (o count : Nat) (e : Session) (s : State), Served (.regRead h o count) h ⟨0x0801, 0, 0⟩ e s →
    1 ≤ count → count ≤ 256 → (∀ k, k < count → (regLive s (o + 4 * k)).isSome = true) →
      exec (.regRead h o count) s = .next (replyOk h 0x0801
        (((readWords h.session o count s).1.map fun w => leBytes 4 (w.getD 0)).flatten) (readWords h.session o count s).2)) ∧
  (∀ (h : Hdr) (o count : Nat) (e : Session) (s : State), Served (.regRead h o count) h ⟨0x0801, 0, 0⟩ e s →
    (count = 0 ∨ 256 < count ∨ ∃ k, k < count ∧ regLive s (o + 4 * k) = none) →
      exec (.regRead h o count) s = .next (reply h 0x0801 0x0013 0 [] s)) ∧
  (∀ (requester o v : Nat) (s : State), isLo o = true → regLive s (o + 4) = some v →
    ∃ t, exec (.latchedRead requester o) s = .next t ∧ regSeen t requester (o + 4) = some v ∧
      t = { s with net := { s.net with latches := t.net.latches } }) ∧
  (∀ (requester : Nat) (s : State),
    exec (.hlthStateRead requester) s = .next { s with pins := { s.pins with alert := false } }) ∧
  (∀ (o count : Nat) (s : State), (∀ k, k < count → i3cSees (o + 4 * k) = false) →
    ∃ t, exec (.i3cOffsetWrite o count) s = .next t ∧ t.out = s.out ++ [.i3c (List.replicate count 0#32)] ∧ t.boot = s.boot) ∧
  (∀ (o : Nat) (s : State), i3cSees o = true → ∃ t, exec (.i3cOffsetWrite o 1) s = .next t ∧
    t.out = s.out ++ [.i3c [BitVec.ofNat 32 ((regSeen s 0 o).getD 0)]]) ∧
  (∀ (h : Hdr) (value mask : Word) (e : Session) (s : State),
    Served (.regWrite h 0x10000 value mask) h ⟨0x0802, roleOperate, 0⟩ e s → 300 ≤ merged s.pwr.cap value mask % 2 ^ 12 →
    merged s.pwr.cap value mask % 2 ^ 12 ≤ 2000 →
      exec (.regWrite h 0x10000 value mask) s = .next (replyOk h 0x0802 (leBytes 4 (merged s.pwr.cap value mask % 2 ^ 12))
        { s with pwr := { s.pwr with cap := merged s.pwr.cap value mask % 2 ^ 12 } })) ∧
  (∀ (h : Hdr) (value mask : Word) (e : Session) (s : State),
    Served (.regWrite h 0x10000 value mask) h ⟨0x0802, roleOperate, 0⟩ e s →
    (merged s.pwr.cap value mask % 2 ^ 12 < 300 ∨ 2000 < merged s.pwr.cap value mask % 2 ^ 12) →
      exec (.regWrite h 0x10000 value mask) s = .next (reply h 0x0802 0x0013 0 [] s)) ∧
  (∀ (value : Word) (s : State), value.toNat % 2 ^ 8 < 85 ∨ 105 < value.toNat % 2 ^ 8 →
      exec (.registerWrite 0x11000 value) s = .next s) ∧
  (∀ (value : Word) (s : State), 85 ≤ value.toNat % 2 ^ 8 → value.toNat % 2 ^ 8 ≤ 105 →
      exec (.registerWrite 0x11000 value) s = .next { s with thm := { s.thm with limit := value.toNat % 2 ^ 8 } }) ∧
  (∀ (value : Word) (s : State), exec (.registerWrite 0x11004 value) s =
      .next { s with thm := { s.thm with hit := s.thm.hit.w1c (tbit value.toNat 31) } }) ∧
  (∀ (die num mode : Nat) (s : State), mode < 2 → exec (.loadModeWrite die num mode) s =
      .next { s with stns := { s.stns with
        cfg := updBy (fun c => c.die = die && c.num = num) (fun c => { c with loadMode := mode }) s.stns.cfg } }) ∧
  (∀ (watts : Nat) (s : State), 300 ≤ watts → watts ≤ 2000 →
      exec (.capRegisterWrite watts) s = .next { s with pwr := { s.pwr with cap := watts } }) ∧
  (∀ (watts : Nat) (s : State), watts < 300 ∨ 2000 < watts → exec (.capRegisterWrite watts) s = .next s) ∧
  (∀ (limcel : Bool) (o : Nat) (value mask : Word) (s t : State), writeReg limcel o value mask s = some t →
    t.mem.cells = s.mem.cells ∧ t.mem.undef = s.mem.undef ∧ t.mem.handles = s.mem.handles ∧ t.mem.regions = s.mem.regions ∧
    t.flash = s.flash ∧ t.boot = s.boot ∧ t.models = s.models ∧ t.serve = s.serve ∧ t.sori = s.sori ∧ t.out = s.out ∧
    t.pins = s.pins ∧ t.pending = s.pending ∧ t.jobs.cmds = s.jobs.cmds ∧ t.net.sessions = s.net.sessions ∧
    t.beat.count = s.beat.count ∧ t.pwr.levelC = s.pwr.levelC ∧ t.pwr.levelD = s.pwr.levelD)

/-- RIME_FREEZE, RIME_THAW, RIME_READ, RIME_CLEAR, the mirror and the end of a freeze (R446 to R450). An event while nothing is frozen enters
the circulating area: it folds into the latest record when that is alike, recent and below 65,535 repeats, else it takes the next number
(R444); the area keeps 8,192 records (R443). While frozen, one below FATAL waits (R448). -/
def Obligations.TheRecorder : Prop :=
  (∀ (h : Hdr) (e : Session) (s : State), Served (.rimeFreeze h) h ⟨0x0702, 0, 0⟩ e s → s.rime.freeze = none →
    exec (.rimeFreeze h) s =
      .next (replyOk h 0x0702 [] { s with rime := { s.rime with freeze := some (h.session, s.beat.elapsed) } })) ∧
  (∀ (h : Hdr) (e : Session) (o b : Nat) (s : State), Served (.rimeFreeze h) h ⟨0x0702, 0, 0⟩ e s →
    s.rime.freeze = some (o, b) → o ≠ h.session → exec (.rimeFreeze h) s = .next (reply h 0x0702 0x0021 0 [] s)) ∧
  (∀ (h : Hdr) (e : Session) (b : Nat) (s : State), Served (.rimeThaw h) h ⟨0x0704, 0, 0⟩ e s →
    s.rime.freeze = some (h.session, b) →
      exec (.rimeThaw h) s = .next (replyOk h 0x0704 (leBytes 4 s.rime.lostNow) (endFreeze s))) ∧
  (∀ (h : Hdr) (e : Session) (area first maxBytes : Nat) (s : State),
    Served (.rimeRead h area first maxBytes) h ⟨0x0703, 0, 0⟩ e s → area ≤ 1 → 292 ≤ maxBytes → maxBytes ≤ 8192 →
      ∃ next n : Nat, ∃ bs : List Byte,
        bs = ((((if area = 0 then s.flash.keep else s.rime.circ).filter fun r => decide (first ≤ r.seq)).take n).map
          Rec.bytes).flatten ∧ bs.length ≤ maxBytes ∧
        exec (.rimeRead h area first maxBytes) s = .next (replyOk h 0x0703 (leBytes 4 next ++ bs) s)) ∧
  (∀ (h : Hdr) (e : Session) (s : State), Served (.rimeClear h) h ⟨0x0705, 0, 0⟩ e s → s.rime.freeze = none →
    ∃ t, exec (.rimeClear h) s = .next t ∧ t.rime.circ.length = 1 ∧ t.flash.keep.length = 1 ∧ t.flash.ring = [] ∧
      t.rime.next = 1 ∧ (∀ r ∈ t.rime.circ, r.type = 0x0001 ∧ r.seq = 0)) ∧
  (∀ s : State, exec (.rimeMirror false) s = .next { s with flash := { s.flash with ring := s.rime.circ } }) ∧
  (∀ s : State, exec (.rimeMirror true) s = .next { s with rime := { s.rime with mirrorFail := s.rime.mirrorFail.hit } }) ∧
  (∀ (f : Nat × Nat) (s : State), s.rime.freeze = some f → f.2 + 60000000 ≤ s.beat.elapsed →
    ∃ t, exec .rimeFreezeExpire s = .next t ∧ t.rime.freeze = none ∧ t.rime.holding = [] ∧ t.rime.lostNow = 0) ∧
  (∀ (type sev source : Nat) (p : List Byte) (s : State) (r : Rec), s.rime.freeze = none → s.rime.circ.getLast? = some r →
    r.type = type → r.source = source → r.payload = padPayload p → s.beat.elapsed ≤ r.lastElapsed + 10000000 → r.repeats + 1 ≤ 65535 →
      ∃ r', (record type sev source p s).rime.circ = s.rime.circ.dropLast ++ [r'] ∧ r'.repeats = r.repeats + 1 ∧
        r'.first = r.first ∧ r'.seq = r.seq ∧ r'.lastElapsed = s.beat.elapsed ∧
        (record type sev source p s).rime.next = s.rime.next) ∧
  (∀ (type sev source : Nat) (p : List Byte) (s : State), s.rime.freeze = none → s.rime.circ.length < 8192 →
    (∀ r, s.rime.circ.getLast? = some r → r.type ≠ type) →
      ∃ r, (record type sev source p s).rime.circ = s.rime.circ ++ [r] ∧ r.type = type ∧ r.sev = sev ∧ r.source = source ∧
        r.repeats = 1 ∧ r.seq = s.rime.next ∧ r.payload = padPayload p ∧
        (record type sev source p s).rime.next = (s.rime.next + 1) % 2 ^ 32) ∧
  (∀ (type sev source : Nat) (p : List Byte) (s : State), s.rime.freeze ≠ none → sev ≠ 6 →
      (record type sev source p s).rime.circ = s.rime.circ ∧ (record type sev source p s).flash = s.flash)

/-- PTP (R342, R469): the sixteenth consecutive interval within 200 ns locks, the fourth above 1 µs or 3 s without Sync unlocks. BEAT_SET
(R470, R507): accepted with BEAT_CLK present, PTP locked within 250 ns and a second 2 to 60 s ahead; the counter takes S × 10^6 modulo
2^48 at the edge. Holdovers (R471, R472): loss of BEAT_MARK or BEAT_CLK is held and counted once; recovery ends it, and an aligned counter
under PTP lock takes the edge's number. -/
def Obligations.TimeIsKept : Prop :=
  (∀ (timeUs : Nat) (off : Int) (s : State), off.natAbs ≤ 200 → 15 ≤ s.beat.goodRun →
    ∃ t, exec (.ptpSync timeUs off) s = .next t ∧ t.beat.ptpLock = true ∧ t.beat.ptpTime = timeUs ∧ t.beat.ptpOffset = off ∧
      t.beat.count = s.beat.count) ∧
  (∀ (timeUs : Nat) (off : Int) (s : State), off.natAbs ≤ 200 → s.beat.goodRun < 15 →
    exec (.ptpSync timeUs off) s = .next { s with beat := { s.beat with
      ptpTime := timeUs, syncAt := s.beat.elapsed, ptpOffset := off, goodRun := s.beat.goodRun + 1, badRun := 0 } }) ∧
  (∀ (timeUs : Nat) (off : Int) (s : State), 1000 < off.natAbs → 3 ≤ s.beat.badRun → s.beat.ptpLock = true →
    ∃ t, exec (.ptpSync timeUs off) s = .next t ∧ t.beat.ptpLock = false ∧ t.beat.ptpUnlock = s.beat.ptpUnlock.hit) ∧
  (∀ s : State, s.beat.ptpLock = true → s.beat.syncAt + 3000000 ≤ s.beat.elapsed → exec .ptpTimeout s = .next { s with beat := { s.beat with
      ptpLock := false, ptpUnlock := s.beat.ptpUnlock.hit, goodRun := 0, badRun := 0 } }) ∧
  (∀ (h : Hdr) (second : Nat) (e : Session) (s : State), Served (.beatSet h second) h ⟨0x0506, roleOperate, 0⟩ e s →
    s.beat.ptpLock = true → s.beat.clkHold = false → s.beat.ptpOffset.natAbs ≤ 250 → s.beat.ptpTime + 2000000 ≤ second * 1000000 →
    second * 1000000 ≤ s.beat.ptpTime + 60000000 → s.beat.aligned = false → s.beat.setPending = none →
      ∃ t, exec (.beatSet h second) s = .next t ∧ t.beat.setPending = some ⟨second, h.session, h.tag⟩ ∧
        t.beat.count = s.beat.count ∧ t.beat.aligned = false) ∧
  (∀ (h : Hdr) (second : Nat) (e : Session) (s : State), Served (.beatSet h second) h ⟨0x0506, roleOperate, 0⟩ e s →
    s.beat.ptpLock = false ∨ s.beat.clkHold = true → exec (.beatSet h second) s = .next (reply h 0x0506 0x0020 0x53 [] s)) ∧
  (∀ (p : BeatSetSt) (s : State), s.beat.setPending = some p → p.second * 1000000 ≤ s.beat.ptpTime →
    (alignNow s).beat.count = p.second * 1000000 % 2 ^ 48 ∧ (alignNow s).beat.aligned = true ∧
      (alignNow s).beat.setPending = none ∧ (alignNow s).beat.elapsed = s.beat.elapsed) ∧
  (∀ s : State, s.beat.markHold = false → ∃ t, exec .beatMarkLoss s = .next t ∧ t.beat.markHold = true ∧
    t.beat.markLost = s.beat.markLost.hit ∧ t.beat.count = s.beat.count ∧ t.jobs = s.jobs) ∧
  (∀ s : State, s.beat.markHold = true → exec .beatMarkLoss s = .next s) ∧
  (∀ s : State, exec .beatMarkRecover s = .next { s with beat := { s.beat with markHold := false } }) ∧
  (∀ s : State, s.beat.clkHold = false → s.fab.ops = [] → ∃ t, exec .beatClkLoss s = .next t ∧ t.beat.clkHold = true ∧
    t.beat.clkLost = s.beat.clkLost.hit ∧ t.beat.count = s.beat.count) ∧
  (∀ (edge : Nat) (s : State), s.beat.clkHold = true → s.beat.ptpLock = true → s.beat.aligned = true →
    ∃ t, exec (.beatClkRecover edge) s = .next t ∧ t.beat.clkHold = false ∧ t.beat.count = edge % 2 ^ 48 ∧
      t.beat.elapsed = s.beat.elapsed ∧ t.jobs = s.jobs ∧ t.mem = s.mem) ∧
  (∀ (edge : Nat) (s : State), s.beat.clkHold = true → s.beat.ptpLock = false →
    exec (.beatClkRecover edge) s = .next { s with beat := { s.beat with clkHold := false } })

/-- CAP_SET waits for its beat, the next one for 0 or a beat gone by; CAP_QUERY and ENERGY_READ answer (R369, R417, R422). Temperatures (R415,
R416): every 100 beats a step slower while at the limit, a step back after 1,000 cool beats; a trip stops the package. -/
def Obligations.PowerAndTemperature : Prop :=
  (∀ (h : Hdr) (watts beat : Nat) (e : Session) (s : State), Served (.capSet h watts beat) h ⟨0x0601, roleOperate, 0⟩ e s →
    300 ≤ watts → watts ≤ 2000 → beat ≠ 0 → beatLe beat s.now = false →
      ∃ t, exec (.capSet h watts beat) s = .next t ∧ t.pwr = { s.pwr with caps := s.pwr.caps ++ [⟨watts, beat, h.session, h.tag, 1⟩] }) ∧
  (∀ (h : Hdr) (watts : Nat) (e : Session) (s : State), Served (.capSet h watts 0) h ⟨0x0601, roleOperate, 0⟩ e s →
    300 ≤ watts → watts ≤ 2000 →
      ∃ t, exec (.capSet h watts 0) s = .next t ∧
        t.pwr = { s.pwr with caps := s.pwr.caps ++ [⟨watts, beatAdd s.now 1, h.session, h.tag, 1⟩] }) ∧
  (∀ (h : Hdr) (watts beat : Nat) (e : Session) (s : State), Served (.capSet h watts beat) h ⟨0x0601, roleOperate, 0⟩ e s →
    watts < 300 ∨ 2000 < watts → exec (.capSet h watts beat) s = .next (reply h 0x0601 0x0013 0 [] s)) ∧
  (∀ (h : Hdr) (e : Session) (s : State), Served (.capQuery h) h ⟨0x0602, 0, 0⟩ e s →
    exec (.capQuery h) s = .next (replyOk h 0x0602 (leBytes 4 s.pwr.cap ++ leBytes 4 s.pwr.floor ++ leBytes 4 s.pwr.mean ++
      leBytes 1 s.pwr.levelC ++ leBytes 1 s.pwr.levelD ++ leBytes 1 s.pwr.duty) s)) ∧
  (∀ (h : Hdr) (first count : Nat) (e : Session) (s : State), Served (.energyRead h 0 first count) h ⟨0x0603, 0, 0⟩ e s →
    1 ≤ count → first + count ≤ 32 →
      exec (.energyRead h 0 first count) s =
        .next (replyOk h 0x0603 (((List.range count).map fun i => leBytes 8 (s.pwr.energy.getD (first + i) 0)).flatten) s)) ∧
  (∀ (h : Hdr) (first count : Nat) (e : Session) (s : State), Served (.energyRead h 1 first count) h ⟨0x0603, 0, 0⟩ e s →
    1 ≤ count → first + count ≤ 1024 →
      exec (.energyRead h 1 first count) s =
        .next (replyOk h 0x0603 (((List.range count).map fun i => leBytes 8 (queueEnergyOf s (first + i))).flatten) s)) ∧
  (∀ (c : Nat) (s : State), s.thm.stepAt ≤ s.beat.elapsed → s.thm.atLimit = true → s.thm.ceiling = some c → c < 8 →
    exec .thermalStep s = .next { s with thm := { s.thm with stepAt := s.beat.elapsed + 100, ceiling := some (c + 1) } }) ∧
  (∀ s : State, s.thm.stepAt ≤ s.beat.elapsed → s.thm.atLimit = true → s.thm.ceiling = some 8 →
    exec .thermalStep s = .next { s with thm := { s.thm with stepAt := s.beat.elapsed + 100, duty := max 1 (s.thm.duty - 1) } }) ∧
  (∀ s : State, s.beat.elapsed < s.thm.stepAt → exec .thermalStep s = .next s) ∧
  (∀ (b c : Nat) (s : State), s.thm.stepAt ≤ s.beat.elapsed → s.thm.atLimit = false → s.thm.coolSince = some b → b + 1000 ≤ s.beat.elapsed → s.thm.duty = 8 →
    s.thm.ceiling = some (c + 1) → exec .thermalStep s =
      .next { s with thm := { s.thm with stepAt := s.beat.elapsed + 100, ceiling := some c } }) ∧
  (∀ (b : Nat) (s : State), s.thm.atLimit = false → s.thm.coolSince = some b → s.beat.elapsed < b + 1000 →
    exec .thermalStep s = .next s) ∧
  (∀ (die sensor celsius : Nat) (s : State), 115 ≤ celsius → ∃ t, exec (.thermalTrip die sensor celsius) s = .next t ∧ t.thm.tripped = true ∧
    t.pins.thermTrip = true ∧ t.mem = s.mem ∧ t.jobs = s.jobs)

/-- Raises, trips and readbacks (R406, R407, R418): a raise completes in phase 7 at or after its eighth beat once the regulator has reported,
one without a report for 100 beats is abandoned; a trip's ceiling holds for 1,000 beats; a hint whose span has ended leaves (R152). The 1
ms reconciliation (R409, R422): the package counter grows by the measured energy, and the means are the millisecond's. -/
def Obligations.RegulatorsAndEnergy : Prop :=
  (∀ (e : Nat) (r : Raise) (s : State), targetLevel s e < levelOf s.pwr e → s.pwr.raises.find? (fun x => x.engine = e) = some r →
    r.ready = true → r.since + 8 ≤ s.beat.elapsed →
      levelOf (governEngine e s).pwr e = levelOf s.pwr e - 1 ∧ (governEngine e s).out = s.out ∧
        (∀ x ∈ (governEngine e s).pwr.raises, x.engine ≠ e)) ∧
  (∀ (engine : Nat) (r : Raise) (s : State), s.pwr.raises.find? (fun x => x.engine = engine) = some r →
      exec (.regulatorReady engine) s = .next { s with pwr := { s.pwr with
        raises := updBy (fun x => x.engine = engine) (fun x => { x with ready := true }) s.pwr.raises } }) ∧
  (∀ (engine : Nat) (r : Raise) (s : State), s.pwr.raises.find? (fun x => x.engine = engine) = some r →
    r.ready = false → r.since + 100 ≤ s.beat.elapsed → ∃ t, exec (.raiseTimeout engine) s = .next t ∧ t.pwr.raises = s.pwr.raises.filter (fun x => x.engine ≠ engine) ∧
      t.pwr.raiseFail = s.pwr.raiseFail.hit ∧ t.pwr.levelC = s.pwr.levelC ∧ t.pwr.levelD = s.pwr.levelD ∧
      t.out = s.out ++ [.voltage engine (levelOf s.pwr engine)]) ∧
  (∀ (rail current : Nat) (s : State), ∃ t, exec (.powerTripAlert rail current) s = .next t ∧
    t.pwr = { s.pwr with tripUntil := some (s.beat.elapsed + 1001), trip := s.pwr.trip.hit }) ∧
  (∀ (b : Nat) (s : State), s.pwr.tripUntil = some b → b ≤ s.beat.elapsed → exec .tripHoldExpire s = .next { s with pwr := { s.pwr with tripUntil := none } }) ∧
  (∀ (i : Nat) (h : Hint) (s : State), s.pwr.hints[i]? = some h → beatLe (beatAdd h.start h.span) s.now = true →
    exec (.hintExpire i) s = .next { s with pwr := { s.pwr with hints := s.pwr.hints.eraseIdx i } }) ∧
  (∀ (xs : List RailSample) (s : State), ∃ t, exec (.telemetrySample xs) s = .next t ∧
    (∀ x ∈ xs, x ∈ t.pwr.rails) ∧ (∀ x ∈ s.pwr.rails, (∀ y ∈ xs, y.rail ≠ x.rail) → x ∈ t.pwr.rails) ∧
    t = { s with pwr := { s.pwr with rails := t.pwr.rails } }) ∧
  (∀ (r : Reconcile) (s : State), r.phaseOk = true → r.rangeOk = true → r.stuckOk = true → s.pwr.suspect = false →
    ∃ t, exec (.reconcileMs r) s = .next t ∧ t.pwr.measured = (r.measured.sum + s.pwr.vioEstimate) / 1000 ∧ t.pwr.estimate = r.estimate.sum / 1000 ∧
      t.pwr.suspect = false ∧
      t.pwr.energy.getD 31 0 =
        (s.pwr.energy.getD 31 0 + (s.pwr.carry.getD 31 0 + (r.measured.sum + s.pwr.vioEstimate) * 10 ^ 6) / 10 ^ 9) % 2 ^ 64 ∧
      t.pwr.cap = s.pwr.cap ∧ t.mem = s.mem ∧ t.jobs.cmds = s.jobs.cmds)

/-- SLOWDOWN_WINDOW closes every context's window (R400), and BEAT_TICK is one beat edge (R37, R470): nothing while power is out, the counter
and the sensors before READY, the nine phases in READY. The levels of phase 7 (R406, R410): an engine faster than its target slows to it
in one beat, whatever is under way. The duty paces the beats evenly (R419): over eight beats from one whose number is a multiple of 8,
exactly d are issue beats. -/
def Obligations.BeatsAndTheGovernor : Prop :=
  (∀ (solo : List (Nat × Nat)) (x : Ctx) (s : State), s.now % 1000000 = 0 →
    s.jobs.ctxs.filter (fun c => c.num = x.num) = [x] →
      ∃ t x', exec (.slowdownWindow solo) s = .next t ∧ t.ctx x.num = some x' ∧ x'.claimWait = x.claimWaitNow ∧
        x'.paceWait = x.paceWaitNow ∧ x'.claimWaitNow = 0 ∧ x'.paceWaitNow = 0 ∧ x'.retired = [] ∧
        (x'.slowdown, x'.covered) = slowdownOf solo x.retired ∧ x'.queues = x.queues ∧ t.jobs.cmds = s.jobs.cmds ∧ t.mem = s.mem) ∧
  (∀ (solo : List (Nat × Nat)) (s : State), s.now % 1000000 ≠ 0 → exec (.slowdownWindow solo) s = .next s) ∧
  (∀ (inp : BeatInput) (s : State), s.pins.porLow = true ∨ s.pins.pwrGood = false → exec (.beatTick inp) s = .next s) ∧
  (∀ (inp : BeatInput) (s : State), Powered s → s.boot.stage ≠ 6 → s.beat.setPending = none →
      ∃ t, exec (.beatTick inp) s = .next t ∧ t.beat.count = beatAdd s.beat.count 1 ∧ t.beat.elapsed = s.beat.elapsed + 1 ∧
        t.thm.hottest = inp.temps ∧ t.mem = s.mem ∧ t.jobs = s.jobs ∧ t.serve = s.serve ∧ t.out = s.out) ∧
  (∀ (inp : BeatInput) (s : State), Powered s → s.boot.stage = 6 →
      exec (.beatTick inp) s = .next (phases inp (alignNow (advance inp s)))) ∧
  (∀ (e : Nat) (s : State), levelOf s.pwr e < targetLevel s e →
    levelOf (governEngine e s).pwr e = targetLevel s e ∧ (governEngine e s).out = s.out ++ [.voltage e (targetLevel s e)] ∧
      (∀ r ∈ (governEngine e s).pwr.raises, r.engine ≠ e) ∧ (governEngine e s).mem = s.mem ∧ (governEngine e s).jobs = s.jobs) ∧
  (∀ (b d : Nat), d ≤ 8 → ((List.range 8).filter fun k => issueBeat (8 * b + k) d).length = d)

/-- Bring-up of a port (R295 to R299): DETECT to EQUALISE to IDENTIFY to UP or QUARANTINE; a stage's time-out leads to DOWN, or UNUSED for an
unplanned port; a DOWN planned port starts again. A port that leaves UP is DOWN, its count rises and the routes are to be formed anew
(R304, R308); so at the loss of a laser feed for a global port (R512). A foreign port's record is kept, the latest only. -/
def Obligations.LinksComeUpAndFall : Prop :=
  (∀ (port : Nat) (l : Link) (s : State), s.link port = some l → l.state = 1 ∨ l.state = 8 →
    ∃ t x, exec (.linkDetect port) s = .next t ∧ t.link port = some x ∧ x.state = 2 ∧ t.mem = s.mem ∧ t.jobs = s.jobs) ∧
  (∀ (port n w : Nat) (l : Link) (s : State), s.link port = some l → l.state = 2 → widthFor (min n (goodLanes l)) = some w →
    ∃ t x, exec (.linkEqualiseDone port n) s = .next t ∧ t.link port = some x ∧ x.state = 3 ∧ x.width = w ∧
      t.out = s.out ++ [.mgmt port (.ident ⟨recordTag s, s.boot.pkg, port, Config.linkVersions.1, Config.linkVersions.2⟩)]) ∧
  (∀ (port n : Nat) (l : Link) (s : State), s.link port = some l → l.state = 2 → min n (goodLanes l) < 4 →
    ∃ t x, exec (.linkEqualiseDone port n) s = .next t ∧ t.link port = some x ∧ x.state = 7) ∧
  (∀ (port : Nat) (l : Link) (s : State), s.link port = some l → l.state = 1 → planOf s port = none →
    l.since + stageBound l < s.beat.elapsed → ∃ t x, exec (.linkStageTimeout port) s = .next t ∧ t.link port = some x ∧ x.state = 8) ∧
  (∀ (port : Nat) (l : Link) (p : PlanLink) (s : State), s.link port = some l → 1 ≤ l.state → l.state ≤ 3 →
    planOf s port = some p → l.since + stageBound l < s.beat.elapsed → ∃ t x, exec (.linkStageTimeout port) s = .next t ∧ t.link port = some x ∧ x.state = 0) ∧
  (∀ (port : Nat) (r : IdentRec) (l : Link) (p : PlanLink) (s : State), s.link port = some l → l.state = 3 ∨ l.state = 5 →
    planOf s port = some p → r.recordTag = recordTag s → r.pkg = p.peerPkg → r.port = p.peerPort →
      ∃ t x, exec (.identRecord port r) s = .next t ∧ t.link port = some x ∧
        (let common := min Config.linkVersions.2 r.verMax
         if common < Config.linkVersions.1 ∨ common < r.verMin ∨ common < versionFloor s then x.state = 5
         else x.state = 4 ∧ x.peerPkg = r.pkg ∧ x.peerPort = r.port ∧ x.version = common)) ∧
  (∀ (port : Nat) (r : IdentRec) (l : Link) (p : PlanLink) (s : State), s.link port = some l → l.state = 3 ∨ l.state = 5 →
    planOf s port = some p → (r.recordTag ≠ recordTag s ∨ r.pkg ≠ p.peerPkg ∨ r.port ≠ p.peerPort) →
      ∃ t x, exec (.identRecord port r) s = .next t ∧ t.link port = some x ∧ x.state = 5 ∧ x.mismatch = l.mismatch.hit) ∧
  (∀ (port : Nat) (l : Link) (s : State), s.link port = some l → l.state = 3 ∨ l.state = 5 →
    exec (.identResend port) s = .next { s with out := s.out ++
      [.mgmt port (.ident ⟨recordTag s, s.boot.pkg, port, Config.linkVersions.1, Config.linkVersions.2⟩)] }) ∧
  (∀ (port : Nat) (l : Link) (p : PlanLink) (s : State), s.link port = some l → planOf s port = some p → l.state = 0 →
    p.standby = none → ∃ t x, exec (.linkRetry port) s = .next t ∧ t.link port = some x ∧ x.state = 1) ∧
  (∀ (port : Nat) (l : Link) (s : State), s.link port = some l → l.state = 4 → notItsStandby s port →
    ∃ t x, exec (.linkDown port) s = .next t ∧ t.link port = some x ∧ x.state = 0 ∧ x.width = 0 ∧
      x.downCount = min 0xFFFF (l.downCount + 1) ∧ t.fab.routesStale = true ∧ t.mem = s.mem ∧ t.jobs = s.jobs) ∧
  (∀ (port : Nat) (l : Link) (s : State), s.link port = some l → isLocal port = false → l.state = 4 →
    notItsStandby s port → ∃ t x, exec (.laserFeedLoss port) s = .next t ∧ t.link port = some x ∧ x.state = 0 ∧ t.fab.routesStale = true) ∧
  (∀ (pkg port : Nat) (s : State), pkg ≠ s.boot.pkg →
    ∃ t, exec (.linkStateRecord pkg port true) s = .next t ∧ t.mem = s.mem ∧ t.jobs = s.jobs ∧
      t.fab = { s.fab with
        remote := (pkg, port, true) :: s.fab.remote.filter fun r => !(r.1 = pkg && r.2.1 = port)
        routesStale := true } ∧
      (s.fab.remote.find? (fun r => r.1 = pkg && r.2.1 = port) = some (pkg, port, true) → t.out = s.out)) ∧
  (∀ (pkg port : Nat) (s : State), pkg ≠ s.boot.pkg →
    ∃ t, exec (.linkStateRecord pkg port false) s = .next t ∧ t.fab.routesStale = true ∧
      t.fab.remote = (pkg, port, false) :: s.fab.remote.filter fun r => !(r.1 = pkg && r.2.1 = port)) ∧
  (∀ (b : Nat) (l : Link) (s : State), s.link l.port = some l → l.state = 4 → l.retrainAt = some b → beatLe b s.now = true →
    (∀ x ∈ s.fab.links, x ≠ l → x.retrainAt = none) →
      ∃ t x, exec .retrainWindow s = .next t ∧ t.link l.port = some x ∧ x.state = 2 ∧ x.retrainAt = none ∧ t.mem = s.mem)

/-- The fabric's host commands (R300, R305, R368). -/
def Obligations.FabricHostCommands : Prop :=
  (∀ (h : Hdr) (e : Session) (s : State), Served (.topoQuery h) h ⟨0x0501, 0, 0⟩ e s →
    exec (.topoQuery h) s = .next (replyOk h 0x0501
      (leBytes 1 s.boot.pkg ++ leBytes 1 ((s.flash.install.map fun r => r.groups).getD 0) ++ leBytes 6 0 ++
        leBytes 8 (recordTag s) ++ ((s.fab.links.map fun l => leBytes 1 l.port ++ leBytes 1 l.state ++
          leBytes 1 l.width ++ leBytes 1 l.peerPkg ++ leBytes 1 l.peerPort ++ leBytes 1 l.version ++ leBytes 2 0).flatten)) s)) ∧
  (∀ (h : Hdr) (w : WinRef) (bs : List Byte) (e : Session) (s : State),
    Served (.planLoad h w true) h ⟨0x0502, roleOperate, featRoce⟩ e s → windowBytes s e.principal w = some bs →
      exec (.planLoad h w true) s = .next (match readInstall s bs with
        | none => reply h 0x0502 0x0013 0 [] s
        | some r => if recordVerifies s bs && recordFits s r then replyOk h 0x0502 [] { s with flash := { s.flash with pending := some (r, bs) } }
            else reply h 0x0502 0x0013 0 [] s)) ∧
  (∀ (h : Hdr) (w : WinRef) (bs : List Byte) (e : Session) (s : State),
    Served (.planLoad h w false) h ⟨0x0502, roleOperate, featRoce⟩ e s → windowBytes s e.principal w = some bs →
      exec (.planLoad h w false) s = .next (reply h 0x0502 0x0042 0 [] s)) ∧
  (∀ (h : Hdr) (port : Nat) (l : Link) (e : Session) (s : State),
    Served (.linkCtlQuery h port) h ⟨0x0503, roleOperate, 0⟩ e s → s.link port = some l →
      exec (.linkCtlQuery h port) s = .next (replyOk h 0x0503 (leBytes 1 l.state) s)) ∧
  (∀ (h : Hdr) (port : Nat) (l : Link) (e : Session) (s : State),
    Served (.linkCtlDisable h port) h ⟨0x0503, roleOperate, 0⟩ e s → s.link port = some l →
    l.state ≠ 5 → l.state ≠ 7 →
      ∃ t x, exec (.linkCtlDisable h port) s = .next t ∧ t.link port = some x ∧ x.state = 6) ∧
  (∀ (h : Hdr) (port : Nat) (l : Link) (e : Session) (s : State),
    Served (.linkCtlDisable h port) h ⟨0x0503, roleOperate, 0⟩ e s → s.link port = some l →
    l.state = 5 ∨ l.state = 7 →
      exec (.linkCtlDisable h port) s = .next (reply h 0x0503 0x0020 l.state [] s)) ∧
  (∀ (h : Hdr) (port : Nat) (l : Link) (p : PlanLink) (e : Session) (s : State),
    Served (.linkCtlEnable h port) h ⟨0x0503, roleOperate, 0⟩ e s → s.link port = some l → l.state = 6 →
    planOf s port = some p →
      ∃ t x, exec (.linkCtlEnable h port) s = .next t ∧ t.link port = some x ∧ x.state = 1) ∧
  (∀ (h : Hdr) (port beat : Nat) (l : Link) (e : Session) (s : State),
    Served (.linkCtlRetrain h port beat) h ⟨0x0503, roleOperate, 0⟩ e s → s.link port = some l → l.state = 4 →
    l.retrainReply = none → beatLe beat s.now = false →
      ∃ t x, exec (.linkCtlRetrain h port beat) s = .next t ∧ t.link port = some x ∧ x.state = 4 ∧
        x.retrainAt = some beat ∧ x.retrainReply = some (h.session, h.tag))

/-- A finding adds its weight to a station's bucket (R426); below the class's threshold nothing else happens. A bucket that reaches its
threshold makes its station suspect (R429, R430), its names move at the takeover (R85, R431), its test's outcome retires or exonerates it
(R429), and an exonerated station takes its name back (R430). -/
def Obligations.FindingsAndSuspicion : Prop :=
  (∀ (d l n w : Nat) (f : Finding) (k : ClassSt) (x : StnSt) (s : State), l < 5 → stnOf s d l n = some x → x.state < 2 →
    findingWeight (classOf (.station d l n)) f = some (w, false) → f ≠ .secdedUncorrectable →
    s.hlth.classes[classOf (.station d l n)]? = some k → min 65535 (x.level + w) < k.inThreshold →
      ∃ t y, exec (.faultFinding (.station d l n) f) s = .next t ∧ stnOf t d l n = some y ∧ y.level = min 65535 (x.level + w) ∧
        y.state = x.state ∧ y.names = x.names ∧ t.hlth = s.hlth ∧ t.jobs = s.jobs ∧ t.mem = s.mem) ∧
  (∀ (k : ClassSt) (s : State), s.hlth.classes[0]? = some k → k.inLeak ≠ 0 → s.now % (1000 * k.inLeak) = 0 →
    ∃ t, exec .bucketLeak s = .next t ∧ t.jobs = s.jobs ∧ t.mem.cells = s.mem.cells ∧
      ∀ (d n : Nat) (x : StnSt), stnOf s d 0 n = some x → x.state < 2 →
        ∃ y, stnOf t d 0 n = some y ∧ y.level = x.level - 1 ∧ y.state = x.state) ∧
  (∀ (d l n w : Nat) (f : Finding) (k : ClassSt) (x : StnSt) (s : State), l < 5 → stnOf s d l n = some x → x.state < 2 →
    findingWeight (classOf (.station d l n)) f = some (w, false) → f ≠ .secdedUncorrectable →
    s.hlth.classes[classOf (.station d l n)]? = some k → k.inThreshold ≤ min 65535 (x.level + w) →
    unitMarked s (.station d l n) = false → s.hlth.suspicions = [] → s.jobs.cmds = [] →
      ∃ t y, exec (.faultFinding (.station d l n) f) s = .next t ∧ stnOf t d l n = some y ∧ y.state = 2 ∧
        t.hlth.suspicions = [.station d l n] ∧ underTest t (.station d l n) = true ∧ t.hlth.suspectFlag = s.hlth.suspectFlag.hit) ∧
  (∀ (d n name k micros : Nat) (rest : List HwUnit) (x : StnSt) (s : State),
    s.hlth.suspicions = .station d 0 n :: rest → stnOf s d 0 n = some x → x.names = [name] → x.state = 2 → spareFrond s d = some k →
      ∃ t y, exec (.takeover (.station d 0 n) micros) s = .next t ∧ t.hlth.suspicions = rest ∧ stnOf t d 0 k = some y ∧
        y.names = [name] ∧ y.state = 0) ∧
  (∀ (u : HwUnit) (s : State), underTest s u = true → u ∉ s.hlth.suspicions →
    ∃ t, exec (.unitTestComplete u true) s = .next t ∧ underTest t u = false ∧ t.hlth.exoneratedFlag = s.hlth.exoneratedFlag.hit ∧
      t.mem.cells = s.mem.cells) ∧
  (∀ (u : HwUnit) (s : State), underTest s u = true → u ∉ s.hlth.suspicions →
    ∃ t, exec (.unitTestComplete u false) s = .next t ∧ underTest t u = false ∧ t.hlth.retiredFlag = s.hlth.retiredFlag.hit ∧
      (∃ m ∈ t.flash.map, m.unit = u ∧ m.retired = some true)) ∧
  (∀ (d l n : Nat) (x : StnSt) (s : State), l ≠ 0 → stnOf s d l n = some x → x.state = 1 → x.names = [] →
    nameClaimed s (sourceCode d l n) = false →
      ∃ t y, exec (.nameReturn d l n) s = .next t ∧ stnOf t d l n = some y ∧ y.names = [n] ∧ y.state = 0 ∧
        (d, l, n) ∉ t.stns.unbound)

/-- Control-core pairs (R434), migrated channels (R271), the beat shadows (R435) and HEALTH_QUERY (R440). -/
def Obligations.PairsChannelsAndShadows : Prop :=
  (∀ (p : Nat) (x : UnitSt) (s : State), s.hlth.units.find? (fun e => e.unit = .pair p) = some x → x.status < 2 →
    unitMarked s (.pair p) = false → s.boot.activation = none →
      ∃ t, exec (.lockstepMismatch p) s = .next t ∧ t.hlth.pairs = updAt p (fun _ => 3) s.hlth.pairs ∧
        t.hlth.suspicions = s.hlth.suspicions ++ [.pair p] ∧ t.jobs = s.jobs ∧ t.mem = s.mem) ∧
  (∀ s : State, exec .standbyResume s = .next { s with hlth := { s.hlth with pairs := resumeRoles s.hlth.pairs } }) ∧
  (∀ ps : List Nat, 2 ∈ ps → 0 ∈ resumeRoles ps ∨ 4 ∈ resumeRoles ps) ∧
  (∀ (channel : Nat) (c : Channel) (s : State), s.mem.pcs[channel]? = some c → c.cstate = 1 →
    exec (.migrationComplete 0 channel) s =
      .next { s with mem := { s.mem with pcs := s.mem.pcs.set channel { c with cstate := 2 } } }) ∧
  (∀ (counts : List Nat) (d : Nat) (s : State), d < 7 → d < s.beat.shadowFix.length → counts.getD d s.now ≠ s.now →
    ∃ t, exec (.beatShadowCheck counts) s = .next t ∧ t.beat.shadowFix.getD d false = true ∧ t.beat.count = s.beat.count) ∧
  (∀ (h : Hdr) (e : Session) (s : State), Served (.healthQuery h) h ⟨0x0701, 0, 0⟩ e s →
    exec (.healthQuery h) s = .next (replyOk h 0x0701
      (leBytes 1 s.hlth.state ++ leBytes 3 0 ++ leBytes 4 s.hlth.reason ++ leBytes 8 (sparesOf s)) s))

/-- Right after reset memory is in its canonical form, every byte reads as zero, and no command waits. The values that the manual gives for
reset (R401 to R403, R417, R424 to R426, R480, R488, R501). -/
def Obligations.ResetState : Prop :=
  State.reset.mem.wf = true ∧ (∀ a, State.reset.mem.readByte a = 0#8) ∧ State.reset.pending = [] ∧
  State.reset.beat.count = 0 ∧ State.reset.beat.aligned = false ∧ State.reset.pwr.cap = 1800 ∧ State.reset.pwr.levelC = 4 ∧
  State.reset.pwr.levelD = 4 ∧ State.reset.thm.limit = 105 ∧ State.reset.fab.ownerPct = 50 ∧ State.reset.fab.timeout = 2000 ∧
  State.reset.mem.scrubInterval = 24 ∧ State.reset.jobs.ageBeats = 2000 ∧ State.reset.boot.stage = 1 ∧ State.reset.boot.error = 0 ∧
  State.reset.net.sessions = [] ∧ State.reset.jobs.ctxs = [] ∧ State.reset.models.models = [] ∧ State.reset.pending = []

/-- A power-on reset keeps the flash, what has left and what waits, and nothing else (R453, R500, R501). A warm reset keeps memory's bytes,
the beat counter and the flash but for what the end of a freeze records, and ends every session and command (R288, R453, R466); the start
begins again at its release (R467). -/
def Obligations.ResetsKeepWhatTheyShould : Prop :=
  (∀ s : State, ∃ t, exec .powerOnReset s = .next t ∧ t.flash = s.flash ∧ t.pins.slotId = s.pins.slotId ∧ t.boot.stage = 1 ∧
    t.beat = BeatSt.zero ∧ t.mem = MemSt.zero ∧ t.net = NetSt.zero ∧ t.jobs = JobSt.zero ∧ t.models = ⟨[], [], []⟩ ∧
    t.pending = s.pending) ∧
  (∀ (us : Nat) (s : State), us < 1000 → exec (.porAssert us) s = .next s) ∧
  (∀ (us : Nat) (s : State), 1000 ≤ us → ∃ t, exec (.porAssert us) s = .next t ∧ t.pins.porLow = true ∧ t.flash = s.flash ∧
    t.mem = MemSt.zero ∧ t.boot.stage = 1) ∧
  (∀ s : State, ∃ t, exec .powerFail s = .next t ∧ t.pins.pwrGood = false ∧ t.flash = s.flash ∧ t.mem = MemSt.zero) ∧
  (∀ s : State, Powered s → 4 ≤ s.boot.stage → s.boot.stage ≤ 6 → s.beat.clkHold = false →
    ∃ t, exec .warmResetAssert s = .next t ∧ t.boot.stage = 9 ∧ t.boot.resetKind = 1 ∧ t.pins.warmLow = true ∧
      t.mem.cells = s.mem.cells ∧ t.mem.undef = s.mem.undef ∧ t.beat.count = s.beat.count ∧ t.beat.aligned = s.beat.aligned ∧
      t.net.sessions = [] ∧ t.jobs.cmds = [] ∧ t.jobs.ctxs = [] ∧ t.flash.counters = s.flash.counters ∧
      t.flash.map = s.flash.map ∧ t.pending = s.pending) ∧
  (∀ (h : Hdr) (e : Session) (s : State), Served (.resetWarm h) h ⟨0x0A05, roleOperate, 0⟩ e s → Powered s →
    ∃ t, exec (.resetWarm h) s = .next t ∧ t.boot.stage = 9 ∧ t.boot.resetKind = 2 ∧ t.mem.cells = s.mem.cells ∧
      t.net.sessions = []) ∧
  (∀ s : State, s.boot.stage = 9 → exec .warmRestart s =
    .next { s with boot := { s.boot with stage := 1 }, pins := { s.pins with warmLow := false } }) ∧
  (∀ s : State, s.boot.stage ≠ 9 → exec .warmRestart s = .next s)

/-- Stages follow one another (R458): a stage that ends well leads to the next or to its halt, a failed one to HALTED with its code, or in
stage 4 to WAIT_PLAN (R460, R461). -/
def Obligations.BootStagesFollow : Prop :=
  (∀ (inp : StageInput) (s : State), Powered s → inp.result = .ok → s.boot.stage = 1 →
    ∃ t, exec (.bootStageComplete inp) s = .next t ∧
      (t.boot.stage = 2 ∧ t.flash = s.flash ∨ t.boot.stage = 15 ∧ t.boot.error = 1 ∧ t.pins.alert = true)) ∧
  (∀ (inp : StageInput) (s : State), Powered s → inp.result = .ok → s.boot.stage = 5 →
    ∃ t, exec (.bootStageComplete inp) s = .next t ∧ t.boot.stage = 6 ∧ t.pwr.pIdle = inp.pIdle ∧
      s.flash.counters.stage1 ≤ t.flash.counters.stage1 ∧ hSecVersion s.boot.s1Header ≤ t.flash.counters.stage1 ∧
      s.flash.counters.limcel ≤ t.flash.counters.limcel ∧ hSecVersion s.boot.lcHeader ≤ t.flash.counters.limcel) ∧
  (∀ (inp : StageInput) (code : Nat) (s : State), Powered s → inp.result = .failed code → code ≠ 0 → failedStage code = s.boot.stage →
    s.boot.stage ≠ 4 → ∃ t, exec (.bootStageComplete inp) s = .next t ∧ t.boot.stage = 15 ∧ t.boot.error = code ∧ t.pins.alert = true ∧
      t.net.ethUp = [false, false] ∧ (∀ l ∈ t.fab.links, l.state = 0)) ∧
  (∀ (inp : StageInput) (code : Nat) (s : State), Powered s → inp.result = .failed code → code = 8 ∨ code = 9 → s.boot.stage = 4 →
    ∃ t, exec (.bootStageComplete inp) s = .next t ∧ t.boot.stage = 7 ∧ t.boot.error = code)

/-- The mailbox (R461, R468, R479): MACSEC_KEY releases its port, SHUTDOWN ends every command and request and leads to OFF_READY,
INSTALL_CHUNK and INSTALL_COMMIT bring a record in WAIT_PLAN; in the wrong stage a command is refused with STATUS 3. Identity and the test
port (R462 to R464, R510, R511). -/
def Obligations.MailboxAndIdentity : Prop :=
  (∀ (port : Nat) (cak ckn : List Byte) (s : State), mailboxAnswers s = true → port < 2 → macsecOn s port = true →
    ∃ t, exec (.macsecKey port cak ckn) s = .next t ∧ t.boot.mboxStatus = 2 ∧ t.boot.macsecWait = updAt port (fun _ => false) s.boot.macsecWait ∧
      t.boot.macsecKeys = (port, cak, ckn) :: s.boot.macsecKeys.filter (fun k => k.1 ≠ port) ∧ t.net = s.net) ∧
  (∀ (port : Nat) (cak ckn : List Byte) (s : State), mailboxAnswers s = true → (2 ≤ port ∨ macsecOn s port = false) →
    ∃ t, exec (.macsecKey port cak ckn) s = .next t ∧ t.boot.mboxStatus = 3 ∧ t.boot.macsecKeys = s.boot.macsecKeys ∧ t.net = s.net) ∧
  (∀ s : State, mailboxAnswers s = true → 4 ≤ s.boot.stage → s.boot.stage ≤ 6 →
    ∃ t, exec .shutdown s = .next t ∧ t.boot.stage = 8 ∧ t.boot.mboxStatus = 2 ∧ t.net.ethUp = [false, false] ∧
      (∀ l ∈ t.fab.links, l.state = 0) ∧ t.mem.cells = s.mem.cells ∧ t.flash.counters = s.flash.counters) ∧
  (∀ (offset : Nat) (data : List Byte) (s : State), mailboxAnswers s = true → s.boot.stage = 7 → data.length ≤ 56 →
    offset + data.length ≤ 1048576 →
      ∃ t, exec (.installChunk offset data) s = .next t ∧ t.boot.mboxStatus = 2 ∧ t.boot.installBuf.drop offset =
        data ++ s.boot.installBuf.drop (offset + data.length) ∧ t.flash = s.flash) ∧
  (∀ (offset : Nat) (data : List Byte) (s : State), mailboxAnswers s = true → s.boot.stage ≠ 7 →
    ∃ t, exec (.installChunk offset data) s = .next t ∧ t.boot.mboxStatus = 3 ∧ t.boot.installBuf = s.boot.installBuf) ∧
  (∀ (total : Nat) (s : State), mailboxAnswers s = true → s.boot.stage = 7 → total = s.boot.installBuf.length →
    exec (.installCommit total true) s = .next (if recordVerifies s s.boot.installBuf = true then
      (match readInstall s s.boot.installBuf with
      | none => mailbox 4 3 (leBytes 4 total) s
      | some r =>
        if planSound r = false ∨ r.secVersion < s.flash.counters.install ∨ (r.device ≠ 0 ∧ r.device ≠ s.flash.serial) then mailbox 4 3 (leBytes 4 total) s
        else mailbox 4 2 (leBytes 4 total) { s with
          flash := { s.flash with install := some r, installHeader := s.boot.installBuf.take 128 }
          boot := { s.boot with stage := 4, installBuf := [] } }) else mailbox 4 3 (leBytes 4 total) s)) ∧
  (∀ (total : Nat) (s : State), mailboxAnswers s = true → exec (.installCommit total false) s = .next (mailbox 4 3 (leBytes 4 total) s)) ∧
  (∀ (h : Hdr) (m : List Byte) (e : Session) (s : State), Served (.attest h m) h ⟨0x0A03, 0, 0⟩ e s →
    exec (.attest h m) s = .next (replyOk h 0x0A03 (Config.spdmMeasurements (measurements s) m) s)) ∧
  (∀ (h : Hdr) (o n : Nat) (e : Session) (s : State), Served (.certRead h 0 o n) h ⟨0x0A04, 0, 0⟩ e s → 1 ≤ n → n ≤ 4096 →
    exec (.certRead h 0 o n) s = .next (replyOk h 0x0A04 (((Config.certChain (aliasMeasurements s)).drop o).take n) s)) ∧
  (∀ (h : Hdr) (slot o n : Nat) (e : Session) (s : State), Served (.certRead h slot o n) h ⟨0x0A04, 0, 0⟩ e s → slot ≠ 0 →
    exec (.certRead h slot o n) s = .next (reply h 0x0A04 0x0013 0 [] s)) ∧
  (∀ s : State, exec (.jtagInstruction .idcode) s = .next (emit (.testPort .idcode (some (idcode s)))
    { s with pins := { s.pins with jtag := .idcode } })) ∧
  (∀ (op : JtagOp) (s : State), s.pins.porLow = false → op = .extest ∨ op = .clamp ∨ op = .highz →
    exec (.jtagInstruction op) s = .next (emit (.testPort .bypass none) { s with pins := { s.pins with jtag := .bypass } })) ∧
  (∀ (h : Hdr) (cs : List Nat) (e : Session) (s : State), Served (.resetStations h cs) h ⟨0x0A05, roleOperate, 0⟩ e s →
    (∀ c ∈ cs, ctxRefusal s e.principal c = none) →
      exec (.resetStations h cs) s = .next (replyOk h 0x0A05 [] { s with jobs := { s.jobs with resets := s.jobs.resets ++ cs } }))

/-- Live firmware update (R473 to R476). -/
def Obligations.FirmwareUpdate : Prop :=
  (∀ (h : Hdr) (w : WinRef) (bs : List Byte) (e : Session) (s : State), Served (.fwStage h w true) h ⟨0x0A01, roleOperate, featRoce⟩ e s →
    windowBytes s e.principal w = some bs → fwRefusal s bs true (tbit h.cflags 0) = none → hKind bs = 2 →
      exec (.fwStage h w true) s = .next (replyOk h 0x0A01 (leBytes 4 (hVersion (bs.take 128)))
        { s with flash := { s.flash with
            limcel := updAt (1 - s.boot.lcSlot) (fun _ => bs.take 128) s.flash.limcel, staged := true } })) ∧
  (∀ (h : Hdr) (w : WinRef) (bs : List Byte) (e : Session) (s : State), Served (.fwStage h w false) h ⟨0x0A01, roleOperate, featRoce⟩ e s →
    windowBytes s e.principal w = some bs → hKind bs = 1 ∨ hKind bs = 2 →
      exec (.fwStage h w false) s = .next (reply h 0x0A01 0x0042 0 [] s)) ∧
  (∀ (h : Hdr) (beat : Nat) (e : Session) (s : State), Served (.fwActivate h beat) h ⟨0x0A02, roleOperate, 0⟩ e s →
    s.flash.staged = true → 2 ∈ s.hlth.pairs → beatBefore beat (beatAdd s.now 100000) = false → s.boot.activation = none →
    s.sori.sori = [] →
      ∃ t, exec (.fwActivate h beat) s = .next t ∧ t.boot.activation = some ⟨beat, h.session, h.tag⟩ ∧ t.flash = s.flash) ∧
  (∀ (h : Hdr) (beat : Nat) (e : Session) (s : State), Served (.fwActivate h beat) h ⟨0x0A02, roleOperate, 0⟩ e s →
    s.flash.staged = false → exec (.fwActivate h beat) s = .next (reply h 0x0A02 0x0020 0x51 [] s)) ∧
  (∀ (pauseNs k : Nat) (a : Activation) (s : State), s.boot.activation = some a → beatBefore s.now a.beat = false →
    s.hlth.pairs.findIdx? (fun r => r = 2) = some k →
      ∃ t, exec (.fwTakeover pauseNs) s = .next t ∧ t.boot.activation = none ∧ t.boot.lcSlot = 1 - s.boot.lcSlot ∧
        t.flash.bootLc = 1 - s.boot.lcSlot ∧ t.flash.staged = false ∧ t.hlth.pairs[k]? = some 4 ∧
        s.flash.counters.limcel ≤ t.flash.counters.limcel ∧ t.mem = s.mem ∧ t.jobs = s.jobs) ∧
  (∀ (p : Nat) (s : State), p ∈ s.boot.reloading → ∃ t, exec (.pairReloadComplete p) s = .next t ∧ p ∉ t.boot.reloading ∧
    t.hlth.pairs = resumeRoles (updAt p (fun _ => 2) s.hlth.pairs))

/-- MODEL_DECLARE enters a model with its shards pending (R243, R244, R248, R252); WITHDRAW leaves it ABSENT with its regions given back
(R244). MODEL_ACTIVATE completes as a sorus of its own (R251, R377), whose commit makes the model ACTIVE with its first epoch and its KV
pool, and raises the manifest counter (R251, R258, R281, R457). -/
def Obligations.ModelsComeAndGo : Prop :=
  (∀ (h : Hdr) (w : WinRef) (bs : List Byte) (m : Manifest) (ps : List PlacedTensor) (e : Session) (s s' : State),
    Served (.modelDeclare h w 0 true) h ⟨0x0101, roleModels, featRoce⟩ e s → windowBytes s e.principal w = some bs →
    readManifest s true bs = .ok m → m.kind = 0 → s.model m.modelId = none → placeWaits s m = false →
    s.models.models.length + waitingModels s < 8 → placeAll (ownerFor s m) (placeOrder s m) true s = .done ps s' →
      ∃ t x, exec (.modelDeclare h w 0 true) s = .next t ∧ t.models.models = s'.models.models ++ [x] ∧ x.id = m.modelId ∧
        x.manifest = m ∧ x.placed = ps ∧ x.timeout = 30 ∧ x.source = e.principal ∧
        x.state = (if x.shards = [] then 2 else 1) ∧ (∀ y ∈ x.shards, y.state = 0 ∧ y.attempt = 1) ∧ t.mem = s'.mem) ∧
  (∀ (h : Hdr) (id : Nat) (m : Model) (e : Session) (s : State), Served (.modelWithdraw h id) h ⟨0x0101, roleModels, 0⟩ e s →
    s.model id = some m → m.state ≠ 3 ∨ modelInUse s id = false →
      ∃ t, exec (.modelWithdraw h id) s = .next t ∧ t.model id = none ∧ t.mem.cells = s.mem.cells ∧
        (∀ g ∈ t.mem.regions, ofModel id g.owner = false) ∧ (∀ p ∈ t.models.converter, p.modelId ≠ id)) ∧
  (∀ (h : Hdr) (id : Nat) (m : Model) (e : Session) (s : State), Served (.modelWithdraw h id) h ⟨0x0101, roleModels, 0⟩ e s →
    s.model id = some m → m.state = 3 → modelInUse s id = true →
      exec (.modelWithdraw h id) s = .next (reply h 0x0101 0x0020 0x33 [] s)) ∧
  (∀ (h : Hdr) (id kCand : Nat) (m : Model) (e : Session) (s : State), Served (.modelActivate h id kCand 0) h ⟨0x0104, roleModels, 0⟩ e s →
    kCand = 0 ∨ 16 ≤ kCand ∧ kCand ≤ 4096 → s.model id = some m → m.state = 2 → m.manifest.holders.length ≤ 1 →
    largestPool s m.manifest ≠ 0 →
      ∃ t, exec (.modelActivate h id kCand 0) s = .next t ∧ OwnSorusPrepared (.modelActivate h id kCand 0) h s t ∧ t.mem = s.mem) ∧
  (∀ (h : Hdr) (id kCand n p sid k : Nat) (g : Region) (m : Model) (s : State), s.model id = some m → m.state = 2 → n ≠ 0 →
    reservedRegion s sid k = some g → (∀ r ∈ s.mem.regions, r.owner ≠ .kvPool id) →
      ∃ m', (commitOne p sid k (.modelActivate h id kCand n) s).model id = some m' ∧ m'.state = 3 ∧
        m'.follow = m.manifest.epochId ∧ m'.usedEpochs = [m.manifest.epochId] ∧ m'.kCand = (if kCand = 0 then 1024 else kCand) ∧
        m'.pageSets = n ∧ m'.kvBase = g.base ∧ m'.usedSets = [] ∧
        (commitOne p sid k (.modelActivate h id kCand n) s).flash.counters.manifest =
          max s.flash.counters.manifest m.manifest.secVersion)

/-- Shards (R245, R248 to R250): a push queues for the converter, which accepts the shard or fails its attempt with a cause; a time-out and a
peer read likewise. A failed attempt of a model's shard is recorded; the fourth fails the shard for good, an earlier one is asked again
(R248, R249). -/
def Obligations.ShardsArrive : Prop :=
  (∀ (h : Hdr) (id k window offset : Nat) (slot : Option Nat) (set : ShardSet) (st : ShardSt) (x : Shard) (bs : List Byte) (e : Session)
    (s : State), Served (.shardPush h id k window offset) h ⟨0x0102, roleModels, featRoce⟩ e s → pushTarget s id k = some slot →
    shardSet s id slot = some set → set.shards.find? (fun x => x.index = k) = some st → set.manifest.shards[k]? = some x →
    st.state = 0 → windowBytes s e.principal ⟨window, offset, x.bytes⟩ = some bs →
      exec (.shardPush h id k window offset) s = .next (replyOk h 0x0102 [] { s with models := { s.models with
        converter := s.models.converter ++ [⟨id, slot, k, bs⟩] } })) ∧
  (∀ (h : Hdr) (id first count : Nat) (m : Model) (e : Session) (s : State),
    Served (.shardStatus h id first count) h ⟨0x0103, roleModels, 0⟩ e s → 1 ≤ count → count ≤ 256 → s.model id = some m → m.state ≤ 2 →
      ∃ r : List Byte, exec (.shardStatus h id first count) s = .next (replyOk h 0x0103
        (leBytes 1 (0x30 + m.state) ++ leBytes 3 0 ++ leBytes 4 (m.shards.filter fun x => x.state = 1).length ++
          leBytes 4 (m.shards.filter fun x => x.state = 0).length ++ leBytes 4 (m.shards.filter fun x => x.state = 2).length ++ r) s)) ∧
  (∀ (p : Push) (rest : List Push) (set : ShardSet) (st : ShardSt) (x : Shard) (y : Tensor) (images : List (Nat × List Byte)) (s : State),
    s.models.converter = p :: rest → shardSet s p.modelId p.slot = some set → set.shards.find? (fun x => x.index = p.shard) = some st →
    set.manifest.shards[p.shard]? = some x → st.state = 0 → set.manifest.tensors.find? (fun y => y.id = x.tensor) = some y →
    convertShard y x p.bytes = .ok images →
      exec .shardConvert s =
        .next (acceptShard p.modelId p.slot x images { s with models := { s.models with converter := rest } })) ∧
  (∀ (p : Push) (rest : List Push) (set : ShardSet) (st : ShardSt) (x : Shard) (y : Tensor) (c : Nat) (s : State),
    s.models.converter = p :: rest → shardSet s p.modelId p.slot = some set → set.shards.find? (fun x => x.index = p.shard) = some st →
    set.manifest.shards[p.shard]? = some x → st.state = 0 → set.manifest.tensors.find? (fun y => y.id = x.tensor) = some y →
    convertShard y x p.bytes = .error c →
      exec .shardConvert s =
        .next (failAttempt p.modelId p.slot p.shard c { s with models := { s.models with converter := rest } })) ∧
  (∀ (id k : Nat) (slot : Option Nat) (s : State), pushTarget s id k = some slot → queuedShard s id slot k = false →
    attemptOver s id slot k = true → exec (.shardTimeout id k) s = .next (failAttempt id slot k 4 s)) ∧
  (∀ (id k : Nat) (images : List Byte) (slot : Option Nat) (set : ShardSet) (st : ShardSt) (x : Shard) (y : Tensor) (s : State),
    pushTarget s id k = some slot → shardSet s id slot = some set → set.shards.find? (fun x => x.index = k) = some st →
    set.manifest.shards[k]? = some x → st.state = 0 → st.asked = 0xFFFFFFFF → set.manifest.tensors.find? (fun y => y.id = x.tensor) = some y →
      exec (.shardPeerRead id k images) s = .next (if sha384 images = x.rdigest then
        acceptShard id slot x ((shardPlaces y x).zip (chunks imageBytes images)) s else failAttempt id slot k 3 s)) ∧
  (∀ (id k cause : Nat) (m : Model) (st : ShardSt) (x : Shard) (s : State), s.model id = some m →
    m.shards.find? (fun y => y.index = k) = some st → m.manifest.shards[k]? = some x → st.state = 0 →
      ∃ m' st', (failAttempt id none k cause s).model id = some m' ∧ m'.shards.find? (fun y => y.index = k) = some st' ∧
        st'.cause = cause ∧ (4 ≤ st.attempt → st'.state = 2) ∧ (st.attempt < 4 → st'.state = 0 ∧ st'.attempt = st.attempt + 1))

/-- Epochs (R258 to R262). EPOCH_PUBLISH completes as a sorus of its own, whose commit makes the new epoch the follow epoch and holds the old
one if asked. EPOCH_RETIRE completes by releasing the hold, at once or at the commit of a sorus. An epoch not live is freed; a new
region's digest is kept. -/
def Obligations.EpochsPublishRetireFree : Prop :=
  (∀ (h : Hdr) (id epoch table : Nat) (e : Session) (s : State), Served (.epochPublish h id epoch table) h ⟨0x0105, roleModels, featLearn⟩ e s →
    (s.handle table).isSome = true → handleDenied s e.principal table = false → (publishPrep id epoch table (2 ^ 32 + s.fresh) 0 { s with fresh := s.fresh + 1 }).2 = none →
      ∃ t, exec (.epochPublish h id epoch table) s = .next t ∧ OwnSorusPrepared (.epochPublish h id epoch table) h s t ∧ t.mem = s.mem ∧
        t.models = s.models) ∧
  (∀ (h : Hdr) (id epoch table p sid k : Nat) (m : Model) (ps : List Pointer) (s : State), s.model id = some m → m.state = 3 →
    (∀ e ∈ m.usedEpochs, e < epoch) → newTable s m table = some ps → (∀ x ∈ m.epochs, x.id ≠ epoch) →
      ∃ m', (commitOne p sid k (.epochPublish h id epoch table) s).model id = some m' ∧ m'.follow = epoch ∧
        m'.epochs = updBy (fun x => x.id = m.follow) (fun x => { x with held := x.held || tbit h.cflags 0 }) m.epochs ++
          [⟨epoch, false, ps⟩] ∧ m'.usedEpochs = m.usedEpochs ++ [epoch] ∧ m'.state = 3) ∧
  (∀ (h : Hdr) (id epoch : Nat) (m : Model) (x : Epoch) (e : Session) (s : State), Served (.epochRetire h id epoch) h ⟨0x0106, roleModels, featLearn⟩ e s →
    s.model id = some m → m.state = 3 → epoch ∈ m.usedEpochs → m.follow ≠ epoch → m.epochs.find? (fun x => x.id = epoch) = some x →
    x.held = true →
      exec (.epochRetire h id epoch) s = .next (replyOk h 0x0106 [] (setModel id (fun m => { m with
        epochs := updBy (fun e => e.id = epoch) (fun e => { e with held := false }) m.epochs }) s))) ∧
  (∀ (h : Hdr) (id epoch : Nat) (m : Model) (e : Session) (s : State), Served (.epochRetire h id epoch) h ⟨0x0106, roleModels, featLearn⟩ e s →
    s.model id = some m → m.state = 3 → epoch ∈ m.usedEpochs → m.follow = epoch →
      exec (.epochRetire h id epoch) s = .next (reply h 0x0106 0x0020 0x56 [] s)) ∧
  (∀ (h : Hdr) (id epoch p sid k : Nat) (m : Model) (x : Epoch) (s : State), s.model id = some m → m.state = 3 → epoch ∈ m.usedEpochs →
    m.follow ≠ epoch → m.epochs.find? (fun x => x.id = epoch) = some x → x.held = true →
      ∃ m', (commitOne p sid k (.epochRetire h id epoch) s).model id = some m' ∧
        m'.epochs = updBy (fun e => e.id = epoch) (fun e => { e with held := false }) m.epochs ∧ m'.follow = m.follow) ∧
  (∀ (id epoch : Nat) (m : Model) (x : Epoch) (s : State), s.model id = some m → m.epochs.find? (fun x => x.id = epoch) = some x →
    epochLive s m x = false →
      ∃ t m', exec (.epochFree id epoch) s = .next t ∧ t.model id = some m' ∧ (∀ y ∈ m'.epochs, y.id ≠ epoch) ∧ t.mem.cells = s.mem.cells) ∧
  (∀ (id epoch : Nat) (m : Model) (s : State), s.model id = some m → epoch ∈ spoiltEpochs m →
      ∃ t m', exec (.epochWithdraw id epoch) s = .next t ∧ t.model id = some m' ∧ (∀ y ∈ m'.epochs, y.id ≠ epoch) ∧
        (m.follow = epoch → m'.state = 4)) ∧
  (∀ (addr bytes : Nat) (s : State), exec (.digestComplete addr bytes) s = .next { s with models := { s.models with
    digests := (addr, bytes, regionDigest s addr bytes) :: s.models.digests.filter fun d => d.1 ≠ addr } })

/-- Adapters and variants (R207, R263 to R265). ADAPTER_REPLACE and ADAPTER_UNLOAD complete as sori of their own: the staged version becomes
the slot's current one, or the slot closes with no current version. Scrubbing and verifying (R255 to R257): a pass counts; a finding whose
second hash matches only counts; a mismatch marks the region suspect; a verified model is ACTIVE again, and has its KV pool anew (log
126). -/
def Obligations.AdaptersAndScrubbing : Prop :=
  (∀ (h : Hdr) (id slot : Nat) (w : WinRef) (bs : List Byte) (m : Manifest) (ps : List PlacedTensor) (e : Session) (s s' : State),
    Served (.adapterLoad h id slot w 0 true) h ⟨0x0107, roleModels, featRoce⟩ e s → slot ≤ 63 → modelCode s id = 0x33 →
    ((s.model id).bind fun m => m.slotOf slot) = none → windowBytes s e.principal w = some bs → readManifest s true bs = .ok m →
    m.kind = 1 → m.modelId = id → m.slot = slot → placeWaits s m = false → placeAll (ownerFor s m) (placeOrder s m) true s = .done ps s' → s'.models = s.models →
      ∃ t x a v, exec (.adapterLoad h id slot w 0 true) s = .next t ∧ t.model id = some x ∧ x.slotOf slot = some a ∧ a.next = 2 ∧
        a.versions = [v] ∧ v.version = 1 ∧ v.live = false ∧ v.manifest = m ∧ v.placed = ps) ∧
  (∀ (h : Hdr) (id slot : Nat) (e : Session) (s : State), Served (.adapterReplace h id slot) h ⟨0x0108, roleModels, 0⟩ e s → slot ≤ 63 →
    replaceRefusal { s with fresh := s.fresh + 1 } id slot = none →
      ∃ t, exec (.adapterReplace h id slot) s = .next t ∧ OwnSorusPrepared (.adapterReplace h id slot) h s t ∧ t.models = s.models) ∧
  (∀ (h : Hdr) (id slot : Nat) (e : Session) (s : State), Served (.adapterUnload h id slot) h ⟨0x0109, roleModels, 0⟩ e s → slot ≤ 63 →
    unloadRefusal { s with fresh := s.fresh + 1 } id slot = none →
      ∃ t, exec (.adapterUnload h id slot) s = .next t ∧ OwnSorusPrepared (.adapterUnload h id slot) h s t ∧ t.models = s.models) ∧
  (∀ (h : Hdr) (id slot p sid k : Nat) (v : AdapterVer) (s : State), replaceRefusal s id slot = none → verifiedStaged s id slot = some v →
    ∃ m' a' w, (commitOne p sid k (.adapterReplace h id slot) s).model id = some m' ∧ m'.slotOf slot = some a' ∧ a'.closed = false ∧
      w ∈ a'.versions ∧ w.version = v.version ∧ w.live = true ∧ w.current = true ∧
      ∀ u ∈ a'.versions, u.version ≠ v.version → u.current = false) ∧
  (∀ (h : Hdr) (id slot p sid k : Nat) (s : State), unloadRefusal s id slot = none →
    ∃ m' a', (commitOne p sid k (.adapterUnload h id slot) s).model id = some m' ∧ m'.slotOf slot = some a' ∧ a'.closed = true ∧
      ∀ u ∈ a'.versions, u.current = false) ∧
  (∀ (id slot : Nat) (m : Model) (a : AdapterSlot) (v : AdapterVer) (s : State), s.model id = some m → m.slotOf slot = some a →
    a.versions = [v] → v.live = false → (∀ x ∈ v.shards, x.state = 1) →
      ∃ t m' a', exec (.adapterVersionLive id slot) s = .next t ∧ t.model id = some m' ∧ m'.slotOf slot = some a' ∧
        a'.versions = [{ v with live := true, current := true }] ∧
        t.flash.counters.manifest = max s.flash.counters.manifest v.manifest.secVersion ∧ t.mem = s.mem) ∧
  (∀ (h : Hdr) (p : VariantP) (bs : List Byte) (m : Model) (e : Session) (s : State), Served (.variantDefine h p) h ⟨0x010A, roleModels, featRoce⟩ e s →
    tbit h.cflags 0 = false → 1 ≤ p.variant → p.variant ≤ 65535 → s.model p.modelId = some m → m.state ≠ 4 →
    (∀ r ∈ s.serve.reqs, r.p.modelId ≠ p.modelId) → windowBytes s e.principal ⟨p.window, p.offset, 4 * p.entries⟩ = some bs →
    variantOk m p.variant (variantEntries bs) = true →
      ∃ t m', exec (.variantDefine h p) s = .next t ∧ t.model p.modelId = some m' ∧
        m'.variants = (((m.variants.filter fun (v : Variant) => decide (v.id ≠ p.variant)) ++ [(⟨p.variant, p.slots, variantEntries bs, []⟩ : Variant)]).map fun (v : Variant) =>
          { v with masks := maskRows m ((m.variants.filter fun (v : Variant) => decide (v.id ≠ p.variant)) ++
            [(⟨p.variant, p.slots, variantEntries bs, []⟩ : Variant)]) v.id }) ∧ t.mem = s.mem) ∧
  (∀ s : State, exec (.scrubPass []) s =
    .next { s with mem := { s.mem with passes := wrap32 (s.mem.passes + 1), scrubNext := s.mem.scrubInterval } }) ∧
  (∀ (a : Nat) (s : State), exec (.scrubPass [⟨a, false, true⟩]) s =
    .next { s with mem := { s.mem with
      passes := wrap32 (s.mem.passes + 1), scrubNext := s.mem.scrubInterval, cleared := sat32 (s.mem.cleared + 1) } }) ∧
  (∀ (a : Nat) (m : Model) (s : State), s.models.models.find? (fun m => namesRegion m a) = some m → s.model m.id = some m → a ∉ m.suspects →
    ∃ t m', exec (.scrubPass [⟨a, false, false⟩]) s = .next t ∧ t.model m.id = some m' ∧ a ∈ m'.suspects ∧
      t.mem.suspect = sat32 (s.mem.suspect + 1) ∧ t.mem.cells = s.mem.cells) ∧
  (∀ (id b : Nat) (m : Model) (s : State), s.model id = some m → m.verifying = true → m.state = 1 → m.epochs ≠ [] → m.suspects = [] →
    (∀ g ∈ s.mem.regions, g.owner ≠ .kvPool id) → roomFor s 0 none (m.pageSets * setBytes m.manifest.layers) = some b →
      ∃ t g, exec (.reverifyComplete id []) s = .next t ∧
        t.model id = some { m with verifying := false, state := 3, kvBase := b } ∧ g ∈ t.mem.regions ∧ g.owner = .kvPool id ∧
        g.base = b ∧ t.mem.cells = s.mem.cells)

/-- REQ_SUBMIT, REQ_CANCEL, REQ_PAUSE, REQ_RESUME and REQ_QUERY complete: each is accepted and takes effect in phase 4 (R215, R349), a
submission with the prompt it brought or that its window holds; a command on another principal's request is denied (R359). A request that
has reached a final state stays there until it is forgotten (R212): none of the request events changes it. -/
def Obligations.RequestCommands : Prop :=
  (∀ (h : Hdr) (p : SubmitP) (e : Session) (s : State), subInWindow p = false →
    Served (.reqSubmit h p) h ⟨0x0201, roleServe, 0 + if subSpeculates p then featSpeculate else 0⟩ e s →
    submitBad p = false → p.tokens.length = p.promptLen → ActsInPhase4 (.reqSubmit h p) s) ∧
  (∀ (h : Hdr) (p : SubmitP) (bs : List Byte) (e : Session) (s : State), subInWindow p = true →
    Served (.reqSubmit h (withPrompt s e.principal p)) h ⟨0x0201, roleServe, featRoce + if subSpeculates p then featSpeculate else 0⟩ e s →
    submitBad p = false → windowBytes s e.principal ⟨p.window, p.windowOffset, 4 * p.promptLen⟩ = some bs →
    ((chunks 4 bs).map leNat).length = p.promptLen →
      ∃ t, exec (.reqSubmit h p) s = .next t ∧
        t.serve = { s.serve with actions := s.serve.actions ++ [.reqSubmit h { p with tokens := (chunks 4 bs).map leNat }] } ∧
        t.mem = s.mem ∧ t.jobs = s.jobs ∧ t.models = s.models) ∧
  (∀ (h : Hdr) (id : Nat) (r : Req) (e : Session) (s : State), Served (.reqCancel h id) h ⟨0x0202, roleServe, 0⟩ e s →
    s.req id = some r → r.principal = e.principal → ActsInPhase4 (.reqCancel h id) s) ∧
  (∀ (h : Hdr) (id : Nat) (r : Req) (e : Session) (s : State), Served (.reqPause h id) h ⟨0x0203, roleServe, 0⟩ e s →
    s.req id = some r → r.principal = e.principal → ActsInPhase4 (.reqPause h id) s) ∧
  (∀ (h : Hdr) (id : Nat) (r : Req) (e : Session) (s : State), Served (.reqResume h id) h ⟨0x0204, roleServe, 0⟩ e s →
    s.req id = some r → r.principal = e.principal → ActsInPhase4 (.reqResume h id) s) ∧
  (∀ (h : Hdr) (id : Nat) (r : Req) (e : Session) (s : State), Served (.reqQuery h id) h ⟨0x0205, roleServe, 0⟩ e s →
    s.req id = some r → r.principal = e.principal → ActsInPhase4 (.reqQuery h id) s) ∧
  (∀ (h : Hdr) (id : Nat) (r : Req) (e : Session) (s : State), Served (.reqQuery h id) h ⟨0x0205, roleServe, 0⟩ e s →
    s.req id = some r → r.principal ≠ e.principal → exec (.reqQuery h id) s = .next (reply h 0x0205 0x0031 0 [] s)) ∧
  (∀ (id : Nat) (r : Req) (s : State), s.req id = some r → finalState r.state = true →
    exec (.reqExpire id) s = .next s ∧
    (∀ st status : Nat, endRequest id st status s = s) ∧
    (∀ ans : Answer, r.state ≠ 0x10 → cancelNow ans id s = ans 0x0020 r.state [] s) ∧
    (∀ ans : Answer, pauseNow ans id s = ans 0x0020 r.state [] s) ∧
    (∀ ans : Answer, resumeNow ans id s = ans 0x0020 r.state [] s))

/-- What a request command does when it takes effect in phase 4 (R212, R213, R216, R218, R227, R229, R365). A request's timers and moves
(R212, R215, R227 to R229): its deadline expires it; a lapsed pause loses its pages and stays PAUSED; 86,400 s of pause without a deadline
expire it; a final request is forgotten. -/
def Obligations.RequestsChange : Prop :=
  (∀ (h : Hdr) (p : SubmitP) (e : Session) (s : State), s.session h.session = some e → submitRefusal s p = none →
    (∀ r ∈ s.serve.reqs, r.id ≠ s.serve.nextReq) →
    ∃ t r, act (.reqSubmit h p) s = t ∧ t.req s.serve.nextReq = some r ∧ r.state = 1 ∧ r.principal = e.principal ∧
      r.session = h.session ∧ r.tag = h.tag ∧ r.tokens = p.tokens ∧ r.fill = 0 ∧ r.pages = [] ∧ r.delivered = 0 ∧
      t.serve.nextReq = s.serve.nextReq + 1) ∧
  (∀ (h : Hdr) (id : Nat) (r : Req) (s : State), s.req id = some r → finalState r.state = false →
    ∃ r', (act (.reqCancel h id) s).req id = some r' ∧ r'.state = 0x11) ∧
  (∀ (h : Hdr) (id : Nat) (r : Req) (s : State), s.req id = some r → finalState r.state = true → r.state ≠ 0x10 →
    act (.reqCancel h id) s = finish h.session h.tag 0x0202 0x0020 r.state [] s) ∧
  (∀ (h : Hdr) (id : Nat) (r : Req) (s : State), s.req id = some r → finalState r.state = false → r.state ≠ 5 →
    r.pausePending = false → r.state = 1 ∨ inStep s id = false →
      ∃ r', (act (.reqPause h id) s).req id = some r' ∧ r'.state = 5 ∧ r'.pausedAt = s.beat.elapsed) ∧
  (∀ (h : Hdr) (id : Nat) (r : Req) (s : State), s.req id = some r → finalState r.state = false → r.state ≠ 5 → r.state ≠ 1 →
    r.pausePending = false → inStep s id = true →
      ∃ r', (act (.reqPause h id) s).req id = some r' ∧ r'.state = r.state ∧ r'.pausePending = true) ∧
  (∀ (h : Hdr) (id : Nat) (r : Req) (s : State), s.req id = some r → r.state = 5 → r.resumeTo = none → r.pages = [] →
    0 < r.fill + r.delivered →
    ∃ r', (act (.reqResume h id) s).req id = some r' ∧ r'.state = 1 ∧ r'.fill = 0 ∧ r'.tokens = r.tokens) ∧
  (∀ (h : Hdr) (id : Nat) (r : Req) (s : State), s.req id = some r → r.state = 5 → r.resumeTo = none → r.pages ≠ [] →
    (∀ e ∈ r.pages, e.tier ≠ 2) →
    ∃ r', (act (.reqResume h id) s).req id = some r' ∧ r'.pages = r.pages ∧
      r'.state = (if r.delivered = 0 ∨ r.fill + 1 < r.tokens.length then 1 else 3)) ∧
  (∀ (h : Hdr) (id : Nat) (r : Req) (s : State), s.req id = some r →
    act (.reqQuery h id) s = finish h.session h.tag 0x0205 0 0 (leBytes 1 r.state ++ leBytes 3 0 ++ leBytes 4 r.delivered ++
      leBytes 4 r.fill ++ leBytes 4 r.lastEpoch ++ leBytes 2 r.version ++ leBytes 6 0 ++ leBytes 8 r.lastCommit) s) ∧
  (∀ (id : Nat) (r : Req) (s : State), s.req id = some r → deadlineDue s r = true → finalState r.state = false →
    ∃ t r', exec (.reqExpire id) s = .next t ∧ t.req id = some r' ∧ r'.state = 0x12) ∧
  (∀ (id : Nat) (r : Req) (s : State), s.req id = some r → ttlDue s r = true → r.resumeTo = none →
    ∃ t r', exec (.pauseTtlExpire id) s = .next t ∧ t.req id = some r' ∧ r'.state = 5 ∧ r'.pages = [] ∧
      (∀ g ∈ t.mem.regions, g.owner ≠ .paused id)) ∧
  (∀ (id : Nat) (r : Req) (s : State), s.req id = some r → holdDue s r = true →
    ∃ t r', exec (.pausedHoldExpire id) s = .next t ∧ t.req id = some r' ∧ r'.state = 0x12) ∧
  (∀ (id : Nat) (r : Req) (s : State), s.req id = some r → finalState r.state = true →
    r.finalAt + 60000000 ≤ s.beat.elapsed → exec (.requestForget id) s = .next { s with serve := { s.serve with reqs := s.serve.reqs.filter fun x => x.id ≠ id } }) ∧
  (∀ (id : Nat) (r : Req) (s : State), s.req id = some r → finalState r.state = false → exec (.requestForget id) s = .next s) ∧
  (∀ (id : Nat) (r : Req) (s : State), s.req id = some r → r.state = 5 → r.resumeTo = none →
    exec (.pauseMoveRetry id) s = .next (startPauseMove id s)) ∧
  (∀ (id : Nat) (r : Req) (g : Region) (s : State), s.req id = some r → pausedRegion s id = some g → r.state = 5 → r.resumeTo = none →
    movable s r ≠ [] →
      ∃ t r', exec (.pauseMoveComplete id) s = .next t ∧ t.req id = some r' ∧ r'.pages.length = r.pages.length ∧
        (∀ e ∈ movable s r, ∀ k : Nat, r.pages[k]? = some e → ∃ e' : PageEntry, r'.pages[k]? = some e' ∧ e'.tier = 2)) ∧
  (∀ (id st : Nat) (r : Req) (g : Region) (s : State), s.req id = some r → pausedRegion s id = some g → r.resumeTo = some st →
    r.resumeSets ≠ [] →
      ∃ t r', exec (.resumeMoveComplete id) s = .next t ∧ t.req id = some r' ∧ r'.resumeSets = [] ∧
        (∀ e ∈ r'.pages, e.tier ≠ 2) ∧ (∀ g ∈ t.mem.regions, g.owner ≠ .paused id))

/-- PROG_LOAD and PROG_UNLOAD (R132, R133), CTX_CREATE and CTX_DESTROY (R382, R383, R397), QUEUE_CREATE and QUEUE_DESTROY (R384, R386): each
does its work and answers it. -/
def Obligations.ProgramsContextsQueues : Prop :=
  (∀ (h : Hdr) (w : WinRef) (bs : List Byte) (m : Image) (e : Session) (s : State),
    Served (.progLoad h w) h ⟨0x0301, roleJobs, featRoce + featLearn⟩ e s → windowBytes s e.principal w = some bs →
    leAt bs 4 1 = 1 → parseImage bs = some m → imageOk m (layerDrops s) = true → s.jobs.programs.length < 256 →
    (s.jobs.programs.map fun p => p.image.imageBytes).sum + m.imageBytes ≤ 16777216 →
      exec (.progLoad h w) s = .next (replyOk h 0x0301 (leBytes 4 s.jobs.nextProgram) { s with jobs := { s.jobs with
        programs := s.jobs.programs ++ [⟨s.jobs.nextProgram, e.principal, m⟩]
        nextProgram := s.jobs.nextProgram + 1 } })) ∧
  (∀ (h : Hdr) (program : Nat) (p : Placed) (e : Session) (s : State),
    Served (.progUnload h program) h ⟨0x0302, roleJobs, featLearn⟩ e s → s.program program = some p → p.owner = e.principal →
      exec (.progUnload h program) s = .next (if programInUse s program then reply h 0x0302 stConflict 0x50 [] s
        else replyOk h 0x0302 [] { s with jobs := { s.jobs with programs := s.jobs.programs.filter fun p => p.id ≠ program } })) ∧
  (∀ (h : Hdr) (p : CtxP) (n : Nat) (e : Session) (s : State),
    Served (.ctxCreate h p) h ⟨0x0306, roleJobs, featLearn⟩ e s → (p.wdog = 0 ∨ (1000 ≤ p.wdog ∧ p.wdog ≤ 10000000)) →
    tbit p.members s.boot.pkg = true → freeCtx s = some n →
      exec (.ctxCreate h p) s = .next (replyOk h 0x0306 (leBytes 1 n) (takeAcct e.principal { s with jobs := { s.jobs with
        freed := s.jobs.freed.filter fun x => x.num ≠ n
        ctxs := s.jobs.ctxs ++ [newCtx n e.principal (tbit h.cflags 0) p] } }))) ∧
  (∀ (h : Hdr) (n : Nat) (c : Ctx) (e : Session) (s : State),
    Served (.ctxDestroy h n) h ⟨0x0307, roleJobs, featLearn⟩ e s → s.ctx n = some c → n ≠ 0 → c.principal = e.principal →
    (ctxHasWork s n = false ∨ tbit h.cflags 0 = true) →
      ∃ t, exec (.ctxDestroy h n) s = .next t ∧ t.ctx n = none ∧ (∀ x ∈ t.mem.handles, x.ctx ≠ n) ∧
        (∀ id x y, s.cmd id = some x → x.ctx = n → t.cmd id = some y → y.phase.over = true) ∧ t.mem.cells = s.mem.cells) ∧
  (∀ (h : Hdr) (n cls priority q : Nat) (c : Ctx) (e : Session) (s : State),
    Served (.queueCreate h n cls priority) h ⟨0x0304, roleJobs, featLearn⟩ e s → ctxRefusal s e.principal n = none → cls ≤ 1 →
    priority ≤ 7 → s.ctx n = some c → (List.range 16).find? (fun q => (c.queue q).isNone) = some q →
      exec (.queueCreate h n cls priority) s = .next (replyOk h 0x0304 (leBytes 1 q) (setCtx n (fun c => { c with
        queues := byKey (fun e => e.num) (c.queues ++ [⟨q, cls, priority, 0x5B, 0, 0, 0, 0, 0, 0, 0⟩]) }) s))) ∧
  (∀ (h : Hdr) (n q : Nat) (c : Ctx) (e : Session) (s : State),
    Served (.queueDestroy h n q) h ⟨0x0305, roleJobs, featLearn⟩ e s → ctxRefusal s e.principal n = none → s.ctx n = some c →
    (c.queue q).isSome = true → queueBusy s n q = false → waitingOf s n q = [] →
      ∃ t c', exec (.queueDestroy h n q) s = .next t ∧ t.ctx n = some c' ∧ c'.queue q = none ∧ t.mem = s.mem ∧ t.jobs.cmds = s.jobs.cmds)

/-- LAUNCH (R144, R366), COPY (R284) and SERVING_STEP_LAUNCH (R180) place one command: a LAUNCH's at the tail of its queue, eligible in the
next beat. PREEMPT and PREEMPT with RESUME complete: they wait for their beat, and in phase 6 of it their queues are PREEMPTING, or READY
again (R390, R391); PREEMPT_GRANT makes a PREEMPTING queue with nothing running HELD (R390). -/
def Obligations.LaunchesAndPreemption : Prop :=
  (∀ (h : Hdr) (p : LaunchP) (m : Placed) (e : Session) (s : State),
    Served (.launch h p) h ⟨0x0303, roleJobs, featLearn⟩ e s → launchRefusal s e.principal (namedEpoch h p) p = none →
    s.program p.program = some m →
      ∃ t c, exec (.launch h p) s = .next t ∧ t.jobs.cmds = s.jobs.cmds ++ [c] ∧ c.id = s.jobs.nextCmd ∧ c.ctx = p.ctx ∧
        c.queue = p.queue ∧ c.image = m.image ∧ c.phase = .waiting ∧ c.eligible = beatAdd s.now 1 ∧
        c.launch = launchOf h e.principal p ∧ t.mem = s.mem ∧ t.stns = s.stns) ∧
  (∀ (h : Hdr) (p : CopyP) (e : Session) (s : State),
    Served (.copy h p) h ⟨0x0404, roleJobs, 0⟩ e s → copyRefusal s e.principal p = none →
      ∃ t c, exec (.copy h p) s = .next t ∧ t.jobs.cmds = s.jobs.cmds ++ [c] ∧ c.id = s.jobs.nextCmd ∧ c.kind = .copy ∧
        c.image = copyImage firstMover p ∧ c.launch.handles = [p.src, p.dst] ∧ c.eligible = beatAdd s.now 1 ∧ t.mem = s.mem ∧
        t.jobs.ctxs = s.jobs.ctxs) ∧
  (∀ (p : StepLaunchP) (m : Placed) (c : Ctx) (s : State),
    s.program p.program = some m → s.ctx 0 = some c → (c.queue p.queue).isSome = true → s.boot.stage = 6 → s.hlth.failed = false →
    p.modelId ≠ 0 → epochRefusal s p.modelId p.fixedEpoch = none → handlesFit s 0 m.image p.handles = true →
    dropsRows s m.image = false → samplesOk (((s.model p.modelId).map fun x => x.kCand).getD 0) m.image
      (p.decode || p.plan.any fun i => i.last) = true →
    namesUnbound s m.image = false → fitsShared s m.image = true → (waitingOf s 0 p.queue).length < 255 →
      ∃ t k, exec (.servingStepLaunch p) s = .next t ∧ k.kind = .step ∧ k.ctx = 0 ∧ k.queue = p.queue ∧ k.image = m.image ∧
        k.launch.isStep = true ∧ k.launch.modelId = p.modelId ∧ k ∈ t.jobs.cmds ∧ t.jobs.cmds.length = s.jobs.cmds.length + 1) ∧
  (∀ (h : Hdr) (n q b : Nat) (e : Session) (s : State),
    Served (.preempt h n q b) h ⟨0x0308, roleJobs, featLearn⟩ e s → preemptRefusal s e.principal n q false = none →
      exec (.preempt h n q b) s = .next (postPreempt h n q false (preemptBeat s b) (accept h 0x0308 [] s))) ∧
  (∀ (h : Hdr) (n q b : Nat) (e : Session) (s : State),
    Served (.preemptResume h n q b) h ⟨0x0308, roleJobs, featLearn⟩ e s → preemptRefusal s e.principal n q true = none →
      exec (.preemptResume h n q b) s = .next (postPreempt h n q true (preemptBeat s b) (accept h 0x0308 [] s))) ∧
  (∀ (p : Preempt) (c : Ctx) (s : State), s.ctx p.ctx = some c → preemptTargets c (p.wanted.headD 0xFF) p.resume ≠ [] →
      ∃ c', (applyPreempt p s).ctx p.ctx = some c' ∧ ∀ q ∈ preemptTargets c (p.wanted.headD 0xFF) p.resume, ∃ e', c'.queue q = some e' ∧
        e'.state = if p.resume then 0x5B else 0x5A) ∧
  (∀ (n q : Nat) (c : Ctx) (e : Queue) (s : State), s.ctx n = some c → c.queue q = some e → e.state = 0x5A → queueBusy s n q = false →
      ∃ t c' e', exec (.preemptGrant n q) s = .next t ∧ t.ctx n = some c' ∧ c'.queue q = some e' ∧ e'.state = 0x59 ∧
        e'.grants = sat32 (e.grants + 1) ∧ e'.heldSince = s.now ∧ (∀ p ∈ t.jobs.preempts, p.ctx = n → q ∉ p.waiting) ∧
        t.jobs.cmds = s.jobs.cmds ∧ t.mem = s.mem) ∧
  (∀ (n q : Nat) (s : State), queueBusy s n q = true → exec (.preemptGrant n q) s = .next s)

/-- Accounts and allocations: POOL_CREATE (R277), ALLOC of a plain range in free space (R278), FREE (R280). -/
def Obligations.AccountsAndAllocations : Prop :=
  (∀ (h : Hdr) (n tier reserve limit i : Nat) (e : Session) (s : State),
    Served (.poolCreate h n tier reserve limit) h ⟨0x0401, roleJobs, 0⟩ e s → ctxRefusal s e.principal n = none → tier ≤ 1 →
    reserve ≤ limit → (List.range 256).find? (fun i => (s.account i).isNone) = some i →
    reserves s tier + reserve ≤ freeSpace s tier →
      exec (.poolCreate h n tier reserve limit) s = .next (replyOk h 0x0401 (leBytes 1 i) { s with mem := { s.mem with
        accounts := s.mem.accounts ++ [⟨i, n, tier, reserve, limit, 0⟩] } })) ∧
  (∀ (h : Hdr) (p : AllocP) (a : Account) (b : Nat) (e : Session) (s : State),
    Served (.alloc h p) h ⟨0x0402, roleJobs, 0⟩ e s → p.kind = 0 → allocRoce p = false → allocBad p = false →
    allocRefusal s e.principal [s.boot.pkg] p = none → s.account p.account = some a →
    roomFor s a.tier (some a.id) (roundUp64K p.bytes) = some b → s.handle s.mem.nextHandle = none →
      ∃ t x, exec (.alloc h p) s = .next t ∧ t.handle s.mem.nextHandle = some x ∧ x.ctx = a.ctx ∧ x.kind = 0 ∧ x.rights = p.rights ∧
        x.tier = a.tier ∧ x.base = b ∧ x.bytes = roundUp64K p.bytes ∧ x.window = none ∧
        (∃ g ∈ t.mem.regions, g.base = b ∧ g.bytes = roundUp64K p.bytes ∧ g.owner = .handle s.mem.nextHandle) ∧
        t.mem.nextHandle = s.mem.nextHandle + 1 ∧
        (∀ k, ¬ (b ≤ k ∧ k < b + roundUp64K p.bytes) → t.mem.readByte k = s.mem.readByte k)) ∧
  (∀ (h : Hdr) (n : Nat) (x : Handle) (e : Session) (s : State),
    Served (.free h n) h ⟨0x0403, roleJobs, 0⟩ e s → s.handle n = some x → handleDenied s e.principal n = false →
    freeConflict s n = none →
      ∃ t, exec (.free h n) s = .next t ∧ t.handle n = none ∧ t.mem.cells = s.mem.cells ∧ t.mem.undef = s.mem.undef ∧
        (∀ w ∈ t.mem.windows, w.2 ≠ n) ∧ (∀ g ∈ t.mem.regions, g.owner ≠ .handle n)) ∧
  (∀ (h : Hdr) (n : Nat) (x : Handle) (e : Session) (s : State),
    Served (.free h n) h ⟨0x0403, roleJobs, 0⟩ e s → s.handle n = some x → handleDenied s e.principal n = false →
    freeConflict s n ≠ none → exec (.free h n) s = .next (reply h 0x0403 stConflict 0x50 [] s))

/-- TIER_MOVE in its three parts, the end of a wait, and Limcel's own moves (R253, R275, R279, R284): the copy leaves the new region with the
old one's bytes unless a read gives no data, and the switch points the handle at it; a tensor's tiles are switched in once their copy
verifies. Memory errors (R274, R275): a corrected one is charged to its channel and changes nothing else; an uncorrectable one ends every
command that waited for the data, and its word reads as uncorrectable until it is written (log 123). -/
def Obligations.MovesAndMemoryErrors : Prop :=
  (∀ (h : Hdr) (n tier : Nat) (x : Handle) (e : Session) (s : State),
    Served (.tierMove h n tier) h ⟨0x0405, roleJobs, 0⟩ e s → s.handle n = some x → handleDenied s e.principal n = false →
    tier ≤ 1 → x.kind = 0 → x.tier ≠ tier → x.move = none →
      exec (.tierMove h n tier) s = .next (accept h 0x0405 []
        (setHandle n (fun x => { x with move := some ⟨tier, none, false, h.session, h.tag, 2 ^ 64⟩ }) s))) ∧
  (∀ (n : Nat) (x : Handle) (m : TierMoveSt) (b : Nat) (s : State),
    s.handle n = some x → x.move = some m → m.newBase = some b → m.copied = false → s.badAt x.base x.bytes = false →
    s.mem.wf = true →
      ∃ t x', exec (.tierMoveCopy n) s = .next t ∧ t.handle n = some x' ∧ x'.move = some { m with copied := true } ∧
        (∀ k, k < x.bytes → t.mem.readByte (b + k) = s.mem.readByte (x.base + k)) ∧
        (∀ a, ¬ (b ≤ a ∧ a < b + x.bytes) → t.mem.readByte a = s.mem.readByte a)) ∧
  (∀ (n : Nat) (x : Handle) (m : TierMoveSt) (b : Nat) (s : State),
    s.handle n = some x → x.move = some m → m.newBase = some b → m.copied = false → s.badAt x.base x.bytes = true →
      exec (.tierMoveCopy n) s = .next (dropMove x m stInternal (recordInternal 0x0405 m.tag s))) ∧
  (∀ (n : Nat) (x : Handle) (m : TierMoveSt) (b : Nat) (s : State),
    s.handle n = some x → x.move = some m → m.newBase = some b → m.copied = true →
      ∃ t x', exec (.tierMoveSwitch n) s = .next t ∧ t.handle n = some x' ∧ x' = { x with base := b, tier := m.tier, move := none } ∧
        t.mem.cells = s.mem.cells) ∧
  (∀ (n : Nat) (x : Handle) (m : TierMoveSt) (s : State), s.handle n = some x → x.move = some m → m.newBase = none → waitOver s m.since = true →
      ∃ t x', exec (.evictionWaitTimeout (2 ^ 32 + n)) s = .next t ∧ t.handle n = some x' ∧ x' = { x with move := none } ∧
        t.mem.cells = s.mem.cells) ∧
  (∀ (n : Nat) (d : Demand) (p : AllocP) (s : State), n < 2 ^ 32 → s.mem.demands.find? (fun d => d.id = n) = some d → d.want = .alloc p →
    waitOver s d.since = true →
      ∃ t, exec (.evictionWaitTimeout n) s = .next t ∧ (∀ x ∈ t.mem.demands, x.id ≠ n) ∧
        t.mem.allocBusy = sat32 (s.mem.allocBusy + 1) ∧ t.mem.cells = s.mem.cells) ∧
  (∀ (n timeout : Nat) (d : Demand) (m : Manifest) (s : State), n < 2 ^ 32 → s.mem.demands.find? (fun d => d.id = n) = some d →
    d.want = .place m timeout → waitOver s d.since = true →
      exec (.evictionWaitTimeout n) s = .next (finish d.session d.tag (declareOp m) stBusy 0 []
        { s with mem := { s.mem with demands := s.mem.demands.filter fun x => x.id ≠ n } })) ∧
  (∀ (n rid : Nat) (d : Demand) (s : State), n < 2 ^ 32 → s.mem.demands.find? (fun d => d.id = n) = some d →
    d.want = .pauseMove rid → waitOver s d.since = true →
      exec (.evictionWaitTimeout n) s = .next { s with mem := { s.mem with
        demands := s.mem.demands.filter fun x => x.id ≠ n, pauseInHbm := sat32 (s.mem.pauseInHbm + 1) } }) ∧
  (∀ (mid tensor tier b : Nat) (m : Model) (p : PlacedTensor) (s : State), s.model mid = some m → m.state = 3 → tier ≤ 1 →
    m.placed.find? (fun q => q.tensor = tensor) = some p → p.tier ≠ tier → p.fresh = none → m.suspects.contains p.base = false →
    movingFrom s p.base = false → (∀ d ∈ s.mem.demands, d.want ≠ .limcelMove mid tensor tier) →
    (m.manifest.tensors.find? (fun t => t.id = tensor)).map (fun t => t.cls) = some 1 → roomFor s tier none p.bytes = some b →
      ∃ t, exec (.limcelTierMove mid tensor tier) s = .next t ∧
        t.mem.limMoves = s.mem.limMoves ++ [⟨mid, tensor, none, tier, p.base, b, p.bytes⟩] ∧ t.mem.cells = s.mem.cells ∧
        (∃ g ∈ t.mem.regions, g.tier = tier ∧ g.base = b ∧ g.bytes = p.bytes ∧ g.owner = .tensor mid tensor) ∧ t.models = s.models) ∧
  (∀ (l : LimMove) (g : Region) (m : Model) (s : State), s.mem.wf = true → l.version = none → g ∈ s.mem.regions → g.base = l.old →
    g.owner = .tensor l.model l.tensor → s.badAt l.old l.bytes = false → s.model l.model = some m → m.suspects.contains l.old = false →
    copySound (storeBytes l.new (s.mem.read l.old l.bytes) s) l = true →
      ∃ m', (switchLim l s).model l.model = some m' ∧ m'.placed = restAt l m.placed ∧
        (∀ k, k < l.bytes → (switchLim l s).mem.readByte (l.new + k) = s.mem.readByte (l.old + k)) ∧
        (∀ e ∈ m'.epochs, ∀ p ∈ e.table, p.addr = l.old → l.new = l.old)) ∧
  (∀ (tier a : Nat) (hard : Bool) (s : State), inTier s tier a = true →
      exec (.memoryCorrectable tier a hard) s =
        .next (chargeFinding (channelUnit tier (channelOf s tier a)) (if hard then .memHard else .memTransient) s)) ∧
  (∀ (tier a id : Nat) (c : Cmd) (s : State), inTier s tier a = true → s.cmd id = some c → c.phase = .running →
    (c.ctx = 0 ∨ ∃ x, s.ctx c.ctx = some x ∧ x.torn = false) →
      ∃ t, exec (.memoryUncorrectable tier a [id]) s = .next t ∧ t.mem.cells = s.mem.cells ∧
        (∀ c', t.cmd id = some c' → c'.phase = .retired ∧ c'.committed = true)) ∧
  (∀ (tier a : Nat) (cs : List Nat) (s : State), inTier s tier a = true →
      ∃ t, exec (.memoryUncorrectable tier a cs) s = .next t ∧ a / 32 * 32 ∈ t.mem.bad ∧ t.mem.cells = s.mem.cells) ∧
  (∀ (tier a : Nat) (hard : Bool) (cs : List Nat) (s : State), inTier s tier a = false →
      exec (.memoryCorrectable tier a hard) s = .next s ∧ exec (.memoryUncorrectable tier a cs) s = .next s)

/-- COMMAND_START (R144, R385, R389): a lone command at the head of a READY queue, eligible, with stations that carry its names, starts: it
runs, pinned to its epoch, with its first beat noted. COMMAND_RESTART begins a new run of a restarting command (R149). DESCRIPTOR_ISSUE
and DESCRIPTOR_COMPLETE move one list by one descriptor (R135, R142, R145), and STREAM_CREDIT_RETURN one tile from a producer to a free
slot (R141). -/
def Obligations.CommandsStartAndAdvance : Prop :=
  (∀ (c : Cmd) (x : Ctx) (q : Queue) (s : State), s.jobs.cmds = [c] → c.kind ≠ .copy → c.phase = .waiting → beatLe c.eligible s.now = true →
    s.ctx c.ctx = some x → q ∈ x.queues → q.num = c.queue → q.state = 0x5B → namesUnbound s c.image = false →
    fitsShared s c.image = true → mayStart s c = true →
      ∃ t c', exec .commandStart s = .next t ∧ t.cmd c.id = some c' ∧ c'.phase = .running ∧ c'.startBeat = s.now ∧
        c'.firstStart = s.now ∧ c'.epoch = startEpoch s c ∧ c'.image = c.image ∧
        c'.launch = { c.launch with plan := c'.launch.plan } ∧ (c.kind = .launch → c'.launch = c.launch) ∧ t.mem.cells = s.mem.cells) ∧
  (∀ (id : Nat) (c : Cmd) (s : State), s.cmd id = some c → c.phase = .restarting → carriersUp s c.image = true →
    bindsIssue s c.image = true →
      ∃ t c', exec (.commandRestart id) s = .next t ∧ t.cmd id = some c' ∧ c'.phase = .running ∧ c'.restarted = true ∧
        c'.startBeat = s.now ∧ c'.firstStart = c.firstStart ∧ c'.launch = c.launch ∧ t.mem = s.mem) ∧
  (∀ (p : Place) (c : Cmd) (l : ListSt) (s : State), s.cmd p.cmd = some c → c.list p.code = some l → c.phase = .running →
    issueReady s c l = true →
      ∃ t c', exec (.descriptorIssue p) s = .next t ∧ t.cmd p.cmd = some c' ∧ c'.list p.code =
          some { l with issued := l.issued + 1, queue := l.queue ++ [QEntry.new (l.first + l.issued)] } ∧
        c'.progressBeat = s.beat.elapsed ∧ c'.events = c.events ∧ c'.streams = c.streams ∧ t.mem = s.mem ∧ t.stns = s.stns) ∧
  (∀ (p : Place) (c : Cmd) (l : ListSt) (s : State), s.cmd p.cmd = some c → c.list p.code = some l → issueReady s c l = false →
      exec (.descriptorIssue p) s = .next s) ∧
  (∀ (p : Place) (c : Cmd) (l : ListSt) (i : Nat) (e : QEntry) (d : Desc) (s : State), s.cmd p.cmd = some c → c.list p.code = some l →
    c.phase = .running → completing s c l = some i → l.queue[i]? = some e → c.image.descs[e.index]? = some d →
    (d.signal = false ∨ c.events.getD d.event 0 < 0xFFFFFFFF) →
    (l.completed + 1 ≠ l.count ∨ tilesBroken c p.code = false) →
      ∃ t c', exec (.descriptorComplete p) s = .next t ∧ t.cmd p.cmd = some c' ∧
        c'.list p.code = some { l with completed := l.completed + 1, queue := l.queue.eraseIdx i } ∧
        c'.events = (if d.signal then updAt d.event (· + 1) c.events else c.events) ∧ c'.streams = c.streams ∧ t.mem = s.mem) ∧
  (∀ (id n : Nat) (c : Cmd) (e : StreamSt) (s : State), s.cmd id = some c → c.streams[n]? = some e → e.queue.length < e.spec.depth →
      ∃ t c', exec (.streamCreditReturn id n) s = .next t ∧ t.cmd id = some c' ∧
        c'.streams[n]? = some { e with queue := e.queue ++ e.held.take 1, held := e.held.drop 1 } ∧ c'.lists = c.lists ∧ t.mem = s.mem)

/-- COMMAND_RETIRE (R146) and STEP_COMMIT (R147): a command whose lists are all done and whose queues are empty retires, keeping nothing of
its run; a retired step commits once, at its commit beat or later. CONTEXT_FAULT and WATCHDOG_EXPIRY (R143, R394 to R397): the context is
torn down: its running commands end, its queues and handles are gone, the first fault's cause stays; no byte of memory changes. -/
def Obligations.CommandsEnd : Prop :=
  (∀ (id : Nat) (c : Cmd) (s : State), s.cmd id = some c → c.phase = .running → listsDone c = true →
    s.fab.accesses.any (fun a => a.cmd = id) = false → leftover c = none → neverCarried c = none →
      ∃ t c', exec (.commandRetire id) s = .next t ∧ t.cmd id = some c' ∧ c'.phase = .retired ∧ c'.retireBeat = s.now ∧
        c'.committed = !c.launch.isStep ∧ c'.lists = [] ∧ c'.streams = [] ∧ t.mem.cells = s.mem.cells) ∧
  (∀ (id code : Nat) (c : Cmd) (s : State), s.cmd id = some c → c.phase = .running → listsDone c = true →
    s.fab.accesses.any (fun a => a.cmd = id) = false → (leftover c).or (neverCarried c) = some code →
      exec (.commandRetire id) s = .next (contextFaultAt id 1 code s)) ∧
  (∀ (id : Nat) (outs : List StepOut) (c : Cmd) (s : State), s.cmd id = some c → awaitsCommit c = true →
    beatLe (commitBeatOf c) s.now = true →
      ∃ t, exec (.stepCommit id outs) s = .next t ∧ (∀ y ∈ t.jobs.cmds, y.id = id → y.committed = true)) ∧
  (∀ (id : Nat) (outs : List StepOut) (c : Cmd) (x : Ctx) (s : State), s.cmd id = some c → awaitsCommit c = true → c.kind = .launch →
    beatLe (commitBeatOf c) s.now = true → s.ctx c.ctx = some x →
      ∃ t x', exec (.stepCommit id outs) s = .next t ∧ t.ctx c.ctx = some x' ∧ x'.lateCommits = sat32 (x.lateCommits +
        bit (c.launch.commitBeat ≠ 0 && beatBefore c.launch.commitBeat (beatAdd c.retireBeat 1))) ∧ t.mem = s.mem ∧ t.serve = s.serve) ∧
  (∀ (id : Nat) (outs : List StepOut) (c : Cmd) (s : State), s.cmd id = some c → awaitsCommit c = false ∨ beatLe (commitBeatOf c) s.now = false →
      exec (.stepCommit id outs) s = .next s) ∧
  (∀ (id cause : Nat) (p : Place) (c : Cmd) (x : Ctx) (s : State), 1 ≤ cause → cause ≤ 8 → s.cmd id = some c → c.phase = .running →
    s.ctx c.ctx = some x → c.ctx ≠ 0 → x.torn = false →
      ∃ t x', exec (.contextFault id cause p) s = .next t ∧ t.ctx c.ctx = some x' ∧ x'.torn = true ∧ x'.queues = [] ∧
        x'.cause = (if x.faulted.count = 0 then cause else x.cause) ∧ (∀ h ∈ t.mem.handles, h.ctx ≠ c.ctx) ∧
        (∀ c', t.cmd id = some c' → c'.phase = .retired ∧ c'.committed = true ∧ c'.lists = []) ∧ t.mem.cells = s.mem.cells ∧
        t.mem.undef = s.mem.undef) ∧
  (∀ (id : Nat) (c : Cmd) (x : Ctx) (s : State), s.cmd id = some c → c.phase = .running → s.ctx c.ctx = some x → c.ctx ≠ 0 →
    x.torn = false → c.progressBeat + x.wdog ≤ s.beat.elapsed →
      ∃ t x', exec (.watchdogExpiry id) s = .next t ∧ t.ctx c.ctx = some x' ∧ x'.torn = true ∧
        x'.cause = (if x.faulted.count = 0 then 5 else x.cause) ∧
        (∀ c', t.cmd id = some c' → c'.phase = .retired ∧ c'.committed = true) ∧ t.mem.cells = s.mem.cells) ∧
  (∀ (id : Nat) (c : Cmd) (x : Ctx) (s : State), s.cmd id = some c → s.ctx c.ctx = some x → s.beat.elapsed < c.progressBeat + x.wdog →
      exec (.watchdogExpiry id) s = .next s)

/-- F_LOAD, F_MMA, F_DRAIN and F_HAD complete (R65 to R92): with their tiles at hand a load fills the active or the shadow set, a pass writes
its bank, a drain emits its bank's rows, a poisoned bank nothing but a count, and an element-wise pair its products; a failed residue
check marks the pass. STATIONARY_SWAP makes a filled shadow set the active one once earlier passes are done (R72). -/
def Obligations.FrondCarriesOut : Prop :=
  (∀ (p : Place) (f : FLoadF) (c : Cmd) (l : ListSt) (k : Nat) (b : Bench) (ts : List Tile) (s : State),
    AtStation p (.fLoad f) s c l k b →
    ts = (if f.fromHold then (List.range f.sets).map (fun i => b.holdTile (f.holdBase + i)) else b.in0) → ts.length = f.sets →
    allOk ts f.format → f.fromHold = true ∨ b.in1 = [] ∧ b.in2 = [] →
      ∃ m, CarriedOut (.fLoad p f) p (.fLoad f) (opFLoad f) c l k m s ∧ m.more = false ∧ m.roleB = 1 ∧ m.out0 = [] ∧ m.out1 = [] ∧
        (b.list.loadMode = 0 → m.list.active = some ⟨f.format, f.partner, f.arrange, ts.map fun t => ⟨t, f.kBase, f.kCount⟩⟩) ∧
        (b.list.loadMode ≠ 0 →
          m.list.shadow = some (b.entry.index, ⟨f.format, f.partner, f.arrange, ts.map fun t => ⟨t, f.kBase, f.kCount⟩⟩)) ∧
        m.list.bank0 = b.list.bank0 ∧ m.list.bank1 = b.list.bank1) ∧
  (∀ (p : Place) (f : FMmaF) (c : Cmd) (l : ListSt) (k : Nat) (b : Bench) (ld : Loaded) (fs fx : Fmt) (ts : List Tile) (s : State),
    AtStation p (.fMma f) s c l k b → b.list.active = some ld → Fmt.ofCode ld.format = some fs → Fmt.ofCode f.format = some fx →
    f.format = ld.partner → f.init ≠ 0 ∨ (b.list.bank f.bank).opened = true ∧ (b.list.bank f.bank).rowTags.length = f.rows →
    ts = (if f.fromHold then (List.range ((f.rows + 63) / 64)).map (fun i => b.holdTile (f.holdBase + i)) else b.in1) →
    ts.length = (f.rows + 63) / 64 → allOk ts f.format → b.in0 = [] → f.fromHold = false ∨ b.in1 = [] →
    b.in2.length = (if f.init = 2 then (f.rows + 63) / 64 * ((passWidth f ld (setDepth fs fx) + 63) / 64) else 0) →
    allOk b.in2 Fmt.fp32.code →
      ∃ m, CarriedOut (.fMma p f false) p (.fMma f) (opFMma f) c l k m s ∧ m.more = false ∧ m.out0 = [] ∧
        m.mismatch = b.entry.fails ∧
        m.list = passOf f (if f.retain then { b.list with hold := retainAt b.list.hold f.holdBase ts } else b.list) ld fs fx ts b.in2
          b.entry.fails) ∧
  (∀ (p : Place) (f : FMmaF) (s : State), exec (.fMma p f true) s = exec (.fMma p f false) (noteFails p (.fMma f) s)) ∧
  (∀ (p : Place) (f : FDrainF) (c : Cmd) (l : ListSt) (k : Nat) (b : Bench) (fo : Fmt) (s : State), AtStation p (.fDrain f) s c l k b →
    Fmt.ofCode f.conv.format = some fo → (b.list.bank f.bank).opened = true →
      ∃ m, CarriedOut (.fDrain p f) p (.fDrain f) (opFDrain f) c l k m s ∧ m.more = false ∧ m.list = b.list ∧
        ((b.list.bank f.bank).poisoned = true → m.out0 = [] ∧ m.roleA = 1) ∧
        ((b.list.bank f.bank).poisoned = false → m.roleA = 0 ∧
          m.out0 = (emitTiles (b.rounding fo f.conv) (drainView (b.list.bank f.bank) f.transposeOut).1
            (drainView (b.list.bank f.bank) f.transposeOut).2).1)) ∧
  (∀ (p : Place) (f : FHadF) (c : Cmd) (l : ListSt) (k : Nat) (b : Bench) (fa fb fo : Fmt) (x y : Tile) (s : State),
    AtStation p (.fHad f) s c l k b → Fmt.ofCode f.formatA = some fa → Fmt.ofCode f.formatB = some fb →
    Fmt.ofCode f.conv.format = some fo → b.in0 = [] → b.in1 = (if f.fromHold then [] else [x]) →
    (f.fromHold = true → x = b.holdTile (f.holdBase + b.entry.step)) → b.in2 = [y] → x.ok f.formatA = true → y.ok f.formatB = true →
    x.kExtent = y.kExtent →
      ∃ m, CarriedOut (.fHad p f) p (.fHad f) (opFHad f) c l k m s ∧ m.take1 = 1 ∧ m.take2 = 1 ∧
        m.more = decide (b.entry.step + 1 < f.tiles) ∧ m.list = b.list ∧
        m.out0 = (hadPair (b.rounding fo f.conv) fa fb b.entry.step x y).1) ∧
  (∀ (p : Place) (c : Cmd) (l : ListSt) (j : Nat) (x : Loaded) (s : State), s.cmd p.cmd = some c → c.phase = .running →
    c.list p.code = some l → l.shadow = some (j, x) → allDone c DBody.isPass (l.queue.filter fun e => decide (e.index < j)) = true →
      ∃ t c', exec (.stationarySwap p) s = .next t ∧ t.cmd p.cmd = some c' ∧
        c'.list p.code = some { l with active := some x, shadow := none } ∧
        (∀ code, code ≠ p.code → c'.list code = c.list code) ∧ c'.streams = c.streams ∧ t.mem = s.mem)

/-- The vector station's eight operations complete (R95 to R116): with the tiles of a row group at hand each takes them, emits the tiles of
its rows, and goes on to the next row group where it has one. -/
def Obligations.CrozierCarriesOut : Prop :=
  (∀ (p : Place) (f : EwiseF) (c : Cmd) (l : ListSt) (k : Nat) (b : Bench) (fa fo fb : Fmt) (s : State),
    AtStation p (.vEwise f) s c l k b → Fmt.ofCode f.formatA = some fa → Fmt.ofCode f.conv.format = some fo →
    fb = (Fmt.ofCode f.formatB).getD .fp32 → allOk b.in0 f.formatA → b.closed fa = true → allOk b.in1 f.formatB →
    b.in1.length = (if ewiseTakesB f.func then pieceCount fb (groupLen fa b.in0) else 0) → b.in2 = [] →
      ∃ m, CarriedOut (.vEwise p f) p (.vEwise f) (opVEwise f) c l k m s ∧ m.take0 = b.in0.length ∧ m.take1 = b.in1.length ∧
        m.count = m.out0.length ∧
        m.out0 = (emitGroup (b.rounding fo f.conv) (64 * b.entry.step)
          ((readGroup fa (groupLen fa b.in0) b.in0).zipIdx.map fun ((y, i) : LRow × Nat) =>
            if y.valid then (⟨true, y.tag, (y.words.zipIdx.take (min (groupLen fa b.in0) ((f.tiles - b.entry.count) * fo.tileK))).map
              fun (x, j) => f32 (ewise f.func f.c0 f.c1 x (((readGroup fb (groupLen fa b.in0) b.in1).getD (if f.bcastB then 0 else i)
                ⟨false, 0#32, []⟩).words.getD j 0#32))⟩ : LRow)
            else ⟨false, y.tag, []⟩) (min (groupLen fa b.in0) ((f.tiles - b.entry.count) * fo.tileK))).1) ∧
  (∀ (p : Place) (f : SoftmaxF) (c : Cmd) (l : ListSt) (k : Nat) (b : Bench) (fi fo : Fmt) (s : State),
    AtStation p (.vSoftmax f) s c l k b → Fmt.ofCode f.format = some fi → Fmt.ofCode f.conv.format = some fo →
    b.in0.length = pieceCount fi f.rowLen → allOk b.in0 f.format → b.in1.length = (if f.scaleSrc then 1 else 0) →
    allOk b.in1 Fmt.fp32.code → b.in2 = [] →
      ∃ m, CarriedOut (.vSoftmax p f) p (.vSoftmax f) (opVSoftmax f) c l k m s ∧ m.take0 = b.in0.length ∧ m.take1 = b.in1.length ∧
        m.more = decide (b.entry.step + 1 < f.rowGroups) ∧ (f.stats = true → m.out0 = []) ∧
        m.out1 = (if f.stats || f.statsOut then [wordTile 64 ((readGroup fi f.rowLen b.in0).zipIdx.map fun ((y, r) : LRow × Nat) =>
          let st := softStats fi.tileK (y.words.map fun x => fmul x (if f.scaleSrc then wordOf (b.in1.headD Tile.blank) r 0 else f.scale))
          let one := softStats fi.tileK y.words
          (y.valid, y.tag, [st.1, lseOf st] ++ if f.dual then [one.1, lseOf one] else []))] else []) ∧
        (f.stats = false → m.out0 = (emitGroup (b.rounding fo f.conv) (64 * b.entry.step)
          ((readGroup fi f.rowLen b.in0).zipIdx.map fun ((y, r) : LRow × Nat) =>
            let xs := y.words.map fun x => fmul x (if f.scaleSrc then wordOf (b.in1.headD Tile.blank) r 0 else f.scale)
            let st := softStats fi.tileK xs
            (⟨y.valid, y.tag, if y.valid then xs.map fun x => if st.1 = negInf32 then Machine.Num.zero
              else f32 (fdiv (fexp (fsub x st.1)) st.2) else []⟩ : LRow)) f.rowLen).1)) ∧
  (∀ (p : Place) (f : NormF) (c : Cmd) (l : ListSt) (k : Nat) (b : Bench) (fi fo : Fmt) (s : State),
    AtStation p (.vNorm f) s c l k b → Fmt.ofCode f.format = some fi → Fmt.ofCode f.conv.format = some fo →
    b.in0.length = pieceCount fi f.rowLen → allOk b.in0 f.format →
    b.in1.length = (if f.gain then pieceCount ((Fmt.ofCode f.gbFormat).getD .fp32) f.rowLen else 0) → allOk b.in1 f.gbFormat →
    b.in2.length = (if f.bias then pieceCount ((Fmt.ofCode f.gbFormat).getD .fp32) f.rowLen else 0) → allOk b.in2 f.gbFormat →
      ∃ m, CarriedOut (.vNorm p f) p (.vNorm f) (opVNorm f) c l k m s ∧ m.take0 = b.in0.length ∧ m.take1 = 0 ∧ m.take2 = 0 ∧
        m.more = decide (b.entry.step + 1 < f.rowGroups) ∧
        m.out1 = (if f.statsOut then [wordTile 64 ((readGroup fi f.rowLen b.in0).map fun (y : LRow) =>
          (y.valid, y.tag, if f.layer then [(normStats f fi.tileK y.words).1, (normStats f fi.tileK y.words).2]
            else [(normStats f fi.tileK y.words).1]))] else []) ∧
        (f.gain = false → f.layer = false → m.out0 = (emitGroup (b.rounding fo f.conv) (64 * b.entry.step)
          ((readGroup fi f.rowLen b.in0).map fun (y : LRow) => (⟨y.valid, y.tag,
            if y.valid then y.words.map fun x => f32 (fmul x (normStats f fi.tileK y.words).1) else []⟩ : LRow)) f.rowLen).1)) ∧
  (∀ (p : Place) (f : RopeF) (c : Cmd) (l : ListSt) (k : Nat) (b : Bench) (fi fo : Fmt) (s : State),
    AtStation p (.vRope f) s c l k b → Fmt.ofCode f.format = some fi → Fmt.ofCode f.conv.format = some fo → f.posMode = 0 →
    allOk b.in0 f.format → b.closed fi = true → b.in1 = [] → b.in2 = [] → headsWhole f fi b.in0 = true →
      ∃ m, CarriedOut (.vRope p f) p (.vRope f) (opVRope f) c l k m s ∧ m.take0 = b.in0.length ∧ m.count = b.in0.length ∧
        m.more = decide (b.in0.length < f.tiles - b.entry.count) ∧
        m.out0 = (emitGroup (b.rounding fo f.conv) (64 * b.entry.step)
          ((readGroup fi (groupLen fi b.in0) b.in0).zipIdx.map fun ((y, r) : LRow × Nat) => (⟨y.valid, y.tag, if y.valid then
            ((chunks f.headDim (y.words.map f32)).map (ropeHead f ((List.range (f.rotDim / 2)).map (ropeFreq f))
              (f.posBase + 64 * b.entry.step + r))).flatten else []⟩ : LRow)) (groupLen fi b.in0)).1) ∧
  (∀ (p : Place) (f : RopeF) (c : Cmd) (l : ListSt) (k : Nat) (b : Bench) (fi fo : Fmt) (s : State),
    AtStation p (.vRope f) s c l k b → Fmt.ofCode f.format = some fi → Fmt.ofCode f.conv.format = some fo → f.posMode = 1 →
    allOk b.in0 f.format → b.closed fi = true → b.in1.length = 1 → allOk b.in1 Fmt.fp32.code → b.in2 = [] →
    headsWhole f fi b.in0 = true → (∀ r, r < 64 → posOf (wordOf (b.in1.headD Tile.blank) r 0) ≠ none) →
      ∃ m, CarriedOut (.vRope p f) p (.vRope f) (opVRope f) c l k m s ∧ m.take0 = b.in0.length ∧ m.take1 = 1 ∧
        m.count = b.in0.length ∧ m.more = decide (b.in0.length < f.tiles - b.entry.count)) ∧
  (∀ (p : Place) (f : ConvertF) (c : Cmd) (l : ListSt) (k : Nat) (b : Bench) (fi fo : Fmt) (s : State),
    AtStation p (.vConvert f) s c l k b → Fmt.ofCode f.inFormat = some fi → Fmt.ofCode f.conv.format = some fo →
    allOk b.in0 f.inFormat → b.closed fi = true → b.in1.length = (if f.rowFactor then 1 else 0) → allOk b.in1 Fmt.fp32.code →
    b.in2 = [] →
      ∃ m, CarriedOut (.vConvert p f) p (.vConvert f) (opVConvert f) c l k m s ∧ m.take0 = b.in0.length ∧ m.take1 = b.in1.length ∧
        m.count = b.in0.length ∧ m.more = decide (b.in0.length < f.tiles - b.entry.count) ∧
        m.out0 = (emitGroup (b.rounding fo f.conv) (64 * b.entry.step)
          ((readGroup fi (groupLen fi b.in0) b.in0).zipIdx.map fun ((y, r) : LRow × Nat) => (⟨y.valid, y.tag, if y.valid then
            y.words.map fun x => f32 (fmul (fmul x f.factor) (if f.rowFactor then wordOf (b.in1.headD Tile.blank) r 0 else one32))
            else []⟩ : LRow)) (groupLen fi b.in0)).1) ∧
  (∀ (p : Place) (f : CombineF) (c : Cmd) (l : ListSt) (k n : Nat) (b : Bench) (fi fo : Fmt) (g : Tile) (s : State),
    AtStation p (.vCombine f) s c l k b → Fmt.ofCode f.format = some fi → Fmt.ofCode f.conv.format = some fo → f.residual = false →
    allOk b.in0 f.format → (arrivalsOf f fi b).bad = false → b.in1 = [g] → g.ok Fmt.fp32.code = true → b.in2 = [] →
    n = min 64 (f.rows - 64 * b.entry.step) →
    (∀ r, r < n → rowArrived f (arrivalsOf f fi b) (g.row r) (64 * b.entry.step + r) = true) →
      ∃ m, exec (.vCombine p f) s = .next (if m.more then turns p (.vCombine f) (opVCombine f) (combineOld f) 16383
          (applyMade p c l k m (countNoted p c k (combineOld f b) b.entry s))
          else applyMade p c l k m (countNoted p c k (combineOld f b) b.entry s)) ∧
        m.take0 = 0 ∧ m.take1 = 1 ∧ m.more = decide (64 * (b.entry.step + 1) < f.rows) ∧
        m.out0 = (emitGroup (b.rounding fo f.conv) (64 * b.entry.step) ((List.range n).map fun r => (⟨(g.row r).valid, (g.row r).tag,
          if (g.row r).valid then combineRow f (arrivalsOf f fi b) g r (64 * b.entry.step + r) [] else []⟩ : LRow)) f.rowLen).1) ∧
  (∀ (p : Place) (f : CombineF) (c : Cmd) (l : ListSt) (k n : Nat) (b : Bench) (fi fo fr : Fmt) (g h : Tile) (hs : List Tile) (s : State),
    AtStation p (.vCombine f) s c l k b → Fmt.ofCode f.format = some fi → Fmt.ofCode f.conv.format = some fo → f.residual = true →
    allOk b.in0 f.format → (arrivalsOf f fi b).bad = false → b.in1 = [g] → g.ok Fmt.fp32.code = true → b.in2 = h :: hs →
    Fmt.ofCode h.format = some fr → allOk b.in2 h.format → b.in2.length = pieceCount fr f.rowLen →
    n = min 64 (f.rows - 64 * b.entry.step) →
    (∀ r, r < n → rowArrived f (arrivalsOf f fi b) (g.row r) (64 * b.entry.step + r) = true) →
      ∃ m, exec (.vCombine p f) s = .next (if m.more then turns p (.vCombine f) (opVCombine f) (combineOld f) 16383
          (applyMade p c l k m (countNoted p c k (combineOld f b) b.entry s))
          else applyMade p c l k m (countNoted p c k (combineOld f b) b.entry s)) ∧
        m.take0 = 0 ∧ m.take1 = 1 ∧ m.take2 = b.in2.length ∧ m.more = decide (64 * (b.entry.step + 1) < f.rows)) ∧
  (∀ (p : Place) (f : OptF) (c : Cmd) (l : ListSt) (k nm nv nw : Nat) (b : Bench) (fg fm fv fw fo : Fmt) (s : State),
    AtStation p (.vOpt f) s c l k b → Fmt.ofCode f.gFormat = some fg → Fmt.ofCode f.mFormat = some fm → Fmt.ofCode f.vFormat = some fv →
    Fmt.ofCode f.wFormat = some fw → Fmt.ofCode f.conv.format = some fo → b.in0 ≠ [] → allOk b.in0 f.gFormat → b.closed fg = true →
    nm = pieceCount fm (groupLen fg b.in0) → nv = pieceCount fv (groupLen fg b.in0) → nw = pieceCount fw (groupLen fg b.in0) →
    b.in1.length = nm + nv → allOk (b.in1.take nm) f.mFormat → allOk (b.in1.drop nm) f.vFormat → b.in2.length = nw →
    allOk b.in2 f.wFormat →
      ∃ m, CarriedOut (.vOpt p f) p (.vOpt f) (opVOpt f) c l k m s ∧ m.take0 = b.in0.length ∧ m.take1 = nm + nv ∧ m.take2 = nw ∧
        m.more = true ∧ m.list = b.list ∧ m.writes = []) ∧
  (∀ (p : Place) (f : OptF) (c : Cmd) (l : ListSt) (k : Nat) (b : Bench) (fg fm fv fw fo : Fmt) (s : State),
    AtStation p (.vOpt f) s c l k b → Fmt.ofCode f.gFormat = some fg → Fmt.ofCode f.mFormat = some fm → Fmt.ofCode f.vFormat = some fv →
    Fmt.ofCode f.wFormat = some fw → Fmt.ofCode f.conv.format = some fo → b.in0 = [] → b.dry0 = true →
      exec (.vOpt p f) s = .next (applyMade p c l k b.nothing s)) ∧
  (∀ (p : Place) (f : SampleF) (c : Cmd) (l : ListSt) (k : Nat) (b : Bench) (x y : Tile) (s : State),
    AtStation p (.vSample f) s c l k b → b.in0.length = 2 * ((f.kCand + 63) / 64) → allOk b.in0 Fmt.fp32.code → b.in1 = [x] →
    x.ok Fmt.fp32.code = true → b.in2 = [y] → y.ok Fmt.fp32.code = true →
      ∃ m, CarriedOut (.vSample p f) p (.vSample f) (opVSample f) c l k m s ∧ m.take0 = b.in0.length ∧ m.take1 = 1 ∧ m.take2 = 1 ∧
        m.more = decide (b.entry.step + 1 < f.rowGroups) ∧
        m.out0 = [wordTile 64 ((List.range 64).map fun r =>
          (((b.in0.headD Tile.blank).row r).valid, ((b.in0.headD Tile.blank).row r).tag, if ((b.in0.headD Tile.blank).row r).valid then
            sampleWords f (sampleRow x y r) (candsOf f.kCand b.in0 r).1 (candsOf f.kCand b.in0 r).2 else []))])

/-- The sort station's six operations complete (R117 to R127): G_TOPK ranks its candidates, G_COUNT counts bins, G_SCAN makes their offsets,
G_SORT emits its tiles or writes them piece by piece, G_SCATTER writes a row and G_GATHER makes a tile and reads its rows into it; a row
that lies in a range the context may write, in one piece and no snapshot's way, is stored there and nowhere else. -/
def Obligations.RhizoidCarriesOut : Prop :=
  (∀ (p : Place) (f : TopkF) (c : Cmd) (l : ListSt) (k : Nat) (b : Bench) (fi : Fmt) (s : State), AtStation p (.gTopk f) s c l k b →
    Fmt.ofCode f.format = some fi → f.paired = false → b.in0.length = pieceCount fi f.rowLen → allOk b.in0 f.format →
      ∃ m, CarriedOut (.gTopk p f) p (.gTopk f) (opGTopk f) c l k m s ∧ m.take0 = b.in0.length ∧
        m.more = decide (b.entry.step + 1 < f.rowGroups) ∧ m.out0.length = 2 * ((f.k + 63) / 64) ∧
        m.roleB = ((topkRows f fi b.in0).map fun (x : Bool × Word × List (Word × Nat)) =>
          (x.2.2.filter fun (y : Word × Nat) => f32 y.1 = .nan).length).sum) ∧
  (∀ (p : Place) (f : TopkF) (c : Cmd) (l : ListSt) (k : Nat) (b : Bench) (fi : Fmt) (s : State), AtStation p (.gTopk f) s c l k b →
    Fmt.ofCode f.format = some fi → f.paired = true → b.in0.length = 2 * ((f.rowLen + 63) / 64) →
    (∀ i (hi : i < b.in0.length), (b.in0[i]).ok (if i % 2 = 1 then Fmt.fp32.code else f.format) = true) →
      ∃ m, CarriedOut (.gTopk p f) p (.gTopk f) (opGTopk f) c l k m s ∧ m.take0 = b.in0.length ∧
        m.more = decide (b.entry.step + 1 < f.rowGroups) ∧ m.out0.length = 2 * ((f.k + 63) / 64)) ∧
  (∀ (p : Place) (f : CountF) (c : Cmd) (l : ListSt) (k : Nat) (b : Bench) (s : State), AtStation p (.gCount f) s c l k b →
    b.in0.length = (f.rows + 63) / 64 → allOk b.in0 Fmt.fp32.code → b.in1 = [] → b.in2 = [] →
    (∀ e ∈ entriesOf b f.slots f.rows f.map f.holdBase b.in0, e.2.2 < f.bins) →
      ∃ m, CarriedOut (.gCount p f) p (.gCount f) (opGCount f) c l k m s ∧ m.more = false ∧
        m.out0 = [binTile (countBins f.bins (entriesOf b f.slots f.rows f.map f.holdBase b.in0))]) ∧
  (∀ (p : Place) (f : ScanF) (c : Cmd) (l : ListSt) (k : Nat) (b : Bench) (x : Tile) (adm : List Nat) (s : State),
    AtStation p (.gScan f) s c l k b → b.in0 = [x] → x.ok Fmt.fp32.code = true → b.in1 = [] → b.in2 = [] → f.cap = 0 →
    adm = (List.range f.bins).map (fun j => if f.align64 then ((wordOf x (j / 64) (j % 64)).toNat + 63) / 64 * 64
      else (wordOf x (j / 64) (j % 64)).toNat) → adm.sum ≤ 2147483647 →
      ∃ m, CarriedOut (.gScan p f) p (.gScan f) (opGScan f) c l k m s ∧ m.more = false ∧ m.out0 = [binTile (prefixSums 0 adm)] ∧
        m.out1 = [wordTile 64 [(true, 0#32, [BitVec.ofNat 32 adm.sum, 0#32, 0#32])]] ∧
        m.list.hold = (if f.retain then retainAt b.list.hold f.holdBase [binTile (prefixSums 0 adm)] else b.list.hold)) ∧
  (∀ (p : Place) (f : SortF) (c : Cmd) (l : ListSt) (k : Nat) (b : Bench) (x : Tile) (xs : List Tile) (es : List (Nat × Nat × Nat))
    (s : State), AtStation p (.gSort f) s c l k b → b.in0 = x :: xs → b.in0.length = (f.rows + 63) / 64 → allOk b.in0 x.format →
    b.in1.length = (f.rows + 63) / 64 → allOk b.in1 Fmt.fp32.code → b.in2 = [] →
    es = (entriesOf b f.slots f.rows f.map f.mapBase b.in1).filter (fun e =>
      ((tileAt b.in0 e.1).row (e.1 % 64)).valid && !(tagOf ((tileAt b.in0 e.1).row (e.1 % 64)).tag).pad) →
    (∀ e ∈ es, e.2.2 < f.bins) → (∀ e ∈ withRanks es [], heldWord b f.offsetBase e.2.2.1 + e.2.2.2 < 2 ^ 31) →
    f.toMemory = false → sortTables f + (sortRows f b b.in0 es).tiles.length ≤ b.slots →
      ∃ m, CarriedOut (.gSort p f) p (.gSort f) (opGSort f) c l k m s ∧ m.more = false ∧ m.out0 = (sortRows f b b.in0 es).tiles ∧
        m.out1 = (if f.cap = 0 then [] else (sortRows f b b.in0 es).overflow) ∧ m.writes = []) ∧
  (∀ (p : Place) (f : SortF) (c : Cmd) (l : ListSt) (k : Nat) (b : Bench) (x : Tile) (xs : List Tile) (es : List (Nat × Nat × Nat))
    (w : MemWrite) (s : State), AtStation p (.gSort f) s c l k b → b.in0 = x :: xs → b.in0.length = (f.rows + 63) / 64 →
    allOk b.in0 x.format → b.in1.length = (f.rows + 63) / 64 → allOk b.in1 Fmt.fp32.code → b.in2 = [] →
    es = (entriesOf b f.slots f.rows f.map f.mapBase b.in1).filter (fun e =>
      ((tileAt b.in0 e.1).row (e.1 % 64)).valid && !(tagOf ((tileAt b.in0 e.1).row (e.1 % 64)).tag).pad) →
    (∀ e ∈ es, e.2.2 < f.bins) → (∀ e ∈ withRanks es [], heldWord b f.offsetBase e.2.2.1 + e.2.2.2 < 2 ^ 31) →
    f.toMemory = true → b.waiting = false → (imagePieces f.destBase (sortRows f b b.in0 es).tiles)[b.entry.step]? = some w →
      ∃ m, CarriedOut (.gSort p f) p (.gSort f) (opGSort f) c l k m s ∧ m.writes = [w] ∧ m.out0 = [] ∧
        m.more = decide (b.entry.step + 1 < (imagePieces f.destBase (sortRows f b b.in0 es).tiles).length)) ∧
  (∀ (p : Place) (f : MoveF) (c : Cmd) (l : ListSt) (k r : Nat) (b : Bench) (x a : Tile) (s : State),
    AtStation p (.gScatter f) s c l k b → b.in0 = [x] → b.in1 = [a] → b.in2 = [] → x.ok x.format = true → a.ok Fmt.fp32.code = true →
    b.waiting = false → r = b.entry.step % 64 →
      ∃ m, CarriedOut (.gScatter p f) p (.gScatter f) (opGScatter f) c l k m s ∧
        m.more = decide (b.entry.step + 1 < 64 * f.tiles) ∧ m.take0 = (if r = 63 then 1 else 0) ∧ m.take1 = m.take0 ∧
        m.writes = ((scatterAddr x a r).map (scatterRow f x r)).getD [] ∧ m.seen = (scatterAddr x a r).toList ∧
        m.roleA = (if ∃ d ∈ scatterAddr x a r, d ∈ b.entry.addrs then 1 else 0)) ∧
  (∀ (p : Place) (f : MoveF) (c : Cmd) (l : ListSt) (k d y : Nat) (b : Bench) (x a : Tile) (s : State),
    AtStation p (.gScatter f) s c l k b → b.in0 = [x] → b.in1 = [a] → b.in2 = [] → x.ok x.format = true → a.ok Fmt.fp32.code = true →
    b.waiting = false → b.entry.step + 1 = 64 * f.tiles → f.scaleBytes = 0 → f.offset + f.rowBytes ≤ 256 →
    scatterAddr x a 63 = some d → d % 32 = 0 → d % 256 + f.rowBytes ≤ 256 → 0 < f.rowBytes → target s d = .here y →
    ownsRange s c.ctx y f.rowBytes true = true → blockedUnits s y f.rowBytes = [] → s.mem.wf = true →
      ∃ t, exec (.gScatter p f) s = .next t ∧
        (∀ i, i < f.rowBytes → t.mem.readByte (y + i) = (padTo 256 (x.row 63).data).getD (f.offset + i) 0#8) ∧
        (∀ z, ¬ (y ≤ z ∧ z < y + f.rowBytes) → t.mem.readByte z = s.mem.readByte z)) ∧
  (∀ (p : Place) (f : MoveF) (c : Cmd) (l : ListSt) (k : Nat) (b : Bench) (a : Tile) (s : State),
    AtStation p (.gGather f) s c l k b → b.in0 = [] → b.in1 = [a] → b.in2 = [] → a.ok Fmt.fp32.code = true →
      ∃ m, CarriedOut (.gGather p f) p (.gGather f) (opGGather f) c l k m s ∧ m.take1 = 1 ∧ m.writes = [] ∧
        m.more = decide (b.entry.step + 1 < f.tiles) ∧ m.out0 = [gatherTile f b.entry.index b.entry.step a] ∧
        m.reads = ((List.range 64).map fun r => ((addrOf a r).map (gatherRow f r)).getD []).flatten)

/-- A station's turn at a descriptor (R135, R141, R142, R145): it carries out a step, takes a tile that waits for it, waits, or faults where
the descriptor or a stream that ended short makes it (R394); while a port holds a tile back, or nothing of the row is at work, it does
nothing. Only G_SORT and G_SCATTER of these rows write memory. R142: a stream ends when every descriptor in its producer's list has
completed; a consumer that needs a tile of a stream that has ended and is empty, a tile left in a queue when every list has completed, and
a stream whose declared TILES differ from what it carried each end the command with a context fault. -/
def Obligations.StationsWaitOrFault : Prop :=
  (∀ (i : Instr) (p : Place) (body : DBody) (op : Bench → Work) (note : Bench → Nat) (c : Cmd) (l : ListSt) (k : Nat) (b : Bench)
    (m : Made) (s : State), stationRow i = some (p, body, op, note) → AtStation p body s c l k b → op b = .make m →
      exec i s = .next (if m.more then turns p body op note 16383 (applyMade p c l k m (countNoted p c k (note b) b.entry s))
        else applyMade p c l k m (countNoted p c k (note b) b.entry s))) ∧
  (∀ (i : Instr) (p : Place) (body : DBody) (op : Bench → Work) (note : Bench → Nat) (c : Cmd) (l : ListSt) (k n0 n1 n2 q : Nat)
    (b : Bench) (s : State), stationRow i = some (p, body, op, note) → AtStation p body s c l k b → op b = .need n0 n1 n2 →
    wanting (countNoted p c k (note b) b.entry s) c b n0 n1 n2 false = some q →
      exec i s = .next (turns p body op note 16383 (absorb p c k q (countNoted p c k (note b) b.entry s)))) ∧
  (∀ (i : Instr) (p : Place) (body : DBody) (op : Bench → Work) (note : Bench → Nat) (c : Cmd) (l : ListSt) (k n0 n1 n2 q : Nat)
    (b : Bench) (s : State), stationRow i = some (p, body, op, note) → AtStation p body s c l k b → op b = .need n0 n1 n2 →
    wanting (countNoted p c k (note b) b.entry s) c b n0 n1 n2 false = none →
    wanting (countNoted p c k (note b) b.entry s) c b n0 n1 n2 true = some q →
    (b.in0.length < n0 → b.dry0 = false) → (b.in1.length < n1 → b.dry1 = false) → (b.in2.length < n2 → b.dry2 = false) →
      exec i s = .next (starve p.code q (countNoted p c k (note b) b.entry s))) ∧
  (∀ (i : Instr) (p : Place) (body : DBody) (op : Bench → Work) (note : Bench → Nat) (c : Cmd) (l : ListSt) (k n0 n1 n2 : Nat)
    (b : Bench) (s : State), stationRow i = some (p, body, op, note) → AtStation p body s c l k b → op b = .need n0 n1 n2 →
    wanting (countNoted p c k (note b) b.entry s) c b n0 n1 n2 false = none →
    (b.in0.length < n0 ∧ b.dry0 = true) ∨ (b.in1.length < n1 ∧ b.dry1 = true) ∨ (b.in2.length < n2 ∧ b.dry2 = true) →
      exec i s = .next (contextFault c.id 1 p.code (some b.entry.index) (countNoted p c k (note b) b.entry s))) ∧
  (∀ (i : Instr) (p : Place) (body : DBody) (op : Bench → Work) (note : Bench → Nat) (c : Cmd) (l : ListSt) (k cause : Nat) (b : Bench)
    (s : State), stationRow i = some (p, body, op, note) → AtStation p body s c l k b → op b = .fault cause →
      exec i s = .next (contextFault c.id cause p.code (some b.entry.index) (countNoted p c k (note b) b.entry s))) ∧
  (∀ (i : Instr) (p : Place) (body : DBody) (op : Bench → Work) (note : Bench → Nat) (c : Cmd) (l : ListSt) (k q : Nat) (s : State),
    stationRow i = some (p, body, op, note) → atWork s p body = some (c, l, k) → q ∈ (portsOf body).2 →
    portHolds c (q * 4096 + p.code) = true → exec i s = .next s) ∧
  (∀ (i : Instr) (p : Place) (body : DBody) (op : Bench → Work) (note : Bench → Nat) (s : State),
    stationRow i = some (p, body, op, note) → atWork s p body = none → exec i s = .next s) ∧
  (∀ (i : Instr) (p : Place) (body : DBody) (op : Bench → Work) (note : Bench → Nat) (s t : State),
    stationRow i = some (p, body, op, note) → (∀ f, body ≠ .gSort f) → (∀ f, body ≠ .gScatter f) → exec i s = .next t →
      t.mem.cells = s.mem.cells ∧ t.mem.undef = s.mem.undef) ∧
  (∀ (c : Cmd) (e : StreamSt) (l : ListSt), c.list (e.spec.producer % 4096) = some l →
    (streamEnded c e = true ↔ l.completed = l.count)) ∧
  (∀ (id code : Nat) (c : Cmd) (s : State), s.cmd id = some c → c.phase = .running → listsDone c = true →
    s.fab.accesses.any (fun a => a.cmd = id) = false → (leftover c).or (neverCarried c) = some code →
      exec (.commandRetire id) s = .next (contextFaultAt id 1 code s)) ∧
  (∀ (p : Place) (c : Cmd) (l : ListSt) (k : Nat) (e : QEntry) (d : Desc) (x : StreamSt) (s : State), s.cmd p.cmd = some c →
    c.list p.code = some l → c.phase = .running → completing s c l = some k → l.queue[k]? = some e →
    c.image.descs[e.index]? = some d → d.signal = false → l.completed + 1 = l.count →
    x ∈ c.streams → x.spec.producer % 4096 = p.code → x.spec.tiles ≠ 0 → x.carried ≠ x.spec.tiles →
      ∃ u, exec (.descriptorComplete p) s = .next (contextFault p.cmd 1 p.code (some e.index) u) ∧ u.mem = s.mem) ∧
  (∀ (id cause code : Nat) (desc : Option Nat) (c : Cmd) (s : State), s.cmd id = some c → c.phase = .running → c.ctx ≠ 0 →
      contextFault id cause code desc s = tearDown c.ctx (noteFault c.ctx cause code ((desc.map (seqMark c)).getD (headOf c code)).1
        ((desc.map (seqMark c)).getD (headOf c code)).2 s)) ∧
  (∀ (id : Nat) (c : Cmd) (s : State), s.cmd id = some c → c.phase = .running →
      endCmd id 0x0061 s = finishCmd c 0x0061 0 (orphan id (setCtx c.ctx (fun x =>
        { x with blockedGens := x.blockedGens ++ [(c.gen, s.beat.elapsed)] }) (setCmd id (fun c =>
        { clearRun c with phase := .retired, committed := true, retireBeat := 0 }) s))))

/-- T_MOVE and T_FILL complete and reach this package's memory only (R275, R283, R315): the destination takes the source's bytes or the
pattern, the bytes are counted; a range elsewhere is an address fault, a word of the source that fails a memory fault. -/
def Obligations.TierMovers : Prop :=
  (∀ (p : Place) (f : TMoveF) (c : Cmd) (l : ListSt) (k : Nat) (src dst : List (Nat × Nat)) (s : State),
    atWork s p (.tMove f) = some (c, l, k) → localRuns s c f.src f.srcOffset f.bytes = some src →
    localRuns s c f.dst f.dstOffset f.bytes = some dst → (∀ x ∈ src, s.badAt x.1 x.2 = false) →
      exec (.tMove p f) s = .next (progress c.id (finishEntry p k (countMoved p f.bytes
        (storeRuns dst ((src.map fun x => s.mem.read x.1 x.2).flatten) s))))) ∧
  (∀ (p : Place) (f : TMoveF) (c : Cmd) (l : ListSt) (k : Nat) (dst : List (Nat × Nat)) (s : State),
    atWork s p (.tFill f) = some (c, l, k) → localRuns s c f.dst f.dstOffset f.bytes = some dst →
      exec (.tFill p f) s = .next (progress c.id (finishEntry p k (countMoved p f.bytes
        (storeRuns dst ((List.replicate (f.bytes / 4) (leBytes 4 f.pattern)).flatten) s))))) ∧
  (∀ (p : Place) (f : TMoveF) (c : Cmd) (l : ListSt) (k : Nat) (s : State),
    atWork s p (.tMove f) = some (c, l, k) →
    localRuns s c f.src f.srcOffset f.bytes = none ∨ localRuns s c f.dst f.dstOffset f.bytes = none →
      exec (.tMove p f) s = .next (contextFault c.id 2 p.code (some (l.entry k).index) s)) ∧
  (∀ (p : Place) (f : TMoveF) (c : Cmd) (l : ListSt) (k : Nat) (s : State),
    atWork s p (.tFill f) = some (c, l, k) → localRuns s c f.dst f.dstOffset f.bytes = none →
      exec (.tFill p f) s = .next (contextFault c.id 2 p.code (some (l.entry k).index) s)) ∧
  (∀ (p : Place) (f : TMoveF) (c : Cmd) (l : ListSt) (k : Nat) (src dst : List (Nat × Nat)) (s : State),
    atWork s p (.tMove f) = some (c, l, k) → localRuns s c f.src f.srcOffset f.bytes = some src →
    localRuns s c f.dst f.dstOffset f.bytes = some dst → (∃ x ∈ src, s.badAt x.1 x.2 = true) →
      exec (.tMove p f) s = .next (contextFault c.id 3 p.code (some (l.entry k).index) s)) ∧
  (∀ (a : Nat) (bs : List Byte) (s : State), blockedUnits s a bs.length = [] → s.mem.wf = true →
      (∀ k (hk : k < bs.length), (storeRuns [(a, bs.length)] bs s).mem.readByte (a + k) = bs[k]) ∧
      (∀ x, ¬ (a ≤ x ∧ x < a + bs.length) → (storeRuns [(a, bs.length)] bs s).mem.readByte x = s.mem.readByte x))

/-- The Front's own descriptors complete (R135, R137 to R139, R141, R151, R152): S_SYNC does no work, S_BEAT holds its list until its beat,
HINT reaches Isobar, S_FETCH delivers its images one after another, S_STORE stores its tiles' images, each as far as its stream allows.
R137: S_SYNC does no work and completes at issue; a descriptor whose bytes 0x10 to 0x3F are not all zero is none. -/
def Obligations.FrontDescriptors : Prop :=
  (∀ (p : Place) (c : Cmd) (l : ListSt) (k : Nat) (s : State), atWork s p .sSync = some (c, l, k) →
      exec (.sSync p) s = .next (passEntry p k s)) ∧
  (∀ (p : Place) (k : Nat) (c : Cmd) (l : ListSt) (e : QEntry) (d : Desc) (s : State), s.cmd p.cmd = some c → c.list p.code = some l →
    l.queue[k]? = some e → c.image.descs[e.index]? = some d → (d.signal = true → c.events.getD d.event 0 < 0xFFFFFFFF) →
    l.completed + 1 ≠ l.count →
      ∃ c', (passEntry p k s).cmd p.cmd = some c' ∧
        c'.list p.code = some { l with completed := l.completed + 1, queue := l.queue.eraseIdx k } ∧ c'.streams = c.streams ∧
        c'.events = (if d.signal then updAt d.event (· + 1) c.events else c.events) ∧ (passEntry p k s).mem = s.mem) ∧
  (∀ (p : Place) (absolute : Bool) (beat : Nat) (c : Cmd) (l : ListSt) (k : Nat) (s : State),
    atWork s p (.sBeat absolute beat) = some (c, l, k) →
      exec (.sBeat p absolute beat) s = .next (if beatLe (beatNamed c absolute beat) s.now
        then passEntry p k (setNamed p.code (fun e => { e with roleA := sat32 (e.roleA + 1) }) s)
        else setList c.id p.code (fun l => { l with sbeat := some (beatNamed c absolute beat) }) s)) ∧
  (∀ (p : Place) (f : HintF) (c : Cmd) (l : ListSt) (k : Nat) (s : State), atWork s p (.hint f) = some (c, l, k) →
      exec (.hint p f) s = .next (passEntry p k (match hintSet p.code f.scope with
        | none => s
        | some n => addHint ⟨n, c.ctx, f.cls, f.load, beatAdd s.now f.ahead, f.span⟩ s))) ∧
  (∀ (p : Place) (f : XferF) (c : Cmd) (l : ListSt) (k base off : Nat) (h : Handle) (s u : State),
    atWork s p (.sFetch f) = some (c, l, k) → portHolds c (f.channel * 4096 + p.code) = false →
    slotHandle s c f.handle = some (h, base) → h.kind = 0 → f.cache = false →
    off = f.offset + (l.entry k).step * (if f.stride = 0 then imageBytes else f.stride) → off + imageBytes ≤ h.bytes →
    u = (if (l.entry k).step = 0 then lateStall c.ctx h.tier s else s) → slotHandle u c f.handle = some (h, base) →
    u.badAt (base + off) fetchBytes = false →
      exec (.sFetch p f) s = .next (frontSteps (fetchStep p f) 65 (stepEntry p k f.tiles (putTo c.id p.code f.channel
        [{ tileOfImage (u.mem.read (base + off) fetchBytes) with last := Config.endsGroup (l.entry k).index (l.entry k).step }] u)))) ∧
  (∀ (p : Place) (f : XferF) (c : Cmd) (l : ListSt) (k tier : Nat) (s t u : State),
    atWork s p (.sFetch f) = some (c, l, k) → portHolds c (f.channel * 4096 + p.code) = false →
    tier = ((slotHandle s c f.handle).map fun h => if h.1.kind = 0 then h.1.tier else 0).getD 0 →
    t = (if (l.entry k).step = 0 then lateStall c.ctx tier s else s) →
    fetchImage c p f (l.entry k).index (l.entry k).step t = .ok u →
      exec (.sFetch p f) s = .next (frontSteps (fetchStep p f) 65 (stepEntry p k f.tiles u))) ∧
  (∀ (p : Place) (f : XferF) (c : Cmd) (l : ListSt) (k tier cause : Nat) (s t : State),
    atWork s p (.sFetch f) = some (c, l, k) → portHolds c (f.channel * 4096 + p.code) = false →
    tier = ((slotHandle s c f.handle).map fun h => if h.1.kind = 0 then h.1.tier else 0).getD 0 →
    t = (if (l.entry k).step = 0 then lateStall c.ctx tier s else s) →
    fetchImage c p f (l.entry k).index (l.entry k).step t = .bad cause →
      exec (.sFetch p f) s = .next (contextFault p.cmd cause p.code (some (l.entry k).index) t)) ∧
  (∀ (p : Place) (f : XferF) (c : Cmd) (l : ListSt) (k : Nat) (s : State),
    atWork s p (.sFetch f) = some (c, l, k) → portHolds c (f.channel * 4096 + p.code) = true → exec (.sFetch p f) s = .next s) ∧
  (∀ (p : Place) (f : XferF) (c : Cmd) (l : ListSt) (k base off : Nat) (h : Handle) (x : Tile) (xs : List Tile) (ended : Bool) (s u : State),
    atWork s p (.sStore f) = some (c, l, k) → inputOf s c (f.channel * 4096 + p.code) = (x :: xs, ended) →
    u = takeFrom c.id (f.channel * 4096 + p.code) 1 s → slotHandle u c f.handle = some (h, base) → h.kind = 0 →
    off = f.offset + (l.entry k).step * (if f.stride = 0 then imageBytes else f.stride) → off + x.image.length ≤ h.bytes →
      exec (.sStore p f) s = .next (frontSteps (storeStep p f) 65 (stepEntry p k f.tiles (applyWrite (base + off) x.image u)))) ∧
  (∀ (p : Place) (f : XferF) (c : Cmd) (l : ListSt) (k : Nat) (x : Tile) (xs : List Tile) (ended : Bool) (s u : State),
    atWork s p (.sStore f) = some (c, l, k) → inputOf s c (f.channel * 4096 + p.code) = (x :: xs, ended) →
    storeImage c p f (l.entry k).index (l.entry k).step x (takeFrom c.id (f.channel * 4096 + p.code) 1 s) = .ok u →
      exec (.sStore p f) s = .next (frontSteps (storeStep p f) 65 (stepEntry p k f.tiles u))) ∧
  (∀ (p : Place) (f : XferF) (c : Cmd) (l : ListSt) (k : Nat) (s : State),
    atWork s p (.sStore f) = some (c, l, k) → inputOf s c (f.channel * 4096 + p.code) = ([], true) →
      exec (.sStore p f) s = .next (contextFault c.id 1 p.code (some (l.entry k).index) s)) ∧
  (∀ (p : Place) (f : XferF) (c : Cmd) (l : ListSt) (k : Nat) (s : State),
    atWork s p (.sStore f) = some (c, l, k) → inputOf s c (f.channel * 4096 + p.code) = ([], false) →
      exec (.sStore p f) s = .next (starve p.code f.channel s)) ∧
  (∀ (p : Place) (c : Cmd) (l : ListSt) (k : Nat) (d : Desc) (s : State), atWork s p .sSync = some (c, l, k) →
    c.image.descs[(l.entry k).index]? = some d → d.signal = false → l.completed + 1 ≠ l.count →
    ∃ t c', exec (.sSync p) s = .next t ∧ t.cmd p.cmd = some c' ∧
      c'.list p.code = some { l with completed := l.completed + 1, queue := l.queue.eraseIdx k } ∧
      (∀ code, code ≠ p.code → c'.list code = c.list code) ∧ c'.streams = c.streams ∧ c'.events = c.events ∧ t.mem = s.mem ∧
      t.fab = s.fab ∧ t.pwr = s.pwr ∧ t.out = s.out ∧ t.net = s.net ∧ t.models = s.models ∧ t.serve = s.serve ∧
      t.sori = s.sori ∧ t.rime = s.rime) ∧
  (∀ bs : List Byte, bodyFront 0x01 bs = if ((bs.drop 0x10).take 48).all (fun b => b = 0#8) then some .sSync else none)

/-- The fabric copy engines complete (R322, R324, R331 to R337): each descriptor that its order lets issue does its work and is done. -/
def Obligations.FabricEngineDescriptors : Prop :=
  (∀ (p : Place) (f : ZCopyF) (c : Cmd) (l : ListSt) (k : Nat) (s t : State), zWork s p (.zCopy f) f.order = some (c, l, k) →
    f.counter = none → copyMove c (originOf c l k) f (zAddr c f.aslot f.remote) s = .ok t →
      exec (.zCopy p f) s = .next (progress c.id (finishEntry p k t))) ∧
  (∀ (p : Place) (f : ZCopyF) (c : Cmd) (l : ListSt) (k n home : Nat) (s t : State), zWork s p (.zCopy f) f.order = some (c, l, k) →
    f.counter = some n → home = bumpHome s f (zAddr c f.aslot f.remote) → home = s.boot.pkg → ownsCounter s c n true = true →
    copyMove c (originOf c l k) f (zAddr c f.aslot f.remote) s = .ok t →
    (∀ x ∈ t.fab.accesses, ¬ (x.cmd = c.id ∧ s.fab.nextAccess ≤ x.id)) → t.boot = s.boot →
      exec (.zCopy p f) s = .next (progress c.id (finishEntry p k (bumpCounter n f.inc t)))) ∧
  (∀ (p : Place) (f : ZWaitF) (c : Cmd) (l : ListSt) (k : Nat) (s : State), zWork s p (.zWait f) f.order = some (c, l, k) →
    ownsCounter s c f.counter false = true →
      exec (.zWait p f) s = .next (if f.value ≤ leNat (s.mem.read (counterAddr f.counter) 8)
        then finishEntry p k (endWait p (waitLimited l) s) else startWait p s)) ∧
  (∀ (p : Place) (f : ZAtomicF) (c : Cmd) (l : ListSt) (k : Nat) (bs : List Byte) (s t u : State),
    zWork s p (.zAtomic f) f.order = some (c, l, k) → bufferOf s p = some bs → awaitingDesc s c.id (l.entry k).index = false →
    eachMove (issueAtomic c (originOf c l k) f) ((List.range f.count).map fun j => (j, atomicEntry bs j)) (dropBuffer p s) = (.ok t, u) →
      exec (.zAtomic p f) s = .next (progress p.cmd (finishEntry p k t))) ∧
  (∀ (p : Place) (f : ZInvalF) (c : Cmd) (l : ListSt) (k : Nat) (s u : State), zWork s p (.zInval f) f.order = some (c, l, k) →
    u = invalidate (jobOf s c.id) (zAddr c f.aslot f.addr) f.bytes s →
    (f.jobScope = true → ∀ m ∈ jobMembers u c, m ≠ u.boot.pkg → homeUp u m = true) →
      exec (.zInval p f) s = .next (finishEntry p k
        ((if f.jobScope then (jobMembers u c).filter (fun m => decide (m ≠ u.boot.pkg)) else []).foldl (fun v m =>
          issueAccess (originOf c l k) m (zAddr c f.aslot f.addr) (.inval f.bytes) .none none v) u))) ∧
  (∀ (p : Place) (f : ZReduceF) (arr : List Contribution) (c : Cmd) (l : ListSt) (k : Nat) (fi fo : Fmt) (bs : List Byte) (s t : State),
    zWork s p (.zReduce f) f.order = some (c, l, k) → reduceMembers s c f = some [s.boot.pkg] → Fmt.ofCode f.inFormat = some fi →
    Fmt.ofCode f.outFormat = some fo → s.beat.clkHold = false → l.wait = none → bufferOf s p = some bs →
    awaitingDesc s c.id (l.entry k).index = false →
    slotWrite c (originOf c l k) f.dst f.dstOffset (reduceAll f fi fo [bs.take (f.elements * (fi.bits / 8))]).1 (startWait p s) = .ok t →
      exec (.zReduce p f arr) s = .next (progress c.id (finishEntry p k (dropBuffer p
        (endWait p ((arr.getLast?.map fun x => x.limited).getD false) (setNamed p.code (fun e => { e with
          saturated := sat32 (e.saturated + (reduceAll f fi fo [bs.take (f.elements * (fi.bits / 8))]).2.sat)
          nanOut := sat32 (e.nanOut + (reduceAll f fi fo [bs.take (f.elements * (fi.bits / 8))]).2.nan) }) t)))))) ∧
  (∀ (p : Place) (f : ZTxnF) (c : Cmd) (l : ListSt) (k base home : Nat) (h : Handle) (bs : List Byte) (s : State),
    zWork s p (.zTxn f) f.order = some (c, l, k) → bufferOf s p = some bs → awaitingDesc s c.id (l.entry k).index = false →
    ((txnAddrs f (txnEntries c f bs)).map (homeOfAddr (dropBuffer p s))).eraseDups = [some home] → home ≠ s.boot.pkg →
    homeUp s home = true → slotHandle s c f.res = some (h, base) → h.kind = 0 → f.resOffset + 8 ≤ h.bytes →
      exec (.zTxn p f) s = .next (progress p.cmd (finishEntry p k (issueAccess (originOf c l k) home
        ((txnAddrs f (txnEntries c f bs)).headD 0) (.txn f.beat (txnEntries c f bs)) (.memory (base + f.resOffset)) none
        ((txnAddrs f (txnEntries c f bs)).foldl (fun s a => spoilFills a 256 (dropBlocks none a 256 s)) (dropBuffer p s)))))) ∧
  (∀ (p : Place) (f : ZXchgF) (c : Cmd) (l : ListSt) (k : Nat) (m : Model) (y : Layer) (t : InstTable) (b : XBatch) (bs : List Byte)
    (s : State), zWork s p (.zXchg f) f.order = some (c, l, k) → modelAt s f.model = some m → m.manifest.layers[f.layer]? = some y →
    tableFor m c = some t → y.experts ≠ 0 → f.role = 2 → bufferOf s p = some bs → awaitingDesc s c.id (l.entry k).index = false →
    s.fab.batches.find? (fun b => b.cmd = c.id && b.model = m.id && b.layer = f.layer && b.half = f.half && b.lslot = f.lslot &&
      b.round = f.round) = some b → b.rows = [] →
      ∃ u, exec (.zXchg p f) s = .next (finishEntry p k u) ∧ u.mem = s.mem ∧ u.out = s.out ∧
        (∀ x ∈ u.fab.batches, ¬ (x.cmd = c.id ∧ x.model = m.id ∧ x.layer = f.layer ∧ x.half = f.half ∧ x.lslot = f.lslot ∧
          x.round = f.round)))

/-- The home applies a request in its turn and answers it (R317 to R321, R324): a load changes no byte of memory, a store exactly its bytes,
an atomic its eight; an aged request is discarded and counted and its turn passes, a duplicate changes nothing. The source of an access
(R318, R319, R321): an answer delivers its data and gives its credit back, a refusal or a timeout ends the command with cause 4, and an
aged request waits for its timeout. -/
def Obligations.RemoteAccesses : Prop :=
  (∀ (r : FabReq) (n : Nat) (s : State), (s.now + 1024 - r.issueLow % 1024) % 1024 < 512 → s.fab.heldIn = [] →
    r.seq = seqFor s.fab.seqIn r.pkg r.agent → r.kind = .load n →
      ∃ t, exec (.fabricRequest r) s = .next t ∧ t.mem = s.mem ∧ t.fab.heldIn = [] ∧
        t.out = s.out ++ [fabPacket s r.pkg 5 (.response r.agent r.seq (applyAt r.job r.addr (.load n) s).2.1
          (applyAt r.job r.addr (.load n) s).2.2.1 (applyAt r.job r.addr (.load n) s).2.2.2)]) ∧
  (∀ (r : FabReq) (d : List Byte) (a : Nat) (s : State), (s.now + 1024 - r.issueLow % 1024) % 1024 < 512 → s.fab.heldIn = [] →
    r.seq = seqFor s.fab.seqIn r.pkg r.agent → r.kind = .store d → localOf s r.addr = some a → r.addr % 32 = 0 → d.length % 32 = 0 →
    (homeHandle s r.job a d.length true).isSome = true → blockedUnits s a d.length = [] → s.mem.wf = true →
      ∃ t, exec (.fabricRequest r) s = .next t ∧
        t.out = s.out ++ [fabPacket s r.pkg 5 (.response r.agent r.seq true false [])] ∧
        (∀ k (hk : k < d.length), t.mem.readByte (a + k) = d[k]) ∧
        (∀ x, ¬ (a ≤ x ∧ x < a + d.length) → t.mem.readByte x = s.mem.readByte x)) ∧
  (∀ (r : FabReq) (op operand compare v a : Nat) (s : State), (s.now + 1024 - r.issueLow % 1024) % 1024 < 512 → s.fab.heldIn = [] →
    r.seq = seqFor s.fab.seqIn r.pkg r.agent → r.kind = .atomic op operand compare → localOf s r.addr = some a → r.addr % 8 = 0 →
    (homeHandle s r.job a 8 true).isSome = true → s.badAt a 8 = false → blockedUnits s a 8 = [] → s.mem.wf = true →
    atomicNew op (leNat (s.mem.read a 8)) operand compare = some v →
      ∃ t, exec (.fabricRequest r) s = .next t ∧
        t.out = s.out ++ [fabPacket s r.pkg 5 (.response r.agent r.seq true false (leBytes 8 (leNat (s.mem.read a 8))))] ∧
        t.mem.read a 8 = leBytes 8 v ∧ (∀ x, ¬ (a ≤ x ∧ x < a + 8) → t.mem.readByte x = s.mem.readByte x)) ∧
  (∀ (r : FabReq) (s : State), 512 ≤ (s.now + 1024 - r.issueLow % 1024) % 1024 → r.seq ≠ seqFor s.fab.seqIn r.pkg r.agent →
      exec (.fabricRequest r) s = .next { s with fab := { s.fab with aged := sat32 (s.fab.aged + 1) } }) ∧
  (∀ (r : FabReq) (s : State), 512 ≤ (s.now + 1024 - r.issueLow % 1024) % 1024 → r.seq = seqFor s.fab.seqIn r.pkg r.agent →
    s.fab.heldIn = [] →
      exec (.fabricRequest r) s = .next { s with fab := { s.fab with
        aged := sat32 (s.fab.aged + 1)
        seqIn := seqSet s.fab.seqIn r.pkg r.agent (r.seq + 1) } }) ∧
  (∀ (r : FabReq) (s : State), (s.now + 1024 - r.issueLow % 1024) % 1024 < 512 → r.seq < seqFor s.fab.seqIn r.pkg r.agent →
      exec (.fabricRequest r) s = .next s) ∧
  (∀ (r : FabResp) (x : Access) (a : Nat) (s : State), s.fab.accesses.find? (fun x => x.id = r.access) = some x → r.ok = true →
    r.cacheable = false → x.sink = .memory a → x.bump = none →
      ∃ t, exec (.fabricResponse r) s = .next t ∧ (∀ y ∈ t.fab.accesses, y.id ≠ x.id) ∧
        (∀ k (hk : k < r.data.length), t.mem.readByte (a + k) = r.data[k])) ∧
  (∀ (r : FabResp) (x : Access) (s : State), s.fab.accesses.find? (fun x => x.id = r.access) = some x → r.ok = false →
      exec (.fabricResponse r) s = .next (contextFault x.cmd 4 (agentList x.agent) (some x.desc) (releaseHeld x.home
        { s with fab := { s.fab with accesses := s.fab.accesses.filter fun y => y.id ≠ x.id } }))) ∧
  (∀ (n : Nat) (x : Access) (s : State), s.fab.accesses.find? (fun x => x.id = n) = some x →
    x.issued + s.fab.timeout ≤ s.beat.elapsed →
      exec (.fabricAccessTimeout n) s = .next (contextFault x.cmd 4 (agentList x.agent) (some x.desc) (releaseHeld x.home
        { s with fab := { s.fab with accesses := s.fab.accesses.filter fun y => y.id ≠ n } }))) ∧
  (∀ (n : Nat) (x : Access) (s : State), x ∈ s.fab.accesses → x.id = n → x.aged = false → x.held = false →
    x.issued + 512 ≤ s.beat.elapsed →
      ∃ t, exec (.requestAged n) s = .next t ∧ t.fab.aged = sat32 (s.fab.aged + 1) ∧
        (∀ y ∈ t.fab.accesses, y.id = n → y.aged = true) ∧ t.jobs = s.jobs ∧ t.mem = s.mem)

/-- The expert exchange and the fabric sori (R197, R201, R337): a count record is its source's latest, a row of the recorded generation enters
its window and one of another is discarded and counted, and a staged transaction whose compare fails stores nothing. TRANSIT_PACKET (R301
to R303, R306, R307, R319): forwarded on its route at the next level of its class and counted on the link it leaves by; 512 beats old it
is discarded and counted. -/
def Obligations.ExchangeAndTransit : Prop :=
  (∀ (r : CountRec) (s : State),
      ∃ t, exec (.countRecord r) s = .next t ∧ latestCounts t r.pkg r.job r.model r.layer r.half = some (r, none) ∧ t.mem = s.mem) ∧
  (∀ (r : XRow) (g : CountRec) (u : Option Nat) (s : State), r.toReturn = false →
    latestCounts s r.pkg r.job r.model r.layer r.half = some (g, u) → (tagOf r.tag).gen = g.gen →
      ∃ t, exec (.exchangeRow r) s = .next t ∧ t.fab.rows = s.fab.rows ++ [r] ∧ t.mem = s.mem ∧ t.stns = s.stns) ∧
  (∀ (r : XRow) (g : CountRec) (u : Option Nat) (s : State), r.toReturn = false →
    latestCounts s r.pkg r.job r.model r.layer r.half = some (g, u) → (tagOf r.tag).gen ≠ g.gen →
      ∃ t, exec (.exchangeRow r) s = .next t ∧ t.fab.rows = s.fab.rows ∧ t.mem = s.mem) ∧
  (∀ (x : StagedTxn) (s : State), s.fab.txns = [x] → beatLe x.beat s.now = true → x.pkg ≠ s.boot.pkg →
    (∃ y ∈ txnLines s x.entries, y.2.1 = true ∧ maskInto y.2.2.1 (s.mem.read y.1 256) y.2.2.2 ≠ s.mem.read y.1 256) →
      ∃ t, exec .fabricSorusCommit s = .next t ∧ t.mem = s.mem ∧ t.fab.txns = [] ∧ t.fab.txnNot = sat32 (s.fab.txnNot + 1)) ∧
  (∀ (s : State), (∀ x ∈ s.fab.txns, beatLe x.beat s.now = false) → exec .fabricSorusCommit s = .next s) ∧
  (∀ (p : TransitP) (port : Nat) (x : Link) (s : State), p.dest ≠ s.boot.pkg → p.channel < 15 → p.channel % 5 ≠ 4 →
    (s.now + 1024 - p.issueLow % 1024) % 1024 < 512 → egressOf s p.src p.dest p.addr = some port → s.link port = some x →
      ∃ t x', exec (.transitPacket p) s = .next t ∧
        t.out = s.out ++ [.fabric p.dest (p.channel + 1) (some port) false (.transit { p with channel := p.channel + 1 })] ∧
        t.link port = some x' ∧ x'.shared = true ∧ x'.transitBytes = (x.transitBytes + p.bytes) % 1000000 ∧
        x'.transitMb = wrap32 (x.transitMb + (x.transitBytes + p.bytes) / 1000000) ∧ t.mem = s.mem) ∧
  (∀ (p : TransitP) (s : State), p.dest ≠ s.boot.pkg → p.channel < 15 → p.channel % 5 ≠ 4 → 512 ≤ (s.now + 1024 - p.issueLow % 1024) % 1024 →
      exec (.transitPacket p) s = .next { s with fab := { s.fab with aged := sat32 (s.fab.aged + 1) } })

/-- Barriers (R309 to R312): BARRIER enters, the coordinator names the completion beat with the last arrival (where in its beat that falls is
free, log 132), a release sets it, and the barrier completes at that beat; a timeout ends it, and the coordinator tells the members; a
piece of a broadcast is stored where this package keeps the data. Snapshots (R313): SNAPSHOT_AT waits for its beat, the capture freezes
the units of its pairs, and each copy leaves the destination with the source's bytes and every other byte as before. -/
def Obligations.BarriersAndSnapshots : Prop :=
  (∀ (h : Hdr) (id timeout members : Nat) (e : Session) (s : State),
    Served (.barrier h id timeout members) h ⟨0x0504, roleJobs, featFabric⟩ e s → s.boot.pkg ∈ membersOf members →
    (timeout = 0 ∨ (1000 ≤ timeout ∧ timeout ≤ 10000000)) → s.op id = none → s.fab.ops.length < 64 → s.beat.clkHold = false →
    (∀ m ∈ membersOf members, m ∉ s.fab.unreachable) →
      exec (.barrier h id timeout members) s = .next (enterBarrier h id (if timeout = 0 then 100000 else timeout)
        (membersOf members) (accept h 0x0504 [] s))) ∧
  (∀ (id : Nat) (ms fresh : List Nat) (o : GlobalOp) (s : State), s.op id = some o → o.coord = s.boot.pkg → o.completeAt = none →
    s.beat.clkHold = false → (∀ m ∈ o.members, m ∈ o.arrived ++ fresh) →
      ∃ t o', exec (.barrierArrival id ms ⟨fresh, none⟩) s = .next t ∧ t.op id = some o' ∧
        o'.completeAt = some (beatAdd s.now (((Config.drawn s.fresh).toNat % 1000 +
          (routeBound s o.members + (o.bcast.map fun b => b.bytes / 1600).getD 0) + 999) / 1000)) ∧ t.mem = s.mem ∧ t.jobs = s.jobs) ∧
  (∀ (id i : Nat) (ms fresh : List Nat) (p : BcastPart) (data : List Byte) (o : GlobalOp) (s : State), s.op id = some o →
    s.beat.clkHold = false → s.boot.pkg ∈ ms → p.root ≠ s.boot.pkg → p.piece = some (i, data) → s.mem.wf = true →
      ∃ t, exec (.barrierArrival id ms ⟨fresh, some p⟩) s = .next t ∧
        (∀ k (hk : k < data.length), t.mem.readByte (p.base + 65536 * i + k) = data[k]) ∧
        (∀ x, ¬ (p.base + 65536 * i ≤ x ∧ x < p.base + 65536 * i + data.length) → t.mem.readByte x = s.mem.readByte x)) ∧
  (∀ (id beat : Nat) (ms : List Nat) (limited : Bool) (o : GlobalOp) (s : State), s.op id = some o → s.boot.pkg ∈ ms →
      ∃ t, exec (.barrierRelease id beat ms limited) s = .next t ∧
        t.op id = some { o with completeAt := some beat, limited := limited } ∧ t.mem = s.mem ∧ t.jobs = s.jobs) ∧
  (∀ (id c : Nat) (o : GlobalOp) (s : State), s.op id = some o → o.completeAt = some c → beatLe c s.now = true → o.limited = false →
    o.session ≠ 0 →
      exec (.barrierComplete id) s = .next (finish o.session o.tag 0x0504 stOk 0 (leBytes 8 c)
        { s with fab := { s.fab with ops := s.fab.ops.filter fun x => x.id ≠ id } })) ∧
  (∀ (id c : Nat) (o : GlobalOp) (s : State), s.op id = some o → o.completeAt = some c → beatLe c s.now = false →
      exec (.barrierComplete id) s = .next s) ∧
  (∀ (id : Nat) (o : GlobalOp) (s : State), s.op id = some o → o.coord ≠ s.boot.pkg →
      exec (.globalOpTimeout id) s = .next (finish o.session o.tag 0x0504 stDegraded 0 []
        { s with fab := { s.fab with ops := s.fab.ops.filter fun x => x.id ≠ id } })) ∧
  (∀ (id : Nat) (o : GlobalOp) (s : State), s.op id = some o → o.coord = s.boot.pkg → o.startBeat + o.timeout ≤ s.beat.elapsed →
      exec (.globalOpTimeout id) s = .next (finish o.session o.tag 0x0504 stDegraded 0 [] (tellFailed id o.members
        { s with fab := { s.fab with ops := s.fab.ops.filter fun x => x.id ≠ id } }))) ∧
  (∀ (h : Hdr) (beat ctx : Nat) (ps : List (Nat × Nat)) (e : Session) (s : State),
    Served (.snapshotAt h beat ctx ps) h ⟨0x0505, roleJobs, featLearn⟩ e s → snapRefusal e.principal ctx ps s = none →
    beatBefore s.now beat = true →
      exec (.snapshotAt h beat ctx ps) s = .next (addSnapshot h beat ctx ps (accept h 0x0505 [] s))) ∧
  (∀ (id : Nat) (x : Snapshot) (s : State), s.fab.snaps.find? (fun x => x.id = id) = some x → x.captured = false →
    beatLe x.beat s.now = true →
      ∃ t, exec (.snapshotCapture id) s = .next t ∧ t.fab.snaps.find? (fun x => x.id = id) =
        some { x with captured := true, units := (x.pairs.map (unitsOf s)).flatten } ∧ t.mem = s.mem ∧ t.jobs = s.jobs) ∧
  (∀ (id a b n : Nat) (rest : List (Nat × Nat × Nat)) (x : Snapshot) (s : State),
    s.fab.snaps.find? (fun x => x.id = id && x.captured) = some x → x.units = (a, b, n) :: rest → s.mem.wf = true →
      ∃ t, exec (.snapshotUnitCopy id) s = .next t ∧ t.mem.wf = true ∧
        (∀ k, k < n → t.mem.readByte (b + k) = s.mem.readByte (a + k)) ∧
        (∀ y, ¬ (b ≤ y ∧ y < b + n) → t.mem.readByte y = s.mem.readByte y))

/-- Preparing and deciding (R378): an OPEN member with nothing in its way prepares and answers; the last good answer before e - 4 decides; the
deadline aborts for a member that has not answered; a decision reaches a prepared member. The ends of a sorus (R376, R379, R381): a
decided one takes effect at its beat and not before, 10 s after it opened an OPEN one aborts, and 100,000 beats past its beat a member in
doubt asks the others, and aborts when it has asked with what it had staged undone. -/
def Obligations.SoriPrepareAndEnd : Prop :=
  (∀ (id coord beat : Nat) (x : Sorus) (s : State), s.sorus id = some x → x.state = 0 → x.own = false → x.staged = [] → x.answers = [] →
    s.hlth.failed = false → s.beat.clkHold = false → s.boot.activation = none → s.boot.pauseUntil = none → coord ≠ s.boot.pkg →
      ∃ t x', exec (.sorusPrepare .fabric id coord beat) s = .next t ∧ t.sorus id = some x' ∧ x'.state = 2 ∧ x'.commitBeat = beat ∧
        x'.coord = coord ∧ x'.decided = none ∧ t.out = s.out ++ [fabPacket s coord 10 (.prepared id stOk 0)] ∧ t.mem = s.mem) ∧
  (∀ (h : Hdr) (id coord beat : Nat) (e : Session) (s : State), Served (.sorusPrepare (.host h) id coord beat) h ⟨0x0904, 0, 0⟩ e s →
      exec (.sorusPrepare (.host h) id coord beat) s = .next (reply h 0x0904 stDenied 0 [] s)) ∧
  (∀ (id pkg k : Nat) (x : Sorus) (s : State), s.sorus id = some x → x.coord = s.boot.pkg → x.own = false → x.state = 2 →
    x.decided = none → pkg ∈ x.members → (∀ a ∈ x.answers, a.1 ≠ pkg) → (∀ m ∈ x.members, m = pkg ∨ ∃ a ∈ x.answers, a.1 = m) →
    beatBefore (beatAdd s.now 4) x.commitBeat = true →
      ∃ t x', exec (.sorusPrepared id pkg stOk k) s = .next t ∧ t.sorus id = some x' ∧ x'.decided = some true ∧ x'.state = 2 ∧
        t.mem = s.mem ∧ t.jobs = s.jobs) ∧
  (∀ (id pkg st k : Nat) (x : Sorus) (s : State), s.sorus id = some x → x.coord = s.boot.pkg → x.own = false → x.state = 2 →
    x.decided = none → pkg ∈ x.members → (∀ a ∈ x.answers, a.1 ≠ pkg) → st ≠ stOk →
      ∃ t x', exec (.sorusPrepared id pkg st k) s = .next t ∧ t.sorus id = some x' ∧ x'.state = 4 ∧ x'.decided = some false ∧
        t.mem.cells = s.mem.cells ∧ t.jobs = s.jobs) ∧
  (∀ (id m : Nat) (x : Sorus) (s : State), s.sorus id = some x → x.coord = s.boot.pkg → x.own = false → x.state = 2 →
    x.decided = none → m ∈ x.members → (∀ a ∈ x.answers, a.1 ≠ m) → beatLe x.commitBeat (beatAdd s.now 4) = true →
      ∃ t x', exec (.sorusPrepareDeadline id) s = .next t ∧ t.sorus id = some x' ∧ x'.state = 4 ∧ x'.decided = some false ∧
        t.mem.cells = s.mem.cells ∧ t.jobs = s.jobs) ∧
  (∀ (id : Nat) (x : Sorus) (s : State), s.sorus id = some x → x.state = 2 → x.own = false → x.decided = none →
      exec (.sorusDecision id true) s = .next (setSorus id (fun x => { x with decided := some true }) s)) ∧
  (∀ (id : Nat) (x : Sorus) (s : State), s.sorus id = some x → x.state = 2 → x.own = false → x.decided = none →
      ∃ t x', exec (.sorusDecision id false) s = .next t ∧ t.sorus id = some x' ∧ x'.state = 4 ∧ t.mem.cells = s.mem.cells) ∧
  (∀ (id pkg : Nat) (x : Sorus) (d : Bool) (s : State), s.sorus id = some x → x.decided = some d →
      exec (.sorusDecisionQuery id pkg) s = .next (sendFab pkg 10 (.decision id d) s)) ∧
  (∀ (id : Nat) (x : Sorus) (s : State), s.sorus id = some x → x.state = 2 → x.decided = some true → x.staged = [] →
    x.inDoubt = false → beatBefore s.now x.commitBeat = false →
      ∃ t x', exec (.sorusCommitApply id) s = .next t ∧ t.sorus id = some x' ∧ x'.state = 3 ∧ x'.staged = [] ∧
        t.mem.cells = s.mem.cells ∧ t.jobs = s.jobs ∧
        (∀ tag, x.commitTag = some tag → t.out = (finish x.session tag 0x0902 stOk 0 (leBytes 8 x.commitBeat ++ leBytes 8 0) s).out)) ∧
  (∀ (id : Nat) (x : Sorus) (s : State), s.sorus id = some x → beatBefore s.now x.commitBeat = true →
      exec (.sorusCommitApply id) s = .next s) ∧
  (∀ (id : Nat) (x : Sorus) (s : State), s.sorus id = some x → x.state = 0 → x.openedAt + 10000000 ≤ s.beat.elapsed →
      ∃ t x', exec (.sorusTimeout id) s = .next t ∧ t.sorus id = some x' ∧ x'.state = 4 ∧ x'.staged = [] ∧ t.mem.cells = s.mem.cells ∧
        t.jobs = s.jobs) ∧
  (∀ (id : Nat) (x : Sorus) (s : State), s.sorus id = some x → x.state ≠ 0 → exec (.sorusTimeout id) s = .next s) ∧
  (∀ (id : Nat) (x : Sorus) (s : State), s.sorus id = some x → x.state = 2 → x.inDoubt = true → x.decided = none → x.asked = true →
    beatBefore s.now (beatAdd x.commitBeat 100000) = false →
      ∃ t x', exec (.sorusInDoubtTimeout id) s = .next t ∧ t.sorus id = some x' ∧ x'.state = 4 ∧ x'.inDoubt = false ∧
        t.mem.cells = s.mem.cells ∧ t.jobs = s.jobs) ∧
  (∀ (id m : Nat) (x : Sorus) (s : State), s.sorus id = some x → x.state = 2 → x.inDoubt = true → x.decided = none → x.asked = false →
    m ∈ x.members → m ≠ s.boot.pkg → beatBefore s.now (beatAdd x.commitBeat 100000) = false →
      ∃ t x', exec (.sorusInDoubtTimeout id) s = .next t ∧ t.sorus id = some x' ∧ x'.asked = true ∧ x'.state = 2 ∧
        fabPacket s m 10 (.askDecision id) ∈ t.out)

/-- R40: the value of an MX element is its element value times 2^(E - 127), where `.fin n m e` is the number of sign `n`, magnitude `m` and
exponent `e`, m times 2^e; scale code 0xFF makes every element a NaN whatever its bits; the codes 0x00 to 0xFE are the factors 2^-127 to
2^127. -/
def Obligations.MxElementsAreScaled : Prop :=
  (∀ (f : Fmt) (raw scale : Nat) (n : Bool) (m : Nat) (e : Int), f.isMx = true → scale ≤ 0xFE → f.decode raw = .fin n m e →
    f.decodeScaled raw scale = .fin n m (e + ((scale : Int) - 127))) ∧
  (∀ (f : Fmt) (raw scale : Nat), f.isMx = true → scale ≤ 0xFE → (∀ n m e, f.decode raw ≠ .fin n m e) →
    f.decodeScaled raw scale = f.decode raw) ∧
  (∀ (f : Fmt) (raw : Nat), f.isMx = true → f.decodeScaled raw 0xFF = .nan) ∧
  (∀ scale : Nat, scale ≤ 0xFE → -127 ≤ (scale : Int) - 127 ∧ (scale : Int) - 127 ≤ 127)

/-- R169: an image at or beyond PAGES is a hole: every row of a K or V hole is invalid with no payload, a MASK or BIAS hole is minus infinity
throughout, a POS hole is zero. What a hole delivers is the same whatever the state holds: it reads no memory. -/
def Obligations.HolesReadNothing : Prop :=
  ∀ (v : ViewSt) (i : Nat) (rs : List (ViewSt × Query)), v.unit.pages ≤ i → ∀ s : State,
    (∃ a b, ∀ u : State, v.tile u rs 0 i = some ⟨a, b, List.replicate 64 emptyRow, true⟩) ∧
    (∃ a b, ∀ u : State, v.tile u rs 1 i = some ⟨a, b, List.replicate 64 emptyRow, true⟩) ∧
    v.tile s rs 2 i = some (faceTile fun _ => (false, 0#32, [])) ∧
    v.tile s rs 3 i = some (faceTile fun _ => (true, 0#32, List.replicate 64 0xFF800000#32)) ∧
    v.tile s rs 4 i = some (faceTile fun _ => (true, 0#32, List.replicate 64 0xFF800000#32))

/-- R170: which query row sees which key slot. -/
def Obligations.VisibleSlots : Prop :=
  (∀ (v : ViewSt) (q : Query) (slot : Nat), v.unit.keys + v.unit.ndraft ≤ slot → v.sees q slot = false) ∧
  (∀ (v : ViewSt) (i : Nat) (seen : Nat → Word) (blank : Word), v.hole i = true →
    v.maskTile i seen blank = faceTile fun _ => (true, 0#32, List.replicate 64 0xFF800000#32)) ∧
  (∀ (v : ViewSt) (q : Query) (slot : Nat), slot < v.unit.keys → (v.sees q slot = true ↔
    (tbit v.unit.mask 0 = true → v.posOf slot ≤ q.pos) ∧
    (tbit v.unit.mask 1 = true → (q.pos : Int) - v.posOf slot < v.unit.window) ∧
    (tbit v.unit.mask 2 = true → v.seg (v.posOf slot) = v.seg q.pos))) ∧
  (∀ (v : ViewSt) (q : Query) (d : Nat), 1 ≤ d → d ≤ v.unit.ndraft → (v.sees q (v.unit.keys + d - 1) = true ↔
    tbit v.unit.mask 3 = true ∧ tbit q.ancestors (d - 1) = true)) ∧
  (∀ (v : ViewSt) (p : Nat), p < 0xFFFFFFFF → v.seg p = v.unit.bounds.countP fun b => decide (b ≤ p))

/-- R195: the round, the expert copy and the place of every sorted entry, what DROP takes away, and the rounds an expert needs. `c` is the
capacity of R194 at the capacity factor of the table in force. -/
def Obligations.EntriesGoToRoundsAndInstances : Prop :=
  ∀ (t : InstTable) (l : Layer) (layer : Nat) (counts offsets : List Nat) (a : Assignment), counts.length = offsets.length →
    assign t l layer counts offsets = some a →
    ∀ c, c = capacityOf { l with cfQ8 := ((t.factors.find? fun x => x.1 = layer).map Prod.snd).getD l.cfQ8 } ((counts.sum + l.topk - 1) / max 1 l.topk) → 0 < c →
    (∀ pos pkg slot round, (pos, pkg, slot, round) ∈ a.entries ↔
      ∃ e r, r < counts.getD e 0 ∧ pos = offsets.getD e 0 + r ∧ round = r / ((instancesOf t layer e).length * c) + 1 ∧
        (pkg, slot) = (instancesOf t layer e).getD (r % ((instancesOf t layer e).length * c) / c) (0, 0) ∧
        ¬ (l.drop = 1 ∧ 1 < round)) ∧
    (∀ pos, pos ∈ a.dropped ↔
      ∃ e r, r < counts.getD e 0 ∧ pos = offsets.getD e 0 + r ∧ l.drop = 1 ∧ 1 < r / ((instancesOf t layer e).length * c) + 1) ∧
    (l.drop ≠ 1 → a.dropped = []) ∧
    (∀ e k n, (e, k, n) ∈ a.experts →
      (∀ r, r < k → r / ((instancesOf t layer e).length * c) + 1 ≤ n) ∧ (k - 1) / ((instancesOf t layer e).length * c) + 1 = n)

/-- R273: the channel and the row of an LPDDR address, while no channel is displaced. -/
def Obligations.LpddrBlocksByXor : Prop :=
  ∀ (s : State) (a b : Nat), 0x080000000000 ≤ a → b = (a - 0x080000000000) / 4096 → (∀ c ∈ s.mem.lpchs, c.cstate = 0) →
    channelOf s 1 a = (b &&& 31) ^^^ ((b >>> 5) &&& 31) ^^^ ((b >>> 10) &&& 31) ^^^ ((b >>> 15) &&& 31) ^^^ ((b >>> 20) &&& 31) ^^^
      ((b >>> 25) &&& 31) ∧
    (blockHome 1 b).2 = b >>> 5

/-- R375: the opcodes that may be staged are these; any other that names an open sorus of its session is answered ST_BAD_PARAM and aborts it,
and so does RESET with SCOPE 1. -/
def Obligations.OnlyTheseOpcodesStage : Prop :=
  (∀ op : Nat, stageable op = true ↔ op ∈ [0x0104, 0x0105, 0x0106, 0x0108, 0x0109, 0x010A, 0x0201, 0x0202, 0x0203, 0x0204, 0x0402,
    0x0403, 0x0303, 0x0308, 0x0503, 0x0505, 0x0506, 0x0601, 0x0802, 0x0A05]) ∧
  (∀ (i : Instr) (h : Hdr) (g : Gate) (ranges : Session → State → Option (Nat × Nat)) (run : Session → State → State) (e : Session)
    (x : Sorus) (s : State), s.boot.stage = 6 → s.boot.pauseUntil = none → s.session h.session = some e → h.sorus ≠ 0 →
    s.sorus h.sorus = some x → x.session = h.session → x.state = 0 → stageable g.opcode = false →
      ∃ t x', hosted i h g ranges run s = .next t ∧
        t = abortSorus x.id s.boot.pkg x.staged.length 0x0013 (reply h g.opcode 0x0013 0 [] s) ∧ t.sorus h.sorus = some x' ∧
        x'.state = 4 ∧ x'.staged = [] ∧ t.mem.cells = s.mem.cells ∧ t.jobs = s.jobs ∧ t.serve = s.serve ∧ t.models = s.models) ∧
  (∀ (h : Hdr) (e : Session) (x : Sorus) (s : State), s.boot.stage = 6 → s.boot.pauseUntil = none → s.session h.session = some e → flagsOver h 0 = false →
    gateRefusal ⟨0x0A05, roleOperate, 0⟩ e s = none → h.sorus ≠ 0 → s.sorus h.sorus = some x → x.session = h.session → x.state = 0 →
      exec (.resetWarm h) s = .next (abortSorus x.id s.boot.pkg x.staged.length 0x0013 (reply h 0x0A05 0x0013 0 [] s)))

/-- R397: CTX_DESTROY frees a torn-down context; a live one only without work, unless FORCE ends its commands, with no fault recorded; and the
loss of a principal destroys every context it made without PERSIST. -/
def Obligations.ContextsAreDestroyed : Prop :=
  (∀ (h : Hdr) (n : Nat) (c : Ctx) (e : Session) (s : State),
    Served (.ctxDestroy h n) h ⟨0x0307, roleJobs, featLearn⟩ e s → s.ctx n = some c → n ≠ 0 → c.principal = e.principal →
    c.torn = true → ctxHasWork s n = false →
      ∃ t, exec (.ctxDestroy h n) s = .next t ∧ t.ctx n = none) ∧
  (∀ (h : Hdr) (n : Nat) (c : Ctx) (e : Session) (s : State),
    Served (.ctxDestroy h n) h ⟨0x0307, roleJobs, featLearn⟩ e s → s.ctx n = some c → n ≠ 0 → c.principal = e.principal →
    c.torn = false → ctxHasWork s n = true → tbit h.cflags 0 = false →
      exec (.ctxDestroy h n) s = .next (reply h 0x0307 0x0020 0x50 [] s)) ∧
  (∀ (h : Hdr) (n : Nat) (c : Ctx) (e : Session) (s : State),
    Served (.ctxDestroy h n) h ⟨0x0307, roleJobs, featLearn⟩ e s → s.ctx n = some c → n ≠ 0 → c.principal = e.principal →
    c.torn = false → (ctxHasWork s n = false ∨ tbit h.cflags 0 = true) →
      ∃ t, exec (.ctxDestroy h n) s = .next t ∧ t.ctx n = none ∧ t.rime = s.rime ∧
        (∀ id x, s.cmd id = some x → x.ctx = n → ∀ y, t.cmd id = some y → y.phase.over = true ∧
          (x.phase.over = false → y.committed = true ∧ y.lists = []))) ∧
  (∀ (p : Nat) (s : State), (∀ e ∈ s.net.sessions, e.principal ≠ p) →
    (∃ g ∈ s.net.gone, g.principal = p ∧ g.since + 60000000 ≤ s.beat.elapsed) →
      ∃ t, exec (.principalLoss p) s = .next t ∧
        ∀ n c, s.ctx n = some c → c.principal = p → c.persist = false → n ≠ 0 → t.ctx n = none)

/-- R443: SEQ numbers records in the order they enter the recorder, from 0 with CLEARED, by one a record, modulo 2^32; a fold takes no number. -/
def Obligations.RecordsAreNumbered : Prop :=
  (∀ (r : Rec) (s : State), (∀ x, s.rime.circ.getLast? = some x → foldsInto r x = false) →
      (∃ y, (enterRec r s).rime.circ.getLast? = some y ∧ y = { r with seq := s.rime.next }) ∧
      (enterRec r s).rime.next = (s.rime.next + 1) % 2 ^ 32) ∧
  (∀ (r x : Rec) (s : State), s.rime.circ.getLast? = some x → foldsInto r x = true →
      (enterRec r s).rime.next = s.rime.next ∧ (enterRec r s).rime.circ.length = s.rime.circ.length ∧
      ∃ y, (enterRec r s).rime.circ.getLast? = some y ∧ y.seq = x.seq) ∧
  (∀ (principal : Nat) (s : State), ∃ y, (clearRecorder principal s).rime.circ = [y] ∧ y.seq = 0 ∧ y.type = 0x0001 ∧
      (clearRecorder principal s).rime.next = 1)

/-- R501: POR_L low for 1 ms or more is a power-on reset, a shorter pulse nothing; WARM_RST_L is ignored while POR_L is low, and acts as POR_L
before a power-on start reaches stage 4. -/
def Obligations.ResetPins : Prop :=
  (∀ (us : Nat) (s : State), 1000 ≤ us →
    exec (.porAssert us) s = .next { s.powerOn with pins := { s.powerOn.pins with porLow := true } }) ∧
  (∀ (us : Nat) (s : State), us < 1000 → exec (.porAssert us) s = .next s) ∧
  (∀ s : State, s.pins.porLow = true → exec .warmResetAssert s = .next s) ∧
  (∀ s : State, Powered s → s.boot.resetKind = 0 → s.boot.stage < 4 → exec .warmResetAssert s = .next s.powerOn)

/-- The entries of the opcode table as syntax: a command that may be staged has a stageable opcode, and every command's entry in a frame takes
a multiple of 8 bytes, at least 16 (R347, R375). -/
def Obligations.EntriesAreAligned : Prop := ∀ i : Instr, Sys2Proof.Laws.Family.Statement i

/-- Only these commands write these parts: the bytes of memory, the anti-rollback counters (R457), the installation record, the pins. Every
other command leaves the part as it was. -/
def Obligations.OnlyTheseCommandsWrite : Prop :=
  ∀ (i : Instr) (s t : State), exec i s = .next t →
    (mayStore i = false → t.mem.cells = s.mem.cells) ∧ (mayCount i = false → t.flash.counters = s.flash.counters) ∧
    (mayInstall i = false → t.flash.install = s.flash.install) ∧ (mayPin i = false → t.pins = s.pins)

/-- The anti-rollback counters (R457): no step lowers one of them. -/
def Obligations.AntiRollbackCountersNeverFall : Prop :=
  ∀ s t : State, step s = .next t →
    s.flash.counters.stage1 ≤ t.flash.counters.stage1 ∧ s.flash.counters.limcel ≤ t.flash.counters.limcel ∧
    s.flash.counters.config ≤ t.flash.counters.config ∧ s.flash.counters.install ≤ t.flash.counters.install ∧
    s.flash.counters.manifest ≤ t.flash.counters.manifest ∧ s.flash.counters.keyRevoke ≤ t.flash.counters.keyRevoke

/-- The memory stays in its canonical form over every step, from every state that has it. -/
def Obligations.MemoryStaysCanonical : Prop :=
  ∀ s t : State, s.mem.wf = true → step s = .next t → t.mem.wf = true
end

