-- ==== Sys2Proof/Laws/Lift.lean ====
section
/-! SUPPORT. A part that every branch of a conditional and every step of a fold leaves alone is left alone by the whole: one
lemma for each part of the state. -/
namespace Sys2Proof.Machine

@[simp] theorem ite_keeps_beat (c : Prop) [Decidable c] (a b : State) : (if c then a else b).beat = if c then a.beat else b.beat := by
    split <;> rfl

@[simp] theorem foldl_keeps_beat {α : Type} (g : State → α → State) (h : ∀ s x, (g s x).beat = s.beat) (xs : List α) (s : State) :
    (xs.foldl g s).beat = s.beat := by
  induction xs generalizing s with
  | nil => rfl
  | cons x xs ih => rw [List.foldl_cons, ih, h]

@[simp] theorem ite_keeps_pwr (c : Prop) [Decidable c] (a b : State) : (if c then a else b).pwr = if c then a.pwr else b.pwr := by split
    <;> rfl

@[simp] theorem foldl_keeps_pwr {α : Type} (g : State → α → State) (h : ∀ s x, (g s x).pwr = s.pwr) (xs : List α) (s : State) : (xs.foldl
    g s).pwr = s.pwr := by
  induction xs generalizing s with
  | nil => rfl
  | cons x xs ih => rw [List.foldl_cons, ih, h]

@[simp] theorem ite_keeps_thm (c : Prop) [Decidable c] (a b : State) : (if c then a else b).thm = if c then a.thm else b.thm := by split
    <;> rfl

@[simp] theorem foldl_keeps_thm {α : Type} (g : State → α → State) (h : ∀ s x, (g s x).thm = s.thm) (xs : List α) (s : State) : (xs.foldl
    g s).thm = s.thm := by
  induction xs generalizing s with
  | nil => rfl
  | cons x xs ih => rw [List.foldl_cons, ih, h]

@[simp] theorem ite_keeps_hlth (c : Prop) [Decidable c] (a b : State) : (if c then a else b).hlth = if c then a.hlth else b.hlth := by
    split <;> rfl

@[simp] theorem foldl_keeps_hlth {α : Type} (g : State → α → State) (h : ∀ s x, (g s x).hlth = s.hlth) (xs : List α) (s : State) :
    (xs.foldl g s).hlth = s.hlth := by
  induction xs generalizing s with
  | nil => rfl
  | cons x xs ih => rw [List.foldl_cons, ih, h]

@[simp] theorem ite_keeps_rime (c : Prop) [Decidable c] (a b : State) : (if c then a else b).rime = if c then a.rime else b.rime := by
    split <;> rfl

@[simp] theorem foldl_keeps_rime {α : Type} (g : State → α → State) (h : ∀ s x, (g s x).rime = s.rime) (xs : List α) (s : State) :
    (xs.foldl g s).rime = s.rime := by
  induction xs generalizing s with
  | nil => rfl
  | cons x xs ih => rw [List.foldl_cons, ih, h]

@[simp] theorem ite_keeps_stns (c : Prop) [Decidable c] (a b : State) : (if c then a else b).stns = if c then a.stns else b.stns := by
    split <;> rfl

@[simp] theorem foldl_keeps_stns {α : Type} (g : State → α → State) (h : ∀ s x, (g s x).stns = s.stns) (xs : List α) (s : State) :
    (xs.foldl g s).stns = s.stns := by
  induction xs generalizing s with
  | nil => rfl
  | cons x xs ih => rw [List.foldl_cons, ih, h]

@[simp] theorem ite_keeps_net (c : Prop) [Decidable c] (a b : State) : (if c then a else b).net = if c then a.net else b.net := by split
    <;> rfl

@[simp] theorem foldl_keeps_net {α : Type} (g : State → α → State) (h : ∀ s x, (g s x).net = s.net) (xs : List α) (s : State) : (xs.foldl
    g s).net = s.net := by
  induction xs generalizing s with
  | nil => rfl
  | cons x xs ih => rw [List.foldl_cons, ih, h]

@[simp] theorem ite_keeps_sori (c : Prop) [Decidable c] (a b : State) : (if c then a else b).sori = if c then a.sori else b.sori := by
    split <;> rfl

@[simp] theorem foldl_keeps_sori {α : Type} (g : State → α → State) (h : ∀ s x, (g s x).sori = s.sori) (xs : List α) (s : State) :
    (xs.foldl g s).sori = s.sori := by
  induction xs generalizing s with
  | nil => rfl
  | cons x xs ih => rw [List.foldl_cons, ih, h]

@[simp] theorem ite_keeps_models (c : Prop) [Decidable c] (a b : State) : (if c then a else b).models = if c then a.models else b.models
    := by split <;> rfl

@[simp] theorem foldl_keeps_models {α : Type} (g : State → α → State) (h : ∀ s x, (g s x).models = s.models) (xs : List α) (s : State) :
    (xs.foldl g s).models = s.models := by
  induction xs generalizing s with
  | nil => rfl
  | cons x xs ih => rw [List.foldl_cons, ih, h]

@[simp] theorem ite_keeps_serve (c : Prop) [Decidable c] (a b : State) : (if c then a else b).serve = if c then a.serve else b.serve := by
    split <;> rfl

@[simp] theorem foldl_keeps_serve {α : Type} (g : State → α → State) (h : ∀ s x, (g s x).serve = s.serve) (xs : List α) (s : State) :
    (xs.foldl g s).serve = s.serve := by
  induction xs generalizing s with
  | nil => rfl
  | cons x xs ih => rw [List.foldl_cons, ih, h]

@[simp] theorem ite_keeps_jobs (c : Prop) [Decidable c] (a b : State) : (if c then a else b).jobs = if c then a.jobs else b.jobs := by
    split <;> rfl

@[simp] theorem foldl_keeps_jobs {α : Type} (g : State → α → State) (h : ∀ s x, (g s x).jobs = s.jobs) (xs : List α) (s : State) :
    (xs.foldl g s).jobs = s.jobs := by
  induction xs generalizing s with
  | nil => rfl
  | cons x xs ih => rw [List.foldl_cons, ih, h]

@[simp] theorem ite_keeps_fab (c : Prop) [Decidable c] (a b : State) : (if c then a else b).fab = if c then a.fab else b.fab := by split
    <;> rfl

@[simp] theorem foldl_keeps_fab {α : Type} (g : State → α → State) (h : ∀ s x, (g s x).fab = s.fab) (xs : List α) (s : State) : (xs.foldl
    g s).fab = s.fab := by
  induction xs generalizing s with
  | nil => rfl
  | cons x xs ih => rw [List.foldl_cons, ih, h]

@[simp] theorem ite_keeps_out (c : Prop) [Decidable c] (a b : State) : (if c then a else b).out = if c then a.out else b.out := by split
    <;> rfl

@[simp] theorem foldl_keeps_out {α : Type} (g : State → α → State) (h : ∀ s x, (g s x).out = s.out) (xs : List α) (s : State) : (xs.foldl
    g s).out = s.out := by
  induction xs generalizing s with
  | nil => rfl
  | cons x xs ih => rw [List.foldl_cons, ih, h]

@[simp] theorem ite_keeps_fresh (c : Prop) [Decidable c] (a b : State) : (if c then a else b).fresh = if c then a.fresh else b.fresh := by
    split <;> rfl

@[simp] theorem foldl_keeps_fresh {α : Type} (g : State → α → State) (h : ∀ s x, (g s x).fresh = s.fresh) (xs : List α) (s : State) :
    (xs.foldl g s).fresh = s.fresh := by
  induction xs generalizing s with
  | nil => rfl
  | cons x xs ih => rw [List.foldl_cons, ih, h]

@[simp] theorem ite_keeps_pins (c : Prop) [Decidable c] (a b : State) : (if c then a else b).pins = if c then a.pins else b.pins := by
    split <;> rfl

@[simp] theorem foldl_keeps_pins {α : Type} (g : State → α → State) (h : ∀ s x, (g s x).pins = s.pins) (xs : List α) (s : State) :
    (xs.foldl g s).pins = s.pins := by
  induction xs generalizing s with
  | nil => rfl
  | cons x xs ih => rw [List.foldl_cons, ih, h]

@[simp] theorem ite_keeps_pending (c : Prop) [Decidable c] (a b : State) : (if c then a else b).pending = if c then a.pending else
    b.pending := by split <;> rfl

@[simp] theorem foldl_keeps_pending {α : Type} (g : State → α → State) (h : ∀ s x, (g s x).pending = s.pending) (xs : List α) (s : State)
    : (xs.foldl g s).pending = s.pending := by
  induction xs generalizing s with
  | nil => rfl
  | cons x xs ih => rw [List.foldl_cons, ih, h]

@[simp] theorem ite_keeps_boot (c : Prop) [Decidable c] (a b : State) : (if c then a else b).boot = if c then a.boot else b.boot := by
    split <;> rfl

@[simp] theorem foldl_keeps_boot {α : Type} (g : State → α → State) (h : ∀ s x, (g s x).boot = s.boot) (xs : List α) (s : State) :
    (xs.foldl g s).boot = s.boot := by
  induction xs generalizing s with
  | nil => rfl
  | cons x xs ih => rw [List.foldl_cons, ih, h]

@[simp] theorem ite_keeps_flash (c : Prop) [Decidable c] (a b : State) : (if c then a else b).flash = if c then a.flash else b.flash := by
    split <;> rfl

@[simp] theorem foldl_keeps_flash {α : Type} (g : State → α → State) (h : ∀ s x, (g s x).flash = s.flash) (xs : List α) (s : State) :
    (xs.foldl g s).flash = s.flash := by
  induction xs generalizing s with
  | nil => rfl
  | cons x xs ih => rw [List.foldl_cons, ih, h]

@[simp] theorem ite_keeps_mem (c : Prop) [Decidable c] (a b : State) : (if c then a else b).mem = if c then a.mem else b.mem := by split
    <;> rfl

@[simp] theorem foldl_keeps_mem {α : Type} (g : State → α → State) (h : ∀ s x, (g s x).mem = s.mem) (xs : List α) (s : State) : (xs.foldl
    g s).mem = s.mem := by
  induction xs generalizing s with
  | nil => rfl
  | cons x xs ih => rw [List.foldl_cons, ih, h]

@[simp] theorem ite_keeps_flash_counters (c : Prop) [Decidable c] (a b : State) : (if c then a else b).flash.counters = if c then
    a.flash.counters else b.flash.counters := by split <;> rfl

@[simp] theorem foldl_keeps_flash_counters {α : Type} (g : State → α → State) (h : ∀ s x, (g s x).flash.counters = s.flash.counters) (xs :
    List α) (s : State) : (xs.foldl g s).flash.counters = s.flash.counters := by
  induction xs generalizing s with
  | nil => rfl
  | cons x xs ih => rw [List.foldl_cons, ih, h]

@[simp] theorem ite_keeps_flash_install (c : Prop) [Decidable c] (a b : State) : (if c then a else b).flash.install = if c then
    a.flash.install else b.flash.install := by split <;> rfl

@[simp] theorem foldl_keeps_flash_install {α : Type} (g : State → α → State) (h : ∀ s x, (g s x).flash.install = s.flash.install) (xs :
    List α) (s : State) : (xs.foldl g s).flash.install = s.flash.install := by
  induction xs generalizing s with
  | nil => rfl
  | cons x xs ih => rw [List.foldl_cons, ih, h]

@[simp] theorem ite_keeps_flash_serial (c : Prop) [Decidable c] (a b : State) : (if c then a else b).flash.serial = if c then
    a.flash.serial else b.flash.serial := by split <;> rfl

@[simp] theorem foldl_keeps_flash_serial {α : Type} (g : State → α → State) (h : ∀ s x, (g s x).flash.serial = s.flash.serial) (xs : List
    α) (s : State) : (xs.foldl g s).flash.serial = s.flash.serial := by
  induction xs generalizing s with
  | nil => rfl
  | cons x xs ih => rw [List.foldl_cons, ih, h]

@[simp] theorem ite_keeps_mem_cells (c : Prop) [Decidable c] (a b : State) : (if c then a else b).mem.cells = if c then a.mem.cells else
    b.mem.cells := by split <;> rfl

@[simp] theorem foldl_keeps_mem_cells {α : Type} (g : State → α → State) (h : ∀ s x, (g s x).mem.cells = s.mem.cells) (xs : List α) (s :
    State) : (xs.foldl g s).mem.cells = s.mem.cells := by
  induction xs generalizing s with
  | nil => rfl
  | cons x xs ih => rw [List.foldl_cons, ih, h]

@[simp] theorem ite_keeps_mem_undef (c : Prop) [Decidable c] (a b : State) : (if c then a else b).mem.undef = if c then a.mem.undef else
    b.mem.undef := by split <;> rfl

@[simp] theorem foldl_keeps_mem_undef {α : Type} (g : State → α → State) (h : ∀ s x, (g s x).mem.undef = s.mem.undef) (xs : List α) (s :
    State) : (xs.foldl g s).mem.undef = s.mem.undef := by
  induction xs generalizing s with
  | nil => rfl
  | cons x xs ih => rw [List.foldl_cons, ih, h]

theorem foldl_keeps {α β : Type} (P : State → β) (g : State → α → State) (h : ∀ s x, P (g s x) = P s) (xs : List α)
    (s : State) : P (xs.foldl g s) = P s := by
  induction xs generalizing s with
  | nil => rfl
  | cons x xs ih => rw [List.foldl_cons, ih, h]

theorem foldl_fst_keeps {α β γ : Type} (P : State → β) (g : State × γ → α → State × γ) (h : ∀ s x, P (g s x).1 = P s.1)
    (xs : List α) (s : State × γ) : P (xs.foldl g s).1 = P s.1 := by
  induction xs generalizing s with
  | nil => rfl
  | cons x xs ih => rw [List.foldl_cons, ih, h]

theorem foldl_moved_keeps {α β : Type} (P : State → β) (g : Moved → α → Moved) (hb : ∀ e x, g (.bad e) x = .bad e)
    (hk : ∀ s x t, g (.ok s) x = .ok t → P t = P s) (xs : List α) (s t : State) (h : xs.foldl g (.ok s) = .ok t) : P t = P s := by
  induction xs generalizing s with
  | nil => simp at h; rw [h]
  | cons x xs ih =>
    rw [List.foldl_cons] at h
    cases hg : g (.ok s) x with
    | ok u => rw [hg] at h; rw [ih u h, hk s x u hg]
    | bad e =>
      rw [hg] at h
      have : ∀ ys : List α, ys.foldl g (.bad e) = .bad e := by
        intro ys; induction ys with
        | nil => rfl
        | cons y ys ih => rw [List.foldl_cons, hb, ih]
      rw [this] at h; cases h

theorem eachMove_keeps {α β : Type} (P : State → β) (f : α → State → Moved) (hk : ∀ x s t, f x s = .ok t → P t = P s)
    (xs : List α) (s : State) : P (eachMove f xs s).2 = P s ∧ ∀ t, (eachMove f xs s).1 = .ok t → P t = P s := by
  induction xs generalizing s with
  | nil => simp [eachMove]
  | cons x xs ih =>
    unfold eachMove
    cases hg : f x s with
    | ok u => simpa [hk x s u hg] using ih u
    | bad e => simp

end Sys2Proof.Machine
end

