-- ==== Sys2Proof/Laws/FramesOps.lean ====
section
/-! SUPPORT. The frame of each shared operation of Machine/Ops.lean: the parts of the state that it leaves alone. `f_keeps` says
it of the operation `f`; the provers cite it instead of unfolding `f`. -/
set_option maxHeartbeats 1000000
set_option linter.unusedSimpArgs false
set_option linter.unusedTactic false
set_option linter.unreachableTactic false
set_option linter.unnecessarySeqFocus false
namespace Sys2Proof.Machine

@[simp] theorem enterRec.enterNew_keeps (e : Rec) (s : State) :
    (enterRec.enterNew e s).beat = s.beat ∧ (enterRec.enterNew e s).pwr = s.pwr ∧ (enterRec.enterNew e s).thm = s.thm ∧ (enterRec.enterNew
      e s).hlth = s.hlth ∧ (enterRec.enterNew e s).stns = s.stns ∧ (enterRec.enterNew e s).net = s.net ∧ (enterRec.enterNew e s).sori =
      s.sori ∧ (enterRec.enterNew e s).models = s.models ∧ (enterRec.enterNew e s).serve = s.serve ∧ (enterRec.enterNew e s).jobs = s.jobs ∧
      (enterRec.enterNew e s).fab = s.fab ∧ (enterRec.enterNew e s).out = s.out ∧ (enterRec.enterNew e s).fresh = s.fresh ∧
      (enterRec.enterNew e s).pins = s.pins ∧ (enterRec.enterNew e s).pending = s.pending ∧ (enterRec.enterNew e s).boot = s.boot ∧
      (enterRec.enterNew e s).flash.counters = s.flash.counters ∧ (enterRec.enterNew e s).flash.install = s.flash.install ∧
      (enterRec.enterNew e s).flash.serial = s.flash.serial ∧ (enterRec.enterNew e s).mem = s.mem := by
  unfold enterRec.enterNew
  simp

@[simp] theorem enterRec_keeps (e : Rec) (s : State) :
    (enterRec e s).beat = s.beat ∧ (enterRec e s).pwr = s.pwr ∧ (enterRec e s).thm = s.thm ∧ (enterRec e s).hlth = s.hlth ∧ (enterRec e
      s).stns = s.stns ∧ (enterRec e s).net = s.net ∧ (enterRec e s).sori = s.sori ∧ (enterRec e s).models = s.models ∧ (enterRec e s).serve
      = s.serve ∧ (enterRec e s).jobs = s.jobs ∧ (enterRec e s).fab = s.fab ∧ (enterRec e s).out = s.out ∧ (enterRec e s).fresh = s.fresh ∧
      (enterRec e s).pins = s.pins ∧ (enterRec e s).pending = s.pending ∧ (enterRec e s).boot = s.boot ∧ (enterRec e s).flash.counters =
      s.flash.counters ∧ (enterRec e s).flash.install = s.flash.install ∧ (enterRec e s).flash.serial = s.flash.serial ∧ (enterRec e s).mem
      = s.mem := by
  unfold enterRec
  (repeat' split) <;> (try simp) <;> (repeat' split) <;> (try simp) <;> (repeat' split) <;> (try simp_all)

@[simp] theorem record_keeps (type : Nat) (sev : Nat) (source : Nat) (payload : List Byte) (s : State) :
    (record type sev source payload s).beat = s.beat ∧ (record type sev source payload s).pwr = s.pwr ∧ (record type sev source payload
      s).thm = s.thm ∧ (record type sev source payload s).hlth = s.hlth ∧ (record type sev source payload s).stns = s.stns ∧ (record type
      sev source payload s).net = s.net ∧ (record type sev source payload s).sori = s.sori ∧ (record type sev source payload s).models =
      s.models ∧ (record type sev source payload s).serve = s.serve ∧ (record type sev source payload s).jobs = s.jobs ∧ (record type sev
      source payload s).fab = s.fab ∧ (record type sev source payload s).out = s.out ∧ (record type sev source payload s).fresh = s.fresh ∧
      (record type sev source payload s).pins = s.pins ∧ (record type sev source payload s).pending = s.pending ∧ (record type sev source
      payload s).boot = s.boot ∧ (record type sev source payload s).flash.counters = s.flash.counters ∧ (record type sev source payload
      s).flash.install = s.flash.install ∧ (record type sev source payload s).flash.serial = s.flash.serial ∧ (record type sev source
      payload s).mem = s.mem := by
  unfold record
  (repeat' split) <;> (try simp) <;> (repeat' split) <;> (try simp) <;> (repeat' split) <;> (try simp_all)

@[simp] theorem recordInternal_keeps (op : Nat) (tag : Nat) (s : State) :
    (recordInternal op tag s).beat = s.beat ∧ (recordInternal op tag s).pwr = s.pwr ∧ (recordInternal op tag s).thm = s.thm ∧
      (recordInternal op tag s).hlth = s.hlth ∧ (recordInternal op tag s).stns = s.stns ∧ (recordInternal op tag s).net = s.net ∧
      (recordInternal op tag s).sori = s.sori ∧ (recordInternal op tag s).models = s.models ∧ (recordInternal op tag s).serve = s.serve ∧
      (recordInternal op tag s).jobs = s.jobs ∧ (recordInternal op tag s).fab = s.fab ∧ (recordInternal op tag s).out = s.out ∧
      (recordInternal op tag s).pins = s.pins ∧ (recordInternal op tag s).pending = s.pending ∧ (recordInternal op tag s).boot = s.boot ∧
      (recordInternal op tag s).flash.counters = s.flash.counters ∧ (recordInternal op tag s).flash.install = s.flash.install ∧
      (recordInternal op tag s).flash.serial = s.flash.serial ∧ (recordInternal op tag s).mem = s.mem := by
  unfold recordInternal
  simp [draw]

@[simp] theorem emit_keeps (o : Output) (s : State) :
    (emit o s).beat = s.beat ∧ (emit o s).pwr = s.pwr ∧ (emit o s).thm = s.thm ∧ (emit o s).hlth = s.hlth ∧ (emit o s).rime = s.rime ∧
      (emit o s).stns = s.stns ∧ (emit o s).net = s.net ∧ (emit o s).sori = s.sori ∧ (emit o s).models = s.models ∧ (emit o s).serve =
      s.serve ∧ (emit o s).jobs = s.jobs ∧ (emit o s).fab = s.fab ∧ (emit o s).fresh = s.fresh ∧ (emit o s).pins = s.pins ∧ (emit o
      s).pending = s.pending ∧ (emit o s).boot = s.boot ∧ (emit o s).flash = s.flash ∧ (emit o s).mem = s.mem := by
  unfold emit
  simp

@[simp] theorem setSession_keeps (sid : Nat) (f : Session → Session) (s : State) :
    (setSession sid f s).beat = s.beat ∧ (setSession sid f s).pwr = s.pwr ∧ (setSession sid f s).thm = s.thm ∧ (setSession sid f s).hlth =
      s.hlth ∧ (setSession sid f s).rime = s.rime ∧ (setSession sid f s).stns = s.stns ∧ (setSession sid f s).sori = s.sori ∧ (setSession
      sid f s).models = s.models ∧ (setSession sid f s).serve = s.serve ∧ (setSession sid f s).jobs = s.jobs ∧ (setSession sid f s).fab =
      s.fab ∧ (setSession sid f s).out = s.out ∧ (setSession sid f s).fresh = s.fresh ∧ (setSession sid f s).pins = s.pins ∧ (setSession sid
      f s).pending = s.pending ∧ (setSession sid f s).boot = s.boot ∧ (setSession sid f s).flash = s.flash ∧ (setSession sid f s).mem =
      s.mem := by
  unfold setSession
  simp

@[simp] theorem sendEntry_keeps (sid : Nat) (d : DevEntry) (s : State) :
    (sendEntry sid d s).beat = s.beat ∧ (sendEntry sid d s).pwr = s.pwr ∧ (sendEntry sid d s).thm = s.thm ∧ (sendEntry sid d s).hlth =
      s.hlth ∧ (sendEntry sid d s).rime = s.rime ∧ (sendEntry sid d s).stns = s.stns ∧ (sendEntry sid d s).sori = s.sori ∧ (sendEntry sid d
      s).models = s.models ∧ (sendEntry sid d s).serve = s.serve ∧ (sendEntry sid d s).jobs = s.jobs ∧ (sendEntry sid d s).fab = s.fab ∧
      (sendEntry sid d s).fresh = s.fresh ∧ (sendEntry sid d s).pins = s.pins ∧ (sendEntry sid d s).pending = s.pending ∧ (sendEntry sid d
      s).boot = s.boot ∧ (sendEntry sid d s).flash = s.flash ∧ (sendEntry sid d s).mem = s.mem := by
  unfold sendEntry
  (repeat' split) <;> simp

@[simp] theorem sendReply_keeps (sid : Nat) (src : Nat) (r : Reply) (s : State) :
    (sendReply sid src r s).beat = s.beat ∧ (sendReply sid src r s).pwr = s.pwr ∧ (sendReply sid src r s).thm = s.thm ∧ (sendReply sid src
      r s).hlth = s.hlth ∧ (sendReply sid src r s).rime = s.rime ∧ (sendReply sid src r s).stns = s.stns ∧ (sendReply sid src r s).sori =
      s.sori ∧ (sendReply sid src r s).models = s.models ∧ (sendReply sid src r s).serve = s.serve ∧ (sendReply sid src r s).jobs = s.jobs ∧
      (sendReply sid src r s).fab = s.fab ∧ (sendReply sid src r s).fresh = s.fresh ∧ (sendReply sid src r s).pins = s.pins ∧ (sendReply sid
      src r s).pending = s.pending ∧ (sendReply sid src r s).boot = s.boot ∧ (sendReply sid src r s).flash = s.flash ∧ (sendReply sid src r
      s).mem = s.mem := by
  unfold sendReply
  simp

@[simp] theorem reply_keeps (h : Hdr) (op : Nat) (status : Nat) (detail : Nat) (result : List Byte) (s : State) :
    (reply h op status detail result s).beat = s.beat ∧ (reply h op status detail result s).pwr = s.pwr ∧ (reply h op status detail result
      s).thm = s.thm ∧ (reply h op status detail result s).hlth = s.hlth ∧ (reply h op status detail result s).rime = s.rime ∧ (reply h op
      status detail result s).stns = s.stns ∧ (reply h op status detail result s).sori = s.sori ∧ (reply h op status detail result s).models
      = s.models ∧ (reply h op status detail result s).serve = s.serve ∧ (reply h op status detail result s).jobs = s.jobs ∧ (reply h op
      status detail result s).fab = s.fab ∧ (reply h op status detail result s).fresh = s.fresh ∧ (reply h op status detail result s).pins =
      s.pins ∧ (reply h op status detail result s).pending = s.pending ∧ (reply h op status detail result s).boot = s.boot ∧ (reply h op
      status detail result s).flash = s.flash ∧ (reply h op status detail result s).mem = s.mem := by
  unfold reply
  simp

@[simp] theorem replyOk_keeps (h : Hdr) (op : Nat) (result : List Byte) (s : State) :
    (replyOk h op result s).beat = s.beat ∧ (replyOk h op result s).pwr = s.pwr ∧ (replyOk h op result s).thm = s.thm ∧ (replyOk h op
      result s).hlth = s.hlth ∧ (replyOk h op result s).rime = s.rime ∧ (replyOk h op result s).stns = s.stns ∧ (replyOk h op result s).sori
      = s.sori ∧ (replyOk h op result s).models = s.models ∧ (replyOk h op result s).serve = s.serve ∧ (replyOk h op result s).jobs = s.jobs
      ∧ (replyOk h op result s).fab = s.fab ∧ (replyOk h op result s).fresh = s.fresh ∧ (replyOk h op result s).pins = s.pins ∧ (replyOk h
      op result s).pending = s.pending ∧ (replyOk h op result s).boot = s.boot ∧ (replyOk h op result s).flash = s.flash ∧ (replyOk h op
      result s).mem = s.mem := by
  unfold replyOk
  simp

@[simp] theorem accept_keeps (h : Hdr) (op : Nat) (result : List Byte) (s : State) :
    (accept h op result s).beat = s.beat ∧ (accept h op result s).pwr = s.pwr ∧ (accept h op result s).thm = s.thm ∧ (accept h op result
      s).hlth = s.hlth ∧ (accept h op result s).rime = s.rime ∧ (accept h op result s).stns = s.stns ∧ (accept h op result s).sori = s.sori
      ∧ (accept h op result s).models = s.models ∧ (accept h op result s).serve = s.serve ∧ (accept h op result s).jobs = s.jobs ∧ (accept h
      op result s).fab = s.fab ∧ (accept h op result s).fresh = s.fresh ∧ (accept h op result s).pins = s.pins ∧ (accept h op result
      s).pending = s.pending ∧ (accept h op result s).boot = s.boot ∧ (accept h op result s).flash = s.flash ∧ (accept h op result s).mem =
      s.mem := by
  unfold accept
  simp

@[simp] theorem finish_keeps (sid : Nat) (tag : Nat) (op : Nat) (status : Nat) (detail : Nat) (result : List Byte) (s : State) :
    (finish sid tag op status detail result s).beat = s.beat ∧ (finish sid tag op status detail result s).pwr = s.pwr ∧ (finish sid tag op
      status detail result s).thm = s.thm ∧ (finish sid tag op status detail result s).hlth = s.hlth ∧ (finish sid tag op status detail
      result s).rime = s.rime ∧ (finish sid tag op status detail result s).stns = s.stns ∧ (finish sid tag op status detail result s).sori =
      s.sori ∧ (finish sid tag op status detail result s).models = s.models ∧ (finish sid tag op status detail result s).serve = s.serve ∧
      (finish sid tag op status detail result s).jobs = s.jobs ∧ (finish sid tag op status detail result s).fab = s.fab ∧ (finish sid tag op
      status detail result s).fresh = s.fresh ∧ (finish sid tag op status detail result s).pins = s.pins ∧ (finish sid tag op status detail
      result s).pending = s.pending ∧ (finish sid tag op status detail result s).boot = s.boot ∧ (finish sid tag op status detail result
      s).flash = s.flash ∧ (finish sid tag op status detail result s).mem = s.mem := by
  unfold finish
  simp

@[simp] theorem answerNow_keeps (h : Hdr) (op : Nat) (x1 : Nat) (x2 : Nat) (x3 : List Byte) (x4 : State) :
    (answerNow h op x1 x2 x3 x4).beat = x4.beat ∧ (answerNow h op x1 x2 x3 x4).pwr = x4.pwr ∧ (answerNow h op x1 x2 x3 x4).thm = x4.thm ∧
      (answerNow h op x1 x2 x3 x4).hlth = x4.hlth ∧ (answerNow h op x1 x2 x3 x4).rime = x4.rime ∧ (answerNow h op x1 x2 x3 x4).stns =
      x4.stns ∧ (answerNow h op x1 x2 x3 x4).sori = x4.sori ∧ (answerNow h op x1 x2 x3 x4).models = x4.models ∧ (answerNow h op x1 x2 x3
      x4).serve = x4.serve ∧ (answerNow h op x1 x2 x3 x4).jobs = x4.jobs ∧ (answerNow h op x1 x2 x3 x4).fab = x4.fab ∧ (answerNow h op x1 x2
      x3 x4).fresh = x4.fresh ∧ (answerNow h op x1 x2 x3 x4).pins = x4.pins ∧ (answerNow h op x1 x2 x3 x4).pending = x4.pending ∧ (answerNow
      h op x1 x2 x3 x4).boot = x4.boot ∧ (answerNow h op x1 x2 x3 x4).flash = x4.flash ∧ (answerNow h op x1 x2 x3 x4).mem = x4.mem := by
  unfold answerNow
  simp

@[simp] theorem answerLater_keeps (session : Nat) (tag : Nat) (op : Nat) (x1 : Nat) (x2 : Nat) (x3 : List Byte) (x4 : State) :
    (answerLater session tag op x1 x2 x3 x4).beat = x4.beat ∧ (answerLater session tag op x1 x2 x3 x4).pwr = x4.pwr ∧ (answerLater session
      tag op x1 x2 x3 x4).thm = x4.thm ∧ (answerLater session tag op x1 x2 x3 x4).hlth = x4.hlth ∧ (answerLater session tag op x1 x2 x3
      x4).rime = x4.rime ∧ (answerLater session tag op x1 x2 x3 x4).stns = x4.stns ∧ (answerLater session tag op x1 x2 x3 x4).sori = x4.sori
      ∧ (answerLater session tag op x1 x2 x3 x4).models = x4.models ∧ (answerLater session tag op x1 x2 x3 x4).serve = x4.serve ∧
      (answerLater session tag op x1 x2 x3 x4).jobs = x4.jobs ∧ (answerLater session tag op x1 x2 x3 x4).fab = x4.fab ∧ (answerLater session
      tag op x1 x2 x3 x4).fresh = x4.fresh ∧ (answerLater session tag op x1 x2 x3 x4).pins = x4.pins ∧ (answerLater session tag op x1 x2 x3
      x4).pending = x4.pending ∧ (answerLater session tag op x1 x2 x3 x4).boot = x4.boot ∧ (answerLater session tag op x1 x2 x3 x4).flash =
      x4.flash ∧ (answerLater session tag op x1 x2 x3 x4).mem = x4.mem := by
  unfold answerLater
  simp

@[simp] theorem discard_keeps (cause : Nat) (s : State) :
    (discard cause s).beat = s.beat ∧ (discard cause s).pwr = s.pwr ∧ (discard cause s).thm = s.thm ∧ (discard cause s).hlth = s.hlth ∧
      (discard cause s).rime = s.rime ∧ (discard cause s).stns = s.stns ∧ (discard cause s).sori = s.sori ∧ (discard cause s).models =
      s.models ∧ (discard cause s).serve = s.serve ∧ (discard cause s).jobs = s.jobs ∧ (discard cause s).fab = s.fab ∧ (discard cause s).out
      = s.out ∧ (discard cause s).fresh = s.fresh ∧ (discard cause s).pins = s.pins ∧ (discard cause s).pending = s.pending ∧ (discard cause
      s).boot = s.boot ∧ (discard cause s).flash = s.flash ∧ (discard cause s).mem = s.mem := by
  unfold discard
  simp

@[simp] theorem draw_keeps (s : State) :
    (draw s).2.beat = s.beat ∧ (draw s).2.pwr = s.pwr ∧ (draw s).2.thm = s.thm ∧ (draw s).2.hlth = s.hlth ∧ (draw s).2.rime = s.rime ∧
      (draw s).2.stns = s.stns ∧ (draw s).2.net = s.net ∧ (draw s).2.sori = s.sori ∧ (draw s).2.models = s.models ∧ (draw s).2.serve =
      s.serve ∧ (draw s).2.jobs = s.jobs ∧ (draw s).2.fab = s.fab ∧ (draw s).2.out = s.out ∧ (draw s).2.pins = s.pins ∧ (draw s).2.pending =
      s.pending ∧ (draw s).2.boot = s.boot ∧ (draw s).2.flash = s.flash ∧ (draw s).2.mem = s.mem := by
  unfold draw
  simp

@[simp] theorem storeBytes_keeps (a : Nat) (bs : List Byte) (s : State) :
    (storeBytes a bs s).beat = s.beat ∧ (storeBytes a bs s).pwr = s.pwr ∧ (storeBytes a bs s).thm = s.thm ∧ (storeBytes a bs s).hlth =
      s.hlth ∧ (storeBytes a bs s).rime = s.rime ∧ (storeBytes a bs s).stns = s.stns ∧ (storeBytes a bs s).net = s.net ∧ (storeBytes a bs
      s).sori = s.sori ∧ (storeBytes a bs s).models = s.models ∧ (storeBytes a bs s).serve = s.serve ∧ (storeBytes a bs s).jobs = s.jobs ∧
      (storeBytes a bs s).fab = s.fab ∧ (storeBytes a bs s).out = s.out ∧ (storeBytes a bs s).fresh = s.fresh ∧ (storeBytes a bs s).pins =
      s.pins ∧ (storeBytes a bs s).pending = s.pending ∧ (storeBytes a bs s).boot = s.boot ∧ (storeBytes a bs s).flash = s.flash ∧
      (storeBytes a bs s).mem.undef = s.mem.undef := by
  simp [storeBytes, MemSt.write]

@[simp] theorem copyUnit_keeps (id : Nat) (u : Nat × Nat × Nat) (s : State) :
    (copyUnit id u s).beat = s.beat ∧ (copyUnit id u s).pwr = s.pwr ∧ (copyUnit id u s).thm = s.thm ∧ (copyUnit id u s).hlth = s.hlth ∧
      (copyUnit id u s).rime = s.rime ∧ (copyUnit id u s).stns = s.stns ∧ (copyUnit id u s).net = s.net ∧ (copyUnit id u s).sori = s.sori ∧
      (copyUnit id u s).models = s.models ∧ (copyUnit id u s).serve = s.serve ∧ (copyUnit id u s).jobs = s.jobs ∧ (copyUnit id u s).out =
      s.out ∧ (copyUnit id u s).fresh = s.fresh ∧ (copyUnit id u s).pins = s.pins ∧ (copyUnit id u s).pending = s.pending ∧ (copyUnit id u
      s).boot = s.boot ∧ (copyUnit id u s).flash = s.flash ∧ (copyUnit id u s).mem.undef = s.mem.undef := by
  unfold copyUnit
  simp

@[simp] theorem applyWrite_keeps (a : Nat) (bs : List Byte) (s : State) :
    (applyWrite a bs s).beat = s.beat ∧ (applyWrite a bs s).pwr = s.pwr ∧ (applyWrite a bs s).thm = s.thm ∧ (applyWrite a bs s).hlth =
      s.hlth ∧ (applyWrite a bs s).rime = s.rime ∧ (applyWrite a bs s).stns = s.stns ∧ (applyWrite a bs s).net = s.net ∧ (applyWrite a bs
      s).sori = s.sori ∧ (applyWrite a bs s).models = s.models ∧ (applyWrite a bs s).serve = s.serve ∧ (applyWrite a bs s).out = s.out ∧
      (applyWrite a bs s).fresh = s.fresh ∧ (applyWrite a bs s).pins = s.pins ∧ (applyWrite a bs s).pending = s.pending ∧ (applyWrite a bs
      s).boot = s.boot ∧ (applyWrite a bs s).flash = s.flash ∧ (applyWrite a bs s).mem.undef = s.mem.undef := by
  unfold applyWrite
  simp

@[simp] theorem setStn_keeps (die : Nat) (letter : Nat) (num : Nat) (f : StnSt → StnSt) (s : State) :
    (setStn die letter num f s).beat = s.beat ∧ (setStn die letter num f s).pwr = s.pwr ∧ (setStn die letter num f s).thm = s.thm ∧
      (setStn die letter num f s).hlth = s.hlth ∧ (setStn die letter num f s).rime = s.rime ∧ (setStn die letter num f s).net = s.net ∧
      (setStn die letter num f s).sori = s.sori ∧ (setStn die letter num f s).models = s.models ∧ (setStn die letter num f s).serve =
      s.serve ∧ (setStn die letter num f s).jobs = s.jobs ∧ (setStn die letter num f s).fab = s.fab ∧ (setStn die letter num f s).out =
      s.out ∧ (setStn die letter num f s).fresh = s.fresh ∧ (setStn die letter num f s).pins = s.pins ∧ (setStn die letter num f s).pending
      = s.pending ∧ (setStn die letter num f s).boot = s.boot ∧ (setStn die letter num f s).flash = s.flash ∧ (setStn die letter num f
      s).mem = s.mem := by
  unfold setStn
  simp

@[simp] theorem setNamed_keeps (code : Nat) (f : StnSt → StnSt) (s : State) :
    (setNamed code f s).beat = s.beat ∧ (setNamed code f s).pwr = s.pwr ∧ (setNamed code f s).thm = s.thm ∧ (setNamed code f s).hlth =
      s.hlth ∧ (setNamed code f s).rime = s.rime ∧ (setNamed code f s).net = s.net ∧ (setNamed code f s).sori = s.sori ∧ (setNamed code f
      s).models = s.models ∧ (setNamed code f s).serve = s.serve ∧ (setNamed code f s).jobs = s.jobs ∧ (setNamed code f s).fab = s.fab ∧
      (setNamed code f s).out = s.out ∧ (setNamed code f s).fresh = s.fresh ∧ (setNamed code f s).pins = s.pins ∧ (setNamed code f
      s).pending = s.pending ∧ (setNamed code f s).boot = s.boot ∧ (setNamed code f s).flash = s.flash ∧ (setNamed code f s).mem = s.mem :=
      by
  unfold setNamed
  (repeat' split) <;> simp

@[simp] theorem setCmd_keeps (id : Nat) (f : Cmd → Cmd) (s : State) :
    (setCmd id f s).beat = s.beat ∧ (setCmd id f s).pwr = s.pwr ∧ (setCmd id f s).thm = s.thm ∧ (setCmd id f s).hlth = s.hlth ∧ (setCmd id
      f s).rime = s.rime ∧ (setCmd id f s).stns = s.stns ∧ (setCmd id f s).net = s.net ∧ (setCmd id f s).sori = s.sori ∧ (setCmd id f
      s).models = s.models ∧ (setCmd id f s).serve = s.serve ∧ (setCmd id f s).fab = s.fab ∧ (setCmd id f s).out = s.out ∧ (setCmd id f
      s).fresh = s.fresh ∧ (setCmd id f s).pins = s.pins ∧ (setCmd id f s).pending = s.pending ∧ (setCmd id f s).boot = s.boot ∧ (setCmd id
      f s).flash = s.flash ∧ (setCmd id f s).mem = s.mem := by
  unfold setCmd
  simp

@[simp] theorem setCtx_keeps (n : Nat) (f : Ctx → Ctx) (s : State) :
    (setCtx n f s).beat = s.beat ∧ (setCtx n f s).pwr = s.pwr ∧ (setCtx n f s).thm = s.thm ∧ (setCtx n f s).hlth = s.hlth ∧ (setCtx n f
      s).rime = s.rime ∧ (setCtx n f s).stns = s.stns ∧ (setCtx n f s).net = s.net ∧ (setCtx n f s).sori = s.sori ∧ (setCtx n f s).models =
      s.models ∧ (setCtx n f s).serve = s.serve ∧ (setCtx n f s).fab = s.fab ∧ (setCtx n f s).out = s.out ∧ (setCtx n f s).fresh = s.fresh ∧
      (setCtx n f s).pins = s.pins ∧ (setCtx n f s).pending = s.pending ∧ (setCtx n f s).boot = s.boot ∧ (setCtx n f s).flash = s.flash ∧
      (setCtx n f s).mem = s.mem := by
  unfold setCtx
  simp

@[simp] theorem setQueue_keeps (n : Nat) (q : Nat) (f : Queue → Queue) (s : State) :
    (setQueue n q f s).beat = s.beat ∧ (setQueue n q f s).pwr = s.pwr ∧ (setQueue n q f s).thm = s.thm ∧ (setQueue n q f s).hlth = s.hlth
      ∧ (setQueue n q f s).rime = s.rime ∧ (setQueue n q f s).stns = s.stns ∧ (setQueue n q f s).net = s.net ∧ (setQueue n q f s).sori =
      s.sori ∧ (setQueue n q f s).models = s.models ∧ (setQueue n q f s).serve = s.serve ∧ (setQueue n q f s).fab = s.fab ∧ (setQueue n q f
      s).out = s.out ∧ (setQueue n q f s).fresh = s.fresh ∧ (setQueue n q f s).pins = s.pins ∧ (setQueue n q f s).pending = s.pending ∧
      (setQueue n q f s).boot = s.boot ∧ (setQueue n q f s).flash = s.flash ∧ (setQueue n q f s).mem = s.mem := by
  unfold setQueue
  simp

@[simp] theorem setModel_keeps (id : Nat) (f : Model → Model) (s : State) :
    (setModel id f s).beat = s.beat ∧ (setModel id f s).pwr = s.pwr ∧ (setModel id f s).thm = s.thm ∧ (setModel id f s).hlth = s.hlth ∧
      (setModel id f s).rime = s.rime ∧ (setModel id f s).stns = s.stns ∧ (setModel id f s).net = s.net ∧ (setModel id f s).sori = s.sori ∧
      (setModel id f s).serve = s.serve ∧ (setModel id f s).jobs = s.jobs ∧ (setModel id f s).fab = s.fab ∧ (setModel id f s).out = s.out ∧
      (setModel id f s).fresh = s.fresh ∧ (setModel id f s).pins = s.pins ∧ (setModel id f s).pending = s.pending ∧ (setModel id f s).boot =
      s.boot ∧ (setModel id f s).flash = s.flash ∧ (setModel id f s).mem = s.mem := by
  unfold setModel
  simp

@[simp] theorem setReq_keeps (id : Nat) (f : Req → Req) (s : State) :
    (setReq id f s).beat = s.beat ∧ (setReq id f s).pwr = s.pwr ∧ (setReq id f s).thm = s.thm ∧ (setReq id f s).hlth = s.hlth ∧ (setReq id
      f s).rime = s.rime ∧ (setReq id f s).stns = s.stns ∧ (setReq id f s).net = s.net ∧ (setReq id f s).sori = s.sori ∧ (setReq id f
      s).models = s.models ∧ (setReq id f s).jobs = s.jobs ∧ (setReq id f s).fab = s.fab ∧ (setReq id f s).out = s.out ∧ (setReq id f
      s).fresh = s.fresh ∧ (setReq id f s).pins = s.pins ∧ (setReq id f s).pending = s.pending ∧ (setReq id f s).boot = s.boot ∧ (setReq id
      f s).flash = s.flash ∧ (setReq id f s).mem = s.mem := by
  unfold setReq
  simp

@[simp] theorem sendFab_keeps (dest : Nat) (vc : Nat) (w : FabOut) (s : State) :
    (sendFab dest vc w s).beat = s.beat ∧ (sendFab dest vc w s).pwr = s.pwr ∧ (sendFab dest vc w s).thm = s.thm ∧ (sendFab dest vc w
      s).hlth = s.hlth ∧ (sendFab dest vc w s).rime = s.rime ∧ (sendFab dest vc w s).stns = s.stns ∧ (sendFab dest vc w s).net = s.net ∧
      (sendFab dest vc w s).sori = s.sori ∧ (sendFab dest vc w s).models = s.models ∧ (sendFab dest vc w s).serve = s.serve ∧ (sendFab dest
      vc w s).jobs = s.jobs ∧ (sendFab dest vc w s).fab = s.fab ∧ (sendFab dest vc w s).fresh = s.fresh ∧ (sendFab dest vc w s).pins =
      s.pins ∧ (sendFab dest vc w s).pending = s.pending ∧ (sendFab dest vc w s).boot = s.boot ∧ (sendFab dest vc w s).flash = s.flash ∧
      (sendFab dest vc w s).mem = s.mem := by
  unfold sendFab
  simp

@[simp] theorem freePages_keeps (rid : Nat) (s : State) :
    (freePages rid s).beat = s.beat ∧ (freePages rid s).pwr = s.pwr ∧ (freePages rid s).thm = s.thm ∧ (freePages rid s).hlth = s.hlth ∧
      (freePages rid s).rime = s.rime ∧ (freePages rid s).stns = s.stns ∧ (freePages rid s).net = s.net ∧ (freePages rid s).sori = s.sori ∧
      (freePages rid s).jobs = s.jobs ∧ (freePages rid s).fab = s.fab ∧ (freePages rid s).out = s.out ∧ (freePages rid s).fresh = s.fresh ∧
      (freePages rid s).pins = s.pins ∧ (freePages rid s).pending = s.pending ∧ (freePages rid s).boot = s.boot ∧ (freePages rid s).flash =
      s.flash ∧ (freePages rid s).mem.cells = s.mem.cells ∧ (freePages rid s).mem.undef = s.mem.undef := by
  unfold freePages
  (repeat' split) <;> simp

@[simp] theorem sendEvent_keeps (sid : Nat) (principal : Nat) (d : DevEntry) (s : State) :
    (sendEvent sid principal d s).beat = s.beat ∧ (sendEvent sid principal d s).pwr = s.pwr ∧ (sendEvent sid principal d s).thm = s.thm ∧ (sendEvent sid principal d
      s).hlth = s.hlth ∧ (sendEvent sid principal d s).rime = s.rime ∧ (sendEvent sid principal d s).stns = s.stns ∧ (sendEvent sid principal d s).sori = s.sori ∧
      (sendEvent sid principal d s).models = s.models ∧ (sendEvent sid principal d s).serve = s.serve ∧ (sendEvent sid principal d s).jobs = s.jobs ∧ (sendEvent sid principal d s).fab = s.fab ∧ (sendEvent sid principal d s).fresh = s.fresh ∧ (sendEvent sid principal d s).pins = s.pins ∧ (sendEvent sid principal d s).pending =
      s.pending ∧ (sendEvent sid principal d s).boot = s.boot ∧ (sendEvent sid principal d s).flash = s.flash ∧ (sendEvent sid principal d s).mem = s.mem := by
  unfold sendEvent
  (repeat' split) <;> simp

@[simp] theorem sendDone_keeps (r : Req) (status : Nat) (s : State) :
    (sendDone r status s).beat = s.beat ∧ (sendDone r status s).pwr = s.pwr ∧ (sendDone r status s).thm = s.thm ∧ (sendDone r status
      s).hlth = s.hlth ∧ (sendDone r status s).rime = s.rime ∧ (sendDone r status s).stns = s.stns ∧ (sendDone r status s).sori = s.sori ∧
      (sendDone r status s).models = s.models ∧ (sendDone r status s).serve = s.serve ∧ (sendDone r status s).jobs = s.jobs ∧ (sendDone r
      status s).fab = s.fab ∧ (sendDone r status s).fresh = s.fresh ∧ (sendDone r status s).pins = s.pins ∧ (sendDone r status s).pending =
      s.pending ∧ (sendDone r status s).boot = s.boot ∧ (sendDone r status s).flash = s.flash ∧ (sendDone r status s).mem = s.mem := by
  unfold sendDone
  (repeat' split) <;> simp

@[simp] theorem restAcct_keeps (principal : Nat) (s : State) :
    (restAcct principal s).beat = s.beat ∧ (restAcct principal s).pwr = s.pwr ∧ (restAcct principal s).thm = s.thm ∧ (restAcct principal
      s).hlth = s.hlth ∧ (restAcct principal s).rime = s.rime ∧ (restAcct principal s).stns = s.stns ∧ (restAcct principal s).net = s.net ∧
      (restAcct principal s).sori = s.sori ∧ (restAcct principal s).models = s.models ∧ (restAcct principal s).serve = s.serve ∧ (restAcct
      principal s).fab = s.fab ∧ (restAcct principal s).out = s.out ∧ (restAcct principal s).fresh = s.fresh ∧ (restAcct principal s).pins =
      s.pins ∧ (restAcct principal s).pending = s.pending ∧ (restAcct principal s).boot = s.boot ∧ (restAcct principal s).flash = s.flash ∧
      (restAcct principal s).mem = s.mem := by
  unfold restAcct
  simp

@[simp] theorem takeAcct_keeps (principal : Nat) (s : State) :
    (takeAcct principal s).beat = s.beat ∧ (takeAcct principal s).pwr = s.pwr ∧ (takeAcct principal s).thm = s.thm ∧ (takeAcct principal
      s).hlth = s.hlth ∧ (takeAcct principal s).rime = s.rime ∧ (takeAcct principal s).stns = s.stns ∧ (takeAcct principal s).net = s.net ∧
      (takeAcct principal s).sori = s.sori ∧ (takeAcct principal s).models = s.models ∧ (takeAcct principal s).serve = s.serve ∧ (takeAcct
      principal s).fab = s.fab ∧ (takeAcct principal s).out = s.out ∧ (takeAcct principal s).fresh = s.fresh ∧ (takeAcct principal s).pins =
      s.pins ∧ (takeAcct principal s).pending = s.pending ∧ (takeAcct principal s).boot = s.boot ∧ (takeAcct principal s).flash = s.flash ∧
      (takeAcct principal s).mem = s.mem := by
  unfold takeAcct
  (repeat' split) <;> (try simp) <;> (repeat' split) <;> (try simp) <;> (repeat' split) <;> (try simp_all)

@[simp] theorem setAcct_keeps (principal : Nat) (f : Acct → Acct) (s : State) :
    (setAcct principal f s).beat = s.beat ∧ (setAcct principal f s).pwr = s.pwr ∧ (setAcct principal f s).thm = s.thm ∧ (setAcct principal
      f s).hlth = s.hlth ∧ (setAcct principal f s).rime = s.rime ∧ (setAcct principal f s).stns = s.stns ∧ (setAcct principal f s).net =
      s.net ∧ (setAcct principal f s).sori = s.sori ∧ (setAcct principal f s).models = s.models ∧ (setAcct principal f s).serve = s.serve ∧
      (setAcct principal f s).fab = s.fab ∧ (setAcct principal f s).out = s.out ∧ (setAcct principal f s).fresh = s.fresh ∧ (setAcct
      principal f s).pins = s.pins ∧ (setAcct principal f s).pending = s.pending ∧ (setAcct principal f s).boot = s.boot ∧ (setAcct
      principal f s).flash = s.flash ∧ (setAcct principal f s).mem = s.mem := by
  unfold setAcct
  simp

@[simp] theorem endRequest_keeps (rid : Nat) (state : Nat) (status : Nat) (s : State) :
    (endRequest rid state status s).beat = s.beat ∧ (endRequest rid state status s).pwr = s.pwr ∧ (endRequest rid state status s).thm =
      s.thm ∧ (endRequest rid state status s).hlth = s.hlth ∧ (endRequest rid state status s).rime = s.rime ∧ (endRequest rid state status
      s).stns = s.stns ∧ (endRequest rid state status s).sori = s.sori ∧ (endRequest rid state status s).fab = s.fab ∧ (endRequest rid state
      status s).fresh = s.fresh ∧ (endRequest rid state status s).pins = s.pins ∧ (endRequest rid state status s).pending = s.pending ∧
      (endRequest rid state status s).boot = s.boot ∧ (endRequest rid state status s).flash = s.flash ∧ (endRequest rid state status
      s).mem.cells = s.mem.cells ∧ (endRequest rid state status s).mem.undef = s.mem.undef := by
  unfold endRequest
  (repeat' split) <;> (try simp) <;> (repeat' split) <;> (try simp) <;> (repeat' split) <;> (try simp_all)

@[simp] theorem finishCmd_keeps (c : Cmd) (status : Nat) (commit : Nat) (s : State) :
    (finishCmd c status commit s).beat = s.beat ∧ (finishCmd c status commit s).pwr = s.pwr ∧ (finishCmd c status commit s).thm = s.thm ∧
      (finishCmd c status commit s).hlth = s.hlth ∧ (finishCmd c status commit s).rime = s.rime ∧ (finishCmd c status commit s).stns =
      s.stns ∧ (finishCmd c status commit s).sori = s.sori ∧ (finishCmd c status commit s).models = s.models ∧ (finishCmd c status commit
      s).serve = s.serve ∧ (finishCmd c status commit s).jobs = s.jobs ∧ (finishCmd c status commit s).fab = s.fab ∧ (finishCmd c status
      commit s).fresh = s.fresh ∧ (finishCmd c status commit s).pins = s.pins ∧ (finishCmd c status commit s).pending = s.pending ∧
      (finishCmd c status commit s).boot = s.boot ∧ (finishCmd c status commit s).flash = s.flash ∧ (finishCmd c status commit s).mem =
      s.mem := by
  unfold finishCmd
  simp

@[simp] theorem orphan_keeps (id : Nat) (s : State) :
    (orphan id s).beat = s.beat ∧ (orphan id s).pwr = s.pwr ∧ (orphan id s).thm = s.thm ∧ (orphan id s).hlth = s.hlth ∧ (orphan id s).rime
      = s.rime ∧ (orphan id s).stns = s.stns ∧ (orphan id s).net = s.net ∧ (orphan id s).sori = s.sori ∧ (orphan id s).models = s.models ∧
      (orphan id s).serve = s.serve ∧ (orphan id s).jobs = s.jobs ∧ (orphan id s).out = s.out ∧ (orphan id s).fresh = s.fresh ∧ (orphan id
      s).pins = s.pins ∧ (orphan id s).pending = s.pending ∧ (orphan id s).boot = s.boot ∧ (orphan id s).flash = s.flash ∧ (orphan id s).mem
      = s.mem := by
  unfold orphan
  simp

@[simp] theorem endCmd_keeps (id : Nat) (status : Nat) (s : State) :
    (endCmd id status s).beat = s.beat ∧ (endCmd id status s).pwr = s.pwr ∧ (endCmd id status s).thm = s.thm ∧ (endCmd id status s).hlth =
      s.hlth ∧ (endCmd id status s).rime = s.rime ∧ (endCmd id status s).stns = s.stns ∧ (endCmd id status s).sori = s.sori ∧ (endCmd id
      status s).models = s.models ∧ (endCmd id status s).serve = s.serve ∧ (endCmd id status s).fresh = s.fresh ∧ (endCmd id status s).pins
      = s.pins ∧ (endCmd id status s).pending = s.pending ∧ (endCmd id status s).boot = s.boot ∧ (endCmd id status s).flash = s.flash ∧
      (endCmd id status s).mem = s.mem := by
  unfold endCmd
  (repeat' split) <;> simp

@[simp] theorem endCmdsOf_keeps (n : Nat) (status : Nat) (s : State) :
    (endCmdsOf n status s).beat = s.beat ∧ (endCmdsOf n status s).pwr = s.pwr ∧ (endCmdsOf n status s).thm = s.thm ∧ (endCmdsOf n status
      s).hlth = s.hlth ∧ (endCmdsOf n status s).rime = s.rime ∧ (endCmdsOf n status s).stns = s.stns ∧ (endCmdsOf n status s).sori = s.sori
      ∧ (endCmdsOf n status s).models = s.models ∧ (endCmdsOf n status s).serve = s.serve ∧ (endCmdsOf n status s).fresh = s.fresh ∧
      (endCmdsOf n status s).pins = s.pins ∧ (endCmdsOf n status s).pending = s.pending ∧ (endCmdsOf n status s).boot = s.boot ∧ (endCmdsOf
      n status s).flash = s.flash ∧ (endCmdsOf n status s).mem = s.mem := by
  unfold endCmdsOf
  simp

@[simp] theorem freeHandlesOf_keeps (n : Nat) (s : State) :
    (freeHandlesOf n s).beat = s.beat ∧ (freeHandlesOf n s).pwr = s.pwr ∧ (freeHandlesOf n s).thm = s.thm ∧ (freeHandlesOf n s).hlth =
      s.hlth ∧ (freeHandlesOf n s).rime = s.rime ∧ (freeHandlesOf n s).stns = s.stns ∧ (freeHandlesOf n s).net = s.net ∧ (freeHandlesOf n
      s).sori = s.sori ∧ (freeHandlesOf n s).models = s.models ∧ (freeHandlesOf n s).serve = s.serve ∧ (freeHandlesOf n s).jobs = s.jobs ∧
      (freeHandlesOf n s).fab = s.fab ∧ (freeHandlesOf n s).out = s.out ∧ (freeHandlesOf n s).fresh = s.fresh ∧ (freeHandlesOf n s).pins =
      s.pins ∧ (freeHandlesOf n s).pending = s.pending ∧ (freeHandlesOf n s).boot = s.boot ∧ (freeHandlesOf n s).flash = s.flash ∧
      (freeHandlesOf n s).mem.cells = s.mem.cells ∧ (freeHandlesOf n s).mem.undef = s.mem.undef := by
  unfold freeHandlesOf
  simp

@[simp] theorem dropJobBlocks_keeps (job : Nat) (s : State) :
    (dropJobBlocks job s).beat = s.beat ∧ (dropJobBlocks job s).pwr = s.pwr ∧ (dropJobBlocks job s).thm = s.thm ∧ (dropJobBlocks job
      s).hlth = s.hlth ∧ (dropJobBlocks job s).rime = s.rime ∧ (dropJobBlocks job s).stns = s.stns ∧ (dropJobBlocks job s).net = s.net ∧
      (dropJobBlocks job s).sori = s.sori ∧ (dropJobBlocks job s).models = s.models ∧ (dropJobBlocks job s).serve = s.serve ∧ (dropJobBlocks
      job s).jobs = s.jobs ∧ (dropJobBlocks job s).out = s.out ∧ (dropJobBlocks job s).fresh = s.fresh ∧ (dropJobBlocks job s).pins = s.pins
      ∧ (dropJobBlocks job s).pending = s.pending ∧ (dropJobBlocks job s).boot = s.boot ∧ (dropJobBlocks job s).flash = s.flash ∧
      (dropJobBlocks job s).mem = s.mem := by
  unfold dropJobBlocks
  simp

@[simp] theorem endMove_keeps (h : Handle) (status : Nat) (s : State) :
    (endMove h status s).beat = s.beat ∧ (endMove h status s).pwr = s.pwr ∧ (endMove h status s).thm = s.thm ∧ (endMove h status s).hlth =
      s.hlth ∧ (endMove h status s).rime = s.rime ∧ (endMove h status s).stns = s.stns ∧ (endMove h status s).sori = s.sori ∧ (endMove h
      status s).models = s.models ∧ (endMove h status s).serve = s.serve ∧ (endMove h status s).fresh = s.fresh ∧ (endMove h status s).pins
      = s.pins ∧ (endMove h status s).pending = s.pending ∧ (endMove h status s).boot = s.boot ∧ (endMove h status s).flash = s.flash ∧
      (endMove h status s).mem = s.mem := by
  unfold endMove
  split <;> simp

@[simp] theorem endWaits_keeps (n : Nat) (status : Nat) (s : State) :
    (endWaits n status s).beat = s.beat ∧ (endWaits n status s).pwr = s.pwr ∧ (endWaits n status s).thm = s.thm ∧ (endWaits n status
      s).hlth = s.hlth ∧ (endWaits n status s).rime = s.rime ∧ (endWaits n status s).stns = s.stns ∧ (endWaits n status s).sori = s.sori ∧
      (endWaits n status s).models = s.models ∧ (endWaits n status s).serve = s.serve ∧ (endWaits n status s).fresh = s.fresh ∧ (endWaits n
      status s).pins = s.pins ∧ (endWaits n status s).pending = s.pending ∧ (endWaits n status s).boot = s.boot ∧ (endWaits n status
      s).flash = s.flash ∧ (endWaits n status s).mem.cells = s.mem.cells ∧ (endWaits n status s).mem.undef = s.mem.undef := by
  unfold endWaits
  simp

@[simp] theorem dropStaged_keeps (n : Nat) (s : State) :
    (dropStaged n s).beat = s.beat ∧ (dropStaged n s).pwr = s.pwr ∧ (dropStaged n s).thm = s.thm ∧ (dropStaged n s).hlth = s.hlth ∧
      (dropStaged n s).rime = s.rime ∧ (dropStaged n s).stns = s.stns ∧ (dropStaged n s).sori = s.sori ∧ (dropStaged n s).models = s.models
      ∧ (dropStaged n s).serve = s.serve ∧ (dropStaged n s).fresh = s.fresh ∧ (dropStaged n s).pins = s.pins ∧ (dropStaged n s).pending =
      s.pending ∧ (dropStaged n s).boot = s.boot ∧ (dropStaged n s).flash = s.flash ∧ (dropStaged n s).mem = s.mem := by
  unfold dropStaged
  simp

@[simp] theorem tearDown_keeps (n : Nat) (s : State) :
    (tearDown n s).beat = s.beat ∧ (tearDown n s).thm = s.thm ∧ (tearDown n s).hlth = s.hlth ∧ (tearDown n s).rime = s.rime ∧ (tearDown n
      s).stns = s.stns ∧ (tearDown n s).sori = s.sori ∧ (tearDown n s).models = s.models ∧ (tearDown n s).serve = s.serve ∧ (tearDown n
      s).fresh = s.fresh ∧ (tearDown n s).pins = s.pins ∧ (tearDown n s).pending = s.pending ∧ (tearDown n s).boot = s.boot ∧ (tearDown n
      s).flash = s.flash ∧ (tearDown n s).mem.cells = s.mem.cells ∧ (tearDown n s).mem.undef = s.mem.undef := by
  unfold tearDown
  (repeat' split) <;> simp

@[simp] theorem noteFault_keeps (n : Nat) (cause : Nat) (source : Nat) (seq : Nat) (mark : Nat) (s : State) :
    (noteFault n cause source seq mark s).beat = s.beat ∧ (noteFault n cause source seq mark s).pwr = s.pwr ∧ (noteFault n cause source
      seq mark s).thm = s.thm ∧ (noteFault n cause source seq mark s).hlth = s.hlth ∧ (noteFault n cause source seq mark s).stns = s.stns ∧
      (noteFault n cause source seq mark s).net = s.net ∧ (noteFault n cause source seq mark s).sori = s.sori ∧ (noteFault n cause source
      seq mark s).models = s.models ∧ (noteFault n cause source seq mark s).serve = s.serve ∧ (noteFault n cause source seq mark s).fab =
      s.fab ∧ (noteFault n cause source seq mark s).out = s.out ∧ (noteFault n cause source seq mark s).fresh = s.fresh ∧ (noteFault n cause
      source seq mark s).pins = s.pins ∧ (noteFault n cause source seq mark s).pending = s.pending ∧ (noteFault n cause source seq mark
      s).boot = s.boot ∧ (noteFault n cause source seq mark s).flash.counters = s.flash.counters ∧ (noteFault n cause source seq mark
      s).flash.install = s.flash.install ∧ (noteFault n cause source seq mark s).flash.serial = s.flash.serial ∧ (noteFault n cause source
      seq mark s).mem = s.mem := by
  unfold noteFault
  simp

@[simp] theorem contextFault_keeps (id : Nat) (cause : Nat) (code : Nat) (item : Option Nat) (s : State) :
    (contextFault id cause code item s).beat = s.beat ∧ (contextFault id cause code item s).thm = s.thm ∧ (contextFault id cause code item s).hlth
      = s.hlth ∧ (contextFault id cause code item s).stns = s.stns ∧ (contextFault id cause code item s).sori = s.sori ∧ (contextFault id cause code item s).fresh = s.fresh ∧ (contextFault id cause code item s).pins = s.pins ∧ (contextFault id cause code item s).pending = s.pending ∧
      (contextFault id cause code item s).boot = s.boot ∧ (contextFault id cause code item s).flash.counters = s.flash.counters ∧ (contextFault id cause code item s).flash.install = s.flash.install ∧ (contextFault id cause code item s).flash.serial = s.flash.serial ∧ (contextFault id cause code item s).mem.cells = s.mem.cells ∧ (contextFault id cause code item s).mem.undef = s.mem.undef := by
  unfold contextFault
  (repeat' split) <;> simp

@[simp] theorem contextFaultAt_keeps (id : Nat) (cause : Nat) (code : Nat) (s : State) :
    (contextFaultAt id cause code s).beat = s.beat ∧ (contextFaultAt id cause code s).thm = s.thm ∧ (contextFaultAt id cause code s).hlth
      = s.hlth ∧ (contextFaultAt id cause code s).stns = s.stns ∧ (contextFaultAt id cause code s).sori = s.sori ∧ (contextFaultAt id cause
      code s).fresh = s.fresh ∧ (contextFaultAt id cause code s).pins = s.pins ∧ (contextFaultAt id cause code s).pending = s.pending ∧
      (contextFaultAt id cause code s).boot = s.boot ∧ (contextFaultAt id cause code s).flash.counters = s.flash.counters ∧ (contextFaultAt
      id cause code s).flash.install = s.flash.install ∧ (contextFaultAt id cause code s).flash.serial = s.flash.serial ∧ (contextFaultAt id
      cause code s).mem.cells = s.mem.cells ∧ (contextFaultAt id cause code s).mem.undef = s.mem.undef := by
  unfold contextFaultAt
  simp

@[simp] theorem setSorus_keeps (id : Nat) (f : Sorus → Sorus) (s : State) :
    (setSorus id f s).beat = s.beat ∧ (setSorus id f s).pwr = s.pwr ∧ (setSorus id f s).thm = s.thm ∧ (setSorus id f s).hlth = s.hlth ∧
      (setSorus id f s).rime = s.rime ∧ (setSorus id f s).stns = s.stns ∧ (setSorus id f s).net = s.net ∧ (setSorus id f s).models =
      s.models ∧ (setSorus id f s).serve = s.serve ∧ (setSorus id f s).jobs = s.jobs ∧ (setSorus id f s).fab = s.fab ∧ (setSorus id f s).out
      = s.out ∧ (setSorus id f s).fresh = s.fresh ∧ (setSorus id f s).pins = s.pins ∧ (setSorus id f s).pending = s.pending ∧ (setSorus id f
      s).boot = s.boot ∧ (setSorus id f s).flash = s.flash ∧ (setSorus id f s).mem = s.mem := by
  unfold setSorus
  simp

@[simp] theorem abortSorus_keeps (id : Nat) (failPkg : Nat) (failIndex : Nat) (failStatus : Nat) (s : State) :
    (abortSorus id failPkg failIndex failStatus s).beat = s.beat ∧ (abortSorus id failPkg failIndex failStatus s).pwr = s.pwr ∧
      (abortSorus id failPkg failIndex failStatus s).thm = s.thm ∧ (abortSorus id failPkg failIndex failStatus s).hlth = s.hlth ∧
      (abortSorus id failPkg failIndex failStatus s).rime = s.rime ∧ (abortSorus id failPkg failIndex failStatus s).stns = s.stns ∧
      (abortSorus id failPkg failIndex failStatus s).models = s.models ∧ (abortSorus id failPkg failIndex failStatus s).serve = s.serve ∧
      (abortSorus id failPkg failIndex failStatus s).jobs = s.jobs ∧ (abortSorus id failPkg failIndex failStatus s).fab = s.fab ∧
      (abortSorus id failPkg failIndex failStatus s).fresh = s.fresh ∧ (abortSorus id failPkg failIndex failStatus s).pins = s.pins ∧
      (abortSorus id failPkg failIndex failStatus s).pending = s.pending ∧ (abortSorus id failPkg failIndex failStatus s).boot = s.boot ∧
      (abortSorus id failPkg failIndex failStatus s).flash = s.flash ∧ (abortSorus id failPkg failIndex failStatus s).mem.cells =
      s.mem.cells ∧ (abortSorus id failPkg failIndex failStatus s).mem.undef = s.mem.undef := by
  unfold abortSorus
  (repeat' split) <;> (try simp (disch := ((try intros); (repeat' split) <;> (try simp)))) <;> (repeat' split) <;> (try simp (disch := ((try intros); (repeat' split) <;> (try simp)))) <;> (repeat' split) <;> (try simp_all)

@[simp] theorem stage_keeps (i : Instr) (h : Hdr) (g : Gate) (fault : Option (Nat × Nat)) (s : State) :
    (stage i h g fault s).beat = s.beat ∧ (stage i h g fault s).pwr = s.pwr ∧ (stage i h g fault s).thm = s.thm ∧ (stage i h g fault
      s).hlth = s.hlth ∧ (stage i h g fault s).rime = s.rime ∧ (stage i h g fault s).stns = s.stns ∧ (stage i h g fault s).models = s.models
      ∧ (stage i h g fault s).serve = s.serve ∧ (stage i h g fault s).jobs = s.jobs ∧ (stage i h g fault s).fab = s.fab ∧ (stage i h g fault
      s).fresh = s.fresh ∧ (stage i h g fault s).pins = s.pins ∧ (stage i h g fault s).pending = s.pending ∧ (stage i h g fault s).boot =
      s.boot ∧ (stage i h g fault s).flash = s.flash ∧ (stage i h g fault s).mem.cells = s.mem.cells ∧ (stage i h g fault s).mem.undef =
      s.mem.undef := by
  unfold stage
  (repeat' split) <;> simp

end Sys2Proof.Machine
end

