-- ==== Sys2Proof/Laws/Frames.lean ====
section
/-! SUPPORT. The frame of each shared operation of the families' files: the parts of the state that it leaves alone. `f_keeps`
says it of the operation `f`; the provers cite it instead of unfolding `f`. -/
set_option maxHeartbeats 1000000
set_option linter.unusedSimpArgs false
set_option linter.unusedTactic false
set_option linter.unreachableTactic false
set_option linter.unnecessarySeqFocus false
namespace Sys2Proof.Machine

@[simp] theorem takeRegion_keeps (tier : Nat) (base : Nat) (n : Nat) (o : Owner) (s : State) :
    (takeRegion tier base n o s).beat = s.beat ∧ (takeRegion tier base n o s).pwr = s.pwr ∧ (takeRegion tier base n o s).thm = s.thm ∧
      (takeRegion tier base n o s).hlth = s.hlth ∧ (takeRegion tier base n o s).rime = s.rime ∧ (takeRegion tier base n o s).stns = s.stns ∧
      (takeRegion tier base n o s).net = s.net ∧ (takeRegion tier base n o s).sori = s.sori ∧ (takeRegion tier base n o s).models = s.models
      ∧ (takeRegion tier base n o s).serve = s.serve ∧ (takeRegion tier base n o s).jobs = s.jobs ∧ (takeRegion tier base n o s).fab = s.fab
      ∧ (takeRegion tier base n o s).out = s.out ∧ (takeRegion tier base n o s).fresh = s.fresh ∧ (takeRegion tier base n o s).pins = s.pins
      ∧ (takeRegion tier base n o s).pending = s.pending ∧ (takeRegion tier base n o s).boot = s.boot ∧ (takeRegion tier base n o s).flash =
      s.flash ∧ (takeRegion tier base n o s).mem.cells = s.mem.cells ∧ (takeRegion tier base n o s).mem.undef = s.mem.undef := by
  unfold takeRegion
  simp

@[simp] theorem evictPaused_keeps (rid : Nat) (s : State) :
    (evictPaused rid s).beat = s.beat ∧ (evictPaused rid s).pwr = s.pwr ∧ (evictPaused rid s).thm = s.thm ∧ (evictPaused rid s).hlth =
      s.hlth ∧ (evictPaused rid s).rime = s.rime ∧ (evictPaused rid s).stns = s.stns ∧ (evictPaused rid s).net = s.net ∧ (evictPaused rid
      s).sori = s.sori ∧ (evictPaused rid s).jobs = s.jobs ∧ (evictPaused rid s).fab = s.fab ∧ (evictPaused rid s).out = s.out ∧
      (evictPaused rid s).fresh = s.fresh ∧ (evictPaused rid s).pins = s.pins ∧ (evictPaused rid s).pending = s.pending ∧ (evictPaused rid
      s).boot = s.boot ∧ (evictPaused rid s).flash = s.flash ∧ (evictPaused rid s).mem.cells = s.mem.cells ∧ (evictPaused rid s).mem.undef =
      s.mem.undef := by
  unfold evictPaused
  simp

theorem makeRoomLp_keeps (account : Option Nat) (n : Nat) (x1 : Nat) (x2 : State) :
    ∀ t, makeRoomLp account n x1 x2 = some t → t.beat = x2.beat ∧ t.pwr = x2.pwr ∧ t.thm = x2.thm ∧ t.hlth = x2.hlth ∧ t.rime = x2.rime ∧
      t.stns = x2.stns ∧ t.net = x2.net ∧ t.sori = x2.sori ∧ t.jobs = x2.jobs ∧ t.fab = x2.fab ∧ t.out = x2.out ∧ t.fresh = x2.fresh ∧
      t.pins = x2.pins ∧ t.pending = x2.pending ∧ t.boot = x2.boot ∧ t.flash = x2.flash ∧ t.mem.cells = x2.mem.cells ∧ t.mem.undef =
      x2.mem.undef := by
  induction x1 generalizing x2 with
  | zero => unfold makeRoomLp; split <;> simp
  | succ k ih =>
    unfold makeRoomLp
    split
    · simp
    · split
      · simp
      · intro t h
        simpa using ih _ t h

@[simp] theorem retireRegion_keeps (base : Nat) (pinned : List Nat) (s : State) :
    (retireRegion base pinned s).beat = s.beat ∧ (retireRegion base pinned s).pwr = s.pwr ∧ (retireRegion base pinned s).thm = s.thm ∧
      (retireRegion base pinned s).hlth = s.hlth ∧ (retireRegion base pinned s).rime = s.rime ∧ (retireRegion base pinned s).stns = s.stns ∧
      (retireRegion base pinned s).net = s.net ∧ (retireRegion base pinned s).sori = s.sori ∧ (retireRegion base pinned s).models = s.models
      ∧ (retireRegion base pinned s).serve = s.serve ∧ (retireRegion base pinned s).jobs = s.jobs ∧ (retireRegion base pinned s).fab = s.fab
      ∧ (retireRegion base pinned s).out = s.out ∧ (retireRegion base pinned s).fresh = s.fresh ∧ (retireRegion base pinned s).pins = s.pins
      ∧ (retireRegion base pinned s).pending = s.pending ∧ (retireRegion base pinned s).boot = s.boot ∧ (retireRegion base pinned s).flash =
      s.flash ∧ (retireRegion base pinned s).mem.cells = s.mem.cells ∧ (retireRegion base pinned s).mem.undef = s.mem.undef := by
  unfold retireRegion
  simp

@[simp] theorem repoint_keeps (modelId : Nat) (old : Nat) (new : Nat) (s : State) :
    (repoint modelId old new s).beat = s.beat ∧ (repoint modelId old new s).pwr = s.pwr ∧ (repoint modelId old new s).thm = s.thm ∧
      (repoint modelId old new s).hlth = s.hlth ∧ (repoint modelId old new s).rime = s.rime ∧ (repoint modelId old new s).stns = s.stns ∧
      (repoint modelId old new s).net = s.net ∧ (repoint modelId old new s).sori = s.sori ∧ (repoint modelId old new s).serve = s.serve ∧
      (repoint modelId old new s).jobs = s.jobs ∧ (repoint modelId old new s).fab = s.fab ∧ (repoint modelId old new s).out = s.out ∧
      (repoint modelId old new s).fresh = s.fresh ∧ (repoint modelId old new s).pins = s.pins ∧ (repoint modelId old new s).pending =
      s.pending ∧ (repoint modelId old new s).boot = s.boot ∧ (repoint modelId old new s).flash = s.flash ∧ (repoint modelId old new s).mem
      = s.mem := by
  unfold repoint
  simp

@[simp] theorem startLim_keeps (l : LimMove) (s : State) :
    (startLim l s).beat = s.beat ∧ (startLim l s).pwr = s.pwr ∧ (startLim l s).thm = s.thm ∧ (startLim l s).hlth = s.hlth ∧ (startLim l
      s).rime = s.rime ∧ (startLim l s).stns = s.stns ∧ (startLim l s).net = s.net ∧ (startLim l s).sori = s.sori ∧ (startLim l s).models =
      s.models ∧ (startLim l s).serve = s.serve ∧ (startLim l s).jobs = s.jobs ∧ (startLim l s).fab = s.fab ∧ (startLim l s).out = s.out ∧
      (startLim l s).fresh = s.fresh ∧ (startLim l s).pins = s.pins ∧ (startLim l s).pending = s.pending ∧ (startLim l s).boot = s.boot ∧
      (startLim l s).flash = s.flash ∧ (startLim l s).mem.cells = s.mem.cells ∧ (startLim l s).mem.undef = s.mem.undef := by
  unfold startLim
  first
  | (simp; done)
  | ((repeat' split) <;> simp; done)
  | ((repeat' split) <;> (try simp) <;> (repeat' split) <;> (try simp) <;> (repeat' split) <;> (try simp_all); done)

theorem makeRoomHbm_keeps (account : Option Nat) (n : Nat) (x1 : Nat) (x2 : State) :
    ∀ t, makeRoomHbm account n x1 x2 = some t → t.beat = x2.beat ∧ t.pwr = x2.pwr ∧ t.thm = x2.thm ∧ t.hlth = x2.hlth ∧ t.rime = x2.rime ∧
      t.stns = x2.stns ∧ t.net = x2.net ∧ t.sori = x2.sori ∧ t.jobs = x2.jobs ∧ t.fab = x2.fab ∧ t.out = x2.out ∧ t.fresh = x2.fresh ∧
      t.pins = x2.pins ∧ t.pending = x2.pending ∧ t.boot = x2.boot ∧ t.flash = x2.flash ∧ t.mem.undef = x2.mem.undef := by
  induction x1 generalizing x2 with
  | zero => unfold makeRoomHbm; split <;> simp
  | succ k ih =>
    unfold makeRoomHbm
    split
    · simp
    · split
      · simp
      · split
        · simp
        · rename_i u hu
          have h0 := makeRoomLp_keeps _ _ _ _ _ hu
          split
          · simp
          · intro t h
            have h1 := ih _ t h
            simp at h1
            simp_all

theorem demandRoom_keeps (tier : Nat) (account : Option Nat) (n : Nat) (s : State) :
    (∀ b t, demandRoom tier account n s = .now b t → t.beat = s.beat ∧ t.pwr = s.pwr ∧ t.thm = s.thm ∧ t.hlth = s.hlth ∧ t.rime = s.rime ∧
      t.stns = s.stns ∧ t.net = s.net ∧ t.sori = s.sori ∧ t.jobs = s.jobs ∧ t.fab = s.fab ∧ t.out = s.out ∧ t.fresh = s.fresh ∧ t.pins =
      s.pins ∧ t.pending = s.pending ∧ t.boot = s.boot ∧ t.flash = s.flash ∧ t.mem.undef = s.mem.undef) ∧ (∀ t, demandRoom tier account n s
      = .later t → t.beat = s.beat ∧ t.pwr = s.pwr ∧ t.thm = s.thm ∧ t.hlth = s.hlth ∧ t.rime = s.rime ∧ t.stns = s.stns ∧ t.net = s.net ∧
      t.sori = s.sori ∧ t.jobs = s.jobs ∧ t.fab = s.fab ∧ t.out = s.out ∧ t.fresh = s.fresh ∧ t.pins = s.pins ∧ t.pending = s.pending ∧
      t.boot = s.boot ∧ t.flash = s.flash ∧ t.mem.undef = s.mem.undef) := by
  unfold demandRoom
  split
  · simp
  · dsimp only
    split
    · split <;> simp
    · rename_i u hu
      have h0 := hu
      split at h0
      · have h1 := makeRoomLp_keeps _ _ _ _ _ h0
        split <;> simp_all
      · have h1 := makeRoomHbm_keeps _ _ _ _ _ h0
        split <;> simp_all

@[simp] theorem freeOldRegions_keeps (s : State) :
    (freeOldRegions s).beat = s.beat ∧ (freeOldRegions s).pwr = s.pwr ∧ (freeOldRegions s).thm = s.thm ∧ (freeOldRegions s).hlth = s.hlth
      ∧ (freeOldRegions s).rime = s.rime ∧ (freeOldRegions s).stns = s.stns ∧ (freeOldRegions s).net = s.net ∧ (freeOldRegions s).sori =
      s.sori ∧ (freeOldRegions s).models = s.models ∧ (freeOldRegions s).serve = s.serve ∧ (freeOldRegions s).jobs = s.jobs ∧
      (freeOldRegions s).fab = s.fab ∧ (freeOldRegions s).out = s.out ∧ (freeOldRegions s).fresh = s.fresh ∧ (freeOldRegions s).pins =
      s.pins ∧ (freeOldRegions s).pending = s.pending ∧ (freeOldRegions s).boot = s.boot ∧ (freeOldRegions s).flash = s.flash ∧
      (freeOldRegions s).mem.cells = s.mem.cells ∧ (freeOldRegions s).mem.undef = s.mem.undef := by
  unfold freeOldRegions
  simp

@[simp] theorem enterHeld_keeps (e : Rec) (s : State) :
    (enterHeld e s).beat = s.beat ∧ (enterHeld e s).pwr = s.pwr ∧ (enterHeld e s).thm = s.thm ∧ (enterHeld e s).hlth = s.hlth ∧ (enterHeld
      e s).stns = s.stns ∧ (enterHeld e s).net = s.net ∧ (enterHeld e s).sori = s.sori ∧ (enterHeld e s).models = s.models ∧ (enterHeld e
      s).serve = s.serve ∧ (enterHeld e s).jobs = s.jobs ∧ (enterHeld e s).fab = s.fab ∧ (enterHeld e s).out = s.out ∧ (enterHeld e s).fresh
      = s.fresh ∧ (enterHeld e s).pins = s.pins ∧ (enterHeld e s).pending = s.pending ∧ (enterHeld e s).boot = s.boot ∧ (enterHeld e
      s).flash.counters = s.flash.counters ∧ (enterHeld e s).flash.install = s.flash.install ∧ (enterHeld e s).flash.serial = s.flash.serial
      ∧ (enterHeld e s).mem = s.mem := by
  unfold enterHeld
  simp

@[simp] theorem endFreeze_keeps (s : State) :
    (endFreeze s).beat = s.beat ∧ (endFreeze s).pwr = s.pwr ∧ (endFreeze s).thm = s.thm ∧ (endFreeze s).hlth = s.hlth ∧ (endFreeze s).stns
      = s.stns ∧ (endFreeze s).net = s.net ∧ (endFreeze s).sori = s.sori ∧ (endFreeze s).models = s.models ∧ (endFreeze s).serve = s.serve ∧
      (endFreeze s).jobs = s.jobs ∧ (endFreeze s).fab = s.fab ∧ (endFreeze s).out = s.out ∧ (endFreeze s).fresh = s.fresh ∧ (endFreeze
      s).pins = s.pins ∧ (endFreeze s).pending = s.pending ∧ (endFreeze s).boot = s.boot ∧ (endFreeze s).flash.counters = s.flash.counters ∧
      (endFreeze s).flash.install = s.flash.install ∧ (endFreeze s).flash.serial = s.flash.serial ∧ (endFreeze s).mem = s.mem := by
  unfold endFreeze
  (repeat' split) <;> (try simp) <;> (repeat' split) <;> (try simp) <;> (repeat' split) <;> (try simp_all)

@[simp] theorem clearRecorder_keeps (principal : Nat) (s : State) :
    (clearRecorder principal s).beat = s.beat ∧ (clearRecorder principal s).pwr = s.pwr ∧ (clearRecorder principal s).thm = s.thm ∧
      (clearRecorder principal s).hlth = s.hlth ∧ (clearRecorder principal s).stns = s.stns ∧ (clearRecorder principal s).net = s.net ∧
      (clearRecorder principal s).sori = s.sori ∧ (clearRecorder principal s).models = s.models ∧ (clearRecorder principal s).serve =
      s.serve ∧ (clearRecorder principal s).jobs = s.jobs ∧ (clearRecorder principal s).fab = s.fab ∧ (clearRecorder principal s).out =
      s.out ∧ (clearRecorder principal s).fresh = s.fresh ∧ (clearRecorder principal s).pins = s.pins ∧ (clearRecorder principal s).pending
      = s.pending ∧ (clearRecorder principal s).boot = s.boot ∧ (clearRecorder principal s).flash.counters = s.flash.counters ∧
      (clearRecorder principal s).flash.install = s.flash.install ∧ (clearRecorder principal s).flash.serial = s.flash.serial ∧
      (clearRecorder principal s).mem = s.mem := by
  unfold clearRecorder
  simp

@[simp] theorem destroyCtx_keeps (n : Nat) (s : State) :
    (destroyCtx n s).beat = s.beat ∧ (destroyCtx n s).thm = s.thm ∧ (destroyCtx n s).hlth = s.hlth ∧ (destroyCtx n s).rime = s.rime ∧
      (destroyCtx n s).stns = s.stns ∧ (destroyCtx n s).sori = s.sori ∧ (destroyCtx n s).models = s.models ∧ (destroyCtx n s).serve =
      s.serve ∧ (destroyCtx n s).fresh = s.fresh ∧ (destroyCtx n s).pins = s.pins ∧ (destroyCtx n s).pending = s.pending ∧ (destroyCtx n
      s).boot = s.boot ∧ (destroyCtx n s).flash = s.flash ∧ (destroyCtx n s).mem.cells = s.mem.cells ∧ (destroyCtx n s).mem.undef =
      s.mem.undef := by
  unfold destroyCtx
  (repeat' split) <;> simp

@[simp] theorem losePrincipal_keeps (p : Nat) (s : State) :
    (losePrincipal p s).beat = s.beat ∧ (losePrincipal p s).thm = s.thm ∧ (losePrincipal p s).hlth = s.hlth ∧ (losePrincipal p s).rime =
      s.rime ∧ (losePrincipal p s).stns = s.stns ∧ (losePrincipal p s).sori = s.sori ∧ (losePrincipal p s).fresh = s.fresh ∧ (losePrincipal
      p s).pins = s.pins ∧ (losePrincipal p s).pending = s.pending ∧ (losePrincipal p s).boot = s.boot ∧ (losePrincipal p s).flash = s.flash
      ∧ (losePrincipal p s).mem.cells = s.mem.cells ∧ (losePrincipal p s).mem.undef = s.mem.undef := by
  unfold losePrincipal
  simp

@[simp] theorem sendDecision_keeps (x : Sorus) (commit : Bool) (s : State) :
    (sendDecision x commit s).beat = s.beat ∧ (sendDecision x commit s).pwr = s.pwr ∧ (sendDecision x commit s).thm = s.thm ∧
      (sendDecision x commit s).hlth = s.hlth ∧ (sendDecision x commit s).rime = s.rime ∧ (sendDecision x commit s).stns = s.stns ∧
      (sendDecision x commit s).net = s.net ∧ (sendDecision x commit s).sori = s.sori ∧ (sendDecision x commit s).models = s.models ∧
      (sendDecision x commit s).serve = s.serve ∧ (sendDecision x commit s).jobs = s.jobs ∧ (sendDecision x commit s).fab = s.fab ∧
      (sendDecision x commit s).fresh = s.fresh ∧ (sendDecision x commit s).pins = s.pins ∧ (sendDecision x commit s).pending = s.pending ∧
      (sendDecision x commit s).boot = s.boot ∧ (sendDecision x commit s).flash = s.flash ∧ (sendDecision x commit s).mem = s.mem := by
  unfold sendDecision
  first
  | (simp; done)
  | grind

@[simp] theorem orphanSorus_keeps (x : Sorus) (s : State) :
    (orphanSorus x s).beat = s.beat ∧ (orphanSorus x s).pwr = s.pwr ∧ (orphanSorus x s).thm = s.thm ∧ (orphanSorus x s).hlth = s.hlth ∧
      (orphanSorus x s).rime = s.rime ∧ (orphanSorus x s).stns = s.stns ∧ (orphanSorus x s).models = s.models ∧ (orphanSorus x s).serve =
      s.serve ∧ (orphanSorus x s).jobs = s.jobs ∧ (orphanSorus x s).fab = s.fab ∧ (orphanSorus x s).fresh = s.fresh ∧ (orphanSorus x s).pins
      = s.pins ∧ (orphanSorus x s).pending = s.pending ∧ (orphanSorus x s).boot = s.boot ∧ (orphanSorus x s).flash = s.flash ∧ (orphanSorus
      x s).mem.cells = s.mem.cells ∧ (orphanSorus x s).mem.undef = s.mem.undef := by
  unfold orphanSorus
  first
  | (simp; done)
  | ((repeat' split) <;> simp; done)
  | ((repeat' split) <;> (try simp) <;> (repeat' split) <;> (try simp) <;> (repeat' split) <;> (try simp_all); done)

@[simp] theorem closeSession_keeps (sid : Nat) (s : State) :
    (closeSession sid s).beat = s.beat ∧ (closeSession sid s).pwr = s.pwr ∧ (closeSession sid s).thm = s.thm ∧ (closeSession sid s).hlth =
      s.hlth ∧ (closeSession sid s).stns = s.stns ∧ (closeSession sid s).models = s.models ∧ (closeSession sid s).serve = s.serve ∧
      (closeSession sid s).jobs = s.jobs ∧ (closeSession sid s).fab = s.fab ∧ (closeSession sid s).fresh = s.fresh ∧ (closeSession sid
      s).pins = s.pins ∧ (closeSession sid s).pending = s.pending ∧ (closeSession sid s).boot = s.boot ∧ (closeSession sid s).flash.counters
      = s.flash.counters ∧ (closeSession sid s).flash.install = s.flash.install ∧ (closeSession sid s).flash.serial = s.flash.serial ∧
      (closeSession sid s).mem.cells = s.mem.cells ∧ (closeSession sid s).mem.undef = s.mem.undef := by
  unfold closeSession
  (repeat' split) <;> (try simp) <;> (repeat' split) <;> (try simp) <;> (repeat' split) <;> (try simp_all)

@[simp] theorem openSession_keeps (h : Hdr) (sid : Nat) (principal : Nat) (roles : Nat) (s : State) :
    (openSession h sid principal roles s).beat = s.beat ∧ (openSession h sid principal roles s).pwr = s.pwr ∧ (openSession h sid principal
      roles s).thm = s.thm ∧ (openSession h sid principal roles s).hlth = s.hlth ∧ (openSession h sid principal roles s).rime = s.rime ∧
      (openSession h sid principal roles s).stns = s.stns ∧ (openSession h sid principal roles s).sori = s.sori ∧ (openSession h sid
      principal roles s).models = s.models ∧ (openSession h sid principal roles s).serve = s.serve ∧ (openSession h sid principal roles
      s).jobs = s.jobs ∧ (openSession h sid principal roles s).fab = s.fab ∧ (openSession h sid principal roles s).out = s.out ∧
      (openSession h sid principal roles s).fresh = s.fresh ∧ (openSession h sid principal roles s).pins = s.pins ∧ (openSession h sid
      principal roles s).pending = s.pending ∧ (openSession h sid principal roles s).boot = s.boot ∧ (openSession h sid principal roles
      s).flash = s.flash ∧ (openSession h sid principal roles s).mem = s.mem := by
  unfold openSession
  simp

@[simp] theorem flushEvents_keeps (sid : Nat) (principal : Nat) (s : State) :
    (flushEvents sid principal s).beat = s.beat ∧ (flushEvents sid principal s).pwr = s.pwr ∧ (flushEvents sid principal s).thm = s.thm ∧
      (flushEvents sid principal s).hlth = s.hlth ∧ (flushEvents sid principal s).rime = s.rime ∧ (flushEvents sid principal s).stns =
      s.stns ∧ (flushEvents sid principal s).sori = s.sori ∧ (flushEvents sid principal s).models = s.models ∧ (flushEvents sid principal
      s).serve = s.serve ∧ (flushEvents sid principal s).jobs = s.jobs ∧ (flushEvents sid principal s).fab = s.fab ∧ (flushEvents sid
      principal s).fresh = s.fresh ∧ (flushEvents sid principal s).pins = s.pins ∧ (flushEvents sid principal s).pending = s.pending ∧
      (flushEvents sid principal s).boot = s.boot ∧ (flushEvents sid principal s).flash = s.flash ∧ (flushEvents sid principal s).mem =
      s.mem := by
  unfold flushEvents
  first
  | (simp; done)
  | ((repeat' split) <;> simp; done)
  | ((repeat' split) <;> (try simp) <;> (repeat' split) <;> (try simp) <;> (repeat' split) <;> (try simp_all); done)

@[simp] theorem openPhase0_keeps (h : Hdr) (spdm : SpdmStep) (s : State) :
    (openPhase0 h spdm s).beat = s.beat ∧ (openPhase0 h spdm s).pwr = s.pwr ∧ (openPhase0 h spdm s).thm = s.thm ∧ (openPhase0 h spdm
      s).hlth = s.hlth ∧ (openPhase0 h spdm s).rime = s.rime ∧ (openPhase0 h spdm s).stns = s.stns ∧ (openPhase0 h spdm s).sori = s.sori ∧
      (openPhase0 h spdm s).models = s.models ∧ (openPhase0 h spdm s).serve = s.serve ∧ (openPhase0 h spdm s).jobs = s.jobs ∧ (openPhase0 h
      spdm s).fab = s.fab ∧ (openPhase0 h spdm s).fresh = s.fresh ∧ (openPhase0 h spdm s).pins = s.pins ∧ (openPhase0 h spdm s).pending =
      s.pending ∧ (openPhase0 h spdm s).boot = s.boot ∧ (openPhase0 h spdm s).flash = s.flash ∧ (openPhase0 h spdm s).mem = s.mem := by
  unfold openPhase0
  (repeat' split) <;> simp

@[simp] theorem takePtp_keeps (s : State) :
    (takePtp s).pwr = s.pwr ∧ (takePtp s).thm = s.thm ∧ (takePtp s).hlth = s.hlth ∧ (takePtp s).rime = s.rime ∧ (takePtp s).stns = s.stns
      ∧ (takePtp s).net = s.net ∧ (takePtp s).sori = s.sori ∧ (takePtp s).models = s.models ∧ (takePtp s).serve = s.serve ∧ (takePtp s).jobs
      = s.jobs ∧ (takePtp s).fab = s.fab ∧ (takePtp s).out = s.out ∧ (takePtp s).fresh = s.fresh ∧ (takePtp s).pins = s.pins ∧ (takePtp
      s).pending = s.pending ∧ (takePtp s).boot = s.boot ∧ (takePtp s).flash = s.flash ∧ (takePtp s).mem = s.mem := by
  unfold takePtp
  simp

@[simp] theorem losePtp_keeps (s : State) :
    (losePtp s).pwr = s.pwr ∧ (losePtp s).thm = s.thm ∧ (losePtp s).hlth = s.hlth ∧ (losePtp s).rime = s.rime ∧ (losePtp s).stns = s.stns
      ∧ (losePtp s).net = s.net ∧ (losePtp s).sori = s.sori ∧ (losePtp s).models = s.models ∧ (losePtp s).serve = s.serve ∧ (losePtp s).jobs
      = s.jobs ∧ (losePtp s).fab = s.fab ∧ (losePtp s).out = s.out ∧ (losePtp s).fresh = s.fresh ∧ (losePtp s).pins = s.pins ∧ (losePtp
      s).pending = s.pending ∧ (losePtp s).boot = s.boot ∧ (losePtp s).flash = s.flash ∧ (losePtp s).mem = s.mem := by
  unfold losePtp
  simp

@[simp] theorem awaitEdge_keeps (session : Nat) (tag : Nat) (second : Nat) (s : State) :
    (awaitEdge session tag second s).pwr = s.pwr ∧ (awaitEdge session tag second s).thm = s.thm ∧ (awaitEdge session tag second s).hlth =
      s.hlth ∧ (awaitEdge session tag second s).rime = s.rime ∧ (awaitEdge session tag second s).stns = s.stns ∧ (awaitEdge session tag
      second s).net = s.net ∧ (awaitEdge session tag second s).sori = s.sori ∧ (awaitEdge session tag second s).models = s.models ∧
      (awaitEdge session tag second s).serve = s.serve ∧ (awaitEdge session tag second s).jobs = s.jobs ∧ (awaitEdge session tag second
      s).fab = s.fab ∧ (awaitEdge session tag second s).out = s.out ∧ (awaitEdge session tag second s).fresh = s.fresh ∧ (awaitEdge session
      tag second s).pins = s.pins ∧ (awaitEdge session tag second s).pending = s.pending ∧ (awaitEdge session tag second s).boot = s.boot ∧
      (awaitEdge session tag second s).flash = s.flash ∧ (awaitEdge session tag second s).mem = s.mem := by
  unfold awaitEdge
  simp

@[simp] theorem alignNow_keeps (s : State) :
    (alignNow s).pwr = s.pwr ∧ (alignNow s).thm = s.thm ∧ (alignNow s).hlth = s.hlth ∧ (alignNow s).rime = s.rime ∧ (alignNow s).stns =
      s.stns ∧ (alignNow s).sori = s.sori ∧ (alignNow s).models = s.models ∧ (alignNow s).serve = s.serve ∧ (alignNow s).jobs = s.jobs ∧
      (alignNow s).fab = s.fab ∧ (alignNow s).fresh = s.fresh ∧ (alignNow s).pins = s.pins ∧ (alignNow s).pending = s.pending ∧ (alignNow
      s).boot = s.boot ∧ (alignNow s).flash = s.flash ∧ (alignNow s).mem = s.mem := by
  unfold alignNow
  (repeat' split) <;> simp

@[simp] theorem recordHoldover_keeps (input : Nat) (s : State) :
    (recordHoldover input s).beat = s.beat ∧ (recordHoldover input s).pwr = s.pwr ∧ (recordHoldover input s).thm = s.thm ∧ (recordHoldover
      input s).hlth = s.hlth ∧ (recordHoldover input s).stns = s.stns ∧ (recordHoldover input s).net = s.net ∧ (recordHoldover input s).sori
      = s.sori ∧ (recordHoldover input s).models = s.models ∧ (recordHoldover input s).serve = s.serve ∧ (recordHoldover input s).jobs =
      s.jobs ∧ (recordHoldover input s).fab = s.fab ∧ (recordHoldover input s).out = s.out ∧ (recordHoldover input s).fresh = s.fresh ∧
      (recordHoldover input s).pins = s.pins ∧ (recordHoldover input s).pending = s.pending ∧ (recordHoldover input s).boot = s.boot ∧
      (recordHoldover input s).flash.counters = s.flash.counters ∧ (recordHoldover input s).flash.install = s.flash.install ∧
      (recordHoldover input s).flash.serial = s.flash.serial ∧ (recordHoldover input s).mem = s.mem := by
  unfold recordHoldover
  simp

@[simp] theorem tellFailed_keeps (id : Nat) (members : List Nat) (s : State) :
    (tellFailed id members s).beat = s.beat ∧ (tellFailed id members s).pwr = s.pwr ∧ (tellFailed id members s).thm = s.thm ∧ (tellFailed
      id members s).hlth = s.hlth ∧ (tellFailed id members s).rime = s.rime ∧ (tellFailed id members s).stns = s.stns ∧ (tellFailed id
      members s).net = s.net ∧ (tellFailed id members s).sori = s.sori ∧ (tellFailed id members s).models = s.models ∧ (tellFailed id
      members s).serve = s.serve ∧ (tellFailed id members s).jobs = s.jobs ∧ (tellFailed id members s).fab = s.fab ∧ (tellFailed id members
      s).fresh = s.fresh ∧ (tellFailed id members s).pins = s.pins ∧ (tellFailed id members s).pending = s.pending ∧ (tellFailed id members
      s).boot = s.boot ∧ (tellFailed id members s).flash = s.flash ∧ (tellFailed id members s).mem = s.mem := by
  unfold tellFailed
  first
  | (simp; done)
  | ((repeat' split) <;> simp; done)
  | ((repeat' split) <;> (try simp) <;> (repeat' split) <;> (try simp) <;> (repeat' split) <;> (try simp_all); done)

@[simp] theorem failOp_keeps (id : Nat) (leaves : Bool) (s : State) :
    (failOp id leaves s).beat = s.beat ∧ (failOp id leaves s).pwr = s.pwr ∧ (failOp id leaves s).thm = s.thm ∧ (failOp id leaves s).hlth =
      s.hlth ∧ (failOp id leaves s).rime = s.rime ∧ (failOp id leaves s).stns = s.stns ∧ (failOp id leaves s).sori = s.sori ∧ (failOp id
      leaves s).models = s.models ∧ (failOp id leaves s).serve = s.serve ∧ (failOp id leaves s).jobs = s.jobs ∧ (failOp id leaves s).fresh =
      s.fresh ∧ (failOp id leaves s).pins = s.pins ∧ (failOp id leaves s).pending = s.pending ∧ (failOp id leaves s).boot = s.boot ∧ (failOp
      id leaves s).flash = s.flash ∧ (failOp id leaves s).mem = s.mem := by
  unfold failOp
  (repeat' split) <;> simp

@[simp] theorem progress_keeps (id : Nat) (s : State) :
    (progress id s).beat = s.beat ∧ (progress id s).pwr = s.pwr ∧ (progress id s).thm = s.thm ∧ (progress id s).hlth = s.hlth ∧ (progress
      id s).rime = s.rime ∧ (progress id s).stns = s.stns ∧ (progress id s).net = s.net ∧ (progress id s).sori = s.sori ∧ (progress id
      s).models = s.models ∧ (progress id s).serve = s.serve ∧ (progress id s).fab = s.fab ∧ (progress id s).out = s.out ∧ (progress id
      s).fresh = s.fresh ∧ (progress id s).pins = s.pins ∧ (progress id s).pending = s.pending ∧ (progress id s).boot = s.boot ∧ (progress
      id s).flash = s.flash ∧ (progress id s).mem = s.mem := by
  unfold progress
  simp

@[simp] theorem setList_keeps (id : Nat) (code : Nat) (f : ListSt → ListSt) (s : State) :
    (setList id code f s).beat = s.beat ∧ (setList id code f s).pwr = s.pwr ∧ (setList id code f s).thm = s.thm ∧ (setList id code f
      s).hlth = s.hlth ∧ (setList id code f s).rime = s.rime ∧ (setList id code f s).stns = s.stns ∧ (setList id code f s).net = s.net ∧
      (setList id code f s).sori = s.sori ∧ (setList id code f s).models = s.models ∧ (setList id code f s).serve = s.serve ∧ (setList id
      code f s).fab = s.fab ∧ (setList id code f s).out = s.out ∧ (setList id code f s).fresh = s.fresh ∧ (setList id code f s).pins =
      s.pins ∧ (setList id code f s).pending = s.pending ∧ (setList id code f s).boot = s.boot ∧ (setList id code f s).flash = s.flash ∧
      (setList id code f s).mem = s.mem := by
  unfold setList
  simp

@[simp] theorem finishEntry_keeps (p : Place) (i : Nat) (s : State) :
    (finishEntry p i s).beat = s.beat ∧ (finishEntry p i s).pwr = s.pwr ∧ (finishEntry p i s).thm = s.thm ∧ (finishEntry p i s).hlth =
      s.hlth ∧ (finishEntry p i s).rime = s.rime ∧ (finishEntry p i s).stns = s.stns ∧ (finishEntry p i s).net = s.net ∧ (finishEntry p i
      s).sori = s.sori ∧ (finishEntry p i s).models = s.models ∧ (finishEntry p i s).serve = s.serve ∧ (finishEntry p i s).fab = s.fab ∧
      (finishEntry p i s).out = s.out ∧ (finishEntry p i s).fresh = s.fresh ∧ (finishEntry p i s).pins = s.pins ∧ (finishEntry p i
      s).pending = s.pending ∧ (finishEntry p i s).boot = s.boot ∧ (finishEntry p i s).flash = s.flash ∧ (finishEntry p i s).mem = s.mem :=
      by
  unfold finishEntry
  simp

@[simp] theorem advance_keeps (inp : BeatInput) (s : State) :
    (advance inp s).rime = s.rime ∧ (advance inp s).stns = s.stns ∧ (advance inp s).net = s.net ∧ (advance inp s).sori = s.sori ∧ (advance
      inp s).models = s.models ∧ (advance inp s).serve = s.serve ∧ (advance inp s).jobs = s.jobs ∧ (advance inp s).fab = s.fab ∧ (advance
      inp s).out = s.out ∧ (advance inp s).fresh = s.fresh ∧ (advance inp s).pins = s.pins ∧ (advance inp s).pending = s.pending ∧ (advance
      inp s).boot = s.boot ∧ (advance inp s).flash = s.flash ∧ (advance inp s).mem = s.mem := by
  unfold advance
  simp

@[simp] theorem setLink_keeps (port : Nat) (f : Link → Link) (s : State) :
    (setLink port f s).beat = s.beat ∧ (setLink port f s).pwr = s.pwr ∧ (setLink port f s).thm = s.thm ∧ (setLink port f s).hlth = s.hlth
      ∧ (setLink port f s).rime = s.rime ∧ (setLink port f s).stns = s.stns ∧ (setLink port f s).net = s.net ∧ (setLink port f s).sori =
      s.sori ∧ (setLink port f s).models = s.models ∧ (setLink port f s).serve = s.serve ∧ (setLink port f s).jobs = s.jobs ∧ (setLink port
      f s).out = s.out ∧ (setLink port f s).fresh = s.fresh ∧ (setLink port f s).pins = s.pins ∧ (setLink port f s).pending = s.pending ∧
      (setLink port f s).boot = s.boot ∧ (setLink port f s).flash = s.flash ∧ (setLink port f s).mem = s.mem := by
  unfold setLink
  simp

@[simp] theorem setAccount_keeps (id : Nat) (f : Account → Account) (s : State) :
    (setAccount id f s).beat = s.beat ∧ (setAccount id f s).pwr = s.pwr ∧ (setAccount id f s).thm = s.thm ∧ (setAccount id f s).hlth =
      s.hlth ∧ (setAccount id f s).rime = s.rime ∧ (setAccount id f s).stns = s.stns ∧ (setAccount id f s).net = s.net ∧ (setAccount id f
      s).sori = s.sori ∧ (setAccount id f s).models = s.models ∧ (setAccount id f s).serve = s.serve ∧ (setAccount id f s).jobs = s.jobs ∧
      (setAccount id f s).fab = s.fab ∧ (setAccount id f s).out = s.out ∧ (setAccount id f s).fresh = s.fresh ∧ (setAccount id f s).pins =
      s.pins ∧ (setAccount id f s).pending = s.pending ∧ (setAccount id f s).boot = s.boot ∧ (setAccount id f s).flash = s.flash ∧
      (setAccount id f s).mem.cells = s.mem.cells ∧ (setAccount id f s).mem.undef = s.mem.undef := by
  unfold setAccount
  simp

@[simp] theorem State.withFetchWord_keeps (s : State) (nbits : Nat) (w : Nat) :
    (State.withFetchWord s nbits w).beat = s.beat ∧ (State.withFetchWord s nbits w).pwr = s.pwr ∧ (State.withFetchWord s nbits w).thm =
      s.thm ∧ (State.withFetchWord s nbits w).hlth = s.hlth ∧ (State.withFetchWord s nbits w).rime = s.rime ∧ (State.withFetchWord s nbits
      w).stns = s.stns ∧ (State.withFetchWord s nbits w).net = s.net ∧ (State.withFetchWord s nbits w).sori = s.sori ∧ (State.withFetchWord
      s nbits w).models = s.models ∧ (State.withFetchWord s nbits w).serve = s.serve ∧ (State.withFetchWord s nbits w).jobs = s.jobs ∧
      (State.withFetchWord s nbits w).fab = s.fab ∧ (State.withFetchWord s nbits w).out = s.out ∧ (State.withFetchWord s nbits w).fresh =
      s.fresh ∧ (State.withFetchWord s nbits w).pins = s.pins ∧ (State.withFetchWord s nbits w).boot = s.boot ∧ (State.withFetchWord s nbits
      w).flash = s.flash ∧ (State.withFetchWord s nbits w).mem = s.mem := by
  unfold State.withFetchWord
  (repeat' split) <;> simp

@[simp] theorem loadProgram_keeps (h : Hdr) (principal : Nat) (bs : List Byte) (s : State) :
    (loadProgram h principal bs s).beat = s.beat ∧ (loadProgram h principal bs s).pwr = s.pwr ∧ (loadProgram h principal bs s).thm = s.thm
      ∧ (loadProgram h principal bs s).hlth = s.hlth ∧ (loadProgram h principal bs s).rime = s.rime ∧ (loadProgram h principal bs s).stns =
      s.stns ∧ (loadProgram h principal bs s).sori = s.sori ∧ (loadProgram h principal bs s).models = s.models ∧ (loadProgram h principal bs
      s).serve = s.serve ∧ (loadProgram h principal bs s).fab = s.fab ∧ (loadProgram h principal bs s).fresh = s.fresh ∧ (loadProgram h
      principal bs s).pins = s.pins ∧ (loadProgram h principal bs s).pending = s.pending ∧ (loadProgram h principal bs s).boot = s.boot ∧
      (loadProgram h principal bs s).flash = s.flash ∧ (loadProgram h principal bs s).mem = s.mem := by
  unfold loadProgram
  (repeat' split) <;> simp

@[simp] theorem dropBlocks_keeps (job : Option Nat) (a : Nat) (n : Nat) (s : State) :
    (dropBlocks job a n s).beat = s.beat ∧ (dropBlocks job a n s).pwr = s.pwr ∧ (dropBlocks job a n s).thm = s.thm ∧ (dropBlocks job a n
      s).hlth = s.hlth ∧ (dropBlocks job a n s).rime = s.rime ∧ (dropBlocks job a n s).stns = s.stns ∧ (dropBlocks job a n s).net = s.net ∧
      (dropBlocks job a n s).sori = s.sori ∧ (dropBlocks job a n s).models = s.models ∧ (dropBlocks job a n s).serve = s.serve ∧ (dropBlocks
      job a n s).jobs = s.jobs ∧ (dropBlocks job a n s).out = s.out ∧ (dropBlocks job a n s).fresh = s.fresh ∧ (dropBlocks job a n s).pins =
      s.pins ∧ (dropBlocks job a n s).pending = s.pending ∧ (dropBlocks job a n s).boot = s.boot ∧ (dropBlocks job a n s).flash = s.flash ∧
      (dropBlocks job a n s).mem = s.mem := by
  unfold dropBlocks
  simp

@[simp] theorem sendAccess_keeps (x : Access) (s : State) :
    (sendAccess x s).beat = s.beat ∧ (sendAccess x s).pwr = s.pwr ∧ (sendAccess x s).thm = s.thm ∧ (sendAccess x s).hlth = s.hlth ∧
      (sendAccess x s).rime = s.rime ∧ (sendAccess x s).stns = s.stns ∧ (sendAccess x s).net = s.net ∧ (sendAccess x s).sori = s.sori ∧
      (sendAccess x s).models = s.models ∧ (sendAccess x s).serve = s.serve ∧ (sendAccess x s).jobs = s.jobs ∧ (sendAccess x s).fab = s.fab
      ∧ (sendAccess x s).fresh = s.fresh ∧ (sendAccess x s).pins = s.pins ∧ (sendAccess x s).pending = s.pending ∧ (sendAccess x s).boot =
      s.boot ∧ (sendAccess x s).flash = s.flash ∧ (sendAccess x s).mem = s.mem := by
  unfold sendAccess
  (repeat' split) <;> grind [sendFab_keeps]

@[simp] theorem spoilFills_keeps (a : Nat) (n : Nat) (s : State) :
    (spoilFills a n s).beat = s.beat ∧ (spoilFills a n s).pwr = s.pwr ∧ (spoilFills a n s).thm = s.thm ∧ (spoilFills a n s).hlth = s.hlth
      ∧ (spoilFills a n s).rime = s.rime ∧ (spoilFills a n s).stns = s.stns ∧ (spoilFills a n s).net = s.net ∧ (spoilFills a n s).sori =
      s.sori ∧ (spoilFills a n s).models = s.models ∧ (spoilFills a n s).serve = s.serve ∧ (spoilFills a n s).jobs = s.jobs ∧ (spoilFills a
      n s).out = s.out ∧ (spoilFills a n s).fresh = s.fresh ∧ (spoilFills a n s).pins = s.pins ∧ (spoilFills a n s).pending = s.pending ∧
      (spoilFills a n s).boot = s.boot ∧ (spoilFills a n s).flash = s.flash ∧ (spoilFills a n s).mem = s.mem := by
  unfold spoilFills
  simp

@[simp] theorem issueAccess_keeps (o : Origin) (home : Nat) (addr : Nat) (kind : AccessKind) (sink : Sink) (bump : Option (Nat × Nat × Nat × Nat)) (s : State) :
    (issueAccess o home addr kind sink bump s).beat = s.beat ∧ (issueAccess o home addr kind sink bump s).pwr = s.pwr ∧ (issueAccess o
      home addr kind sink bump s).thm = s.thm ∧ (issueAccess o home addr kind sink bump s).hlth = s.hlth ∧ (issueAccess o home addr kind
      sink bump s).rime = s.rime ∧ (issueAccess o home addr kind sink bump s).stns = s.stns ∧ (issueAccess o home addr kind sink bump s).net
      = s.net ∧ (issueAccess o home addr kind sink bump s).sori = s.sori ∧ (issueAccess o home addr kind sink bump s).models = s.models ∧
      (issueAccess o home addr kind sink bump s).serve = s.serve ∧ (issueAccess o home addr kind sink bump s).jobs = s.jobs ∧ (issueAccess o
      home addr kind sink bump s).fresh = s.fresh ∧ (issueAccess o home addr kind sink bump s).pins = s.pins ∧ (issueAccess o home addr kind
      sink bump s).pending = s.pending ∧ (issueAccess o home addr kind sink bump s).boot = s.boot ∧ (issueAccess o home addr kind sink bump
      s).flash = s.flash ∧ (issueAccess o home addr kind sink bump s).mem = s.mem := by
  unfold issueAccess
  simp

@[simp] theorem setStream_keeps (id : Nat) (i : Nat) (f : StreamSt → StreamSt) (s : State) :
    (setStream id i f s).beat = s.beat ∧ (setStream id i f s).pwr = s.pwr ∧ (setStream id i f s).thm = s.thm ∧ (setStream id i f s).hlth =
      s.hlth ∧ (setStream id i f s).rime = s.rime ∧ (setStream id i f s).stns = s.stns ∧ (setStream id i f s).net = s.net ∧ (setStream id i
      f s).sori = s.sori ∧ (setStream id i f s).models = s.models ∧ (setStream id i f s).serve = s.serve ∧ (setStream id i f s).fab = s.fab
      ∧ (setStream id i f s).out = s.out ∧ (setStream id i f s).fresh = s.fresh ∧ (setStream id i f s).pins = s.pins ∧ (setStream id i f
      s).pending = s.pending ∧ (setStream id i f s).boot = s.boot ∧ (setStream id i f s).flash = s.flash ∧ (setStream id i f s).mem = s.mem
      := by
  unfold setStream
  simp

@[simp] theorem patchTile_keeps (cmd : Nat) (st : Nat) (serial : Nat) (off : Nat) (gather : Bool) (data : List Byte) (s : State) :
    (patchTile cmd st serial off gather data s).beat = s.beat ∧ (patchTile cmd st serial off gather data s).pwr = s.pwr ∧ (patchTile cmd
      st serial off gather data s).thm = s.thm ∧ (patchTile cmd st serial off gather data s).hlth = s.hlth ∧ (patchTile cmd st serial off
      gather data s).rime = s.rime ∧ (patchTile cmd st serial off gather data s).stns = s.stns ∧ (patchTile cmd st serial off gather data
      s).net = s.net ∧ (patchTile cmd st serial off gather data s).sori = s.sori ∧ (patchTile cmd st serial off gather data s).models =
      s.models ∧ (patchTile cmd st serial off gather data s).serve = s.serve ∧ (patchTile cmd st serial off gather data s).fab = s.fab ∧
      (patchTile cmd st serial off gather data s).out = s.out ∧ (patchTile cmd st serial off gather data s).fresh = s.fresh ∧ (patchTile cmd
      st serial off gather data s).pins = s.pins ∧ (patchTile cmd st serial off gather data s).pending = s.pending ∧ (patchTile cmd st
      serial off gather data s).boot = s.boot ∧ (patchTile cmd st serial off gather data s).flash = s.flash ∧ (patchTile cmd st serial off
      gather data s).mem = s.mem := by
  unfold patchTile
  simp

@[simp] theorem deliverFor_keeps (bump : Option (Nat × Nat × Nat × Nat)) (sink : Sink) (data : List Byte) (s : State) :
    (deliverFor bump sink data s).beat = s.beat ∧ (deliverFor bump sink data s).pwr = s.pwr ∧ (deliverFor bump sink data s).thm = s.thm ∧
      (deliverFor bump sink data s).hlth = s.hlth ∧ (deliverFor bump sink data s).rime = s.rime ∧ (deliverFor bump sink data s).stns =
      s.stns ∧ (deliverFor bump sink data s).net = s.net ∧ (deliverFor bump sink data s).sori = s.sori ∧ (deliverFor bump sink data
      s).models = s.models ∧ (deliverFor bump sink data s).serve = s.serve ∧ (deliverFor bump sink data s).fresh = s.fresh ∧ (deliverFor
      bump sink data s).pins = s.pins ∧ (deliverFor bump sink data s).pending = s.pending ∧ (deliverFor bump sink data s).boot = s.boot ∧
      (deliverFor bump sink data s).flash = s.flash ∧ (deliverFor bump sink data s).mem.undef = s.mem.undef := by
  unfold deliverFor
  (repeat' split) <;> simp

@[simp] theorem deliver_keeps (sink : Sink) (data : List Byte) (s : State) :
    (deliver sink data s).beat = s.beat ∧ (deliver sink data s).pwr = s.pwr ∧ (deliver sink data s).thm = s.thm ∧ (deliver sink data
      s).hlth = s.hlth ∧ (deliver sink data s).rime = s.rime ∧ (deliver sink data s).stns = s.stns ∧ (deliver sink data s).net = s.net ∧
      (deliver sink data s).sori = s.sori ∧ (deliver sink data s).models = s.models ∧ (deliver sink data s).serve = s.serve ∧ (deliver sink
      data s).fresh = s.fresh ∧ (deliver sink data s).pins = s.pins ∧ (deliver sink data s).pending = s.pending ∧ (deliver sink data s).boot
      = s.boot ∧ (deliver sink data s).flash = s.flash ∧ (deliver sink data s).mem.undef = s.mem.undef := by
  unfold deliver
  simp

@[simp] theorem loadPiece_keeps (o : Origin) (job : Nat) (home : Nat) (addr : Nat) (n : Nat) (sink : Sink) (s : State) :
    (loadPiece o job home addr n sink s).beat = s.beat ∧ (loadPiece o job home addr n sink s).pwr = s.pwr ∧ (loadPiece o job home addr n
      sink s).thm = s.thm ∧ (loadPiece o job home addr n sink s).hlth = s.hlth ∧ (loadPiece o job home addr n sink s).rime = s.rime ∧
      (loadPiece o job home addr n sink s).stns = s.stns ∧ (loadPiece o job home addr n sink s).net = s.net ∧ (loadPiece o job home addr n
      sink s).sori = s.sori ∧ (loadPiece o job home addr n sink s).models = s.models ∧ (loadPiece o job home addr n sink s).serve = s.serve
      ∧ (loadPiece o job home addr n sink s).fresh = s.fresh ∧ (loadPiece o job home addr n sink s).pins = s.pins ∧ (loadPiece o job home
      addr n sink s).pending = s.pending ∧ (loadPiece o job home addr n sink s).boot = s.boot ∧ (loadPiece o job home addr n sink s).flash =
      s.flash ∧ (loadPiece o job home addr n sink s).mem.undef = s.mem.undef := by
  unfold loadPiece
  (repeat' split) <;> simp

theorem loadTo_keeps (c : Cmd) (o : Origin) (addr : Nat) (n : Nat) (sink : Sink) (s : State) :
    ∀ t, loadTo c o addr n sink s = .ok t → t.beat = s.beat ∧ t.pwr = s.pwr ∧ t.thm = s.thm ∧ t.hlth = s.hlth ∧ t.rime = s.rime ∧ t.stns =
      s.stns ∧ t.net = s.net ∧ t.sori = s.sori ∧ t.models = s.models ∧ t.serve = s.serve ∧ t.fresh = s.fresh ∧ t.pins = s.pins ∧ t.pending =
      s.pending ∧ t.boot = s.boot ∧ t.flash = s.flash ∧ t.mem.undef = s.mem.undef := by
  unfold loadTo
  split
  · simp
  · intro t h
    have h1 := foldl_moved_keeps (fun s : State => (s.beat, s.pwr, s.thm, s.hlth, s.rime, s.stns, s.net, s.sori, s.models, s.serve, s.fresh, s.pins, s.pending, s.boot, s.flash, s.mem.undef)) _ (by intros; rfl) (by
      intro s x t h
      obtain ⟨off, k⟩ := x
      dsimp only at h
      (repeat' split at h) <;> simp at h <;> subst h <;> simp) _ _ _ h
    simpa using h1

theorem slotRead_keeps (c : Cmd) (o : Origin) (slot : Nat) (off : Nat) (n : Nat) (sink : Sink) (s : State) :
    ∀ t, slotRead c o slot off n sink s = .ok t → t.beat = s.beat ∧ t.pwr = s.pwr ∧ t.thm = s.thm ∧ t.hlth = s.hlth ∧ t.rime = s.rime ∧
      t.stns = s.stns ∧ t.net = s.net ∧ t.sori = s.sori ∧ t.models = s.models ∧ t.serve = s.serve ∧ t.fresh = s.fresh ∧ t.pins = s.pins ∧
      t.pending = s.pending ∧ t.boot = s.boot ∧ t.flash = s.flash ∧ t.mem.undef = s.mem.undef := by
  unfold slotRead
  (repeat' split) <;> grind [loadTo_keeps, deliver_keeps]

theorem placeAll_same {α : Type} (f : State → α) (owner : Nat → Owner)
    (hT : ∀ tier b n o s, f (takeRegion tier b n o s) = f s)
    (hN : ∀ tier n s b t, demandRoom tier none n s = .now b t → f t = f s)
    (hL : ∀ tier n s t, demandRoom tier none n s = .later t → f t = f s) (ts : List Tensor) (hbm : Bool) (s : State) :
    (∀ ps t, placeAll owner ts hbm s = .done ps t → f t = f s) ∧ (∀ t, placeAll owner ts hbm s = .waits t → f t = f s) := by
  induction ts generalizing hbm s with
  | nil => simp [placeAll]
  | cons x xs ih =>
    have hp : ∀ (tier b : Nat) (hb : Bool) (u : State) (p : PlacedTensor),
        (∀ ps v, (placeAll owner xs hb (takeRegion tier b x.regionBytes (owner x.id) u)).cons p = .done ps v → f v = f u) ∧
        (∀ v, (placeAll owner xs hb (takeRegion tier b x.regionBytes (owner x.id) u)).cons p = .waits v → f v = f u) := by
      intro tier b hb u p
      have h1 := ih hb (takeRegion tier b x.regionBytes (owner x.id) u)
      rw [hT] at h1
      cases hc : placeAll owner xs hb (takeRegion tier b x.regionBytes (owner x.id) u) with
      | done qs w =>
        refine ⟨fun ps v h => ?_, fun v h => (by cases h)⟩
        injection h with _ h; exact h ▸ h1.1 qs w hc
      | waits w =>
        refine ⟨fun ps v h => (by cases h), fun v h => ?_⟩
        injection h with h; exact h ▸ h1.2 w hc
      | never => exact ⟨fun ps v h => (by cases h), fun v h => (by cases h)⟩
    have hm : ∀ (tier : Nat) (hb : Bool) (u : State) (r : Placing),
        ((∀ ps v, r = .done ps v → f v = f u) ∧ (∀ v, r = .waits v → f v = f u)) →
        (∀ ps v, (match demandRoom tier none x.regionBytes u with
          | .now b s => (placeAll owner xs hb (takeRegion tier b x.regionBytes (owner x.id) s)).cons ⟨x.id, tier, b, x.regionBytes, false, 0, none⟩
          | .later s => .waits s
          | .never => r) = Placing.done ps v → f v = f u) ∧
        (∀ v, (match demandRoom tier none x.regionBytes u with
          | .now b s => (placeAll owner xs hb (takeRegion tier b x.regionBytes (owner x.id) s)).cons ⟨x.id, tier, b, x.regionBytes, false, 0, none⟩
          | .later s => .waits s
          | .never => r) = Placing.waits v → f v = f u) := by
      intro tier hb u r hr
      split
      · rename_i b w h
        have h2 := hp tier b hb w ⟨x.id, tier, b, x.regionBytes, false, 0, none⟩
        exact ⟨fun ps v h' => (h2.1 _ _ h').trans (hN _ _ _ _ _ h), fun v h' => (h2.2 _ h').trans (hN _ _ _ _ _ h)⟩
      · rename_i w h
        refine ⟨fun ps v h' => (by cases h'), fun v h' => ?_⟩
        injection h' with h'; exact h' ▸ hL _ _ _ _ h
      · exact hr
    have hnever : ∀ u : State, (∀ ps v, Placing.never = .done ps v → f v = f u) ∧ (∀ v, Placing.never = .waits v → f v = f u) :=
      fun _ => ⟨fun _ _ h => (by cases h), fun _ h => (by cases h)⟩
    unfold placeAll
    dsimp only
    split
    · exact hm 0 hbm s _ (hnever s)
    · split
      · exact hm 1 false s _ (hnever s)
      · split
        · split
          · exact hp 0 _ true s _
          · exact hm 1 false s _ (hnever s)
        · exact hm 0 true s _ (hm 1 false s _ (hnever s))

theorem placeAll_keeps (owner : Nat → Owner) (x1 : List Tensor) (x2 : Bool) (x3 : State) :
    (∀ ps t, placeAll owner x1 x2 x3 = .done ps t → t.beat = x3.beat ∧ t.pwr = x3.pwr ∧ t.thm = x3.thm ∧ t.hlth = x3.hlth ∧ t.rime =
      x3.rime ∧ t.stns = x3.stns ∧ t.net = x3.net ∧ t.sori = x3.sori ∧ t.jobs = x3.jobs ∧ t.fab = x3.fab ∧ t.out = x3.out ∧ t.fresh =
      x3.fresh ∧ t.pins = x3.pins ∧ t.pending = x3.pending ∧ t.boot = x3.boot ∧ t.flash = x3.flash ∧ t.mem.undef = x3.mem.undef) ∧ (∀ t,
      placeAll owner x1 x2 x3 = .waits t → t.beat = x3.beat ∧ t.pwr = x3.pwr ∧ t.thm = x3.thm ∧ t.hlth = x3.hlth ∧ t.rime = x3.rime ∧ t.stns
      = x3.stns ∧ t.net = x3.net ∧ t.sori = x3.sori ∧ t.jobs = x3.jobs ∧ t.fab = x3.fab ∧ t.out = x3.out ∧ t.fresh = x3.fresh ∧ t.pins =
      x3.pins ∧ t.pending = x3.pending ∧ t.boot = x3.boot ∧ t.flash = x3.flash ∧ t.mem.undef = x3.mem.undef) := by
  have goal := placeAll_same (fun s => (s.beat, s.pwr, s.thm, s.hlth, s.rime, s.stns, s.net, s.sori, s.jobs, s.fab, s.out, s.fresh, s.pins, s.pending, s.boot, s.flash, s.mem.undef)) owner (by intro tier b n o s; simp) (by
      intro tier n s b t h; have := (demandRoom_keeps tier none n s).1 _ _ h; simp [this]) (by
      intro tier n s t h; have := (demandRoom_keeps tier none n s).2 _ h; simp [this]) x1 x2 x3
  simp only [Prod.mk.injEq] at goal
  exact goal

@[simp] theorem sweepRegions_keeps (modelId : Nat) (s : State) :
    (sweepRegions modelId s).beat = s.beat ∧ (sweepRegions modelId s).pwr = s.pwr ∧ (sweepRegions modelId s).thm = s.thm ∧ (sweepRegions
      modelId s).hlth = s.hlth ∧ (sweepRegions modelId s).rime = s.rime ∧ (sweepRegions modelId s).stns = s.stns ∧ (sweepRegions modelId
      s).net = s.net ∧ (sweepRegions modelId s).sori = s.sori ∧ (sweepRegions modelId s).serve = s.serve ∧ (sweepRegions modelId s).jobs =
      s.jobs ∧ (sweepRegions modelId s).fab = s.fab ∧ (sweepRegions modelId s).out = s.out ∧ (sweepRegions modelId s).fresh = s.fresh ∧
      (sweepRegions modelId s).pins = s.pins ∧ (sweepRegions modelId s).pending = s.pending ∧ (sweepRegions modelId s).boot = s.boot ∧
      (sweepRegions modelId s).flash = s.flash ∧ (sweepRegions modelId s).mem.cells = s.mem.cells ∧ (sweepRegions modelId s).mem.undef =
      s.mem.undef := by
  unfold sweepRegions
  (repeat' split) <;> simp

@[simp] theorem activatePrep_keeps (modelId : Nat) (kvPagesets : Nat) (x1 : Nat) (x2 : Nat) (x3 : State) :
    (activatePrep modelId kvPagesets x1 x2 x3).1.beat = x3.beat ∧ (activatePrep modelId kvPagesets x1 x2 x3).1.pwr = x3.pwr ∧
      (activatePrep modelId kvPagesets x1 x2 x3).1.thm = x3.thm ∧ (activatePrep modelId kvPagesets x1 x2 x3).1.hlth = x3.hlth ∧
      (activatePrep modelId kvPagesets x1 x2 x3).1.rime = x3.rime ∧ (activatePrep modelId kvPagesets x1 x2 x3).1.stns = x3.stns ∧
      (activatePrep modelId kvPagesets x1 x2 x3).1.net = x3.net ∧ (activatePrep modelId kvPagesets x1 x2 x3).1.sori = x3.sori ∧
      (activatePrep modelId kvPagesets x1 x2 x3).1.jobs = x3.jobs ∧ (activatePrep modelId kvPagesets x1 x2 x3).1.fab = x3.fab ∧
      (activatePrep modelId kvPagesets x1 x2 x3).1.out = x3.out ∧ (activatePrep modelId kvPagesets x1 x2 x3).1.fresh = x3.fresh ∧
      (activatePrep modelId kvPagesets x1 x2 x3).1.pins = x3.pins ∧ (activatePrep modelId kvPagesets x1 x2 x3).1.pending = x3.pending ∧
      (activatePrep modelId kvPagesets x1 x2 x3).1.boot = x3.boot ∧ (activatePrep modelId kvPagesets x1 x2 x3).1.flash = x3.flash ∧
      (activatePrep modelId kvPagesets x1 x2 x3).1.mem.undef = x3.mem.undef := by
  unfold activatePrep
  split
  · simp
  · split
    · simp
    · split
      · simp
      · split
        · simp
        · dsimp only
          split
          · rename_i h; have h1 := (demandRoom_keeps _ _ _ _).1 _ _ h; simp_all
          · rename_i h; have h1 := (demandRoom_keeps _ _ _ _).2 _ h; simp_all
          · simp

@[simp] theorem allocPrep_keeps (principal : Nat) (p : AllocP) (x1 : Nat) (x2 : Nat) (x3 : State) :
    (allocPrep principal p x1 x2 x3).1.beat = x3.beat ∧ (allocPrep principal p x1 x2 x3).1.pwr = x3.pwr ∧ (allocPrep principal p x1 x2
      x3).1.thm = x3.thm ∧ (allocPrep principal p x1 x2 x3).1.hlth = x3.hlth ∧ (allocPrep principal p x1 x2 x3).1.rime = x3.rime ∧
      (allocPrep principal p x1 x2 x3).1.stns = x3.stns ∧ (allocPrep principal p x1 x2 x3).1.net = x3.net ∧ (allocPrep principal p x1 x2
      x3).1.sori = x3.sori ∧ (allocPrep principal p x1 x2 x3).1.jobs = x3.jobs ∧ (allocPrep principal p x1 x2 x3).1.fab = x3.fab ∧
      (allocPrep principal p x1 x2 x3).1.out = x3.out ∧ (allocPrep principal p x1 x2 x3).1.fresh = x3.fresh ∧ (allocPrep principal p x1 x2
      x3).1.pins = x3.pins ∧ (allocPrep principal p x1 x2 x3).1.pending = x3.pending ∧ (allocPrep principal p x1 x2 x3).1.boot = x3.boot ∧
      (allocPrep principal p x1 x2 x3).1.flash = x3.flash ∧ (allocPrep principal p x1 x2 x3).1.mem.undef = x3.mem.undef := by
  unfold allocPrep
  split
  · simp
  · simp
  · split
    · simp
    · split
      · rename_i h; have h1 := (demandRoom_keeps _ _ _ _).1 _ _ h; simp_all
      · rename_i h; have h1 := (demandRoom_keeps _ _ _ _).2 _ h; simp_all
      · simp

@[simp] theorem publishPrep_keeps (modelId : Nat) (epoch : Nat) (table : Nat) (x1 : Nat) (x2 : Nat) (x3 : State) :
    (publishPrep modelId epoch table x1 x2 x3).1.beat = x3.beat ∧ (publishPrep modelId epoch table x1 x2 x3).1.pwr = x3.pwr ∧ (publishPrep
      modelId epoch table x1 x2 x3).1.thm = x3.thm ∧ (publishPrep modelId epoch table x1 x2 x3).1.hlth = x3.hlth ∧ (publishPrep modelId
      epoch table x1 x2 x3).1.rime = x3.rime ∧ (publishPrep modelId epoch table x1 x2 x3).1.stns = x3.stns ∧ (publishPrep modelId epoch
      table x1 x2 x3).1.net = x3.net ∧ (publishPrep modelId epoch table x1 x2 x3).1.sori = x3.sori ∧ (publishPrep modelId epoch table x1 x2
      x3).1.models = x3.models ∧ (publishPrep modelId epoch table x1 x2 x3).1.serve = x3.serve ∧ (publishPrep modelId epoch table x1 x2
      x3).1.jobs = x3.jobs ∧ (publishPrep modelId epoch table x1 x2 x3).1.fab = x3.fab ∧ (publishPrep modelId epoch table x1 x2 x3).1.out =
      x3.out ∧ (publishPrep modelId epoch table x1 x2 x3).1.fresh = x3.fresh ∧ (publishPrep modelId epoch table x1 x2 x3).1.pins = x3.pins ∧
      (publishPrep modelId epoch table x1 x2 x3).1.pending = x3.pending ∧ (publishPrep modelId epoch table x1 x2 x3).1.boot = x3.boot ∧
      (publishPrep modelId epoch table x1 x2 x3).1.flash = x3.flash ∧ (publishPrep modelId epoch table x1 x2 x3).1.mem = x3.mem := by
  unfold publishPrep
  simp

@[simp] theorem clearHubFlags_keeps (o : Nat) (b : Nat) (s : State) :
    (clearHubFlags o b s).hlth = s.hlth ∧ (clearHubFlags o b s).rime = s.rime ∧ (clearHubFlags o b s).stns = s.stns ∧ (clearHubFlags o b
      s).sori = s.sori ∧ (clearHubFlags o b s).models = s.models ∧ (clearHubFlags o b s).serve = s.serve ∧ (clearHubFlags o b s).jobs =
      s.jobs ∧ (clearHubFlags o b s).fab = s.fab ∧ (clearHubFlags o b s).out = s.out ∧ (clearHubFlags o b s).fresh = s.fresh ∧
      (clearHubFlags o b s).pins = s.pins ∧ (clearHubFlags o b s).pending = s.pending ∧ (clearHubFlags o b s).boot = s.boot ∧ (clearHubFlags
      o b s).flash = s.flash ∧ (clearHubFlags o b s).mem = s.mem := by
  unfold clearHubFlags
  simp

@[simp] theorem clearFlags_keeps (o : Nat) (b : Nat) (s : State) :
    (clearFlags o b s).sori = s.sori ∧ (clearFlags o b s).models = s.models ∧ (clearFlags o b s).serve = s.serve ∧ (clearFlags o b s).out
      = s.out ∧ (clearFlags o b s).fresh = s.fresh ∧ (clearFlags o b s).pins = s.pins ∧ (clearFlags o b s).pending = s.pending ∧ (clearFlags
      o b s).boot = s.boot ∧ (clearFlags o b s).flash = s.flash ∧ (clearFlags o b s).mem.cells = s.mem.cells ∧ (clearFlags o b s).mem.undef
      = s.mem.undef := by
  unfold clearFlags
  (repeat' split) <;> simp

theorem ranged_keeps (n : Nat) (lo : Nat) (hi : Nat) (s : State) :
    ∀ t, ranged n lo hi s = some t → t.beat = s.beat ∧ t.pwr = s.pwr ∧ t.thm = s.thm ∧ t.hlth = s.hlth ∧ t.rime = s.rime ∧ t.stns = s.stns
      ∧ t.net = s.net ∧ t.sori = s.sori ∧ t.models = s.models ∧ t.serve = s.serve ∧ t.jobs = s.jobs ∧ t.fab = s.fab ∧ t.out = s.out ∧
      t.fresh = s.fresh ∧ t.pins = s.pins ∧ t.pending = s.pending ∧ t.boot = s.boot ∧ t.flash = s.flash ∧ t.mem = s.mem := by
  unfold ranged
  simp

@[simp] theorem setLoadMode_keeps (die : Nat) (num : Nat) (mode : Nat) (s : State) :
    (setLoadMode die num mode s).beat = s.beat ∧ (setLoadMode die num mode s).pwr = s.pwr ∧ (setLoadMode die num mode s).thm = s.thm ∧
      (setLoadMode die num mode s).hlth = s.hlth ∧ (setLoadMode die num mode s).rime = s.rime ∧ (setLoadMode die num mode s).net = s.net ∧
      (setLoadMode die num mode s).sori = s.sori ∧ (setLoadMode die num mode s).models = s.models ∧ (setLoadMode die num mode s).serve =
      s.serve ∧ (setLoadMode die num mode s).jobs = s.jobs ∧ (setLoadMode die num mode s).fab = s.fab ∧ (setLoadMode die num mode s).out =
      s.out ∧ (setLoadMode die num mode s).fresh = s.fresh ∧ (setLoadMode die num mode s).pins = s.pins ∧ (setLoadMode die num mode
      s).pending = s.pending ∧ (setLoadMode die num mode s).boot = s.boot ∧ (setLoadMode die num mode s).flash = s.flash ∧ (setLoadMode die
      num mode s).mem = s.mem := by
  unfold setLoadMode
  simp

@[simp] theorem setClass_keeps (c : Nat) (f : ClassSt → ClassSt) (s : State) :
    (setClass c f s).beat = s.beat ∧ (setClass c f s).pwr = s.pwr ∧ (setClass c f s).thm = s.thm ∧ (setClass c f s).rime = s.rime ∧
      (setClass c f s).stns = s.stns ∧ (setClass c f s).net = s.net ∧ (setClass c f s).sori = s.sori ∧ (setClass c f s).models = s.models ∧
      (setClass c f s).serve = s.serve ∧ (setClass c f s).jobs = s.jobs ∧ (setClass c f s).fab = s.fab ∧ (setClass c f s).out = s.out ∧
      (setClass c f s).fresh = s.fresh ∧ (setClass c f s).pins = s.pins ∧ (setClass c f s).pending = s.pending ∧ (setClass c f s).boot =
      s.boot ∧ (setClass c f s).flash = s.flash ∧ (setClass c f s).mem = s.mem := by
  unfold setClass
  simp

theorem ranged_eq {n lo hi : Nat} {s t : State} (h : ranged n lo hi s = some t) : t = s := by
  unfold ranged at h; split at h
  · exact (Option.some.inj h).symm
  · cases h

theorem writeClass_form {o : Nat} {value mask : Word} {s t : State} (h : writeClass o value mask s = some t) :
    t = s ∨ ∃ c f, t = setClass c f s := by
  unfold writeClass at h
  dsimp only at h
  split at h
  · exact .inr ⟨_, _, ranged_eq h⟩
  · split at h
    · exact .inr ⟨_, _, ranged_eq h⟩
    · exact .inl (Option.some.inj h).symm

theorem writeReg_form {limcel : Bool} {o : Nat} {value mask : Word} {s t : State} (h : writeReg limcel o value mask s = some t) :
    (∃ p, t = { s with pwr := p }) ∨ (∃ p, t = { s with thm := p }) ∨ t = s ∨ (∃ c f, t = setClass c f s) ∨
    (∃ n, t = { s with fab := { s.fab with ownerPct := n } }) ∨ (∃ n, t = { s with fab := { s.fab with timeout := n } }) ∨
    (∃ n, t = { s with mem := { s.mem with scrubInterval := n } }) ∨ (∃ n, t = { s with jobs := { s.jobs with ageBeats := n } }) ∨
    (∃ d n m, t = setLoadMode d n m s) ∨ ∃ v, t = clearFlags o v s := by
  unfold writeReg at h
  by_cases c0 : o = 0x10000
  · rw [if_pos c0] at h; exact .inl (⟨_, ranged_eq h⟩)
  rw [if_neg c0] at h
  by_cases c1 : o = 0x1000C
  · rw [if_pos c1] at h; by_cases c2 : limcel = true
    · rw [if_pos c2] at h; dsimp only at h; split at h
      · exact .inl (⟨_, (Option.some.inj h).symm⟩)
      · cases h
    · rw [if_neg c2] at h; exact .inr (.inr (.inl ((Option.some.inj h).symm)))
  rw [if_neg c1] at h
  by_cases c3 : o = 0x11000
  · rw [if_pos c3] at h; exact .inr (.inl (⟨_, ranged_eq h⟩))
  rw [if_neg c3] at h
  by_cases c4 : (decide (0x20100 ≤ o) && decide (o < 0x20180)) = true
  · rw [if_pos c4] at h; rcases writeClass_form h with h | h
    · exact .inr (.inr (.inl (h)))
    · exact .inr (.inr (.inr (.inl (h))))
  rw [if_neg c4] at h
  by_cases d0 : o = 0x30010
  · rw [if_pos d0] at h; exact .inr (.inr (.inr (.inr (.inl (⟨_, ranged_eq h⟩)))))
  rw [if_neg d0] at h
  by_cases d1 : o = 0x30020
  · rw [if_pos d1] at h; exact .inr (.inr (.inr (.inr (.inr (.inl (⟨_, ranged_eq h⟩))))))
  rw [if_neg d1] at h
  by_cases d2 : o = 0x40000
  · rw [if_pos d2] at h; exact .inr (.inr (.inr (.inr (.inr (.inr (.inl (⟨_, ranged_eq h⟩)))))))
  rw [if_neg d2] at h
  by_cases d3 : o = 0x5FF00
  · rw [if_pos d3] at h; exact .inr (.inr (.inr (.inr (.inr (.inr (.inr (.inl (⟨_, ranged_eq h⟩))))))))
  rw [if_neg d3] at h
  by_cases e0 : (decide (0x70000 ≤ o) && decide (o < 0x80000)) = true
  · rw [if_pos e0] at h; dsimp only at h; split at h
    · split at h
      · exact .inr (.inr (.inr (.inr (.inr (.inr (.inr (.inr (.inl (⟨_, _, _, (Option.some.inj h).symm⟩)))))))))
      · exact .inr (.inr (.inl ((Option.some.inj h).symm)))
    · exact .inr (.inr (.inl ((Option.some.inj h).symm)))
  rw [if_neg e0] at h
  exact .inr (.inr (.inr (.inr (.inr (.inr (.inr (.inr (.inr (⟨_, (Option.some.inj h).symm⟩)))))))))

theorem writeClass_keeps (o : Nat) (value : Word) (mask : Word) (s : State) :
    ∀ t, writeClass o value mask s = some t → t.beat = s.beat ∧ t.pwr = s.pwr ∧ t.thm = s.thm ∧ t.rime = s.rime ∧ t.stns = s.stns ∧ t.net
      = s.net ∧ t.sori = s.sori ∧ t.models = s.models ∧ t.serve = s.serve ∧ t.jobs = s.jobs ∧ t.fab = s.fab ∧ t.out = s.out ∧ t.fresh =
      s.fresh ∧ t.pins = s.pins ∧ t.pending = s.pending ∧ t.boot = s.boot ∧ t.flash = s.flash ∧ t.mem = s.mem := by
  intro t h
  rcases writeClass_form h with rfl | ⟨_, _, rfl⟩ <;> simp

theorem writeReg_keeps (limcel : Bool) (o : Nat) (value : Word) (mask : Word) (s : State) :
    ∀ t, writeReg limcel o value mask s = some t → t.sori = s.sori ∧ t.models = s.models ∧ t.serve = s.serve ∧ t.out = s.out ∧ t.fresh =
      s.fresh ∧ t.pins = s.pins ∧ t.pending = s.pending ∧ t.boot = s.boot ∧ t.flash = s.flash ∧ t.mem.cells = s.mem.cells ∧ t.mem.undef =
      s.mem.undef := by
  intro t h
  rcases writeReg_form h with ⟨_, rfl⟩ | ⟨_, rfl⟩ | rfl | ⟨_, _, rfl⟩ | ⟨_, rfl⟩ | ⟨_, rfl⟩ | ⟨_, rfl⟩ | ⟨_, rfl⟩ | ⟨_, _, _, rfl⟩ | ⟨_, rfl⟩ <;> simp

@[simp] theorem retirePrep_keeps (modelId : Nat) (epoch : Nat) (x1 : Nat) (x2 : Nat) (x3 : State) :
    (retirePrep modelId epoch x1 x2 x3).1.beat = x3.beat ∧ (retirePrep modelId epoch x1 x2 x3).1.pwr = x3.pwr ∧ (retirePrep modelId epoch
      x1 x2 x3).1.thm = x3.thm ∧ (retirePrep modelId epoch x1 x2 x3).1.hlth = x3.hlth ∧ (retirePrep modelId epoch x1 x2 x3).1.rime = x3.rime
      ∧ (retirePrep modelId epoch x1 x2 x3).1.stns = x3.stns ∧ (retirePrep modelId epoch x1 x2 x3).1.net = x3.net ∧ (retirePrep modelId
      epoch x1 x2 x3).1.sori = x3.sori ∧ (retirePrep modelId epoch x1 x2 x3).1.models = x3.models ∧ (retirePrep modelId epoch x1 x2
      x3).1.serve = x3.serve ∧ (retirePrep modelId epoch x1 x2 x3).1.jobs = x3.jobs ∧ (retirePrep modelId epoch x1 x2 x3).1.fab = x3.fab ∧
      (retirePrep modelId epoch x1 x2 x3).1.out = x3.out ∧ (retirePrep modelId epoch x1 x2 x3).1.fresh = x3.fresh ∧ (retirePrep modelId
      epoch x1 x2 x3).1.pins = x3.pins ∧ (retirePrep modelId epoch x1 x2 x3).1.pending = x3.pending ∧ (retirePrep modelId epoch x1 x2
      x3).1.boot = x3.boot ∧ (retirePrep modelId epoch x1 x2 x3).1.flash = x3.flash ∧ (retirePrep modelId epoch x1 x2 x3).1.mem = x3.mem :=
      by
  unfold retirePrep
  simp

@[simp] theorem prepOne_keeps (principal : Nat) (i : Instr) (x1 : Nat) (x2 : Nat) (x3 : State) :
    (prepOne principal i x1 x2 x3).1.sori = x3.sori ∧ (prepOne principal i x1 x2 x3).1.out = x3.out ∧ (prepOne principal i x1 x2
      x3).1.fresh = x3.fresh ∧ (prepOne principal i x1 x2 x3).1.pins = x3.pins ∧ (prepOne principal i x1 x2 x3).1.pending = x3.pending ∧
      (prepOne principal i x1 x2 x3).1.boot = x3.boot ∧ (prepOne principal i x1 x2 x3).1.flash = x3.flash ∧ (prepOne principal i x1 x2
      x3).1.mem.undef = x3.mem.undef := by
  unfold prepOne
  (repeat' split) <;> simp

@[simp] theorem sendIdent_keeps (port : Nat) (s : State) :
    (sendIdent port s).beat = s.beat ∧ (sendIdent port s).pwr = s.pwr ∧ (sendIdent port s).thm = s.thm ∧ (sendIdent port s).hlth = s.hlth
      ∧ (sendIdent port s).rime = s.rime ∧ (sendIdent port s).stns = s.stns ∧ (sendIdent port s).net = s.net ∧ (sendIdent port s).sori =
      s.sori ∧ (sendIdent port s).models = s.models ∧ (sendIdent port s).serve = s.serve ∧ (sendIdent port s).jobs = s.jobs ∧ (sendIdent
      port s).fab = s.fab ∧ (sendIdent port s).fresh = s.fresh ∧ (sendIdent port s).pins = s.pins ∧ (sendIdent port s).pending = s.pending ∧
      (sendIdent port s).boot = s.boot ∧ (sendIdent port s).flash = s.flash ∧ (sendIdent port s).mem = s.mem := by
  unfold sendIdent
  simp

@[simp] theorem setOp_keeps (id : Nat) (f : GlobalOp → GlobalOp) (s : State) :
    (setOp id f s).beat = s.beat ∧ (setOp id f s).pwr = s.pwr ∧ (setOp id f s).thm = s.thm ∧ (setOp id f s).hlth = s.hlth ∧ (setOp id f
      s).rime = s.rime ∧ (setOp id f s).stns = s.stns ∧ (setOp id f s).net = s.net ∧ (setOp id f s).sori = s.sori ∧ (setOp id f s).models =
      s.models ∧ (setOp id f s).serve = s.serve ∧ (setOp id f s).jobs = s.jobs ∧ (setOp id f s).out = s.out ∧ (setOp id f s).fresh = s.fresh
      ∧ (setOp id f s).pins = s.pins ∧ (setOp id f s).pending = s.pending ∧ (setOp id f s).boot = s.boot ∧ (setOp id f s).flash = s.flash ∧
      (setOp id f s).mem = s.mem := by
  unfold setOp
  simp

theorem storeTo_keeps (c : Cmd) (o : Origin) (addr : Nat) (data : List Byte) (s : State) :
    ∀ t, storeTo c o addr data s = .ok t → t.beat = s.beat ∧ t.pwr = s.pwr ∧ t.thm = s.thm ∧ t.hlth = s.hlth ∧ t.rime = s.rime ∧ t.stns =
      s.stns ∧ t.net = s.net ∧ t.sori = s.sori ∧ t.models = s.models ∧ t.serve = s.serve ∧ t.fresh = s.fresh ∧ t.pins = s.pins ∧ t.pending =
      s.pending ∧ t.boot = s.boot ∧ t.flash = s.flash ∧ t.mem.undef = s.mem.undef := by
  unfold storeTo
  split
  · simp
  · intro t h
    have h1 := foldl_moved_keeps (fun s : State => (s.beat, s.pwr, s.thm, s.hlth, s.rime, s.stns, s.net, s.sori, s.models, s.serve, s.fresh, s.pins, s.pending, s.boot, s.flash, s.mem.undef)) _ (by intros; rfl) (by
      intro s x t h
      obtain ⟨off, k⟩ := x
      dsimp only at h
      (repeat' split at h) <;> simp at h <;> subst h <;> simp) _ _ _ h
    simpa using h1

theorem slotWrite_keeps (c : Cmd) (o : Origin) (slot : Nat) (off : Nat) (data : List Byte) (s : State) :
    ∀ t, slotWrite c o slot off data s = .ok t → t.beat = s.beat ∧ t.pwr = s.pwr ∧ t.thm = s.thm ∧ t.hlth = s.hlth ∧ t.rime = s.rime ∧
      t.stns = s.stns ∧ t.net = s.net ∧ t.sori = s.sori ∧ t.models = s.models ∧ t.serve = s.serve ∧ t.fresh = s.fresh ∧ t.pins = s.pins ∧
      t.pending = s.pending ∧ t.boot = s.boot ∧ t.flash = s.flash ∧ t.mem.undef = s.mem.undef := by
  unfold slotWrite
  (repeat' split) <;> grind [applyWrite_keeps, storeTo_keeps]

@[simp] theorem sweepEpochs_keeps (modelId : Nat) (s : State) :
    (sweepEpochs modelId s).beat = s.beat ∧ (sweepEpochs modelId s).pwr = s.pwr ∧ (sweepEpochs modelId s).thm = s.thm ∧ (sweepEpochs
      modelId s).hlth = s.hlth ∧ (sweepEpochs modelId s).rime = s.rime ∧ (sweepEpochs modelId s).stns = s.stns ∧ (sweepEpochs modelId s).net
      = s.net ∧ (sweepEpochs modelId s).sori = s.sori ∧ (sweepEpochs modelId s).serve = s.serve ∧ (sweepEpochs modelId s).jobs = s.jobs ∧
      (sweepEpochs modelId s).fab = s.fab ∧ (sweepEpochs modelId s).out = s.out ∧ (sweepEpochs modelId s).fresh = s.fresh ∧ (sweepEpochs
      modelId s).pins = s.pins ∧ (sweepEpochs modelId s).pending = s.pending ∧ (sweepEpochs modelId s).boot = s.boot ∧ (sweepEpochs modelId
      s).flash = s.flash ∧ (sweepEpochs modelId s).mem.cells = s.mem.cells ∧ (sweepEpochs modelId s).mem.undef = s.mem.undef := by
  unfold sweepEpochs
  (repeat' split) <;> simp

@[simp] theorem floodLink_keeps (pkg : Nat) (port : Nat) (up : Bool) (s : State) :
    (floodLink pkg port up s).beat = s.beat ∧ (floodLink pkg port up s).pwr = s.pwr ∧ (floodLink pkg port up s).thm = s.thm ∧ (floodLink
      pkg port up s).hlth = s.hlth ∧ (floodLink pkg port up s).rime = s.rime ∧ (floodLink pkg port up s).stns = s.stns ∧ (floodLink pkg port
      up s).net = s.net ∧ (floodLink pkg port up s).sori = s.sori ∧ (floodLink pkg port up s).models = s.models ∧ (floodLink pkg port up
      s).serve = s.serve ∧ (floodLink pkg port up s).jobs = s.jobs ∧ (floodLink pkg port up s).fab = s.fab ∧ (floodLink pkg port up s).fresh
      = s.fresh ∧ (floodLink pkg port up s).pins = s.pins ∧ (floodLink pkg port up s).pending = s.pending ∧ (floodLink pkg port up s).boot =
      s.boot ∧ (floodLink pkg port up s).flash = s.flash ∧ (floodLink pkg port up s).mem = s.mem := by
  unfold floodLink
  simp

@[simp] theorem answerPreempts_keeps (s : State) :
    (answerPreempts s).beat = s.beat ∧ (answerPreempts s).pwr = s.pwr ∧ (answerPreempts s).thm = s.thm ∧ (answerPreempts s).hlth = s.hlth
      ∧ (answerPreempts s).rime = s.rime ∧ (answerPreempts s).stns = s.stns ∧ (answerPreempts s).sori = s.sori ∧ (answerPreempts s).models =
      s.models ∧ (answerPreempts s).serve = s.serve ∧ (answerPreempts s).fab = s.fab ∧ (answerPreempts s).fresh = s.fresh ∧ (answerPreempts
      s).pins = s.pins ∧ (answerPreempts s).pending = s.pending ∧ (answerPreempts s).boot = s.boot ∧ (answerPreempts s).flash = s.flash ∧
      (answerPreempts s).mem = s.mem := by
  unfold answerPreempts
  simp

@[simp] theorem setHandle_keeps (id : Nat) (f : Handle → Handle) (s : State) :
    (setHandle id f s).beat = s.beat ∧ (setHandle id f s).pwr = s.pwr ∧ (setHandle id f s).thm = s.thm ∧ (setHandle id f s).hlth = s.hlth
      ∧ (setHandle id f s).rime = s.rime ∧ (setHandle id f s).stns = s.stns ∧ (setHandle id f s).net = s.net ∧ (setHandle id f s).sori =
      s.sori ∧ (setHandle id f s).models = s.models ∧ (setHandle id f s).serve = s.serve ∧ (setHandle id f s).jobs = s.jobs ∧ (setHandle id
      f s).fab = s.fab ∧ (setHandle id f s).out = s.out ∧ (setHandle id f s).fresh = s.fresh ∧ (setHandle id f s).pins = s.pins ∧ (setHandle
      id f s).pending = s.pending ∧ (setHandle id f s).boot = s.boot ∧ (setHandle id f s).flash = s.flash ∧ (setHandle id f s).mem.cells =
      s.mem.cells ∧ (setHandle id f s).mem.undef = s.mem.undef := by
  unfold setHandle
  simp

@[simp] theorem dropMove_keeps (h : Handle) (m : TierMoveSt) (status : Nat) (s : State) :
    (dropMove h m status s).beat = s.beat ∧ (dropMove h m status s).pwr = s.pwr ∧ (dropMove h m status s).thm = s.thm ∧ (dropMove h m
      status s).hlth = s.hlth ∧ (dropMove h m status s).rime = s.rime ∧ (dropMove h m status s).stns = s.stns ∧ (dropMove h m status s).sori
      = s.sori ∧ (dropMove h m status s).models = s.models ∧ (dropMove h m status s).serve = s.serve ∧ (dropMove h m status s).jobs = s.jobs
      ∧ (dropMove h m status s).fab = s.fab ∧ (dropMove h m status s).fresh = s.fresh ∧ (dropMove h m status s).pins = s.pins ∧ (dropMove h
      m status s).pending = s.pending ∧ (dropMove h m status s).boot = s.boot ∧ (dropMove h m status s).flash = s.flash ∧ (dropMove h m
      status s).mem.cells = s.mem.cells ∧ (dropMove h m status s).mem.undef = s.mem.undef := by
  unfold dropMove
  (repeat' split) <;> simp

@[simp] theorem beginMove_keeps (h : Handle) (s : State) :
    (beginMove h s).beat = s.beat ∧ (beginMove h s).pwr = s.pwr ∧ (beginMove h s).thm = s.thm ∧ (beginMove h s).hlth = s.hlth ∧ (beginMove
      h s).rime = s.rime ∧ (beginMove h s).stns = s.stns ∧ (beginMove h s).sori = s.sori ∧ (beginMove h s).jobs = s.jobs ∧ (beginMove h
      s).fab = s.fab ∧ (beginMove h s).fresh = s.fresh ∧ (beginMove h s).pins = s.pins ∧ (beginMove h s).pending = s.pending ∧ (beginMove h
      s).boot = s.boot ∧ (beginMove h s).flash = s.flash ∧ (beginMove h s).mem.undef = s.mem.undef := by
  unfold beginMove
  split
  · simp
  · split
    · simp
    · dsimp only
      split
      · rename_i h; have h1 := (demandRoom_keeps _ _ _ _).1 _ _ h; simp_all
      · rename_i h; have h1 := (demandRoom_keeps _ _ _ _).2 _ h; simp_all
      · simp

@[simp] theorem beginMoves_keeps (s : State) :
    (beginMoves s).beat = s.beat ∧ (beginMoves s).pwr = s.pwr ∧ (beginMoves s).thm = s.thm ∧ (beginMoves s).hlth = s.hlth ∧ (beginMoves
      s).rime = s.rime ∧ (beginMoves s).stns = s.stns ∧ (beginMoves s).sori = s.sori ∧ (beginMoves s).jobs = s.jobs ∧ (beginMoves s).fab =
      s.fab ∧ (beginMoves s).fresh = s.fresh ∧ (beginMoves s).pins = s.pins ∧ (beginMoves s).pending = s.pending ∧ (beginMoves s).boot =
      s.boot ∧ (beginMoves s).flash = s.flash ∧ (beginMoves s).mem.undef = s.mem.undef := by
  unfold beginMoves
  simp

@[simp] theorem failPackage_keeps (s : State) :
    (failPackage s).beat = s.beat ∧ (failPackage s).thm = s.thm ∧ (failPackage s).hlth = s.hlth ∧ (failPackage s).stns = s.stns ∧
      (failPackage s).sori = s.sori ∧ (failPackage s).fresh = s.fresh ∧ (failPackage s).pins = s.pins ∧ (failPackage s).pending = s.pending
      ∧ (failPackage s).boot = s.boot ∧ (failPackage s).flash.counters = s.flash.counters ∧ (failPackage s).flash.install = s.flash.install
      ∧ (failPackage s).flash.serial = s.flash.serial ∧ (failPackage s).mem.cells = s.mem.cells ∧ (failPackage s).mem.undef = s.mem.undef :=
      by
  unfold failPackage
  (repeat' split) <;> (try simp) <;> (repeat' split) <;> (try simp) <;> (repeat' split) <;> (try simp_all)

@[simp] theorem evalHealth_keeps (s : State) :
    (evalHealth s).beat = s.beat ∧ (evalHealth s).thm = s.thm ∧ (evalHealth s).stns = s.stns ∧ (evalHealth s).sori = s.sori ∧ (evalHealth
      s).fresh = s.fresh ∧ (evalHealth s).pending = s.pending ∧ (evalHealth s).boot = s.boot ∧ (evalHealth s).flash.counters =
      s.flash.counters ∧ (evalHealth s).flash.install = s.flash.install ∧ (evalHealth s).flash.serial = s.flash.serial ∧ (evalHealth
      s).mem.cells = s.mem.cells ∧ (evalHealth s).mem.undef = s.mem.undef := by
  unfold evalHealth
  (repeat' split) <;> (try simp) <;> (repeat' split) <;> (try simp) <;> (repeat' split) <;> (try simp_all)

@[simp] theorem coordAbort_keeps (x1 : Sorus) (pkg : Nat) (index : Nat) (status : Nat) (s : State) :
    (coordAbort x1 pkg index status s).beat = s.beat ∧ (coordAbort x1 pkg index status s).pwr = s.pwr ∧ (coordAbort x1 pkg index status
      s).thm = s.thm ∧ (coordAbort x1 pkg index status s).hlth = s.hlth ∧ (coordAbort x1 pkg index status s).rime = s.rime ∧ (coordAbort x1
      pkg index status s).stns = s.stns ∧ (coordAbort x1 pkg index status s).models = s.models ∧ (coordAbort x1 pkg index status s).serve =
      s.serve ∧ (coordAbort x1 pkg index status s).jobs = s.jobs ∧ (coordAbort x1 pkg index status s).fab = s.fab ∧ (coordAbort x1 pkg index
      status s).fresh = s.fresh ∧ (coordAbort x1 pkg index status s).pins = s.pins ∧ (coordAbort x1 pkg index status s).pending = s.pending
      ∧ (coordAbort x1 pkg index status s).boot = s.boot ∧ (coordAbort x1 pkg index status s).flash = s.flash ∧ (coordAbort x1 pkg index
      status s).mem.cells = s.mem.cells ∧ (coordAbort x1 pkg index status s).mem.undef = s.mem.undef := by
  unfold coordAbort
  simp

@[simp] theorem takeAnswer_keeps (sid : Nat) (pkg : Nat) (status : Nat) (index : Nat) (s : State) :
    (takeAnswer sid pkg status index s).beat = s.beat ∧ (takeAnswer sid pkg status index s).pwr = s.pwr ∧ (takeAnswer sid pkg status index
      s).thm = s.thm ∧ (takeAnswer sid pkg status index s).hlth = s.hlth ∧ (takeAnswer sid pkg status index s).rime = s.rime ∧ (takeAnswer
      sid pkg status index s).stns = s.stns ∧ (takeAnswer sid pkg status index s).models = s.models ∧ (takeAnswer sid pkg status index
      s).serve = s.serve ∧ (takeAnswer sid pkg status index s).jobs = s.jobs ∧ (takeAnswer sid pkg status index s).fab = s.fab ∧ (takeAnswer
      sid pkg status index s).fresh = s.fresh ∧ (takeAnswer sid pkg status index s).pins = s.pins ∧ (takeAnswer sid pkg status index
      s).pending = s.pending ∧ (takeAnswer sid pkg status index s).boot = s.boot ∧ (takeAnswer sid pkg status index s).flash = s.flash ∧
      (takeAnswer sid pkg status index s).mem.cells = s.mem.cells ∧ (takeAnswer sid pkg status index s).mem.undef = s.mem.undef := by
  unfold takeAnswer
  (repeat' split) <;> simp

@[simp] theorem answerCoord_keeps (x1 : Sorus) (status : Nat) (index : Nat) (s : State) :
    (answerCoord x1 status index s).beat = s.beat ∧ (answerCoord x1 status index s).pwr = s.pwr ∧ (answerCoord x1 status index s).thm =
      s.thm ∧ (answerCoord x1 status index s).hlth = s.hlth ∧ (answerCoord x1 status index s).rime = s.rime ∧ (answerCoord x1 status index
      s).stns = s.stns ∧ (answerCoord x1 status index s).models = s.models ∧ (answerCoord x1 status index s).serve = s.serve ∧ (answerCoord
      x1 status index s).jobs = s.jobs ∧ (answerCoord x1 status index s).fab = s.fab ∧ (answerCoord x1 status index s).fresh = s.fresh ∧
      (answerCoord x1 status index s).pins = s.pins ∧ (answerCoord x1 status index s).pending = s.pending ∧ (answerCoord x1 status index
      s).boot = s.boot ∧ (answerCoord x1 status index s).flash = s.flash ∧ (answerCoord x1 status index s).mem.cells = s.mem.cells ∧
      (answerCoord x1 status index s).mem.undef = s.mem.undef := by
  unfold answerCoord
  (repeat' split) <;> simp

@[simp] theorem dropRegions_keeps (p : Owner → Bool) (s : State) :
    (dropRegions p s).beat = s.beat ∧ (dropRegions p s).pwr = s.pwr ∧ (dropRegions p s).thm = s.thm ∧ (dropRegions p s).hlth = s.hlth ∧
      (dropRegions p s).rime = s.rime ∧ (dropRegions p s).stns = s.stns ∧ (dropRegions p s).net = s.net ∧ (dropRegions p s).sori = s.sori ∧
      (dropRegions p s).models = s.models ∧ (dropRegions p s).serve = s.serve ∧ (dropRegions p s).jobs = s.jobs ∧ (dropRegions p s).fab =
      s.fab ∧ (dropRegions p s).out = s.out ∧ (dropRegions p s).fresh = s.fresh ∧ (dropRegions p s).pins = s.pins ∧ (dropRegions p
      s).pending = s.pending ∧ (dropRegions p s).boot = s.boot ∧ (dropRegions p s).flash = s.flash ∧ (dropRegions p s).mem.cells =
      s.mem.cells ∧ (dropRegions p s).mem.undef = s.mem.undef := by
  unfold dropRegions
  simp

@[simp] theorem dropReserved_keeps (sid : Nat) (s : State) :
    (dropReserved sid s).beat = s.beat ∧ (dropReserved sid s).pwr = s.pwr ∧ (dropReserved sid s).thm = s.thm ∧ (dropReserved sid s).hlth =
      s.hlth ∧ (dropReserved sid s).rime = s.rime ∧ (dropReserved sid s).stns = s.stns ∧ (dropReserved sid s).net = s.net ∧ (dropReserved
      sid s).sori = s.sori ∧ (dropReserved sid s).models = s.models ∧ (dropReserved sid s).serve = s.serve ∧ (dropReserved sid s).jobs =
      s.jobs ∧ (dropReserved sid s).fab = s.fab ∧ (dropReserved sid s).out = s.out ∧ (dropReserved sid s).fresh = s.fresh ∧ (dropReserved
      sid s).pins = s.pins ∧ (dropReserved sid s).pending = s.pending ∧ (dropReserved sid s).boot = s.boot ∧ (dropReserved sid s).flash =
      s.flash ∧ (dropReserved sid s).mem.cells = s.mem.cells ∧ (dropReserved sid s).mem.undef = s.mem.undef := by
  unfold dropReserved
  simp

@[simp] theorem prepAll_keeps (principal : Nat) (sid : Nat) (x1 : Nat) (x2 : List Instr) (x3 : State) :
    (prepAll principal sid x1 x2 x3).1.sori = x3.sori ∧ (prepAll principal sid x1 x2 x3).1.out = x3.out ∧ (prepAll principal sid x1 x2
      x3).1.fresh = x3.fresh ∧ (prepAll principal sid x1 x2 x3).1.pins = x3.pins ∧ (prepAll principal sid x1 x2 x3).1.pending = x3.pending ∧
      (prepAll principal sid x1 x2 x3).1.boot = x3.boot ∧ (prepAll principal sid x1 x2 x3).1.flash = x3.flash ∧ (prepAll principal sid x1 x2
      x3).1.mem.undef = x3.mem.undef := by
  induction x2 generalizing x1 x3 with
  | nil => simp [prepAll]
  | cons i is ih =>
    unfold prepAll
    split
    · simp
    · split
      · rename_i h; have h1 := prepOne_keeps principal i sid x1 x3; rw [h] at h1; simpa using h1
      · rename_i u h; have h1 := prepOne_keeps principal i sid x1 x3; rw [h] at h1; simp at h1
        have h2 := ih (x1 + 1) u; simp_all

@[simp] theorem memberPrepare_keeps (sid : Nat) (s : State) :
    (memberPrepare sid s).fresh = s.fresh ∧ (memberPrepare sid s).pins = s.pins ∧ (memberPrepare sid s).pending = s.pending ∧
      (memberPrepare sid s).boot = s.boot ∧ (memberPrepare sid s).flash = s.flash ∧ (memberPrepare sid s).mem.undef = s.mem.undef := by
  unfold memberPrepare
  (repeat' split) <;> grind [prepAll_keeps, dropReserved_keeps, abortSorus_keeps, setSorus_keeps, answerCoord_keeps]

@[simp] theorem prepareDeadline_keeps (sid : Nat) (s : State) :
    (prepareDeadline sid s).beat = s.beat ∧ (prepareDeadline sid s).pwr = s.pwr ∧ (prepareDeadline sid s).thm = s.thm ∧ (prepareDeadline
      sid s).hlth = s.hlth ∧ (prepareDeadline sid s).rime = s.rime ∧ (prepareDeadline sid s).stns = s.stns ∧ (prepareDeadline sid s).models
      = s.models ∧ (prepareDeadline sid s).serve = s.serve ∧ (prepareDeadline sid s).jobs = s.jobs ∧ (prepareDeadline sid s).fab = s.fab ∧
      (prepareDeadline sid s).fresh = s.fresh ∧ (prepareDeadline sid s).pins = s.pins ∧ (prepareDeadline sid s).pending = s.pending ∧
      (prepareDeadline sid s).boot = s.boot ∧ (prepareDeadline sid s).flash = s.flash ∧ (prepareDeadline sid s).mem.cells = s.mem.cells ∧
      (prepareDeadline sid s).mem.undef = s.mem.undef := by
  unfold prepareDeadline
  (repeat' split) <;> simp

@[simp] theorem phase1Sori_keeps (s : State) :
    (phase1Sori s).fresh = s.fresh ∧ (phase1Sori s).pins = s.pins ∧ (phase1Sori s).pending = s.pending ∧ (phase1Sori s).boot = s.boot ∧
      (phase1Sori s).flash = s.flash ∧ (phase1Sori s).mem.undef = s.mem.undef := by
  unfold phase1Sori
  (repeat' split) <;> (try simp (disch := ((try intros); (repeat' split) <;> (try simp)))) <;> (repeat' split) <;> (try simp (disch := ((try intros); (repeat' split) <;> (try simp)))) <;> (repeat' split) <;> (try simp_all)

@[simp] theorem releaseClaims_keeps (s : State) :
    (releaseClaims s).beat = s.beat ∧ (releaseClaims s).pwr = s.pwr ∧ (releaseClaims s).thm = s.thm ∧ (releaseClaims s).hlth = s.hlth ∧
      (releaseClaims s).rime = s.rime ∧ (releaseClaims s).stns = s.stns ∧ (releaseClaims s).net = s.net ∧ (releaseClaims s).sori = s.sori ∧
      (releaseClaims s).models = s.models ∧ (releaseClaims s).serve = s.serve ∧ (releaseClaims s).fab = s.fab ∧ (releaseClaims s).out =
      s.out ∧ (releaseClaims s).fresh = s.fresh ∧ (releaseClaims s).pins = s.pins ∧ (releaseClaims s).pending = s.pending ∧ (releaseClaims
      s).boot = s.boot ∧ (releaseClaims s).flash = s.flash ∧ (releaseClaims s).mem = s.mem := by
  unfold releaseClaims
  simp

@[simp] theorem rebindFrond_keeps (die : Nat) (s : State) :
    (rebindFrond die s).beat = s.beat ∧ (rebindFrond die s).pwr = s.pwr ∧ (rebindFrond die s).thm = s.thm ∧ (rebindFrond die s).hlth =
      s.hlth ∧ (rebindFrond die s).rime = s.rime ∧ (rebindFrond die s).net = s.net ∧ (rebindFrond die s).sori = s.sori ∧ (rebindFrond die
      s).models = s.models ∧ (rebindFrond die s).serve = s.serve ∧ (rebindFrond die s).jobs = s.jobs ∧ (rebindFrond die s).fab = s.fab ∧
      (rebindFrond die s).out = s.out ∧ (rebindFrond die s).fresh = s.fresh ∧ (rebindFrond die s).pins = s.pins ∧ (rebindFrond die
      s).pending = s.pending ∧ (rebindFrond die s).boot = s.boot ∧ (rebindFrond die s).flash = s.flash ∧ (rebindFrond die s).mem = s.mem :=
      by
  unfold rebindFrond
  (repeat' split) <;> simp

@[simp] theorem returnName_keeps (die : Nat) (letter : Nat) (num : Nat) (s : State) :
    (returnName die letter num s).beat = s.beat ∧ (returnName die letter num s).pwr = s.pwr ∧ (returnName die letter num s).thm = s.thm ∧
      (returnName die letter num s).hlth = s.hlth ∧ (returnName die letter num s).rime = s.rime ∧ (returnName die letter num s).net = s.net
      ∧ (returnName die letter num s).sori = s.sori ∧ (returnName die letter num s).models = s.models ∧ (returnName die letter num s).serve
      = s.serve ∧ (returnName die letter num s).jobs = s.jobs ∧ (returnName die letter num s).fab = s.fab ∧ (returnName die letter num
      s).out = s.out ∧ (returnName die letter num s).fresh = s.fresh ∧ (returnName die letter num s).pins = s.pins ∧ (returnName die letter
      num s).pending = s.pending ∧ (returnName die letter num s).boot = s.boot ∧ (returnName die letter num s).flash = s.flash ∧ (returnName
      die letter num s).mem = s.mem := by
  unfold returnName
  (repeat' split) <;> simp

@[simp] theorem rebindFronds_keeps (die : Nat) (s : State) :
    (rebindFronds die s).beat = s.beat ∧ (rebindFronds die s).pwr = s.pwr ∧ (rebindFronds die s).thm = s.thm ∧ (rebindFronds die s).hlth =
      s.hlth ∧ (rebindFronds die s).rime = s.rime ∧ (rebindFronds die s).net = s.net ∧ (rebindFronds die s).sori = s.sori ∧ (rebindFronds
      die s).models = s.models ∧ (rebindFronds die s).serve = s.serve ∧ (rebindFronds die s).jobs = s.jobs ∧ (rebindFronds die s).fab =
      s.fab ∧ (rebindFronds die s).out = s.out ∧ (rebindFronds die s).fresh = s.fresh ∧ (rebindFronds die s).pins = s.pins ∧ (rebindFronds
      die s).pending = s.pending ∧ (rebindFronds die s).boot = s.boot ∧ (rebindFronds die s).flash = s.flash ∧ (rebindFronds die s).mem =
      s.mem := by
  unfold rebindFronds
  first
  | (simp; done)
  | ((repeat' split) <;> simp; done)
  | ((repeat' split) <;> (try simp) <;> (repeat' split) <;> (try simp) <;> (repeat' split) <;> (try simp_all); done)

@[simp] theorem returnNames_keeps (s : State) :
    (returnNames s).beat = s.beat ∧ (returnNames s).pwr = s.pwr ∧ (returnNames s).thm = s.thm ∧ (returnNames s).hlth = s.hlth ∧
      (returnNames s).rime = s.rime ∧ (returnNames s).net = s.net ∧ (returnNames s).sori = s.sori ∧ (returnNames s).models = s.models ∧
      (returnNames s).serve = s.serve ∧ (returnNames s).jobs = s.jobs ∧ (returnNames s).fab = s.fab ∧ (returnNames s).out = s.out ∧
      (returnNames s).fresh = s.fresh ∧ (returnNames s).pins = s.pins ∧ (returnNames s).pending = s.pending ∧ (returnNames s).boot = s.boot
      ∧ (returnNames s).flash = s.flash ∧ (returnNames s).mem = s.mem := by
  unfold returnNames
  simp

@[simp] theorem returnRegions_keeps (s : State) :
    (returnRegions s).beat = s.beat ∧ (returnRegions s).pwr = s.pwr ∧ (returnRegions s).thm = s.thm ∧ (returnRegions s).hlth = s.hlth ∧
      (returnRegions s).rime = s.rime ∧ (returnRegions s).stns = s.stns ∧ (returnRegions s).net = s.net ∧ (returnRegions s).sori = s.sori ∧
      (returnRegions s).models = s.models ∧ (returnRegions s).serve = s.serve ∧ (returnRegions s).jobs = s.jobs ∧ (returnRegions s).fab =
      s.fab ∧ (returnRegions s).out = s.out ∧ (returnRegions s).fresh = s.fresh ∧ (returnRegions s).pins = s.pins ∧ (returnRegions
      s).pending = s.pending ∧ (returnRegions s).boot = s.boot ∧ (returnRegions s).flash = s.flash ∧ (returnRegions s).mem.cells =
      s.mem.cells ∧ (returnRegions s).mem.undef = s.mem.undef := by
  unfold returnRegions
  (repeat' split) <;> (try simp (disch := ((try intros); (repeat' split) <;> (try simp)))) <;> (repeat' split) <;> (try simp (disch := ((try intros); (repeat' split) <;> (try simp)))) <;> (repeat' split) <;> (try simp_all)

@[simp] theorem refuseEntries_keeps (pkg : Nat) (port : Nat) (s : State) :
    (refuseEntries pkg port s).beat = s.beat ∧ (refuseEntries pkg port s).pwr = s.pwr ∧ (refuseEntries pkg port s).thm = s.thm ∧
      (refuseEntries pkg port s).hlth = s.hlth ∧ (refuseEntries pkg port s).rime = s.rime ∧ (refuseEntries pkg port s).stns = s.stns ∧
      (refuseEntries pkg port s).net = s.net ∧ (refuseEntries pkg port s).sori = s.sori ∧ (refuseEntries pkg port s).models = s.models ∧
      (refuseEntries pkg port s).serve = s.serve ∧ (refuseEntries pkg port s).jobs = s.jobs ∧ (refuseEntries pkg port s).out = s.out ∧
      (refuseEntries pkg port s).fresh = s.fresh ∧ (refuseEntries pkg port s).pins = s.pins ∧ (refuseEntries pkg port s).pending = s.pending
      ∧ (refuseEntries pkg port s).boot = s.boot ∧ (refuseEntries pkg port s).flash = s.flash ∧ (refuseEntries pkg port s).mem = s.mem := by
  unfold refuseEntries
  (repeat' split) <;> simp

@[simp] theorem sendRelease_keeps (o : GlobalOp) (beat : Nat) (s : State) :
    (sendRelease o beat s).beat = s.beat ∧ (sendRelease o beat s).pwr = s.pwr ∧ (sendRelease o beat s).thm = s.thm ∧ (sendRelease o beat
      s).hlth = s.hlth ∧ (sendRelease o beat s).rime = s.rime ∧ (sendRelease o beat s).stns = s.stns ∧ (sendRelease o beat s).net = s.net ∧
      (sendRelease o beat s).sori = s.sori ∧ (sendRelease o beat s).models = s.models ∧ (sendRelease o beat s).serve = s.serve ∧
      (sendRelease o beat s).jobs = s.jobs ∧ (sendRelease o beat s).fab = s.fab ∧ (sendRelease o beat s).fresh = s.fresh ∧ (sendRelease o
      beat s).pins = s.pins ∧ (sendRelease o beat s).pending = s.pending ∧ (sendRelease o beat s).boot = s.boot ∧ (sendRelease o beat
      s).flash = s.flash ∧ (sendRelease o beat s).mem = s.mem := by
  unfold sendRelease
  simp

@[simp] theorem startWait_keeps (p : Place) (s : State) :
    (startWait p s).beat = s.beat ∧ (startWait p s).pwr = s.pwr ∧ (startWait p s).thm = s.thm ∧ (startWait p s).hlth = s.hlth ∧ (startWait
      p s).rime = s.rime ∧ (startWait p s).stns = s.stns ∧ (startWait p s).net = s.net ∧ (startWait p s).sori = s.sori ∧ (startWait p
      s).models = s.models ∧ (startWait p s).serve = s.serve ∧ (startWait p s).fab = s.fab ∧ (startWait p s).out = s.out ∧ (startWait p
      s).fresh = s.fresh ∧ (startWait p s).pins = s.pins ∧ (startWait p s).pending = s.pending ∧ (startWait p s).boot = s.boot ∧ (startWait
      p s).flash = s.flash ∧ (startWait p s).mem = s.mem := by
  unfold startWait
  simp

@[simp] theorem flagWaits_keeps (a : Nat) (n : Nat) (limited : Bool) (s : State) :
    (flagWaits a n limited s).beat = s.beat ∧ (flagWaits a n limited s).pwr = s.pwr ∧ (flagWaits a n limited s).thm = s.thm ∧ (flagWaits a
      n limited s).hlth = s.hlth ∧ (flagWaits a n limited s).rime = s.rime ∧ (flagWaits a n limited s).stns = s.stns ∧ (flagWaits a n
      limited s).net = s.net ∧ (flagWaits a n limited s).sori = s.sori ∧ (flagWaits a n limited s).models = s.models ∧ (flagWaits a n
      limited s).serve = s.serve ∧ (flagWaits a n limited s).fab = s.fab ∧ (flagWaits a n limited s).out = s.out ∧ (flagWaits a n limited
      s).fresh = s.fresh ∧ (flagWaits a n limited s).pins = s.pins ∧ (flagWaits a n limited s).pending = s.pending ∧ (flagWaits a n limited
      s).boot = s.boot ∧ (flagWaits a n limited s).flash = s.flash ∧ (flagWaits a n limited s).mem = s.mem := by
  unfold flagWaits
  simp

@[simp] theorem applyAtomic_keeps (op : Nat) (a : Nat) (value : Nat) (s : State) :
    (applyAtomic op a value s).beat = s.beat ∧ (applyAtomic op a value s).pwr = s.pwr ∧ (applyAtomic op a value s).thm = s.thm ∧
      (applyAtomic op a value s).hlth = s.hlth ∧ (applyAtomic op a value s).rime = s.rime ∧ (applyAtomic op a value s).stns = s.stns ∧
      (applyAtomic op a value s).net = s.net ∧ (applyAtomic op a value s).sori = s.sori ∧ (applyAtomic op a value s).models = s.models ∧
      (applyAtomic op a value s).serve = s.serve ∧ (applyAtomic op a value s).out = s.out ∧ (applyAtomic op a value s).pins = s.pins ∧
      (applyAtomic op a value s).pending = s.pending ∧ (applyAtomic op a value s).boot = s.boot ∧ (applyAtomic op a value s).flash = s.flash
      ∧ (applyAtomic op a value s).mem.undef = s.mem.undef := by
  unfold applyAtomic
  first
  | (simp; done)
  | ((repeat' split) <;> simp; done)
  | ((repeat' split) <;> (try simp) <;> (repeat' split) <;> (try simp) <;> (repeat' split) <;> (try simp_all); done)

@[simp] theorem bumpCounter_keeps (i : Nat) (inc : Nat) (s : State) :
    (bumpCounter i inc s).beat = s.beat ∧ (bumpCounter i inc s).pwr = s.pwr ∧ (bumpCounter i inc s).thm = s.thm ∧ (bumpCounter i inc
      s).hlth = s.hlth ∧ (bumpCounter i inc s).rime = s.rime ∧ (bumpCounter i inc s).stns = s.stns ∧ (bumpCounter i inc s).net = s.net ∧
      (bumpCounter i inc s).sori = s.sori ∧ (bumpCounter i inc s).models = s.models ∧ (bumpCounter i inc s).serve = s.serve ∧ (bumpCounter i
      inc s).out = s.out ∧ (bumpCounter i inc s).pins = s.pins ∧ (bumpCounter i inc s).pending = s.pending ∧ (bumpCounter i inc s).boot =
      s.boot ∧ (bumpCounter i inc s).flash = s.flash ∧ (bumpCounter i inc s).mem.undef = s.mem.undef := by
  unfold bumpCounter
  simp

@[simp] theorem endCopy_keeps (o : Origin) (bump : Nat × Nat × Nat × Nat) (s : State) :
    (endCopy o bump s).beat = s.beat ∧ (endCopy o bump s).pwr = s.pwr ∧ (endCopy o bump s).thm = s.thm ∧ (endCopy o bump s).hlth = s.hlth
      ∧ (endCopy o bump s).rime = s.rime ∧ (endCopy o bump s).stns = s.stns ∧ (endCopy o bump s).net = s.net ∧ (endCopy o bump s).sori =
      s.sori ∧ (endCopy o bump s).models = s.models ∧ (endCopy o bump s).serve = s.serve ∧ (endCopy o bump s).pins = s.pins ∧ (endCopy o
      bump s).pending = s.pending ∧ (endCopy o bump s).boot = s.boot ∧ (endCopy o bump s).flash = s.flash ∧ (endCopy o bump s).mem.undef =
      s.mem.undef := by
  unfold endCopy
  (repeat' split) <;> simp

@[simp] theorem fillCache_keeps (job : Nat) (x1 : Access) (data : List Byte) (s : State) :
    (fillCache job x1 data s).beat = s.beat ∧ (fillCache job x1 data s).pwr = s.pwr ∧ (fillCache job x1 data s).thm = s.thm ∧ (fillCache
      job x1 data s).hlth = s.hlth ∧ (fillCache job x1 data s).rime = s.rime ∧ (fillCache job x1 data s).stns = s.stns ∧ (fillCache job x1
      data s).net = s.net ∧ (fillCache job x1 data s).sori = s.sori ∧ (fillCache job x1 data s).models = s.models ∧ (fillCache job x1 data
      s).serve = s.serve ∧ (fillCache job x1 data s).jobs = s.jobs ∧ (fillCache job x1 data s).out = s.out ∧ (fillCache job x1 data s).fresh
      = s.fresh ∧ (fillCache job x1 data s).pins = s.pins ∧ (fillCache job x1 data s).pending = s.pending ∧ (fillCache job x1 data s).boot =
      s.boot ∧ (fillCache job x1 data s).flash = s.flash ∧ (fillCache job x1 data s).mem = s.mem := by
  unfold fillCache
  (repeat' split) <;> simp

@[simp] theorem releaseHeld_keeps (home : Nat) (s : State) :
    (releaseHeld home s).beat = s.beat ∧ (releaseHeld home s).pwr = s.pwr ∧ (releaseHeld home s).thm = s.thm ∧ (releaseHeld home s).hlth =
      s.hlth ∧ (releaseHeld home s).rime = s.rime ∧ (releaseHeld home s).stns = s.stns ∧ (releaseHeld home s).net = s.net ∧ (releaseHeld
      home s).sori = s.sori ∧ (releaseHeld home s).models = s.models ∧ (releaseHeld home s).serve = s.serve ∧ (releaseHeld home s).jobs =
      s.jobs ∧ (releaseHeld home s).fresh = s.fresh ∧ (releaseHeld home s).pins = s.pins ∧ (releaseHeld home s).pending = s.pending ∧
      (releaseHeld home s).boot = s.boot ∧ (releaseHeld home s).flash = s.flash ∧ (releaseHeld home s).mem = s.mem := by
  unfold releaseHeld
  (repeat' split) <;> simp

@[simp] theorem answerAccess_keeps (x : Access) (ok : Bool) (cacheable : Bool) (data : List Byte) (s : State) :
    (answerAccess x ok cacheable data s).beat = s.beat ∧ (answerAccess x ok cacheable data s).thm = s.thm ∧ (answerAccess x ok cacheable
      data s).hlth = s.hlth ∧ (answerAccess x ok cacheable data s).stns = s.stns ∧ (answerAccess x ok cacheable data s).sori = s.sori ∧
      (answerAccess x ok cacheable data s).pins = s.pins ∧ (answerAccess x ok cacheable data s).pending = s.pending ∧ (answerAccess x ok
      cacheable data s).boot = s.boot ∧ (answerAccess x ok cacheable data s).flash.counters = s.flash.counters ∧ (answerAccess x ok
      cacheable data s).flash.install = s.flash.install ∧ (answerAccess x ok cacheable data s).flash.serial = s.flash.serial ∧ (answerAccess
      x ok cacheable data s).mem.undef = s.mem.undef := by
  unfold answerAccess
  (repeat' split) <;> (try simp) <;> (repeat' split) <;> (try simp) <;> (repeat' split) <;> (try simp_all)

@[simp] theorem answerTxn_keeps (pkg : Nat) (agent : Nat) (seq : Nat) (result : Nat) (s : State) :
    (answerTxn pkg agent seq result s).beat = s.beat ∧ (answerTxn pkg agent seq result s).thm = s.thm ∧ (answerTxn pkg agent seq result
      s).hlth = s.hlth ∧ (answerTxn pkg agent seq result s).stns = s.stns ∧ (answerTxn pkg agent seq result s).sori = s.sori ∧ (answerTxn
      pkg agent seq result s).pins = s.pins ∧ (answerTxn pkg agent seq result s).pending = s.pending ∧ (answerTxn pkg agent seq result
      s).boot = s.boot ∧ (answerTxn pkg agent seq result s).flash.counters = s.flash.counters ∧ (answerTxn pkg agent seq result
      s).flash.install = s.flash.install ∧ (answerTxn pkg agent seq result s).flash.serial = s.flash.serial ∧ (answerTxn pkg agent seq
      result s).mem.undef = s.mem.undef := by
  unfold answerTxn
  (repeat' split) <;> simp

@[simp] theorem commitTxn_keeps (t : StagedTxn) (s : State) :
    (commitTxn t s).beat = s.beat ∧ (commitTxn t s).thm = s.thm ∧ (commitTxn t s).hlth = s.hlth ∧ (commitTxn t s).stns = s.stns ∧
      (commitTxn t s).sori = s.sori ∧ (commitTxn t s).pins = s.pins ∧ (commitTxn t s).pending = s.pending ∧ (commitTxn t s).boot = s.boot ∧
      (commitTxn t s).flash.counters = s.flash.counters ∧ (commitTxn t s).flash.install = s.flash.install ∧ (commitTxn t s).flash.serial =
      s.flash.serial ∧ (commitTxn t s).mem.undef = s.mem.undef := by
  unfold commitTxn
  (repeat' split) <;> (try simp) <;> (repeat' split) <;> (try simp) <;> (repeat' split) <;> (try simp_all)

@[simp] theorem commitTxns_keeps (s : State) :
    (commitTxns s).beat = s.beat ∧ (commitTxns s).thm = s.thm ∧ (commitTxns s).hlth = s.hlth ∧ (commitTxns s).stns = s.stns ∧ (commitTxns
      s).sori = s.sori ∧ (commitTxns s).pins = s.pins ∧ (commitTxns s).pending = s.pending ∧ (commitTxns s).boot = s.boot ∧ (commitTxns
      s).flash.counters = s.flash.counters ∧ (commitTxns s).flash.install = s.flash.install ∧ (commitTxns s).flash.serial = s.flash.serial ∧
      (commitTxns s).mem.undef = s.mem.undef := by
  unfold commitTxns
  simp

@[simp] theorem raiseManifest_keeps (v : Nat) (s : State) :
    (raiseManifest v s).beat = s.beat ∧ (raiseManifest v s).pwr = s.pwr ∧ (raiseManifest v s).thm = s.thm ∧ (raiseManifest v s).hlth =
      s.hlth ∧ (raiseManifest v s).rime = s.rime ∧ (raiseManifest v s).stns = s.stns ∧ (raiseManifest v s).net = s.net ∧ (raiseManifest v
      s).sori = s.sori ∧ (raiseManifest v s).models = s.models ∧ (raiseManifest v s).serve = s.serve ∧ (raiseManifest v s).jobs = s.jobs ∧
      (raiseManifest v s).fab = s.fab ∧ (raiseManifest v s).out = s.out ∧ (raiseManifest v s).fresh = s.fresh ∧ (raiseManifest v s).pins =
      s.pins ∧ (raiseManifest v s).pending = s.pending ∧ (raiseManifest v s).boot = s.boot ∧ (raiseManifest v s).flash.install =
      s.flash.install ∧ (raiseManifest v s).flash.serial = s.flash.serial ∧ (raiseManifest v s).mem = s.mem := by
  unfold raiseManifest
  simp

@[simp] theorem setSlot_keeps (modelId : Nat) (slot : Nat) (f : AdapterSlot → AdapterSlot) (s : State) :
    (setSlot modelId slot f s).beat = s.beat ∧ (setSlot modelId slot f s).pwr = s.pwr ∧ (setSlot modelId slot f s).thm = s.thm ∧ (setSlot
      modelId slot f s).hlth = s.hlth ∧ (setSlot modelId slot f s).rime = s.rime ∧ (setSlot modelId slot f s).stns = s.stns ∧ (setSlot
      modelId slot f s).net = s.net ∧ (setSlot modelId slot f s).sori = s.sori ∧ (setSlot modelId slot f s).serve = s.serve ∧ (setSlot
      modelId slot f s).jobs = s.jobs ∧ (setSlot modelId slot f s).fab = s.fab ∧ (setSlot modelId slot f s).out = s.out ∧ (setSlot modelId
      slot f s).fresh = s.fresh ∧ (setSlot modelId slot f s).pins = s.pins ∧ (setSlot modelId slot f s).pending = s.pending ∧ (setSlot
      modelId slot f s).boot = s.boot ∧ (setSlot modelId slot f s).flash = s.flash ∧ (setSlot modelId slot f s).mem = s.mem := by
  unfold setSlot
  simp

@[simp] theorem makeLive_keeps (modelId : Nat) (slot : Nat) (v : AdapterVer) (s : State) :
    (makeLive modelId slot v s).beat = s.beat ∧ (makeLive modelId slot v s).pwr = s.pwr ∧ (makeLive modelId slot v s).thm = s.thm ∧
      (makeLive modelId slot v s).hlth = s.hlth ∧ (makeLive modelId slot v s).rime = s.rime ∧ (makeLive modelId slot v s).stns = s.stns ∧
      (makeLive modelId slot v s).net = s.net ∧ (makeLive modelId slot v s).sori = s.sori ∧ (makeLive modelId slot v s).serve = s.serve ∧
      (makeLive modelId slot v s).jobs = s.jobs ∧ (makeLive modelId slot v s).fab = s.fab ∧ (makeLive modelId slot v s).out = s.out ∧
      (makeLive modelId slot v s).fresh = s.fresh ∧ (makeLive modelId slot v s).pins = s.pins ∧ (makeLive modelId slot v s).pending =
      s.pending ∧ (makeLive modelId slot v s).boot = s.boot ∧ (makeLive modelId slot v s).flash.install = s.flash.install ∧ (makeLive
      modelId slot v s).flash.serial = s.flash.serial ∧ (makeLive modelId slot v s).mem = s.mem := by
  unfold makeLive
  simp

@[simp] theorem enliven_keeps (modelId : Nat) (slot : Nat) (s : State) :
    (enliven modelId slot s).beat = s.beat ∧ (enliven modelId slot s).pwr = s.pwr ∧ (enliven modelId slot s).thm = s.thm ∧ (enliven
      modelId slot s).hlth = s.hlth ∧ (enliven modelId slot s).rime = s.rime ∧ (enliven modelId slot s).stns = s.stns ∧ (enliven modelId
      slot s).net = s.net ∧ (enliven modelId slot s).sori = s.sori ∧ (enliven modelId slot s).serve = s.serve ∧ (enliven modelId slot
      s).jobs = s.jobs ∧ (enliven modelId slot s).fab = s.fab ∧ (enliven modelId slot s).out = s.out ∧ (enliven modelId slot s).fresh =
      s.fresh ∧ (enliven modelId slot s).pins = s.pins ∧ (enliven modelId slot s).pending = s.pending ∧ (enliven modelId slot s).boot =
      s.boot ∧ (enliven modelId slot s).flash.install = s.flash.install ∧ (enliven modelId slot s).flash.serial = s.flash.serial ∧ (enliven
      modelId slot s).mem = s.mem := by
  unfold enliven
  (repeat' split) <;> simp

@[simp] theorem enlivenAll_keeps (s : State) :
    (enlivenAll s).beat = s.beat ∧ (enlivenAll s).pwr = s.pwr ∧ (enlivenAll s).thm = s.thm ∧ (enlivenAll s).hlth = s.hlth ∧ (enlivenAll
      s).rime = s.rime ∧ (enlivenAll s).stns = s.stns ∧ (enlivenAll s).net = s.net ∧ (enlivenAll s).sori = s.sori ∧ (enlivenAll s).serve =
      s.serve ∧ (enlivenAll s).jobs = s.jobs ∧ (enlivenAll s).fab = s.fab ∧ (enlivenAll s).out = s.out ∧ (enlivenAll s).fresh = s.fresh ∧
      (enlivenAll s).pins = s.pins ∧ (enlivenAll s).pending = s.pending ∧ (enlivenAll s).boot = s.boot ∧ (enlivenAll s).flash.install =
      s.flash.install ∧ (enlivenAll s).flash.serial = s.flash.serial ∧ (enlivenAll s).mem = s.mem := by
  unfold enlivenAll
  simp

@[simp] theorem activateCommit_keeps (ans : Answer) (modelId : Nat) (kCand : Nat) (kvPagesets : Nat) (sid : Nat) (k : Nat) (s : State) (hA
    : ∀ st d r u, (ans st d r u).beat = u.beat ∧ (ans st d r u).pwr = u.pwr ∧ (ans st d r u).thm = u.thm ∧ (ans st d r u).hlth = u.hlth ∧ (ans
    st d r u).rime = u.rime ∧ (ans st d r u).stns = u.stns ∧ (ans st d r u).sori = u.sori ∧ (ans st d r u).serve = u.serve ∧ (ans st d r
    u).jobs = u.jobs ∧ (ans st d r u).fab = u.fab ∧ (ans st d r u).fresh = u.fresh ∧ (ans st d r u).pins = u.pins ∧ (ans st d r u).pending =
    u.pending ∧ (ans st d r u).boot = u.boot ∧ (ans st d r u).flash.install = u.flash.install ∧ (ans st d r u).flash.serial = u.flash.serial ∧
    (ans st d r u).mem.cells = u.mem.cells ∧ (ans st d r u).mem.undef = u.mem.undef) :
    (activateCommit ans modelId kCand kvPagesets sid k s).beat = s.beat ∧ (activateCommit ans modelId kCand kvPagesets sid k s).pwr =
      s.pwr ∧ (activateCommit ans modelId kCand kvPagesets sid k s).thm = s.thm ∧ (activateCommit ans modelId kCand kvPagesets sid k s).hlth
      = s.hlth ∧ (activateCommit ans modelId kCand kvPagesets sid k s).rime = s.rime ∧ (activateCommit ans modelId kCand kvPagesets sid k
      s).stns = s.stns ∧ (activateCommit ans modelId kCand kvPagesets sid k s).sori = s.sori ∧ (activateCommit ans modelId kCand kvPagesets
      sid k s).serve = s.serve ∧ (activateCommit ans modelId kCand kvPagesets sid k s).jobs = s.jobs ∧ (activateCommit ans modelId kCand
      kvPagesets sid k s).fab = s.fab ∧ (activateCommit ans modelId kCand kvPagesets sid k s).fresh = s.fresh ∧ (activateCommit ans modelId
      kCand kvPagesets sid k s).pins = s.pins ∧ (activateCommit ans modelId kCand kvPagesets sid k s).pending = s.pending ∧ (activateCommit
      ans modelId kCand kvPagesets sid k s).boot = s.boot ∧ (activateCommit ans modelId kCand kvPagesets sid k s).flash.install =
      s.flash.install ∧ (activateCommit ans modelId kCand kvPagesets sid k s).flash.serial = s.flash.serial ∧ (activateCommit ans modelId
      kCand kvPagesets sid k s).mem.cells = s.mem.cells ∧ (activateCommit ans modelId kCand kvPagesets sid k s).mem.undef = s.mem.undef :=
      by
  unfold activateCommit
  split
  · simp [hA]
  · split
    · simp [hA]
    · dsimp only
      split
      · simp [hA] <;> (repeat' split) <;> simp
      · simp [hA] <;> (repeat' split) <;> simp

@[simp] theorem addSnapshot_keeps (h : Hdr) (beat : Nat) (ctx : Nat) (pairs : List (Nat × Nat)) (s : State) :
    (addSnapshot h beat ctx pairs s).beat = s.beat ∧ (addSnapshot h beat ctx pairs s).pwr = s.pwr ∧ (addSnapshot h beat ctx pairs s).thm =
      s.thm ∧ (addSnapshot h beat ctx pairs s).hlth = s.hlth ∧ (addSnapshot h beat ctx pairs s).rime = s.rime ∧ (addSnapshot h beat ctx
      pairs s).stns = s.stns ∧ (addSnapshot h beat ctx pairs s).net = s.net ∧ (addSnapshot h beat ctx pairs s).sori = s.sori ∧ (addSnapshot
      h beat ctx pairs s).models = s.models ∧ (addSnapshot h beat ctx pairs s).serve = s.serve ∧ (addSnapshot h beat ctx pairs s).jobs =
      s.jobs ∧ (addSnapshot h beat ctx pairs s).out = s.out ∧ (addSnapshot h beat ctx pairs s).fresh = s.fresh ∧ (addSnapshot h beat ctx
      pairs s).pins = s.pins ∧ (addSnapshot h beat ctx pairs s).pending = s.pending ∧ (addSnapshot h beat ctx pairs s).boot = s.boot ∧
      (addSnapshot h beat ctx pairs s).flash = s.flash ∧ (addSnapshot h beat ctx pairs s).mem = s.mem := by
  unfold addSnapshot
  simp

@[simp] theorem makeHandle_keeps (ans : Answer) (p : AllocP) (a : Account) (base : Nat) (s : State) (hA : ∀ st d r u, (ans st d r u).beat
    = u.beat ∧ (ans st d r u).pwr = u.pwr ∧ (ans st d r u).thm = u.thm ∧ (ans st d r u).hlth = u.hlth ∧ (ans st d r u).rime = u.rime ∧ (ans st
    d r u).stns = u.stns ∧ (ans st d r u).sori = u.sori ∧ (ans st d r u).models = u.models ∧ (ans st d r u).serve = u.serve ∧ (ans st d r
    u).jobs = u.jobs ∧ (ans st d r u).fab = u.fab ∧ (ans st d r u).pins = u.pins ∧ (ans st d r u).pending = u.pending ∧ (ans st d r u).boot =
    u.boot ∧ (ans st d r u).flash = u.flash) :
    (makeHandle ans p a base s).beat = s.beat ∧ (makeHandle ans p a base s).pwr = s.pwr ∧ (makeHandle ans p a base s).thm = s.thm ∧
      (makeHandle ans p a base s).hlth = s.hlth ∧ (makeHandle ans p a base s).rime = s.rime ∧ (makeHandle ans p a base s).stns = s.stns ∧
      (makeHandle ans p a base s).sori = s.sori ∧ (makeHandle ans p a base s).models = s.models ∧ (makeHandle ans p a base s).serve =
      s.serve ∧ (makeHandle ans p a base s).jobs = s.jobs ∧ (makeHandle ans p a base s).fab = s.fab ∧ (makeHandle ans p a base s).pins =
      s.pins ∧ (makeHandle ans p a base s).pending = s.pending ∧ (makeHandle ans p a base s).boot = s.boot ∧ (makeHandle ans p a base
      s).flash = s.flash := by
  unfold makeHandle draw
  generalize List.replicate 512 (0#8) = z
  cases h : allocRoce p <;> simp [hA, MemSt.undefine] <;> (try split) <;> (try split) <;> simp

@[simp] theorem finishAlloc_keeps (ans : Answer) (p : AllocP) (base : Nat) (s : State) (hA : ∀ st d r u, (ans st d r u).beat = u.beat ∧
    (ans st d r u).pwr = u.pwr ∧ (ans st d r u).thm = u.thm ∧ (ans st d r u).hlth = u.hlth ∧ (ans st d r u).rime = u.rime ∧ (ans st d r
    u).stns = u.stns ∧ (ans st d r u).sori = u.sori ∧ (ans st d r u).models = u.models ∧ (ans st d r u).serve = u.serve ∧ (ans st d r u).jobs
    = u.jobs ∧ (ans st d r u).fab = u.fab ∧ (ans st d r u).pins = u.pins ∧ (ans st d r u).pending = u.pending ∧ (ans st d r u).boot = u.boot ∧
    (ans st d r u).flash = u.flash) :
    (finishAlloc ans p base s).beat = s.beat ∧ (finishAlloc ans p base s).pwr = s.pwr ∧ (finishAlloc ans p base s).thm = s.thm ∧
      (finishAlloc ans p base s).hlth = s.hlth ∧ (finishAlloc ans p base s).rime = s.rime ∧ (finishAlloc ans p base s).stns = s.stns ∧
      (finishAlloc ans p base s).sori = s.sori ∧ (finishAlloc ans p base s).models = s.models ∧ (finishAlloc ans p base s).serve = s.serve ∧
      (finishAlloc ans p base s).jobs = s.jobs ∧ (finishAlloc ans p base s).fab = s.fab ∧ (finishAlloc ans p base s).pins = s.pins ∧
      (finishAlloc ans p base s).pending = s.pending ∧ (finishAlloc ans p base s).boot = s.boot ∧ (finishAlloc ans p base s).flash = s.flash
      := by
  unfold finishAlloc
  (repeat' split) <;> simp [hA]

@[simp] theorem allocCommit_keeps (ans : Answer) (principal : Nat) (p : AllocP) (sid : Nat) (k : Nat) (s : State) (hA : ∀ st d r u, (ans
    st d r u).beat = u.beat ∧ (ans st d r u).pwr = u.pwr ∧ (ans st d r u).thm = u.thm ∧ (ans st d r u).hlth = u.hlth ∧ (ans st d r u).rime =
    u.rime ∧ (ans st d r u).stns = u.stns ∧ (ans st d r u).sori = u.sori ∧ (ans st d r u).models = u.models ∧ (ans st d r u).serve = u.serve ∧
    (ans st d r u).jobs = u.jobs ∧ (ans st d r u).fab = u.fab ∧ (ans st d r u).pins = u.pins ∧ (ans st d r u).pending = u.pending ∧ (ans st d
    r u).boot = u.boot ∧ (ans st d r u).flash = u.flash) :
    (allocCommit ans principal p sid k s).beat = s.beat ∧ (allocCommit ans principal p sid k s).pwr = s.pwr ∧ (allocCommit ans principal p
      sid k s).thm = s.thm ∧ (allocCommit ans principal p sid k s).hlth = s.hlth ∧ (allocCommit ans principal p sid k s).rime = s.rime ∧
      (allocCommit ans principal p sid k s).stns = s.stns ∧ (allocCommit ans principal p sid k s).sori = s.sori ∧ (allocCommit ans principal
      p sid k s).models = s.models ∧ (allocCommit ans principal p sid k s).serve = s.serve ∧ (allocCommit ans principal p sid k s).jobs =
      s.jobs ∧ (allocCommit ans principal p sid k s).fab = s.fab ∧ (allocCommit ans principal p sid k s).pins = s.pins ∧ (allocCommit ans
      principal p sid k s).pending = s.pending ∧ (allocCommit ans principal p sid k s).boot = s.boot ∧ (allocCommit ans principal p sid k
      s).flash = s.flash := by
  unfold allocCommit
  (repeat' split) <;> (try simp [hA]) <;> (repeat' split) <;> (try simp [hA]) <;> (repeat' split) <;> (try simp_all [hA])

@[simp] theorem freeHandle_keeps (ans : Answer) (id : Nat) (s : State) (hA : ∀ st d r u, (ans st d r u).beat = u.beat ∧ (ans st d r u).pwr
    = u.pwr ∧ (ans st d r u).thm = u.thm ∧ (ans st d r u).hlth = u.hlth ∧ (ans st d r u).rime = u.rime ∧ (ans st d r u).stns = u.stns ∧ (ans
    st d r u).sori = u.sori ∧ (ans st d r u).models = u.models ∧ (ans st d r u).serve = u.serve ∧ (ans st d r u).jobs = u.jobs ∧ (ans st d r
    u).fab = u.fab ∧ (ans st d r u).fresh = u.fresh ∧ (ans st d r u).pins = u.pins ∧ (ans st d r u).pending = u.pending ∧ (ans st d r u).boot
    = u.boot ∧ (ans st d r u).flash = u.flash ∧ (ans st d r u).mem.cells = u.mem.cells ∧ (ans st d r u).mem.undef = u.mem.undef) :
    (freeHandle ans id s).beat = s.beat ∧ (freeHandle ans id s).pwr = s.pwr ∧ (freeHandle ans id s).thm = s.thm ∧ (freeHandle ans id
      s).hlth = s.hlth ∧ (freeHandle ans id s).rime = s.rime ∧ (freeHandle ans id s).stns = s.stns ∧ (freeHandle ans id s).sori = s.sori ∧
      (freeHandle ans id s).models = s.models ∧ (freeHandle ans id s).serve = s.serve ∧ (freeHandle ans id s).jobs = s.jobs ∧ (freeHandle
      ans id s).fab = s.fab ∧ (freeHandle ans id s).fresh = s.fresh ∧ (freeHandle ans id s).pins = s.pins ∧ (freeHandle ans id s).pending =
      s.pending ∧ (freeHandle ans id s).boot = s.boot ∧ (freeHandle ans id s).flash = s.flash ∧ (freeHandle ans id s).mem.cells =
      s.mem.cells ∧ (freeHandle ans id s).mem.undef = s.mem.undef := by
  unfold freeHandle
  (repeat' split) <;> (try simp [hA]) <;> (repeat' split) <;> (try simp [hA]) <;> (repeat' split) <;> (try simp_all [hA])

@[simp] theorem fixHead_keeps (ctx : Nat) (q : Nat) (s : State) :
    (fixHead ctx q s).beat = s.beat ∧ (fixHead ctx q s).pwr = s.pwr ∧ (fixHead ctx q s).thm = s.thm ∧ (fixHead ctx q s).hlth = s.hlth ∧
      (fixHead ctx q s).rime = s.rime ∧ (fixHead ctx q s).stns = s.stns ∧ (fixHead ctx q s).net = s.net ∧ (fixHead ctx q s).sori = s.sori ∧
      (fixHead ctx q s).models = s.models ∧ (fixHead ctx q s).serve = s.serve ∧ (fixHead ctx q s).fab = s.fab ∧ (fixHead ctx q s).out =
      s.out ∧ (fixHead ctx q s).fresh = s.fresh ∧ (fixHead ctx q s).pins = s.pins ∧ (fixHead ctx q s).pending = s.pending ∧ (fixHead ctx q
      s).boot = s.boot ∧ (fixHead ctx q s).flash = s.flash ∧ (fixHead ctx q s).mem = s.mem := by
  unfold fixHead
  simp

@[simp] theorem addCmd_keeps (c : Cmd) (s : State) :
    (addCmd c s).beat = s.beat ∧ (addCmd c s).pwr = s.pwr ∧ (addCmd c s).thm = s.thm ∧ (addCmd c s).hlth = s.hlth ∧ (addCmd c s).rime =
      s.rime ∧ (addCmd c s).stns = s.stns ∧ (addCmd c s).net = s.net ∧ (addCmd c s).sori = s.sori ∧ (addCmd c s).models = s.models ∧ (addCmd
      c s).serve = s.serve ∧ (addCmd c s).fab = s.fab ∧ (addCmd c s).out = s.out ∧ (addCmd c s).fresh = s.fresh ∧ (addCmd c s).pins = s.pins
      ∧ (addCmd c s).pending = s.pending ∧ (addCmd c s).boot = s.boot ∧ (addCmd c s).flash = s.flash ∧ (addCmd c s).mem = s.mem := by
  unfold addCmd
  simp

@[simp] theorem takeLaunch_keeps (h : Hdr) (principal : Nat) (p : LaunchP) (eligible : Nat) (s : State) :
    (takeLaunch h principal p eligible s).beat = s.beat ∧ (takeLaunch h principal p eligible s).pwr = s.pwr ∧ (takeLaunch h principal p
      eligible s).thm = s.thm ∧ (takeLaunch h principal p eligible s).hlth = s.hlth ∧ (takeLaunch h principal p eligible s).rime = s.rime ∧
      (takeLaunch h principal p eligible s).stns = s.stns ∧ (takeLaunch h principal p eligible s).net = s.net ∧ (takeLaunch h principal p
      eligible s).sori = s.sori ∧ (takeLaunch h principal p eligible s).models = s.models ∧ (takeLaunch h principal p eligible s).serve =
      s.serve ∧ (takeLaunch h principal p eligible s).fab = s.fab ∧ (takeLaunch h principal p eligible s).out = s.out ∧ (takeLaunch h
      principal p eligible s).fresh = s.fresh ∧ (takeLaunch h principal p eligible s).pins = s.pins ∧ (takeLaunch h principal p eligible
      s).pending = s.pending ∧ (takeLaunch h principal p eligible s).boot = s.boot ∧ (takeLaunch h principal p eligible s).flash = s.flash ∧
      (takeLaunch h principal p eligible s).mem = s.mem := by
  unfold takeLaunch
  (repeat' split) <;> simp

@[simp] theorem launchCommit_keeps (h : Hdr) (principal : Nat) (p : LaunchP) (s : State) :
    (launchCommit h principal p s).beat = s.beat ∧ (launchCommit h principal p s).pwr = s.pwr ∧ (launchCommit h principal p s).thm = s.thm
      ∧ (launchCommit h principal p s).hlth = s.hlth ∧ (launchCommit h principal p s).rime = s.rime ∧ (launchCommit h principal p s).stns =
      s.stns ∧ (launchCommit h principal p s).sori = s.sori ∧ (launchCommit h principal p s).models = s.models ∧ (launchCommit h principal p
      s).serve = s.serve ∧ (launchCommit h principal p s).fab = s.fab ∧ (launchCommit h principal p s).fresh = s.fresh ∧ (launchCommit h
      principal p s).pins = s.pins ∧ (launchCommit h principal p s).pending = s.pending ∧ (launchCommit h principal p s).boot = s.boot ∧
      (launchCommit h principal p s).flash = s.flash ∧ (launchCommit h principal p s).mem = s.mem := by
  unfold launchCommit
  (repeat' split) <;> simp

@[simp] theorem answerRetrain_keeps (port : Nat) (s : State) :
    (answerRetrain port s).beat = s.beat ∧ (answerRetrain port s).pwr = s.pwr ∧ (answerRetrain port s).thm = s.thm ∧ (answerRetrain port
      s).hlth = s.hlth ∧ (answerRetrain port s).rime = s.rime ∧ (answerRetrain port s).stns = s.stns ∧ (answerRetrain port s).sori = s.sori
      ∧ (answerRetrain port s).models = s.models ∧ (answerRetrain port s).serve = s.serve ∧ (answerRetrain port s).jobs = s.jobs ∧
      (answerRetrain port s).fresh = s.fresh ∧ (answerRetrain port s).pins = s.pins ∧ (answerRetrain port s).pending = s.pending ∧
      (answerRetrain port s).boot = s.boot ∧ (answerRetrain port s).flash = s.flash ∧ (answerRetrain port s).mem = s.mem := by
  unfold answerRetrain
  (repeat' split) <;> simp

@[simp] theorem startStandby_keeps (pair : Nat × Nat) (s : State) :
    (startStandby pair s).beat = s.beat ∧ (startStandby pair s).pwr = s.pwr ∧ (startStandby pair s).thm = s.thm ∧ (startStandby pair
      s).hlth = s.hlth ∧ (startStandby pair s).rime = s.rime ∧ (startStandby pair s).stns = s.stns ∧ (startStandby pair s).net = s.net ∧
      (startStandby pair s).sori = s.sori ∧ (startStandby pair s).models = s.models ∧ (startStandby pair s).serve = s.serve ∧ (startStandby
      pair s).jobs = s.jobs ∧ (startStandby pair s).out = s.out ∧ (startStandby pair s).fresh = s.fresh ∧ (startStandby pair s).pins =
      s.pins ∧ (startStandby pair s).pending = s.pending ∧ (startStandby pair s).boot = s.boot ∧ (startStandby pair s).flash = s.flash ∧
      (startStandby pair s).mem = s.mem := by
  unfold startStandby
  (repeat' split) <;> simp

@[simp] theorem resend_keeps (s : State) (x : Output) :
    (resend s x).beat = s.beat ∧ (resend s x).pwr = s.pwr ∧ (resend s x).thm = s.thm ∧ (resend s x).hlth = s.hlth ∧ (resend s x).rime =
      s.rime ∧ (resend s x).stns = s.stns ∧ (resend s x).net = s.net ∧ (resend s x).sori = s.sori ∧ (resend s x).models = s.models ∧ (resend
      s x).serve = s.serve ∧ (resend s x).jobs = s.jobs ∧ (resend s x).fab = s.fab ∧ (resend s x).fresh = s.fresh ∧ (resend s x).pins =
      s.pins ∧ (resend s x).pending = s.pending ∧ (resend s x).boot = s.boot ∧ (resend s x).flash = s.flash ∧ (resend s x).mem = s.mem := by
  unfold resend
  split <;> simp

@[simp] theorem resendHeld_keeps (port : Nat) (s : State) :
    (resendHeld port s).beat = s.beat ∧ (resendHeld port s).pwr = s.pwr ∧ (resendHeld port s).thm = s.thm ∧ (resendHeld port s).hlth =
      s.hlth ∧ (resendHeld port s).rime = s.rime ∧ (resendHeld port s).stns = s.stns ∧ (resendHeld port s).net = s.net ∧ (resendHeld port
      s).sori = s.sori ∧ (resendHeld port s).models = s.models ∧ (resendHeld port s).serve = s.serve ∧ (resendHeld port s).jobs = s.jobs ∧
      (resendHeld port s).fab = s.fab ∧ (resendHeld port s).pins = s.pins ∧ (resendHeld port s).pending = s.pending ∧ (resendHeld port
      s).boot = s.boot ∧ (resendHeld port s).flash = s.flash ∧ (resendHeld port s).mem = s.mem := by
  unfold resendHeld draw
  dsimp only
  split <;> simp

@[simp] theorem enterState_keeps (port : Nat) (st : Nat) (s : State) :
    (enterState port st s).beat = s.beat ∧ (enterState port st s).pwr = s.pwr ∧ (enterState port st s).thm = s.thm ∧ (enterState port st
      s).hlth = s.hlth ∧ (enterState port st s).stns = s.stns ∧ (enterState port st s).sori = s.sori ∧ (enterState port st s).models =
      s.models ∧ (enterState port st s).serve = s.serve ∧ (enterState port st s).jobs = s.jobs ∧ (enterState port st s).pins = s.pins ∧
      (enterState port st s).pending = s.pending ∧ (enterState port st s).boot = s.boot ∧ (enterState port st s).flash.counters =
      s.flash.counters ∧ (enterState port st s).flash.install = s.flash.install ∧ (enterState port st s).flash.serial = s.flash.serial ∧
      (enterState port st s).mem = s.mem := by
  unfold enterState
  (repeat' split) <;> (try simp) <;> (repeat' split) <;> (try simp) <;> (repeat' split) <;> (try simp_all)

@[simp] theorem linkDisable_keeps (ans : Answer) (port : Nat) (s : State) (hA : ∀ st d r u, (ans st d r u).beat = u.beat ∧ (ans st d r
    u).pwr = u.pwr ∧ (ans st d r u).thm = u.thm ∧ (ans st d r u).hlth = u.hlth ∧ (ans st d r u).stns = u.stns ∧ (ans st d r u).sori = u.sori ∧
    (ans st d r u).models = u.models ∧ (ans st d r u).serve = u.serve ∧ (ans st d r u).jobs = u.jobs ∧ (ans st d r u).fresh = u.fresh ∧ (ans
    st d r u).pins = u.pins ∧ (ans st d r u).pending = u.pending ∧ (ans st d r u).boot = u.boot ∧ (ans st d r u).flash.counters =
    u.flash.counters ∧ (ans st d r u).flash.install = u.flash.install ∧ (ans st d r u).flash.serial = u.flash.serial ∧ (ans st d r u).mem =
    u.mem) :
    (linkDisable ans port s).beat = s.beat ∧ (linkDisable ans port s).pwr = s.pwr ∧ (linkDisable ans port s).thm = s.thm ∧ (linkDisable
      ans port s).hlth = s.hlth ∧ (linkDisable ans port s).stns = s.stns ∧ (linkDisable ans port s).sori = s.sori ∧ (linkDisable ans port
      s).models = s.models ∧ (linkDisable ans port s).serve = s.serve ∧ (linkDisable ans port s).jobs = s.jobs ∧ (linkDisable ans port
      s).pins = s.pins ∧ (linkDisable ans port s).pending = s.pending ∧ (linkDisable ans port s).boot = s.boot ∧ (linkDisable ans port
      s).flash.counters = s.flash.counters ∧ (linkDisable ans port s).flash.install = s.flash.install ∧ (linkDisable ans port
      s).flash.serial = s.flash.serial ∧ (linkDisable ans port s).mem = s.mem := by
  unfold linkDisable
  (repeat' split) <;> (try simp [hA]) <;> (repeat' split) <;> (try simp [hA]) <;> (repeat' split) <;> (try simp_all [hA])

@[simp] theorem linkEnable_keeps (ans : Answer) (port : Nat) (s : State) (hA : ∀ st d r u, (ans st d r u).beat = u.beat ∧ (ans st d r
    u).pwr = u.pwr ∧ (ans st d r u).thm = u.thm ∧ (ans st d r u).hlth = u.hlth ∧ (ans st d r u).stns = u.stns ∧ (ans st d r u).sori = u.sori ∧
    (ans st d r u).models = u.models ∧ (ans st d r u).serve = u.serve ∧ (ans st d r u).jobs = u.jobs ∧ (ans st d r u).fresh = u.fresh ∧ (ans
    st d r u).pins = u.pins ∧ (ans st d r u).pending = u.pending ∧ (ans st d r u).boot = u.boot ∧ (ans st d r u).flash.counters =
    u.flash.counters ∧ (ans st d r u).flash.install = u.flash.install ∧ (ans st d r u).flash.serial = u.flash.serial ∧ (ans st d r u).mem =
    u.mem) :
    (linkEnable ans port s).beat = s.beat ∧ (linkEnable ans port s).pwr = s.pwr ∧ (linkEnable ans port s).thm = s.thm ∧ (linkEnable ans
      port s).hlth = s.hlth ∧ (linkEnable ans port s).stns = s.stns ∧ (linkEnable ans port s).sori = s.sori ∧ (linkEnable ans port s).models
      = s.models ∧ (linkEnable ans port s).serve = s.serve ∧ (linkEnable ans port s).jobs = s.jobs ∧ (linkEnable ans port s).pins = s.pins ∧
      (linkEnable ans port s).pending = s.pending ∧ (linkEnable ans port s).boot = s.boot ∧ (linkEnable ans port s).flash.counters =
      s.flash.counters ∧ (linkEnable ans port s).flash.install = s.flash.install ∧ (linkEnable ans port s).flash.serial = s.flash.serial ∧
      (linkEnable ans port s).mem = s.mem := by
  unfold linkEnable
  (repeat' split) <;> (try simp [hA]) <;> (repeat' split) <;> (try simp [hA]) <;> (repeat' split) <;> (try simp_all [hA])

@[simp] theorem linkRetrain_keeps (session : Nat) (tag : Nat) (port : Nat) (beat : Nat) (s : State) :
    (linkRetrain session tag port beat s).beat = s.beat ∧ (linkRetrain session tag port beat s).pwr = s.pwr ∧ (linkRetrain session tag
      port beat s).thm = s.thm ∧ (linkRetrain session tag port beat s).hlth = s.hlth ∧ (linkRetrain session tag port beat s).rime = s.rime ∧
      (linkRetrain session tag port beat s).stns = s.stns ∧ (linkRetrain session tag port beat s).net = s.net ∧ (linkRetrain session tag
      port beat s).sori = s.sori ∧ (linkRetrain session tag port beat s).models = s.models ∧ (linkRetrain session tag port beat s).serve =
      s.serve ∧ (linkRetrain session tag port beat s).jobs = s.jobs ∧ (linkRetrain session tag port beat s).out = s.out ∧ (linkRetrain
      session tag port beat s).fresh = s.fresh ∧ (linkRetrain session tag port beat s).pins = s.pins ∧ (linkRetrain session tag port beat
      s).pending = s.pending ∧ (linkRetrain session tag port beat s).boot = s.boot ∧ (linkRetrain session tag port beat s).flash = s.flash ∧
      (linkRetrain session tag port beat s).mem = s.mem := by
  unfold linkRetrain
  simp

@[simp] theorem postAction_keeps (cmd : Instr) (s : State) :
    (postAction cmd s).beat = s.beat ∧ (postAction cmd s).pwr = s.pwr ∧ (postAction cmd s).thm = s.thm ∧ (postAction cmd s).hlth = s.hlth
      ∧ (postAction cmd s).rime = s.rime ∧ (postAction cmd s).stns = s.stns ∧ (postAction cmd s).net = s.net ∧ (postAction cmd s).sori =
      s.sori ∧ (postAction cmd s).models = s.models ∧ (postAction cmd s).jobs = s.jobs ∧ (postAction cmd s).fab = s.fab ∧ (postAction cmd
      s).out = s.out ∧ (postAction cmd s).fresh = s.fresh ∧ (postAction cmd s).pins = s.pins ∧ (postAction cmd s).pending = s.pending ∧
      (postAction cmd s).boot = s.boot ∧ (postAction cmd s).flash = s.flash ∧ (postAction cmd s).mem = s.mem := by
  unfold postAction
  simp

@[simp] theorem postPreempt_keeps (h : Hdr) (ctx : Nat) (q : Nat) (resume : Bool) (beat : Nat) (s : State) :
    (postPreempt h ctx q resume beat s).beat = s.beat ∧ (postPreempt h ctx q resume beat s).pwr = s.pwr ∧ (postPreempt h ctx q resume beat
      s).thm = s.thm ∧ (postPreempt h ctx q resume beat s).hlth = s.hlth ∧ (postPreempt h ctx q resume beat s).rime = s.rime ∧ (postPreempt
      h ctx q resume beat s).stns = s.stns ∧ (postPreempt h ctx q resume beat s).net = s.net ∧ (postPreempt h ctx q resume beat s).sori =
      s.sori ∧ (postPreempt h ctx q resume beat s).models = s.models ∧ (postPreempt h ctx q resume beat s).serve = s.serve ∧ (postPreempt h
      ctx q resume beat s).fab = s.fab ∧ (postPreempt h ctx q resume beat s).out = s.out ∧ (postPreempt h ctx q resume beat s).fresh =
      s.fresh ∧ (postPreempt h ctx q resume beat s).pins = s.pins ∧ (postPreempt h ctx q resume beat s).pending = s.pending ∧ (postPreempt h
      ctx q resume beat s).boot = s.boot ∧ (postPreempt h ctx q resume beat s).flash = s.flash ∧ (postPreempt h ctx q resume beat s).mem =
      s.mem := by
  unfold postPreempt
  simp

@[simp] theorem preemptCommit_keeps (h : Hdr) (principal : Nat) (ctx : Nat) (q : Nat) (resume : Bool) (beat : Nat) (s : State) :
    (preemptCommit h principal ctx q resume beat s).beat = s.beat ∧ (preemptCommit h principal ctx q resume beat s).pwr = s.pwr ∧
      (preemptCommit h principal ctx q resume beat s).thm = s.thm ∧ (preemptCommit h principal ctx q resume beat s).hlth = s.hlth ∧
      (preemptCommit h principal ctx q resume beat s).rime = s.rime ∧ (preemptCommit h principal ctx q resume beat s).stns = s.stns ∧
      (preemptCommit h principal ctx q resume beat s).sori = s.sori ∧ (preemptCommit h principal ctx q resume beat s).models = s.models ∧
      (preemptCommit h principal ctx q resume beat s).serve = s.serve ∧ (preemptCommit h principal ctx q resume beat s).fab = s.fab ∧
      (preemptCommit h principal ctx q resume beat s).fresh = s.fresh ∧ (preemptCommit h principal ctx q resume beat s).pins = s.pins ∧
      (preemptCommit h principal ctx q resume beat s).pending = s.pending ∧ (preemptCommit h principal ctx q resume beat s).boot = s.boot ∧
      (preemptCommit h principal ctx q resume beat s).flash = s.flash ∧ (preemptCommit h principal ctx q resume beat s).mem = s.mem := by
  unfold preemptCommit
  (repeat' split) <;> simp

@[simp] theorem adoptRegion_keeps (modelId : Nat) (p : Pointer) (s : State) :
    (adoptRegion modelId p s).beat = s.beat ∧ (adoptRegion modelId p s).pwr = s.pwr ∧ (adoptRegion modelId p s).thm = s.thm ∧ (adoptRegion
      modelId p s).hlth = s.hlth ∧ (adoptRegion modelId p s).rime = s.rime ∧ (adoptRegion modelId p s).stns = s.stns ∧ (adoptRegion modelId
      p s).net = s.net ∧ (adoptRegion modelId p s).sori = s.sori ∧ (adoptRegion modelId p s).models = s.models ∧ (adoptRegion modelId p
      s).serve = s.serve ∧ (adoptRegion modelId p s).jobs = s.jobs ∧ (adoptRegion modelId p s).fab = s.fab ∧ (adoptRegion modelId p s).out =
      s.out ∧ (adoptRegion modelId p s).fresh = s.fresh ∧ (adoptRegion modelId p s).pins = s.pins ∧ (adoptRegion modelId p s).pending =
      s.pending ∧ (adoptRegion modelId p s).boot = s.boot ∧ (adoptRegion modelId p s).flash = s.flash ∧ (adoptRegion modelId p s).mem.cells
      = s.mem.cells ∧ (adoptRegion modelId p s).mem.undef = s.mem.undef := by
  unfold adoptRegion
  simp

@[simp] theorem publishCommit_keeps (ans : Answer) (hold : Bool) (modelId : Nat) (epoch : Nat) (table : Nat) (s : State) (hA : ∀ st d r u,
    (ans st d r u).beat = u.beat ∧ (ans st d r u).pwr = u.pwr ∧ (ans st d r u).thm = u.thm ∧ (ans st d r u).hlth = u.hlth ∧ (ans st d r
    u).rime = u.rime ∧ (ans st d r u).stns = u.stns ∧ (ans st d r u).sori = u.sori ∧ (ans st d r u).serve = u.serve ∧ (ans st d r u).jobs =
    u.jobs ∧ (ans st d r u).fab = u.fab ∧ (ans st d r u).fresh = u.fresh ∧ (ans st d r u).pins = u.pins ∧ (ans st d r u).pending = u.pending ∧
    (ans st d r u).boot = u.boot ∧ (ans st d r u).flash = u.flash ∧ (ans st d r u).mem.cells = u.mem.cells ∧ (ans st d r u).mem.undef =
    u.mem.undef) :
    (publishCommit ans hold modelId epoch table s).beat = s.beat ∧ (publishCommit ans hold modelId epoch table s).pwr = s.pwr ∧
      (publishCommit ans hold modelId epoch table s).thm = s.thm ∧ (publishCommit ans hold modelId epoch table s).hlth = s.hlth ∧
      (publishCommit ans hold modelId epoch table s).rime = s.rime ∧ (publishCommit ans hold modelId epoch table s).stns = s.stns ∧
      (publishCommit ans hold modelId epoch table s).sori = s.sori ∧ (publishCommit ans hold modelId epoch table s).serve = s.serve ∧
      (publishCommit ans hold modelId epoch table s).jobs = s.jobs ∧ (publishCommit ans hold modelId epoch table s).fab = s.fab ∧
      (publishCommit ans hold modelId epoch table s).fresh = s.fresh ∧ (publishCommit ans hold modelId epoch table s).pins = s.pins ∧
      (publishCommit ans hold modelId epoch table s).pending = s.pending ∧ (publishCommit ans hold modelId epoch table s).boot = s.boot ∧
      (publishCommit ans hold modelId epoch table s).flash = s.flash ∧ (publishCommit ans hold modelId epoch table s).mem.cells =
      s.mem.cells ∧ (publishCommit ans hold modelId epoch table s).mem.undef = s.mem.undef := by
  unfold publishCommit
  (repeat' split) <;> simp [hA]

@[simp] theorem queueCap_keeps (h : Hdr) (watts : Nat) (beat : Nat) (order : Nat) (s : State) :
    (queueCap h watts beat order s).beat = s.beat ∧ (queueCap h watts beat order s).thm = s.thm ∧ (queueCap h watts beat order s).hlth =
      s.hlth ∧ (queueCap h watts beat order s).rime = s.rime ∧ (queueCap h watts beat order s).stns = s.stns ∧ (queueCap h watts beat order
      s).net = s.net ∧ (queueCap h watts beat order s).sori = s.sori ∧ (queueCap h watts beat order s).models = s.models ∧ (queueCap h watts
      beat order s).serve = s.serve ∧ (queueCap h watts beat order s).jobs = s.jobs ∧ (queueCap h watts beat order s).fab = s.fab ∧
      (queueCap h watts beat order s).out = s.out ∧ (queueCap h watts beat order s).fresh = s.fresh ∧ (queueCap h watts beat order s).pins =
      s.pins ∧ (queueCap h watts beat order s).pending = s.pending ∧ (queueCap h watts beat order s).boot = s.boot ∧ (queueCap h watts beat
      order s).flash = s.flash ∧ (queueCap h watts beat order s).mem = s.mem := by
  unfold queueCap
  simp

@[simp] theorem regWriteAt_keeps (ans : Answer) (o : Nat) (value : Word) (mask : Word) (s : State) (hA : ∀ st d r u, (ans st d r u).sori =
    u.sori ∧ (ans st d r u).models = u.models ∧ (ans st d r u).serve = u.serve ∧ (ans st d r u).fresh = u.fresh ∧ (ans st d r u).pins = u.pins
    ∧ (ans st d r u).pending = u.pending ∧ (ans st d r u).boot = u.boot ∧ (ans st d r u).flash = u.flash ∧ (ans st d r u).mem.cells =
    u.mem.cells ∧ (ans st d r u).mem.undef = u.mem.undef) :
    (regWriteAt ans o value mask s).sori = s.sori ∧ (regWriteAt ans o value mask s).models = s.models ∧ (regWriteAt ans o value mask
      s).serve = s.serve ∧ (regWriteAt ans o value mask s).fresh = s.fresh ∧ (regWriteAt ans o value mask s).pins = s.pins ∧ (regWriteAt ans
      o value mask s).pending = s.pending ∧ (regWriteAt ans o value mask s).boot = s.boot ∧ (regWriteAt ans o value mask s).flash = s.flash
      ∧ (regWriteAt ans o value mask s).mem.cells = s.mem.cells ∧ (regWriteAt ans o value mask s).mem.undef = s.mem.undef := by
  unfold regWriteAt
  split
  · simp [hA]
  · rename_i h; have h1 := writeReg_keeps _ _ _ _ _ _ h; simp_all

@[simp] theorem retireRequests_keeps (modelId : Nat) (slot : Nat) (keep : Option Nat) (s : State) :
    (retireRequests modelId slot keep s).beat = s.beat ∧ (retireRequests modelId slot keep s).pwr = s.pwr ∧ (retireRequests modelId slot
      keep s).thm = s.thm ∧ (retireRequests modelId slot keep s).hlth = s.hlth ∧ (retireRequests modelId slot keep s).rime = s.rime ∧
      (retireRequests modelId slot keep s).stns = s.stns ∧ (retireRequests modelId slot keep s).sori = s.sori ∧ (retireRequests modelId slot
      keep s).fab = s.fab ∧ (retireRequests modelId slot keep s).fresh = s.fresh ∧ (retireRequests modelId slot keep s).pins = s.pins ∧
      (retireRequests modelId slot keep s).pending = s.pending ∧ (retireRequests modelId slot keep s).boot = s.boot ∧ (retireRequests
      modelId slot keep s).flash = s.flash ∧ (retireRequests modelId slot keep s).mem.cells = s.mem.cells ∧ (retireRequests modelId slot
      keep s).mem.undef = s.mem.undef := by
  unfold retireRequests
  simp

@[simp] theorem sweepAdapters_keeps (s : State) :
    (sweepAdapters s).beat = s.beat ∧ (sweepAdapters s).pwr = s.pwr ∧ (sweepAdapters s).thm = s.thm ∧ (sweepAdapters s).hlth = s.hlth ∧
      (sweepAdapters s).rime = s.rime ∧ (sweepAdapters s).stns = s.stns ∧ (sweepAdapters s).net = s.net ∧ (sweepAdapters s).sori = s.sori ∧
      (sweepAdapters s).serve = s.serve ∧ (sweepAdapters s).jobs = s.jobs ∧ (sweepAdapters s).fab = s.fab ∧ (sweepAdapters s).out = s.out ∧
      (sweepAdapters s).fresh = s.fresh ∧ (sweepAdapters s).pins = s.pins ∧ (sweepAdapters s).pending = s.pending ∧ (sweepAdapters s).boot =
      s.boot ∧ (sweepAdapters s).flash = s.flash ∧ (sweepAdapters s).mem.cells = s.mem.cells ∧ (sweepAdapters s).mem.undef = s.mem.undef :=
      by
  unfold sweepAdapters
  simp

@[simp] theorem replaceCommit_keeps (ans : Answer) (force : Bool) (modelId : Nat) (slot : Nat) (s : State) (hA : ∀ st d r u, (ans st d r
    u).beat = u.beat ∧ (ans st d r u).pwr = u.pwr ∧ (ans st d r u).thm = u.thm ∧ (ans st d r u).hlth = u.hlth ∧ (ans st d r u).rime = u.rime ∧
    (ans st d r u).stns = u.stns ∧ (ans st d r u).sori = u.sori ∧ (ans st d r u).fab = u.fab ∧ (ans st d r u).fresh = u.fresh ∧ (ans st d r
    u).pins = u.pins ∧ (ans st d r u).pending = u.pending ∧ (ans st d r u).boot = u.boot ∧ (ans st d r u).flash.install = u.flash.install ∧
    (ans st d r u).flash.serial = u.flash.serial ∧ (ans st d r u).mem.cells = u.mem.cells ∧ (ans st d r u).mem.undef = u.mem.undef) :
    (replaceCommit ans force modelId slot s).beat = s.beat ∧ (replaceCommit ans force modelId slot s).pwr = s.pwr ∧ (replaceCommit ans
      force modelId slot s).thm = s.thm ∧ (replaceCommit ans force modelId slot s).hlth = s.hlth ∧ (replaceCommit ans force modelId slot
      s).rime = s.rime ∧ (replaceCommit ans force modelId slot s).stns = s.stns ∧ (replaceCommit ans force modelId slot s).sori = s.sori ∧
      (replaceCommit ans force modelId slot s).fab = s.fab ∧ (replaceCommit ans force modelId slot s).fresh = s.fresh ∧ (replaceCommit ans
      force modelId slot s).pins = s.pins ∧ (replaceCommit ans force modelId slot s).pending = s.pending ∧ (replaceCommit ans force modelId
      slot s).boot = s.boot ∧ (replaceCommit ans force modelId slot s).flash.install = s.flash.install ∧ (replaceCommit ans force modelId
      slot s).flash.serial = s.flash.serial ∧ (replaceCommit ans force modelId slot s).mem.cells = s.mem.cells ∧ (replaceCommit ans force
      modelId slot s).mem.undef = s.mem.undef := by
  unfold replaceCommit
  (repeat' split) <;> simp [hA]

@[simp] theorem resetCommit_keeps (ans : Answer) (principal : Nat) (cs : List Nat) (s : State) (hA : ∀ st d r u, (ans st d r u).beat =
    u.beat ∧ (ans st d r u).pwr = u.pwr ∧ (ans st d r u).thm = u.thm ∧ (ans st d r u).hlth = u.hlth ∧ (ans st d r u).rime = u.rime ∧ (ans st d
    r u).stns = u.stns ∧ (ans st d r u).sori = u.sori ∧ (ans st d r u).models = u.models ∧ (ans st d r u).serve = u.serve ∧ (ans st d r u).fab
    = u.fab ∧ (ans st d r u).fresh = u.fresh ∧ (ans st d r u).pins = u.pins ∧ (ans st d r u).pending = u.pending ∧ (ans st d r u).boot =
    u.boot ∧ (ans st d r u).flash = u.flash ∧ (ans st d r u).mem = u.mem) :
    (resetCommit ans principal cs s).beat = s.beat ∧ (resetCommit ans principal cs s).pwr = s.pwr ∧ (resetCommit ans principal cs s).thm =
      s.thm ∧ (resetCommit ans principal cs s).hlth = s.hlth ∧ (resetCommit ans principal cs s).rime = s.rime ∧ (resetCommit ans principal
      cs s).stns = s.stns ∧ (resetCommit ans principal cs s).sori = s.sori ∧ (resetCommit ans principal cs s).models = s.models ∧
      (resetCommit ans principal cs s).serve = s.serve ∧ (resetCommit ans principal cs s).fab = s.fab ∧ (resetCommit ans principal cs
      s).fresh = s.fresh ∧ (resetCommit ans principal cs s).pins = s.pins ∧ (resetCommit ans principal cs s).pending = s.pending ∧
      (resetCommit ans principal cs s).boot = s.boot ∧ (resetCommit ans principal cs s).flash = s.flash ∧ (resetCommit ans principal cs
      s).mem = s.mem := by
  unfold resetCommit
  (repeat' split) <;> simp [hA]

@[simp] theorem retireCommit_keeps (ans : Answer) (modelId : Nat) (epoch : Nat) (s : State) (hA : ∀ st d r u, (ans st d r u).beat = u.beat
    ∧ (ans st d r u).pwr = u.pwr ∧ (ans st d r u).thm = u.thm ∧ (ans st d r u).hlth = u.hlth ∧ (ans st d r u).rime = u.rime ∧ (ans st d r
    u).stns = u.stns ∧ (ans st d r u).sori = u.sori ∧ (ans st d r u).serve = u.serve ∧ (ans st d r u).jobs = u.jobs ∧ (ans st d r u).fab =
    u.fab ∧ (ans st d r u).fresh = u.fresh ∧ (ans st d r u).pins = u.pins ∧ (ans st d r u).pending = u.pending ∧ (ans st d r u).boot = u.boot
    ∧ (ans st d r u).flash = u.flash ∧ (ans st d r u).mem = u.mem) :
    (retireCommit ans modelId epoch s).beat = s.beat ∧ (retireCommit ans modelId epoch s).pwr = s.pwr ∧ (retireCommit ans modelId epoch
      s).thm = s.thm ∧ (retireCommit ans modelId epoch s).hlth = s.hlth ∧ (retireCommit ans modelId epoch s).rime = s.rime ∧ (retireCommit
      ans modelId epoch s).stns = s.stns ∧ (retireCommit ans modelId epoch s).sori = s.sori ∧ (retireCommit ans modelId epoch s).serve =
      s.serve ∧ (retireCommit ans modelId epoch s).jobs = s.jobs ∧ (retireCommit ans modelId epoch s).fab = s.fab ∧ (retireCommit ans
      modelId epoch s).fresh = s.fresh ∧ (retireCommit ans modelId epoch s).pins = s.pins ∧ (retireCommit ans modelId epoch s).pending =
      s.pending ∧ (retireCommit ans modelId epoch s).boot = s.boot ∧ (retireCommit ans modelId epoch s).flash = s.flash ∧ (retireCommit ans
      modelId epoch s).mem = s.mem := by
  unfold retireCommit
  (repeat' split) <;> simp [hA]

@[simp] theorem endRequestsOf_keeps (p : Req → Bool) (s : State) :
    (endRequestsOf p s).beat = s.beat ∧ (endRequestsOf p s).pwr = s.pwr ∧ (endRequestsOf p s).thm = s.thm ∧ (endRequestsOf p s).hlth =
      s.hlth ∧ (endRequestsOf p s).rime = s.rime ∧ (endRequestsOf p s).stns = s.stns ∧ (endRequestsOf p s).sori = s.sori ∧ (endRequestsOf p
      s).fab = s.fab ∧ (endRequestsOf p s).fresh = s.fresh ∧ (endRequestsOf p s).pins = s.pins ∧ (endRequestsOf p s).pending = s.pending ∧
      (endRequestsOf p s).boot = s.boot ∧ (endRequestsOf p s).flash = s.flash ∧ (endRequestsOf p s).mem.cells = s.mem.cells ∧ (endRequestsOf
      p s).mem.undef = s.mem.undef := by
  unfold endRequestsOf
  simp

@[simp] theorem dropVersion_keeps (modelId : Nat) (slot : Nat) (version : Nat) (s : State) :
    (dropVersion modelId slot version s).beat = s.beat ∧ (dropVersion modelId slot version s).pwr = s.pwr ∧ (dropVersion modelId slot
      version s).thm = s.thm ∧ (dropVersion modelId slot version s).hlth = s.hlth ∧ (dropVersion modelId slot version s).rime = s.rime ∧
      (dropVersion modelId slot version s).stns = s.stns ∧ (dropVersion modelId slot version s).sori = s.sori ∧ (dropVersion modelId slot
      version s).fab = s.fab ∧ (dropVersion modelId slot version s).fresh = s.fresh ∧ (dropVersion modelId slot version s).pins = s.pins ∧
      (dropVersion modelId slot version s).pending = s.pending ∧ (dropVersion modelId slot version s).boot = s.boot ∧ (dropVersion modelId
      slot version s).flash = s.flash ∧ (dropVersion modelId slot version s).mem.cells = s.mem.cells ∧ (dropVersion modelId slot version
      s).mem.undef = s.mem.undef := by
  unfold dropVersion
  simp

@[simp] theorem unloadCommit_keeps (ans : Answer) (force : Bool) (modelId : Nat) (slot : Nat) (s : State) (hA : ∀ st d r u, (ans st d r
    u).beat = u.beat ∧ (ans st d r u).pwr = u.pwr ∧ (ans st d r u).thm = u.thm ∧ (ans st d r u).hlth = u.hlth ∧ (ans st d r u).rime = u.rime ∧
    (ans st d r u).stns = u.stns ∧ (ans st d r u).sori = u.sori ∧ (ans st d r u).fab = u.fab ∧ (ans st d r u).fresh = u.fresh ∧ (ans st d r
    u).pins = u.pins ∧ (ans st d r u).pending = u.pending ∧ (ans st d r u).boot = u.boot ∧ (ans st d r u).flash = u.flash ∧ (ans st d r
    u).mem.cells = u.mem.cells ∧ (ans st d r u).mem.undef = u.mem.undef) :
    (unloadCommit ans force modelId slot s).beat = s.beat ∧ (unloadCommit ans force modelId slot s).pwr = s.pwr ∧ (unloadCommit ans force
      modelId slot s).thm = s.thm ∧ (unloadCommit ans force modelId slot s).hlth = s.hlth ∧ (unloadCommit ans force modelId slot s).rime =
      s.rime ∧ (unloadCommit ans force modelId slot s).stns = s.stns ∧ (unloadCommit ans force modelId slot s).sori = s.sori ∧ (unloadCommit
      ans force modelId slot s).fab = s.fab ∧ (unloadCommit ans force modelId slot s).fresh = s.fresh ∧ (unloadCommit ans force modelId slot
      s).pins = s.pins ∧ (unloadCommit ans force modelId slot s).pending = s.pending ∧ (unloadCommit ans force modelId slot s).boot = s.boot
      ∧ (unloadCommit ans force modelId slot s).flash = s.flash ∧ (unloadCommit ans force modelId slot s).mem.cells = s.mem.cells ∧
      (unloadCommit ans force modelId slot s).mem.undef = s.mem.undef := by
  unfold unloadCommit
  (repeat' split) <;> simp [hA]

@[simp] theorem variantCommit_keeps (ans : Answer) (principal : Nat) (delete : Bool) (p : VariantP) (s : State) (hA : ∀ st d r u, (ans st
    d r u).beat = u.beat ∧ (ans st d r u).pwr = u.pwr ∧ (ans st d r u).thm = u.thm ∧ (ans st d r u).hlth = u.hlth ∧ (ans st d r u).rime =
    u.rime ∧ (ans st d r u).stns = u.stns ∧ (ans st d r u).sori = u.sori ∧ (ans st d r u).serve = u.serve ∧ (ans st d r u).jobs = u.jobs ∧
    (ans st d r u).fab = u.fab ∧ (ans st d r u).fresh = u.fresh ∧ (ans st d r u).pins = u.pins ∧ (ans st d r u).pending = u.pending ∧ (ans st
    d r u).boot = u.boot ∧ (ans st d r u).flash = u.flash ∧ (ans st d r u).mem = u.mem) :
    (variantCommit ans principal delete p s).beat = s.beat ∧ (variantCommit ans principal delete p s).pwr = s.pwr ∧ (variantCommit ans
      principal delete p s).thm = s.thm ∧ (variantCommit ans principal delete p s).hlth = s.hlth ∧ (variantCommit ans principal delete p
      s).rime = s.rime ∧ (variantCommit ans principal delete p s).stns = s.stns ∧ (variantCommit ans principal delete p s).sori = s.sori ∧
      (variantCommit ans principal delete p s).serve = s.serve ∧ (variantCommit ans principal delete p s).jobs = s.jobs ∧ (variantCommit ans
      principal delete p s).fab = s.fab ∧ (variantCommit ans principal delete p s).fresh = s.fresh ∧ (variantCommit ans principal delete p
      s).pins = s.pins ∧ (variantCommit ans principal delete p s).pending = s.pending ∧ (variantCommit ans principal delete p s).boot =
      s.boot ∧ (variantCommit ans principal delete p s).flash = s.flash ∧ (variantCommit ans principal delete p s).mem = s.mem := by
  unfold variantCommit
  (repeat' split) <;> simp [hA]

@[simp] theorem commitOne_keeps (principal : Nat) (sid : Nat) (k : Nat) (i : Instr) (s : State) :
    (commitOne principal sid k i s).sori = s.sori ∧ (commitOne principal sid k i s).pins = s.pins ∧ (commitOne principal sid k i
      s).pending = s.pending ∧ (commitOne principal sid k i s).boot = s.boot ∧ (commitOne principal sid k i s).flash.install =
      s.flash.install ∧ (commitOne principal sid k i s).flash.serial = s.flash.serial := by
  unfold commitOne
  (repeat' split) <;> (try simp)

@[simp] theorem commitAll_keeps (principal : Nat) (sid : Nat) (x1 : Nat) (x2 : List Instr) (x3 : State) :
    (commitAll principal sid x1 x2 x3).sori = x3.sori ∧ (commitAll principal sid x1 x2 x3).pins = x3.pins ∧ (commitAll principal sid x1 x2
      x3).pending = x3.pending ∧ (commitAll principal sid x1 x2 x3).boot = x3.boot ∧ (commitAll principal sid x1 x2 x3).flash.install =
      x3.flash.install ∧ (commitAll principal sid x1 x2 x3).flash.serial = x3.flash.serial := by
  induction x2 generalizing x1 x3 with
  | nil => simp [commitAll]
  | cons i is ih => simp [commitAll, ih]

@[simp] theorem recordDoubt_keeps (x1 : Sorus) (s : State) :
    (recordDoubt x1 s).beat = s.beat ∧ (recordDoubt x1 s).pwr = s.pwr ∧ (recordDoubt x1 s).thm = s.thm ∧ (recordDoubt x1 s).hlth = s.hlth
      ∧ (recordDoubt x1 s).stns = s.stns ∧ (recordDoubt x1 s).net = s.net ∧ (recordDoubt x1 s).sori = s.sori ∧ (recordDoubt x1 s).models =
      s.models ∧ (recordDoubt x1 s).serve = s.serve ∧ (recordDoubt x1 s).jobs = s.jobs ∧ (recordDoubt x1 s).fab = s.fab ∧ (recordDoubt x1
      s).out = s.out ∧ (recordDoubt x1 s).fresh = s.fresh ∧ (recordDoubt x1 s).pins = s.pins ∧ (recordDoubt x1 s).pending = s.pending ∧
      (recordDoubt x1 s).boot = s.boot ∧ (recordDoubt x1 s).flash.counters = s.flash.counters ∧ (recordDoubt x1 s).flash.install =
      s.flash.install ∧ (recordDoubt x1 s).flash.serial = s.flash.serial ∧ (recordDoubt x1 s).mem = s.mem := by
  unfold recordDoubt
  (repeat' split) <;> simp

@[simp] theorem applySorus_keeps (sid : Nat) (s : State) :
    (applySorus sid s).pins = s.pins ∧ (applySorus sid s).pending = s.pending ∧ (applySorus sid s).boot = s.boot ∧ (applySorus sid
      s).flash.install = s.flash.install ∧ (applySorus sid s).flash.serial = s.flash.serial := by
  unfold applySorus
  (repeat' split) <;> simp

@[simp] theorem enterDoubt_keeps (sid : Nat) (s : State) :
    (enterDoubt sid s).beat = s.beat ∧ (enterDoubt sid s).pwr = s.pwr ∧ (enterDoubt sid s).thm = s.thm ∧ (enterDoubt sid s).hlth = s.hlth
      ∧ (enterDoubt sid s).rime = s.rime ∧ (enterDoubt sid s).stns = s.stns ∧ (enterDoubt sid s).net = s.net ∧ (enterDoubt sid s).models =
      s.models ∧ (enterDoubt sid s).serve = s.serve ∧ (enterDoubt sid s).jobs = s.jobs ∧ (enterDoubt sid s).fab = s.fab ∧ (enterDoubt sid
      s).out = s.out ∧ (enterDoubt sid s).fresh = s.fresh ∧ (enterDoubt sid s).pins = s.pins ∧ (enterDoubt sid s).pending = s.pending ∧
      (enterDoubt sid s).boot = s.boot ∧ (enterDoubt sid s).flash = s.flash ∧ (enterDoubt sid s).mem = s.mem := by
  unfold enterDoubt
  (repeat' split) <;> simp

@[simp] theorem phase3Sori_keeps (s : State) :
    (phase3Sori s).pins = s.pins ∧ (phase3Sori s).pending = s.pending ∧ (phase3Sori s).boot = s.boot ∧ (phase3Sori s).flash.install =
      s.flash.install ∧ (phase3Sori s).flash.serial = s.flash.serial := by
  unfold phase3Sori
  simp

@[simp] theorem switchMove_keeps (handle : Nat) (s : State) :
    (switchMove handle s).beat = s.beat ∧ (switchMove handle s).pwr = s.pwr ∧ (switchMove handle s).thm = s.thm ∧ (switchMove handle
      s).hlth = s.hlth ∧ (switchMove handle s).rime = s.rime ∧ (switchMove handle s).stns = s.stns ∧ (switchMove handle s).sori = s.sori ∧
      (switchMove handle s).models = s.models ∧ (switchMove handle s).serve = s.serve ∧ (switchMove handle s).jobs = s.jobs ∧ (switchMove
      handle s).fab = s.fab ∧ (switchMove handle s).fresh = s.fresh ∧ (switchMove handle s).pins = s.pins ∧ (switchMove handle s).pending =
      s.pending ∧ (switchMove handle s).boot = s.boot ∧ (switchMove handle s).flash = s.flash ∧ (switchMove handle s).mem.cells =
      s.mem.cells ∧ (switchMove handle s).mem.undef = s.mem.undef := by
  unfold switchMove
  (repeat' split) <;> simp

@[simp] theorem switchMoves_keeps (s : State) :
    (switchMoves s).beat = s.beat ∧ (switchMoves s).pwr = s.pwr ∧ (switchMoves s).thm = s.thm ∧ (switchMoves s).hlth = s.hlth ∧
      (switchMoves s).rime = s.rime ∧ (switchMoves s).stns = s.stns ∧ (switchMoves s).sori = s.sori ∧ (switchMoves s).models = s.models ∧
      (switchMoves s).serve = s.serve ∧ (switchMoves s).jobs = s.jobs ∧ (switchMoves s).fab = s.fab ∧ (switchMoves s).fresh = s.fresh ∧
      (switchMoves s).pins = s.pins ∧ (switchMoves s).pending = s.pending ∧ (switchMoves s).boot = s.boot ∧ (switchMoves s).flash = s.flash
      ∧ (switchMoves s).mem.cells = s.mem.cells ∧ (switchMoves s).mem.undef = s.mem.undef := by
  unfold switchMoves
  simp

@[simp] theorem setVersion_keeps (modelId : Nat) (slot : Nat) (version : Nat) (f : AdapterVer → AdapterVer) (s : State) :
    (setVersion modelId slot version f s).beat = s.beat ∧ (setVersion modelId slot version f s).pwr = s.pwr ∧ (setVersion modelId slot
      version f s).thm = s.thm ∧ (setVersion modelId slot version f s).hlth = s.hlth ∧ (setVersion modelId slot version f s).rime = s.rime ∧
      (setVersion modelId slot version f s).stns = s.stns ∧ (setVersion modelId slot version f s).net = s.net ∧ (setVersion modelId slot
      version f s).sori = s.sori ∧ (setVersion modelId slot version f s).serve = s.serve ∧ (setVersion modelId slot version f s).jobs =
      s.jobs ∧ (setVersion modelId slot version f s).fab = s.fab ∧ (setVersion modelId slot version f s).out = s.out ∧ (setVersion modelId
      slot version f s).fresh = s.fresh ∧ (setVersion modelId slot version f s).pins = s.pins ∧ (setVersion modelId slot version f
      s).pending = s.pending ∧ (setVersion modelId slot version f s).boot = s.boot ∧ (setVersion modelId slot version f s).flash = s.flash ∧
      (setVersion modelId slot version f s).mem = s.mem := by
  unfold setVersion
  simp

@[simp] theorem switchAdapterReload_keeps (modelId : Nat) (slot : Nat) (version : Nat) (p : PlacedTensor) (b : Nat) (s : State) :
    (switchAdapterReload modelId slot version p b s).beat = s.beat ∧ (switchAdapterReload modelId slot version p b s).pwr = s.pwr ∧
      (switchAdapterReload modelId slot version p b s).thm = s.thm ∧ (switchAdapterReload modelId slot version p b s).hlth = s.hlth ∧
      (switchAdapterReload modelId slot version p b s).rime = s.rime ∧ (switchAdapterReload modelId slot version p b s).stns = s.stns ∧
      (switchAdapterReload modelId slot version p b s).net = s.net ∧ (switchAdapterReload modelId slot version p b s).sori = s.sori ∧
      (switchAdapterReload modelId slot version p b s).serve = s.serve ∧ (switchAdapterReload modelId slot version p b s).jobs = s.jobs ∧
      (switchAdapterReload modelId slot version p b s).fab = s.fab ∧ (switchAdapterReload modelId slot version p b s).out = s.out ∧
      (switchAdapterReload modelId slot version p b s).fresh = s.fresh ∧ (switchAdapterReload modelId slot version p b s).pins = s.pins ∧
      (switchAdapterReload modelId slot version p b s).pending = s.pending ∧ (switchAdapterReload modelId slot version p b s).boot = s.boot
      ∧ (switchAdapterReload modelId slot version p b s).flash = s.flash ∧ (switchAdapterReload modelId slot version p b s).mem.cells =
      s.mem.cells ∧ (switchAdapterReload modelId slot version p b s).mem.undef = s.mem.undef := by
  unfold switchAdapterReload
  simp

@[simp] theorem switchReload_keeps (modelId : Nat) (p : PlacedTensor) (b : Nat) (s : State) :
    (switchReload modelId p b s).beat = s.beat ∧ (switchReload modelId p b s).pwr = s.pwr ∧ (switchReload modelId p b s).thm = s.thm ∧
      (switchReload modelId p b s).hlth = s.hlth ∧ (switchReload modelId p b s).rime = s.rime ∧ (switchReload modelId p b s).stns = s.stns ∧
      (switchReload modelId p b s).net = s.net ∧ (switchReload modelId p b s).sori = s.sori ∧ (switchReload modelId p b s).serve = s.serve ∧
      (switchReload modelId p b s).jobs = s.jobs ∧ (switchReload modelId p b s).fab = s.fab ∧ (switchReload modelId p b s).out = s.out ∧
      (switchReload modelId p b s).fresh = s.fresh ∧ (switchReload modelId p b s).pins = s.pins ∧ (switchReload modelId p b s).pending =
      s.pending ∧ (switchReload modelId p b s).boot = s.boot ∧ (switchReload modelId p b s).flash = s.flash ∧ (switchReload modelId p b
      s).mem.cells = s.mem.cells ∧ (switchReload modelId p b s).mem.undef = s.mem.undef := by
  unfold switchReload
  simp

@[simp] theorem retakePool_keeps (modelId : Nat) (s : State) :
    (retakePool modelId s).beat = s.beat ∧ (retakePool modelId s).pwr = s.pwr ∧ (retakePool modelId s).thm = s.thm ∧ (retakePool modelId
      s).hlth = s.hlth ∧ (retakePool modelId s).rime = s.rime ∧ (retakePool modelId s).stns = s.stns ∧ (retakePool modelId s).net = s.net ∧
      (retakePool modelId s).sori = s.sori ∧ (retakePool modelId s).serve = s.serve ∧ (retakePool modelId s).jobs = s.jobs ∧ (retakePool
      modelId s).fab = s.fab ∧ (retakePool modelId s).out = s.out ∧ (retakePool modelId s).fresh = s.fresh ∧ (retakePool modelId s).pins =
      s.pins ∧ (retakePool modelId s).pending = s.pending ∧ (retakePool modelId s).boot = s.boot ∧ (retakePool modelId s).flash = s.flash ∧
      (retakePool modelId s).mem.cells = s.mem.cells ∧ (retakePool modelId s).mem.undef = s.mem.undef := by
  unfold retakePool
  first
  | (simp; done)
  | ((repeat' split) <;> simp; done)
  | ((repeat' split) <;> (try simp) <;> (repeat' split) <;> (try simp) <;> (repeat' split) <;> (try simp_all); done)

@[simp] theorem wakeModel_keeps (modelId : Nat) (s : State) :
    (wakeModel modelId s).beat = s.beat ∧ (wakeModel modelId s).pwr = s.pwr ∧ (wakeModel modelId s).thm = s.thm ∧ (wakeModel modelId
      s).hlth = s.hlth ∧ (wakeModel modelId s).rime = s.rime ∧ (wakeModel modelId s).stns = s.stns ∧ (wakeModel modelId s).net = s.net ∧
      (wakeModel modelId s).sori = s.sori ∧ (wakeModel modelId s).serve = s.serve ∧ (wakeModel modelId s).jobs = s.jobs ∧ (wakeModel modelId
      s).fab = s.fab ∧ (wakeModel modelId s).out = s.out ∧ (wakeModel modelId s).fresh = s.fresh ∧ (wakeModel modelId s).pins = s.pins ∧
      (wakeModel modelId s).pending = s.pending ∧ (wakeModel modelId s).boot = s.boot ∧ (wakeModel modelId s).flash = s.flash ∧ (wakeModel
      modelId s).mem.cells = s.mem.cells ∧ (wakeModel modelId s).mem.undef = s.mem.undef := by
  unfold wakeModel
  first
  | (simp; done)
  | ((repeat' split) <;> simp; done)
  | ((repeat' split) <;> (try simp) <;> (repeat' split) <;> (try simp) <;> (repeat' split) <;> (try simp_all); done)

@[simp] theorem switchReloads_keeps (s : State) :
    (switchReloads s).beat = s.beat ∧ (switchReloads s).pwr = s.pwr ∧ (switchReloads s).thm = s.thm ∧ (switchReloads s).hlth = s.hlth ∧
      (switchReloads s).rime = s.rime ∧ (switchReloads s).stns = s.stns ∧ (switchReloads s).net = s.net ∧ (switchReloads s).sori = s.sori ∧
      (switchReloads s).serve = s.serve ∧ (switchReloads s).jobs = s.jobs ∧ (switchReloads s).fab = s.fab ∧ (switchReloads s).out = s.out ∧
      (switchReloads s).fresh = s.fresh ∧ (switchReloads s).pins = s.pins ∧ (switchReloads s).pending = s.pending ∧ (switchReloads s).boot =
      s.boot ∧ (switchReloads s).flash = s.flash ∧ (switchReloads s).mem.cells = s.mem.cells ∧ (switchReloads s).mem.undef = s.mem.undef := by
  have h : (fun s : State => (s.beat, s.pwr, s.thm, s.hlth, s.rime, s.stns, s.net, s.sori, s.serve, s.jobs, s.fab, s.out, s.fresh, s.pins, s.pending, s.boot, s.flash, s.mem.cells, s.mem.undef)) (switchReloads s) = (fun s : State => (s.beat, s.pwr, s.thm, s.hlth, s.rime, s.stns, s.net, s.sori, s.serve, s.jobs, s.fab, s.out, s.fresh, s.pins, s.pending, s.boot, s.flash, s.mem.cells, s.mem.undef)) s := by
    unfold switchReloads
    dsimp only
    refine (foldl_keeps (fun s : State => (s.beat, s.pwr, s.thm, s.hlth, s.rime, s.stns, s.net, s.sori, s.serve, s.jobs, s.fab, s.out, s.fresh, s.pins, s.pending, s.boot, s.flash, s.mem.cells, s.mem.undef)) _ (fun s m => ?_) _ _).trans (foldl_keeps (fun s : State => (s.beat, s.pwr, s.thm, s.hlth, s.rime, s.stns, s.net, s.sori, s.serve, s.jobs, s.fab, s.out, s.fresh, s.pins, s.pending, s.boot, s.flash, s.mem.cells, s.mem.undef)) _ (fun s m => ?_) _ _)
    · simp
    · refine (foldl_keeps (fun s : State => (s.beat, s.pwr, s.thm, s.hlth, s.rime, s.stns, s.net, s.sori, s.serve, s.jobs, s.fab, s.out, s.fresh, s.pins, s.pending, s.boot, s.flash, s.mem.cells, s.mem.undef)) _ (fun s x => ?_) _ _).trans (foldl_keeps (fun s : State => (s.beat, s.pwr, s.thm, s.hlth, s.rime, s.stns, s.net, s.sori, s.serve, s.jobs, s.fab, s.out, s.fresh, s.pins, s.pending, s.boot, s.flash, s.mem.cells, s.mem.undef)) _ (fun s p => ?_) _ _) <;> (repeat' split) <;> simp
  simpa using h

@[simp] theorem failModel_keeps (id : Nat) (status : Nat) (s : State) :
    (failModel id status s).beat = s.beat ∧ (failModel id status s).pwr = s.pwr ∧ (failModel id status s).thm = s.thm ∧ (failModel id
      status s).hlth = s.hlth ∧ (failModel id status s).rime = s.rime ∧ (failModel id status s).stns = s.stns ∧ (failModel id status s).sori
      = s.sori ∧ (failModel id status s).fab = s.fab ∧ (failModel id status s).fresh = s.fresh ∧ (failModel id status s).pins = s.pins ∧
      (failModel id status s).pending = s.pending ∧ (failModel id status s).boot = s.boot ∧ (failModel id status s).flash = s.flash ∧
      (failModel id status s).mem.cells = s.mem.cells ∧ (failModel id status s).mem.undef = s.mem.undef := by
  unfold failModel
  simp

@[simp] theorem withdrawEpoch_keeps (modelId : Nat) (epoch : Nat) (s : State) :
    (withdrawEpoch modelId epoch s).beat = s.beat ∧ (withdrawEpoch modelId epoch s).pwr = s.pwr ∧ (withdrawEpoch modelId epoch s).thm =
      s.thm ∧ (withdrawEpoch modelId epoch s).hlth = s.hlth ∧ (withdrawEpoch modelId epoch s).rime = s.rime ∧ (withdrawEpoch modelId epoch
      s).stns = s.stns ∧ (withdrawEpoch modelId epoch s).sori = s.sori ∧ (withdrawEpoch modelId epoch s).fab = s.fab ∧ (withdrawEpoch
      modelId epoch s).fresh = s.fresh ∧ (withdrawEpoch modelId epoch s).pins = s.pins ∧ (withdrawEpoch modelId epoch s).pending = s.pending
      ∧ (withdrawEpoch modelId epoch s).boot = s.boot ∧ (withdrawEpoch modelId epoch s).flash = s.flash ∧ (withdrawEpoch modelId epoch
      s).mem.cells = s.mem.cells ∧ (withdrawEpoch modelId epoch s).mem.undef = s.mem.undef := by
  unfold withdrawEpoch
  (repeat' split) <;> simp

@[simp] theorem withdrawSpoilt_keeps (s : State) :
    (withdrawSpoilt s).beat = s.beat ∧ (withdrawSpoilt s).pwr = s.pwr ∧ (withdrawSpoilt s).thm = s.thm ∧ (withdrawSpoilt s).hlth = s.hlth
      ∧ (withdrawSpoilt s).rime = s.rime ∧ (withdrawSpoilt s).stns = s.stns ∧ (withdrawSpoilt s).sori = s.sori ∧ (withdrawSpoilt s).fab =
      s.fab ∧ (withdrawSpoilt s).fresh = s.fresh ∧ (withdrawSpoilt s).pins = s.pins ∧ (withdrawSpoilt s).pending = s.pending ∧
      (withdrawSpoilt s).boot = s.boot ∧ (withdrawSpoilt s).flash = s.flash ∧ (withdrawSpoilt s).mem.cells = s.mem.cells ∧ (withdrawSpoilt
      s).mem.undef = s.mem.undef := by
  unfold withdrawSpoilt
  simp

@[simp] theorem dropLim_keeps (l : LimMove) (s : State) :
    (dropLim l s).beat = s.beat ∧ (dropLim l s).pwr = s.pwr ∧ (dropLim l s).thm = s.thm ∧ (dropLim l s).hlth = s.hlth ∧ (dropLim l s).rime
      = s.rime ∧ (dropLim l s).stns = s.stns ∧ (dropLim l s).net = s.net ∧ (dropLim l s).sori = s.sori ∧ (dropLim l s).models = s.models ∧
      (dropLim l s).serve = s.serve ∧ (dropLim l s).jobs = s.jobs ∧ (dropLim l s).fab = s.fab ∧ (dropLim l s).out = s.out ∧ (dropLim l
      s).fresh = s.fresh ∧ (dropLim l s).pins = s.pins ∧ (dropLim l s).pending = s.pending ∧ (dropLim l s).boot = s.boot ∧ (dropLim l
      s).flash = s.flash ∧ (dropLim l s).mem.cells = s.mem.cells ∧ (dropLim l s).mem.undef = s.mem.undef := by
  unfold dropLim
  first
  | (simp; done)
  | ((repeat' split) <;> simp; done)
  | ((repeat' split) <;> (try simp) <;> (repeat' split) <;> (try simp) <;> (repeat' split) <;> (try simp_all); done)

@[simp] theorem switchLim_keeps (l : LimMove) (s : State) :
    (switchLim l s).beat = s.beat ∧ (switchLim l s).pwr = s.pwr ∧ (switchLim l s).thm = s.thm ∧ (switchLim l s).hlth = s.hlth ∧ (switchLim
      l s).rime = s.rime ∧ (switchLim l s).stns = s.stns ∧ (switchLim l s).net = s.net ∧ (switchLim l s).sori = s.sori ∧ (switchLim l
      s).serve = s.serve ∧ (switchLim l s).jobs = s.jobs ∧ (switchLim l s).fab = s.fab ∧ (switchLim l s).out = s.out ∧ (switchLim l s).fresh
      = s.fresh ∧ (switchLim l s).pins = s.pins ∧ (switchLim l s).pending = s.pending ∧ (switchLim l s).boot = s.boot ∧ (switchLim l
      s).flash = s.flash ∧ (switchLim l s).mem.undef = s.mem.undef := by
  unfold switchLim
  first
  | (simp; done)
  | ((repeat' split) <;> simp; done)
  | ((repeat' split) <;> (try simp) <;> (repeat' split) <;> (try simp) <;> (repeat' split) <;> (try simp_all); done)

@[simp] theorem switchLims_keeps (s : State) :
    (switchLims s).beat = s.beat ∧ (switchLims s).pwr = s.pwr ∧ (switchLims s).thm = s.thm ∧ (switchLims s).hlth = s.hlth ∧ (switchLims
      s).rime = s.rime ∧ (switchLims s).stns = s.stns ∧ (switchLims s).net = s.net ∧ (switchLims s).sori = s.sori ∧ (switchLims s).serve =
      s.serve ∧ (switchLims s).jobs = s.jobs ∧ (switchLims s).fab = s.fab ∧ (switchLims s).out = s.out ∧ (switchLims s).fresh = s.fresh ∧
      (switchLims s).pins = s.pins ∧ (switchLims s).pending = s.pending ∧ (switchLims s).boot = s.boot ∧ (switchLims s).flash = s.flash ∧
      (switchLims s).mem.undef = s.mem.undef := by
  unfold switchLims
  first
  | (simp; done)
  | ((repeat' split) <;> simp; done)
  | ((repeat' split) <;> (try simp) <;> (repeat' split) <;> (try simp) <;> (repeat' split) <;> (try simp_all); done)

@[simp] theorem commitTable_keeps (modelId : Nat) (f : InstTable → InstTable) (s : State) :
    (commitTable modelId f s).beat = s.beat ∧ (commitTable modelId f s).pwr = s.pwr ∧ (commitTable modelId f s).thm = s.thm ∧ (commitTable
      modelId f s).hlth = s.hlth ∧ (commitTable modelId f s).rime = s.rime ∧ (commitTable modelId f s).stns = s.stns ∧ (commitTable modelId
      f s).net = s.net ∧ (commitTable modelId f s).sori = s.sori ∧ (commitTable modelId f s).serve = s.serve ∧ (commitTable modelId f
      s).jobs = s.jobs ∧ (commitTable modelId f s).fab = s.fab ∧ (commitTable modelId f s).out = s.out ∧ (commitTable modelId f s).fresh =
      s.fresh ∧ (commitTable modelId f s).pins = s.pins ∧ (commitTable modelId f s).pending = s.pending ∧ (commitTable modelId f s).boot =
      s.boot ∧ (commitTable modelId f s).flash = s.flash ∧ (commitTable modelId f s).mem = s.mem := by
  unfold commitTable
  first
  | (simp; done)
  | ((repeat' split) <;> simp; done)
  | ((repeat' split) <;> (try simp) <;> (repeat' split) <;> (try simp) <;> (repeat' split) <;> (try simp_all); done)

@[simp] theorem replicaEnters_keeps (modelId : Nat) (layer : Nat) (expert : Nat) (pkg : Nat) (lslot : Nat) (tiles : List (Nat × List Byte)) (s : State) :
    (replicaEnters modelId layer expert pkg lslot tiles s).beat = s.beat ∧ (replicaEnters modelId layer expert pkg lslot tiles s).pwr =
      s.pwr ∧ (replicaEnters modelId layer expert pkg lslot tiles s).thm = s.thm ∧ (replicaEnters modelId layer expert pkg lslot tiles
      s).hlth = s.hlth ∧ (replicaEnters modelId layer expert pkg lslot tiles s).rime = s.rime ∧ (replicaEnters modelId layer expert pkg
      lslot tiles s).stns = s.stns ∧ (replicaEnters modelId layer expert pkg lslot tiles s).net = s.net ∧ (replicaEnters modelId layer
      expert pkg lslot tiles s).sori = s.sori ∧ (replicaEnters modelId layer expert pkg lslot tiles s).serve = s.serve ∧ (replicaEnters
      modelId layer expert pkg lslot tiles s).jobs = s.jobs ∧ (replicaEnters modelId layer expert pkg lslot tiles s).fab = s.fab ∧
      (replicaEnters modelId layer expert pkg lslot tiles s).out = s.out ∧ (replicaEnters modelId layer expert pkg lslot tiles s).fresh =
      s.fresh ∧ (replicaEnters modelId layer expert pkg lslot tiles s).pins = s.pins ∧ (replicaEnters modelId layer expert pkg lslot tiles
      s).pending = s.pending ∧ (replicaEnters modelId layer expert pkg lslot tiles s).boot = s.boot ∧ (replicaEnters modelId layer expert
      pkg lslot tiles s).flash = s.flash ∧ (replicaEnters modelId layer expert pkg lslot tiles s).mem.undef = s.mem.undef := by
  unfold replicaEnters
  first
  | (simp; done)
  | ((repeat' split) <;> simp; done)
  | ((repeat' split) <;> (try simp) <;> (repeat' split) <;> (try simp) <;> (repeat' split) <;> (try simp_all); done)

@[simp] theorem sweepReplicas_keeps (s : State) :
    (sweepReplicas s).beat = s.beat ∧ (sweepReplicas s).pwr = s.pwr ∧ (sweepReplicas s).thm = s.thm ∧ (sweepReplicas s).hlth = s.hlth ∧
      (sweepReplicas s).rime = s.rime ∧ (sweepReplicas s).stns = s.stns ∧ (sweepReplicas s).net = s.net ∧ (sweepReplicas s).sori = s.sori ∧
      (sweepReplicas s).serve = s.serve ∧ (sweepReplicas s).jobs = s.jobs ∧ (sweepReplicas s).fab = s.fab ∧ (sweepReplicas s).out = s.out ∧
      (sweepReplicas s).fresh = s.fresh ∧ (sweepReplicas s).pins = s.pins ∧ (sweepReplicas s).pending = s.pending ∧ (sweepReplicas s).boot =
      s.boot ∧ (sweepReplicas s).flash = s.flash ∧ (sweepReplicas s).mem.cells = s.mem.cells ∧ (sweepReplicas s).mem.undef = s.mem.undef := by
  unfold sweepReplicas
  first
  | (simp; done)
  | ((repeat' split) <;> simp; done)
  | ((repeat' split) <;> (try simp) <;> (repeat' split) <;> (try simp) <;> (repeat' split) <;> (try simp_all); done)

@[simp] theorem replicaLeaves_keeps (modelId : Nat) (layer : Nat) (expert : Nat) (pkg : Nat) (lslot : Nat) (s : State) :
    (replicaLeaves modelId layer expert pkg lslot s).beat = s.beat ∧ (replicaLeaves modelId layer expert pkg lslot s).pwr = s.pwr ∧
      (replicaLeaves modelId layer expert pkg lslot s).thm = s.thm ∧ (replicaLeaves modelId layer expert pkg lslot s).hlth = s.hlth ∧
      (replicaLeaves modelId layer expert pkg lslot s).rime = s.rime ∧ (replicaLeaves modelId layer expert pkg lslot s).stns = s.stns ∧
      (replicaLeaves modelId layer expert pkg lslot s).net = s.net ∧ (replicaLeaves modelId layer expert pkg lslot s).sori = s.sori ∧
      (replicaLeaves modelId layer expert pkg lslot s).serve = s.serve ∧ (replicaLeaves modelId layer expert pkg lslot s).jobs = s.jobs ∧
      (replicaLeaves modelId layer expert pkg lslot s).fab = s.fab ∧ (replicaLeaves modelId layer expert pkg lslot s).out = s.out ∧
      (replicaLeaves modelId layer expert pkg lslot s).fresh = s.fresh ∧ (replicaLeaves modelId layer expert pkg lslot s).pins = s.pins ∧
      (replicaLeaves modelId layer expert pkg lslot s).pending = s.pending ∧ (replicaLeaves modelId layer expert pkg lslot s).boot = s.boot
      ∧ (replicaLeaves modelId layer expert pkg lslot s).flash = s.flash ∧ (replicaLeaves modelId layer expert pkg lslot s).mem.cells =
      s.mem.cells ∧ (replicaLeaves modelId layer expert pkg lslot s).mem.undef = s.mem.undef := by
  unfold replicaLeaves
  first
  | (simp; done)
  | ((repeat' split) <;> simp; done)
  | ((repeat' split) <;> (try simp) <;> (repeat' split) <;> (try simp) <;> (repeat' split) <;> (try simp_all); done)

@[simp] theorem capacityChanges_keeps (modelId : Nat) (layer : Nat) (cfQ8 : Nat) (s : State) :
    (capacityChanges modelId layer cfQ8 s).beat = s.beat ∧ (capacityChanges modelId layer cfQ8 s).pwr = s.pwr ∧ (capacityChanges modelId
      layer cfQ8 s).thm = s.thm ∧ (capacityChanges modelId layer cfQ8 s).hlth = s.hlth ∧ (capacityChanges modelId layer cfQ8 s).rime =
      s.rime ∧ (capacityChanges modelId layer cfQ8 s).stns = s.stns ∧ (capacityChanges modelId layer cfQ8 s).net = s.net ∧ (capacityChanges
      modelId layer cfQ8 s).sori = s.sori ∧ (capacityChanges modelId layer cfQ8 s).serve = s.serve ∧ (capacityChanges modelId layer cfQ8
      s).jobs = s.jobs ∧ (capacityChanges modelId layer cfQ8 s).fab = s.fab ∧ (capacityChanges modelId layer cfQ8 s).out = s.out ∧
      (capacityChanges modelId layer cfQ8 s).fresh = s.fresh ∧ (capacityChanges modelId layer cfQ8 s).pins = s.pins ∧ (capacityChanges
      modelId layer cfQ8 s).pending = s.pending ∧ (capacityChanges modelId layer cfQ8 s).boot = s.boot ∧ (capacityChanges modelId layer cfQ8
      s).flash = s.flash ∧ (capacityChanges modelId layer cfQ8 s).mem = s.mem := by
  unfold capacityChanges
  first
  | (simp; done)
  | ((repeat' split) <;> simp; done)
  | ((repeat' split) <;> (try simp) <;> (repeat' split) <;> (try simp) <;> (repeat' split) <;> (try simp_all); done)

@[simp] theorem ownHandle_keeps (kind : Nat) (rights : Nat) (tier : Nat) (bytes : Nat) (at_ : Option Nat) (modelId : Nat) (plan : Nat) (s : State) :
    (ownHandle kind rights tier bytes at_ modelId plan s).beat = s.beat ∧ (ownHandle kind rights tier bytes at_ modelId plan s).pwr =
      s.pwr ∧ (ownHandle kind rights tier bytes at_ modelId plan s).thm = s.thm ∧ (ownHandle kind rights tier bytes at_ modelId plan s).hlth
      = s.hlth ∧ (ownHandle kind rights tier bytes at_ modelId plan s).rime = s.rime ∧ (ownHandle kind rights tier bytes at_ modelId plan
      s).stns = s.stns ∧ (ownHandle kind rights tier bytes at_ modelId plan s).net = s.net ∧ (ownHandle kind rights tier bytes at_ modelId
      plan s).sori = s.sori ∧ (ownHandle kind rights tier bytes at_ modelId plan s).models = s.models ∧ (ownHandle kind rights tier bytes
      at_ modelId plan s).serve = s.serve ∧ (ownHandle kind rights tier bytes at_ modelId plan s).jobs = s.jobs ∧ (ownHandle kind rights
      tier bytes at_ modelId plan s).fab = s.fab ∧ (ownHandle kind rights tier bytes at_ modelId plan s).out = s.out ∧ (ownHandle kind
      rights tier bytes at_ modelId plan s).pins = s.pins ∧ (ownHandle kind rights tier bytes at_ modelId plan s).pending = s.pending ∧
      (ownHandle kind rights tier bytes at_ modelId plan s).boot = s.boot ∧ (ownHandle kind rights tier bytes at_ modelId plan s).flash =
      s.flash := by
  unfold ownHandle
  (repeat' split) <;> grind [draw, draw_keeps, takeRegion_keeps, storeBytes_keeps]

@[simp] theorem dropHandle_keeps (id : Nat) (s : State) :
    (dropHandle id s).beat = s.beat ∧ (dropHandle id s).pwr = s.pwr ∧ (dropHandle id s).thm = s.thm ∧ (dropHandle id s).hlth = s.hlth ∧
      (dropHandle id s).rime = s.rime ∧ (dropHandle id s).stns = s.stns ∧ (dropHandle id s).net = s.net ∧ (dropHandle id s).sori = s.sori ∧
      (dropHandle id s).models = s.models ∧ (dropHandle id s).serve = s.serve ∧ (dropHandle id s).jobs = s.jobs ∧ (dropHandle id s).fab =
      s.fab ∧ (dropHandle id s).out = s.out ∧ (dropHandle id s).fresh = s.fresh ∧ (dropHandle id s).pins = s.pins ∧ (dropHandle id
      s).pending = s.pending ∧ (dropHandle id s).boot = s.boot ∧ (dropHandle id s).flash = s.flash ∧ (dropHandle id s).mem.cells =
      s.mem.cells ∧ (dropHandle id s).mem.undef = s.mem.undef := by
  unfold dropHandle
  first
  | (simp; done)
  | ((repeat' split) <;> simp; done)
  | ((repeat' split) <;> (try simp) <;> (repeat' split) <;> (try simp) <;> (repeat' split) <;> (try simp_all); done)

@[simp] theorem fillHandle_keeps (id : Nat) (offset : Nat) (data : List Byte) (s : State) :
    (fillHandle id offset data s).beat = s.beat ∧ (fillHandle id offset data s).pwr = s.pwr ∧ (fillHandle id offset data s).thm = s.thm ∧
      (fillHandle id offset data s).hlth = s.hlth ∧ (fillHandle id offset data s).rime = s.rime ∧ (fillHandle id offset data s).stns =
      s.stns ∧ (fillHandle id offset data s).net = s.net ∧ (fillHandle id offset data s).sori = s.sori ∧ (fillHandle id offset data
      s).models = s.models ∧ (fillHandle id offset data s).serve = s.serve ∧ (fillHandle id offset data s).out = s.out ∧ (fillHandle id
      offset data s).fresh = s.fresh ∧ (fillHandle id offset data s).pins = s.pins ∧ (fillHandle id offset data s).pending = s.pending ∧
      (fillHandle id offset data s).boot = s.boot ∧ (fillHandle id offset data s).flash = s.flash ∧ (fillHandle id offset data s).mem.undef
      = s.mem.undef := by
  unfold fillHandle
  first
  | (simp; done)
  | ((repeat' split) <;> simp; done)
  | ((repeat' split) <;> (try simp) <;> (repeat' split) <;> (try simp) <;> (repeat' split) <;> (try simp_all); done)

@[simp] theorem holdQueue_keeps (ctx : Nat) (q : Nat) (resume : Bool) (s : State) :
    (holdQueue ctx q resume s).beat = s.beat ∧ (holdQueue ctx q resume s).pwr = s.pwr ∧ (holdQueue ctx q resume s).thm = s.thm ∧
      (holdQueue ctx q resume s).hlth = s.hlth ∧ (holdQueue ctx q resume s).rime = s.rime ∧ (holdQueue ctx q resume s).stns = s.stns ∧
      (holdQueue ctx q resume s).net = s.net ∧ (holdQueue ctx q resume s).sori = s.sori ∧ (holdQueue ctx q resume s).models = s.models ∧
      (holdQueue ctx q resume s).serve = s.serve ∧ (holdQueue ctx q resume s).fab = s.fab ∧ (holdQueue ctx q resume s).out = s.out ∧
      (holdQueue ctx q resume s).fresh = s.fresh ∧ (holdQueue ctx q resume s).pins = s.pins ∧ (holdQueue ctx q resume s).pending = s.pending
      ∧ (holdQueue ctx q resume s).boot = s.boot ∧ (holdQueue ctx q resume s).flash = s.flash ∧ (holdQueue ctx q resume s).mem = s.mem := by
  unfold holdQueue
  first
  | (simp; done)
  | ((repeat' split) <;> simp; done)
  | ((repeat' split) <;> (try simp) <;> (repeat' split) <;> (try simp) <;> (repeat' split) <;> (try simp_all); done)

@[simp] theorem applyPolicy_keeps (p : Policy) (s : State) :
    (applyPolicy p s).beat = s.beat ∧ (applyPolicy p s).pwr = s.pwr ∧ (applyPolicy p s).thm = s.thm ∧ (applyPolicy p s).hlth = s.hlth ∧
      (applyPolicy p s).rime = s.rime ∧ (applyPolicy p s).stns = s.stns ∧ (applyPolicy p s).net = s.net ∧ (applyPolicy p s).sori = s.sori ∧
      (applyPolicy p s).serve = s.serve ∧ (applyPolicy p s).out = s.out ∧ (applyPolicy p s).pins = s.pins ∧ (applyPolicy p s).pending =
      s.pending ∧ (applyPolicy p s).boot = s.boot ∧ (applyPolicy p s).flash = s.flash := by
  unfold applyPolicy
  first
  | (simp; done)
  | ((repeat' split) <;> simp; done)
  | ((repeat' split) <;> (try simp) <;> (repeat' split) <;> (try simp) <;> (repeat' split) <;> (try simp_all); done)

@[simp] theorem phase3_keeps (ps : List Policy) (s : State) :
    (phase3 ps s).pins = s.pins ∧ (phase3 ps s).pending = s.pending ∧ (phase3 ps s).boot = s.boot ∧ (phase3 ps s).flash.install =
      s.flash.install ∧ (phase3 ps s).flash.serial = s.flash.serial := by
  unfold phase3
  simp

@[simp] theorem endWait_keeps (p : Place) (limited : Bool) (s : State) :
    (endWait p limited s).beat = s.beat ∧ (endWait p limited s).thm = s.thm ∧ (endWait p limited s).hlth = s.hlth ∧ (endWait p limited
      s).rime = s.rime ∧ (endWait p limited s).stns = s.stns ∧ (endWait p limited s).net = s.net ∧ (endWait p limited s).sori = s.sori ∧
      (endWait p limited s).models = s.models ∧ (endWait p limited s).serve = s.serve ∧ (endWait p limited s).fab = s.fab ∧ (endWait p
      limited s).out = s.out ∧ (endWait p limited s).fresh = s.fresh ∧ (endWait p limited s).pins = s.pins ∧ (endWait p limited s).pending =
      s.pending ∧ (endWait p limited s).boot = s.boot ∧ (endWait p limited s).flash = s.flash ∧ (endWait p limited s).mem = s.mem := by
  unfold endWait
  (repeat' split) <;> (try simp) <;> (repeat' split) <;> (try simp) <;> (repeat' split) <;> (try simp_all)

@[simp] theorem capture_keeps (id : Nat) (s : State) :
    (capture id s).beat = s.beat ∧ (capture id s).pwr = s.pwr ∧ (capture id s).thm = s.thm ∧ (capture id s).hlth = s.hlth ∧ (capture id
      s).rime = s.rime ∧ (capture id s).stns = s.stns ∧ (capture id s).net = s.net ∧ (capture id s).sori = s.sori ∧ (capture id s).models =
      s.models ∧ (capture id s).serve = s.serve ∧ (capture id s).jobs = s.jobs ∧ (capture id s).out = s.out ∧ (capture id s).fresh = s.fresh
      ∧ (capture id s).pins = s.pins ∧ (capture id s).pending = s.pending ∧ (capture id s).boot = s.boot ∧ (capture id s).flash = s.flash ∧
      (capture id s).mem = s.mem := by
  unfold capture
  simp

@[simp] theorem phase5_keeps (s : State) :
    (phase5 s).beat = s.beat ∧ (phase5 s).pwr = s.pwr ∧ (phase5 s).thm = s.thm ∧ (phase5 s).hlth = s.hlth ∧ (phase5 s).rime = s.rime ∧
      (phase5 s).stns = s.stns ∧ (phase5 s).net = s.net ∧ (phase5 s).sori = s.sori ∧ (phase5 s).models = s.models ∧ (phase5 s).serve =
      s.serve ∧ (phase5 s).jobs = s.jobs ∧ (phase5 s).out = s.out ∧ (phase5 s).fresh = s.fresh ∧ (phase5 s).pins = s.pins ∧ (phase5
      s).pending = s.pending ∧ (phase5 s).boot = s.boot ∧ (phase5 s).flash = s.flash ∧ (phase5 s).mem = s.mem := by
  unfold phase5
  simp

@[simp] theorem completeEntry_keeps (id : Nat) (code : Nat) (i : Nat) (s : State) :
    (completeEntry id code i s).beat = s.beat ∧ (completeEntry id code i s).thm = s.thm ∧ (completeEntry id code i s).hlth = s.hlth ∧
      (completeEntry id code i s).sori = s.sori ∧ (completeEntry id code i s).fresh = s.fresh ∧ (completeEntry id code i s).pins = s.pins ∧
      (completeEntry id code i s).pending = s.pending ∧ (completeEntry id code i s).boot = s.boot ∧ (completeEntry id code i
      s).flash.counters = s.flash.counters ∧ (completeEntry id code i s).flash.install = s.flash.install ∧ (completeEntry id code i
      s).flash.serial = s.flash.serial ∧ (completeEntry id code i s).mem.cells = s.mem.cells ∧ (completeEntry id code i s).mem.undef =
      s.mem.undef := by
  unfold completeEntry
  first
  | (simp; done)
  | ((repeat' split) <;> simp; done)
  | ((repeat' split) <;> (try simp) <;> (repeat' split) <;> (try simp) <;> (repeat' split) <;> (try simp_all); done)

@[simp] theorem passEntry_keeps (p : Place) (i : Nat) (s : State) :
    (passEntry p i s).beat = s.beat ∧ (passEntry p i s).thm = s.thm ∧ (passEntry p i s).hlth = s.hlth ∧ (passEntry p i s).sori = s.sori ∧
      (passEntry p i s).fresh = s.fresh ∧ (passEntry p i s).pins = s.pins ∧ (passEntry p i s).pending = s.pending ∧ (passEntry p i s).boot =
      s.boot ∧ (passEntry p i s).flash.counters = s.flash.counters ∧ (passEntry p i s).flash.install = s.flash.install ∧ (passEntry p i
      s).flash.serial = s.flash.serial ∧ (passEntry p i s).mem.cells = s.mem.cells ∧ (passEntry p i s).mem.undef = s.mem.undef := by
  unfold passEntry
  first
  | (simp; done)
  | ((repeat' split) <;> simp; done)
  | ((repeat' split) <;> (try simp) <;> (repeat' split) <;> (try simp) <;> (repeat' split) <;> (try simp_all); done)

@[simp] theorem releaseBeat_keeps (id : Nat) (l : ListSt) (s : State) :
    (releaseBeat id l s).beat = s.beat ∧ (releaseBeat id l s).thm = s.thm ∧ (releaseBeat id l s).hlth = s.hlth ∧ (releaseBeat id l s).sori
      = s.sori ∧ (releaseBeat id l s).fresh = s.fresh ∧ (releaseBeat id l s).pins = s.pins ∧ (releaseBeat id l s).pending = s.pending ∧
      (releaseBeat id l s).boot = s.boot ∧ (releaseBeat id l s).flash.counters = s.flash.counters ∧ (releaseBeat id l s).flash.install =
      s.flash.install ∧ (releaseBeat id l s).flash.serial = s.flash.serial ∧ (releaseBeat id l s).mem.cells = s.mem.cells ∧ (releaseBeat id
      l s).mem.undef = s.mem.undef := by
  unfold releaseBeat
  (repeat' split) <;> simp

@[simp] theorem beatsAfter_keeps (ns : Nat) (s : State) :
    (beatsAfter ns s).2.beat = s.beat ∧ (beatsAfter ns s).2.pwr = s.pwr ∧ (beatsAfter ns s).2.thm = s.thm ∧ (beatsAfter ns s).2.hlth =
      s.hlth ∧ (beatsAfter ns s).2.rime = s.rime ∧ (beatsAfter ns s).2.stns = s.stns ∧ (beatsAfter ns s).2.net = s.net ∧ (beatsAfter ns
      s).2.sori = s.sori ∧ (beatsAfter ns s).2.models = s.models ∧ (beatsAfter ns s).2.serve = s.serve ∧ (beatsAfter ns s).2.jobs = s.jobs ∧
      (beatsAfter ns s).2.fab = s.fab ∧ (beatsAfter ns s).2.out = s.out ∧ (beatsAfter ns s).2.pins = s.pins ∧ (beatsAfter ns s).2.pending =
      s.pending ∧ (beatsAfter ns s).2.boot = s.boot ∧ (beatsAfter ns s).2.flash = s.flash ∧ (beatsAfter ns s).2.mem = s.mem := by
  unfold beatsAfter draw
  dsimp only
  (repeat' split) <;> (try split) <;> simp

@[simp] theorem gather_keeps (id : Nat) (fresh : List Nat) (s : State) :
    (gather id fresh s).beat = s.beat ∧ (gather id fresh s).pwr = s.pwr ∧ (gather id fresh s).thm = s.thm ∧ (gather id fresh s).hlth =
      s.hlth ∧ (gather id fresh s).rime = s.rime ∧ (gather id fresh s).stns = s.stns ∧ (gather id fresh s).net = s.net ∧ (gather id fresh
      s).sori = s.sori ∧ (gather id fresh s).models = s.models ∧ (gather id fresh s).serve = s.serve ∧ (gather id fresh s).jobs = s.jobs ∧
      (gather id fresh s).pins = s.pins ∧ (gather id fresh s).pending = s.pending ∧ (gather id fresh s).boot = s.boot ∧ (gather id fresh
      s).flash = s.flash ∧ (gather id fresh s).mem = s.mem := by
  unfold gather
  (repeat' split) <;> grind [setOp_keeps, beatsAfter_keeps, sendRelease_keeps, sendFab_keeps]

@[simp] theorem discardRow_keeps (code : Nat) (s : State) :
    (discardRow code s).beat = s.beat ∧ (discardRow code s).pwr = s.pwr ∧ (discardRow code s).thm = s.thm ∧ (discardRow code s).hlth =
      s.hlth ∧ (discardRow code s).rime = s.rime ∧ (discardRow code s).net = s.net ∧ (discardRow code s).sori = s.sori ∧ (discardRow code
      s).models = s.models ∧ (discardRow code s).serve = s.serve ∧ (discardRow code s).jobs = s.jobs ∧ (discardRow code s).fab = s.fab ∧
      (discardRow code s).out = s.out ∧ (discardRow code s).fresh = s.fresh ∧ (discardRow code s).pins = s.pins ∧ (discardRow code
      s).pending = s.pending ∧ (discardRow code s).boot = s.boot ∧ (discardRow code s).flash = s.flash ∧ (discardRow code s).mem = s.mem :=
      by
  unfold discardRow
  simp

@[simp] theorem releaseBeats_keeps (s : State) :
    (releaseBeats s).beat = s.beat ∧ (releaseBeats s).thm = s.thm ∧ (releaseBeats s).hlth = s.hlth ∧ (releaseBeats s).sori = s.sori ∧
      (releaseBeats s).fresh = s.fresh ∧ (releaseBeats s).pins = s.pins ∧ (releaseBeats s).pending = s.pending ∧ (releaseBeats s).boot =
      s.boot ∧ (releaseBeats s).flash.counters = s.flash.counters ∧ (releaseBeats s).flash.install = s.flash.install ∧ (releaseBeats
      s).flash.serial = s.flash.serial ∧ (releaseBeats s).mem.cells = s.mem.cells ∧ (releaseBeats s).mem.undef = s.mem.undef := by
  unfold releaseBeats
  simp

@[simp] theorem completeBarrier_keeps (id : Nat) (s : State) :
    (completeBarrier id s).beat = s.beat ∧ (completeBarrier id s).thm = s.thm ∧ (completeBarrier id s).hlth = s.hlth ∧ (completeBarrier id
      s).rime = s.rime ∧ (completeBarrier id s).stns = s.stns ∧ (completeBarrier id s).sori = s.sori ∧ (completeBarrier id s).models =
      s.models ∧ (completeBarrier id s).serve = s.serve ∧ (completeBarrier id s).jobs = s.jobs ∧ (completeBarrier id s).fresh = s.fresh ∧
      (completeBarrier id s).pins = s.pins ∧ (completeBarrier id s).pending = s.pending ∧ (completeBarrier id s).boot = s.boot ∧
      (completeBarrier id s).flash = s.flash ∧ (completeBarrier id s).mem = s.mem := by
  unfold completeBarrier
  (repeat' split) <;> simp

@[simp] theorem completeBarriers_keeps (s : State) :
    (completeBarriers s).beat = s.beat ∧ (completeBarriers s).thm = s.thm ∧ (completeBarriers s).hlth = s.hlth ∧ (completeBarriers s).rime
      = s.rime ∧ (completeBarriers s).stns = s.stns ∧ (completeBarriers s).sori = s.sori ∧ (completeBarriers s).models = s.models ∧
      (completeBarriers s).serve = s.serve ∧ (completeBarriers s).jobs = s.jobs ∧ (completeBarriers s).fresh = s.fresh ∧ (completeBarriers
      s).pins = s.pins ∧ (completeBarriers s).pending = s.pending ∧ (completeBarriers s).boot = s.boot ∧ (completeBarriers s).flash =
      s.flash ∧ (completeBarriers s).mem = s.mem := by
  unfold completeBarriers
  simp

@[simp] theorem ageCands_keeps (s : State) :
    (ageCands s).beat = s.beat ∧ (ageCands s).pwr = s.pwr ∧ (ageCands s).thm = s.thm ∧ (ageCands s).hlth = s.hlth ∧ (ageCands s).rime =
      s.rime ∧ (ageCands s).stns = s.stns ∧ (ageCands s).net = s.net ∧ (ageCands s).sori = s.sori ∧ (ageCands s).models = s.models ∧
      (ageCands s).serve = s.serve ∧ (ageCands s).fab = s.fab ∧ (ageCands s).out = s.out ∧ (ageCands s).fresh = s.fresh ∧ (ageCands s).pins
      = s.pins ∧ (ageCands s).pending = s.pending ∧ (ageCands s).boot = s.boot ∧ (ageCands s).flash = s.flash ∧ (ageCands s).mem = s.mem :=
      by
  unfold ageCands
  simp

@[simp] theorem countClaimWaits_keeps (s : State) :
    (countClaimWaits s).beat = s.beat ∧ (countClaimWaits s).pwr = s.pwr ∧ (countClaimWaits s).thm = s.thm ∧ (countClaimWaits s).hlth =
      s.hlth ∧ (countClaimWaits s).rime = s.rime ∧ (countClaimWaits s).stns = s.stns ∧ (countClaimWaits s).net = s.net ∧ (countClaimWaits
      s).sori = s.sori ∧ (countClaimWaits s).models = s.models ∧ (countClaimWaits s).serve = s.serve ∧ (countClaimWaits s).fab = s.fab ∧
      (countClaimWaits s).out = s.out ∧ (countClaimWaits s).fresh = s.fresh ∧ (countClaimWaits s).pins = s.pins ∧ (countClaimWaits
      s).pending = s.pending ∧ (countClaimWaits s).boot = s.boot ∧ (countClaimWaits s).flash = s.flash ∧ (countClaimWaits s).mem = s.mem :=
      by
  unfold countClaimWaits
  simp

@[simp] theorem dropUnbound_keeps (s : State) :
    (dropUnbound s).beat = s.beat ∧ (dropUnbound s).pwr = s.pwr ∧ (dropUnbound s).thm = s.thm ∧ (dropUnbound s).hlth = s.hlth ∧
      (dropUnbound s).rime = s.rime ∧ (dropUnbound s).stns = s.stns ∧ (dropUnbound s).sori = s.sori ∧ (dropUnbound s).models = s.models ∧
      (dropUnbound s).serve = s.serve ∧ (dropUnbound s).fresh = s.fresh ∧ (dropUnbound s).pins = s.pins ∧ (dropUnbound s).pending =
      s.pending ∧ (dropUnbound s).boot = s.boot ∧ (dropUnbound s).flash = s.flash ∧ (dropUnbound s).mem = s.mem := by
  unfold dropUnbound
  (repeat' split) <;> (try simp (disch := ((try intros); (repeat' split) <;> (try simp)))) <;> (repeat' split) <;> (try simp (disch := ((try intros); (repeat' split) <;> (try simp)))) <;> (repeat' split) <;> (try simp_all)

@[simp] theorem issueNext_keeps (id : Nat) (code : Nat) (s : State) :
    (issueNext id code s).beat = s.beat ∧ (issueNext id code s).pwr = s.pwr ∧ (issueNext id code s).thm = s.thm ∧ (issueNext id code
      s).hlth = s.hlth ∧ (issueNext id code s).rime = s.rime ∧ (issueNext id code s).stns = s.stns ∧ (issueNext id code s).net = s.net ∧
      (issueNext id code s).sori = s.sori ∧ (issueNext id code s).models = s.models ∧ (issueNext id code s).serve = s.serve ∧ (issueNext id
      code s).fab = s.fab ∧ (issueNext id code s).out = s.out ∧ (issueNext id code s).fresh = s.fresh ∧ (issueNext id code s).pins = s.pins
      ∧ (issueNext id code s).pending = s.pending ∧ (issueNext id code s).boot = s.boot ∧ (issueNext id code s).flash = s.flash ∧ (issueNext
      id code s).mem = s.mem := by
  unfold issueNext
  first
  | (simp; done)
  | ((repeat' split) <;> simp; done)
  | ((repeat' split) <;> (try simp) <;> (repeat' split) <;> (try simp) <;> (repeat' split) <;> (try simp_all); done)

@[simp] theorem beginRun_keeps (id : Nat) (s : State) :
    (beginRun id s).beat = s.beat ∧ (beginRun id s).pwr = s.pwr ∧ (beginRun id s).thm = s.thm ∧ (beginRun id s).hlth = s.hlth ∧ (beginRun
      id s).rime = s.rime ∧ (beginRun id s).net = s.net ∧ (beginRun id s).sori = s.sori ∧ (beginRun id s).models = s.models ∧ (beginRun id
      s).serve = s.serve ∧ (beginRun id s).fab = s.fab ∧ (beginRun id s).out = s.out ∧ (beginRun id s).pins = s.pins ∧ (beginRun id
      s).pending = s.pending ∧ (beginRun id s).boot = s.boot ∧ (beginRun id s).flash = s.flash ∧ (beginRun id s).mem = s.mem := by
  unfold beginRun
  (repeat' split) <;> simp

@[simp] theorem restart_keeps (id : Nat) (s : State) :
    (restart id s).beat = s.beat ∧ (restart id s).pwr = s.pwr ∧ (restart id s).thm = s.thm ∧ (restart id s).hlth = s.hlth ∧ (restart id
      s).rime = s.rime ∧ (restart id s).net = s.net ∧ (restart id s).sori = s.sori ∧ (restart id s).models = s.models ∧ (restart id s).serve
      = s.serve ∧ (restart id s).fab = s.fab ∧ (restart id s).out = s.out ∧ (restart id s).pins = s.pins ∧ (restart id s).pending =
      s.pending ∧ (restart id s).boot = s.boot ∧ (restart id s).flash = s.flash ∧ (restart id s).mem = s.mem := by
  unfold restart
  (repeat' split) <;> simp

@[simp] theorem countBulk_keeps (c : Cmd) (f : Acct → Acct) (s : State) :
    (countBulk c f s).beat = s.beat ∧ (countBulk c f s).pwr = s.pwr ∧ (countBulk c f s).thm = s.thm ∧ (countBulk c f s).hlth = s.hlth ∧
      (countBulk c f s).rime = s.rime ∧ (countBulk c f s).stns = s.stns ∧ (countBulk c f s).net = s.net ∧ (countBulk c f s).sori = s.sori ∧
      (countBulk c f s).models = s.models ∧ (countBulk c f s).serve = s.serve ∧ (countBulk c f s).fab = s.fab ∧ (countBulk c f s).out =
      s.out ∧ (countBulk c f s).fresh = s.fresh ∧ (countBulk c f s).pins = s.pins ∧ (countBulk c f s).pending = s.pending ∧ (countBulk c f
      s).boot = s.boot ∧ (countBulk c f s).flash = s.flash ∧ (countBulk c f s).mem = s.mem := by
  unfold countBulk
  simp

@[simp] theorem countWait_keeps (principal : Nat) (w : Nat) (s : State) :
    (countWait principal w s).beat = s.beat ∧ (countWait principal w s).pwr = s.pwr ∧ (countWait principal w s).thm = s.thm ∧ (countWait
      principal w s).hlth = s.hlth ∧ (countWait principal w s).rime = s.rime ∧ (countWait principal w s).stns = s.stns ∧ (countWait
      principal w s).net = s.net ∧ (countWait principal w s).sori = s.sori ∧ (countWait principal w s).models = s.models ∧ (countWait
      principal w s).serve = s.serve ∧ (countWait principal w s).fab = s.fab ∧ (countWait principal w s).out = s.out ∧ (countWait principal
      w s).fresh = s.fresh ∧ (countWait principal w s).pins = s.pins ∧ (countWait principal w s).pending = s.pending ∧ (countWait principal
      w s).boot = s.boot ∧ (countWait principal w s).flash = s.flash ∧ (countWait principal w s).mem = s.mem := by
  unfold countWait
  simp

@[simp] theorem countStart_keeps (c : Cmd) (s : State) :
    (countStart c s).beat = s.beat ∧ (countStart c s).pwr = s.pwr ∧ (countStart c s).thm = s.thm ∧ (countStart c s).hlth = s.hlth ∧
      (countStart c s).rime = s.rime ∧ (countStart c s).net = s.net ∧ (countStart c s).sori = s.sori ∧ (countStart c s).models = s.models ∧
      (countStart c s).serve = s.serve ∧ (countStart c s).fab = s.fab ∧ (countStart c s).out = s.out ∧ (countStart c s).fresh = s.fresh ∧
      (countStart c s).pins = s.pins ∧ (countStart c s).pending = s.pending ∧ (countStart c s).boot = s.boot ∧ (countStart c s).flash =
      s.flash ∧ (countStart c s).mem = s.mem := by
  unfold countStart
  simp

@[simp] theorem startItem_keeps (c : Cmd) (i : PlanItem) (s : State) :
    (startItem c i s).beat = s.beat ∧ (startItem c i s).pwr = s.pwr ∧ (startItem c i s).thm = s.thm ∧ (startItem c i s).hlth = s.hlth ∧
      (startItem c i s).rime = s.rime ∧ (startItem c i s).stns = s.stns ∧ (startItem c i s).net = s.net ∧ (startItem c i s).sori = s.sori ∧
      (startItem c i s).models = s.models ∧ (startItem c i s).fab = s.fab ∧ (startItem c i s).out = s.out ∧ (startItem c i s).fresh =
      s.fresh ∧ (startItem c i s).pins = s.pins ∧ (startItem c i s).pending = s.pending ∧ (startItem c i s).boot = s.boot ∧ (startItem c i
      s).flash = s.flash ∧ (startItem c i s).mem = s.mem := by
  unfold startItem
  (repeat' split) <;> simp

@[simp] theorem startPlan_keeps (c : Cmd) (s : State) :
    (startPlan c s).beat = s.beat ∧ (startPlan c s).pwr = s.pwr ∧ (startPlan c s).thm = s.thm ∧ (startPlan c s).hlth = s.hlth ∧ (startPlan
      c s).rime = s.rime ∧ (startPlan c s).stns = s.stns ∧ (startPlan c s).net = s.net ∧ (startPlan c s).sori = s.sori ∧ (startPlan c
      s).models = s.models ∧ (startPlan c s).fab = s.fab ∧ (startPlan c s).out = s.out ∧ (startPlan c s).fresh = s.fresh ∧ (startPlan c
      s).pins = s.pins ∧ (startPlan c s).pending = s.pending ∧ (startPlan c s).boot = s.boot ∧ (startPlan c s).flash = s.flash ∧ (startPlan
      c s).mem = s.mem := by
  unfold startPlan
  simp

@[simp] theorem touchModel_keeps (modelId : Nat) (handles : List Nat) (s : State) :
    (touchModel modelId handles s).beat = s.beat ∧ (touchModel modelId handles s).pwr = s.pwr ∧ (touchModel modelId handles s).thm = s.thm
      ∧ (touchModel modelId handles s).hlth = s.hlth ∧ (touchModel modelId handles s).rime = s.rime ∧ (touchModel modelId handles s).stns =
      s.stns ∧ (touchModel modelId handles s).net = s.net ∧ (touchModel modelId handles s).sori = s.sori ∧ (touchModel modelId handles
      s).serve = s.serve ∧ (touchModel modelId handles s).jobs = s.jobs ∧ (touchModel modelId handles s).fab = s.fab ∧ (touchModel modelId
      handles s).out = s.out ∧ (touchModel modelId handles s).fresh = s.fresh ∧ (touchModel modelId handles s).pins = s.pins ∧ (touchModel
      modelId handles s).pending = s.pending ∧ (touchModel modelId handles s).boot = s.boot ∧ (touchModel modelId handles s).flash = s.flash
      ∧ (touchModel modelId handles s).mem = s.mem := by
  unfold touchModel
  simp

@[simp] theorem startCmd_keeps (id : Nat) (img : Image) (s : State) :
    (startCmd id img s).beat = s.beat ∧ (startCmd id img s).pwr = s.pwr ∧ (startCmd id img s).thm = s.thm ∧ (startCmd id img s).hlth =
      s.hlth ∧ (startCmd id img s).rime = s.rime ∧ (startCmd id img s).net = s.net ∧ (startCmd id img s).sori = s.sori ∧ (startCmd id img
      s).fab = s.fab ∧ (startCmd id img s).out = s.out ∧ (startCmd id img s).pins = s.pins ∧ (startCmd id img s).pending = s.pending ∧
      (startCmd id img s).boot = s.boot ∧ (startCmd id img s).flash = s.flash ∧ (startCmd id img s).mem = s.mem := by
  unfold startCmd
  (repeat' split) <;> simp

@[simp] theorem visit_keeps (res : List (Nat × Nat)) (x1 : Cand) (s : State) :
    (visit res x1 s).beat = s.beat ∧ (visit res x1 s).pwr = s.pwr ∧ (visit res x1 s).thm = s.thm ∧ (visit res x1 s).hlth = s.hlth ∧ (visit
      res x1 s).rime = s.rime ∧ (visit res x1 s).net = s.net ∧ (visit res x1 s).sori = s.sori ∧ (visit res x1 s).fab = s.fab ∧ (visit res x1
      s).out = s.out ∧ (visit res x1 s).pins = s.pins ∧ (visit res x1 s).pending = s.pending ∧ (visit res x1 s).boot = s.boot ∧ (visit res
      x1 s).flash = s.flash ∧ (visit res x1 s).mem = s.mem := by
  unfold visit
  (repeat' split) <;> simp

@[simp] theorem phase9_keeps (s : State) :
    (phase9 s).beat = s.beat ∧ (phase9 s).pwr = s.pwr ∧ (phase9 s).thm = s.thm ∧ (phase9 s).hlth = s.hlth ∧ (phase9 s).rime = s.rime ∧
      (phase9 s).sori = s.sori ∧ (phase9 s).pins = s.pins ∧ (phase9 s).pending = s.pending ∧ (phase9 s).boot = s.boot ∧ (phase9 s).flash =
      s.flash ∧ (phase9 s).mem = s.mem := by
  unfold phase9
  simp

@[simp] theorem phase9All_keeps (paused : Bool) (s : State) :
    (phase9All paused s).beat = s.beat ∧ (phase9All paused s).thm = s.thm ∧ (phase9All paused s).hlth = s.hlth ∧ (phase9All paused s).sori
      = s.sori ∧ (phase9All paused s).pins = s.pins ∧ (phase9All paused s).pending = s.pending ∧ (phase9All paused s).boot = s.boot ∧
      (phase9All paused s).flash.counters = s.flash.counters ∧ (phase9All paused s).flash.install = s.flash.install ∧ (phase9All paused
      s).flash.serial = s.flash.serial ∧ (phase9All paused s).mem.cells = s.mem.cells ∧ (phase9All paused s).mem.undef = s.mem.undef := by
  unfold phase9All
  (repeat' split) <;> grind [completeBarriers_keeps, releaseBeats_keeps, phase9_keeps]

@[simp] theorem completeNext_keeps (id : Nat) (code : Nat) (s : State) :
    (completeNext id code s).beat = s.beat ∧ (completeNext id code s).thm = s.thm ∧ (completeNext id code s).hlth = s.hlth ∧ (completeNext
      id code s).sori = s.sori ∧ (completeNext id code s).fresh = s.fresh ∧ (completeNext id code s).pins = s.pins ∧ (completeNext id code
      s).pending = s.pending ∧ (completeNext id code s).boot = s.boot ∧ (completeNext id code s).flash.counters = s.flash.counters ∧
      (completeNext id code s).flash.install = s.flash.install ∧ (completeNext id code s).flash.serial = s.flash.serial ∧ (completeNext id
      code s).mem.cells = s.mem.cells ∧ (completeNext id code s).mem.undef = s.mem.undef := by
  unfold completeNext
  (repeat' split) <;> simp

@[simp] theorem addStall_keeps (ctx : Nat) (tier : Nat) (cause : Nat) (beats : Nat) (episodes : Nat) (s : State) :
    (addStall ctx tier cause beats episodes s).beat = s.beat ∧ (addStall ctx tier cause beats episodes s).pwr = s.pwr ∧ (addStall ctx tier
      cause beats episodes s).thm = s.thm ∧ (addStall ctx tier cause beats episodes s).hlth = s.hlth ∧ (addStall ctx tier cause beats
      episodes s).rime = s.rime ∧ (addStall ctx tier cause beats episodes s).stns = s.stns ∧ (addStall ctx tier cause beats episodes s).net
      = s.net ∧ (addStall ctx tier cause beats episodes s).sori = s.sori ∧ (addStall ctx tier cause beats episodes s).models = s.models ∧
      (addStall ctx tier cause beats episodes s).serve = s.serve ∧ (addStall ctx tier cause beats episodes s).fab = s.fab ∧ (addStall ctx
      tier cause beats episodes s).out = s.out ∧ (addStall ctx tier cause beats episodes s).fresh = s.fresh ∧ (addStall ctx tier cause beats
      episodes s).pins = s.pins ∧ (addStall ctx tier cause beats episodes s).pending = s.pending ∧ (addStall ctx tier cause beats episodes
      s).boot = s.boot ∧ (addStall ctx tier cause beats episodes s).flash = s.flash ∧ (addStall ctx tier cause beats episodes s).mem = s.mem
      := by
  unfold addStall
  simp

@[simp] theorem stallBeat_keeps (ctx : Nat) (tier : Nat) (s : State) :
    (stallBeat ctx tier s).beat = s.beat ∧ (stallBeat ctx tier s).pwr = s.pwr ∧ (stallBeat ctx tier s).thm = s.thm ∧ (stallBeat ctx tier
      s).hlth = s.hlth ∧ (stallBeat ctx tier s).rime = s.rime ∧ (stallBeat ctx tier s).stns = s.stns ∧ (stallBeat ctx tier s).net = s.net ∧
      (stallBeat ctx tier s).sori = s.sori ∧ (stallBeat ctx tier s).models = s.models ∧ (stallBeat ctx tier s).serve = s.serve ∧ (stallBeat
      ctx tier s).fab = s.fab ∧ (stallBeat ctx tier s).out = s.out ∧ (stallBeat ctx tier s).fresh = s.fresh ∧ (stallBeat ctx tier s).pins =
      s.pins ∧ (stallBeat ctx tier s).pending = s.pending ∧ (stallBeat ctx tier s).boot = s.boot ∧ (stallBeat ctx tier s).flash = s.flash ∧
      (stallBeat ctx tier s).mem = s.mem := by
  unfold stallBeat
  simp

@[simp] theorem addOp_keeps (id : Nat) (members : List Nat) (session : Nat) (tag : Nat) (timeout : Nat) (s : State) :
    (addOp id members session tag timeout s).beat = s.beat ∧ (addOp id members session tag timeout s).pwr = s.pwr ∧ (addOp id members
      session tag timeout s).thm = s.thm ∧ (addOp id members session tag timeout s).hlth = s.hlth ∧ (addOp id members session tag timeout
      s).rime = s.rime ∧ (addOp id members session tag timeout s).stns = s.stns ∧ (addOp id members session tag timeout s).net = s.net ∧
      (addOp id members session tag timeout s).sori = s.sori ∧ (addOp id members session tag timeout s).models = s.models ∧ (addOp id
      members session tag timeout s).serve = s.serve ∧ (addOp id members session tag timeout s).jobs = s.jobs ∧ (addOp id members session
      tag timeout s).out = s.out ∧ (addOp id members session tag timeout s).fresh = s.fresh ∧ (addOp id members session tag timeout s).pins
      = s.pins ∧ (addOp id members session tag timeout s).pending = s.pending ∧ (addOp id members session tag timeout s).boot = s.boot ∧
      (addOp id members session tag timeout s).flash = s.flash ∧ (addOp id members session tag timeout s).mem = s.mem := by
  unfold addOp
  first
  | (simp; done)
  | ((repeat' split) <;> simp; done)
  | ((repeat' split) <;> (try simp) <;> (repeat' split) <;> (try simp) <;> (repeat' split) <;> (try simp_all); done)

@[simp] theorem arriveHere_keeps (id : Nat) (s : State) :
    (arriveHere id s).beat = s.beat ∧ (arriveHere id s).pwr = s.pwr ∧ (arriveHere id s).thm = s.thm ∧ (arriveHere id s).hlth = s.hlth ∧
      (arriveHere id s).rime = s.rime ∧ (arriveHere id s).stns = s.stns ∧ (arriveHere id s).sori = s.sori ∧ (arriveHere id s).models =
      s.models ∧ (arriveHere id s).serve = s.serve ∧ (arriveHere id s).jobs = s.jobs ∧ (arriveHere id s).pins = s.pins ∧ (arriveHere id
      s).pending = s.pending ∧ (arriveHere id s).boot = s.boot ∧ (arriveHere id s).flash = s.flash ∧ (arriveHere id s).mem = s.mem := by
  unfold arriveHere
  first
  | (simp; done)
  | ((repeat' split) <;> simp; done)
  | ((repeat' split) <;> (try simp) <;> (repeat' split) <;> (try simp) <;> (repeat' split) <;> (try simp_all); done)

@[simp] theorem enterBarrier_keeps (h : Hdr) (id : Nat) (timeout : Nat) (members : List Nat) (s : State) :
    (enterBarrier h id timeout members s).beat = s.beat ∧ (enterBarrier h id timeout members s).pwr = s.pwr ∧ (enterBarrier h id timeout
      members s).thm = s.thm ∧ (enterBarrier h id timeout members s).hlth = s.hlth ∧ (enterBarrier h id timeout members s).rime = s.rime ∧
      (enterBarrier h id timeout members s).stns = s.stns ∧ (enterBarrier h id timeout members s).sori = s.sori ∧ (enterBarrier h id timeout
      members s).models = s.models ∧ (enterBarrier h id timeout members s).serve = s.serve ∧ (enterBarrier h id timeout members s).jobs =
      s.jobs ∧ (enterBarrier h id timeout members s).pins = s.pins ∧ (enterBarrier h id timeout members s).pending = s.pending ∧
      (enterBarrier h id timeout members s).boot = s.boot ∧ (enterBarrier h id timeout members s).flash = s.flash ∧ (enterBarrier h id
      timeout members s).mem = s.mem := by
  unfold enterBarrier
  (repeat' split) <;> (try simp) <;> (repeat' split) <;> (try simp) <;> (repeat' split) <;> (try simp_all)

@[simp] theorem tagCopy_keeps (first : Nat) (cmd : Nat) (bump : Nat × Nat × Nat × Nat) (s : State) :
    (tagCopy first cmd bump s).beat = s.beat ∧ (tagCopy first cmd bump s).pwr = s.pwr ∧ (tagCopy first cmd bump s).thm = s.thm ∧ (tagCopy
      first cmd bump s).hlth = s.hlth ∧ (tagCopy first cmd bump s).rime = s.rime ∧ (tagCopy first cmd bump s).stns = s.stns ∧ (tagCopy first
      cmd bump s).net = s.net ∧ (tagCopy first cmd bump s).sori = s.sori ∧ (tagCopy first cmd bump s).models = s.models ∧ (tagCopy first cmd
      bump s).serve = s.serve ∧ (tagCopy first cmd bump s).jobs = s.jobs ∧ (tagCopy first cmd bump s).out = s.out ∧ (tagCopy first cmd bump
      s).fresh = s.fresh ∧ (tagCopy first cmd bump s).pins = s.pins ∧ (tagCopy first cmd bump s).pending = s.pending ∧ (tagCopy first cmd
      bump s).boot = s.boot ∧ (tagCopy first cmd bump s).flash = s.flash ∧ (tagCopy first cmd bump s).mem = s.mem := by
  unfold tagCopy
  simp

@[simp] theorem completeRaise_keeps (e : Nat) (s : State) :
    (completeRaise e s).beat = s.beat ∧ (completeRaise e s).thm = s.thm ∧ (completeRaise e s).hlth = s.hlth ∧ (completeRaise e s).rime =
      s.rime ∧ (completeRaise e s).stns = s.stns ∧ (completeRaise e s).net = s.net ∧ (completeRaise e s).sori = s.sori ∧ (completeRaise e
      s).models = s.models ∧ (completeRaise e s).serve = s.serve ∧ (completeRaise e s).jobs = s.jobs ∧ (completeRaise e s).fab = s.fab ∧
      (completeRaise e s).out = s.out ∧ (completeRaise e s).fresh = s.fresh ∧ (completeRaise e s).pins = s.pins ∧ (completeRaise e
      s).pending = s.pending ∧ (completeRaise e s).boot = s.boot ∧ (completeRaise e s).flash = s.flash ∧ (completeRaise e s).mem = s.mem :=
      by
  unfold completeRaise
  simp

theorem takeSet_keeps (modelId : Nat) (s : State) :
    ∀ v, takeSet modelId s = some v → v.2.beat = s.beat ∧ v.2.pwr = s.pwr ∧ v.2.thm = s.thm ∧ v.2.hlth = s.hlth ∧ v.2.rime = s.rime ∧
      v.2.stns = s.stns ∧ v.2.net = s.net ∧ v.2.sori = s.sori ∧ v.2.serve = s.serve ∧ v.2.jobs = s.jobs ∧ v.2.fab = s.fab ∧ v.2.out = s.out
      ∧ v.2.fresh = s.fresh ∧ v.2.pins = s.pins ∧ v.2.pending = s.pending ∧ v.2.boot = s.boot ∧ v.2.flash = s.flash ∧ v.2.mem = s.mem := by
  unfold takeSet
  (repeat' split) <;> simp

@[simp] theorem addModel_keeps (m : Manifest) (timeout : Nat) (source : Nat) (ps : List PlacedTensor) (s : State) :
    (addModel m timeout source ps s).beat = s.beat ∧ (addModel m timeout source ps s).pwr = s.pwr ∧ (addModel m timeout source ps s).thm =
      s.thm ∧ (addModel m timeout source ps s).hlth = s.hlth ∧ (addModel m timeout source ps s).rime = s.rime ∧ (addModel m timeout source
      ps s).stns = s.stns ∧ (addModel m timeout source ps s).net = s.net ∧ (addModel m timeout source ps s).sori = s.sori ∧ (addModel m
      timeout source ps s).serve = s.serve ∧ (addModel m timeout source ps s).jobs = s.jobs ∧ (addModel m timeout source ps s).fab = s.fab ∧
      (addModel m timeout source ps s).out = s.out ∧ (addModel m timeout source ps s).fresh = s.fresh ∧ (addModel m timeout source ps
      s).pins = s.pins ∧ (addModel m timeout source ps s).pending = s.pending ∧ (addModel m timeout source ps s).boot = s.boot ∧ (addModel m
      timeout source ps s).flash = s.flash ∧ (addModel m timeout source ps s).mem = s.mem := by
  unfold addModel
  simp

theorem copyMove_keeps (c : Cmd) (o : Origin) (f : ZCopyF) (a : Nat) (s : State) :
    ∀ t, copyMove c o f a s = .ok t → t.beat = s.beat ∧ t.pwr = s.pwr ∧ t.thm = s.thm ∧ t.hlth = s.hlth ∧ t.rime = s.rime ∧ t.stns =
      s.stns ∧ t.net = s.net ∧ t.sori = s.sori ∧ t.models = s.models ∧ t.serve = s.serve ∧ t.fresh = s.fresh ∧ t.pins = s.pins ∧ t.pending =
      s.pending ∧ t.boot = s.boot ∧ t.flash = s.flash ∧ t.mem.undef = s.mem.undef := by
  unfold copyMove
  (repeat' split) <;> grind [storeTo_keeps, loadTo_keeps]

@[simp] theorem governEngine_keeps (e : Nat) (s : State) :
    (governEngine e s).beat = s.beat ∧ (governEngine e s).thm = s.thm ∧ (governEngine e s).hlth = s.hlth ∧ (governEngine e s).rime =
      s.rime ∧ (governEngine e s).stns = s.stns ∧ (governEngine e s).net = s.net ∧ (governEngine e s).sori = s.sori ∧ (governEngine e
      s).models = s.models ∧ (governEngine e s).serve = s.serve ∧ (governEngine e s).jobs = s.jobs ∧ (governEngine e s).fab = s.fab ∧
      (governEngine e s).fresh = s.fresh ∧ (governEngine e s).pins = s.pins ∧ (governEngine e s).pending = s.pending ∧ (governEngine e
      s).boot = s.boot ∧ (governEngine e s).flash = s.flash ∧ (governEngine e s).mem = s.mem := by
  unfold governEngine
  (repeat' split) <;> (try simp) <;> (repeat' split) <;> (try simp) <;> (repeat' split) <;> (try simp_all)

theorem takeSets_keeps (modelId : Nat) (x1 : Nat) (x2 : State) :
    ∀ v, takeSets modelId x1 x2 = some v → v.2.beat = x2.beat ∧ v.2.pwr = x2.pwr ∧ v.2.thm = x2.thm ∧ v.2.hlth = x2.hlth ∧ v.2.rime =
      x2.rime ∧ v.2.stns = x2.stns ∧ v.2.net = x2.net ∧ v.2.sori = x2.sori ∧ v.2.serve = x2.serve ∧ v.2.jobs = x2.jobs ∧ v.2.fab = x2.fab ∧
      v.2.out = x2.out ∧ v.2.fresh = x2.fresh ∧ v.2.pins = x2.pins ∧ v.2.pending = x2.pending ∧ v.2.boot = x2.boot ∧ v.2.flash = x2.flash ∧
      v.2.mem = x2.mem := by
  induction x1 generalizing x2 with
  | zero => simp [takeSets]
  | succ n ih =>
    unfold takeSets
    split
    · simp
    · rename_i h; have h1 := takeSet_keeps _ _ _ h; intro v hv
      simp only [Option.map_eq_some_iff] at hv; obtain ⟨r, hr, rfl⟩ := hv
      have h2 := ih _ _ hr; simp_all

@[simp] theorem flagExchange_keeps (job : Nat) (limited : Bool) (s : State) :
    (flagExchange job limited s).beat = s.beat ∧ (flagExchange job limited s).pwr = s.pwr ∧ (flagExchange job limited s).thm = s.thm ∧
      (flagExchange job limited s).hlth = s.hlth ∧ (flagExchange job limited s).rime = s.rime ∧ (flagExchange job limited s).stns = s.stns ∧
      (flagExchange job limited s).net = s.net ∧ (flagExchange job limited s).sori = s.sori ∧ (flagExchange job limited s).models = s.models
      ∧ (flagExchange job limited s).serve = s.serve ∧ (flagExchange job limited s).fab = s.fab ∧ (flagExchange job limited s).out = s.out ∧
      (flagExchange job limited s).fresh = s.fresh ∧ (flagExchange job limited s).pins = s.pins ∧ (flagExchange job limited s).pending =
      s.pending ∧ (flagExchange job limited s).boot = s.boot ∧ (flagExchange job limited s).flash = s.flash ∧ (flagExchange job limited
      s).mem = s.mem := by
  unfold flagExchange
  simp

@[simp] theorem setBridgeLane_keeps (k : Nat) (l : Nat) (x1 : Lane) (s : State) :
    (setBridgeLane k l x1 s).beat = s.beat ∧ (setBridgeLane k l x1 s).pwr = s.pwr ∧ (setBridgeLane k l x1 s).thm = s.thm ∧ (setBridgeLane
      k l x1 s).rime = s.rime ∧ (setBridgeLane k l x1 s).stns = s.stns ∧ (setBridgeLane k l x1 s).net = s.net ∧ (setBridgeLane k l x1
      s).sori = s.sori ∧ (setBridgeLane k l x1 s).models = s.models ∧ (setBridgeLane k l x1 s).serve = s.serve ∧ (setBridgeLane k l x1
      s).jobs = s.jobs ∧ (setBridgeLane k l x1 s).out = s.out ∧ (setBridgeLane k l x1 s).fresh = s.fresh ∧ (setBridgeLane k l x1 s).pins =
      s.pins ∧ (setBridgeLane k l x1 s).pending = s.pending ∧ (setBridgeLane k l x1 s).boot = s.boot ∧ (setBridgeLane k l x1 s).flash =
      s.flash ∧ (setBridgeLane k l x1 s).mem = s.mem := by
  unfold setBridgeLane
  simp

@[simp] theorem countStalls_keeps (s : State) :
    (countStalls s).beat = s.beat ∧ (countStalls s).pwr = s.pwr ∧ (countStalls s).thm = s.thm ∧ (countStalls s).hlth = s.hlth ∧
      (countStalls s).rime = s.rime ∧ (countStalls s).stns = s.stns ∧ (countStalls s).net = s.net ∧ (countStalls s).sori = s.sori ∧
      (countStalls s).models = s.models ∧ (countStalls s).serve = s.serve ∧ (countStalls s).fab = s.fab ∧ (countStalls s).out = s.out ∧
      (countStalls s).fresh = s.fresh ∧ (countStalls s).pins = s.pins ∧ (countStalls s).pending = s.pending ∧ (countStalls s).boot = s.boot
      ∧ (countStalls s).flash = s.flash ∧ (countStalls s).mem = s.mem := by
  unfold countStalls
  simp

@[simp] theorem storeRuns_keeps (x1 : List (Nat × Nat)) (x2 : List Byte) (x3 : State) :
    (storeRuns x1 x2 x3).beat = x3.beat ∧ (storeRuns x1 x2 x3).pwr = x3.pwr ∧ (storeRuns x1 x2 x3).thm = x3.thm ∧ (storeRuns x1 x2
      x3).hlth = x3.hlth ∧ (storeRuns x1 x2 x3).rime = x3.rime ∧ (storeRuns x1 x2 x3).stns = x3.stns ∧ (storeRuns x1 x2 x3).net = x3.net ∧
      (storeRuns x1 x2 x3).sori = x3.sori ∧ (storeRuns x1 x2 x3).models = x3.models ∧ (storeRuns x1 x2 x3).serve = x3.serve ∧ (storeRuns x1
      x2 x3).out = x3.out ∧ (storeRuns x1 x2 x3).fresh = x3.fresh ∧ (storeRuns x1 x2 x3).pins = x3.pins ∧ (storeRuns x1 x2 x3).pending =
      x3.pending ∧ (storeRuns x1 x2 x3).boot = x3.boot ∧ (storeRuns x1 x2 x3).flash = x3.flash ∧ (storeRuns x1 x2 x3).mem.undef =
      x3.mem.undef := by
  induction x1 generalizing x2 x3 with
  | nil => simp [storeRuns]
  | cons r rs ih => simp [storeRuns, ih]

theorem storeRow_keeps (c : Cmd) (slot : Nat) (off : Nat) (r : Nat) (format : Nat) (kExtent : Nat) (tag : Word) (data : List Byte) (scales
    : List Byte) (s : State) :
    ∀ t, storeRow c slot off r format kExtent tag data scales s = some t → t.beat = s.beat ∧ t.pwr = s.pwr ∧ t.thm = s.thm ∧ t.hlth =
      s.hlth ∧ t.rime = s.rime ∧ t.stns = s.stns ∧ t.net = s.net ∧ t.sori = s.sori ∧ t.models = s.models ∧ t.serve = s.serve ∧ t.out = s.out
      ∧ t.fresh = s.fresh ∧ t.pins = s.pins ∧ t.pending = s.pending ∧ t.boot = s.boot ∧ t.flash = s.flash ∧ t.mem.undef = s.mem.undef := by
  unfold storeRow
  (repeat' split) <;> simp

theorem unshare_keeps (rid : Nat) (s : State) :
    ∀ t, unshare rid s = some t → t.beat = s.beat ∧ t.pwr = s.pwr ∧ t.thm = s.thm ∧ t.hlth = s.hlth ∧ t.rime = s.rime ∧ t.stns = s.stns ∧
      t.net = s.net ∧ t.sori = s.sori ∧ t.jobs = s.jobs ∧ t.fab = s.fab ∧ t.out = s.out ∧ t.fresh = s.fresh ∧ t.pins = s.pins ∧ t.pending =
      s.pending ∧ t.boot = s.boot ∧ t.flash = s.flash ∧ t.mem.undef = s.mem.undef := by
  unfold unshare
  split
  · simp
  · split
    · simp
    · split
      · simp
      · split
        · simp
        · rename_i h; have h1 := takeSet_keeps _ _ _ h; intro t ht; simp at ht; subst ht; simp_all

@[simp] theorem addAdapter_keeps (m : Manifest) (timeout : Nat) (source : Nat) (ps : List PlacedTensor) (s : State) :
    (addAdapter m timeout source ps s).beat = s.beat ∧ (addAdapter m timeout source ps s).pwr = s.pwr ∧ (addAdapter m timeout source ps
      s).thm = s.thm ∧ (addAdapter m timeout source ps s).hlth = s.hlth ∧ (addAdapter m timeout source ps s).rime = s.rime ∧ (addAdapter m
      timeout source ps s).stns = s.stns ∧ (addAdapter m timeout source ps s).net = s.net ∧ (addAdapter m timeout source ps s).sori = s.sori
      ∧ (addAdapter m timeout source ps s).serve = s.serve ∧ (addAdapter m timeout source ps s).jobs = s.jobs ∧ (addAdapter m timeout source
      ps s).fab = s.fab ∧ (addAdapter m timeout source ps s).out = s.out ∧ (addAdapter m timeout source ps s).fresh = s.fresh ∧ (addAdapter
      m timeout source ps s).pins = s.pins ∧ (addAdapter m timeout source ps s).pending = s.pending ∧ (addAdapter m timeout source ps
      s).boot = s.boot ∧ (addAdapter m timeout source ps s).flash = s.flash ∧ (addAdapter m timeout source ps s).mem = s.mem := by
  unfold addAdapter
  simp

@[simp] theorem applyCaps_keeps (s : State) :
    (applyCaps s).1.beat = s.beat ∧ (applyCaps s).1.thm = s.thm ∧ (applyCaps s).1.hlth = s.hlth ∧ (applyCaps s).1.rime = s.rime ∧
      (applyCaps s).1.stns = s.stns ∧ (applyCaps s).1.net = s.net ∧ (applyCaps s).1.sori = s.sori ∧ (applyCaps s).1.models = s.models ∧
      (applyCaps s).1.serve = s.serve ∧ (applyCaps s).1.jobs = s.jobs ∧ (applyCaps s).1.fab = s.fab ∧ (applyCaps s).1.out = s.out ∧
      (applyCaps s).1.fresh = s.fresh ∧ (applyCaps s).1.pins = s.pins ∧ (applyCaps s).1.pending = s.pending ∧ (applyCaps s).1.boot = s.boot
      ∧ (applyCaps s).1.flash = s.flash ∧ (applyCaps s).1.mem = s.mem := by
  unfold applyCaps
  simp

@[simp] theorem countBeat_keeps (s : State) :
    (countBeat s).beat = s.beat ∧ (countBeat s).thm = s.thm ∧ (countBeat s).hlth = s.hlth ∧ (countBeat s).rime = s.rime ∧ (countBeat
      s).stns = s.stns ∧ (countBeat s).net = s.net ∧ (countBeat s).sori = s.sori ∧ (countBeat s).models = s.models ∧ (countBeat s).serve =
      s.serve ∧ (countBeat s).jobs = s.jobs ∧ (countBeat s).out = s.out ∧ (countBeat s).fresh = s.fresh ∧ (countBeat s).pins = s.pins ∧
      (countBeat s).pending = s.pending ∧ (countBeat s).boot = s.boot ∧ (countBeat s).flash = s.flash ∧ (countBeat s).mem = s.mem := by
  unfold countBeat
  simp

@[simp] theorem lateStall_keeps (ctx : Nat) (tier : Nat) (s : State) :
    (lateStall ctx tier s).beat = s.beat ∧ (lateStall ctx tier s).pwr = s.pwr ∧ (lateStall ctx tier s).thm = s.thm ∧ (lateStall ctx tier
      s).hlth = s.hlth ∧ (lateStall ctx tier s).rime = s.rime ∧ (lateStall ctx tier s).stns = s.stns ∧ (lateStall ctx tier s).net = s.net ∧
      (lateStall ctx tier s).sori = s.sori ∧ (lateStall ctx tier s).models = s.models ∧ (lateStall ctx tier s).serve = s.serve ∧ (lateStall
      ctx tier s).fab = s.fab ∧ (lateStall ctx tier s).out = s.out ∧ (lateStall ctx tier s).pins = s.pins ∧ (lateStall ctx tier s).pending =
      s.pending ∧ (lateStall ctx tier s).boot = s.boot ∧ (lateStall ctx tier s).flash = s.flash ∧ (lateStall ctx tier s).mem = s.mem := by
  unfold lateStall
  simp

@[simp] theorem markCap_keeps (fresh : Bool) (floor : Nat) (s : State) :
    (markCap fresh floor s).beat = s.beat ∧ (markCap fresh floor s).thm = s.thm ∧ (markCap fresh floor s).hlth = s.hlth ∧ (markCap fresh
      floor s).stns = s.stns ∧ (markCap fresh floor s).net = s.net ∧ (markCap fresh floor s).sori = s.sori ∧ (markCap fresh floor s).models
      = s.models ∧ (markCap fresh floor s).serve = s.serve ∧ (markCap fresh floor s).jobs = s.jobs ∧ (markCap fresh floor s).fab = s.fab ∧
      (markCap fresh floor s).out = s.out ∧ (markCap fresh floor s).fresh = s.fresh ∧ (markCap fresh floor s).pins = s.pins ∧ (markCap fresh
      floor s).pending = s.pending ∧ (markCap fresh floor s).boot = s.boot ∧ (markCap fresh floor s).flash.counters = s.flash.counters ∧
      (markCap fresh floor s).flash.install = s.flash.install ∧ (markCap fresh floor s).flash.serial = s.flash.serial ∧ (markCap fresh floor
      s).mem = s.mem := by
  unfold markCap
  (repeat' split) <;> (try simp) <;> (repeat' split) <;> (try simp) <;> (repeat' split) <;> (try simp_all)

@[simp] theorem useCache_keeps (die : Nat) (run : Nat × Nat) (s : State) :
    (useCache die run s).beat = s.beat ∧ (useCache die run s).pwr = s.pwr ∧ (useCache die run s).thm = s.thm ∧ (useCache die run s).hlth =
      s.hlth ∧ (useCache die run s).rime = s.rime ∧ (useCache die run s).stns = s.stns ∧ (useCache die run s).net = s.net ∧ (useCache die
      run s).sori = s.sori ∧ (useCache die run s).models = s.models ∧ (useCache die run s).serve = s.serve ∧ (useCache die run s).jobs =
      s.jobs ∧ (useCache die run s).fab = s.fab ∧ (useCache die run s).out = s.out ∧ (useCache die run s).fresh = s.fresh ∧ (useCache die
      run s).pins = s.pins ∧ (useCache die run s).pending = s.pending ∧ (useCache die run s).boot = s.boot ∧ (useCache die run s).flash =
      s.flash ∧ (useCache die run s).mem.cells = s.mem.cells ∧ (useCache die run s).mem.undef = s.mem.undef := by
  unfold useCache
  (repeat' split) <;> simp

@[simp] theorem releasePages_keeps (s : State) :
    (releasePages s).beat = s.beat ∧ (releasePages s).pwr = s.pwr ∧ (releasePages s).thm = s.thm ∧ (releasePages s).hlth = s.hlth ∧
      (releasePages s).rime = s.rime ∧ (releasePages s).stns = s.stns ∧ (releasePages s).net = s.net ∧ (releasePages s).sori = s.sori ∧
      (releasePages s).jobs = s.jobs ∧ (releasePages s).fab = s.fab ∧ (releasePages s).out = s.out ∧ (releasePages s).fresh = s.fresh ∧
      (releasePages s).pins = s.pins ∧ (releasePages s).pending = s.pending ∧ (releasePages s).boot = s.boot ∧ (releasePages s).flash =
      s.flash ∧ (releasePages s).mem.cells = s.mem.cells ∧ (releasePages s).mem.undef = s.mem.undef := by
  unfold releasePages
  simp

@[simp] theorem recordHot_keeps (x : ExpertCount) (s : State) :
    (recordHot x s).beat = s.beat ∧ (recordHot x s).pwr = s.pwr ∧ (recordHot x s).thm = s.thm ∧ (recordHot x s).hlth = s.hlth ∧ (recordHot
      x s).stns = s.stns ∧ (recordHot x s).net = s.net ∧ (recordHot x s).sori = s.sori ∧ (recordHot x s).models = s.models ∧ (recordHot x
      s).jobs = s.jobs ∧ (recordHot x s).fab = s.fab ∧ (recordHot x s).out = s.out ∧ (recordHot x s).fresh = s.fresh ∧ (recordHot x s).pins
      = s.pins ∧ (recordHot x s).pending = s.pending ∧ (recordHot x s).boot = s.boot ∧ (recordHot x s).flash.counters = s.flash.counters ∧
      (recordHot x s).flash.install = s.flash.install ∧ (recordHot x s).flash.serial = s.flash.serial ∧ (recordHot x s).mem = s.mem := by
  unfold recordHot
  first
  | (simp; done)
  | ((repeat' split) <;> simp; done)
  | ((repeat' split) <;> (try simp) <;> (repeat' split) <;> (try simp) <;> (repeat' split) <;> (try simp_all); done)

@[simp] theorem retireCmd_keeps (c : Cmd) (s : State) :
    (retireCmd c s).beat = s.beat ∧ (retireCmd c s).pwr = s.pwr ∧ (retireCmd c s).thm = s.thm ∧ (retireCmd c s).hlth = s.hlth ∧ (retireCmd
      c s).stns = s.stns ∧ (retireCmd c s).sori = s.sori ∧ (retireCmd c s).fresh = s.fresh ∧ (retireCmd c s).pins = s.pins ∧ (retireCmd c
      s).pending = s.pending ∧ (retireCmd c s).boot = s.boot ∧ (retireCmd c s).flash.counters = s.flash.counters ∧ (retireCmd c
      s).flash.install = s.flash.install ∧ (retireCmd c s).flash.serial = s.flash.serial ∧ (retireCmd c s).mem.cells = s.mem.cells ∧
      (retireCmd c s).mem.undef = s.mem.undef := by
  unfold retireCmd
  (repeat' split) <;> simp

@[simp] theorem setUnit_keeps (u : HwUnit) (level : Nat) (status : Nat) (marked : Bool) (s : State) :
    (setUnit u level status marked s).beat = s.beat ∧ (setUnit u level status marked s).pwr = s.pwr ∧ (setUnit u level status marked
      s).thm = s.thm ∧ (setUnit u level status marked s).rime = s.rime ∧ (setUnit u level status marked s).net = s.net ∧ (setUnit u level
      status marked s).sori = s.sori ∧ (setUnit u level status marked s).models = s.models ∧ (setUnit u level status marked s).serve =
      s.serve ∧ (setUnit u level status marked s).jobs = s.jobs ∧ (setUnit u level status marked s).out = s.out ∧ (setUnit u level status
      marked s).fresh = s.fresh ∧ (setUnit u level status marked s).pins = s.pins ∧ (setUnit u level status marked s).pending = s.pending ∧
      (setUnit u level status marked s).boot = s.boot ∧ (setUnit u level status marked s).flash = s.flash ∧ (setUnit u level status marked
      s).mem.cells = s.mem.cells ∧ (setUnit u level status marked s).mem.undef = s.mem.undef := by
  unfold setUnit
  (repeat' split) <;> simp

@[simp] theorem beginAdapterReload_keeps (modelId : Nat) (slot : Nat) (version : Nat) (addr : Nat) (s : State) :
    (beginAdapterReload modelId slot version addr s).beat = s.beat ∧ (beginAdapterReload modelId slot version addr s).pwr = s.pwr ∧
      (beginAdapterReload modelId slot version addr s).thm = s.thm ∧ (beginAdapterReload modelId slot version addr s).hlth = s.hlth ∧
      (beginAdapterReload modelId slot version addr s).rime = s.rime ∧ (beginAdapterReload modelId slot version addr s).stns = s.stns ∧
      (beginAdapterReload modelId slot version addr s).net = s.net ∧ (beginAdapterReload modelId slot version addr s).sori = s.sori ∧
      (beginAdapterReload modelId slot version addr s).serve = s.serve ∧ (beginAdapterReload modelId slot version addr s).jobs = s.jobs ∧
      (beginAdapterReload modelId slot version addr s).fab = s.fab ∧ (beginAdapterReload modelId slot version addr s).out = s.out ∧
      (beginAdapterReload modelId slot version addr s).fresh = s.fresh ∧ (beginAdapterReload modelId slot version addr s).pins = s.pins ∧
      (beginAdapterReload modelId slot version addr s).pending = s.pending ∧ (beginAdapterReload modelId slot version addr s).boot = s.boot
      ∧ (beginAdapterReload modelId slot version addr s).flash = s.flash ∧ (beginAdapterReload modelId slot version addr s).mem.cells =
      s.mem.cells ∧ (beginAdapterReload modelId slot version addr s).mem.undef = s.mem.undef := by
  unfold beginAdapterReload
  (repeat' split) <;> simp

@[simp] theorem beginReload_keeps (modelId : Nat) (addr : Nat) (s : State) :
    (beginReload modelId addr s).beat = s.beat ∧ (beginReload modelId addr s).pwr = s.pwr ∧ (beginReload modelId addr s).thm = s.thm ∧
      (beginReload modelId addr s).hlth = s.hlth ∧ (beginReload modelId addr s).rime = s.rime ∧ (beginReload modelId addr s).stns = s.stns ∧
      (beginReload modelId addr s).net = s.net ∧ (beginReload modelId addr s).sori = s.sori ∧ (beginReload modelId addr s).serve = s.serve ∧
      (beginReload modelId addr s).jobs = s.jobs ∧ (beginReload modelId addr s).fab = s.fab ∧ (beginReload modelId addr s).out = s.out ∧
      (beginReload modelId addr s).fresh = s.fresh ∧ (beginReload modelId addr s).pins = s.pins ∧ (beginReload modelId addr s).pending =
      s.pending ∧ (beginReload modelId addr s).boot = s.boot ∧ (beginReload modelId addr s).flash = s.flash ∧ (beginReload modelId addr
      s).mem.cells = s.mem.cells ∧ (beginReload modelId addr s).mem.undef = s.mem.undef := by
  unfold beginReload
  (repeat' split) <;> simp

@[simp] theorem beginReloads_keeps (s : State) :
    (beginReloads s).beat = s.beat ∧ (beginReloads s).pwr = s.pwr ∧ (beginReloads s).thm = s.thm ∧ (beginReloads s).hlth = s.hlth ∧
      (beginReloads s).rime = s.rime ∧ (beginReloads s).stns = s.stns ∧ (beginReloads s).net = s.net ∧ (beginReloads s).sori = s.sori ∧
      (beginReloads s).serve = s.serve ∧ (beginReloads s).jobs = s.jobs ∧ (beginReloads s).fab = s.fab ∧ (beginReloads s).out = s.out ∧
      (beginReloads s).fresh = s.fresh ∧ (beginReloads s).pins = s.pins ∧ (beginReloads s).pending = s.pending ∧ (beginReloads s).boot =
      s.boot ∧ (beginReloads s).flash = s.flash ∧ (beginReloads s).mem.cells = s.mem.cells ∧ (beginReloads s).mem.undef = s.mem.undef := by
  unfold beginReloads
  simp

@[simp] theorem finishSnaps_keeps (s : State) :
    (finishSnaps s).beat = s.beat ∧ (finishSnaps s).pwr = s.pwr ∧ (finishSnaps s).thm = s.thm ∧ (finishSnaps s).hlth = s.hlth ∧
      (finishSnaps s).rime = s.rime ∧ (finishSnaps s).stns = s.stns ∧ (finishSnaps s).sori = s.sori ∧ (finishSnaps s).models = s.models ∧
      (finishSnaps s).serve = s.serve ∧ (finishSnaps s).jobs = s.jobs ∧ (finishSnaps s).fresh = s.fresh ∧ (finishSnaps s).pins = s.pins ∧
      (finishSnaps s).pending = s.pending ∧ (finishSnaps s).boot = s.boot ∧ (finishSnaps s).flash = s.flash ∧ (finishSnaps s).mem = s.mem :=
      by
  unfold finishSnaps
  simp

@[simp] theorem freeMoved_keeps (s : State) :
    (freeMoved s).beat = s.beat ∧ (freeMoved s).pwr = s.pwr ∧ (freeMoved s).thm = s.thm ∧ (freeMoved s).hlth = s.hlth ∧ (freeMoved s).rime
      = s.rime ∧ (freeMoved s).stns = s.stns ∧ (freeMoved s).net = s.net ∧ (freeMoved s).sori = s.sori ∧ (freeMoved s).models = s.models ∧
      (freeMoved s).serve = s.serve ∧ (freeMoved s).jobs = s.jobs ∧ (freeMoved s).fab = s.fab ∧ (freeMoved s).out = s.out ∧ (freeMoved
      s).fresh = s.fresh ∧ (freeMoved s).pins = s.pins ∧ (freeMoved s).pending = s.pending ∧ (freeMoved s).boot = s.boot ∧ (freeMoved
      s).flash = s.flash ∧ (freeMoved s).mem.cells = s.mem.cells ∧ (freeMoved s).mem.undef = s.mem.undef := by
  unfold freeMoved
  simp

@[simp] theorem takeUp_keeps (ans : Answer) (m : Manifest) (timeout : Nat) (source : Nat) (ps : List PlacedTensor) (s : State) (hA : ∀ st
    d r u, (ans st d r u).beat = u.beat ∧ (ans st d r u).pwr = u.pwr ∧ (ans st d r u).thm = u.thm ∧ (ans st d r u).hlth = u.hlth ∧ (ans st d r
    u).rime = u.rime ∧ (ans st d r u).stns = u.stns ∧ (ans st d r u).sori = u.sori ∧ (ans st d r u).serve = u.serve ∧ (ans st d r u).jobs =
    u.jobs ∧ (ans st d r u).fab = u.fab ∧ (ans st d r u).fresh = u.fresh ∧ (ans st d r u).pins = u.pins ∧ (ans st d r u).pending = u.pending ∧
    (ans st d r u).boot = u.boot ∧ (ans st d r u).flash = u.flash ∧ (ans st d r u).mem = u.mem) :
    (takeUp ans m timeout source ps s).beat = s.beat ∧ (takeUp ans m timeout source ps s).pwr = s.pwr ∧ (takeUp ans m timeout source ps
      s).thm = s.thm ∧ (takeUp ans m timeout source ps s).hlth = s.hlth ∧ (takeUp ans m timeout source ps s).rime = s.rime ∧ (takeUp ans m
      timeout source ps s).stns = s.stns ∧ (takeUp ans m timeout source ps s).sori = s.sori ∧ (takeUp ans m timeout source ps s).serve =
      s.serve ∧ (takeUp ans m timeout source ps s).jobs = s.jobs ∧ (takeUp ans m timeout source ps s).fab = s.fab ∧ (takeUp ans m timeout
      source ps s).fresh = s.fresh ∧ (takeUp ans m timeout source ps s).pins = s.pins ∧ (takeUp ans m timeout source ps s).pending =
      s.pending ∧ (takeUp ans m timeout source ps s).boot = s.boot ∧ (takeUp ans m timeout source ps s).flash = s.flash ∧ (takeUp ans m
      timeout source ps s).mem = s.mem := by
  unfold takeUp
  simp [hA]

@[simp] theorem retryDemand_keeps (d : Demand) (s : State) :
    (retryDemand d s).beat = s.beat ∧ (retryDemand d s).pwr = s.pwr ∧ (retryDemand d s).thm = s.thm ∧ (retryDemand d s).hlth = s.hlth ∧
      (retryDemand d s).rime = s.rime ∧ (retryDemand d s).stns = s.stns ∧ (retryDemand d s).sori = s.sori ∧ (retryDemand d s).jobs = s.jobs
      ∧ (retryDemand d s).fab = s.fab ∧ (retryDemand d s).pins = s.pins ∧ (retryDemand d s).pending = s.pending ∧ (retryDemand d s).boot =
      s.boot ∧ (retryDemand d s).flash = s.flash := by
  unfold retryDemand
  (repeat' split) <;> (try simp) <;> (repeat' split) <;> (try simp) <;> (repeat' split) <;> (try simp)
  all_goals (rename_i h; have h1 := (placeAll_keeps _ _ _ _).1 _ _ h; simp_all)

@[simp] theorem retryDemands_keeps (s : State) :
    (retryDemands s).beat = s.beat ∧ (retryDemands s).pwr = s.pwr ∧ (retryDemands s).thm = s.thm ∧ (retryDemands s).hlth = s.hlth ∧
      (retryDemands s).rime = s.rime ∧ (retryDemands s).stns = s.stns ∧ (retryDemands s).sori = s.sori ∧ (retryDemands s).jobs = s.jobs ∧
      (retryDemands s).fab = s.fab ∧ (retryDemands s).pins = s.pins ∧ (retryDemands s).pending = s.pending ∧ (retryDemands s).boot = s.boot
      ∧ (retryDemands s).flash = s.flash := by
  unfold retryDemands
  simp

@[simp] theorem afterPhases_keeps (s : State) :
    (afterPhases s).beat = s.beat ∧ (afterPhases s).pwr = s.pwr ∧ (afterPhases s).thm = s.thm ∧ (afterPhases s).hlth = s.hlth ∧
      (afterPhases s).rime = s.rime ∧ (afterPhases s).stns = s.stns ∧ (afterPhases s).sori = s.sori ∧ (afterPhases s).jobs = s.jobs ∧
      (afterPhases s).pins = s.pins ∧ (afterPhases s).pending = s.pending ∧ (afterPhases s).boot = s.boot ∧ (afterPhases s).flash = s.flash := by
  unfold afterPhases
  simp

@[simp] theorem acceptResult_keeps (r : XRow) (s : State) :
    (acceptResult r s).beat = s.beat ∧ (acceptResult r s).thm = s.thm ∧ (acceptResult r s).hlth = s.hlth ∧ (acceptResult r s).sori =
      s.sori ∧ (acceptResult r s).fresh = s.fresh ∧ (acceptResult r s).pins = s.pins ∧ (acceptResult r s).pending = s.pending ∧
      (acceptResult r s).boot = s.boot ∧ (acceptResult r s).flash.counters = s.flash.counters ∧ (acceptResult r s).flash.install =
      s.flash.install ∧ (acceptResult r s).flash.serial = s.flash.serial ∧ (acceptResult r s).mem.undef = s.mem.undef := by
  unfold acceptResult
  (repeat' split) <;> grind [progress_keeps, storeRow_keeps, discardRow_keeps, contextFaultAt_keeps, contextFault_keeps]

@[simp] theorem thermalHit_keeps (s : State) :
    (thermalHit s).beat = s.beat ∧ (thermalHit s).pwr = s.pwr ∧ (thermalHit s).hlth = s.hlth ∧ (thermalHit s).rime = s.rime ∧ (thermalHit
      s).stns = s.stns ∧ (thermalHit s).net = s.net ∧ (thermalHit s).sori = s.sori ∧ (thermalHit s).models = s.models ∧ (thermalHit s).serve
      = s.serve ∧ (thermalHit s).jobs = s.jobs ∧ (thermalHit s).fab = s.fab ∧ (thermalHit s).out = s.out ∧ (thermalHit s).fresh = s.fresh ∧
      (thermalHit s).pins = s.pins ∧ (thermalHit s).pending = s.pending ∧ (thermalHit s).boot = s.boot ∧ (thermalHit s).flash = s.flash ∧
      (thermalHit s).mem = s.mem := by
  unfold thermalHit
  simp

theorem extendPages_keeps (rid : Nat) (slots : Nat) (s : State) :
    ∀ t, extendPages rid slots s = some t → t.beat = s.beat ∧ t.pwr = s.pwr ∧ t.thm = s.thm ∧ t.hlth = s.hlth ∧ t.rime = s.rime ∧ t.stns =
      s.stns ∧ t.net = s.net ∧ t.sori = s.sori ∧ t.jobs = s.jobs ∧ t.fab = s.fab ∧ t.out = s.out ∧ t.fresh = s.fresh ∧ t.pins = s.pins ∧
      t.pending = s.pending ∧ t.boot = s.boot ∧ t.flash = s.flash ∧ t.mem.undef = s.mem.undef := by
  unfold extendPages
  split
  · simp
  · rename_i h; have h1 := unshare_keeps _ _ _ h
    split
    · simp
    · split
      · simp
      · rename_i h; have h2 := takeSets_keeps _ _ _ _ h; intro t ht; simp at ht; subst ht; simp_all

@[simp] theorem takeFrom_keeps (id : Nat) (word : Nat) (n : Nat) (s : State) :
    (takeFrom id word n s).beat = s.beat ∧ (takeFrom id word n s).pwr = s.pwr ∧ (takeFrom id word n s).thm = s.thm ∧ (takeFrom id word n
      s).hlth = s.hlth ∧ (takeFrom id word n s).rime = s.rime ∧ (takeFrom id word n s).stns = s.stns ∧ (takeFrom id word n s).net = s.net ∧
      (takeFrom id word n s).sori = s.sori ∧ (takeFrom id word n s).models = s.models ∧ (takeFrom id word n s).serve = s.serve ∧ (takeFrom
      id word n s).fab = s.fab ∧ (takeFrom id word n s).out = s.out ∧ (takeFrom id word n s).fresh = s.fresh ∧ (takeFrom id word n s).pins =
      s.pins ∧ (takeFrom id word n s).pending = s.pending ∧ (takeFrom id word n s).boot = s.boot ∧ (takeFrom id word n s).flash = s.flash ∧
      (takeFrom id word n s).mem = s.mem := by
  unfold takeFrom
  (repeat' split) <;> simp

@[simp] theorem applyResets_keeps (s : State) :
    (applyResets s).beat = s.beat ∧ (applyResets s).pwr = s.pwr ∧ (applyResets s).thm = s.thm ∧ (applyResets s).hlth = s.hlth ∧
      (applyResets s).rime = s.rime ∧ (applyResets s).stns = s.stns ∧ (applyResets s).sori = s.sori ∧ (applyResets s).models = s.models ∧
      (applyResets s).serve = s.serve ∧ (applyResets s).fresh = s.fresh ∧ (applyResets s).pins = s.pins ∧ (applyResets s).pending =
      s.pending ∧ (applyResets s).boot = s.boot ∧ (applyResets s).flash = s.flash ∧ (applyResets s).mem = s.mem := by
  unfold applyResets
  simp

@[simp] theorem sendToken_keeps (c : Cmd) (r : Req) (slot : Nat) (eflags : Nat) (t : Drawn) (s : State) :
    (sendToken c r slot eflags t s).beat = s.beat ∧ (sendToken c r slot eflags t s).pwr = s.pwr ∧ (sendToken c r slot eflags t s).thm =
      s.thm ∧ (sendToken c r slot eflags t s).hlth = s.hlth ∧ (sendToken c r slot eflags t s).rime = s.rime ∧ (sendToken c r slot eflags t
      s).stns = s.stns ∧ (sendToken c r slot eflags t s).sori = s.sori ∧ (sendToken c r slot eflags t s).models = s.models ∧ (sendToken c r
      slot eflags t s).jobs = s.jobs ∧ (sendToken c r slot eflags t s).fab = s.fab ∧ (sendToken c r slot eflags t s).fresh = s.fresh ∧
      (sendToken c r slot eflags t s).pins = s.pins ∧ (sendToken c r slot eflags t s).pending = s.pending ∧ (sendToken c r slot eflags t
      s).boot = s.boot ∧ (sendToken c r slot eflags t s).flash = s.flash ∧ (sendToken c r slot eflags t s).mem = s.mem := by
  unfold sendToken
  simp

@[simp] theorem deliverTokens_keeps (c : Cmd) (limit : Nat) (rid : Nat) (x1 : List Drawn) (x2 : State) :
    (deliverTokens c limit rid x1 x2).beat = x2.beat ∧ (deliverTokens c limit rid x1 x2).pwr = x2.pwr ∧ (deliverTokens c limit rid x1
      x2).thm = x2.thm ∧ (deliverTokens c limit rid x1 x2).hlth = x2.hlth ∧ (deliverTokens c limit rid x1 x2).rime = x2.rime ∧
      (deliverTokens c limit rid x1 x2).stns = x2.stns ∧ (deliverTokens c limit rid x1 x2).sori = x2.sori ∧ (deliverTokens c limit rid x1
      x2).fab = x2.fab ∧ (deliverTokens c limit rid x1 x2).fresh = x2.fresh ∧ (deliverTokens c limit rid x1 x2).pins = x2.pins ∧
      (deliverTokens c limit rid x1 x2).pending = x2.pending ∧ (deliverTokens c limit rid x1 x2).boot = x2.boot ∧ (deliverTokens c limit rid
      x1 x2).flash = x2.flash ∧ (deliverTokens c limit rid x1 x2).mem.cells = x2.mem.cells ∧ (deliverTokens c limit rid x1 x2).mem.undef =
      x2.mem.undef := by
  induction x1 generalizing x2 with
  | nil => simp [deliverTokens]
  | cons t ts ih =>
    unfold deliverTokens
    split
    · simp
    · dsimp only; split <;> simp [ih]

@[simp] theorem commitDecode_keeps (c : Cmd) (k : Nat) (limit : Nat) (i : PlanItem) (row : Nat → RowOut) (r : Req) (s : State) :
    (commitDecode c k limit i row r s).beat = s.beat ∧ (commitDecode c k limit i row r s).pwr = s.pwr ∧ (commitDecode c k limit i row r
      s).thm = s.thm ∧ (commitDecode c k limit i row r s).hlth = s.hlth ∧ (commitDecode c k limit i row r s).rime = s.rime ∧ (commitDecode c
      k limit i row r s).stns = s.stns ∧ (commitDecode c k limit i row r s).sori = s.sori ∧ (commitDecode c k limit i row r s).fab = s.fab ∧
      (commitDecode c k limit i row r s).fresh = s.fresh ∧ (commitDecode c k limit i row r s).pins = s.pins ∧ (commitDecode c k limit i row
      r s).pending = s.pending ∧ (commitDecode c k limit i row r s).boot = s.boot ∧ (commitDecode c k limit i row r s).flash = s.flash ∧
      (commitDecode c k limit i row r s).mem.cells = s.mem.cells ∧ (commitDecode c k limit i row r s).mem.undef = s.mem.undef := by
  unfold commitDecode
  first
  | (simp; done)
  | ((repeat' split) <;> simp; done)
  | ((repeat' split) <;> (try simp) <;> (repeat' split) <;> (try simp) <;> (repeat' split) <;> (try simp_all); done)

@[simp] theorem deliverScores_keeps (c : Cmd) (k : Nat) (row : Nat → RowOut) (r : Req) (s : State) :
    (deliverScores c k row r s).beat = s.beat ∧ (deliverScores c k row r s).pwr = s.pwr ∧ (deliverScores c k row r s).thm = s.thm ∧
      (deliverScores c k row r s).hlth = s.hlth ∧ (deliverScores c k row r s).rime = s.rime ∧ (deliverScores c k row r s).stns = s.stns ∧
      (deliverScores c k row r s).sori = s.sori ∧ (deliverScores c k row r s).models = s.models ∧ (deliverScores c k row r s).jobs = s.jobs
      ∧ (deliverScores c k row r s).fab = s.fab ∧ (deliverScores c k row r s).fresh = s.fresh ∧ (deliverScores c k row r s).pins = s.pins ∧
      (deliverScores c k row r s).pending = s.pending ∧ (deliverScores c k row r s).boot = s.boot ∧ (deliverScores c k row r s).flash =
      s.flash ∧ (deliverScores c k row r s).mem = s.mem := by
  unfold deliverScores
  first
  | (simp; done)
  | ((repeat' split) <;> simp; done)
  | ((repeat' split) <;> (try simp) <;> (repeat' split) <;> (try simp) <;> (repeat' split) <;> (try simp_all); done)

@[simp] theorem commitPrompt_keeps (c : Cmd) (k : Nat) (limit : Nat) (row : Nat → RowOut) (r : Req) (s : State) :
    (commitPrompt c k limit row r s).beat = s.beat ∧ (commitPrompt c k limit row r s).pwr = s.pwr ∧ (commitPrompt c k limit row r s).thm =
      s.thm ∧ (commitPrompt c k limit row r s).hlth = s.hlth ∧ (commitPrompt c k limit row r s).rime = s.rime ∧ (commitPrompt c k limit row
      r s).stns = s.stns ∧ (commitPrompt c k limit row r s).sori = s.sori ∧ (commitPrompt c k limit row r s).fab = s.fab ∧ (commitPrompt c k
      limit row r s).fresh = s.fresh ∧ (commitPrompt c k limit row r s).pins = s.pins ∧ (commitPrompt c k limit row r s).pending = s.pending
      ∧ (commitPrompt c k limit row r s).boot = s.boot ∧ (commitPrompt c k limit row r s).flash = s.flash ∧ (commitPrompt c k limit row r
      s).mem.cells = s.mem.cells ∧ (commitPrompt c k limit row r s).mem.undef = s.mem.undef := by
  unfold commitPrompt
  first
  | (simp; done)
  | ((repeat' split) <;> simp; done)
  | ((repeat' split) <;> (try simp) <;> (repeat' split) <;> (try simp) <;> (repeat' split) <;> (try simp_all); done)

@[simp] theorem sampledRows_keeps (c : Cmd) (outs : List StepOut) (k : Nat) (r : Req) (s : State) :
    (sampledRows c outs k r s).2.beat = s.beat ∧ (sampledRows c outs k r s).2.pwr = s.pwr ∧ (sampledRows c outs k r s).2.thm = s.thm ∧
      (sampledRows c outs k r s).2.hlth = s.hlth ∧ (sampledRows c outs k r s).2.rime = s.rime ∧ (sampledRows c outs k r s).2.stns = s.stns ∧
      (sampledRows c outs k r s).2.net = s.net ∧ (sampledRows c outs k r s).2.sori = s.sori ∧ (sampledRows c outs k r s).2.models = s.models
      ∧ (sampledRows c outs k r s).2.serve = s.serve ∧ (sampledRows c outs k r s).2.jobs = s.jobs ∧ (sampledRows c outs k r s).2.fab = s.fab
      ∧ (sampledRows c outs k r s).2.out = s.out ∧ (sampledRows c outs k r s).2.pins = s.pins ∧ (sampledRows c outs k r s).2.pending =
      s.pending ∧ (sampledRows c outs k r s).2.boot = s.boot ∧ (sampledRows c outs k r s).2.flash = s.flash ∧ (sampledRows c outs k r
      s).2.mem = s.mem := by
  unfold sampledRows draw
  dsimp only
  (repeat' split) <;> (try split) <;> simp

@[simp] theorem commitItem_keeps (c : Cmd) (outs : List StepOut) (i : PlanItem) (s : State) :
    (commitItem c outs i s).beat = s.beat ∧ (commitItem c outs i s).pwr = s.pwr ∧ (commitItem c outs i s).thm = s.thm ∧ (commitItem c outs
      i s).hlth = s.hlth ∧ (commitItem c outs i s).rime = s.rime ∧ (commitItem c outs i s).stns = s.stns ∧ (commitItem c outs i s).sori =
      s.sori ∧ (commitItem c outs i s).fab = s.fab ∧ (commitItem c outs i s).pins = s.pins ∧ (commitItem c outs i s).pending = s.pending ∧
      (commitItem c outs i s).boot = s.boot ∧ (commitItem c outs i s).flash = s.flash ∧ (commitItem c outs i s).mem.cells = s.mem.cells ∧
      (commitItem c outs i s).mem.undef = s.mem.undef := by
  unfold commitItem
  (repeat' split) <;> grind [setReq_keeps, sampledRows_keeps, commitDecode_keeps, commitPrompt_keeps]

@[simp] theorem pauseMoveFails_keeps (s : State) :
    (pauseMoveFails s).beat = s.beat ∧ (pauseMoveFails s).pwr = s.pwr ∧ (pauseMoveFails s).thm = s.thm ∧ (pauseMoveFails s).hlth = s.hlth
      ∧ (pauseMoveFails s).rime = s.rime ∧ (pauseMoveFails s).stns = s.stns ∧ (pauseMoveFails s).net = s.net ∧ (pauseMoveFails s).sori =
      s.sori ∧ (pauseMoveFails s).models = s.models ∧ (pauseMoveFails s).serve = s.serve ∧ (pauseMoveFails s).jobs = s.jobs ∧
      (pauseMoveFails s).fab = s.fab ∧ (pauseMoveFails s).out = s.out ∧ (pauseMoveFails s).fresh = s.fresh ∧ (pauseMoveFails s).pins =
      s.pins ∧ (pauseMoveFails s).pending = s.pending ∧ (pauseMoveFails s).boot = s.boot ∧ (pauseMoveFails s).flash = s.flash ∧
      (pauseMoveFails s).mem.cells = s.mem.cells ∧ (pauseMoveFails s).mem.undef = s.mem.undef := by
  unfold pauseMoveFails
  first
  | (simp; done)
  | ((repeat' split) <;> simp; done)
  | ((repeat' split) <;> (try simp) <;> (repeat' split) <;> (try simp) <;> (repeat' split) <;> (try simp_all); done)

@[simp] theorem startPauseMove_keeps (rid : Nat) (s : State) :
    (startPauseMove rid s).beat = s.beat ∧ (startPauseMove rid s).pwr = s.pwr ∧ (startPauseMove rid s).thm = s.thm ∧ (startPauseMove rid
      s).hlth = s.hlth ∧ (startPauseMove rid s).rime = s.rime ∧ (startPauseMove rid s).stns = s.stns ∧ (startPauseMove rid s).net = s.net ∧
      (startPauseMove rid s).sori = s.sori ∧ (startPauseMove rid s).jobs = s.jobs ∧ (startPauseMove rid s).fab = s.fab ∧ (startPauseMove rid
      s).out = s.out ∧ (startPauseMove rid s).pins = s.pins ∧ (startPauseMove rid s).pending = s.pending ∧ (startPauseMove rid s).boot =
      s.boot ∧ (startPauseMove rid s).flash = s.flash ∧ (startPauseMove rid s).mem.undef =
      s.mem.undef := by
  unfold startPauseMove
  split
  · simp
  · dsimp only; split
    · simp
    · split
      · rename_i h; have h1 := (demandRoom_keeps _ _ _ _).1 _ _ h; simp_all
      · rename_i h; have h1 := (demandRoom_keeps _ _ _ _).2 _ h; simp_all [waitFor]
      · simp

@[simp] theorem becomePaused_keeps (rid : Nat) (s : State) :
    (becomePaused rid s).beat = s.beat ∧ (becomePaused rid s).pwr = s.pwr ∧ (becomePaused rid s).thm = s.thm ∧ (becomePaused rid s).hlth =
      s.hlth ∧ (becomePaused rid s).rime = s.rime ∧ (becomePaused rid s).stns = s.stns ∧ (becomePaused rid s).net = s.net ∧ (becomePaused
      rid s).sori = s.sori ∧ (becomePaused rid s).jobs = s.jobs ∧ (becomePaused rid s).fab = s.fab ∧ (becomePaused rid s).out = s.out ∧
      (becomePaused rid s).pins = s.pins ∧ (becomePaused rid s).pending = s.pending ∧ (becomePaused rid s).boot = s.boot ∧ (becomePaused rid
      s).flash = s.flash ∧ (becomePaused rid s).mem.undef = s.mem.undef := by
  unfold becomePaused
  simp

@[simp] theorem settlePauses_keeps (s : State) :
    (settlePauses s).beat = s.beat ∧ (settlePauses s).pwr = s.pwr ∧ (settlePauses s).thm = s.thm ∧ (settlePauses s).hlth = s.hlth ∧
      (settlePauses s).rime = s.rime ∧ (settlePauses s).stns = s.stns ∧ (settlePauses s).net = s.net ∧ (settlePauses s).sori = s.sori ∧
      (settlePauses s).jobs = s.jobs ∧ (settlePauses s).fab = s.fab ∧ (settlePauses s).out = s.out ∧ (settlePauses s).pins = s.pins ∧
      (settlePauses s).pending = s.pending ∧ (settlePauses s).boot = s.boot ∧ (settlePauses s).flash = s.flash ∧ (settlePauses s).mem.undef
      = s.mem.undef := by
  unfold settlePauses
  simp

@[simp] theorem commitServing_keeps (c : Cmd) (outs : List StepOut) (s : State) :
    (commitServing c outs s).beat = s.beat ∧ (commitServing c outs s).pwr = s.pwr ∧ (commitServing c outs s).thm = s.thm ∧ (commitServing
      c outs s).hlth = s.hlth ∧ (commitServing c outs s).rime = s.rime ∧ (commitServing c outs s).stns = s.stns ∧ (commitServing c outs
      s).sori = s.sori ∧ (commitServing c outs s).fab = s.fab ∧ (commitServing c outs s).pins = s.pins ∧ (commitServing c outs s).pending =
      s.pending ∧ (commitServing c outs s).boot = s.boot ∧ (commitServing c outs s).flash = s.flash ∧ (commitServing c outs s).mem.undef =
      s.mem.undef := by
  unfold commitServing
  simp

@[simp] theorem commitStep_keeps (c : Cmd) (outs : List StepOut) (s : State) :
    (commitStep c outs s).beat = s.beat ∧ (commitStep c outs s).pwr = s.pwr ∧ (commitStep c outs s).thm = s.thm ∧ (commitStep c outs
      s).hlth = s.hlth ∧ (commitStep c outs s).rime = s.rime ∧ (commitStep c outs s).stns = s.stns ∧ (commitStep c outs s).sori = s.sori ∧
      (commitStep c outs s).fab = s.fab ∧ (commitStep c outs s).pins = s.pins ∧ (commitStep c outs s).pending = s.pending ∧ (commitStep c
      outs s).boot = s.boot ∧ (commitStep c outs s).flash = s.flash ∧ (commitStep c outs s).mem.undef = s.mem.undef := by
  unfold commitStep
  (repeat' split) <;> simp

@[simp] theorem phase2_keeps (outs : List (Nat × List StepOut)) (s : State) :
    (phase2 outs s).beat = s.beat ∧ (phase2 outs s).pwr = s.pwr ∧ (phase2 outs s).thm = s.thm ∧ (phase2 outs s).hlth = s.hlth ∧ (phase2
      outs s).rime = s.rime ∧ (phase2 outs s).stns = s.stns ∧ (phase2 outs s).sori = s.sori ∧ (phase2 outs s).fab = s.fab ∧ (phase2 outs
      s).pins = s.pins ∧ (phase2 outs s).pending = s.pending ∧ (phase2 outs s).boot = s.boot ∧ (phase2 outs s).flash = s.flash ∧ (phase2
      outs s).mem.undef = s.mem.undef := by
  unfold phase2
  simp

@[simp] theorem cancelNow_keeps (ans : Answer) (rid : Nat) (s : State) (hA : ∀ st d r u, (ans st d r u).beat = u.beat ∧ (ans st d r u).pwr
    = u.pwr ∧ (ans st d r u).thm = u.thm ∧ (ans st d r u).hlth = u.hlth ∧ (ans st d r u).rime = u.rime ∧ (ans st d r u).stns = u.stns ∧ (ans
    st d r u).sori = u.sori ∧ (ans st d r u).fab = u.fab ∧ (ans st d r u).fresh = u.fresh ∧ (ans st d r u).pins = u.pins ∧ (ans st d r
    u).pending = u.pending ∧ (ans st d r u).boot = u.boot ∧ (ans st d r u).flash = u.flash ∧ (ans st d r u).mem.cells = u.mem.cells ∧ (ans st
    d r u).mem.undef = u.mem.undef) :
    (cancelNow ans rid s).beat = s.beat ∧ (cancelNow ans rid s).pwr = s.pwr ∧ (cancelNow ans rid s).thm = s.thm ∧ (cancelNow ans rid
      s).hlth = s.hlth ∧ (cancelNow ans rid s).rime = s.rime ∧ (cancelNow ans rid s).stns = s.stns ∧ (cancelNow ans rid s).sori = s.sori ∧
      (cancelNow ans rid s).fab = s.fab ∧ (cancelNow ans rid s).fresh = s.fresh ∧ (cancelNow ans rid s).pins = s.pins ∧ (cancelNow ans rid
      s).pending = s.pending ∧ (cancelNow ans rid s).boot = s.boot ∧ (cancelNow ans rid s).flash = s.flash ∧ (cancelNow ans rid s).mem.cells
      = s.mem.cells ∧ (cancelNow ans rid s).mem.undef = s.mem.undef := by
  unfold cancelNow
  (repeat' split) <;> simp [hA]

@[simp] theorem leavePlans_keeps (rid : Nat) (s : State) :
    (leavePlans rid s).beat = s.beat ∧ (leavePlans rid s).pwr = s.pwr ∧ (leavePlans rid s).thm = s.thm ∧ (leavePlans rid s).hlth = s.hlth
      ∧ (leavePlans rid s).rime = s.rime ∧ (leavePlans rid s).stns = s.stns ∧ (leavePlans rid s).net = s.net ∧ (leavePlans rid s).sori =
      s.sori ∧ (leavePlans rid s).models = s.models ∧ (leavePlans rid s).serve = s.serve ∧ (leavePlans rid s).fab = s.fab ∧ (leavePlans rid
      s).out = s.out ∧ (leavePlans rid s).fresh = s.fresh ∧ (leavePlans rid s).pins = s.pins ∧ (leavePlans rid s).pending = s.pending ∧
      (leavePlans rid s).boot = s.boot ∧ (leavePlans rid s).flash = s.flash ∧ (leavePlans rid s).mem = s.mem := by
  unfold leavePlans
  simp

@[simp] theorem pauseNow_keeps (ans : Answer) (rid : Nat) (s : State) (hA : ∀ st d r u, (ans st d r u).beat = u.beat ∧ (ans st d r u).pwr
    = u.pwr ∧ (ans st d r u).thm = u.thm ∧ (ans st d r u).hlth = u.hlth ∧ (ans st d r u).rime = u.rime ∧ (ans st d r u).stns = u.stns ∧ (ans
    st d r u).sori = u.sori ∧ (ans st d r u).fab = u.fab ∧ (ans st d r u).fresh = u.fresh ∧ (ans st d r u).pins = u.pins ∧ (ans st d r
    u).pending = u.pending ∧ (ans st d r u).boot = u.boot ∧ (ans st d r u).flash = u.flash ∧ (ans st d r u).mem.undef = u.mem.undef) :
    (pauseNow ans rid s).beat = s.beat ∧ (pauseNow ans rid s).pwr = s.pwr ∧ (pauseNow ans rid s).thm = s.thm ∧ (pauseNow ans rid s).hlth =
      s.hlth ∧ (pauseNow ans rid s).rime = s.rime ∧ (pauseNow ans rid s).stns = s.stns ∧ (pauseNow ans rid s).sori = s.sori ∧ (pauseNow ans
      rid s).fab = s.fab ∧ (pauseNow ans rid s).pins = s.pins ∧ (pauseNow ans rid s).pending = s.pending ∧ (pauseNow ans rid s).boot =
      s.boot ∧ (pauseNow ans rid s).flash = s.flash ∧ (pauseNow ans rid s).mem.undef = s.mem.undef := by
  unfold pauseNow
  (repeat' split) <;> simp [hA]

@[simp] theorem resumeNow_keeps (ans : Answer) (rid : Nat) (s : State) (hA : ∀ st d r u, (ans st d r u).beat = u.beat ∧ (ans st d r u).pwr
    = u.pwr ∧ (ans st d r u).thm = u.thm ∧ (ans st d r u).hlth = u.hlth ∧ (ans st d r u).rime = u.rime ∧ (ans st d r u).stns = u.stns ∧ (ans
    st d r u).sori = u.sori ∧ (ans st d r u).jobs = u.jobs ∧ (ans st d r u).fab = u.fab ∧ (ans st d r u).fresh = u.fresh ∧ (ans st d r u).pins
    = u.pins ∧ (ans st d r u).pending = u.pending ∧ (ans st d r u).boot = u.boot ∧ (ans st d r u).flash = u.flash ∧ (ans st d r u).mem.cells =
    u.mem.cells ∧ (ans st d r u).mem.undef = u.mem.undef) :
    (resumeNow ans rid s).beat = s.beat ∧ (resumeNow ans rid s).pwr = s.pwr ∧ (resumeNow ans rid s).thm = s.thm ∧ (resumeNow ans rid
      s).hlth = s.hlth ∧ (resumeNow ans rid s).rime = s.rime ∧ (resumeNow ans rid s).stns = s.stns ∧ (resumeNow ans rid s).sori = s.sori ∧
      (resumeNow ans rid s).jobs = s.jobs ∧ (resumeNow ans rid s).fab = s.fab ∧ (resumeNow ans rid s).fresh = s.fresh ∧ (resumeNow ans rid
      s).pins = s.pins ∧ (resumeNow ans rid s).pending = s.pending ∧ (resumeNow ans rid s).boot = s.boot ∧ (resumeNow ans rid s).flash =
      s.flash ∧ (resumeNow ans rid s).mem.cells = s.mem.cells ∧ (resumeNow ans rid s).mem.undef = s.mem.undef := by
  unfold resumeNow
  split
  · simp [hA]
  · dsimp only; split
    · simp [hA]
    · split
      · simp [hA]
      · split
        · simp [hA]
        · split
          · simp [hA]
          · rename_i h; have h1 := takeSets_keeps _ _ _ _ h; simp_all

@[simp] theorem submitNow_keeps (ans : Answer) (sid : Nat) (tag : Nat) (principal : Nat) (p : SubmitP) (s : State) (hA : ∀ st d r u, (ans
    st d r u).beat = u.beat ∧ (ans st d r u).pwr = u.pwr ∧ (ans st d r u).thm = u.thm ∧ (ans st d r u).hlth = u.hlth ∧ (ans st d r u).rime =
    u.rime ∧ (ans st d r u).stns = u.stns ∧ (ans st d r u).sori = u.sori ∧ (ans st d r u).models = u.models ∧ (ans st d r u).fab = u.fab ∧
    (ans st d r u).pins = u.pins ∧ (ans st d r u).pending = u.pending ∧ (ans st d r u).boot = u.boot ∧ (ans st d r u).flash = u.flash ∧ (ans
    st d r u).mem = u.mem) :
    (submitNow ans sid tag principal p s).beat = s.beat ∧ (submitNow ans sid tag principal p s).pwr = s.pwr ∧ (submitNow ans sid tag
      principal p s).thm = s.thm ∧ (submitNow ans sid tag principal p s).hlth = s.hlth ∧ (submitNow ans sid tag principal p s).rime = s.rime
      ∧ (submitNow ans sid tag principal p s).stns = s.stns ∧ (submitNow ans sid tag principal p s).sori = s.sori ∧ (submitNow ans sid tag
      principal p s).models = s.models ∧ (submitNow ans sid tag principal p s).fab = s.fab ∧ (submitNow ans sid tag principal p s).pins =
      s.pins ∧ (submitNow ans sid tag principal p s).pending = s.pending ∧ (submitNow ans sid tag principal p s).boot = s.boot ∧ (submitNow
      ans sid tag principal p s).flash = s.flash ∧ (submitNow ans sid tag principal p s).mem = s.mem := by
  unfold submitNow draw
  split
  · simp [hA]
  · cases h : subSeedGiven p <;> simp [hA]

@[simp] theorem queryNow_any {β : Type} (P : State → β) (ans : Answer) (rid : Nat) (s : State) (hA : ∀ st d r u, P (ans st d r u) = P u) :
    P (queryNow ans rid s) = P s := by
  unfold queryNow
  split <;> simp [hA]

@[simp] theorem act_keeps (a : Instr) (s : State) :
    (act a s).beat = s.beat ∧ (act a s).pwr = s.pwr ∧ (act a s).thm = s.thm ∧ (act a s).hlth = s.hlth ∧ (act a s).rime = s.rime ∧ (act a
      s).stns = s.stns ∧ (act a s).sori = s.sori ∧ (act a s).fab = s.fab ∧ (act a s).pins = s.pins ∧ (act a s).pending = s.pending ∧ (act a
      s).boot = s.boot ∧ (act a s).flash = s.flash ∧ (act a s).mem.undef = s.mem.undef := by
  unfold act
  (repeat' split) <;> simp

@[simp] theorem enterResumed_keeps (r : Req) (s : State) :
    (enterResumed r s).beat = s.beat ∧ (enterResumed r s).pwr = s.pwr ∧ (enterResumed r s).thm = s.thm ∧ (enterResumed r s).hlth = s.hlth
      ∧ (enterResumed r s).rime = s.rime ∧ (enterResumed r s).stns = s.stns ∧ (enterResumed r s).net = s.net ∧ (enterResumed r s).sori =
      s.sori ∧ (enterResumed r s).models = s.models ∧ (enterResumed r s).jobs = s.jobs ∧ (enterResumed r s).fab = s.fab ∧ (enterResumed r
      s).out = s.out ∧ (enterResumed r s).fresh = s.fresh ∧ (enterResumed r s).pins = s.pins ∧ (enterResumed r s).pending = s.pending ∧
      (enterResumed r s).boot = s.boot ∧ (enterResumed r s).flash = s.flash ∧ (enterResumed r s).mem = s.mem := by
  unfold enterResumed
  (repeat' split) <;> simp

@[simp] theorem expire_keeps (rid : Nat) (s : State) :
    (expire rid s).beat = s.beat ∧ (expire rid s).pwr = s.pwr ∧ (expire rid s).thm = s.thm ∧ (expire rid s).hlth = s.hlth ∧ (expire rid
      s).rime = s.rime ∧ (expire rid s).stns = s.stns ∧ (expire rid s).sori = s.sori ∧ (expire rid s).fab = s.fab ∧ (expire rid s).fresh =
      s.fresh ∧ (expire rid s).pins = s.pins ∧ (expire rid s).pending = s.pending ∧ (expire rid s).boot = s.boot ∧ (expire rid s).flash =
      s.flash ∧ (expire rid s).mem.cells = s.mem.cells ∧ (expire rid s).mem.undef = s.mem.undef := by
  unfold expire
  simp

@[simp] theorem lapse_keeps (rid : Nat) (s : State) :
    (lapse rid s).beat = s.beat ∧ (lapse rid s).pwr = s.pwr ∧ (lapse rid s).thm = s.thm ∧ (lapse rid s).hlth = s.hlth ∧ (lapse rid s).rime
      = s.rime ∧ (lapse rid s).stns = s.stns ∧ (lapse rid s).net = s.net ∧ (lapse rid s).sori = s.sori ∧ (lapse rid s).jobs = s.jobs ∧
      (lapse rid s).fab = s.fab ∧ (lapse rid s).out = s.out ∧ (lapse rid s).fresh = s.fresh ∧ (lapse rid s).pins = s.pins ∧ (lapse rid
      s).pending = s.pending ∧ (lapse rid s).boot = s.boot ∧ (lapse rid s).flash = s.flash ∧ (lapse rid s).mem.cells = s.mem.cells ∧ (lapse
      rid s).mem.undef = s.mem.undef := by
  unfold lapse
  (repeat' split) <;> simp

@[simp] theorem ripen_keeps (r : Req) (s : State) :
    (ripen r s).beat = s.beat ∧ (ripen r s).pwr = s.pwr ∧ (ripen r s).thm = s.thm ∧ (ripen r s).hlth = s.hlth ∧ (ripen r s).rime = s.rime
      ∧ (ripen r s).stns = s.stns ∧ (ripen r s).sori = s.sori ∧ (ripen r s).fab = s.fab ∧ (ripen r s).fresh = s.fresh ∧ (ripen r s).pins =
      s.pins ∧ (ripen r s).pending = s.pending ∧ (ripen r s).boot = s.boot ∧ (ripen r s).flash = s.flash ∧ (ripen r s).mem.cells =
      s.mem.cells ∧ (ripen r s).mem.undef = s.mem.undef := by
  unfold ripen
  (repeat' split) <;> simp

@[simp] theorem phase4_keeps (s : State) :
    (phase4 s).beat = s.beat ∧ (phase4 s).pwr = s.pwr ∧ (phase4 s).thm = s.thm ∧ (phase4 s).hlth = s.hlth ∧ (phase4 s).rime = s.rime ∧
      (phase4 s).stns = s.stns ∧ (phase4 s).sori = s.sori ∧ (phase4 s).fab = s.fab ∧ (phase4 s).pins = s.pins ∧ (phase4 s).pending =
      s.pending ∧ (phase4 s).boot = s.boot ∧ (phase4 s).flash = s.flash ∧ (phase4 s).mem.undef = s.mem.undef := by
  unfold phase4
  simp

@[simp] theorem withdrawOne_keeps (ctx : Nat) (q : Nat) (p : Preempt) (s : State) :
    (withdrawOne ctx q p s).beat = s.beat ∧ (withdrawOne ctx q p s).pwr = s.pwr ∧ (withdrawOne ctx q p s).thm = s.thm ∧ (withdrawOne ctx q
      p s).hlth = s.hlth ∧ (withdrawOne ctx q p s).rime = s.rime ∧ (withdrawOne ctx q p s).stns = s.stns ∧ (withdrawOne ctx q p s).sori =
      s.sori ∧ (withdrawOne ctx q p s).models = s.models ∧ (withdrawOne ctx q p s).serve = s.serve ∧ (withdrawOne ctx q p s).fab = s.fab ∧
      (withdrawOne ctx q p s).fresh = s.fresh ∧ (withdrawOne ctx q p s).pins = s.pins ∧ (withdrawOne ctx q p s).pending = s.pending ∧
      (withdrawOne ctx q p s).boot = s.boot ∧ (withdrawOne ctx q p s).flash = s.flash ∧ (withdrawOne ctx q p s).mem = s.mem := by
  unfold withdrawOne
  simp

@[simp] theorem withdraw_keeps (ctx : Nat) (q : Nat) (s : State) :
    (withdraw ctx q s).beat = s.beat ∧ (withdraw ctx q s).pwr = s.pwr ∧ (withdraw ctx q s).thm = s.thm ∧ (withdraw ctx q s).hlth = s.hlth
      ∧ (withdraw ctx q s).rime = s.rime ∧ (withdraw ctx q s).stns = s.stns ∧ (withdraw ctx q s).sori = s.sori ∧ (withdraw ctx q s).models =
      s.models ∧ (withdraw ctx q s).serve = s.serve ∧ (withdraw ctx q s).fab = s.fab ∧ (withdraw ctx q s).fresh = s.fresh ∧ (withdraw ctx q
      s).pins = s.pins ∧ (withdraw ctx q s).pending = s.pending ∧ (withdraw ctx q s).boot = s.boot ∧ (withdraw ctx q s).flash = s.flash ∧
      (withdraw ctx q s).mem = s.mem := by
  unfold withdraw
  simp

@[simp] theorem readyQueue_keeps (ctx : Nat) (q : Nat) (issuer : Nat) (s : State) :
    (readyQueue ctx q issuer s).beat = s.beat ∧ (readyQueue ctx q issuer s).pwr = s.pwr ∧ (readyQueue ctx q issuer s).thm = s.thm ∧
      (readyQueue ctx q issuer s).hlth = s.hlth ∧ (readyQueue ctx q issuer s).stns = s.stns ∧ (readyQueue ctx q issuer s).sori = s.sori ∧
      (readyQueue ctx q issuer s).models = s.models ∧ (readyQueue ctx q issuer s).serve = s.serve ∧ (readyQueue ctx q issuer s).fab = s.fab
      ∧ (readyQueue ctx q issuer s).fresh = s.fresh ∧ (readyQueue ctx q issuer s).pins = s.pins ∧ (readyQueue ctx q issuer s).pending =
      s.pending ∧ (readyQueue ctx q issuer s).boot = s.boot ∧ (readyQueue ctx q issuer s).flash.counters = s.flash.counters ∧ (readyQueue
      ctx q issuer s).flash.install = s.flash.install ∧ (readyQueue ctx q issuer s).flash.serial = s.flash.serial ∧ (readyQueue ctx q issuer
      s).mem = s.mem := by
  unfold readyQueue
  simp

@[simp] theorem applyPreempt_keeps (p : Preempt) (s : State) :
    (applyPreempt p s).beat = s.beat ∧ (applyPreempt p s).pwr = s.pwr ∧ (applyPreempt p s).thm = s.thm ∧ (applyPreempt p s).hlth = s.hlth
      ∧ (applyPreempt p s).stns = s.stns ∧ (applyPreempt p s).sori = s.sori ∧ (applyPreempt p s).models = s.models ∧ (applyPreempt p
      s).serve = s.serve ∧ (applyPreempt p s).fab = s.fab ∧ (applyPreempt p s).fresh = s.fresh ∧ (applyPreempt p s).pins = s.pins ∧
      (applyPreempt p s).pending = s.pending ∧ (applyPreempt p s).boot = s.boot ∧ (applyPreempt p s).flash.counters = s.flash.counters ∧
      (applyPreempt p s).flash.install = s.flash.install ∧ (applyPreempt p s).flash.serial = s.flash.serial ∧ (applyPreempt p s).mem = s.mem := by
  unfold applyPreempt
  (repeat' split) <;> (try simp) <;> (repeat' split) <;> (try simp) <;> (repeat' split) <;> (try simp_all)

@[simp] theorem countGrant_keeps (ctx : Nat) (s : State) :
    (countGrant ctx s).beat = s.beat ∧ (countGrant ctx s).pwr = s.pwr ∧ (countGrant ctx s).thm = s.thm ∧ (countGrant ctx s).hlth = s.hlth
      ∧ (countGrant ctx s).rime = s.rime ∧ (countGrant ctx s).stns = s.stns ∧ (countGrant ctx s).net = s.net ∧ (countGrant ctx s).sori =
      s.sori ∧ (countGrant ctx s).models = s.models ∧ (countGrant ctx s).serve = s.serve ∧ (countGrant ctx s).fab = s.fab ∧ (countGrant ctx
      s).out = s.out ∧ (countGrant ctx s).fresh = s.fresh ∧ (countGrant ctx s).pins = s.pins ∧ (countGrant ctx s).pending = s.pending ∧
      (countGrant ctx s).boot = s.boot ∧ (countGrant ctx s).flash = s.flash ∧ (countGrant ctx s).mem = s.mem := by
  unfold countGrant
  (repeat' split) <;> simp

@[simp] theorem grantQueue_keeps (ctx : Nat) (q : Nat) (s : State) :
    (grantQueue ctx q s).beat = s.beat ∧ (grantQueue ctx q s).pwr = s.pwr ∧ (grantQueue ctx q s).thm = s.thm ∧ (grantQueue ctx q s).hlth =
      s.hlth ∧ (grantQueue ctx q s).stns = s.stns ∧ (grantQueue ctx q s).net = s.net ∧ (grantQueue ctx q s).sori = s.sori ∧ (grantQueue ctx
      q s).models = s.models ∧ (grantQueue ctx q s).serve = s.serve ∧ (grantQueue ctx q s).fab = s.fab ∧ (grantQueue ctx q s).out = s.out ∧
      (grantQueue ctx q s).fresh = s.fresh ∧ (grantQueue ctx q s).pins = s.pins ∧ (grantQueue ctx q s).pending = s.pending ∧ (grantQueue ctx
      q s).boot = s.boot ∧ (grantQueue ctx q s).flash.counters = s.flash.counters ∧ (grantQueue ctx q s).flash.install = s.flash.install ∧
      (grantQueue ctx q s).flash.serial = s.flash.serial ∧ (grantQueue ctx q s).mem = s.mem := by
  unfold grantQueue
  (repeat' split) <;> simp

@[simp] theorem phase6_keeps (s : State) :
    (phase6 s).beat = s.beat ∧ (phase6 s).pwr = s.pwr ∧ (phase6 s).thm = s.thm ∧ (phase6 s).hlth = s.hlth ∧ (phase6 s).stns = s.stns ∧
      (phase6 s).sori = s.sori ∧ (phase6 s).models = s.models ∧ (phase6 s).serve = s.serve ∧ (phase6 s).fab = s.fab ∧ (phase6 s).fresh =
      s.fresh ∧ (phase6 s).pins = s.pins ∧ (phase6 s).pending = s.pending ∧ (phase6 s).boot = s.boot ∧ (phase6 s).flash.counters =
      s.flash.counters ∧ (phase6 s).flash.install = s.flash.install ∧ (phase6 s).flash.serial = s.flash.serial ∧ (phase6 s).mem = s.mem :=
      by
  unfold phase6
  simp

@[simp] theorem phase7_keeps (s : State) :
    (phase7 s).beat = s.beat ∧ (phase7 s).hlth = s.hlth ∧ (phase7 s).stns = s.stns ∧ (phase7 s).sori = s.sori ∧ (phase7 s).models =
      s.models ∧ (phase7 s).serve = s.serve ∧ (phase7 s).jobs = s.jobs ∧ (phase7 s).fab = s.fab ∧ (phase7 s).fresh = s.fresh ∧ (phase7
      s).pins = s.pins ∧ (phase7 s).pending = s.pending ∧ (phase7 s).boot = s.boot ∧ (phase7 s).flash.counters = s.flash.counters ∧ (phase7
      s).flash.install = s.flash.install ∧ (phase7 s).flash.serial = s.flash.serial ∧ (phase7 s).mem = s.mem := by
  unfold phase7
  simp

@[simp] theorem returnLanes_keeps (s : State) :
    (returnLanes s).beat = s.beat ∧ (returnLanes s).pwr = s.pwr ∧ (returnLanes s).thm = s.thm ∧ (returnLanes s).hlth = s.hlth ∧
      (returnLanes s).rime = s.rime ∧ (returnLanes s).stns = s.stns ∧ (returnLanes s).net = s.net ∧ (returnLanes s).sori = s.sori ∧
      (returnLanes s).models = s.models ∧ (returnLanes s).serve = s.serve ∧ (returnLanes s).jobs = s.jobs ∧ (returnLanes s).out = s.out ∧
      (returnLanes s).fresh = s.fresh ∧ (returnLanes s).pins = s.pins ∧ (returnLanes s).pending = s.pending ∧ (returnLanes s).boot = s.boot
      ∧ (returnLanes s).flash = s.flash ∧ (returnLanes s).mem = s.mem := by
  unfold returnLanes
  simp

@[simp] theorem updateRoutes_keeps (s : State) :
    (updateRoutes s).beat = s.beat ∧ (updateRoutes s).pwr = s.pwr ∧ (updateRoutes s).thm = s.thm ∧ (updateRoutes s).hlth = s.hlth ∧
      (updateRoutes s).rime = s.rime ∧ (updateRoutes s).stns = s.stns ∧ (updateRoutes s).sori = s.sori ∧ (updateRoutes s).models = s.models
      ∧ (updateRoutes s).serve = s.serve ∧ (updateRoutes s).jobs = s.jobs ∧ (updateRoutes s).fresh = s.fresh ∧ (updateRoutes s).pins =
      s.pins ∧ (updateRoutes s).pending = s.pending ∧ (updateRoutes s).boot = s.boot ∧ (updateRoutes s).flash = s.flash ∧ (updateRoutes
      s).mem = s.mem := by
  unfold updateRoutes
  simp

@[simp] theorem settleShares_keeps (s : State) :
    (settleShares s).beat = s.beat ∧ (settleShares s).pwr = s.pwr ∧ (settleShares s).thm = s.thm ∧ (settleShares s).hlth = s.hlth ∧
      (settleShares s).rime = s.rime ∧ (settleShares s).stns = s.stns ∧ (settleShares s).net = s.net ∧ (settleShares s).sori = s.sori ∧
      (settleShares s).models = s.models ∧ (settleShares s).serve = s.serve ∧ (settleShares s).jobs = s.jobs ∧ (settleShares s).out = s.out
      ∧ (settleShares s).pins = s.pins ∧ (settleShares s).pending = s.pending ∧ (settleShares s).boot = s.boot ∧ (settleShares s).flash =
      s.flash ∧ (settleShares s).mem = s.mem := by
  unfold settleShares
  first
  | (simp; done)
  | ((repeat' split) <;> simp; done)
  | ((repeat' split) <;> (try simp) <;> (repeat' split) <;> (try simp) <;> (repeat' split) <;> (try simp_all); done)

@[simp] theorem phase8_keeps (s : State) :
    (phase8 s).beat = s.beat ∧ (phase8 s).pwr = s.pwr ∧ (phase8 s).thm = s.thm ∧ (phase8 s).hlth = s.hlth ∧ (phase8 s).stns = s.stns ∧
      (phase8 s).sori = s.sori ∧ (phase8 s).models = s.models ∧ (phase8 s).serve = s.serve ∧ (phase8 s).jobs = s.jobs ∧ (phase8 s).pins =
      s.pins ∧ (phase8 s).pending = s.pending ∧ (phase8 s).boot = s.boot ∧ (phase8 s).flash.counters = s.flash.counters ∧ (phase8
      s).flash.install = s.flash.install ∧ (phase8 s).flash.serial = s.flash.serial ∧ (phase8 s).mem = s.mem := by
  unfold phase8
  (repeat' split) <;> (try simp (disch := ((try intros); (repeat' split) <;> (try simp)))) <;> (repeat' split) <;> (try simp (disch := ((try intros); (repeat' split) <;> (try simp)))) <;> (repeat' split) <;> (try simp_all)

@[simp] theorem chooseAccept_keeps (c : Cmd) (seq : Nat) (s : State) :
    (chooseAccept c seq s).beat = s.beat ∧ (chooseAccept c seq s).pwr = s.pwr ∧ (chooseAccept c seq s).thm = s.thm ∧ (chooseAccept c seq
      s).hlth = s.hlth ∧ (chooseAccept c seq s).rime = s.rime ∧ (chooseAccept c seq s).stns = s.stns ∧ (chooseAccept c seq s).net = s.net ∧
      (chooseAccept c seq s).sori = s.sori ∧ (chooseAccept c seq s).models = s.models ∧ (chooseAccept c seq s).jobs = s.jobs ∧ (chooseAccept
      c seq s).fab = s.fab ∧ (chooseAccept c seq s).out = s.out ∧ (chooseAccept c seq s).pins = s.pins ∧ (chooseAccept c seq s).pending =
      s.pending ∧ (chooseAccept c seq s).boot = s.boot ∧ (chooseAccept c seq s).flash = s.flash ∧ (chooseAccept c seq s).mem = s.mem := by
  unfold chooseAccept
  (repeat' split) <;> grind [draw_keeps, setReq_keeps]

@[simp] theorem putTo_keeps (id : Nat) (code : Nat) (port : Nat) (ts : List Tile) (s : State) :
    (putTo id code port ts s).beat = s.beat ∧ (putTo id code port ts s).pwr = s.pwr ∧ (putTo id code port ts s).thm = s.thm ∧ (putTo id
      code port ts s).hlth = s.hlth ∧ (putTo id code port ts s).rime = s.rime ∧ (putTo id code port ts s).net = s.net ∧ (putTo id code port
      ts s).sori = s.sori ∧ (putTo id code port ts s).models = s.models ∧ (putTo id code port ts s).serve = s.serve ∧ (putTo id code port ts
      s).fab = s.fab ∧ (putTo id code port ts s).out = s.out ∧ (putTo id code port ts s).pins = s.pins ∧ (putTo id code port ts s).pending =
      s.pending ∧ (putTo id code port ts s).boot = s.boot ∧ (putTo id code port ts s).flash = s.flash ∧ (putTo id code port ts s).mem =
      s.mem := by
  unfold putTo
  (repeat' split) <;> simp

theorem fetchFace_keeps (c : Cmd) (p : Place) (f : XferF) (h : Handle) (off : Nat) (s : State) :
    ∀ t, fetchFace c p f h off s = .ok t → t.beat = s.beat ∧ t.pwr = s.pwr ∧ t.thm = s.thm ∧ t.hlth = s.hlth ∧ t.rime = s.rime ∧ t.net =
      s.net ∧ t.sori = s.sori ∧ t.models = s.models ∧ t.fab = s.fab ∧ t.out = s.out ∧ t.pins = s.pins ∧ t.pending = s.pending ∧ t.boot =
      s.boot ∧ t.flash = s.flash ∧ t.mem.cells = s.mem.cells ∧ t.mem.undef = s.mem.undef := by
  unfold fetchFace
  (repeat' split) <;> (try simp) <;> (repeat' split) <;> (try simp) <;> (repeat' split) <;> (try simp_all)

@[simp] theorem waitFor_keeps (session : Nat) (tag : Nat) (principal : Nat) (w : Want) (s : State) :
    (waitFor session tag principal w s).beat = s.beat ∧ (waitFor session tag principal w s).pwr = s.pwr ∧ (waitFor session tag principal w
      s).thm = s.thm ∧ (waitFor session tag principal w s).hlth = s.hlth ∧ (waitFor session tag principal w s).rime = s.rime ∧ (waitFor
      session tag principal w s).stns = s.stns ∧ (waitFor session tag principal w s).net = s.net ∧ (waitFor session tag principal w s).sori
      = s.sori ∧ (waitFor session tag principal w s).models = s.models ∧ (waitFor session tag principal w s).serve = s.serve ∧ (waitFor
      session tag principal w s).jobs = s.jobs ∧ (waitFor session tag principal w s).fab = s.fab ∧ (waitFor session tag principal w s).out =
      s.out ∧ (waitFor session tag principal w s).pins = s.pins ∧ (waitFor session tag principal w s).pending = s.pending ∧ (waitFor session
      tag principal w s).boot = s.boot ∧ (waitFor session tag principal w s).flash = s.flash ∧ (waitFor session tag principal w s).mem.cells
      = s.mem.cells ∧ (waitFor session tag principal w s).mem.undef = s.mem.undef := by
  unfold waitFor
  simp

@[simp] theorem allocNow_keeps (h : Hdr) (principal : Nat) (p : AllocP) (s : State) :
    (allocNow h principal p s).beat = s.beat ∧ (allocNow h principal p s).pwr = s.pwr ∧ (allocNow h principal p s).thm = s.thm ∧ (allocNow
      h principal p s).hlth = s.hlth ∧ (allocNow h principal p s).rime = s.rime ∧ (allocNow h principal p s).stns = s.stns ∧ (allocNow h
      principal p s).sori = s.sori ∧ (allocNow h principal p s).jobs = s.jobs ∧ (allocNow h principal p s).fab = s.fab ∧ (allocNow h
      principal p s).pins = s.pins ∧ (allocNow h principal p s).pending = s.pending ∧ (allocNow h principal p s).boot = s.boot ∧ (allocNow h
      principal p s).flash = s.flash := by
  unfold allocNow
  split
  · simp
  · split
    · simp
    · split
      · rename_i h; have h1 := (demandRoom_keeps _ _ _ _).1 _ _ h; simp_all
      · rename_i h; have h1 := (demandRoom_keeps _ _ _ _).2 _ h; simp_all
      · simp

@[simp] theorem placeManifest_keeps (h : Hdr) (m : Manifest) (timeout : Nat) (source : Nat) (s : State) :
    (placeManifest h m timeout source s).beat = s.beat ∧ (placeManifest h m timeout source s).pwr = s.pwr ∧ (placeManifest h m timeout
      source s).thm = s.thm ∧ (placeManifest h m timeout source s).hlth = s.hlth ∧ (placeManifest h m timeout source s).rime = s.rime ∧
      (placeManifest h m timeout source s).stns = s.stns ∧ (placeManifest h m timeout source s).sori = s.sori ∧ (placeManifest h m timeout
      source s).jobs = s.jobs ∧ (placeManifest h m timeout source s).fab = s.fab ∧ (placeManifest h m timeout source s).pins = s.pins ∧
      (placeManifest h m timeout source s).pending = s.pending ∧ (placeManifest h m timeout source s).boot = s.boot ∧ (placeManifest h m
      timeout source s).flash = s.flash ∧ (placeManifest h m timeout source s).mem.undef = s.mem.undef := by
  unfold placeManifest
  split
  · rename_i h; have h1 := (placeAll_keeps _ _ _ _).1 _ _ h; simp_all
  · rename_i h; have h1 := (placeAll_keeps _ _ _ _).2 _ h; simp_all
  · simp

@[simp] theorem acceptRow_keeps (r : XRow) (s : State) :
    (acceptRow r s).beat = s.beat ∧ (acceptRow r s).thm = s.thm ∧ (acceptRow r s).hlth = s.hlth ∧ (acceptRow r s).sori = s.sori ∧
      (acceptRow r s).fresh = s.fresh ∧ (acceptRow r s).pins = s.pins ∧ (acceptRow r s).pending = s.pending ∧ (acceptRow r s).boot = s.boot
      ∧ (acceptRow r s).flash.counters = s.flash.counters ∧ (acceptRow r s).flash.install = s.flash.install ∧ (acceptRow r s).flash.serial =
      s.flash.serial ∧ (acceptRow r s).mem.undef = s.mem.undef := by
  unfold acceptRow
  (repeat' split) <;> simp

@[simp] theorem mapWrite_keeps (u : HwUnit) (f : MapEntry → MapEntry) (s : State) :
    (mapWrite u f s).beat = s.beat ∧ (mapWrite u f s).pwr = s.pwr ∧ (mapWrite u f s).thm = s.thm ∧ (mapWrite u f s).hlth = s.hlth ∧
      (mapWrite u f s).rime = s.rime ∧ (mapWrite u f s).stns = s.stns ∧ (mapWrite u f s).net = s.net ∧ (mapWrite u f s).sori = s.sori ∧
      (mapWrite u f s).models = s.models ∧ (mapWrite u f s).serve = s.serve ∧ (mapWrite u f s).jobs = s.jobs ∧ (mapWrite u f s).fab = s.fab
      ∧ (mapWrite u f s).out = s.out ∧ (mapWrite u f s).fresh = s.fresh ∧ (mapWrite u f s).pins = s.pins ∧ (mapWrite u f s).pending =
      s.pending ∧ (mapWrite u f s).boot = s.boot ∧ (mapWrite u f s).flash.counters = s.flash.counters ∧ (mapWrite u f s).flash.install =
      s.flash.install ∧ (mapWrite u f s).flash.serial = s.flash.serial ∧ (mapWrite u f s).mem = s.mem := by
  unfold mapWrite
  simp

@[simp] theorem quarantine_keeps (port : Nat) (type : Nat) (payload : List Byte) (s : State) :
    (quarantine port type payload s).beat = s.beat ∧ (quarantine port type payload s).pwr = s.pwr ∧ (quarantine port type payload s).thm =
      s.thm ∧ (quarantine port type payload s).hlth = s.hlth ∧ (quarantine port type payload s).stns = s.stns ∧ (quarantine port type
      payload s).sori = s.sori ∧ (quarantine port type payload s).models = s.models ∧ (quarantine port type payload s).serve = s.serve ∧
      (quarantine port type payload s).jobs = s.jobs ∧ (quarantine port type payload s).pins = s.pins ∧ (quarantine port type payload
      s).pending = s.pending ∧ (quarantine port type payload s).boot = s.boot ∧ (quarantine port type payload s).flash.counters =
      s.flash.counters ∧ (quarantine port type payload s).flash.install = s.flash.install ∧ (quarantine port type payload s).flash.serial =
      s.flash.serial ∧ (quarantine port type payload s).mem = s.mem := by
  unfold quarantine
  simp

theorem fetchImage_keeps (c : Cmd) (p : Place) (f : XferF) (desc : Nat) (k : Nat) (s : State) :
    ∀ t, fetchImage c p f desc k s = .ok t → t.beat = s.beat ∧ t.pwr = s.pwr ∧ t.thm = s.thm ∧ t.hlth = s.hlth ∧ t.rime = s.rime ∧ t.net =
      s.net ∧ t.sori = s.sori ∧ t.models = s.models ∧ t.pins = s.pins ∧ t.pending = s.pending ∧ t.boot = s.boot ∧ t.flash = s.flash ∧
      t.mem.undef = s.mem.undef := by
  unfold fetchImage
  intro t h
  dsimp only at h
  generalize (if f.stride = 0 then imageBytes else f.stride) = d at h
  split at h
  · cases h
  · split at h
    · split at h
      · cases h
      · have h1 := fetchFace_keeps _ _ _ _ _ _ _ h; simp_all
    · split at h
      · cases h
      · split at h
        · split at h
          · cases h
          · have h1 := loadTo_keeps _ _ _ _ _ _ _ h; simp_all
        · split at h
          · cases h
          · injection h with h; subst h; split <;> simp

@[simp] theorem acceptCounts_keeps (r : CountRec) (s : State) :
    (acceptCounts r s).beat = s.beat ∧ (acceptCounts r s).pwr = s.pwr ∧ (acceptCounts r s).thm = s.thm ∧ (acceptCounts r s).hlth = s.hlth
      ∧ (acceptCounts r s).rime = s.rime ∧ (acceptCounts r s).stns = s.stns ∧ (acceptCounts r s).net = s.net ∧ (acceptCounts r s).sori =
      s.sori ∧ (acceptCounts r s).models = s.models ∧ (acceptCounts r s).serve = s.serve ∧ (acceptCounts r s).jobs = s.jobs ∧ (acceptCounts
      r s).out = s.out ∧ (acceptCounts r s).fresh = s.fresh ∧ (acceptCounts r s).pins = s.pins ∧ (acceptCounts r s).pending = s.pending ∧
      (acceptCounts r s).boot = s.boot ∧ (acceptCounts r s).flash = s.flash ∧ (acceptCounts r s).mem = s.mem := by
  unfold acceptCounts
  simp

@[simp] theorem interruptCmds_keeps (code : Nat) (s : State) :
    (interruptCmds code s).beat = s.beat ∧ (interruptCmds code s).pwr = s.pwr ∧ (interruptCmds code s).thm = s.thm ∧ (interruptCmds code
      s).hlth = s.hlth ∧ (interruptCmds code s).rime = s.rime ∧ (interruptCmds code s).stns = s.stns ∧ (interruptCmds code s).sori = s.sori
      ∧ (interruptCmds code s).models = s.models ∧ (interruptCmds code s).serve = s.serve ∧ (interruptCmds code s).fresh = s.fresh ∧
      (interruptCmds code s).pins = s.pins ∧ (interruptCmds code s).pending = s.pending ∧ (interruptCmds code s).boot = s.boot ∧
      (interruptCmds code s).flash = s.flash ∧ (interruptCmds code s).mem = s.mem := by
  unfold interruptCmds
  simp

@[simp] theorem starve_keeps (code : Nat) (port : Nat) (s : State) :
    (starve code port s).beat = s.beat ∧ (starve code port s).pwr = s.pwr ∧ (starve code port s).thm = s.thm ∧ (starve code port s).hlth =
      s.hlth ∧ (starve code port s).rime = s.rime ∧ (starve code port s).net = s.net ∧ (starve code port s).sori = s.sori ∧ (starve code
      port s).models = s.models ∧ (starve code port s).serve = s.serve ∧ (starve code port s).jobs = s.jobs ∧ (starve code port s).fab =
      s.fab ∧ (starve code port s).out = s.out ∧ (starve code port s).pins = s.pins ∧ (starve code port s).pending = s.pending ∧ (starve
      code port s).boot = s.boot ∧ (starve code port s).flash = s.flash ∧ (starve code port s).mem = s.mem := by
  unfold starve
  simp

theorem bufferRead_keeps (c : Cmd) (o : Origin) (p : Place) (slot : Nat) (off : Nat) (n : Nat) (s : State) :
    ∀ t, bufferRead c o p slot off n s = .ok t → t.beat = s.beat ∧ t.pwr = s.pwr ∧ t.thm = s.thm ∧ t.hlth = s.hlth ∧ t.rime = s.rime ∧
      t.stns = s.stns ∧ t.net = s.net ∧ t.sori = s.sori ∧ t.models = s.models ∧ t.serve = s.serve ∧ t.fresh = s.fresh ∧ t.pins = s.pins ∧
      t.pending = s.pending ∧ t.boot = s.boot ∧ t.flash = s.flash ∧ t.mem.undef = s.mem.undef := by
  unfold bufferRead
  (repeat' split) <;> grind [slotRead_keeps, setList_keeps]

@[simp] theorem finishPauseMove_keeps (rid : Nat) (s : State) :
    (finishPauseMove rid s).beat = s.beat ∧ (finishPauseMove rid s).pwr = s.pwr ∧ (finishPauseMove rid s).thm = s.thm ∧ (finishPauseMove
      rid s).hlth = s.hlth ∧ (finishPauseMove rid s).rime = s.rime ∧ (finishPauseMove rid s).stns = s.stns ∧ (finishPauseMove rid s).net =
      s.net ∧ (finishPauseMove rid s).sori = s.sori ∧ (finishPauseMove rid s).jobs = s.jobs ∧ (finishPauseMove rid s).fab = s.fab ∧
      (finishPauseMove rid s).out = s.out ∧ (finishPauseMove rid s).fresh = s.fresh ∧ (finishPauseMove rid s).pins = s.pins ∧
      (finishPauseMove rid s).pending = s.pending ∧ (finishPauseMove rid s).boot = s.boot ∧ (finishPauseMove rid s).flash = s.flash ∧
      (finishPauseMove rid s).mem.undef = s.mem.undef := by
  unfold finishPauseMove
  (repeat' split) <;> (try simp) <;> (repeat' split) <;> (try simp) <;> (repeat' split) <;> (try simp_all)

@[simp] theorem retireChannel_keeps (u : HwUnit) (s : State) :
    (retireChannel u s).beat = s.beat ∧ (retireChannel u s).pwr = s.pwr ∧ (retireChannel u s).thm = s.thm ∧ (retireChannel u s).hlth =
      s.hlth ∧ (retireChannel u s).rime = s.rime ∧ (retireChannel u s).stns = s.stns ∧ (retireChannel u s).net = s.net ∧ (retireChannel u
      s).sori = s.sori ∧ (retireChannel u s).models = s.models ∧ (retireChannel u s).serve = s.serve ∧ (retireChannel u s).jobs = s.jobs ∧
      (retireChannel u s).fab = s.fab ∧ (retireChannel u s).out = s.out ∧ (retireChannel u s).fresh = s.fresh ∧ (retireChannel u s).pins =
      s.pins ∧ (retireChannel u s).pending = s.pending ∧ (retireChannel u s).boot = s.boot ∧ (retireChannel u s).flash = s.flash ∧
      (retireChannel u s).mem.cells = s.mem.cells ∧ (retireChannel u s).mem.undef = s.mem.undef := by
  unfold retireChannel
  (repeat' split) <;> simp

@[simp] theorem issueRow_keeps (o : Origin) (dest : Nat) (r : XRow) (s : State) :
    (issueRow o dest r s).beat = s.beat ∧ (issueRow o dest r s).thm = s.thm ∧ (issueRow o dest r s).hlth = s.hlth ∧ (issueRow o dest r
      s).sori = s.sori ∧ (issueRow o dest r s).fresh = s.fresh ∧ (issueRow o dest r s).pins = s.pins ∧ (issueRow o dest r s).pending =
      s.pending ∧ (issueRow o dest r s).boot = s.boot ∧ (issueRow o dest r s).flash.counters = s.flash.counters ∧ (issueRow o dest r
      s).flash.install = s.flash.install ∧ (issueRow o dest r s).flash.serial = s.flash.serial ∧ (issueRow o dest r s).mem.undef =
      s.mem.undef := by
  unfold issueRow
  (repeat' split) <;> simp

@[simp] theorem dropBuffer_keeps (p : Place) (s : State) :
    (dropBuffer p s).beat = s.beat ∧ (dropBuffer p s).pwr = s.pwr ∧ (dropBuffer p s).thm = s.thm ∧ (dropBuffer p s).hlth = s.hlth ∧
      (dropBuffer p s).rime = s.rime ∧ (dropBuffer p s).stns = s.stns ∧ (dropBuffer p s).net = s.net ∧ (dropBuffer p s).sori = s.sori ∧
      (dropBuffer p s).models = s.models ∧ (dropBuffer p s).serve = s.serve ∧ (dropBuffer p s).fab = s.fab ∧ (dropBuffer p s).out = s.out ∧
      (dropBuffer p s).fresh = s.fresh ∧ (dropBuffer p s).pins = s.pins ∧ (dropBuffer p s).pending = s.pending ∧ (dropBuffer p s).boot =
      s.boot ∧ (dropBuffer p s).flash = s.flash ∧ (dropBuffer p s).mem = s.mem := by
  unfold dropBuffer
  simp

theorem faceWrite_keeps (c : Cmd) (w : Nat × List Byte) (s : State) :
    ∀ t, faceWrite c w s = .ok t → t.beat = s.beat ∧ t.pwr = s.pwr ∧ t.thm = s.thm ∧ t.hlth = s.hlth ∧ t.rime = s.rime ∧ t.stns = s.stns ∧
      t.net = s.net ∧ t.sori = s.sori ∧ t.models = s.models ∧ t.serve = s.serve ∧ t.out = s.out ∧ t.fresh = s.fresh ∧ t.pins = s.pins ∧
      t.pending = s.pending ∧ t.boot = s.boot ∧ t.flash = s.flash ∧ t.mem.undef = s.mem.undef := by
  unfold faceWrite
  (repeat' split) <;> simp

@[simp] theorem retireUnit_keeps (u : HwUnit) (s : State) :
    (retireUnit u s).beat = s.beat ∧ (retireUnit u s).pwr = s.pwr ∧ (retireUnit u s).thm = s.thm ∧ (retireUnit u s).sori = s.sori ∧
      (retireUnit u s).models = s.models ∧ (retireUnit u s).serve = s.serve ∧ (retireUnit u s).jobs = s.jobs ∧ (retireUnit u s).pins =
      s.pins ∧ (retireUnit u s).pending = s.pending ∧ (retireUnit u s).boot = s.boot ∧ (retireUnit u s).flash.counters = s.flash.counters ∧
      (retireUnit u s).flash.install = s.flash.install ∧ (retireUnit u s).flash.serial = s.flash.serial ∧ (retireUnit u s).mem.cells =
      s.mem.cells ∧ (retireUnit u s).mem.undef = s.mem.undef := by
  unfold retireUnit
  (repeat' split) <;> (try simp) <;> (repeat' split) <;> (try simp) <;> (repeat' split) <;> (try simp_all)

@[simp] theorem withSource_keeps (c : Cmd) (o : Origin) (p : Place) (slot : Nat) (off : Nat) (n : Nat) (k : List Byte → State → State) (s : State) (hK
    : ∀ b u, (k b u).beat = u.beat ∧ (k b u).thm = u.thm ∧ (k b u).hlth = u.hlth ∧ (k b u).stns = u.stns ∧ (k b u).sori = u.sori ∧ (k b
    u).fresh = u.fresh ∧ (k b u).pins = u.pins ∧ (k b u).pending = u.pending ∧ (k b u).boot = u.boot ∧ (k b u).flash.counters =
    u.flash.counters ∧ (k b u).flash.install = u.flash.install ∧ (k b u).flash.serial = u.flash.serial ∧ (k b u).mem.undef = u.mem.undef) :
    (withSource c o p slot off n k s).beat = s.beat ∧ (withSource c o p slot off n k s).thm = s.thm ∧ (withSource c o p slot off n k s).hlth =
      s.hlth ∧ (withSource c o p slot off n k s).stns = s.stns ∧ (withSource c o p slot off n k s).sori = s.sori ∧ (withSource c o p slot off n k
      s).fresh = s.fresh ∧ (withSource c o p slot off n k s).pins = s.pins ∧ (withSource c o p slot off n k s).pending = s.pending ∧ (withSource c o p slot off n k s).boot = s.boot ∧ (withSource c o p slot off n k s).flash.counters = s.flash.counters ∧ (withSource c o p slot off n k
      s).flash.install = s.flash.install ∧ (withSource c o p slot off n k s).flash.serial = s.flash.serial ∧ (withSource c o p slot off n k
      s).mem.undef = s.mem.undef := by
  unfold withSource
  dsimp only
  split
  · simp
  · rename_i u h
    have h1 : (fun s : State => (s.beat, s.thm, s.hlth, s.stns, s.sori, s.fresh, s.pins, s.pending, s.boot, s.flash.counters, s.flash.install, s.flash.serial, s.mem.undef)) u = (fun s : State => (s.beat, s.thm, s.hlth, s.stns, s.sori, s.fresh, s.pins, s.pending, s.boot, s.flash.counters, s.flash.install, s.flash.serial, s.mem.undef)) s := by
      split at h
      · injection h with h; rw [h]
      · have h2 := bufferRead_keeps _ _ _ _ _ _ _ _ h; simp_all
    simp only [Prod.mk.injEq] at h1
    split <;> simp [hK, h1]

@[simp] theorem withdrawModel_keeps (id : Nat) (s : State) :
    (withdrawModel id s).beat = s.beat ∧ (withdrawModel id s).pwr = s.pwr ∧ (withdrawModel id s).thm = s.thm ∧ (withdrawModel id s).hlth =
      s.hlth ∧ (withdrawModel id s).rime = s.rime ∧ (withdrawModel id s).stns = s.stns ∧ (withdrawModel id s).net = s.net ∧ (withdrawModel
      id s).sori = s.sori ∧ (withdrawModel id s).serve = s.serve ∧ (withdrawModel id s).jobs = s.jobs ∧ (withdrawModel id s).fab = s.fab ∧
      (withdrawModel id s).out = s.out ∧ (withdrawModel id s).fresh = s.fresh ∧ (withdrawModel id s).pins = s.pins ∧ (withdrawModel id
      s).pending = s.pending ∧ (withdrawModel id s).boot = s.boot ∧ (withdrawModel id s).flash = s.flash ∧ (withdrawModel id s).mem.cells =
      s.mem.cells ∧ (withdrawModel id s).mem.undef = s.mem.undef := by
  unfold withdrawModel
  simp

@[simp] theorem keepStats_keeps (face : Nat) (ws : List (Nat × List Byte)) (s : State) :
    (keepStats face ws s).beat = s.beat ∧ (keepStats face ws s).pwr = s.pwr ∧ (keepStats face ws s).thm = s.thm ∧ (keepStats face ws
      s).hlth = s.hlth ∧ (keepStats face ws s).rime = s.rime ∧ (keepStats face ws s).stns = s.stns ∧ (keepStats face ws s).net = s.net ∧
      (keepStats face ws s).sori = s.sori ∧ (keepStats face ws s).models = s.models ∧ (keepStats face ws s).serve = s.serve ∧ (keepStats
      face ws s).jobs = s.jobs ∧ (keepStats face ws s).fab = s.fab ∧ (keepStats face ws s).out = s.out ∧ (keepStats face ws s).fresh =
      s.fresh ∧ (keepStats face ws s).pins = s.pins ∧ (keepStats face ws s).pending = s.pending ∧ (keepStats face ws s).boot = s.boot ∧
      (keepStats face ws s).flash = s.flash ∧ (keepStats face ws s).mem.cells = s.mem.cells ∧ (keepStats face ws s).mem.undef = s.mem.undef := by
  unfold keepStats
  first
  | (simp; done)
  | ((repeat' split) <;> simp; done)
  | ((repeat' split) <;> (try simp) <;> (repeat' split) <;> (try simp) <;> (repeat' split) <;> (try simp_all); done)

theorem storeImage_keeps (c : Cmd) (p : Place) (f : XferF) (desc : Nat) (k : Nat) (x : Tile) (s : State) :
    ∀ t, storeImage c p f desc k x s = .ok t → t.beat = s.beat ∧ t.pwr = s.pwr ∧ t.thm = s.thm ∧ t.hlth = s.hlth ∧ t.rime = s.rime ∧
      t.stns = s.stns ∧ t.net = s.net ∧ t.sori = s.sori ∧ t.models = s.models ∧ t.serve = s.serve ∧ t.fresh = s.fresh ∧ t.pins = s.pins ∧
      t.pending = s.pending ∧ t.boot = s.boot ∧ t.flash = s.flash ∧ t.mem.undef = s.mem.undef := by
  unfold storeImage
  intro t h
  dsimp only at h
  generalize (if f.stride = 0 then imageBytes else f.stride) = d at h
  split at h
  · cases h
  · split at h
    · split at h
      · cases h
      · split at h
        · cases h
        · split at h
          · cases h
          · split at h
            rotate_left
            · cases h
            rename_i h9
            injection h with h; subst h
            have h1 := (eachMove_keeps (fun s : State => (s.beat, s.pwr, s.thm, s.hlth, s.rime, s.stns, s.net, s.sori, s.models, s.serve, s.fresh, s.pins, s.pending, s.boot, s.flash, s.mem.undef)) _ (fun x u v hv => by have h2 := faceWrite_keeps _ _ _ _ hv; simp_all) _ _).2 _ h9
            simpa using h1
    · exact slotWrite_keeps _ _ _ _ _ _ _ h

@[simp] theorem finishResumeMove_keeps (rid : Nat) (s : State) :
    (finishResumeMove rid s).beat = s.beat ∧ (finishResumeMove rid s).pwr = s.pwr ∧ (finishResumeMove rid s).thm = s.thm ∧
      (finishResumeMove rid s).hlth = s.hlth ∧ (finishResumeMove rid s).rime = s.rime ∧ (finishResumeMove rid s).stns = s.stns ∧
      (finishResumeMove rid s).net = s.net ∧ (finishResumeMove rid s).sori = s.sori ∧ (finishResumeMove rid s).models = s.models ∧
      (finishResumeMove rid s).jobs = s.jobs ∧ (finishResumeMove rid s).fab = s.fab ∧ (finishResumeMove rid s).out = s.out ∧
      (finishResumeMove rid s).fresh = s.fresh ∧ (finishResumeMove rid s).pins = s.pins ∧ (finishResumeMove rid s).pending = s.pending ∧
      (finishResumeMove rid s).boot = s.boot ∧ (finishResumeMove rid s).flash = s.flash ∧ (finishResumeMove rid s).mem.undef = s.mem.undef
      := by
  unfold finishResumeMove
  (repeat' split) <;> simp

@[simp] theorem halt_keeps (code : Nat) (s : State) :
    (halt code s).beat = s.beat ∧ (halt code s).pwr = s.pwr ∧ (halt code s).thm = s.thm ∧ (halt code s).hlth = s.hlth ∧ (halt code s).rime
      = s.rime ∧ (halt code s).stns = s.stns ∧ (halt code s).sori = s.sori ∧ (halt code s).models = s.models ∧ (halt code s).serve = s.serve
      ∧ (halt code s).jobs = s.jobs ∧ (halt code s).out = s.out ∧ (halt code s).fresh = s.fresh ∧ (halt code s).pending = s.pending ∧ (halt
      code s).flash = s.flash ∧ (halt code s).mem = s.mem := by
  unfold halt
  simp

theorem issueAtomic_keeps (c : Cmd) (o : Origin) (f : ZAtomicF) (x : Nat × Nat × Nat × Nat × Nat) (s : State) :
    ∀ t, issueAtomic c o f x s = .ok t → t.beat = s.beat ∧ t.pwr = s.pwr ∧ t.thm = s.thm ∧ t.hlth = s.hlth ∧ t.rime = s.rime ∧ t.stns =
      s.stns ∧ t.net = s.net ∧ t.sori = s.sori ∧ t.models = s.models ∧ t.serve = s.serve ∧ t.pins = s.pins ∧ t.pending = s.pending ∧ t.boot
      = s.boot ∧ t.flash = s.flash ∧ t.mem.undef = s.mem.undef := by
  unfold issueAtomic
  (repeat' split) <;> intro t h <;> (repeat' split at h) <;> grind [applyAtomic_keeps, flagWaits_keeps, slotWrite_keeps, issueAccess_keeps, sendAccess_keeps]

@[simp] theorem haltPair_keeps (n : Nat) (s : State) :
    (haltPair n s).beat = s.beat ∧ (haltPair n s).pwr = s.pwr ∧ (haltPair n s).thm = s.thm ∧ (haltPair n s).rime = s.rime ∧ (haltPair n
      s).stns = s.stns ∧ (haltPair n s).net = s.net ∧ (haltPair n s).sori = s.sori ∧ (haltPair n s).models = s.models ∧ (haltPair n s).serve
      = s.serve ∧ (haltPair n s).jobs = s.jobs ∧ (haltPair n s).fab = s.fab ∧ (haltPair n s).out = s.out ∧ (haltPair n s).fresh = s.fresh ∧
      (haltPair n s).pins = s.pins ∧ (haltPair n s).pending = s.pending ∧ (haltPair n s).boot = s.boot ∧ (haltPair n s).flash = s.flash ∧
      (haltPair n s).mem = s.mem := by
  unfold haltPair
  simp

@[simp] theorem dropStranded_keeps (s : State) :
    (dropStranded s).beat = s.beat ∧ (dropStranded s).pwr = s.pwr ∧ (dropStranded s).thm = s.thm ∧ (dropStranded s).hlth = s.hlth ∧
      (dropStranded s).rime = s.rime ∧ (dropStranded s).stns = s.stns ∧ (dropStranded s).sori = s.sori ∧ (dropStranded s).models = s.models
      ∧ (dropStranded s).serve = s.serve ∧ (dropStranded s).fresh = s.fresh ∧ (dropStranded s).pins = s.pins ∧ (dropStranded s).pending =
      s.pending ∧ (dropStranded s).boot = s.boot ∧ (dropStranded s).flash = s.flash ∧ (dropStranded s).mem = s.mem := by
  unfold dropStranded
  simp

@[simp] theorem waitPlan_keeps (code : Nat) (s : State) :
    (waitPlan code s).beat = s.beat ∧ (waitPlan code s).pwr = s.pwr ∧ (waitPlan code s).thm = s.thm ∧ (waitPlan code s).hlth = s.hlth ∧
      (waitPlan code s).rime = s.rime ∧ (waitPlan code s).stns = s.stns ∧ (waitPlan code s).net = s.net ∧ (waitPlan code s).sori = s.sori ∧
      (waitPlan code s).models = s.models ∧ (waitPlan code s).serve = s.serve ∧ (waitPlan code s).jobs = s.jobs ∧ (waitPlan code s).fab =
      s.fab ∧ (waitPlan code s).out = s.out ∧ (waitPlan code s).fresh = s.fresh ∧ (waitPlan code s).pins = s.pins ∧ (waitPlan code
      s).pending = s.pending ∧ (waitPlan code s).flash = s.flash ∧ (waitPlan code s).mem = s.mem := by
  unfold waitPlan
  simp

@[simp] theorem reloadRecorder_keeps (s : State) :
    (reloadRecorder s).beat = s.beat ∧ (reloadRecorder s).pwr = s.pwr ∧ (reloadRecorder s).thm = s.thm ∧ (reloadRecorder s).hlth = s.hlth
      ∧ (reloadRecorder s).stns = s.stns ∧ (reloadRecorder s).net = s.net ∧ (reloadRecorder s).sori = s.sori ∧ (reloadRecorder s).models =
      s.models ∧ (reloadRecorder s).serve = s.serve ∧ (reloadRecorder s).jobs = s.jobs ∧ (reloadRecorder s).fab = s.fab ∧ (reloadRecorder
      s).out = s.out ∧ (reloadRecorder s).fresh = s.fresh ∧ (reloadRecorder s).pins = s.pins ∧ (reloadRecorder s).pending = s.pending ∧
      (reloadRecorder s).boot = s.boot ∧ (reloadRecorder s).flash = s.flash ∧ (reloadRecorder s).mem = s.mem := by
  unfold reloadRecorder
  simp

@[simp] theorem noteFinding_keeps (u : HwUnit) (f : Finding) (s : State) :
    (noteFinding u f s).beat = s.beat ∧ (noteFinding u f s).pwr = s.pwr ∧ (noteFinding u f s).thm = s.thm ∧ (noteFinding u f s).hlth =
      s.hlth ∧ (noteFinding u f s).rime = s.rime ∧ (noteFinding u f s).net = s.net ∧ (noteFinding u f s).sori = s.sori ∧ (noteFinding u f
      s).models = s.models ∧ (noteFinding u f s).serve = s.serve ∧ (noteFinding u f s).jobs = s.jobs ∧ (noteFinding u f s).out = s.out ∧
      (noteFinding u f s).fresh = s.fresh ∧ (noteFinding u f s).pins = s.pins ∧ (noteFinding u f s).pending = s.pending ∧ (noteFinding u f
      s).boot = s.boot ∧ (noteFinding u f s).flash = s.flash ∧ (noteFinding u f s).mem.cells = s.mem.cells ∧ (noteFinding u f s).mem.undef =
      s.mem.undef := by
  unfold noteFinding
  (repeat' split) <;> simp

@[simp] theorem unbindNames_keeps (die : Nat) (letter : Nat) (num : Nat) (s : State) :
    (unbindNames die letter num s).beat = s.beat ∧ (unbindNames die letter num s).pwr = s.pwr ∧ (unbindNames die letter num s).thm = s.thm
      ∧ (unbindNames die letter num s).hlth = s.hlth ∧ (unbindNames die letter num s).rime = s.rime ∧ (unbindNames die letter num s).net =
      s.net ∧ (unbindNames die letter num s).sori = s.sori ∧ (unbindNames die letter num s).models = s.models ∧ (unbindNames die letter num
      s).serve = s.serve ∧ (unbindNames die letter num s).jobs = s.jobs ∧ (unbindNames die letter num s).fab = s.fab ∧ (unbindNames die
      letter num s).out = s.out ∧ (unbindNames die letter num s).fresh = s.fresh ∧ (unbindNames die letter num s).pins = s.pins ∧
      (unbindNames die letter num s).pending = s.pending ∧ (unbindNames die letter num s).boot = s.boot ∧ (unbindNames die letter num
      s).flash = s.flash ∧ (unbindNames die letter num s).mem = s.mem := by
  unfold unbindNames
  (repeat' split) <;> simp

@[simp] theorem loseTaker_keeps (u : HwUnit) (s : State) :
    (loseTaker u s).beat = s.beat ∧ (loseTaker u s).pwr = s.pwr ∧ (loseTaker u s).thm = s.thm ∧ (loseTaker u s).hlth = s.hlth ∧ (loseTaker
      u s).rime = s.rime ∧ (loseTaker u s).sori = s.sori ∧ (loseTaker u s).models = s.models ∧ (loseTaker u s).serve = s.serve ∧ (loseTaker
      u s).fresh = s.fresh ∧ (loseTaker u s).pins = s.pins ∧ (loseTaker u s).pending = s.pending ∧ (loseTaker u s).boot = s.boot ∧
      (loseTaker u s).flash = s.flash ∧ (loseTaker u s).mem = s.mem := by
  unfold loseTaker
  (repeat' split) <;> simp

@[simp] theorem suspectUnit_keeps (u : HwUnit) (f : Finding) (hard : Bool) (s : State) :
    (suspectUnit u f hard s).beat = s.beat ∧ (suspectUnit u f hard s).pwr = s.pwr ∧ (suspectUnit u f hard s).thm = s.thm ∧ (suspectUnit u
      f hard s).sori = s.sori ∧ (suspectUnit u f hard s).models = s.models ∧ (suspectUnit u f hard s).serve = s.serve ∧ (suspectUnit u f
      hard s).pins = s.pins ∧ (suspectUnit u f hard s).pending = s.pending ∧ (suspectUnit u f hard s).boot = s.boot ∧ (suspectUnit u f hard
      s).flash.counters = s.flash.counters ∧ (suspectUnit u f hard s).flash.install = s.flash.install ∧ (suspectUnit u f hard
      s).flash.serial = s.flash.serial ∧ (suspectUnit u f hard s).mem.cells = s.mem.cells ∧ (suspectUnit u f hard s).mem.undef = s.mem.undef := by
  unfold suspectUnit
  (repeat' split) <;> (try simp) <;> (repeat' split) <;> (try simp) <;> (repeat' split) <;> (try simp_all)

@[simp] theorem chargeFinding_keeps (u : HwUnit) (f : Finding) (s : State) :
    (chargeFinding u f s).beat = s.beat ∧ (chargeFinding u f s).pwr = s.pwr ∧ (chargeFinding u f s).thm = s.thm ∧ (chargeFinding u f
      s).sori = s.sori ∧ (chargeFinding u f s).models = s.models ∧ (chargeFinding u f s).serve = s.serve ∧ (chargeFinding u f s).pins =
      s.pins ∧ (chargeFinding u f s).pending = s.pending ∧ (chargeFinding u f s).boot = s.boot ∧ (chargeFinding u f s).flash.counters =
      s.flash.counters ∧ (chargeFinding u f s).flash.install = s.flash.install ∧ (chargeFinding u f s).flash.serial = s.flash.serial ∧
      (chargeFinding u f s).mem.cells = s.mem.cells ∧ (chargeFinding u f s).mem.undef = s.mem.undef := by
  unfold chargeFinding
  (repeat' split) <;> (try simp) <;> (repeat' split) <;> (try simp) <;> (repeat' split) <;> (try simp_all)

theorem writeOne_keeps (c : Cmd) (o : Origin) (w : MemWrite) (s : State) :
    ∀ t, writeOne c o w s = .ok t → t.beat = s.beat ∧ t.pwr = s.pwr ∧ t.thm = s.thm ∧ t.hlth = s.hlth ∧ t.rime = s.rime ∧ t.stns = s.stns
      ∧ t.net = s.net ∧ t.sori = s.sori ∧ t.models = s.models ∧ t.serve = s.serve ∧ t.fresh = s.fresh ∧ t.pins = s.pins ∧ t.pending =
      s.pending ∧ t.boot = s.boot ∧ t.flash = s.flash ∧ t.mem.undef = s.mem.undef := by
  unfold writeOne
  (repeat' split) <;> grind [storeTo_keeps, applyWrite_keeps, issueAccess_keeps]

theorem readOne_keeps (c : Cmd) (o : Origin) (st : Nat) (serial : Nat) (r : MemRead) (s : State) :
    ∀ t, readOne c o st serial r s = .ok t → t.beat = s.beat ∧ t.pwr = s.pwr ∧ t.thm = s.thm ∧ t.hlth = s.hlth ∧ t.rime = s.rime ∧ t.stns
      = s.stns ∧ t.net = s.net ∧ t.sori = s.sori ∧ t.models = s.models ∧ t.serve = s.serve ∧ t.fresh = s.fresh ∧ t.pins = s.pins ∧ t.pending
      = s.pending ∧ t.boot = s.boot ∧ t.flash = s.flash ∧ t.mem.undef = s.mem.undef := by
  unfold readOne
  (repeat' split) <;> grind [loadTo_keeps, deliver_keeps, loadPiece_keeps]

@[simp] theorem countMade_keeps (p : Place) (m : Made) (s : State) :
    (countMade p m s).beat = s.beat ∧ (countMade p m s).pwr = s.pwr ∧ (countMade p m s).thm = s.thm ∧ (countMade p m s).hlth = s.hlth ∧
      (countMade p m s).rime = s.rime ∧ (countMade p m s).net = s.net ∧ (countMade p m s).sori = s.sori ∧ (countMade p m s).models =
      s.models ∧ (countMade p m s).serve = s.serve ∧ (countMade p m s).jobs = s.jobs ∧ (countMade p m s).fab = s.fab ∧ (countMade p m s).out
      = s.out ∧ (countMade p m s).fresh = s.fresh ∧ (countMade p m s).pins = s.pins ∧ (countMade p m s).pending = s.pending ∧ (countMade p m
      s).boot = s.boot ∧ (countMade p m s).flash = s.flash ∧ (countMade p m s).mem = s.mem := by
  unfold countMade
  first
  | (simp; done)
  | ((repeat' split) <;> simp; done)
  | ((repeat' split) <;> (try simp) <;> (repeat' split) <;> (try simp) <;> (repeat' split) <;> (try simp_all); done)

@[simp] theorem chargeMismatch_keeps (p : Place) (m : Made) (s : State) :
    (chargeMismatch p m s).beat = s.beat ∧ (chargeMismatch p m s).pwr = s.pwr ∧ (chargeMismatch p m s).thm = s.thm ∧ (chargeMismatch p m
      s).sori = s.sori ∧ (chargeMismatch p m s).models = s.models ∧ (chargeMismatch p m s).serve = s.serve ∧ (chargeMismatch p m s).pins =
      s.pins ∧ (chargeMismatch p m s).pending = s.pending ∧ (chargeMismatch p m s).boot = s.boot ∧ (chargeMismatch p m s).flash.counters =
      s.flash.counters ∧ (chargeMismatch p m s).flash.install = s.flash.install ∧ (chargeMismatch p m s).flash.serial = s.flash.serial ∧
      (chargeMismatch p m s).mem.cells = s.mem.cells ∧ (chargeMismatch p m s).mem.undef = s.mem.undef := by
  unfold chargeMismatch
  first
  | (simp; done)
  | ((repeat' split) <;> simp; done)
  | ((repeat' split) <;> (try simp) <;> (repeat' split) <;> (try simp) <;> (repeat' split) <;> (try simp_all); done)

@[simp] theorem applyMade_keeps (p : Place) (c : Cmd) (l : ListSt) (i : Nat) (m : Made) (s : State) :
    (applyMade p c l i m s).beat = s.beat ∧ (applyMade p c l i m s).thm = s.thm ∧ (applyMade p c l i m s).sori = s.sori ∧ (applyMade p c l
      i m s).pins = s.pins ∧ (applyMade p c l i m s).pending = s.pending ∧ (applyMade p c l i m s).boot = s.boot ∧ (applyMade p c l i m
      s).flash.counters = s.flash.counters ∧ (applyMade p c l i m s).flash.install = s.flash.install ∧ (applyMade p c l i m s).flash.serial
      = s.flash.serial ∧ (applyMade p c l i m s).mem.undef = s.mem.undef := by
  have h1 := eachMove_keeps (fun s : State => (s.beat, s.thm, s.sori, s.pins, s.pending, s.boot, s.flash.counters, s.flash.install, s.flash.serial, s.mem.undef)) (writeOne c (originOf c l i))
    (fun x u v hv => by have h2 := writeOne_keeps _ _ _ _ _ hv; simp_all) m.writes
  have h3 := fun o st n => eachMove_keeps (fun s : State => (s.beat, s.thm, s.sori, s.pins, s.pending, s.boot, s.flash.counters, s.flash.install, s.flash.serial, s.mem.undef)) (readOne c o st n)
    (fun x u v hv => by have h2 := readOne_keeps _ _ _ _ _ _ _ hv; simp_all) m.reads
  have h4 : ∀ o st n u, (fun s : State => (s.beat, s.thm, s.sori, s.pins, s.pending, s.boot, s.flash.counters, s.flash.install, s.flash.serial, s.mem.undef)) (readAll c o st n m.reads u).2 = (fun s : State => (s.beat, s.thm, s.sori, s.pins, s.pending, s.boot, s.flash.counters, s.flash.install, s.flash.serial, s.mem.undef)) u ∧
      ∀ t, (readAll c o st n m.reads u).1 = .ok t → (fun s : State => (s.beat, s.thm, s.sori, s.pins, s.pending, s.boot, s.flash.counters, s.flash.install, s.flash.serial, s.mem.undef)) t = (fun s : State => (s.beat, s.thm, s.sori, s.pins, s.pending, s.boot, s.flash.counters, s.flash.install, s.flash.serial, s.mem.undef)) u := by
    intro o st n u
    unfold readAll
    split
    · exact h3 _ _ _ u
    · simp
  unfold applyMade
  dsimp only
  generalize hs : setList c.id p.code _ s = s1
  have h0 : (fun s : State => (s.beat, s.thm, s.sori, s.pins, s.pending, s.boot, s.flash.counters, s.flash.install, s.flash.serial, s.mem.undef)) s1 = (fun s : State => (s.beat, s.thm, s.sori, s.pins, s.pending, s.boot, s.flash.counters, s.flash.install, s.flash.serial, s.mem.undef)) s := by rw [← hs]; simp
  split
  · rename_i e; have h5 := (h1 s1).1; rw [e] at h5; simp_all
  · rename_i e; have h5 := (h1 s1).2 _ (by rw [e])
    split
    · rename_i e2; have h6 := (congrArg (fun x => (fun s : State => (s.beat, s.thm, s.sori, s.pins, s.pending, s.boot, s.flash.counters, s.flash.install, s.flash.serial, s.mem.undef)) x.2) e2).symm.trans (h4 _ _ _ _).1; clear e2 h4 h3 h1; simp_all
    · rename_i e2; have h6 := (h4 _ _ _ _).2 _ (congrArg Prod.fst e2); simp_all

@[simp] theorem setEntry_keeps (id : Nat) (code : Nat) (i : Nat) (f : QEntry → QEntry) (s : State) :
    (setEntry id code i f s).beat = s.beat ∧ (setEntry id code i f s).pwr = s.pwr ∧ (setEntry id code i f s).thm = s.thm ∧ (setEntry id
      code i f s).hlth = s.hlth ∧ (setEntry id code i f s).rime = s.rime ∧ (setEntry id code i f s).stns = s.stns ∧ (setEntry id code i f
      s).net = s.net ∧ (setEntry id code i f s).sori = s.sori ∧ (setEntry id code i f s).models = s.models ∧ (setEntry id code i f s).serve
      = s.serve ∧ (setEntry id code i f s).fab = s.fab ∧ (setEntry id code i f s).out = s.out ∧ (setEntry id code i f s).fresh = s.fresh ∧
      (setEntry id code i f s).pins = s.pins ∧ (setEntry id code i f s).pending = s.pending ∧ (setEntry id code i f s).boot = s.boot ∧
      (setEntry id code i f s).flash = s.flash ∧ (setEntry id code i f s).mem = s.mem := by
  unfold setEntry
  simp

@[simp] theorem absorb_keeps (p : Place) (c : Cmd) (i : Nat) (port : Nat) (s : State) :
    (absorb p c i port s).beat = s.beat ∧ (absorb p c i port s).pwr = s.pwr ∧ (absorb p c i port s).thm = s.thm ∧ (absorb p c i port
      s).hlth = s.hlth ∧ (absorb p c i port s).rime = s.rime ∧ (absorb p c i port s).stns = s.stns ∧ (absorb p c i port s).net = s.net ∧
      (absorb p c i port s).sori = s.sori ∧ (absorb p c i port s).models = s.models ∧ (absorb p c i port s).serve = s.serve ∧ (absorb p c i
      port s).fab = s.fab ∧ (absorb p c i port s).out = s.out ∧ (absorb p c i port s).fresh = s.fresh ∧ (absorb p c i port s).pins = s.pins
      ∧ (absorb p c i port s).pending = s.pending ∧ (absorb p c i port s).boot = s.boot ∧ (absorb p c i port s).flash = s.flash ∧ (absorb p
      c i port s).mem = s.mem := by
  unfold absorb
  first
  | (simp; done)
  | ((repeat' split) <;> simp; done)
  | ((repeat' split) <;> (try simp) <;> (repeat' split) <;> (try simp) <;> (repeat' split) <;> (try simp_all); done)

@[simp] theorem countNoted_keeps (p : Place) (c : Cmd) (i : Nat) (n : Nat) (e : QEntry) (s : State) :
    (countNoted p c i n e s).beat = s.beat ∧ (countNoted p c i n e s).pwr = s.pwr ∧ (countNoted p c i n e s).thm = s.thm ∧ (countNoted p c
      i n e s).hlth = s.hlth ∧ (countNoted p c i n e s).rime = s.rime ∧ (countNoted p c i n e s).net = s.net ∧ (countNoted p c i n e s).sori
      = s.sori ∧ (countNoted p c i n e s).models = s.models ∧ (countNoted p c i n e s).serve = s.serve ∧ (countNoted p c i n e s).fab =
      s.fab ∧ (countNoted p c i n e s).out = s.out ∧ (countNoted p c i n e s).fresh = s.fresh ∧ (countNoted p c i n e s).pins = s.pins ∧
      (countNoted p c i n e s).pending = s.pending ∧ (countNoted p c i n e s).boot = s.boot ∧ (countNoted p c i n e s).flash = s.flash ∧
      (countNoted p c i n e s).mem = s.mem := by
  unfold countNoted
  first
  | (simp; done)
  | ((repeat' split) <;> simp; done)
  | ((repeat' split) <;> (try simp) <;> (repeat' split) <;> (try simp) <;> (repeat' split) <;> (try simp_all); done)

@[simp] theorem turn_keeps (p : Place) (body : DBody) (op : Bench → Work) (note : Bench → Nat) (s : State) :
    (turn p body op note s).1.beat = s.beat ∧ (turn p body op note s).1.thm = s.thm ∧ (turn p body op note s).1.sori = s.sori ∧ (turn p
      body op note s).1.pins = s.pins ∧ (turn p body op note s).1.pending = s.pending ∧ (turn p body op note s).1.boot = s.boot ∧ (turn p
      body op note s).1.flash.counters = s.flash.counters ∧ (turn p body op note s).1.flash.install = s.flash.install ∧ (turn p body op note
      s).1.flash.serial = s.flash.serial ∧ (turn p body op note s).1.mem.undef = s.mem.undef := by
  unfold turn
  (repeat' split) <;> (try simp) <;> (repeat' split) <;> (try simp) <;> (repeat' split) <;> simp

@[simp] theorem turns_keeps (p : Place) (body : DBody) (op : Bench → Work) (note : Bench → Nat) (x1 : Nat) (x2 : State) :
    (turns p body op note x1 x2).beat = x2.beat ∧ (turns p body op note x1 x2).thm = x2.thm ∧ (turns p body op note x1 x2).sori = x2.sori
      ∧ (turns p body op note x1 x2).pins = x2.pins ∧ (turns p body op note x1 x2).pending = x2.pending ∧ (turns p body op note x1 x2).boot
      = x2.boot ∧ (turns p body op note x1 x2).flash.counters = x2.flash.counters ∧ (turns p body op note x1 x2).flash.install =
      x2.flash.install ∧ (turns p body op note x1 x2).flash.serial = x2.flash.serial ∧ (turns p body op note x1 x2).mem.undef = x2.mem.undef := by
  induction x1 generalizing x2 with
  | zero => simp [turns]
  | succ n ih =>
    unfold turns
    have h := turn_keeps p body op note x2
    split
    · rename_i e; rw [e] at h; have h2 := ih; simp_all
    · rename_i e; rw [e] at h; exact h

@[simp] theorem runNoted_keeps (p : Place) (body : DBody) (op : Bench → Work) (note : Bench → Nat) (s : State) :
    (runNoted p body op note s).beat = s.beat ∧ (runNoted p body op note s).thm = s.thm ∧ (runNoted p body op note s).sori = s.sori ∧
      (runNoted p body op note s).pins = s.pins ∧ (runNoted p body op note s).pending = s.pending ∧ (runNoted p body op note s).boot =
      s.boot ∧ (runNoted p body op note s).flash.counters = s.flash.counters ∧ (runNoted p body op note s).flash.install = s.flash.install ∧
      (runNoted p body op note s).flash.serial = s.flash.serial ∧ (runNoted p body op note s).mem.undef = s.mem.undef := by
  unfold runNoted
  simp

@[simp] theorem runStation_keeps (p : Place) (body : DBody) (op : Bench → Work) (s : State) :
    (runStation p body op s).beat = s.beat ∧ (runStation p body op s).thm = s.thm ∧ (runStation p body op s).sori = s.sori ∧ (runStation p
      body op s).pins = s.pins ∧ (runStation p body op s).pending = s.pending ∧ (runStation p body op s).boot = s.boot ∧ (runStation p body
      op s).flash.counters = s.flash.counters ∧ (runStation p body op s).flash.install = s.flash.install ∧ (runStation p body op
      s).flash.serial = s.flash.serial ∧ (runStation p body op s).mem.undef = s.mem.undef := by
  unfold runStation
  simp

@[simp] theorem endRom_keeps (inp : StageInput) (s : State) :
    (endRom inp s).beat = s.beat ∧ (endRom inp s).pwr = s.pwr ∧ (endRom inp s).thm = s.thm ∧ (endRom inp s).hlth = s.hlth ∧ (endRom inp
      s).stns = s.stns ∧ (endRom inp s).sori = s.sori ∧ (endRom inp s).models = s.models ∧ (endRom inp s).serve = s.serve ∧ (endRom inp
      s).jobs = s.jobs ∧ (endRom inp s).out = s.out ∧ (endRom inp s).fresh = s.fresh ∧ (endRom inp s).pending = s.pending ∧ (endRom inp
      s).flash = s.flash ∧ (endRom inp s).mem = s.mem := by
  unfold endRom
  (repeat' split) <;> simp

@[simp] theorem sendRounds_keeps (c : Cmd) (o : Origin) (p : Place) (f : ZXchgF) (modelId : Nat) (buf : List Byte) (n : Nat) (s : State) :
    (sendRounds c o p f modelId buf n s).beat = s.beat ∧ (sendRounds c o p f modelId buf n s).thm = s.thm ∧ (sendRounds c o p f modelId
      buf n s).hlth = s.hlth ∧ (sendRounds c o p f modelId buf n s).sori = s.sori ∧ (sendRounds c o p f modelId buf n s).fresh = s.fresh ∧
      (sendRounds c o p f modelId buf n s).pins = s.pins ∧ (sendRounds c o p f modelId buf n s).pending = s.pending ∧ (sendRounds c o p f
      modelId buf n s).boot = s.boot ∧ (sendRounds c o p f modelId buf n s).flash.counters = s.flash.counters ∧ (sendRounds c o p f modelId
      buf n s).flash.install = s.flash.install ∧ (sendRounds c o p f modelId buf n s).flash.serial = s.flash.serial ∧ (sendRounds c o p f
      modelId buf n s).mem.undef = s.mem.undef := by
  unfold sendRounds
  (repeat' split) <;> (try simp (disch := ((try intros); (repeat' split) <;> (try simp)))) <;> (repeat' split) <;> (try simp (disch := ((try intros); (repeat' split) <;> (try simp)))) <;> (repeat' split) <;> (try simp_all)

@[simp] theorem freshNames_keeps (s : State) :
    (freshNames s).beat = s.beat ∧ (freshNames s).pwr = s.pwr ∧ (freshNames s).thm = s.thm ∧ (freshNames s).hlth = s.hlth ∧ (freshNames
      s).rime = s.rime ∧ (freshNames s).net = s.net ∧ (freshNames s).sori = s.sori ∧ (freshNames s).models = s.models ∧ (freshNames s).serve
      = s.serve ∧ (freshNames s).jobs = s.jobs ∧ (freshNames s).fab = s.fab ∧ (freshNames s).out = s.out ∧ (freshNames s).fresh = s.fresh ∧
      (freshNames s).pins = s.pins ∧ (freshNames s).pending = s.pending ∧ (freshNames s).boot = s.boot ∧ (freshNames s).flash = s.flash ∧
      (freshNames s).mem = s.mem := by
  unfold freshNames
  simp

@[simp] theorem setShard_keeps (modelId : Nat) (slot : Option Nat) (index : Nat) (f : ShardSt → ShardSt) (s : State) :
    (setShard modelId slot index f s).beat = s.beat ∧ (setShard modelId slot index f s).pwr = s.pwr ∧ (setShard modelId slot index f
      s).thm = s.thm ∧ (setShard modelId slot index f s).hlth = s.hlth ∧ (setShard modelId slot index f s).rime = s.rime ∧ (setShard modelId
      slot index f s).stns = s.stns ∧ (setShard modelId slot index f s).net = s.net ∧ (setShard modelId slot index f s).sori = s.sori ∧
      (setShard modelId slot index f s).serve = s.serve ∧ (setShard modelId slot index f s).jobs = s.jobs ∧ (setShard modelId slot index f
      s).fab = s.fab ∧ (setShard modelId slot index f s).out = s.out ∧ (setShard modelId slot index f s).fresh = s.fresh ∧ (setShard modelId
      slot index f s).pins = s.pins ∧ (setShard modelId slot index f s).pending = s.pending ∧ (setShard modelId slot index f s).boot =
      s.boot ∧ (setShard modelId slot index f s).flash = s.flash ∧ (setShard modelId slot index f s).mem = s.mem := by
  unfold setShard
  (repeat' split) <;> simp

@[simp] theorem moveFrond_keeps (die : Nat) (num : Nat) (s : State) :
    (moveFrond die num s).1.beat = s.beat ∧ (moveFrond die num s).1.pwr = s.pwr ∧ (moveFrond die num s).1.thm = s.thm ∧ (moveFrond die num
      s).1.hlth = s.hlth ∧ (moveFrond die num s).1.rime = s.rime ∧ (moveFrond die num s).1.net = s.net ∧ (moveFrond die num s).1.sori =
      s.sori ∧ (moveFrond die num s).1.models = s.models ∧ (moveFrond die num s).1.serve = s.serve ∧ (moveFrond die num s).1.jobs = s.jobs ∧
      (moveFrond die num s).1.fab = s.fab ∧ (moveFrond die num s).1.out = s.out ∧ (moveFrond die num s).1.fresh = s.fresh ∧ (moveFrond die
      num s).1.pins = s.pins ∧ (moveFrond die num s).1.pending = s.pending ∧ (moveFrond die num s).1.boot = s.boot ∧ (moveFrond die num
      s).1.flash = s.flash ∧ (moveFrond die num s).1.mem = s.mem := by
  unfold moveFrond
  split
  · simp
  · rename_i e _
    have h := foldl_fst_keeps (fun s : State => (s.beat, s.pwr, s.thm, s.hlth, s.rime, s.net, s.sori, s.models, s.serve, s.jobs, s.fab, s.out, s.fresh, s.pins, s.pending, s.boot, s.flash, s.mem)) (fun (r : State × Nat) name =>
      let s := setStn die 0 num (fun e => { e with names := [] }) r.1
      match spareFrond s die with
      | some k =>
        let s := setStn die 0 k (fun x => { x with names := [name], state := 0 }) s
        ({ s with stns := { s.stns with
            cfg := updBy (fun c => c.die = die && c.num = name) (fun c => { c with phys := k }) s.stns.cfg } }, sourceCode die 0 k)
      | none =>
        ({ s with stns := { s.stns with
            cfg := updBy (fun c => c.die = die && c.num = name) (fun c => { c with unbound := true }) s.stns.cfg } }, 0xFFFF))
      (by intro r name; dsimp only; split <;> simp) e.names (s, 0xFFFF)
    simp only [Prod.mk.injEq] at h
    exact h

@[simp] theorem movePartner_keeps (die : Nat) (letter : Nat) (num : Nat) (s : State) :
    (movePartner die letter num s).1.beat = s.beat ∧ (movePartner die letter num s).1.pwr = s.pwr ∧ (movePartner die letter num s).1.thm =
      s.thm ∧ (movePartner die letter num s).1.hlth = s.hlth ∧ (movePartner die letter num s).1.rime = s.rime ∧ (movePartner die letter num
      s).1.net = s.net ∧ (movePartner die letter num s).1.sori = s.sori ∧ (movePartner die letter num s).1.models = s.models ∧ (movePartner
      die letter num s).1.serve = s.serve ∧ (movePartner die letter num s).1.jobs = s.jobs ∧ (movePartner die letter num s).1.fab = s.fab ∧
      (movePartner die letter num s).1.out = s.out ∧ (movePartner die letter num s).1.fresh = s.fresh ∧ (movePartner die letter num
      s).1.pins = s.pins ∧ (movePartner die letter num s).1.pending = s.pending ∧ (movePartner die letter num s).1.boot = s.boot ∧
      (movePartner die letter num s).1.flash = s.flash ∧ (movePartner die letter num s).1.mem = s.mem := by
  unfold movePartner
  split
  · simp
  · rename_i e _
    have h := foldl_fst_keeps (fun s : State => (s.beat, s.pwr, s.thm, s.hlth, s.rime, s.net, s.sori, s.models, s.serve, s.jobs, s.fab, s.out, s.fresh, s.pins, s.pending, s.boot, s.flash, s.mem)) (fun (r : State × Nat) name =>
      let s := setStn die letter num (fun e => { e with names := [] }) r.1
      match partnerOf s die letter num with
      | some p =>
        if p.names.length < 2 then
          (setStn die letter p.num (fun x => { x with names := x.names ++ [name], state := 0 }) s, sourceCode die letter p.num)
        else ({ s with stns := { s.stns with unbound := s.stns.unbound ++ [(die, letter, name)] } }, r.2)
      | none => ({ s with stns := { s.stns with unbound := s.stns.unbound ++ [(die, letter, name)] } }, r.2))
      (by intro r name; dsimp only; split <;> (try split) <;> simp) e.names (s, 0xFFFF)
    simp only [Prod.mk.injEq] at h
    exact h

@[simp] theorem applyMap_keeps (s : State) (e : MapEntry) :
    (applyMap s e).beat = s.beat ∧ (applyMap s e).pwr = s.pwr ∧ (applyMap s e).thm = s.thm ∧ (applyMap s e).rime = s.rime ∧ (applyMap s
      e).net = s.net ∧ (applyMap s e).sori = s.sori ∧ (applyMap s e).models = s.models ∧ (applyMap s e).serve = s.serve ∧ (applyMap s
      e).jobs = s.jobs ∧ (applyMap s e).out = s.out ∧ (applyMap s e).fresh = s.fresh ∧ (applyMap s e).pins = s.pins ∧ (applyMap s e).pending
      = s.pending ∧ (applyMap s e).boot = s.boot ∧ (applyMap s e).flash = s.flash ∧ (applyMap s e).mem.cells = s.mem.cells ∧ (applyMap s
      e).mem.undef = s.mem.undef := by
  unfold applyMap
  (repeat' split) <;> simp

@[simp] theorem sendCounts_keeps (c : Cmd) (f : ZXchgF) (modelId : Nat) (es : List (Nat × Nat × Nat × Nat)) (s : State) :
    (sendCounts c f modelId es s).beat = s.beat ∧ (sendCounts c f modelId es s).pwr = s.pwr ∧ (sendCounts c f modelId es s).thm = s.thm ∧
      (sendCounts c f modelId es s).hlth = s.hlth ∧ (sendCounts c f modelId es s).rime = s.rime ∧ (sendCounts c f modelId es s).stns =
      s.stns ∧ (sendCounts c f modelId es s).net = s.net ∧ (sendCounts c f modelId es s).sori = s.sori ∧ (sendCounts c f modelId es
      s).models = s.models ∧ (sendCounts c f modelId es s).serve = s.serve ∧ (sendCounts c f modelId es s).jobs = s.jobs ∧ (sendCounts c f
      modelId es s).fresh = s.fresh ∧ (sendCounts c f modelId es s).pins = s.pins ∧ (sendCounts c f modelId es s).pending = s.pending ∧
      (sendCounts c f modelId es s).boot = s.boot ∧ (sendCounts c f modelId es s).flash = s.flash ∧ (sendCounts c f modelId es s).mem =
      s.mem := by
  unfold sendCounts
  simp

@[simp] theorem countMoved_keeps (p : Place) (n : Nat) (s : State) :
    (countMoved p n s).beat = s.beat ∧ (countMoved p n s).pwr = s.pwr ∧ (countMoved p n s).thm = s.thm ∧ (countMoved p n s).hlth = s.hlth
      ∧ (countMoved p n s).rime = s.rime ∧ (countMoved p n s).net = s.net ∧ (countMoved p n s).sori = s.sori ∧ (countMoved p n s).models =
      s.models ∧ (countMoved p n s).serve = s.serve ∧ (countMoved p n s).jobs = s.jobs ∧ (countMoved p n s).fab = s.fab ∧ (countMoved p n
      s).out = s.out ∧ (countMoved p n s).fresh = s.fresh ∧ (countMoved p n s).pins = s.pins ∧ (countMoved p n s).pending = s.pending ∧
      (countMoved p n s).boot = s.boot ∧ (countMoved p n s).flash = s.flash ∧ (countMoved p n s).mem = s.mem := by
  unfold countMoved
  simp

@[simp] theorem ownSorus_keeps (i : Instr) (h : Hdr) (op : Nat) (prep : Prep) (s : State) (hP : ∀ a b u, (prep a b u).1.beat = u.beat ∧
    (prep a b u).1.pwr = u.pwr ∧ (prep a b u).1.thm = u.thm ∧ (prep a b u).1.hlth = u.hlth ∧ (prep a b u).1.rime = u.rime ∧ (prep a b
    u).1.stns = u.stns ∧ (prep a b u).1.models = u.models ∧ (prep a b u).1.serve = u.serve ∧ (prep a b u).1.jobs = u.jobs ∧ (prep a b u).1.fab
    = u.fab ∧ (prep a b u).1.pins = u.pins ∧ (prep a b u).1.pending = u.pending ∧ (prep a b u).1.boot = u.boot ∧ (prep a b u).1.flash =
    u.flash ∧ (prep a b u).1.mem = u.mem) :
    (ownSorus i h op prep s).beat = s.beat ∧ (ownSorus i h op prep s).pwr = s.pwr ∧ (ownSorus i h op prep s).thm = s.thm ∧ (ownSorus i h
      op prep s).hlth = s.hlth ∧ (ownSorus i h op prep s).rime = s.rime ∧ (ownSorus i h op prep s).stns = s.stns ∧ (ownSorus i h op prep
      s).models = s.models ∧ (ownSorus i h op prep s).serve = s.serve ∧ (ownSorus i h op prep s).jobs = s.jobs ∧ (ownSorus i h op prep
      s).fab = s.fab ∧ (ownSorus i h op prep s).pins = s.pins ∧ (ownSorus i h op prep s).pending = s.pending ∧ (ownSorus i h op prep s).boot
      = s.boot ∧ (ownSorus i h op prep s).flash = s.flash ∧ (ownSorus i h op prep s).mem = s.mem := by
  unfold ownSorus draw
  dsimp only
  split
  · rename_i u h; have h1 := hP (2 ^ 32 + s.fresh) 0 { s with fresh := s.fresh + 1 }; rw [h] at h1; simp_all
  · rename_i u st d h; have h1 := hP (2 ^ 32 + s.fresh) 0 { s with fresh := s.fresh + 1 }; rw [h] at h1; split <;> simp_all

@[simp] theorem plainPrep_keeps (f : State → Option (Nat × Nat)) (x1 : Nat) (x2 : Nat) (x3 : State) :
    (plainPrep f x1 x2 x3).1.beat = x3.beat ∧ (plainPrep f x1 x2 x3).1.pwr = x3.pwr ∧ (plainPrep f x1 x2 x3).1.thm = x3.thm ∧ (plainPrep f
      x1 x2 x3).1.hlth = x3.hlth ∧ (plainPrep f x1 x2 x3).1.rime = x3.rime ∧ (plainPrep f x1 x2 x3).1.stns = x3.stns ∧ (plainPrep f x1 x2
      x3).1.net = x3.net ∧ (plainPrep f x1 x2 x3).1.sori = x3.sori ∧ (plainPrep f x1 x2 x3).1.models = x3.models ∧ (plainPrep f x1 x2
      x3).1.serve = x3.serve ∧ (plainPrep f x1 x2 x3).1.jobs = x3.jobs ∧ (plainPrep f x1 x2 x3).1.fab = x3.fab ∧ (plainPrep f x1 x2
      x3).1.out = x3.out ∧ (plainPrep f x1 x2 x3).1.fresh = x3.fresh ∧ (plainPrep f x1 x2 x3).1.pins = x3.pins ∧ (plainPrep f x1 x2
      x3).1.pending = x3.pending ∧ (plainPrep f x1 x2 x3).1.boot = x3.boot ∧ (plainPrep f x1 x2 x3).1.flash = x3.flash ∧ (plainPrep f x1 x2
      x3).1.mem = x3.mem := by
  unfold plainPrep
  simp

@[simp] theorem latchRead_keeps (requester : Nat) (o : Nat) (s : State) :
    (latchRead requester o s).beat = s.beat ∧ (latchRead requester o s).pwr = s.pwr ∧ (latchRead requester o s).thm = s.thm ∧ (latchRead
      requester o s).hlth = s.hlth ∧ (latchRead requester o s).rime = s.rime ∧ (latchRead requester o s).stns = s.stns ∧ (latchRead
      requester o s).sori = s.sori ∧ (latchRead requester o s).models = s.models ∧ (latchRead requester o s).serve = s.serve ∧ (latchRead
      requester o s).jobs = s.jobs ∧ (latchRead requester o s).fab = s.fab ∧ (latchRead requester o s).out = s.out ∧ (latchRead requester o
      s).fresh = s.fresh ∧ (latchRead requester o s).pins = s.pins ∧ (latchRead requester o s).pending = s.pending ∧ (latchRead requester o
      s).boot = s.boot ∧ (latchRead requester o s).flash = s.flash ∧ (latchRead requester o s).mem = s.mem := by
  unfold latchRead
  (repeat' split) <;> simp

@[simp] theorem readEffect_keeps (requester : Nat) (o : Nat) (s : State) :
    (readEffect requester o s).beat = s.beat ∧ (readEffect requester o s).pwr = s.pwr ∧ (readEffect requester o s).thm = s.thm ∧
      (readEffect requester o s).hlth = s.hlth ∧ (readEffect requester o s).rime = s.rime ∧ (readEffect requester o s).stns = s.stns ∧
      (readEffect requester o s).sori = s.sori ∧ (readEffect requester o s).models = s.models ∧ (readEffect requester o s).serve = s.serve ∧
      (readEffect requester o s).jobs = s.jobs ∧ (readEffect requester o s).fab = s.fab ∧ (readEffect requester o s).out = s.out ∧
      (readEffect requester o s).fresh = s.fresh ∧ (readEffect requester o s).pending = s.pending ∧ (readEffect requester o s).boot = s.boot
      ∧ (readEffect requester o s).flash = s.flash ∧ (readEffect requester o s).mem = s.mem := by
  unfold readEffect
  simp

@[simp] theorem readWords_keeps (requester : Nat) (o : Nat) (count : Nat) (s : State) :
    (readWords requester o count s).2.beat = s.beat ∧ (readWords requester o count s).2.pwr = s.pwr ∧ (readWords requester o count
      s).2.thm = s.thm ∧ (readWords requester o count s).2.hlth = s.hlth ∧ (readWords requester o count s).2.rime = s.rime ∧ (readWords
      requester o count s).2.stns = s.stns ∧ (readWords requester o count s).2.sori = s.sori ∧ (readWords requester o count s).2.models =
      s.models ∧ (readWords requester o count s).2.serve = s.serve ∧ (readWords requester o count s).2.jobs = s.jobs ∧ (readWords requester
      o count s).2.fab = s.fab ∧ (readWords requester o count s).2.out = s.out ∧ (readWords requester o count s).2.fresh = s.fresh ∧
      (readWords requester o count s).2.pending = s.pending ∧ (readWords requester o count s).2.boot = s.boot ∧ (readWords requester o count
      s).2.flash = s.flash ∧ (readWords requester o count s).2.mem = s.mem := by
  unfold readWords
  simp

@[simp] theorem placeDropped_keeps (c : Cmd) (p : Place) (f : ZXchgF) (buf : List Byte) (n : Nat) (x1 : Nat) (s : State) :
    (placeDropped c p f buf n x1 s).beat = s.beat ∧ (placeDropped c p f buf n x1 s).pwr = s.pwr ∧ (placeDropped c p f buf n x1 s).thm =
      s.thm ∧ (placeDropped c p f buf n x1 s).hlth = s.hlth ∧ (placeDropped c p f buf n x1 s).rime = s.rime ∧ (placeDropped c p f buf n x1
      s).net = s.net ∧ (placeDropped c p f buf n x1 s).sori = s.sori ∧ (placeDropped c p f buf n x1 s).models = s.models ∧ (placeDropped c p
      f buf n x1 s).serve = s.serve ∧ (placeDropped c p f buf n x1 s).out = s.out ∧ (placeDropped c p f buf n x1 s).fresh = s.fresh ∧
      (placeDropped c p f buf n x1 s).pins = s.pins ∧ (placeDropped c p f buf n x1 s).pending = s.pending ∧ (placeDropped c p f buf n x1
      s).boot = s.boot ∧ (placeDropped c p f buf n x1 s).flash = s.flash ∧ (placeDropped c p f buf n x1 s).mem.undef = s.mem.undef := by
  have h : (fun s : State => (s.beat, s.pwr, s.thm, s.hlth, s.rime, s.net, s.sori, s.models, s.serve, s.out, s.fresh, s.pins, s.pending, s.boot, s.flash, s.mem.undef)) (placeDropped c p f buf n x1 s) = (fun s : State => (s.beat, s.pwr, s.thm, s.hlth, s.rime, s.net, s.sori, s.models, s.serve, s.out, s.fresh, s.pins, s.pending, s.boot, s.flash, s.mem.undef)) s := by
    unfold placeDropped
    refine (foldl_keeps (fun s : State => (s.beat, s.pwr, s.thm, s.hlth, s.rime, s.net, s.sori, s.models, s.serve, s.out, s.fresh, s.pins, s.pending, s.boot, s.flash, s.mem.undef)) _ (fun s q => ?_) _ _).trans (by simp)
    dsimp only
    cases hr : storeRow c f.ret (windowImage f q x1) (x1 % 64) 0 0
      (Tag.word { tagOf ((bufferTile buf n q x1).row (x1 % 64)).tag with gen := c.gen, pad := true }) [] [] s with
    | none => simp
    | some t => have h1 := storeRow_keeps _ _ _ _ _ _ _ _ _ _ _ hr; simp_all
  simpa using h

@[simp] theorem spareAgain_keeps (s : State) (e : MapEntry) :
    (spareAgain s e).beat = s.beat ∧ (spareAgain s e).pwr = s.pwr ∧ (spareAgain s e).thm = s.thm ∧ (spareAgain s e).rime = s.rime ∧
      (spareAgain s e).net = s.net ∧ (spareAgain s e).sori = s.sori ∧ (spareAgain s e).models = s.models ∧ (spareAgain s e).serve = s.serve
      ∧ (spareAgain s e).jobs = s.jobs ∧ (spareAgain s e).out = s.out ∧ (spareAgain s e).fresh = s.fresh ∧ (spareAgain s e).pins = s.pins ∧
      (spareAgain s e).pending = s.pending ∧ (spareAgain s e).boot = s.boot ∧ (spareAgain s e).flash = s.flash ∧ (spareAgain s e).mem.cells
      = s.mem.cells ∧ (spareAgain s e).mem.undef = s.mem.undef := by
  unfold spareAgain
  first
  | (simp; done)
  | ((repeat' split) <;> simp; done)
  | ((repeat' split) <;> (try simp) <;> (repeat' split) <;> (try simp) <;> (repeat' split) <;> (try simp_all); done)

@[simp] theorem applyMaps_keeps (s : State) :
    (applyMaps s).beat = s.beat ∧ (applyMaps s).pwr = s.pwr ∧ (applyMaps s).thm = s.thm ∧ (applyMaps s).rime = s.rime ∧ (applyMaps s).net
      = s.net ∧ (applyMaps s).sori = s.sori ∧ (applyMaps s).models = s.models ∧ (applyMaps s).serve = s.serve ∧ (applyMaps s).jobs = s.jobs
      ∧ (applyMaps s).out = s.out ∧ (applyMaps s).fresh = s.fresh ∧ (applyMaps s).pins = s.pins ∧ (applyMaps s).pending = s.pending ∧
      (applyMaps s).boot = s.boot ∧ (applyMaps s).flash = s.flash ∧ (applyMaps s).mem.cells = s.mem.cells ∧ (applyMaps s).mem.undef =
      s.mem.undef := by
  unfold applyMaps
  simp

@[simp] theorem returnUnit_keeps (u : HwUnit) (marked : Bool) (s : State) :
    (returnUnit u marked s).beat = s.beat ∧ (returnUnit u marked s).pwr = s.pwr ∧ (returnUnit u marked s).thm = s.thm ∧ (returnUnit u
      marked s).rime = s.rime ∧ (returnUnit u marked s).net = s.net ∧ (returnUnit u marked s).sori = s.sori ∧ (returnUnit u marked s).models
      = s.models ∧ (returnUnit u marked s).serve = s.serve ∧ (returnUnit u marked s).jobs = s.jobs ∧ (returnUnit u marked s).out = s.out ∧
      (returnUnit u marked s).fresh = s.fresh ∧ (returnUnit u marked s).pins = s.pins ∧ (returnUnit u marked s).pending = s.pending ∧
      (returnUnit u marked s).boot = s.boot ∧ (returnUnit u marked s).flash = s.flash ∧ (returnUnit u marked s).mem.cells = s.mem.cells ∧
      (returnUnit u marked s).mem.undef = s.mem.undef := by
  unfold returnUnit
  (repeat' split) <;> simp

@[simp] theorem exonerateUnit_keeps (u : HwUnit) (s : State) :
    (exonerateUnit u s).beat = s.beat ∧ (exonerateUnit u s).pwr = s.pwr ∧ (exonerateUnit u s).thm = s.thm ∧ (exonerateUnit u s).net =
      s.net ∧ (exonerateUnit u s).sori = s.sori ∧ (exonerateUnit u s).models = s.models ∧ (exonerateUnit u s).serve = s.serve ∧
      (exonerateUnit u s).jobs = s.jobs ∧ (exonerateUnit u s).out = s.out ∧ (exonerateUnit u s).fresh = s.fresh ∧ (exonerateUnit u s).pins =
      s.pins ∧ (exonerateUnit u s).pending = s.pending ∧ (exonerateUnit u s).boot = s.boot ∧ (exonerateUnit u s).flash.counters =
      s.flash.counters ∧ (exonerateUnit u s).flash.install = s.flash.install ∧ (exonerateUnit u s).flash.serial = s.flash.serial ∧
      (exonerateUnit u s).mem.cells = s.mem.cells ∧ (exonerateUnit u s).mem.undef = s.mem.undef := by
  unfold exonerateUnit
  simp

@[simp] theorem takeEth_keeps (n : Nat) (s : State) :
    (takeEth n s).1.beat = s.beat ∧ (takeEth n s).1.pwr = s.pwr ∧ (takeEth n s).1.thm = s.thm ∧ (takeEth n s).1.hlth = s.hlth ∧ (takeEth n
      s).1.rime = s.rime ∧ (takeEth n s).1.stns = s.stns ∧ (takeEth n s).1.sori = s.sori ∧ (takeEth n s).1.models = s.models ∧ (takeEth n
      s).1.serve = s.serve ∧ (takeEth n s).1.jobs = s.jobs ∧ (takeEth n s).1.fab = s.fab ∧ (takeEth n s).1.out = s.out ∧ (takeEth n
      s).1.fresh = s.fresh ∧ (takeEth n s).1.pins = s.pins ∧ (takeEth n s).1.pending = s.pending ∧ (takeEth n s).1.boot = s.boot ∧ (takeEth
      n s).1.flash = s.flash ∧ (takeEth n s).1.mem = s.mem := by
  unfold takeEth execEthLinkLoss
  split
  · rename_i h; (repeat' split at h) <;> cases h <;> simp
  · simp

@[simp] theorem takeLane_keeps (port : Nat) (lane : Nat) (s : State) :
    (takeLane port lane s).1.beat = s.beat ∧ (takeLane port lane s).1.pwr = s.pwr ∧ (takeLane port lane s).1.thm = s.thm ∧ (takeLane port
      lane s).1.hlth = s.hlth ∧ (takeLane port lane s).1.stns = s.stns ∧ (takeLane port lane s).1.sori = s.sori ∧ (takeLane port lane
      s).1.models = s.models ∧ (takeLane port lane s).1.serve = s.serve ∧ (takeLane port lane s).1.jobs = s.jobs ∧ (takeLane port lane s).1.pins = s.pins ∧ (takeLane port lane s).1.pending = s.pending ∧ (takeLane port lane
      s).1.boot = s.boot ∧ (takeLane port lane s).1.flash.counters = s.flash.counters ∧ (takeLane port lane s).1.flash.install =
      s.flash.install ∧ (takeLane port lane s).1.flash.serial = s.flash.serial ∧ (takeLane port lane s).1.mem = s.mem := by
  unfold takeLane
  (repeat' split) <;> grind [setLink_keeps, enterState_keeps]

@[simp] theorem takeUnit_keeps (u : HwUnit) (s : State) :
    (takeUnit u s).1.beat = s.beat ∧ (takeUnit u s).1.pwr = s.pwr ∧ (takeUnit u s).1.thm = s.thm ∧ (takeUnit u s).1.sori = s.sori ∧
      (takeUnit u s).1.models = s.models ∧ (takeUnit u s).1.serve = s.serve ∧ (takeUnit u s).1.jobs = s.jobs ∧ (takeUnit u s).1.pins = s.pins ∧ (takeUnit u s).1.pending = s.pending ∧ (takeUnit u s).1.boot = s.boot ∧ (takeUnit u
      s).1.flash.counters = s.flash.counters ∧ (takeUnit u s).1.flash.install = s.flash.install ∧ (takeUnit u s).1.flash.serial =
      s.flash.serial ∧ (takeUnit u s).1.mem = s.mem := by
  unfold takeUnit
  (repeat' split) <;> simp

@[simp] theorem testedAtStart_keeps (failed : List HwUnit) (s : State) (u : HwUnit) :
    (testedAtStart failed s u).beat = s.beat ∧ (testedAtStart failed s u).pwr = s.pwr ∧ (testedAtStart failed s u).thm = s.thm ∧
      (testedAtStart failed s u).sori = s.sori ∧ (testedAtStart failed s u).models = s.models ∧ (testedAtStart failed s u).serve = s.serve ∧
      (testedAtStart failed s u).jobs = s.jobs ∧ (testedAtStart failed s u).pins = s.pins ∧ (testedAtStart failed s u).pending = s.pending ∧
      (testedAtStart failed s u).boot = s.boot ∧ (testedAtStart failed s u).flash.counters = s.flash.counters ∧ (testedAtStart failed s
      u).flash.install = s.flash.install ∧ (testedAtStart failed s u).flash.serial = s.flash.serial ∧ (testedAtStart failed s u).mem.cells =
      s.mem.cells ∧ (testedAtStart failed s u).mem.undef = s.mem.undef := by
  unfold testedAtStart
  (repeat' split) <;> simp

@[simp] theorem noteCounts_keeps (c : Cmd) (index : Nat) (layer : Nat) (xs : List (Nat × Nat × Nat)) (s : State) :
    (noteCounts c index layer xs s).beat = s.beat ∧ (noteCounts c index layer xs s).pwr = s.pwr ∧ (noteCounts c index layer xs s).thm =
      s.thm ∧ (noteCounts c index layer xs s).hlth = s.hlth ∧ (noteCounts c index layer xs s).rime = s.rime ∧ (noteCounts c index layer xs
      s).stns = s.stns ∧ (noteCounts c index layer xs s).net = s.net ∧ (noteCounts c index layer xs s).sori = s.sori ∧ (noteCounts c index
      layer xs s).models = s.models ∧ (noteCounts c index layer xs s).serve = s.serve ∧ (noteCounts c index layer xs s).fab = s.fab ∧
      (noteCounts c index layer xs s).out = s.out ∧ (noteCounts c index layer xs s).fresh = s.fresh ∧ (noteCounts c index layer xs s).pins =
      s.pins ∧ (noteCounts c index layer xs s).pending = s.pending ∧ (noteCounts c index layer xs s).boot = s.boot ∧ (noteCounts c index
      layer xs s).flash = s.flash ∧ (noteCounts c index layer xs s).mem = s.mem := by
  unfold noteCounts
  first
  | (simp; done)
  | ((repeat' split) <;> simp; done)
  | ((repeat' split) <;> (try simp) <;> (repeat' split) <;> (try simp) <;> (repeat' split) <;> (try simp_all); done)

@[simp] theorem beginSend_keeps (c : Cmd) (o : Origin) (p : Place) (f : ZXchgF) (m : Model) (l : Layer) (t : InstTable) (buf : List Byte) (n : Nat) (s : State) :
    (beginSend c o p f m l t buf n s).beat = s.beat ∧ (beginSend c o p f m l t buf n s).thm = s.thm ∧ (beginSend c o p f m l t buf n
      s).hlth = s.hlth ∧ (beginSend c o p f m l t buf n s).sori = s.sori ∧ (beginSend c o p f m l t buf n s).fresh = s.fresh ∧ (beginSend c
      o p f m l t buf n s).pins = s.pins ∧ (beginSend c o p f m l t buf n s).pending = s.pending ∧ (beginSend c o p f m l t buf n s).boot =
      s.boot ∧ (beginSend c o p f m l t buf n s).flash.counters = s.flash.counters ∧ (beginSend c o p f m l t buf n s).flash.install =
      s.flash.install ∧ (beginSend c o p f m l t buf n s).flash.serial = s.flash.serial ∧ (beginSend c o p f m l t buf n s).mem.undef =
      s.mem.undef := by
  unfold beginSend
  (repeat' split) <;> (try simp) <;> (repeat' split) <;> (try simp) <;> (repeat' split) <;> (try simp_all)

@[simp] theorem applyAt_keeps (job : Nat) (addr : Nat) (kind : AccessKind) (s : State) :
    (applyAt job addr kind s).1.beat = s.beat ∧ (applyAt job addr kind s).1.pwr = s.pwr ∧ (applyAt job addr kind s).1.thm = s.thm ∧
      (applyAt job addr kind s).1.hlth = s.hlth ∧ (applyAt job addr kind s).1.rime = s.rime ∧ (applyAt job addr kind s).1.stns = s.stns ∧
      (applyAt job addr kind s).1.net = s.net ∧ (applyAt job addr kind s).1.sori = s.sori ∧ (applyAt job addr kind s).1.models = s.models ∧
      (applyAt job addr kind s).1.serve = s.serve ∧ (applyAt job addr kind s).1.out = s.out ∧ (applyAt job addr kind s).1.pins = s.pins ∧ (applyAt job addr kind s).1.pending = s.pending ∧ (applyAt job addr kind s).1.boot =
      s.boot ∧ (applyAt job addr kind s).1.flash = s.flash ∧ (applyAt job addr kind s).1.mem.undef = s.mem.undef := by
  unfold applyAt
  (repeat' split) <;> (try simp) <;> (repeat' split) <;> simp

@[simp] theorem runSend_keeps (c : Cmd) (o : Origin) (p : Place) (i : Nat) (f : ZXchgF) (m : Model) (l : Layer) (t : InstTable) (buf : List Byte) (n : Nat) (s : State) :
    (runSend c o p i f m l t buf n s).beat = s.beat ∧ (runSend c o p i f m l t buf n s).thm = s.thm ∧ (runSend c o p i f m l t buf n
      s).hlth = s.hlth ∧ (runSend c o p i f m l t buf n s).sori = s.sori ∧ (runSend c o p i f m l t buf n s).fresh = s.fresh ∧ (runSend c o
      p i f m l t buf n s).pins = s.pins ∧ (runSend c o p i f m l t buf n s).pending = s.pending ∧ (runSend c o p i f m l t buf n s).boot =
      s.boot ∧ (runSend c o p i f m l t buf n s).flash.counters = s.flash.counters ∧ (runSend c o p i f m l t buf n s).flash.install =
      s.flash.install ∧ (runSend c o p i f m l t buf n s).flash.serial = s.flash.serial ∧ (runSend c o p i f m l t buf n s).mem.undef =
      s.mem.undef := by
  unfold runSend
  (repeat' split) <;> (try simp) <;> (repeat' split) <;> (try simp) <;> (repeat' split) <;> (try simp_all)

@[simp] theorem endStage1_keeps (inp : StageInput) (s : State) :
    (endStage1 inp s).beat = s.beat ∧ (endStage1 inp s).pwr = s.pwr ∧ (endStage1 inp s).thm = s.thm ∧ (endStage1 inp s).sori = s.sori ∧
      (endStage1 inp s).models = s.models ∧ (endStage1 inp s).serve = s.serve ∧ (endStage1 inp s).jobs = s.jobs ∧ (endStage1 inp s).pending
      = s.pending ∧ (endStage1 inp s).flash.counters = s.flash.counters ∧ (endStage1 inp s).flash.install = s.flash.install ∧ (endStage1 inp
      s).flash.serial = s.flash.serial ∧ (endStage1 inp s).mem.cells = s.mem.cells ∧ (endStage1 inp s).mem.undef = s.mem.undef := by
  unfold endStage1
  (repeat' split) <;> simp

theorem withSource_any {β : Type} (P : State → β) (c : Cmd) (o : Origin) (p : Place) (slot off n : Nat) (k : List Byte → State → State) (s : State)
    (hb : ∀ t, bufferRead c o p slot off n s = .ok t → P t = P s) (hf : ∀ cause, P (contextFault c.id cause p.code (some o.desc) s) = P s)
    (hp : ∀ u, P (progress c.id u) = P u) (hK : ∀ b u, P (k b u) = P u) : P (withSource c o p slot off n k s) = P s := by
  unfold withSource
  dsimp only
  split
  · exact hf _
  · rename_i u h
    have h1 : P u = P s := by
      split at h
      · injection h with h; rw [h]
      · exact hb u h
    split
    · exact h1
    · rw [hK, h1]

@[simp] theorem exchangeSend_keeps (c : Cmd) (o : Origin) (p : Place) (i : Nat) (f : ZXchgF) (m : Model) (l : Layer) (t : InstTable) (s : State) :
    (exchangeSend c o p i f m l t s).beat = s.beat ∧ (exchangeSend c o p i f m l t s).thm = s.thm ∧ (exchangeSend c o p i f m l t s).hlth
      = s.hlth ∧ (exchangeSend c o p i f m l t s).sori = s.sori ∧ (exchangeSend c o p i f m l t s).fresh = s.fresh ∧ (exchangeSend c o p i f
      m l t s).pins = s.pins ∧ (exchangeSend c o p i f m l t s).pending = s.pending ∧ (exchangeSend c o p i f m l t s).boot = s.boot ∧
      (exchangeSend c o p i f m l t s).flash.counters = s.flash.counters ∧ (exchangeSend c o p i f m l t s).flash.install = s.flash.install
      ∧ (exchangeSend c o p i f m l t s).flash.serial = s.flash.serial ∧ (exchangeSend c o p i f m l t s).mem.undef = s.mem.undef := by
  have goal : (fun s : State => (s.beat, s.thm, s.hlth, s.sori, s.fresh, s.pins, s.pending, s.boot, s.flash.counters, s.flash.install, s.flash.serial, s.mem.undef)) (exchangeSend c o p i f m l t s) = (fun s : State => (s.beat, s.thm, s.hlth, s.sori, s.fresh, s.pins, s.pending, s.boot, s.flash.counters, s.flash.install, s.flash.serial, s.mem.undef)) s := by
    refine withSource_any (fun s : State => (s.beat, s.thm, s.hlth, s.sori, s.fresh, s.pins, s.pending, s.boot, s.flash.counters, s.flash.install, s.flash.serial, s.mem.undef)) _ _ _ _ _ _ _ _ (fun t h => by have h2 := bufferRead_keeps _ _ _ _ _ _ _ _ h; simp_all) (fun _ => by simp)
      (fun _ => by simp) ?_
    intro buf u
    dsimp only
    split
    · generalize hxs : List.flatten _ = xs
      have h1 := eachMove_keeps (fun s : State => (s.beat, s.thm, s.hlth, s.sori, s.fresh, s.pins, s.pending, s.boot, s.flash.counters, s.flash.install, s.flash.serial, s.mem.undef)) (fun off s => bufferRead c o p f.buf off imageBytes s)
        (fun x u v hv => by have h2 := bufferRead_keeps _ _ _ _ _ _ _ _ hv; simp_all) xs u
      split
      · rename_i he; rw [he] at h1; have h2 := h1.1; simp at h2; simp [h2]
      · rename_i he; rw [he] at h1; have h2 := h1.2 _ rfl; simp at h2
        split <;> simp [h2]
    · simp
  simpa using goal

@[simp] theorem invalidate_keeps (job : Nat) (a : Nat) (n : Nat) (s : State) :
    (invalidate job a n s).beat = s.beat ∧ (invalidate job a n s).pwr = s.pwr ∧ (invalidate job a n s).thm = s.thm ∧ (invalidate job a n
      s).hlth = s.hlth ∧ (invalidate job a n s).rime = s.rime ∧ (invalidate job a n s).stns = s.stns ∧ (invalidate job a n s).net = s.net ∧
      (invalidate job a n s).sori = s.sori ∧ (invalidate job a n s).models = s.models ∧ (invalidate job a n s).serve = s.serve ∧ (invalidate
      job a n s).jobs = s.jobs ∧ (invalidate job a n s).out = s.out ∧ (invalidate job a n s).fresh = s.fresh ∧ (invalidate job a n s).pins =
      s.pins ∧ (invalidate job a n s).pending = s.pending ∧ (invalidate job a n s).boot = s.boot ∧ (invalidate job a n s).flash = s.flash ∧
      (invalidate job a n s).mem = s.mem := by
  unfold invalidate
  simp

@[simp] theorem endMemory_keeps (inp : StageInput) (s : State) :
    (endMemory inp s).beat = s.beat ∧ (endMemory inp s).pwr = s.pwr ∧ (endMemory inp s).thm = s.thm ∧ (endMemory inp s).hlth = s.hlth ∧
      (endMemory inp s).rime = s.rime ∧ (endMemory inp s).stns = s.stns ∧ (endMemory inp s).sori = s.sori ∧ (endMemory inp s).models =
      s.models ∧ (endMemory inp s).serve = s.serve ∧ (endMemory inp s).jobs = s.jobs ∧ (endMemory inp s).out = s.out ∧ (endMemory inp
      s).pending = s.pending ∧ (endMemory inp s).flash = s.flash := by
  unfold endMemory
  (repeat' split) <;> grind [halt_keeps, draw_keeps]

theorem stageOwn_keeps (c : Cmd) (o : Origin) (f : ZTxnF) (es : List Byte) (sink : Sink) (s : State) :
    ∀ t, stageOwn c o f es sink s = .ok t → t.beat = s.beat ∧ t.thm = s.thm ∧ t.hlth = s.hlth ∧ t.stns = s.stns ∧ t.sori = s.sori ∧ t.pins
      = s.pins ∧ t.pending = s.pending ∧ t.boot = s.boot ∧ t.flash.counters = s.flash.counters ∧ t.flash.install = s.flash.install ∧
      t.flash.serial = s.flash.serial ∧ t.mem.undef = s.mem.undef := by
  unfold stageOwn
  dsimp only
  intro t h
  (repeat' split at h) <;> first | (cases h; done) | (injection h with h; subst h; simp)

@[simp] theorem stageTxn_keeps (r : FabReq) (commit : Nat) (entries : List Byte) (s : State) :
    (stageTxn r commit entries s).1.beat = s.beat ∧ (stageTxn r commit entries s).1.pwr = s.pwr ∧ (stageTxn r commit entries s).1.thm =
      s.thm ∧ (stageTxn r commit entries s).1.hlth = s.hlth ∧ (stageTxn r commit entries s).1.rime = s.rime ∧ (stageTxn r commit entries
      s).1.stns = s.stns ∧ (stageTxn r commit entries s).1.net = s.net ∧ (stageTxn r commit entries s).1.sori = s.sori ∧ (stageTxn r commit
      entries s).1.models = s.models ∧ (stageTxn r commit entries s).1.serve = s.serve ∧ (stageTxn r commit entries s).1.jobs = s.jobs ∧
      (stageTxn r commit entries s).1.out = s.out ∧ (stageTxn r commit entries s).1.fresh = s.fresh ∧ (stageTxn r commit entries s).1.pins =
      s.pins ∧ (stageTxn r commit entries s).1.pending = s.pending ∧ (stageTxn r commit entries s).1.boot = s.boot ∧ (stageTxn r commit
      entries s).1.flash = s.flash ∧ (stageTxn r commit entries s).1.mem = s.mem := by
  unfold stageTxn
  (repeat' split) <;> (try simp) <;> (repeat' split) <;> (try simp) <;> (repeat' split) <;> (try simp_all)

@[simp] theorem abandonUpdate_keeps (s : State) :
    (abandonUpdate s).beat = s.beat ∧ (abandonUpdate s).pwr = s.pwr ∧ (abandonUpdate s).thm = s.thm ∧ (abandonUpdate s).hlth = s.hlth ∧
      (abandonUpdate s).stns = s.stns ∧ (abandonUpdate s).sori = s.sori ∧ (abandonUpdate s).models = s.models ∧ (abandonUpdate s).serve =
      s.serve ∧ (abandonUpdate s).jobs = s.jobs ∧ (abandonUpdate s).fab = s.fab ∧ (abandonUpdate s).pins = s.pins ∧ (abandonUpdate
      s).pending = s.pending ∧ (abandonUpdate s).flash.counters = s.flash.counters ∧ (abandonUpdate s).flash.install = s.flash.install ∧
      (abandonUpdate s).flash.serial = s.flash.serial ∧ (abandonUpdate s).mem = s.mem := by
  unfold abandonUpdate
  (repeat' split) <;> simp

@[simp] theorem refuseEntry_keeps (h : Hdr) (op : Nat) (status : Nat) (s : State) :
    (refuseEntry h op status s).beat = s.beat ∧ (refuseEntry h op status s).pwr = s.pwr ∧ (refuseEntry h op status s).thm = s.thm ∧
      (refuseEntry h op status s).hlth = s.hlth ∧ (refuseEntry h op status s).rime = s.rime ∧ (refuseEntry h op status s).stns = s.stns ∧
      (refuseEntry h op status s).models = s.models ∧ (refuseEntry h op status s).serve = s.serve ∧ (refuseEntry h op status s).jobs =
      s.jobs ∧ (refuseEntry h op status s).fab = s.fab ∧ (refuseEntry h op status s).fresh = s.fresh ∧ (refuseEntry h op status s).pins =
      s.pins ∧ (refuseEntry h op status s).pending = s.pending ∧ (refuseEntry h op status s).boot = s.boot ∧ (refuseEntry h op status
      s).flash = s.flash ∧ (refuseEntry h op status s).mem.cells = s.mem.cells ∧ (refuseEntry h op status s).mem.undef = s.mem.undef := by
  unfold refuseEntry
  (repeat' split) <;> simp

@[simp] theorem serveRequest_keeps (r : FabReq) (s : State) :
    (serveRequest r s).beat = s.beat ∧ (serveRequest r s).pwr = s.pwr ∧ (serveRequest r s).thm = s.thm ∧ (serveRequest r s).hlth = s.hlth
      ∧ (serveRequest r s).rime = s.rime ∧ (serveRequest r s).stns = s.stns ∧ (serveRequest r s).net = s.net ∧ (serveRequest r s).sori =
      s.sori ∧ (serveRequest r s).models = s.models ∧ (serveRequest r s).serve = s.serve ∧ (serveRequest r s).pins = s.pins ∧ (serveRequest
      r s).pending = s.pending ∧ (serveRequest r s).boot = s.boot ∧ (serveRequest r s).flash = s.flash ∧ (serveRequest r s).mem.undef =
      s.mem.undef := by
  unfold serveRequest
  (repeat' split) <;> grind [applyAt_keeps, sendFab_keeps, stageTxn_keeps, invalidate_keeps]

@[simp] theorem takePending_keeps (s : State) :
    (takePending s).beat = s.beat ∧ (takePending s).pwr = s.pwr ∧ (takePending s).thm = s.thm ∧ (takePending s).hlth = s.hlth ∧
      (takePending s).rime = s.rime ∧ (takePending s).stns = s.stns ∧ (takePending s).net = s.net ∧ (takePending s).sori = s.sori ∧
      (takePending s).models = s.models ∧ (takePending s).serve = s.serve ∧ (takePending s).jobs = s.jobs ∧ (takePending s).fab = s.fab ∧
      (takePending s).out = s.out ∧ (takePending s).fresh = s.fresh ∧ (takePending s).pins = s.pins ∧ (takePending s).pending = s.pending ∧
      (takePending s).boot = s.boot ∧ (takePending s).flash.counters = s.flash.counters ∧ (takePending s).flash.serial = s.flash.serial ∧
      (takePending s).mem = s.mem := by
  unfold takePending
  (repeat' split) <;> simp

@[simp] theorem addHint_keeps (h : Hint) (s : State) :
    (addHint h s).beat = s.beat ∧ (addHint h s).thm = s.thm ∧ (addHint h s).hlth = s.hlth ∧ (addHint h s).rime = s.rime ∧ (addHint h
      s).stns = s.stns ∧ (addHint h s).net = s.net ∧ (addHint h s).sori = s.sori ∧ (addHint h s).models = s.models ∧ (addHint h s).serve =
      s.serve ∧ (addHint h s).jobs = s.jobs ∧ (addHint h s).fab = s.fab ∧ (addHint h s).out = s.out ∧ (addHint h s).fresh = s.fresh ∧
      (addHint h s).pins = s.pins ∧ (addHint h s).pending = s.pending ∧ (addHint h s).boot = s.boot ∧ (addHint h s).flash = s.flash ∧
      (addHint h s).mem = s.mem := by
  unfold addHint
  simp

@[simp] theorem settleShards_keeps (modelId : Nat) (slot : Option Nat) (s : State) :
    (settleShards modelId slot s).beat = s.beat ∧ (settleShards modelId slot s).pwr = s.pwr ∧ (settleShards modelId slot s).thm = s.thm ∧
      (settleShards modelId slot s).hlth = s.hlth ∧ (settleShards modelId slot s).rime = s.rime ∧ (settleShards modelId slot s).stns =
      s.stns ∧ (settleShards modelId slot s).sori = s.sori ∧ (settleShards modelId slot s).fab = s.fab ∧ (settleShards modelId slot s).fresh
      = s.fresh ∧ (settleShards modelId slot s).pins = s.pins ∧ (settleShards modelId slot s).pending = s.pending ∧ (settleShards modelId
      slot s).boot = s.boot ∧ (settleShards modelId slot s).flash = s.flash ∧ (settleShards modelId slot s).mem.cells = s.mem.cells ∧
      (settleShards modelId slot s).mem.undef = s.mem.undef := by
  unfold settleShards
  (repeat' split) <;> simp

@[simp] theorem layBatch_keeps (c : Cmd) (o : Origin) (p : Place) (i : Nat) (f : ZXchgF) (modelId : Nat) (job : Nat) (limited : Bool) (rows : List (Nat × Nat × Word)) (s : State) :
    (layBatch c o p i f modelId job limited rows s).beat = s.beat ∧ (layBatch c o p i f modelId job limited rows s).thm = s.thm ∧
      (layBatch c o p i f modelId job limited rows s).hlth = s.hlth ∧ (layBatch c o p i f modelId job limited rows s).stns = s.stns ∧
      (layBatch c o p i f modelId job limited rows s).sori = s.sori ∧ (layBatch c o p i f modelId job limited rows s).fresh = s.fresh ∧
      (layBatch c o p i f modelId job limited rows s).pins = s.pins ∧ (layBatch c o p i f modelId job limited rows s).pending = s.pending ∧
      (layBatch c o p i f modelId job limited rows s).boot = s.boot ∧ (layBatch c o p i f modelId job limited rows s).flash.counters =
      s.flash.counters ∧ (layBatch c o p i f modelId job limited rows s).flash.install = s.flash.install ∧ (layBatch c o p i f modelId job
      limited rows s).flash.serial = s.flash.serial ∧ (layBatch c o p i f modelId job limited rows s).mem.undef = s.mem.undef := by
  unfold layBatch
  dsimp only
  have h := eachMove_keeps (fun s : State => (s.beat, s.thm, s.hlth, s.stns, s.sori, s.fresh, s.pins, s.pending, s.boot, s.flash.counters, s.flash.install, s.flash.serial, s.mem.undef)) (fun (x : Nat × Tile) s => slotWrite c o f.buf x.1 x.2.image s)
    (fun x u v hv => by have h2 := slotWrite_keeps _ _ _ _ _ _ _ hv; simp_all)
  generalize hxs : List.flatten _ = xs
  have h1 := h xs (endWait p limited { s with fab := { s.fab with
      rows := s.fab.rows.filter fun r => !(r.job = job && r.model = modelId && r.layer = f.layer && r.half = f.half && r.lslot = f.lslot && r.round = f.round)
      batches := s.fab.batches ++ [⟨c.id, modelId, f.layer, f.half, f.lslot, f.round, rows⟩] } })
  unfold landMoves
  split
  · rename_i he; rw [he] at h1; have h2 := h1.2 _ rfl; simp at h2; simp [h2]
  · rename_i he; rw [he] at h1; have h2 := h1.1; simp at h2; simp [h2]

@[simp] theorem takeDirectory_keeps (inp : StageInput) (s : State) :
    (takeDirectory inp s).beat = s.beat ∧ (takeDirectory inp s).pwr = s.pwr ∧ (takeDirectory inp s).thm = s.thm ∧ (takeDirectory inp
      s).hlth = s.hlth ∧ (takeDirectory inp s).rime = s.rime ∧ (takeDirectory inp s).stns = s.stns ∧ (takeDirectory inp s).net = s.net ∧
      (takeDirectory inp s).sori = s.sori ∧ (takeDirectory inp s).serve = s.serve ∧ (takeDirectory inp s).jobs = s.jobs ∧ (takeDirectory inp
      s).fab = s.fab ∧ (takeDirectory inp s).out = s.out ∧ (takeDirectory inp s).fresh = s.fresh ∧ (takeDirectory inp s).pins = s.pins ∧
      (takeDirectory inp s).pending = s.pending ∧ (takeDirectory inp s).boot = s.boot ∧ (takeDirectory inp s).flash = s.flash ∧
      (takeDirectory inp s).mem.cells = s.mem.cells ∧ (takeDirectory inp s).mem.undef = s.mem.undef := by
  unfold takeDirectory
  first
  | (simp; done)
  | ((repeat' split) <;> simp; done)
  | ((repeat' split) <;> (try simp) <;> (repeat' split) <;> (try simp) <;> (repeat' split) <;> (try simp_all); done)

@[simp] theorem endLimcel_keeps (inp : StageInput) (s : State) :
    (endLimcel inp s).beat = s.beat ∧ (endLimcel inp s).pwr = s.pwr ∧ (endLimcel inp s).thm = s.thm ∧ (endLimcel inp s).hlth = s.hlth ∧
      (endLimcel inp s).stns = s.stns ∧ (endLimcel inp s).net = s.net ∧ (endLimcel inp s).sori = s.sori ∧ (endLimcel inp s).serve = s.serve
      ∧ (endLimcel inp s).out = s.out ∧ (endLimcel inp s).fresh = s.fresh ∧ (endLimcel inp s).pins = s.pins ∧ (endLimcel inp s).pending =
      s.pending ∧ (endLimcel inp s).flash.serial = s.flash.serial ∧ (endLimcel inp s).mem.cells = s.mem.cells ∧ (endLimcel inp s).mem.undef
      = s.mem.undef := by
  unfold endLimcel
  (repeat' split) <;> (try simp) <;> (repeat' split) <;> (try simp) <;> (repeat' split) <;> (try simp_all)

@[simp] theorem exchangeReceive_keeps (c : Cmd) (o : Origin) (p : Place) (i : Nat) (f : ZXchgF) (modelId : Nat) (limited : Bool) (s : State) :
    (exchangeReceive c o p i f modelId limited s).beat = s.beat ∧ (exchangeReceive c o p i f modelId limited s).thm = s.thm ∧
      (exchangeReceive c o p i f modelId limited s).hlth = s.hlth ∧ (exchangeReceive c o p i f modelId limited s).stns = s.stns ∧
      (exchangeReceive c o p i f modelId limited s).sori = s.sori ∧ (exchangeReceive c o p i f modelId limited s).fresh = s.fresh ∧
      (exchangeReceive c o p i f modelId limited s).pins = s.pins ∧ (exchangeReceive c o p i f modelId limited s).pending = s.pending ∧
      (exchangeReceive c o p i f modelId limited s).boot = s.boot ∧ (exchangeReceive c o p i f modelId limited s).flash.counters =
      s.flash.counters ∧ (exchangeReceive c o p i f modelId limited s).flash.install = s.flash.install ∧ (exchangeReceive c o p i f modelId
      limited s).flash.serial = s.flash.serial ∧ (exchangeReceive c o p i f modelId limited s).mem.undef = s.mem.undef := by
  unfold exchangeReceive
  (repeat' split) <;> (try simp) <;> (repeat' split) <;> (try simp) <;> (repeat' split) <;> (try simp_all)

@[simp] theorem askPeer_keeps (modelId : Nat) (shard : Nat) (set : ShardSet) (x : Shard) (n : Nat) (s : State) :
    (askPeer modelId shard set x n s).beat = s.beat ∧ (askPeer modelId shard set x n s).pwr = s.pwr ∧ (askPeer modelId shard set x n
      s).thm = s.thm ∧ (askPeer modelId shard set x n s).hlth = s.hlth ∧ (askPeer modelId shard set x n s).rime = s.rime ∧ (askPeer modelId
      shard set x n s).stns = s.stns ∧ (askPeer modelId shard set x n s).net = s.net ∧ (askPeer modelId shard set x n s).sori = s.sori ∧
      (askPeer modelId shard set x n s).models = s.models ∧ (askPeer modelId shard set x n s).serve = s.serve ∧ (askPeer modelId shard set x
      n s).jobs = s.jobs ∧ (askPeer modelId shard set x n s).fab = s.fab ∧ (askPeer modelId shard set x n s).fresh = s.fresh ∧ (askPeer
      modelId shard set x n s).pins = s.pins ∧ (askPeer modelId shard set x n s).pending = s.pending ∧ (askPeer modelId shard set x n
      s).boot = s.boot ∧ (askPeer modelId shard set x n s).flash = s.flash ∧ (askPeer modelId shard set x n s).mem = s.mem := by
  unfold askPeer
  first
  | (simp; done)
  | ((repeat' split) <;> simp; done)
  | ((repeat' split) <;> (try simp) <;> (repeat' split) <;> (try simp) <;> (repeat' split) <;> (try simp_all); done)

@[simp] theorem failAttempt_keeps (modelId : Nat) (slot : Option Nat) (shard : Nat) (cause : Nat) (s : State) :
    (failAttempt modelId slot shard cause s).beat = s.beat ∧ (failAttempt modelId slot shard cause s).pwr = s.pwr ∧ (failAttempt modelId
      slot shard cause s).thm = s.thm ∧ (failAttempt modelId slot shard cause s).hlth = s.hlth ∧ (failAttempt modelId slot shard cause
      s).stns = s.stns ∧ (failAttempt modelId slot shard cause s).sori = s.sori ∧ (failAttempt modelId slot shard cause s).fab = s.fab ∧
      (failAttempt modelId slot shard cause s).fresh = s.fresh ∧ (failAttempt modelId slot shard cause s).pins = s.pins ∧ (failAttempt
      modelId slot shard cause s).pending = s.pending ∧ (failAttempt modelId slot shard cause s).boot = s.boot ∧ (failAttempt modelId slot
      shard cause s).flash.counters = s.flash.counters ∧ (failAttempt modelId slot shard cause s).flash.install = s.flash.install ∧
      (failAttempt modelId slot shard cause s).flash.serial = s.flash.serial ∧ (failAttempt modelId slot shard cause s).mem.cells =
      s.mem.cells ∧ (failAttempt modelId slot shard cause s).mem.undef = s.mem.undef := by
  unfold failAttempt
  (repeat' split) <;> simp

@[simp] theorem sendWaiting_keeps (sid : Nat) (s : State) :
    (sendWaiting sid s).beat = s.beat ∧ (sendWaiting sid s).pwr = s.pwr ∧ (sendWaiting sid s).thm = s.thm ∧ (sendWaiting sid s).hlth =
      s.hlth ∧ (sendWaiting sid s).rime = s.rime ∧ (sendWaiting sid s).stns = s.stns ∧ (sendWaiting sid s).sori = s.sori ∧ (sendWaiting sid
      s).models = s.models ∧ (sendWaiting sid s).serve = s.serve ∧ (sendWaiting sid s).jobs = s.jobs ∧ (sendWaiting sid s).fab = s.fab ∧
      (sendWaiting sid s).fresh = s.fresh ∧ (sendWaiting sid s).pins = s.pins ∧ (sendWaiting sid s).pending = s.pending ∧ (sendWaiting sid
      s).boot = s.boot ∧ (sendWaiting sid s).flash = s.flash ∧ (sendWaiting sid s).mem = s.mem := by
  unfold sendWaiting
  (repeat' split) <;> simp

@[simp] theorem serveHeld_keeps (x1 : Nat) (x2 : Nat) (x3 : Nat) (x4 : State) :
    (serveHeld x1 x2 x3 x4).beat = x4.beat ∧ (serveHeld x1 x2 x3 x4).pwr = x4.pwr ∧ (serveHeld x1 x2 x3 x4).thm = x4.thm ∧ (serveHeld x1
      x2 x3 x4).hlth = x4.hlth ∧ (serveHeld x1 x2 x3 x4).rime = x4.rime ∧ (serveHeld x1 x2 x3 x4).stns = x4.stns ∧ (serveHeld x1 x2 x3
      x4).net = x4.net ∧ (serveHeld x1 x2 x3 x4).sori = x4.sori ∧ (serveHeld x1 x2 x3 x4).models = x4.models ∧ (serveHeld x1 x2 x3 x4).serve
      = x4.serve ∧ (serveHeld x1 x2 x3 x4).pins = x4.pins ∧ (serveHeld x1 x2 x3 x4).pending = x4.pending ∧ (serveHeld x1 x2 x3 x4).boot =
      x4.boot ∧ (serveHeld x1 x2 x3 x4).flash = x4.flash ∧ (serveHeld x1 x2 x3 x4).mem.undef = x4.mem.undef := by
  induction x1 generalizing x4 with
  | zero => simp [serveHeld]
  | succ k ih =>
    unfold serveHeld
    dsimp only
    split
    · simp
    · split <;> simp [ih]

@[simp] theorem raiseCounters_keeps (s : State) :
    (raiseCounters s).beat = s.beat ∧ (raiseCounters s).pwr = s.pwr ∧ (raiseCounters s).thm = s.thm ∧ (raiseCounters s).hlth = s.hlth ∧
      (raiseCounters s).rime = s.rime ∧ (raiseCounters s).stns = s.stns ∧ (raiseCounters s).net = s.net ∧ (raiseCounters s).sori = s.sori ∧
      (raiseCounters s).models = s.models ∧ (raiseCounters s).serve = s.serve ∧ (raiseCounters s).jobs = s.jobs ∧ (raiseCounters s).fab =
      s.fab ∧ (raiseCounters s).out = s.out ∧ (raiseCounters s).fresh = s.fresh ∧ (raiseCounters s).pins = s.pins ∧ (raiseCounters
      s).pending = s.pending ∧ (raiseCounters s).boot = s.boot ∧ (raiseCounters s).flash.install = s.flash.install ∧ (raiseCounters
      s).flash.serial = s.flash.serial ∧ (raiseCounters s).mem = s.mem := by
  unfold raiseCounters
  simp

@[simp] theorem acceptShard_keeps (modelId : Nat) (slot : Option Nat) (x : Shard) (images : List (Nat × List Byte)) (s : State) :
    (acceptShard modelId slot x images s).beat = s.beat ∧ (acceptShard modelId slot x images s).pwr = s.pwr ∧ (acceptShard modelId slot x
      images s).thm = s.thm ∧ (acceptShard modelId slot x images s).hlth = s.hlth ∧ (acceptShard modelId slot x images s).rime = s.rime ∧
      (acceptShard modelId slot x images s).stns = s.stns ∧ (acceptShard modelId slot x images s).sori = s.sori ∧ (acceptShard modelId slot
      x images s).fab = s.fab ∧ (acceptShard modelId slot x images s).fresh = s.fresh ∧ (acceptShard modelId slot x images s).pins = s.pins
      ∧ (acceptShard modelId slot x images s).pending = s.pending ∧ (acceptShard modelId slot x images s).boot = s.boot ∧ (acceptShard
      modelId slot x images s).flash = s.flash ∧ (acceptShard modelId slot x images s).mem.undef = s.mem.undef := by
  unfold acceptShard
  dsimp only
  split <;> simp

@[simp] theorem ackEvent_keeps (x : DevFrame) (s : State) :
    (ackEvent x s).beat = s.beat ∧ (ackEvent x s).pwr = s.pwr ∧ (ackEvent x s).thm = s.thm ∧ (ackEvent x s).hlth = s.hlth ∧ (ackEvent x
      s).rime = s.rime ∧ (ackEvent x s).stns = s.stns ∧ (ackEvent x s).net = s.net ∧ (ackEvent x s).sori = s.sori ∧ (ackEvent x s).models =
      s.models ∧ (ackEvent x s).jobs = s.jobs ∧ (ackEvent x s).fab = s.fab ∧ (ackEvent x s).out = s.out ∧ (ackEvent x s).fresh = s.fresh ∧
      (ackEvent x s).pins = s.pins ∧ (ackEvent x s).pending = s.pending ∧ (ackEvent x s).boot = s.boot ∧ (ackEvent x s).flash = s.flash ∧
      (ackEvent x s).mem = s.mem := by
  unfold ackEvent
  first
  | (simp; done)
  | ((repeat' split) <;> simp; done)
  | ((repeat' split) <;> (try simp) <;> (repeat' split) <;> (try simp) <;> (repeat' split) <;> (try simp_all); done)

@[simp] theorem applyAck_keeps (f : Frame) (s : State) :
    (applyAck f s).beat = s.beat ∧ (applyAck f s).pwr = s.pwr ∧ (applyAck f s).thm = s.thm ∧ (applyAck f s).hlth = s.hlth ∧ (applyAck f
      s).rime = s.rime ∧ (applyAck f s).stns = s.stns ∧ (applyAck f s).sori = s.sori ∧ (applyAck f s).models = s.models ∧ (applyAck f
      s).jobs = s.jobs ∧ (applyAck f s).fab = s.fab ∧ (applyAck f s).fresh = s.fresh ∧ (applyAck f s).pins = s.pins ∧ (applyAck f s).pending
      = s.pending ∧ (applyAck f s).boot = s.boot ∧ (applyAck f s).flash = s.flash ∧ (applyAck f s).mem = s.mem := by
  unfold applyAck
  simp

@[simp] theorem exchangeReturn_keeps (c : Cmd) (o : Origin) (p : Place) (i : Nat) (f : ZXchgF) (modelId : Nat) (limited : Bool) (s : State) :
    (exchangeReturn c o p i f modelId limited s).beat = s.beat ∧ (exchangeReturn c o p i f modelId limited s).thm = s.thm ∧
      (exchangeReturn c o p i f modelId limited s).hlth = s.hlth ∧ (exchangeReturn c o p i f modelId limited s).sori = s.sori ∧
      (exchangeReturn c o p i f modelId limited s).fresh = s.fresh ∧ (exchangeReturn c o p i f modelId limited s).pins = s.pins ∧
      (exchangeReturn c o p i f modelId limited s).pending = s.pending ∧ (exchangeReturn c o p i f modelId limited s).boot = s.boot ∧
      (exchangeReturn c o p i f modelId limited s).flash.counters = s.flash.counters ∧ (exchangeReturn c o p i f modelId limited
      s).flash.install = s.flash.install ∧ (exchangeReturn c o p i f modelId limited s).flash.serial = s.flash.serial ∧ (exchangeReturn c o
      p i f modelId limited s).mem.undef = s.mem.undef := by
  unfold exchangeReturn
  dsimp only
  split
  · simp
  · rename_i b _
    have h0 : ∀ xs, (fun s : State => (s.beat, s.thm, s.hlth, s.sori, s.fresh, s.pins, s.pending, s.boot, s.flash.counters, s.flash.install, s.flash.serial, s.mem.undef)) (if (bufferOf s p).isSome = true then (Moved.ok s, s) else eachMove (fun off s => bufferRead c o p f.buf off imageBytes s) xs s).2 = (fun s : State => (s.beat, s.thm, s.hlth, s.sori, s.fresh, s.pins, s.pending, s.boot, s.flash.counters, s.flash.install, s.flash.serial, s.mem.undef)) s ∧
        ∀ t, (if (bufferOf s p).isSome = true then (Moved.ok s, s) else eachMove (fun off s => bufferRead c o p f.buf off imageBytes s) xs s).1 = .ok t → (fun s : State => (s.beat, s.thm, s.hlth, s.sori, s.fresh, s.pins, s.pending, s.boot, s.flash.counters, s.flash.install, s.flash.serial, s.mem.undef)) t = (fun s : State => (s.beat, s.thm, s.hlth, s.sori, s.fresh, s.pins, s.pending, s.boot, s.flash.counters, s.flash.install, s.flash.serial, s.mem.undef)) s := by
      intro xs
      split
      · simp
      · exact eachMove_keeps (fun s : State => (s.beat, s.thm, s.hlth, s.sori, s.fresh, s.pins, s.pending, s.boot, s.flash.counters, s.flash.install, s.flash.serial, s.mem.undef)) _ (fun x u v hv => by have h2 := bufferRead_keeps _ _ _ _ _ _ _ _ hv; simp_all) _ _
    generalize hxs : List.flatten _ = xs
    have h1 := h0 xs
    split
    · rename_i he; rw [he] at h1; have h2 := h1.1; simp at h2; simp [h2]
    · rename_i he; rw [he] at h1; have h2 := h1.2 _ rfl; simp at h2
      split
      · simp [h2]
      · simp [h2]

@[simp] theorem endLinks_keeps (inp : StageInput) (s : State) :
    (endLinks inp s).beat = s.beat ∧ (endLinks inp s).thm = s.thm ∧ (endLinks inp s).sori = s.sori ∧ (endLinks inp s).models = s.models ∧
      (endLinks inp s).serve = s.serve ∧ (endLinks inp s).jobs = s.jobs ∧ (endLinks inp s).pins = s.pins ∧ (endLinks inp s).pending =
      s.pending ∧ (endLinks inp s).flash.install = s.flash.install ∧ (endLinks inp s).flash.serial = s.flash.serial ∧ (endLinks inp
      s).mem.cells = s.mem.cells ∧ (endLinks inp s).mem.undef = s.mem.undef := by
  unfold endLinks
  simp

@[simp] theorem sendAck_keeps (sid : Nat) (s : State) :
    (sendAck sid s).beat = s.beat ∧ (sendAck sid s).pwr = s.pwr ∧ (sendAck sid s).thm = s.thm ∧ (sendAck sid s).hlth = s.hlth ∧ (sendAck
      sid s).rime = s.rime ∧ (sendAck sid s).stns = s.stns ∧ (sendAck sid s).sori = s.sori ∧ (sendAck sid s).models = s.models ∧ (sendAck
      sid s).serve = s.serve ∧ (sendAck sid s).jobs = s.jobs ∧ (sendAck sid s).fab = s.fab ∧ (sendAck sid s).fresh = s.fresh ∧ (sendAck sid
      s).pins = s.pins ∧ (sendAck sid s).pending = s.pending ∧ (sendAck sid s).boot = s.boot ∧ (sendAck sid s).flash = s.flash ∧ (sendAck
      sid s).mem = s.mem := by
  unfold sendAck
  (repeat' split) <;> simp

@[simp] theorem mailbox_keeps (cmd : Nat) (status : Nat) (bs : List Byte) (s : State) :
    (mailbox cmd status bs s).beat = s.beat ∧ (mailbox cmd status bs s).pwr = s.pwr ∧ (mailbox cmd status bs s).thm = s.thm ∧ (mailbox cmd
      status bs s).hlth = s.hlth ∧ (mailbox cmd status bs s).rime = s.rime ∧ (mailbox cmd status bs s).stns = s.stns ∧ (mailbox cmd status
      bs s).net = s.net ∧ (mailbox cmd status bs s).sori = s.sori ∧ (mailbox cmd status bs s).models = s.models ∧ (mailbox cmd status bs
      s).serve = s.serve ∧ (mailbox cmd status bs s).jobs = s.jobs ∧ (mailbox cmd status bs s).fab = s.fab ∧ (mailbox cmd status bs s).out =
      s.out ∧ (mailbox cmd status bs s).fresh = s.fresh ∧ (mailbox cmd status bs s).pins = s.pins ∧ (mailbox cmd status bs s).pending =
      s.pending ∧ (mailbox cmd status bs s).flash = s.flash ∧ (mailbox cmd status bs s).mem = s.mem := by
  unfold mailbox
  simp

@[simp] theorem acknowledge_keeps (f : Frame) (before : Nat) (s : State) :
    (acknowledge f before s).beat = s.beat ∧ (acknowledge f before s).pwr = s.pwr ∧ (acknowledge f before s).thm = s.thm ∧ (acknowledge f
      before s).hlth = s.hlth ∧ (acknowledge f before s).rime = s.rime ∧ (acknowledge f before s).stns = s.stns ∧ (acknowledge f before
      s).sori = s.sori ∧ (acknowledge f before s).models = s.models ∧ (acknowledge f before s).serve = s.serve ∧ (acknowledge f before
      s).jobs = s.jobs ∧ (acknowledge f before s).fab = s.fab ∧ (acknowledge f before s).fresh = s.fresh ∧ (acknowledge f before s).pins =
      s.pins ∧ (acknowledge f before s).pending = s.pending ∧ (acknowledge f before s).boot = s.boot ∧ (acknowledge f before s).flash =
      s.flash ∧ (acknowledge f before s).mem = s.mem := by
  unfold acknowledge
  simp

@[simp] theorem closeWindow_keeps (solo : List (Nat × Nat)) (n : Nat) (s : State) :
    (closeWindow solo n s).beat = s.beat ∧ (closeWindow solo n s).pwr = s.pwr ∧ (closeWindow solo n s).thm = s.thm ∧ (closeWindow solo n
      s).hlth = s.hlth ∧ (closeWindow solo n s).rime = s.rime ∧ (closeWindow solo n s).stns = s.stns ∧ (closeWindow solo n s).net = s.net ∧
      (closeWindow solo n s).sori = s.sori ∧ (closeWindow solo n s).models = s.models ∧ (closeWindow solo n s).serve = s.serve ∧
      (closeWindow solo n s).fab = s.fab ∧ (closeWindow solo n s).out = s.out ∧ (closeWindow solo n s).pins = s.pins ∧ (closeWindow solo n
      s).pending = s.pending ∧ (closeWindow solo n s).boot = s.boot ∧ (closeWindow solo n s).flash = s.flash ∧ (closeWindow solo n s).mem =
      s.mem := by
  unfold closeWindow
  simp

@[simp] theorem mirrorNow_keeps (s : State) :
    (mirrorNow s).beat = s.beat ∧ (mirrorNow s).pwr = s.pwr ∧ (mirrorNow s).thm = s.thm ∧ (mirrorNow s).hlth = s.hlth ∧ (mirrorNow s).rime
      = s.rime ∧ (mirrorNow s).stns = s.stns ∧ (mirrorNow s).net = s.net ∧ (mirrorNow s).sori = s.sori ∧ (mirrorNow s).models = s.models ∧
      (mirrorNow s).serve = s.serve ∧ (mirrorNow s).jobs = s.jobs ∧ (mirrorNow s).fab = s.fab ∧ (mirrorNow s).out = s.out ∧ (mirrorNow
      s).fresh = s.fresh ∧ (mirrorNow s).pins = s.pins ∧ (mirrorNow s).pending = s.pending ∧ (mirrorNow s).boot = s.boot ∧ (mirrorNow
      s).flash.counters = s.flash.counters ∧ (mirrorNow s).flash.install = s.flash.install ∧ (mirrorNow s).flash.serial = s.flash.serial ∧
      (mirrorNow s).mem = s.mem := by
  unfold mirrorNow
  (repeat' split) <;> simp

@[simp] theorem darken_keeps (s : State) :
    (darken s).beat = s.beat ∧ (darken s).pwr = s.pwr ∧ (darken s).thm = s.thm ∧ (darken s).hlth = s.hlth ∧ (darken s).rime = s.rime ∧
      (darken s).stns = s.stns ∧ (darken s).sori = s.sori ∧ (darken s).models = s.models ∧ (darken s).serve = s.serve ∧ (darken s).jobs =
      s.jobs ∧ (darken s).out = s.out ∧ (darken s).fresh = s.fresh ∧ (darken s).pins = s.pins ∧ (darken s).pending = s.pending ∧ (darken
      s).boot = s.boot ∧ (darken s).flash = s.flash ∧ (darken s).mem = s.mem := by
  unfold darken
  simp

@[simp] theorem dropMovesAt_keeps (addr : Nat) (s : State) :
    (dropMovesAt addr s).beat = s.beat ∧ (dropMovesAt addr s).pwr = s.pwr ∧ (dropMovesAt addr s).thm = s.thm ∧ (dropMovesAt addr s).hlth =
      s.hlth ∧ (dropMovesAt addr s).stns = s.stns ∧ (dropMovesAt addr s).sori = s.sori ∧ (dropMovesAt addr s).models = s.models ∧
      (dropMovesAt addr s).serve = s.serve ∧ (dropMovesAt addr s).jobs = s.jobs ∧ (dropMovesAt addr s).fab = s.fab ∧ (dropMovesAt addr
      s).pins = s.pins ∧ (dropMovesAt addr s).pending = s.pending ∧ (dropMovesAt addr s).boot = s.boot ∧ (dropMovesAt addr s).flash.counters
      = s.flash.counters ∧ (dropMovesAt addr s).flash.install = s.flash.install ∧ (dropMovesAt addr s).flash.serial = s.flash.serial ∧
      (dropMovesAt addr s).mem.cells = s.mem.cells ∧ (dropMovesAt addr s).mem.undef = s.mem.undef := by
  unfold dropMovesAt
  (repeat' split) <;> (try simp (disch := ((try intros); (repeat' split) <;> (try simp)))) <;> (repeat' split) <;> (try simp (disch := ((try intros); (repeat' split) <;> (try simp)))) <;> (repeat' split) <;> (try simp_all)

@[simp] theorem markSuspect_keeps (addr : Nat) (s : State) :
    (markSuspect addr s).beat = s.beat ∧ (markSuspect addr s).pwr = s.pwr ∧ (markSuspect addr s).thm = s.thm ∧ (markSuspect addr s).hlth =
      s.hlth ∧ (markSuspect addr s).stns = s.stns ∧ (markSuspect addr s).net = s.net ∧ (markSuspect addr s).sori = s.sori ∧ (markSuspect
      addr s).serve = s.serve ∧ (markSuspect addr s).jobs = s.jobs ∧ (markSuspect addr s).fab = s.fab ∧ (markSuspect addr s).out = s.out ∧
      (markSuspect addr s).fresh = s.fresh ∧ (markSuspect addr s).pins = s.pins ∧ (markSuspect addr s).pending = s.pending ∧ (markSuspect
      addr s).boot = s.boot ∧ (markSuspect addr s).flash.counters = s.flash.counters ∧ (markSuspect addr s).flash.install = s.flash.install
      ∧ (markSuspect addr s).flash.serial = s.flash.serial ∧ (markSuspect addr s).mem.cells = s.mem.cells ∧ (markSuspect addr s).mem.undef =
      s.mem.undef := by
  unfold markSuspect
  (repeat' split) <;> simp

@[simp] theorem freezePlan_keeps (decode : Bool) (modelId : Nat) (track : Option Nat) (x1 : List PlanItem) (x2 : State) :
    (freezePlan decode modelId track x1 x2).2.beat = x2.beat ∧ (freezePlan decode modelId track x1 x2).2.pwr = x2.pwr ∧ (freezePlan decode modelId track x1
      x2).2.thm = x2.thm ∧ (freezePlan decode modelId track x1 x2).2.hlth = x2.hlth ∧ (freezePlan decode modelId track x1 x2).2.rime = x2.rime ∧
      (freezePlan decode modelId track x1 x2).2.stns = x2.stns ∧ (freezePlan decode modelId track x1 x2).2.net = x2.net ∧ (freezePlan decode modelId track x1
      x2).2.sori = x2.sori ∧ (freezePlan decode modelId track x1 x2).2.jobs = x2.jobs ∧ (freezePlan decode modelId track x1 x2).2.fab = x2.fab ∧
      (freezePlan decode modelId track x1 x2).2.out = x2.out ∧ (freezePlan decode modelId track x1 x2).2.fresh = x2.fresh ∧ (freezePlan decode modelId track x1 x2).2.pins = x2.pins ∧ (freezePlan decode modelId track x1 x2).2.pending = x2.pending ∧ (freezePlan decode modelId track x1 x2).2.boot =
      x2.boot ∧ (freezePlan decode modelId track x1 x2).2.flash = x2.flash ∧ (freezePlan decode modelId track x1 x2).2.mem.undef = x2.mem.undef := by
  induction x1 generalizing x2 with
  | nil => simp [freezePlan]
  | cons i is ih =>
    unfold freezePlan
    split
    · exact ih x2
    · rename_i u h
      simp only [Option.bind_eq_some_iff] at h
      obtain ⟨n, _, h⟩ := h
      have h1 := extendPages_keeps _ _ _ _ h
      have h2 := ih u
      simp_all

end Sys2Proof.Machine
end

