-- ==== Sys2Proof/Laws/Memory.lean ====
section
/-! SUPPORT. The laws of memory: every operation keeps the canonical form; a byte written reads back, every other byte reads as
before. -/
namespace Sys2Proof.Machine

/-! ### Entries -/

/-- What `takeWhile` keeps satisfies its condition. -/
theorem mem_takeWhile {α : Type} (p : α → Bool) (xs : List α) (x : α) (h : x ∈ xs.takeWhile p) : p x = true := by
  induction xs with
  | nil => simp at h
  | cons y ys ih =>
    rw [List.takeWhile_cons] at h
    split at h
    · rcases List.mem_cons.mp h with rfl | h
      · assumption
      · exact ih h
    · simp at h

/-- An entry made for stored bytes lies in their range and differs from what its address reads unlisted. -/
theorem entries_mem (m : MemSt) (bs : List Byte) (a : Nat) (c : Nat × Byte) (h : c ∈ m.entries a bs) :
    a ≤ c.1 ∧ c.1 < a + bs.length ∧ m.unlistedReads c.1 ≠ some c.2 := by
  induction bs generalizing a with
  | nil => simp [MemSt.entries] at h
  | cons b bs ih =>
    unfold MemSt.entries at h
    split at h
    · obtain ⟨h1, h2, h3⟩ := ih (a + 1) h
      exact ⟨by omega, by simp only [List.length_cons]; omega, h3⟩
    · rcases List.mem_cons.mp h with rfl | h
      · refine ⟨Nat.le_refl _, by simp, by assumption⟩
      · obtain ⟨h1, h2, h3⟩ := ih (a + 1) h
        exact ⟨by omega, by simp only [List.length_cons]; omega, h3⟩

/-- The entries made for stored bytes rise strictly. -/
theorem entries_rise (m : MemSt) (bs : List Byte) (a : Nat) : (m.entries a bs).Pairwise fun x y => x.1 < y.1 := by
  induction bs generalizing a with
  | nil => simp [MemSt.entries]
  | cons b bs ih =>
    unfold MemSt.entries
    split
    · exact ih (a + 1)
    · refine List.pairwise_cons.mpr ⟨fun c hc => ?_, ih (a + 1)⟩
      have := (entries_mem m bs (a + 1) c hc).1
      simp only
      omega

/-- The entry for one of the stored bytes, where one is needed. -/
theorem entries_find (m : MemSt) (bs : List Byte) (a k : Nat) (b : Byte) (h : bs[k]? = some b) :
    (m.entries a bs).find? (fun c => c.1 = a + k) = if m.unlistedReads (a + k) = some b then none else some (a + k, b) := by
  induction bs generalizing a k with
  | nil => simp at h
  | cons x bs ih =>
    unfold MemSt.entries
    cases k with
    | zero =>
      simp only [List.getElem?_cons_zero, Option.some.injEq] at h
      subst h
      simp only [Nat.add_zero]
      split
      · rw [List.find?_eq_none]
        intro c hc
        have := (entries_mem m bs (a + 1) c hc).1
        simp only [decide_eq_true_eq]
        omega
      · simp
    | succ k =>
      simp only [List.getElem?_cons_succ] at h
      have e : a + (k + 1) = a + 1 + k := by omega
      rw [e]
      split
      · exact ih (a + 1) k h
      · rw [List.find?_cons_of_neg (by simp only [decide_eq_true_eq]; omega)]
        exact ih (a + 1) k h

/-! ### The canonical form -/

/-- What the canonical form says. -/
theorem wf_iff (m : MemSt) : m.wf = true ↔
    (m.cells.Pairwise fun a b => a.1 < b.1) ∧ ∀ c ∈ m.cells, m.unlistedReads c.1 ≠ some c.2 := by
  simp [MemSt.wf, List.all_eq_true]

/-- The form depends on the cells and the undefined ranges only. -/
theorem wf_congr {m n : MemSt} (hc : n.cells = m.cells) (hu : n.undef = m.undef) : n.wf = m.wf := by
  have e : n.unlistedReads = m.unlistedReads := by funext a; simp only [MemSt.unlistedReads, MemSt.undefAt, hu]
  simp only [MemSt.wf, hc, e]

/-- So does what a byte reads as. -/
theorem readByte_congr {m n : MemSt} (hc : n.cells = m.cells) (hu : n.undef = m.undef) (a : Nat) :
    n.readByte a = m.readByte a := by
  simp [MemSt.readByte, MemSt.undefAt, hc, hu]

/-- Memory at power-on has the form. -/
@[simp] theorem zero_wf : MemSt.zero.wf = true := by rfl

/-- A write keeps the form. -/
theorem write_wf (m : MemSt) (a : Nat) (bs : List Byte) (h : m.wf = true) : (m.write a bs).wf = true := by
  rw [wf_iff] at h ⊢
  obtain ⟨hp, hn⟩ := h
  have un : ∀ x, (m.write a bs).unlistedReads x = m.unlistedReads x := fun x => rfl
  constructor
  · simp only [MemSt.write, List.append_assoc]
    refine List.pairwise_append.mpr ⟨hp.sublist (List.takeWhile_sublist _), List.pairwise_append.mpr
      ⟨entries_rise m bs a, hp.sublist List.filter_sublist, fun x hx y hy => ?_⟩, fun x hx y hy => ?_⟩
    · have h1 := (entries_mem m bs a x hx).2.1
      have h2 := (List.mem_filter.mp hy).2
      simp only [decide_eq_true_eq] at h2
      omega
    · have h1 := mem_takeWhile _ _ _ hx
      simp only [decide_eq_true_eq] at h1
      rcases List.mem_append.mp hy with hy | hy
      · have := (entries_mem m bs a y hy).1
        omega
      · have h2 := (List.mem_filter.mp hy).2
        simp only [decide_eq_true_eq] at h2
        omega
  · intro c hc
    rw [un]
    simp only [MemSt.write, List.append_assoc, List.mem_append] at hc
    rcases hc with hc | hc | hc
    · exact hn c ((List.takeWhile_sublist _).subset hc)
    · exact (entries_mem m bs a c hc).2.2
    · exact hn c (List.mem_filter.mp hc).1

/-- A range that takes undefined contents keeps the form. -/
theorem undefine_wf (m : MemSt) (u : Undef) (h : m.wf = true) : (m.undefine u).wf = true := by
  rw [wf_iff] at h ⊢
  obtain ⟨hp, hn⟩ := h
  refine ⟨hp.sublist List.filter_sublist, fun c hc => ?_⟩
  obtain ⟨hm, hr⟩ := List.mem_filter.mp hc
  have e : (m.undefine u).unlistedReads c.1 = m.unlistedReads c.1 := by
    have : (decide (u.base ≤ c.1) && decide (c.1 < u.base + u.bytes)) = false := by
      simp only [Bool.or_eq_true, decide_eq_true_eq] at hr
      simp only [Bool.and_eq_false_iff, decide_eq_false_iff_not]
      omega
    simp only [MemSt.unlistedReads, MemSt.undefAt, MemSt.undefine, List.find?_cons, this]
  rw [e]
  exact hn c hm

/-! ### What a byte reads as -/

/-- A byte written reads back. -/
theorem readByte_write (m : MemSt) (a k : Nat) (bs : List Byte) (b : Byte) (h : bs[k]? = some b) :
    (m.write a bs).readByte (a + k) = b := by
  have hk : k < bs.length := (List.getElem?_eq_some_iff.mp h).1
  have e1 : (m.cells.takeWhile fun c => decide (c.1 < a)).find? (fun c => c.1 = a + k) = none := by
    rw [List.find?_eq_none]
    intro c hc
    have := mem_takeWhile _ _ _ hc
    simp only [decide_eq_true_eq] at this ⊢
    omega
  have e3 : (m.cells.filter fun c => decide (a + bs.length ≤ c.1)).find? (fun c => c.1 = a + k) = none := by
    rw [List.find?_eq_none]
    intro c hc
    have := (List.mem_filter.mp hc).2
    simp only [decide_eq_true_eq] at this ⊢
    omega
  have e : (m.write a bs).cells.find? (fun c => c.1 = a + k)
      = if m.unlistedReads (a + k) = some b then none else some (a + k, b) := by
    simp only [MemSt.write, List.append_assoc, List.find?_append, e1, Option.none_or, e3, Option.or_none]
    exact entries_find m bs a k b h
  unfold MemSt.readByte
  rw [e]
  have hu : (m.write a bs).undefAt (a + k) = m.undefAt (a + k) := rfl
  rw [hu]
  cases hx : m.undefAt (a + k) with
  | none =>
    have : m.unlistedReads (a + k) = some 0#8 := by simp [MemSt.unlistedReads, hx]
    rw [this]
    by_cases hb : b = 0#8
    · simp [hb]
    · have : ¬ (some (0#8 : Byte) = some b) := by simpa using fun h => hb h.symm
      simp only [this, if_false]
  | some u =>
    have : m.unlistedReads (a + k) = none := by simp [MemSt.unlistedReads, hx]
    simp [this]

/-- A byte outside a write reads as before. -/
theorem readByte_write_outside (m : MemSt) (a x : Nat) (bs : List Byte) (h : m.wf = true)
    (hx : ¬ (a ≤ x ∧ x < a + bs.length)) : (m.write a bs).readByte x = m.readByte x := by
  have hp := ((wf_iff m).mp h).1
  have em : (m.entries a bs).find? (fun c => c.1 = x) = none := by
    rw [List.find?_eq_none]
    intro c hc
    have := entries_mem m bs a c hc
    simp only [decide_eq_true_eq]
    omega
  have key : (m.write a bs).cells.find? (fun c => c.1 = x) = m.cells.find? (fun c => c.1 = x) := by
    simp only [MemSt.write, List.append_assoc, List.find?_append, em, Option.none_or]
    generalize m.cells = cs at hp
    induction cs with
    | nil => rfl
    | cons c cs ih =>
      have hp' := List.pairwise_cons.mp hp
      by_cases hc : c.1 < a
      · simp only [List.takeWhile_cons, hc, decide_true, if_true, List.find?_cons, List.filter_cons]
        have hge : ¬ (a + bs.length ≤ c.1) := by omega
        simp only [hge, decide_false, Bool.false_eq_true, if_false]
        by_cases hcx : c.1 = x
        · simp [hcx]
        · simp only [hcx, decide_false]
          exact ih hp'.2
      · simp only [List.takeWhile_cons, hc, decide_false, Bool.false_eq_true, if_false, List.find?_nil, Option.none_or]
        rw [List.find?_filter]
        by_cases hxa : x < a
        · rw [List.find?_eq_none.mpr, List.find?_eq_none.mpr]
          · intro d hd
            simp only [decide_eq_true_eq]
            rcases List.mem_cons.mp hd with rfl | hd
            · omega
            · have := hp'.1 d hd; omega
          · intro d hd
            simp only [decide_eq_true_eq]
            rcases List.mem_cons.mp hd with rfl | hd
            · omega
            · have := hp'.1 d hd; omega
        · congr 1
          funext d
          by_cases hd : d.1 = x
          · have : a + bs.length ≤ d.1 := by omega
            simp [hd]
            omega
          · simp [hd]
  unfold MemSt.readByte
  rw [key]
  rfl

/-! ### The operations on a state -/

/-- Stored bytes keep the form. -/
theorem storeBytes_wf (a : Nat) (bs : List Byte) (s : State) (h : s.mem.wf = true) : (storeBytes a bs s).mem.wf = true :=
  (wf_congr (m := s.mem.write a bs) rfl rfl).trans (write_wf s.mem a bs h)

/-- A byte stored reads back. -/
theorem readByte_storeBytes (a k : Nat) (bs : List Byte) (b : Byte) (s : State) (h : bs[k]? = some b) :
    (storeBytes a bs s).mem.readByte (a + k) = b :=
  (readByte_congr (m := s.mem.write a bs) rfl rfl _).trans (readByte_write s.mem a k bs b h)

/-- A byte outside a store reads as before. -/
theorem readByte_storeBytes_outside (a x : Nat) (bs : List Byte) (s : State) (h : s.mem.wf = true)
    (hx : ¬ (a ≤ x ∧ x < a + bs.length)) : (storeBytes a bs s).mem.readByte x = s.mem.readByte x :=
  (readByte_congr (m := s.mem.write a bs) rfl rfl _).trans (readByte_write_outside s.mem a x bs h hx)

/-- A unit of a snapshot that is copied keeps the form. -/
theorem copyUnit_wf (id : Nat) (u : Nat × Nat × Nat) (s : State) (h : s.mem.wf = true) : (copyUnit id u s).mem.wf = true :=
  storeBytes_wf _ _ s h

/-- A write at its home keeps the form. -/
theorem applyWrite_wf (a : Nat) (bs : List Byte) (s : State) (h : s.mem.wf = true) : (applyWrite a bs s).mem.wf = true := by
  unfold applyWrite
  apply storeBytes_wf
  dsimp only
  generalize blockedUnits s a bs.length = xs
  induction xs generalizing s with
  | nil => exact h
  | cons x xs ih => exact ih _ (copyUnit_wf x.1 x.2.2 s h)

/-- A byte written at its home reads back. -/
theorem readByte_applyWrite (a k : Nat) (bs : List Byte) (b : Byte) (s : State) (h : bs[k]? = some b) :
    (applyWrite a bs s).mem.readByte (a + k) = b := readByte_storeBytes a k bs b _ h

/-- A byte outside a write reads as before, where no snapshot waits for what the write changes. -/
theorem readByte_applyWrite_outside (a x : Nat) (bs : List Byte) (s : State) (h : s.mem.wf = true)
    (hb : blockedUnits s a bs.length = []) (hx : ¬ (a ≤ x ∧ x < a + bs.length)) :
    (applyWrite a bs s).mem.readByte x = s.mem.readByte x := by
  unfold applyWrite
  rw [hb]
  exact readByte_storeBytes_outside a x bs _ h hx

end Sys2Proof.Machine
end

