-- ==== Sys2Proof/Laws/State.lean ====
section
/-! SUPPORT. The state after each primitive update: the part that changes, field by field, and what a look-up by a key finds. The
frame of each update (the parts it leaves alone) is in Laws/FramesOps.lean and Laws/Frames.lean. -/
set_option linter.unusedSimpArgs false
namespace Sys2Proof.Machine

/-! ### What the primitive updates change -/

@[simp] theorem emit_out (o : Output) (s : State) :
    (emit o s).out = s.out ++ [o] := rfl
@[simp] theorem draw_fst (s : State) :
    (draw s).1 = s.fresh := rfl
@[simp] theorem draw_fresh (s : State) :
    (draw s).2.fresh = s.fresh + 1 := rfl
@[simp] theorem discard_discards (k : Nat) (s : State) :
    (discard k s).net.discards = updAt k (fun n => sat32 (n + 1)) s.net.discards := rfl
@[simp] theorem discard_hellos (k : Nat) (s : State) :
    (discard k s).net.hellos = s.net.hellos := rfl
@[simp] theorem discard_sessions (k : Nat) (s : State) :
    (discard k s).net.sessions = s.net.sessions := rfl
@[simp] theorem discard_qps (k : Nat) (s : State) :
    (discard k s).net.qps = s.net.qps := rfl
@[simp] theorem discard_nextQpn (k : Nat) (s : State) :
    (discard k s).net.nextQpn = s.net.nextQpn := rfl
@[simp] theorem discard_opens (k : Nat) (s : State) :
    (discard k s).net.opens = s.net.opens := rfl
@[simp] theorem discard_gone (k : Nat) (s : State) :
    (discard k s).net.gone = s.net.gone := rfl
@[simp] theorem discard_ethUp (k : Nat) (s : State) :
    (discard k s).net.ethUp = s.net.ethUp := rfl
@[simp] theorem discard_failover (k : Nat) (s : State) :
    (discard k s).net.failover = s.net.failover := rfl
@[simp] theorem discard_latches (k : Nat) (s : State) :
    (discard k s).net.latches = s.net.latches := rfl
@[simp] theorem discard_events (k : Nat) (s : State) :
    (discard k s).net.events = s.net.events := rfl
@[simp] theorem setSession_sessions (k : Nat) (f : Session → Session) (s : State) :
    (setSession k f s).net.sessions = updBy (fun e => e.id = k) f s.net.sessions := rfl
@[simp] theorem setSession_hellos (k : Nat) (f : Session → Session) (s : State) :
    (setSession k f s).net.hellos = s.net.hellos := rfl
@[simp] theorem setSession_qps (k : Nat) (f : Session → Session) (s : State) :
    (setSession k f s).net.qps = s.net.qps := rfl
@[simp] theorem setSession_nextQpn (k : Nat) (f : Session → Session) (s : State) :
    (setSession k f s).net.nextQpn = s.net.nextQpn := rfl
@[simp] theorem setSession_opens (k : Nat) (f : Session → Session) (s : State) :
    (setSession k f s).net.opens = s.net.opens := rfl
@[simp] theorem setSession_gone (k : Nat) (f : Session → Session) (s : State) :
    (setSession k f s).net.gone = s.net.gone := rfl
@[simp] theorem setSession_discards (k : Nat) (f : Session → Session) (s : State) :
    (setSession k f s).net.discards = s.net.discards := rfl
@[simp] theorem setSession_ethUp (k : Nat) (f : Session → Session) (s : State) :
    (setSession k f s).net.ethUp = s.net.ethUp := rfl
@[simp] theorem setSession_failover (k : Nat) (f : Session → Session) (s : State) :
    (setSession k f s).net.failover = s.net.failover := rfl
@[simp] theorem setSession_latches (k : Nat) (f : Session → Session) (s : State) :
    (setSession k f s).net.latches = s.net.latches := rfl
@[simp] theorem setSession_events (k : Nat) (f : Session → Session) (s : State) :
    (setSession k f s).net.events = s.net.events := rfl
@[simp] theorem setCmd_cmds (k : Nat) (f : Cmd → Cmd) (s : State) :
    (setCmd k f s).jobs.cmds = updBy (fun c => c.id = k) f s.jobs.cmds := rfl
@[simp] theorem setCmd_ctxs (k : Nat) (f : Cmd → Cmd) (s : State) :
    (setCmd k f s).jobs.ctxs = s.jobs.ctxs := rfl
@[simp] theorem setCmd_nextCmd (k : Nat) (f : Cmd → Cmd) (s : State) :
    (setCmd k f s).jobs.nextCmd = s.jobs.nextCmd := rfl
@[simp] theorem setCmd_preempts (k : Nat) (f : Cmd → Cmd) (s : State) :
    (setCmd k f s).jobs.preempts = s.jobs.preempts := rfl
@[simp] theorem setCmd_acct (k : Nat) (f : Cmd → Cmd) (s : State) :
    (setCmd k f s).jobs.acct = s.jobs.acct := rfl
@[simp] theorem setCmd_ageBeats (k : Nat) (f : Cmd → Cmd) (s : State) :
    (setCmd k f s).jobs.ageBeats = s.jobs.ageBeats := rfl
@[simp] theorem setCmd_programs (k : Nat) (f : Cmd → Cmd) (s : State) :
    (setCmd k f s).jobs.programs = s.jobs.programs := rfl
@[simp] theorem setCmd_nextProgram (k : Nat) (f : Cmd → Cmd) (s : State) :
    (setCmd k f s).jobs.nextProgram = s.jobs.nextProgram := rfl
@[simp] theorem setCmd_resets (k : Nat) (f : Cmd → Cmd) (s : State) :
    (setCmd k f s).jobs.resets = s.jobs.resets := rfl
@[simp] theorem setCmd_freed (k : Nat) (f : Cmd → Cmd) (s : State) :
    (setCmd k f s).jobs.freed = s.jobs.freed := rfl
@[simp] theorem setCtx_ctxs (k : Nat) (f : Ctx → Ctx) (s : State) :
    (setCtx k f s).jobs.ctxs = updBy (fun c => c.num = k) f s.jobs.ctxs := rfl
@[simp] theorem setCtx_cmds (k : Nat) (f : Ctx → Ctx) (s : State) :
    (setCtx k f s).jobs.cmds = s.jobs.cmds := rfl
@[simp] theorem setCtx_nextCmd (k : Nat) (f : Ctx → Ctx) (s : State) :
    (setCtx k f s).jobs.nextCmd = s.jobs.nextCmd := rfl
@[simp] theorem setCtx_preempts (k : Nat) (f : Ctx → Ctx) (s : State) :
    (setCtx k f s).jobs.preempts = s.jobs.preempts := rfl
@[simp] theorem setCtx_acct (k : Nat) (f : Ctx → Ctx) (s : State) :
    (setCtx k f s).jobs.acct = s.jobs.acct := rfl
@[simp] theorem setCtx_ageBeats (k : Nat) (f : Ctx → Ctx) (s : State) :
    (setCtx k f s).jobs.ageBeats = s.jobs.ageBeats := rfl
@[simp] theorem setCtx_programs (k : Nat) (f : Ctx → Ctx) (s : State) :
    (setCtx k f s).jobs.programs = s.jobs.programs := rfl
@[simp] theorem setCtx_nextProgram (k : Nat) (f : Ctx → Ctx) (s : State) :
    (setCtx k f s).jobs.nextProgram = s.jobs.nextProgram := rfl
@[simp] theorem setCtx_resets (k : Nat) (f : Ctx → Ctx) (s : State) :
    (setCtx k f s).jobs.resets = s.jobs.resets := rfl
@[simp] theorem setCtx_freed (k : Nat) (f : Ctx → Ctx) (s : State) :
    (setCtx k f s).jobs.freed = s.jobs.freed := rfl
@[simp] theorem setModel_models (k : Nat) (f : Model → Model) (s : State) :
    (setModel k f s).models.models = updBy (fun m => m.id = k) f s.models.models := rfl
@[simp] theorem setModel_converter (k : Nat) (f : Model → Model) (s : State) :
    (setModel k f s).models.converter = s.models.converter := rfl
@[simp] theorem setModel_digests (k : Nat) (f : Model → Model) (s : State) :
    (setModel k f s).models.digests = s.models.digests := rfl
@[simp] theorem setReq_reqs (k : Nat) (f : Req → Req) (s : State) :
    (setReq k f s).serve.reqs = updBy (fun r => r.id = k) f s.serve.reqs := rfl
@[simp] theorem setReq_actions (k : Nat) (f : Req → Req) (s : State) :
    (setReq k f s).serve.actions = s.serve.actions := rfl
@[simp] theorem setReq_nextReq (k : Nat) (f : Req → Req) (s : State) :
    (setReq k f s).serve.nextReq = s.serve.nextReq := rfl
@[simp] theorem setReq_lastHot (k : Nat) (f : Req → Req) (s : State) :
    (setReq k f s).serve.lastHot = s.serve.lastHot := rfl
@[simp] theorem setSorus_sori (k : Nat) (f : Sorus → Sorus) (s : State) :
    (setSorus k f s).sori.sori = updBy (fun x => x.id = k) f s.sori.sori := rfl
@[simp] theorem setSorus_doubtBeats (k : Nat) (f : Sorus → Sorus) (s : State) :
    (setSorus k f s).sori.doubtBeats = s.sori.doubtBeats := rfl
@[simp] theorem setSorus_doubtSori (k : Nat) (f : Sorus → Sorus) (s : State) :
    (setSorus k f s).sori.doubtSori = s.sori.doubtSori := rfl
@[simp] theorem setLink_links (k : Nat) (f : Link → Link) (s : State) :
    (setLink k f s).fab.links = updBy (fun l => l.port = k) f s.fab.links := rfl
@[simp] theorem setLink_ownerPct (k : Nat) (f : Link → Link) (s : State) :
    (setLink k f s).fab.ownerPct = s.fab.ownerPct := rfl
@[simp] theorem setLink_timeout (k : Nat) (f : Link → Link) (s : State) :
    (setLink k f s).fab.timeout = s.fab.timeout := rfl
@[simp] theorem setLink_bridges (k : Nat) (f : Link → Link) (s : State) :
    (setLink k f s).fab.bridges = s.fab.bridges := rfl
@[simp] theorem setLink_choice (k : Nat) (f : Link → Link) (s : State) :
    (setLink k f s).fab.choice = s.fab.choice := rfl
@[simp] theorem setLink_unreachable (k : Nat) (f : Link → Link) (s : State) :
    (setLink k f s).fab.unreachable = s.fab.unreachable := rfl
@[simp] theorem setLink_detoured (k : Nat) (f : Link → Link) (s : State) :
    (setLink k f s).fab.detoured = s.fab.detoured := rfl
@[simp] theorem setLink_remote (k : Nat) (f : Link → Link) (s : State) :
    (setLink k f s).fab.remote = s.fab.remote := rfl
@[simp] theorem setLink_routesStale (k : Nat) (f : Link → Link) (s : State) :
    (setLink k f s).fab.routesStale = s.fab.routesStale := rfl
@[simp] theorem setLink_badEntries (k : Nat) (f : Link → Link) (s : State) :
    (setLink k f s).fab.badEntries = s.fab.badEntries := rfl
@[simp] theorem setLink_detours (k : Nat) (f : Link → Link) (s : State) :
    (setLink k f s).fab.detours = s.fab.detours := rfl
@[simp] theorem setLink_updates (k : Nat) (f : Link → Link) (s : State) :
    (setLink k f s).fab.updates = s.fab.updates := rfl
@[simp] theorem setLink_folded (k : Nat) (f : Link → Link) (s : State) :
    (setLink k f s).fab.folded = s.fab.folded := rfl
@[simp] theorem setLink_lastAtomic (k : Nat) (f : Link → Link) (s : State) :
    (setLink k f s).fab.lastAtomic = s.fab.lastAtomic := rfl
@[simp] theorem setLink_creditWait (k : Nat) (f : Link → Link) (s : State) :
    (setLink k f s).fab.creditWait = s.fab.creditWait := rfl
@[simp] theorem setLink_aged (k : Nat) (f : Link → Link) (s : State) :
    (setLink k f s).fab.aged = s.fab.aged := rfl
@[simp] theorem setLink_rrcHits (k : Nat) (f : Link → Link) (s : State) :
    (setLink k f s).fab.rrcHits = s.fab.rrcHits := rfl
@[simp] theorem setLink_rrcMisses (k : Nat) (f : Link → Link) (s : State) :
    (setLink k f s).fab.rrcMisses = s.fab.rrcMisses := rfl
@[simp] theorem setLink_rrcInval (k : Nat) (f : Link → Link) (s : State) :
    (setLink k f s).fab.rrcInval = s.fab.rrcInval := rfl
@[simp] theorem setLink_txnNot (k : Nat) (f : Link → Link) (s : State) :
    (setLink k f s).fab.txnNot = s.fab.txnNot := rfl
@[simp] theorem setLink_accesses (k : Nat) (f : Link → Link) (s : State) :
    (setLink k f s).fab.accesses = s.fab.accesses := rfl
@[simp] theorem setLink_nextAccess (k : Nat) (f : Link → Link) (s : State) :
    (setLink k f s).fab.nextAccess = s.fab.nextAccess := rfl
@[simp] theorem setLink_seqOut (k : Nat) (f : Link → Link) (s : State) :
    (setLink k f s).fab.seqOut = s.fab.seqOut := rfl
@[simp] theorem setLink_seqIn (k : Nat) (f : Link → Link) (s : State) :
    (setLink k f s).fab.seqIn = s.fab.seqIn := rfl
@[simp] theorem setLink_heldIn (k : Nat) (f : Link → Link) (s : State) :
    (setLink k f s).fab.heldIn = s.fab.heldIn := rfl
@[simp] theorem setLink_txns (k : Nat) (f : Link → Link) (s : State) :
    (setLink k f s).fab.txns = s.fab.txns := rfl
@[simp] theorem setLink_rrc (k : Nat) (f : Link → Link) (s : State) :
    (setLink k f s).fab.rrc = s.fab.rrc := rfl
@[simp] theorem setLink_ops (k : Nat) (f : Link → Link) (s : State) :
    (setLink k f s).fab.ops = s.fab.ops := rfl
@[simp] theorem setLink_snaps (k : Nat) (f : Link → Link) (s : State) :
    (setLink k f s).fab.snaps = s.fab.snaps := rfl
@[simp] theorem setLink_nextSnap (k : Nat) (f : Link → Link) (s : State) :
    (setLink k f s).fab.nextSnap = s.fab.nextSnap := rfl
@[simp] theorem setLink_frozen (k : Nat) (f : Link → Link) (s : State) :
    (setLink k f s).fab.frozen = s.fab.frozen := rfl
@[simp] theorem setLink_counts (k : Nat) (f : Link → Link) (s : State) :
    (setLink k f s).fab.counts = s.fab.counts := rfl
@[simp] theorem setLink_rows (k : Nat) (f : Link → Link) (s : State) :
    (setLink k f s).fab.rows = s.fab.rows := rfl
@[simp] theorem setLink_sends (k : Nat) (f : Link → Link) (s : State) :
    (setLink k f s).fab.sends = s.fab.sends := rfl
@[simp] theorem setLink_batches (k : Nat) (f : Link → Link) (s : State) :
    (setLink k f s).fab.batches = s.fab.batches := rfl
@[simp] theorem setOp_ops (k : Nat) (f : GlobalOp → GlobalOp) (s : State) :
    (setOp k f s).fab.ops = updBy (fun o => o.id = k) f s.fab.ops := rfl
@[simp] theorem setOp_ownerPct (k : Nat) (f : GlobalOp → GlobalOp) (s : State) :
    (setOp k f s).fab.ownerPct = s.fab.ownerPct := rfl
@[simp] theorem setOp_timeout (k : Nat) (f : GlobalOp → GlobalOp) (s : State) :
    (setOp k f s).fab.timeout = s.fab.timeout := rfl
@[simp] theorem setOp_links (k : Nat) (f : GlobalOp → GlobalOp) (s : State) :
    (setOp k f s).fab.links = s.fab.links := rfl
@[simp] theorem setOp_bridges (k : Nat) (f : GlobalOp → GlobalOp) (s : State) :
    (setOp k f s).fab.bridges = s.fab.bridges := rfl
@[simp] theorem setOp_choice (k : Nat) (f : GlobalOp → GlobalOp) (s : State) :
    (setOp k f s).fab.choice = s.fab.choice := rfl
@[simp] theorem setOp_unreachable (k : Nat) (f : GlobalOp → GlobalOp) (s : State) :
    (setOp k f s).fab.unreachable = s.fab.unreachable := rfl
@[simp] theorem setOp_detoured (k : Nat) (f : GlobalOp → GlobalOp) (s : State) :
    (setOp k f s).fab.detoured = s.fab.detoured := rfl
@[simp] theorem setOp_remote (k : Nat) (f : GlobalOp → GlobalOp) (s : State) :
    (setOp k f s).fab.remote = s.fab.remote := rfl
@[simp] theorem setOp_routesStale (k : Nat) (f : GlobalOp → GlobalOp) (s : State) :
    (setOp k f s).fab.routesStale = s.fab.routesStale := rfl
@[simp] theorem setOp_badEntries (k : Nat) (f : GlobalOp → GlobalOp) (s : State) :
    (setOp k f s).fab.badEntries = s.fab.badEntries := rfl
@[simp] theorem setOp_detours (k : Nat) (f : GlobalOp → GlobalOp) (s : State) :
    (setOp k f s).fab.detours = s.fab.detours := rfl
@[simp] theorem setOp_updates (k : Nat) (f : GlobalOp → GlobalOp) (s : State) :
    (setOp k f s).fab.updates = s.fab.updates := rfl
@[simp] theorem setOp_folded (k : Nat) (f : GlobalOp → GlobalOp) (s : State) :
    (setOp k f s).fab.folded = s.fab.folded := rfl
@[simp] theorem setOp_lastAtomic (k : Nat) (f : GlobalOp → GlobalOp) (s : State) :
    (setOp k f s).fab.lastAtomic = s.fab.lastAtomic := rfl
@[simp] theorem setOp_creditWait (k : Nat) (f : GlobalOp → GlobalOp) (s : State) :
    (setOp k f s).fab.creditWait = s.fab.creditWait := rfl
@[simp] theorem setOp_aged (k : Nat) (f : GlobalOp → GlobalOp) (s : State) :
    (setOp k f s).fab.aged = s.fab.aged := rfl
@[simp] theorem setOp_rrcHits (k : Nat) (f : GlobalOp → GlobalOp) (s : State) :
    (setOp k f s).fab.rrcHits = s.fab.rrcHits := rfl
@[simp] theorem setOp_rrcMisses (k : Nat) (f : GlobalOp → GlobalOp) (s : State) :
    (setOp k f s).fab.rrcMisses = s.fab.rrcMisses := rfl
@[simp] theorem setOp_rrcInval (k : Nat) (f : GlobalOp → GlobalOp) (s : State) :
    (setOp k f s).fab.rrcInval = s.fab.rrcInval := rfl
@[simp] theorem setOp_txnNot (k : Nat) (f : GlobalOp → GlobalOp) (s : State) :
    (setOp k f s).fab.txnNot = s.fab.txnNot := rfl
@[simp] theorem setOp_accesses (k : Nat) (f : GlobalOp → GlobalOp) (s : State) :
    (setOp k f s).fab.accesses = s.fab.accesses := rfl
@[simp] theorem setOp_nextAccess (k : Nat) (f : GlobalOp → GlobalOp) (s : State) :
    (setOp k f s).fab.nextAccess = s.fab.nextAccess := rfl
@[simp] theorem setOp_seqOut (k : Nat) (f : GlobalOp → GlobalOp) (s : State) :
    (setOp k f s).fab.seqOut = s.fab.seqOut := rfl
@[simp] theorem setOp_seqIn (k : Nat) (f : GlobalOp → GlobalOp) (s : State) :
    (setOp k f s).fab.seqIn = s.fab.seqIn := rfl
@[simp] theorem setOp_heldIn (k : Nat) (f : GlobalOp → GlobalOp) (s : State) :
    (setOp k f s).fab.heldIn = s.fab.heldIn := rfl
@[simp] theorem setOp_txns (k : Nat) (f : GlobalOp → GlobalOp) (s : State) :
    (setOp k f s).fab.txns = s.fab.txns := rfl
@[simp] theorem setOp_rrc (k : Nat) (f : GlobalOp → GlobalOp) (s : State) :
    (setOp k f s).fab.rrc = s.fab.rrc := rfl
@[simp] theorem setOp_snaps (k : Nat) (f : GlobalOp → GlobalOp) (s : State) :
    (setOp k f s).fab.snaps = s.fab.snaps := rfl
@[simp] theorem setOp_nextSnap (k : Nat) (f : GlobalOp → GlobalOp) (s : State) :
    (setOp k f s).fab.nextSnap = s.fab.nextSnap := rfl
@[simp] theorem setOp_frozen (k : Nat) (f : GlobalOp → GlobalOp) (s : State) :
    (setOp k f s).fab.frozen = s.fab.frozen := rfl
@[simp] theorem setOp_counts (k : Nat) (f : GlobalOp → GlobalOp) (s : State) :
    (setOp k f s).fab.counts = s.fab.counts := rfl
@[simp] theorem setOp_rows (k : Nat) (f : GlobalOp → GlobalOp) (s : State) :
    (setOp k f s).fab.rows = s.fab.rows := rfl
@[simp] theorem setOp_sends (k : Nat) (f : GlobalOp → GlobalOp) (s : State) :
    (setOp k f s).fab.sends = s.fab.sends := rfl
@[simp] theorem setOp_batches (k : Nat) (f : GlobalOp → GlobalOp) (s : State) :
    (setOp k f s).fab.batches = s.fab.batches := rfl
@[simp] theorem setHandle_handles (k : Nat) (f : Handle → Handle) (s : State) :
    (setHandle k f s).mem.handles = updBy (fun h => h.id = k) f s.mem.handles := rfl
@[simp] theorem setHandle_cells (k : Nat) (f : Handle → Handle) (s : State) :
    (setHandle k f s).mem.cells = s.mem.cells := rfl
@[simp] theorem setHandle_undef (k : Nat) (f : Handle → Handle) (s : State) :
    (setHandle k f s).mem.undef = s.mem.undef := rfl
@[simp] theorem setHandle_sstat (k : Nat) (f : Handle → Handle) (s : State) :
    (setHandle k f s).mem.sstat = s.mem.sstat := rfl
@[simp] theorem setHandle_bad (k : Nat) (f : Handle → Handle) (s : State) :
    (setHandle k f s).mem.bad = s.mem.bad := rfl
@[simp] theorem setHandle_lpWindow (k : Nat) (f : Handle → Handle) (s : State) :
    (setHandle k f s).mem.lpWindow = s.mem.lpWindow := rfl
@[simp] theorem setHandle_regions (k : Nat) (f : Handle → Handle) (s : State) :
    (setHandle k f s).mem.regions = s.mem.regions := rfl
@[simp] theorem setHandle_accounts (k : Nat) (f : Handle → Handle) (s : State) :
    (setHandle k f s).mem.accounts = s.mem.accounts := rfl
@[simp] theorem setHandle_nextHandle (k : Nat) (f : Handle → Handle) (s : State) :
    (setHandle k f s).mem.nextHandle = s.mem.nextHandle := rfl
@[simp] theorem setHandle_windows (k : Nat) (f : Handle → Handle) (s : State) :
    (setHandle k f s).mem.windows = s.mem.windows := rfl
@[simp] theorem setHandle_demands (k : Nat) (f : Handle → Handle) (s : State) :
    (setHandle k f s).mem.demands = s.mem.demands := rfl
@[simp] theorem setHandle_limMoves (k : Nat) (f : Handle → Handle) (s : State) :
    (setHandle k f s).mem.limMoves = s.mem.limMoves := rfl
@[simp] theorem setHandle_scrubInterval (k : Nat) (f : Handle → Handle) (s : State) :
    (setHandle k f s).mem.scrubInterval = s.mem.scrubInterval := rfl
@[simp] theorem setHandle_scrubNext (k : Nat) (f : Handle → Handle) (s : State) :
    (setHandle k f s).mem.scrubNext = s.mem.scrubNext := rfl
@[simp] theorem setHandle_passes (k : Nat) (f : Handle → Handle) (s : State) :
    (setHandle k f s).mem.passes = s.mem.passes := rfl
@[simp] theorem setHandle_cleared (k : Nat) (f : Handle → Handle) (s : State) :
    (setHandle k f s).mem.cleared = s.mem.cleared := rfl
@[simp] theorem setHandle_suspect (k : Nat) (f : Handle → Handle) (s : State) :
    (setHandle k f s).mem.suspect = s.mem.suspect := rfl
@[simp] theorem setHandle_eccHbm (k : Nat) (f : Handle → Handle) (s : State) :
    (setHandle k f s).mem.eccHbm = s.mem.eccHbm := rfl
@[simp] theorem setHandle_eccLp (k : Nat) (f : Handle → Handle) (s : State) :
    (setHandle k f s).mem.eccLp = s.mem.eccLp := rfl
@[simp] theorem setHandle_evictHbm (k : Nat) (f : Handle → Handle) (s : State) :
    (setHandle k f s).mem.evictHbm = s.mem.evictHbm := rfl
@[simp] theorem setHandle_evictLp (k : Nat) (f : Handle → Handle) (s : State) :
    (setHandle k f s).mem.evictLp = s.mem.evictLp := rfl
@[simp] theorem setHandle_allocBusy (k : Nat) (f : Handle → Handle) (s : State) :
    (setHandle k f s).mem.allocBusy = s.mem.allocBusy := rfl
@[simp] theorem setHandle_pauseInHbm (k : Nat) (f : Handle → Handle) (s : State) :
    (setHandle k f s).mem.pauseInHbm = s.mem.pauseInHbm := rfl
@[simp] theorem setHandle_caches (k : Nat) (f : Handle → Handle) (s : State) :
    (setHandle k f s).mem.caches = s.mem.caches := rfl
@[simp] theorem setHandle_pcs (k : Nat) (f : Handle → Handle) (s : State) :
    (setHandle k f s).mem.pcs = s.mem.pcs := rfl
@[simp] theorem setHandle_lpchs (k : Nat) (f : Handle → Handle) (s : State) :
    (setHandle k f s).mem.lpchs = s.mem.lpchs := rfl
@[simp] theorem setHandle_retention (k : Nat) (f : Handle → Handle) (s : State) :
    (setHandle k f s).mem.retention = s.mem.retention := rfl
@[simp] theorem setAccount_accounts (k : Nat) (f : Account → Account) (s : State) :
    (setAccount k f s).mem.accounts = updBy (fun a => a.id = k) f s.mem.accounts := rfl
@[simp] theorem setAccount_cells (k : Nat) (f : Account → Account) (s : State) :
    (setAccount k f s).mem.cells = s.mem.cells := rfl
@[simp] theorem setAccount_undef (k : Nat) (f : Account → Account) (s : State) :
    (setAccount k f s).mem.undef = s.mem.undef := rfl
@[simp] theorem setAccount_sstat (k : Nat) (f : Account → Account) (s : State) :
    (setAccount k f s).mem.sstat = s.mem.sstat := rfl
@[simp] theorem setAccount_bad (k : Nat) (f : Account → Account) (s : State) :
    (setAccount k f s).mem.bad = s.mem.bad := rfl
@[simp] theorem setAccount_lpWindow (k : Nat) (f : Account → Account) (s : State) :
    (setAccount k f s).mem.lpWindow = s.mem.lpWindow := rfl
@[simp] theorem setAccount_regions (k : Nat) (f : Account → Account) (s : State) :
    (setAccount k f s).mem.regions = s.mem.regions := rfl
@[simp] theorem setAccount_handles (k : Nat) (f : Account → Account) (s : State) :
    (setAccount k f s).mem.handles = s.mem.handles := rfl
@[simp] theorem setAccount_nextHandle (k : Nat) (f : Account → Account) (s : State) :
    (setAccount k f s).mem.nextHandle = s.mem.nextHandle := rfl
@[simp] theorem setAccount_windows (k : Nat) (f : Account → Account) (s : State) :
    (setAccount k f s).mem.windows = s.mem.windows := rfl
@[simp] theorem setAccount_demands (k : Nat) (f : Account → Account) (s : State) :
    (setAccount k f s).mem.demands = s.mem.demands := rfl
@[simp] theorem setAccount_limMoves (k : Nat) (f : Account → Account) (s : State) :
    (setAccount k f s).mem.limMoves = s.mem.limMoves := rfl
@[simp] theorem setAccount_scrubInterval (k : Nat) (f : Account → Account) (s : State) :
    (setAccount k f s).mem.scrubInterval = s.mem.scrubInterval := rfl
@[simp] theorem setAccount_scrubNext (k : Nat) (f : Account → Account) (s : State) :
    (setAccount k f s).mem.scrubNext = s.mem.scrubNext := rfl
@[simp] theorem setAccount_passes (k : Nat) (f : Account → Account) (s : State) :
    (setAccount k f s).mem.passes = s.mem.passes := rfl
@[simp] theorem setAccount_cleared (k : Nat) (f : Account → Account) (s : State) :
    (setAccount k f s).mem.cleared = s.mem.cleared := rfl
@[simp] theorem setAccount_suspect (k : Nat) (f : Account → Account) (s : State) :
    (setAccount k f s).mem.suspect = s.mem.suspect := rfl
@[simp] theorem setAccount_eccHbm (k : Nat) (f : Account → Account) (s : State) :
    (setAccount k f s).mem.eccHbm = s.mem.eccHbm := rfl
@[simp] theorem setAccount_eccLp (k : Nat) (f : Account → Account) (s : State) :
    (setAccount k f s).mem.eccLp = s.mem.eccLp := rfl
@[simp] theorem setAccount_evictHbm (k : Nat) (f : Account → Account) (s : State) :
    (setAccount k f s).mem.evictHbm = s.mem.evictHbm := rfl
@[simp] theorem setAccount_evictLp (k : Nat) (f : Account → Account) (s : State) :
    (setAccount k f s).mem.evictLp = s.mem.evictLp := rfl
@[simp] theorem setAccount_allocBusy (k : Nat) (f : Account → Account) (s : State) :
    (setAccount k f s).mem.allocBusy = s.mem.allocBusy := rfl
@[simp] theorem setAccount_pauseInHbm (k : Nat) (f : Account → Account) (s : State) :
    (setAccount k f s).mem.pauseInHbm = s.mem.pauseInHbm := rfl
@[simp] theorem setAccount_caches (k : Nat) (f : Account → Account) (s : State) :
    (setAccount k f s).mem.caches = s.mem.caches := rfl
@[simp] theorem setAccount_pcs (k : Nat) (f : Account → Account) (s : State) :
    (setAccount k f s).mem.pcs = s.mem.pcs := rfl
@[simp] theorem setAccount_lpchs (k : Nat) (f : Account → Account) (s : State) :
    (setAccount k f s).mem.lpchs = s.mem.lpchs := rfl
@[simp] theorem setAccount_retention (k : Nat) (f : Account → Account) (s : State) :
    (setAccount k f s).mem.retention = s.mem.retention := rfl
@[simp] theorem setStn_stns (d l n : Nat) (f : StnSt → StnSt) (s : State) :
    (setStn d l n f s).stns.stns = updBy (fun e => e.die = d && e.letter = l && e.num = n) f s.stns.stns := rfl
@[simp] theorem setStn_mapsApplied (d l n : Nat) (f : StnSt → StnSt) (s : State) :
    (setStn d l n f s).stns.mapsApplied = s.stns.mapsApplied := rfl
@[simp] theorem setStn_cfg (d l n : Nat) (f : StnSt → StnSt) (s : State) :
    (setStn d l n f s).stns.cfg = s.stns.cfg := rfl
@[simp] theorem setStn_unbound (d l n : Nat) (f : StnSt → StnSt) (s : State) :
    (setStn d l n f s).stns.unbound = s.stns.unbound := rfl

/-! ### Replies leave the host link's other parts alone -/

@[simp] theorem sendEntry_hellos (sid : Nat) (d : DevEntry) (s : State) : (sendEntry sid d s).net.hellos = s.net.hellos := by
  unfold sendEntry
  (repeat' split) <;> rfl
@[simp] theorem sendReply_hellos (sid src : Nat) (r : Reply) (s : State) : (sendReply sid src r s).net.hellos = s.net.hellos := by
  unfold sendReply
  split
  · rfl
  · exact sendEntry_hellos _ _ _
@[simp] theorem reply_hellos (h : Hdr) (op st d : Nat) (r : List Byte) (s : State) :
    (reply h op st d r s).net.hellos = s.net.hellos := sendReply_hellos _ _ _ _
@[simp] theorem replyOk_hellos (h : Hdr) (op : Nat) (r : List Byte) (s : State) :
    (replyOk h op r s).net.hellos = s.net.hellos := sendReply_hellos _ _ _ _
@[simp] theorem accept_hellos (h : Hdr) (op : Nat) (r : List Byte) (s : State) :
    (accept h op r s).net.hellos = s.net.hellos := sendReply_hellos _ _ _ _
@[simp] theorem finish_hellos (sid tag op st d : Nat) (r : List Byte) (s : State) :
    (finish sid tag op st d r s).net.hellos = s.net.hellos := sendEntry_hellos _ _ _
@[simp] theorem sendEntry_qps (sid : Nat) (d : DevEntry) (s : State) : (sendEntry sid d s).net.qps = s.net.qps := by
  unfold sendEntry
  (repeat' split) <;> rfl
@[simp] theorem sendReply_qps (sid src : Nat) (r : Reply) (s : State) : (sendReply sid src r s).net.qps = s.net.qps := by
  unfold sendReply
  split
  · rfl
  · exact sendEntry_qps _ _ _
@[simp] theorem reply_qps (h : Hdr) (op st d : Nat) (r : List Byte) (s : State) :
    (reply h op st d r s).net.qps = s.net.qps := sendReply_qps _ _ _ _
@[simp] theorem replyOk_qps (h : Hdr) (op : Nat) (r : List Byte) (s : State) :
    (replyOk h op r s).net.qps = s.net.qps := sendReply_qps _ _ _ _
@[simp] theorem accept_qps (h : Hdr) (op : Nat) (r : List Byte) (s : State) :
    (accept h op r s).net.qps = s.net.qps := sendReply_qps _ _ _ _
@[simp] theorem finish_qps (sid tag op st d : Nat) (r : List Byte) (s : State) :
    (finish sid tag op st d r s).net.qps = s.net.qps := sendEntry_qps _ _ _
@[simp] theorem sendEntry_nextQpn (sid : Nat) (d : DevEntry) (s : State) : (sendEntry sid d s).net.nextQpn = s.net.nextQpn := by
  unfold sendEntry
  (repeat' split) <;> rfl
@[simp] theorem sendReply_nextQpn (sid src : Nat) (r : Reply) (s : State) : (sendReply sid src r s).net.nextQpn = s.net.nextQpn := by
  unfold sendReply
  split
  · rfl
  · exact sendEntry_nextQpn _ _ _
@[simp] theorem reply_nextQpn (h : Hdr) (op st d : Nat) (r : List Byte) (s : State) :
    (reply h op st d r s).net.nextQpn = s.net.nextQpn := sendReply_nextQpn _ _ _ _
@[simp] theorem replyOk_nextQpn (h : Hdr) (op : Nat) (r : List Byte) (s : State) :
    (replyOk h op r s).net.nextQpn = s.net.nextQpn := sendReply_nextQpn _ _ _ _
@[simp] theorem accept_nextQpn (h : Hdr) (op : Nat) (r : List Byte) (s : State) :
    (accept h op r s).net.nextQpn = s.net.nextQpn := sendReply_nextQpn _ _ _ _
@[simp] theorem finish_nextQpn (sid tag op st d : Nat) (r : List Byte) (s : State) :
    (finish sid tag op st d r s).net.nextQpn = s.net.nextQpn := sendEntry_nextQpn _ _ _
@[simp] theorem sendEntry_opens (sid : Nat) (d : DevEntry) (s : State) : (sendEntry sid d s).net.opens = s.net.opens := by
  unfold sendEntry
  (repeat' split) <;> rfl
@[simp] theorem sendReply_opens (sid src : Nat) (r : Reply) (s : State) : (sendReply sid src r s).net.opens = s.net.opens := by
  unfold sendReply
  split
  · rfl
  · exact sendEntry_opens _ _ _
@[simp] theorem reply_opens (h : Hdr) (op st d : Nat) (r : List Byte) (s : State) :
    (reply h op st d r s).net.opens = s.net.opens := sendReply_opens _ _ _ _
@[simp] theorem replyOk_opens (h : Hdr) (op : Nat) (r : List Byte) (s : State) :
    (replyOk h op r s).net.opens = s.net.opens := sendReply_opens _ _ _ _
@[simp] theorem accept_opens (h : Hdr) (op : Nat) (r : List Byte) (s : State) :
    (accept h op r s).net.opens = s.net.opens := sendReply_opens _ _ _ _
@[simp] theorem finish_opens (sid tag op st d : Nat) (r : List Byte) (s : State) :
    (finish sid tag op st d r s).net.opens = s.net.opens := sendEntry_opens _ _ _
@[simp] theorem sendEntry_gone (sid : Nat) (d : DevEntry) (s : State) : (sendEntry sid d s).net.gone = s.net.gone := by
  unfold sendEntry
  (repeat' split) <;> rfl
@[simp] theorem sendReply_gone (sid src : Nat) (r : Reply) (s : State) : (sendReply sid src r s).net.gone = s.net.gone := by
  unfold sendReply
  split
  · rfl
  · exact sendEntry_gone _ _ _
@[simp] theorem reply_gone (h : Hdr) (op st d : Nat) (r : List Byte) (s : State) :
    (reply h op st d r s).net.gone = s.net.gone := sendReply_gone _ _ _ _
@[simp] theorem replyOk_gone (h : Hdr) (op : Nat) (r : List Byte) (s : State) :
    (replyOk h op r s).net.gone = s.net.gone := sendReply_gone _ _ _ _
@[simp] theorem accept_gone (h : Hdr) (op : Nat) (r : List Byte) (s : State) :
    (accept h op r s).net.gone = s.net.gone := sendReply_gone _ _ _ _
@[simp] theorem finish_gone (sid tag op st d : Nat) (r : List Byte) (s : State) :
    (finish sid tag op st d r s).net.gone = s.net.gone := sendEntry_gone _ _ _
@[simp] theorem sendEntry_discards (sid : Nat) (d : DevEntry) (s : State) : (sendEntry sid d s).net.discards = s.net.discards := by
  unfold sendEntry
  (repeat' split) <;> rfl
@[simp] theorem sendReply_discards (sid src : Nat) (r : Reply) (s : State) : (sendReply sid src r s).net.discards = s.net.discards := by
  unfold sendReply
  split
  · rfl
  · exact sendEntry_discards _ _ _
@[simp] theorem reply_discards (h : Hdr) (op st d : Nat) (r : List Byte) (s : State) :
    (reply h op st d r s).net.discards = s.net.discards := sendReply_discards _ _ _ _
@[simp] theorem replyOk_discards (h : Hdr) (op : Nat) (r : List Byte) (s : State) :
    (replyOk h op r s).net.discards = s.net.discards := sendReply_discards _ _ _ _
@[simp] theorem accept_discards (h : Hdr) (op : Nat) (r : List Byte) (s : State) :
    (accept h op r s).net.discards = s.net.discards := sendReply_discards _ _ _ _
@[simp] theorem finish_discards (sid tag op st d : Nat) (r : List Byte) (s : State) :
    (finish sid tag op st d r s).net.discards = s.net.discards := sendEntry_discards _ _ _
@[simp] theorem sendEntry_ethUp (sid : Nat) (d : DevEntry) (s : State) : (sendEntry sid d s).net.ethUp = s.net.ethUp := by
  unfold sendEntry
  (repeat' split) <;> rfl
@[simp] theorem sendReply_ethUp (sid src : Nat) (r : Reply) (s : State) : (sendReply sid src r s).net.ethUp = s.net.ethUp := by
  unfold sendReply
  split
  · rfl
  · exact sendEntry_ethUp _ _ _
@[simp] theorem reply_ethUp (h : Hdr) (op st d : Nat) (r : List Byte) (s : State) :
    (reply h op st d r s).net.ethUp = s.net.ethUp := sendReply_ethUp _ _ _ _
@[simp] theorem replyOk_ethUp (h : Hdr) (op : Nat) (r : List Byte) (s : State) :
    (replyOk h op r s).net.ethUp = s.net.ethUp := sendReply_ethUp _ _ _ _
@[simp] theorem accept_ethUp (h : Hdr) (op : Nat) (r : List Byte) (s : State) :
    (accept h op r s).net.ethUp = s.net.ethUp := sendReply_ethUp _ _ _ _
@[simp] theorem finish_ethUp (sid tag op st d : Nat) (r : List Byte) (s : State) :
    (finish sid tag op st d r s).net.ethUp = s.net.ethUp := sendEntry_ethUp _ _ _
@[simp] theorem sendEntry_failover (sid : Nat) (d : DevEntry) (s : State) : (sendEntry sid d s).net.failover = s.net.failover := by
  unfold sendEntry
  (repeat' split) <;> rfl
@[simp] theorem sendReply_failover (sid src : Nat) (r : Reply) (s : State) : (sendReply sid src r s).net.failover = s.net.failover := by
  unfold sendReply
  split
  · rfl
  · exact sendEntry_failover _ _ _
@[simp] theorem reply_failover (h : Hdr) (op st d : Nat) (r : List Byte) (s : State) :
    (reply h op st d r s).net.failover = s.net.failover := sendReply_failover _ _ _ _
@[simp] theorem replyOk_failover (h : Hdr) (op : Nat) (r : List Byte) (s : State) :
    (replyOk h op r s).net.failover = s.net.failover := sendReply_failover _ _ _ _
@[simp] theorem accept_failover (h : Hdr) (op : Nat) (r : List Byte) (s : State) :
    (accept h op r s).net.failover = s.net.failover := sendReply_failover _ _ _ _
@[simp] theorem finish_failover (sid tag op st d : Nat) (r : List Byte) (s : State) :
    (finish sid tag op st d r s).net.failover = s.net.failover := sendEntry_failover _ _ _
@[simp] theorem sendEntry_latches (sid : Nat) (d : DevEntry) (s : State) : (sendEntry sid d s).net.latches = s.net.latches := by
  unfold sendEntry
  (repeat' split) <;> rfl
@[simp] theorem sendReply_latches (sid src : Nat) (r : Reply) (s : State) : (sendReply sid src r s).net.latches = s.net.latches := by
  unfold sendReply
  split
  · rfl
  · exact sendEntry_latches _ _ _
@[simp] theorem reply_latches (h : Hdr) (op st d : Nat) (r : List Byte) (s : State) :
    (reply h op st d r s).net.latches = s.net.latches := sendReply_latches _ _ _ _
@[simp] theorem replyOk_latches (h : Hdr) (op : Nat) (r : List Byte) (s : State) :
    (replyOk h op r s).net.latches = s.net.latches := sendReply_latches _ _ _ _
@[simp] theorem accept_latches (h : Hdr) (op : Nat) (r : List Byte) (s : State) :
    (accept h op r s).net.latches = s.net.latches := sendReply_latches _ _ _ _
@[simp] theorem finish_latches (sid tag op st d : Nat) (r : List Byte) (s : State) :
    (finish sid tag op st d r s).net.latches = s.net.latches := sendEntry_latches _ _ _
@[simp] theorem sendEntry_events (sid : Nat) (d : DevEntry) (s : State) : (sendEntry sid d s).net.events = s.net.events := by
  unfold sendEntry
  (repeat' split) <;> rfl
@[simp] theorem sendReply_events (sid src : Nat) (r : Reply) (s : State) : (sendReply sid src r s).net.events = s.net.events := by
  unfold sendReply
  split
  · rfl
  · exact sendEntry_events _ _ _
@[simp] theorem reply_events (h : Hdr) (op st d : Nat) (r : List Byte) (s : State) :
    (reply h op st d r s).net.events = s.net.events := sendReply_events _ _ _ _
@[simp] theorem replyOk_events (h : Hdr) (op : Nat) (r : List Byte) (s : State) :
    (replyOk h op r s).net.events = s.net.events := sendReply_events _ _ _ _
@[simp] theorem accept_events (h : Hdr) (op : Nat) (r : List Byte) (s : State) :
    (accept h op r s).net.events = s.net.events := sendReply_events _ _ _ _
@[simp] theorem finish_events (sid tag op st d : Nat) (r : List Byte) (s : State) :
    (finish sid tag op st d r s).net.events = s.net.events := sendEntry_events _ _ _

/-! ### Look-ups after an update -/

/-- An update under a key changes what the look-up finds, and nothing of where it finds it. -/
theorem find_updBy {α : Type} (p : α → Bool) (f : α → α) (h : ∀ x, p (f x) = p x) (xs : List α) :
    (updBy p f xs).find? p = (xs.find? p).map f := by
  unfold updBy
  induction xs with
  | nil => rfl
  | cons x xs ih =>
    simp only [List.map_cons, List.find?_cons]
    cases hp : p x
    · simp only [Bool.false_eq_true, if_false, hp]; exact ih
    · simp [hp, h]

/-- An update of other entries leaves a look-up alone. -/
theorem find_updBy_ne {α : Type} (p q : α → Bool) (f : α → α) (h : ∀ x, q (f x) = q x) (hd : ∀ x, p x = true → q x = false) (xs : List α) :
    (updBy p f xs).find? q = xs.find? q := by
  unfold updBy
  induction xs with
  | nil => rfl
  | cons x xs ih =>
    simp only [List.map_cons, List.find?_cons]
    cases hp : p x
    · simp only [Bool.false_eq_true, if_false]; cases q x <;> simp [ih]
    · simp only [if_true, h, hd x hp]; exact ih

@[simp] theorem session_setSession (sid : Nat) (f : Session → Session) (h : ∀ x, (f x).id = x.id) (s : State) :
    (setSession sid f s).session sid = (s.session sid).map f := by
  simp [setSession, State.session]; exact find_updBy _ _ (by intro x; simp [h]) _

@[simp] theorem ctx_setCtx (n : Nat) (f : Ctx → Ctx) (h : ∀ x, (f x).num = x.num) (s : State) :
    (setCtx n f s).ctx n = (s.ctx n).map f := by
  simp [setCtx, State.ctx]; exact find_updBy _ _ (by intro x; simp [h]) _

@[simp] theorem cmd_setCmd (n : Nat) (f : Cmd → Cmd) (h : ∀ x, (f x).id = x.id) (s : State) :
    (setCmd n f s).cmd n = (s.cmd n).map f := by
  simp [setCmd, State.cmd]; exact find_updBy _ _ (by intro x; simp [h]) _

@[simp] theorem model_setModel (n : Nat) (f : Model → Model) (h : ∀ x, (f x).id = x.id) (s : State) :
    (setModel n f s).model n = (s.model n).map f := by
  simp [setModel, State.model]; exact find_updBy _ _ (by intro x; simp [h]) _

@[simp] theorem req_setReq (n : Nat) (f : Req → Req) (h : ∀ x, (f x).id = x.id) (s : State) :
    (setReq n f s).req n = (s.req n).map f := by
  simp [setReq, State.req]; exact find_updBy _ _ (by intro x; simp [h]) _

@[simp] theorem sorus_setSorus (n : Nat) (f : Sorus → Sorus) (h : ∀ x, (f x).id = x.id) (s : State) :
    (setSorus n f s).sorus n = (s.sorus n).map f := by
  simp [setSorus, State.sorus]; exact find_updBy _ _ (by intro x; simp [h]) _

@[simp] theorem link_setLink (n : Nat) (f : Link → Link) (h : ∀ x, (f x).port = x.port) (s : State) :
    (setLink n f s).link n = (s.link n).map f := by
  simp [setLink, State.link]; exact find_updBy _ _ (by intro x; simp [h]) _

@[simp] theorem handle_setHandle (n : Nat) (f : Handle → Handle) (h : ∀ x, (f x).id = x.id) (s : State) :
    (setHandle n f s).handle n = (s.handle n).map f := by
  simp [setHandle, State.handle]; exact find_updBy _ _ (by intro x; simp [h]) _

@[simp] theorem op_setOp (n : Nat) (f : GlobalOp → GlobalOp) (h : ∀ x, (f x).id = x.id) (s : State) :
    (setOp n f s).op n = (s.op n).map f := by
  simp [setOp, State.op]; exact find_updBy _ _ (by intro x; simp [h]) _

/-- A look-up depends on its part of the state only. -/
theorem lookups_of {s t : State} : (t.jobs = s.jobs → ∀ n, t.cmd n = s.cmd n) ∧ (t.jobs = s.jobs → ∀ n, t.ctx n = s.ctx n) ∧
  (t.models = s.models → ∀ n, t.model n = s.model n) ∧ (t.serve = s.serve → ∀ n, t.req n = s.req n) ∧
  (t.sori = s.sori → ∀ n, t.sorus n = s.sorus n) ∧ (t.fab = s.fab → ∀ n, t.link n = s.link n) ∧ (t.fab = s.fab → ∀ n, t.op n = s.op n) ∧
  (t.mem = s.mem → ∀ n, t.handle n = s.handle n) ∧ (t.net = s.net → ∀ n, t.session n = s.session n) := by
  refine ⟨?_, ?_, ?_, ?_, ?_, ?_, ?_, ?_, ?_⟩ <;> intro h n <;> simp [State.cmd, State.ctx, State.model, State.req, State.sorus, State.link, State.op, State.handle,
    State.session, h]

end Sys2Proof.Machine
end

