-- ==== Sys2Proof/Tests/Slice0.lean ====
section
/-! SUPPORT. Tests: a well-formed command for each row and an ill-formed one for each check of its operands; the worked
cases of the spec; and for each clause of a statement that has hypotheses, a state and operands that meet them all
together, at the edge of a range where the clause has one. -/
namespace Tests
open Sys2Proof Sys2Proof.Machine Sys2Proof.Claims
set_option maxRecDepth 20000
set_option linter.unusedVariables false
set_option linter.unusedTactic false
set_option linter.unreachableTactic false
set_option Elab.async false

/-! ### Well-formed commands -/

def baseHdr : Hdr := ⟨0, 0, 0, 0, 0, 0⟩

def baseQpEntry : QpEntry := ⟨0, 0, 0, 0⟩

def baseRawEntry : RawEntry := ⟨0, 0, 0, 0, 0, false, false, []⟩

def baseBcastPart : BcastPart := ⟨0, 0, 0, none⟩

def baseArrivalP : ArrivalP := ⟨[], none⟩

def baseAllocP : AllocP := ⟨0, 0, 0, 0, 0, 0, 0, 0⟩

def baseBeatInput : BeatInput := ⟨List.replicate 7 0, 0, [], []⟩

def baseConvF : ConvF := ⟨0, false, 0, 0, 0, 0, 0#32⟩

def baseCombineF : CombineF := ⟨0, 0, false, 0, 0, 0, baseConvF⟩

def baseConvertF : ConvertF := ⟨0, false, 0, 0#32, baseConvF⟩

def baseCopyP : CopyP := ⟨0, 0, 0, 0, 0, 0⟩

def baseCountF : CountF := ⟨0, false, 0, 0, 0⟩

def baseCountRec : CountRec := ⟨0, 0, 0, 0, 0, 0, false, []⟩

def baseCtxP : CtxP := ⟨0, 0, 0, 0⟩

def baseEwiseF : EwiseF := ⟨0, 0, 0, false, 0, 0#32, 0#32, baseConvF⟩

def baseFDrainF : FDrainF := ⟨0, false, baseConvF⟩

def baseFHadF : FHadF := ⟨false, 0, 0, 0, 0, baseConvF⟩

def baseFLoadF : FLoadF := ⟨false, 0, 0, 0, 0, false, 0, 0, 0⟩

def baseFMmaF : FMmaF := ⟨false, 0, false, 0, 0, false, 0, 0, 0⟩

def baseFabReq : FabReq := ⟨0, 0, 0, 0, 0, 0, false, 0, (.load 32)⟩

def baseFabResp : FabResp := ⟨0, false, false, false, []⟩

def baseFrame : Frame := ⟨0, 0, 0, 0, 0, 0, 0, 0, 0, false, false, false, false, []⟩

def baseHelloP : HelloP := ⟨0, 0, 0, 0, 0, 0, 0⟩

def baseHintF : HintF := ⟨0, 0, 0, 0, 0⟩

def baseIdentRec : IdentRec := ⟨0, 0, 0, 0, 0⟩

def baseLaunchP : LaunchP := ⟨0, 0, 0, 0, 0, 0, 0, List.replicate 16 0, []⟩

def baseMoveF : MoveF := ⟨0, 0, 0, 0, 0, 0, 0, 0⟩

def baseNdQuery : NdQuery := ⟨0, false, 0⟩

def baseNormF : NormF := ⟨false, 0, false, false, false, 0, 0, 0#32, 0, baseConvF⟩

def baseOptF : OptF := ⟨0, 0, 0, 0, 0#32, 0#32, 0#32, 0#32, 0#32, baseConvF⟩

def basePlace : Place := ⟨0, 0⟩

def baseRdmaP : RdmaP := ⟨0, false, 0, 0, 0, false, []⟩

def baseReconcile : Reconcile := ⟨[], [], [], [], false, false, false⟩

def baseRopeF : RopeF := ⟨false, 0, 0, false, 0, 0, 0#32, 0, 0#32, 0, baseConvF⟩

def baseSampleF : SampleF := ⟨0, 0, 0, 0⟩

def baseScanF : ScanF := ⟨0, false, false, 0, 0⟩

def baseSoftmaxF : SoftmaxF := ⟨false, 0, false, false, false, 0, 0#32, 0, baseConvF⟩

def baseSortF : SortF := ⟨0, false, false, 0, 0, 0, 0, 0, 0⟩

def baseStageInput : StageInput := ⟨.ok, false, [], false, 0, 0⟩

def baseStepLaunchP : StepLaunchP := ⟨false, 0, none, 0, 0, [], []⟩

def baseSubmitP : SubmitP := ⟨0, 0, 0, 0, 0, 0#32, 0, 0#32, 0#32, 0, 0, 0, 0, 0, 0, 0, [], 0, 0, []⟩

def baseTMoveF : TMoveF := ⟨0, 0, 0, 0, 0, 0⟩

def baseTopkF : TopkF := ⟨0, false, 0, 0, 0, 0⟩

def baseTransitP : TransitP := ⟨0, 0, 0, 0, 0, 0⟩

def baseVariantP : VariantP := ⟨0, 0, 0, 0, 0, 0⟩

def baseWinRef : WinRef := ⟨0, 0, 0⟩

def baseXRow : XRow := ⟨0, 0, 0, 0, 0, false, 0, 0, 0, 0, 1, 0, 0, 0#32, [], [], false⟩

def baseXferF : XferF := ⟨0, false, 0, 0, 0, 0⟩

def baseZOrder : ZOrder := ⟨false, false⟩

def baseZAtomicF : ZAtomicF := ⟨baseZOrder, 0, 0, 0, 0, 0⟩

def baseZCopyF : ZCopyF := ⟨baseZOrder, false, 0, 0, none, 0, 0, 0, 0⟩

def baseZInvalF : ZInvalF := ⟨baseZOrder, false, 0, 0, 0⟩

def baseZReduceF : ZReduceF := ⟨baseZOrder, false, false, 0, 0, 0, 0, 0, 0, 0, 0, 0, 0⟩

def baseZTxnF : ZTxnF := ⟨baseZOrder, 0, 0, 0, 0, 0, 0, 0⟩

def baseZWaitF : ZWaitF := ⟨baseZOrder, 0, 0⟩

def baseZXchgF : ZXchgF := ⟨baseZOrder, 0, 0, 0, 0, 0, 0, 0, 0, 0, 0, 0, 0⟩

theorem test_refuses_hdrOk : ([baseHdr] : List (Hdr)).all Sys2Proof.hdrOk = true ∧ ([{ baseHdr with session := 2 ^ 32 },
    { baseHdr with tag := 2 ^ 32 }, { baseHdr with cflags := 2 ^ 16 }, { baseHdr with sorus := 2 ^ 32 }, { baseHdr with port := 2 }] : List
    (Hdr)).any Sys2Proof.hdrOk = false := by decide

theorem test_refuses_helloOk : ([baseHelloP] : List (HelloP)).all Sys2Proof.helloOk = true ∧ ([{ baseHelloP with minMajor := 2 ^ 8 },
    { baseHelloP with minMinor := 2 ^ 8 }, { baseHelloP with maxMajor := 2 ^ 8 }, { baseHelloP with maxMinor := 2 ^ 8 },
    { baseHelloP with mtu := 2 ^ 16 }, { baseHelloP with idle := 2 ^ 16 }, { baseHelloP with features := 2 ^ 64 }] : List (HelloP)).any
    Sys2Proof.helloOk = false := by decide

theorem test_refuses_winRefOk : ([baseWinRef] : List (WinRef)).all Sys2Proof.winRefOk = true ∧ ([{ baseWinRef with window := 2 ^ 16 },
    { baseWinRef with offset := 2 ^ 64 }, { baseWinRef with bytes := 2 ^ 64 }] : List (WinRef)).any Sys2Proof.winRefOk = false := by decide

theorem test_refuses_variantOk : ([baseVariantP] : List (VariantP)).all Sys2Proof.variantOk = true ∧
    ([{ baseVariantP with modelId := 2 ^ 64 }, { baseVariantP with variant := 2 ^ 16 }, { baseVariantP with slots := 2 ^ 64 },
    { baseVariantP with window := 2 ^ 16 }, { baseVariantP with entries := 2 ^ 32 }, { baseVariantP with offset := 2 ^ 64 }] : List
    (VariantP)).any Sys2Proof.variantOk = false := by decide

theorem test_refuses_submitOk : ([baseSubmitP] : List (SubmitP)).all Sys2Proof.submitOk = true ∧ ([{ baseSubmitP with modelId := 2 ^ 64 },
    { baseSubmitP with variant := 2 ^ 16 }, { baseSubmitP with flags := 2 ^ 16 }, { baseSubmitP with promptLen := 2 ^ 32 },
    { baseSubmitP with maxNew := 2 ^ 32 }, { baseSubmitP with topK := 2 ^ 32 }, { baseSubmitP with stream := 2 ^ 32 },
    { baseSubmitP with seed := 2 ^ 64 }, { baseSubmitP with deadline := 2 ^ 64 }, { baseSubmitP with pauseTtl := 2 ^ 32 },
    { baseSubmitP with scoreFrom := 2 ^ 32 }, { baseSubmitP with logpBasis := 2 ^ 8 }, { baseSubmitP with topN := 2 ^ 8 },
    { baseSubmitP with window := 2 ^ 16 }, { baseSubmitP with windowOffset := 2 ^ 64 }, { baseSubmitP with stops := List.replicate 9 0 },
    { baseSubmitP with stops := [2 ^ 32] }, { baseSubmitP with tokens := [2 ^ 32] }] : List (SubmitP)).any Sys2Proof.submitOk = false := by
    decide

theorem test_refuses_launchOk : ([baseLaunchP] : List (LaunchP)).all Sys2Proof.launchOk = true ∧ ([{ baseLaunchP with program := 2 ^ 32 },
    { baseLaunchP with ctx := 2 ^ 8 }, { baseLaunchP with queue := 2 ^ 8 }, { baseLaunchP with iteration := 2 ^ 32 },
    { baseLaunchP with epoch := 2 ^ 32 }, { baseLaunchP with modelId := 2 ^ 64 }, { baseLaunchP with commitBeat := 2 ^ 64 },
    { baseLaunchP with handles := List.replicate 65 0 }, { baseLaunchP with addr := List.replicate 15 0 },
    { baseLaunchP with addr := 2 ^ 64 :: List.replicate 15 0 }, { baseLaunchP with handles := [2 ^ 32] }] : List (LaunchP)).any
    Sys2Proof.launchOk = false := by decide

theorem test_refuses_ctxOk : ([baseCtxP] : List (CtxP)).all Sys2Proof.ctxOk = true ∧ ([{ baseCtxP with job := 2 ^ 16 },
    { baseCtxP with wdog := 2 ^ 32 }, { baseCtxP with roundKey := 2 ^ 64 }, { baseCtxP with members := 2 ^ 256 }] : List (CtxP)).any
    Sys2Proof.ctxOk = false := by decide

theorem test_refuses_allocOk : ([baseAllocP] : List (AllocP)).all Sys2Proof.allocOk = true ∧ ([{ baseAllocP with account := 2 ^ 8 },
    { baseAllocP with kind := 2 ^ 8 }, { baseAllocP with rights := 2 ^ 8 }, { baseAllocP with plan := 2 ^ 32 },
    { baseAllocP with bytes := 2 ^ 64 }, { baseAllocP with modelId := 2 ^ 64 }, { baseAllocP with stripeBase := 2 ^ 64 },
    { baseAllocP with members := 2 ^ 256 }] : List (AllocP)).any Sys2Proof.allocOk = false := by decide

theorem test_refuses_copyOk : ([baseCopyP] : List (CopyP)).all Sys2Proof.copyOk = true ∧ ([{ baseCopyP with ctx := 2 ^ 8 },
    { baseCopyP with src := 2 ^ 32 }, { baseCopyP with dst := 2 ^ 32 }, { baseCopyP with srcOffset := 2 ^ 64 },
    { baseCopyP with dstOffset := 2 ^ 64 }, { baseCopyP with bytes := 2 ^ 64 }] : List (CopyP)).any Sys2Proof.copyOk = false := by decide

theorem test_refuses_placeOk : ([basePlace] : List (Place)).all Sys2Proof.placeOk = true ∧ ([{ basePlace with cmd := 2 ^ 32 },
    { basePlace with code := 2 ^ 12 }] : List (Place)).any Sys2Proof.placeOk = false := by decide

theorem test_refuses_hintOk : ([baseHintF] : List (HintF)).all Sys2Proof.hintOk = true ∧ ([{ baseHintF with cls := 2 ^ 8 },
    { baseHintF with scope := 2 ^ 8 }, { baseHintF with ahead := 2 ^ 16 }, { baseHintF with span := 2 ^ 32 }, { baseHintF with load := 2 ^ 8 }]
    : List (HintF)).any Sys2Proof.hintOk = false := by decide

theorem test_refuses_xferOk : ([baseXferF] : List (XferF)).all Sys2Proof.xferOk = true ∧ ([{ baseXferF with channel := 2 ^ 8 },
    { baseXferF with handle := 2 ^ 8 }, { baseXferF with tiles := 2 ^ 32 }, { baseXferF with offset := 2 ^ 64 },
    { baseXferF with stride := 2 ^ 64 }] : List (XferF)).any Sys2Proof.xferOk = false := by decide

theorem test_refuses_fLoadOk : ([baseFLoadF] : List (FLoadF)).all Sys2Proof.fLoadOk = true ∧ ([{ baseFLoadF with format := 2 ^ 8 },
    { baseFLoadF with partner := 2 ^ 8 }, { baseFLoadF with arrange := 2 ^ 8 }, { baseFLoadF with sets := 2 ^ 8 },
    { baseFLoadF with holdBase := 2 ^ 16 }, { baseFLoadF with kBase := 2 ^ 16 }, { baseFLoadF with kCount := 2 ^ 16 }] : List (FLoadF)).any
    Sys2Proof.fLoadOk = false := by decide

theorem test_refuses_fMmaOk : ([baseFMmaF] : List (FMmaF)).all Sys2Proof.fMmaOk = true ∧ ([{ baseFMmaF with format := 2 ^ 8 },
    { baseFMmaF with bank := 2 ^ 8 }, { baseFMmaF with init := 2 ^ 8 }, { baseFMmaF with holdBase := 2 ^ 16 },
    { baseFMmaF with rows := 2 ^ 16 }, { baseFMmaF with tileKBase := 2 ^ 16 }] : List (FMmaF)).any Sys2Proof.fMmaOk = false := by decide

theorem test_refuses_convOk : ([baseConvF] : List (ConvF)).all Sys2Proof.convOk = true ∧ ([{ baseConvF with format := 2 ^ 8 },
    { baseConvF with tensorId := 2 ^ 32 }, { baseConvF with iteration := 2 ^ 32 }, { baseConvF with rowBase := 2 ^ 32 },
    { baseConvF with colBase := 2 ^ 32 }] : List (ConvF)).any Sys2Proof.convOk = false := by decide

theorem test_refuses_fDrainOk : ([baseFDrainF] : List (FDrainF)).all Sys2Proof.fDrainOk = true ∧ ([{ baseFDrainF with bank := 2 ^ 8 },
    { baseFDrainF with conv := { baseConvF with format := 2 ^ 8 } }] : List (FDrainF)).any Sys2Proof.fDrainOk = false := by decide

theorem test_refuses_fHadOk : ([baseFHadF] : List (FHadF)).all Sys2Proof.fHadOk = true ∧ ([{ baseFHadF with formatA := 2 ^ 8 },
    { baseFHadF with formatB := 2 ^ 8 }, { baseFHadF with holdBase := 2 ^ 16 }, { baseFHadF with tiles := 2 ^ 32 },
    { baseFHadF with conv := { baseConvF with format := 2 ^ 8 } }] : List (FHadF)).any Sys2Proof.fHadOk = false := by decide

theorem test_refuses_ewiseOk : ([baseEwiseF] : List (EwiseF)).all Sys2Proof.ewiseOk = true ∧ ([{ baseEwiseF with func := 2 ^ 8 },
    { baseEwiseF with formatA := 2 ^ 8 }, { baseEwiseF with formatB := 2 ^ 8 }, { baseEwiseF with tiles := 2 ^ 32 },
    { baseEwiseF with conv := { baseConvF with format := 2 ^ 8 } }] : List (EwiseF)).any Sys2Proof.ewiseOk = false := by decide

theorem test_refuses_softmaxOk : ([baseSoftmaxF] : List (SoftmaxF)).all Sys2Proof.softmaxOk = true ∧
    ([{ baseSoftmaxF with format := 2 ^ 8 }, { baseSoftmaxF with rowLen := 2 ^ 32 }, { baseSoftmaxF with rowGroups := 2 ^ 32 },
    { baseSoftmaxF with conv := { baseConvF with format := 2 ^ 8 } }] : List (SoftmaxF)).any Sys2Proof.softmaxOk = false := by decide

theorem test_refuses_normOk : ([baseNormF] : List (NormF)).all Sys2Proof.normOk = true ∧ ([{ baseNormF with format := 2 ^ 8 },
    { baseNormF with gbFormat := 2 ^ 8 }, { baseNormF with rowLen := 2 ^ 32 }, { baseNormF with rowGroups := 2 ^ 32 },
    { baseNormF with conv := { baseConvF with format := 2 ^ 8 } }] : List (NormF)).any Sys2Proof.normOk = false := by decide

theorem test_refuses_ropeOk : ([baseRopeF] : List (RopeF)).all Sys2Proof.ropeOk = true ∧ ([{ baseRopeF with format := 2 ^ 8 },
    { baseRopeF with posMode := 2 ^ 8 }, { baseRopeF with headDim := 2 ^ 16 }, { baseRopeF with rotDim := 2 ^ 16 },
    { baseRopeF with posBase := 2 ^ 32 }, { baseRopeF with tiles := 2 ^ 32 }, { baseRopeF with conv := { baseConvF with format := 2 ^ 8 } }] :
    List (RopeF)).any Sys2Proof.ropeOk = false := by decide

theorem test_refuses_convertOk : ([baseConvertF] : List (ConvertF)).all Sys2Proof.convertOk = true ∧
    ([{ baseConvertF with inFormat := 2 ^ 8 }, { baseConvertF with tiles := 2 ^ 32 },
    { baseConvertF with conv := { baseConvF with format := 2 ^ 8 } }] : List (ConvertF)).any Sys2Proof.convertOk = false := by decide

theorem test_refuses_combineOk : ([baseCombineF] : List (CombineF)).all Sys2Proof.combineOk = true ∧
    ([{ baseCombineF with format := 2 ^ 8 }, { baseCombineF with topk := 2 ^ 8 }, { baseCombineF with gen := 2 ^ 8 },
    { baseCombineF with rows := 2 ^ 32 }, { baseCombineF with rowLen := 2 ^ 32 },
    { baseCombineF with conv := { baseConvF with format := 2 ^ 8 } }] : List (CombineF)).any Sys2Proof.combineOk = false := by decide

theorem test_refuses_optOk : ([baseOptF] : List (OptF)).all Sys2Proof.optOk = true ∧ ([{ baseOptF with mFormat := 2 ^ 8 },
    { baseOptF with vFormat := 2 ^ 8 }, { baseOptF with wFormat := 2 ^ 8 }, { baseOptF with gFormat := 2 ^ 8 },
    { baseOptF with conv := { baseConvF with format := 2 ^ 8 } }] : List (OptF)).any Sys2Proof.optOk = false := by decide

theorem test_refuses_sampleOk : ([baseSampleF] : List (SampleF)).all Sys2Proof.sampleOk = true ∧ ([{ baseSampleF with logpBasis := 2 ^ 8 },
    { baseSampleF with topN := 2 ^ 8 }, { baseSampleF with kCand := 2 ^ 16 }, { baseSampleF with rowGroups := 2 ^ 32 }] : List (SampleF)).any
    Sys2Proof.sampleOk = false := by decide

theorem test_refuses_topkOk : ([baseTopkF] : List (TopkF)).all Sys2Proof.topkOk = true ∧ ([{ baseTopkF with format := 2 ^ 8 },
    { baseTopkF with k := 2 ^ 16 }, { baseTopkF with rowLen := 2 ^ 32 }, { baseTopkF with indexBase := 2 ^ 32 },
    { baseTopkF with rowGroups := 2 ^ 32 }] : List (TopkF)).any Sys2Proof.topkOk = false := by decide

theorem test_refuses_countOk : ([baseCountF] : List (CountF)).all Sys2Proof.countOk = true ∧ ([{ baseCountF with slots := 2 ^ 8 },
    { baseCountF with bins := 2 ^ 32 }, { baseCountF with rows := 2 ^ 32 }, { baseCountF with holdBase := 2 ^ 16 }] : List (CountF)).any
    Sys2Proof.countOk = false := by decide

theorem test_refuses_scanOk : ([baseScanF] : List (ScanF)).all Sys2Proof.scanOk = true ∧ ([{ baseScanF with bins := 2 ^ 32 },
    { baseScanF with cap := 2 ^ 32 }, { baseScanF with holdBase := 2 ^ 16 }] : List (ScanF)).any Sys2Proof.scanOk = false := by decide

theorem test_refuses_sortOk : ([baseSortF] : List (SortF)).all Sys2Proof.sortOk = true ∧ ([{ baseSortF with slots := 2 ^ 8 },
    { baseSortF with bins := 2 ^ 32 }, { baseSortF with rows := 2 ^ 32 }, { baseSortF with cap := 2 ^ 32 },
    { baseSortF with offsetBase := 2 ^ 16 }, { baseSortF with mapBase := 2 ^ 16 }, { baseSortF with destBase := 2 ^ 64 }] : List (SortF)).any
    Sys2Proof.sortOk = false := by decide

theorem test_refuses_moveOk : ([baseMoveF] : List (MoveF)).all Sys2Proof.moveOk = true ∧ ([{ baseMoveF with rowBytes := 2 ^ 16 },
    { baseMoveF with offset := 2 ^ 16 }, { baseMoveF with scaleBytes := 2 ^ 8 }, { baseMoveF with scaleSlot := 2 ^ 8 },
    { baseMoveF with format := 2 ^ 8 }, { baseMoveF with tiles := 2 ^ 32 }, { baseMoveF with kExtent := 2 ^ 16 }] : List (MoveF)).any
    Sys2Proof.moveOk = false := by decide

theorem test_refuses_tMoveOk : ([baseTMoveF] : List (TMoveF)).all Sys2Proof.tMoveOk = true ∧ ([{ baseTMoveF with src := 2 ^ 8 },
    { baseTMoveF with dst := 2 ^ 8 }, { baseTMoveF with pattern := 2 ^ 32 }, { baseTMoveF with srcOffset := 2 ^ 64 },
    { baseTMoveF with dstOffset := 2 ^ 64 }, { baseTMoveF with bytes := 2 ^ 64 }] : List (TMoveF)).any Sys2Proof.tMoveOk = false := by
    decide

theorem test_refuses_zCopyOk : ([baseZCopyF] : List (ZCopyF)).all Sys2Proof.zCopyOk = true ∧ ([{ baseZCopyF with handle := 2 ^ 8 },
    { baseZCopyF with aslot := 2 ^ 8 }, { baseZCopyF with localOffset := 2 ^ 64 }, { baseZCopyF with remote := 2 ^ 64 },
    { baseZCopyF with bytes := 2 ^ 64 }, { baseZCopyF with inc := 2 ^ 32 }, { baseZCopyF with counter := some (2 ^ 16) }] : List (ZCopyF)).any
    Sys2Proof.zCopyOk = false := by decide

theorem test_refuses_zWaitOk : ([baseZWaitF] : List (ZWaitF)).all Sys2Proof.zWaitOk = true ∧ ([{ baseZWaitF with counter := 2 ^ 32 },
    { baseZWaitF with value := 2 ^ 64 }] : List (ZWaitF)).any Sys2Proof.zWaitOk = false := by decide

theorem test_refuses_zAtomicOk : ([baseZAtomicF] : List (ZAtomicF)).all Sys2Proof.zAtomicOk = true ∧ ([{ baseZAtomicF with src := 2 ^ 8 },
    { baseZAtomicF with dst := 2 ^ 8 }, { baseZAtomicF with count := 2 ^ 32 }, { baseZAtomicF with srcOffset := 2 ^ 64 },
    { baseZAtomicF with dstOffset := 2 ^ 64 }] : List (ZAtomicF)).any Sys2Proof.zAtomicOk = false := by decide

theorem test_refuses_zInvalOk : ([baseZInvalF] : List (ZInvalF)).all Sys2Proof.zInvalOk = true ∧ ([{ baseZInvalF with aslot := 2 ^ 8 },
    { baseZInvalF with addr := 2 ^ 64 }, { baseZInvalF with bytes := 2 ^ 64 }] : List (ZInvalF)).any Sys2Proof.zInvalOk = false := by decide

theorem test_refuses_zReduceOk : ([baseZReduceF] : List (ZReduceF)).all Sys2Proof.zReduceOk = true ∧
    ([{ baseZReduceF with inFormat := 2 ^ 8 }, { baseZReduceF with outFormat := 2 ^ 8 }, { baseZReduceF with src := 2 ^ 8 },
    { baseZReduceF with dst := 2 ^ 8 }, { baseZReduceF with first := 2 ^ 16 }, { baseZReduceF with step := 2 ^ 16 },
    { baseZReduceF with count := 2 ^ 16 }, { baseZReduceF with elements := 2 ^ 64 }, { baseZReduceF with srcOffset := 2 ^ 64 },
    { baseZReduceF with dstOffset := 2 ^ 64 }] : List (ZReduceF)).any Sys2Proof.zReduceOk = false := by decide

theorem test_refuses_zXchgOk : ([baseZXchgF] : List (ZXchgF)).all Sys2Proof.zXchgOk = true ∧ ([{ baseZXchgF with role := 2 ^ 8 },
    { baseZXchgF with half := 2 ^ 8 }, { baseZXchgF with model := 2 ^ 8 }, { baseZXchgF with layer := 2 ^ 16 },
    { baseZXchgF with pieces := 2 ^ 8 }, { baseZXchgF with buf := 2 ^ 8 }, { baseZXchgF with ret := 2 ^ 8 },
    { baseZXchgF with lslot := 2 ^ 16 }, { baseZXchgF with round := 2 ^ 32 }, { baseZXchgF with pieceStride := 2 ^ 64 },
    { baseZXchgF with countOffset := 2 ^ 64 }, { baseZXchgF with bufOffset := 2 ^ 64 }] : List (ZXchgF)).any Sys2Proof.zXchgOk = false := by
    decide

theorem test_refuses_zTxnOk : ([baseZTxnF] : List (ZTxnF)).all Sys2Proof.zTxnOk = true ∧ ([{ baseZTxnF with src := 2 ^ 8 },
    { baseZTxnF with res := 2 ^ 8 }, { baseZTxnF with aslot := 2 ^ 8 }, { baseZTxnF with count := 2 ^ 8 },
    { baseZTxnF with srcOffset := 2 ^ 64 }, { baseZTxnF with resOffset := 2 ^ 64 }, { baseZTxnF with beat := 2 ^ 64 }] : List (ZTxnF)).any
    Sys2Proof.zTxnOk = false := by decide

theorem test_refuses_fabReqOk : ([baseFabReq] : List (FabReq)).all Sys2Proof.fabReqOk = true ∧ ([{ baseFabReq with pkg := 2 ^ 8 },
    { baseFabReq with agent := 2 ^ 17 }, { baseFabReq with job := 2 ^ 16 }, { baseFabReq with ctx := 2 ^ 8 },
    { baseFabReq with issueLow := 2 ^ 10 }, { baseFabReq with addr := 2 ^ 64 }] : List (FabReq)).any Sys2Proof.fabReqOk = false := by decide

theorem test_refuses_fabRespOk : ([baseFabResp] : List (FabResp)).all Sys2Proof.fabRespOk = true ∧ ([{ baseFabResp with access := 2 ^ 32 },
    { baseFabResp with data := List.replicate 257 0#8 }] : List (FabResp)).any Sys2Proof.fabRespOk = false := by decide

theorem test_refuses_countRecOk : ([baseCountRec] : List (CountRec)).all Sys2Proof.countRecOk = true ∧ ([{ baseCountRec with pkg := 2 ^ 8 },
    { baseCountRec with job := 2 ^ 16 }, { baseCountRec with model := 2 ^ 64 }, { baseCountRec with layer := 2 ^ 16 },
    { baseCountRec with gen := 2 ^ 8 }, { baseCountRec with half := 2 }] : List (CountRec)).any Sys2Proof.countRecOk = false := by decide

theorem test_refuses_xRowOk : ([baseXRow] : List (XRow)).all Sys2Proof.xRowOk = true ∧ ([{ baseXRow with pkg := 2 ^ 8 },
    { baseXRow with job := 2 ^ 16 }, { baseXRow with model := 2 ^ 64 }, { baseXRow with layer := 2 ^ 16 }, { baseXRow with lslot := 2 ^ 12 },
    { baseXRow with format := 2 ^ 8 }, { baseXRow with kExtent := 2 ^ 16 }, { baseXRow with half := 2 },
    { baseXRow with data := List.replicate 257 0#8 }, { baseXRow with scales := List.replicate 17 0#8 }, { baseXRow with piece := 1 }] : List
    (XRow)).any Sys2Proof.xRowOk = false := by decide

theorem test_refuses_identOk : ([baseIdentRec] : List (IdentRec)).all Sys2Proof.identOk = true ∧
    ([{ baseIdentRec with recordTag := 2 ^ 64 }, { baseIdentRec with pkg := 2 ^ 8 }, { baseIdentRec with port := 2 ^ 8 },
    { baseIdentRec with verMin := 2 ^ 8 }, { baseIdentRec with verMax := 2 ^ 8 }] : List (IdentRec)).any Sys2Proof.identOk = false := by
    decide

theorem test_refuses_hwUnitOk : ([.station 6 4 63, .pc 255, .lpch 31, .fabLane 14 8, .fabLane 23 7, .bridgeLane 13 255, .eth 1, .pair 2]
    : List (HwUnit)).all Sys2Proof.hwUnitOk = true ∧ ([.station 7 0 0, .station 0 5 0, .station 0 0 64, .pc 256, .lpch 32, .fabLane 15
    0, .fabLane 0 9, .fabLane 16 8, .fabLane 24 0, .bridgeLane 14 0, .bridgeLane 0 256, .eth 2, .pair 3] : List (HwUnit)).any
    Sys2Proof.hwUnitOk = false := by decide

theorem test_refuses_frameOk : ([baseFrame] : List (Frame)).all Sys2Proof.frameOk = true ∧ ([{ baseFrame with magic := 2 ^ 16 },
    { baseFrame with verMajor := 2 ^ 8 }, { baseFrame with verMinor := 2 ^ 8 }, { baseFrame with session := 2 ^ 32 },
    { baseFrame with seq := 2 ^ 32 }, { baseFrame with ack := 2 ^ 32 }, { baseFrame with ackMap := 2 ^ 64 }, { baseFrame with port := 2 },
    { baseFrame with entries := List.replicate 65 baseRawEntry }, { baseFrame with entries := [{ baseRawEntry with opcode := 2 ^ 16 }] },
    { baseFrame with entries := [{ baseRawEntry with cflags := 2 ^ 16 }] }, { baseFrame with entries := [{ baseRawEntry with tag := 2 ^ 32 }] },
    { baseFrame with entries := [{ baseRawEntry with plen := 2 ^ 32 }] }, { baseFrame with entries := [{ baseRawEntry with sorus := 2 ^ 32 }] }]
    : List (Frame)).any Sys2Proof.frameOk = false := by decide

theorem test_refuses_rdmaOk : ([baseRdmaP] : List (RdmaP)).all Sys2Proof.rdmaOk = true ∧ ([{ baseRdmaP with qpn := 2 ^ 24 },
    { baseRdmaP with window := 2 ^ 16 }, { baseRdmaP with rKey := 2 ^ 32 }, { baseRdmaP with offset := 2 ^ 64 }] : List (RdmaP)).any
    Sys2Proof.rdmaOk = false := by decide

theorem test_refuses_prepSourceOk : ([.fabric, .host baseHdr] : List (PrepSource)).all Sys2Proof.prepSourceOk = true ∧ ([.host
    { baseHdr with port := 2 }] : List (PrepSource)).any Sys2Proof.prepSourceOk = false := by decide

theorem test_refuses_stepLaunchOk : ([baseStepLaunchP] : List (StepLaunchP)).all Sys2Proof.stepLaunchOk = true ∧
    ([{ baseStepLaunchP with modelId := 2 ^ 64 }, { baseStepLaunchP with program := 2 ^ 32 }, { baseStepLaunchP with queue := 2 ^ 8 }] : List
    (StepLaunchP)).any Sys2Proof.stepLaunchOk = false := by decide

theorem test_refuses_transitOk : ([baseTransitP] : List (TransitP)).all Sys2Proof.transitOk = true ∧ ([{ baseTransitP with src := 2 ^ 8 },
    { baseTransitP with dest := 2 ^ 8 }, { baseTransitP with addr := 2 ^ 64 }, { baseTransitP with bytes := 2 ^ 16 },
    { baseTransitP with issueLow := 2 ^ 10 }, { baseTransitP with channel := 15 }] : List (TransitP)).any Sys2Proof.transitOk = false := by
    decide

theorem test_refuses_bcastOk : ([baseBcastPart] : List (BcastPart)).all Sys2Proof.bcastOk = true ∧ ([{ baseBcastPart with root := 2 ^ 8 },
    { baseBcastPart with bytes := 2 ^ 64 }, { baseBcastPart with base := 2 ^ 57 }] : List (BcastPart)).any Sys2Proof.bcastOk = false := by
    decide

theorem test_refuses_partOk : ([none, some baseBcastPart] : List (Option BcastPart)).all Sys2Proof.partOk = true ∧ ([some
    { baseBcastPart with root := 2 ^ 8 }] : List (Option BcastPart)).any Sys2Proof.partOk = false := by decide

theorem test_refuses_arrivalOk : ([baseArrivalP] : List (ArrivalP)).all Sys2Proof.arrivalOk = true ∧
    ([{ baseArrivalP with merged := [2 ^ 8] }, { baseArrivalP with part := some { baseBcastPart with root := 2 ^ 8 } }] : List (ArrivalP)).any
    Sys2Proof.arrivalOk = false := by decide

theorem test_refuses_qpsOk : ([[baseQpEntry]] : List (List QpEntry)).all Sys2Proof.qpsOk = true ∧ ([List.replicate 256 baseQpEntry,
    [{ baseQpEntry with qpn := 2 ^ 24 }], [{ baseQpEntry with port := 2 ^ 8 }], [{ baseQpEntry with psn := 2 ^ 24 }],
    [{ baseQpEntry with pmtu := 2 ^ 8 }]] : List (List QpEntry)).any Sys2Proof.qpsOk = false := by decide

theorem test_refuses_ndOk : ([baseNdQuery] : List (NdQuery)).all Sys2Proof.ndOk = true ∧ ([{ baseNdQuery with target := 2 ^ 128 },
    { baseNdQuery with port := 2 }] : List (NdQuery)).any Sys2Proof.ndOk = false := by decide

theorem test_refuses_policyOk : ([.replicaIn 0 0 0 0 0 [], .replicaOut 0 0 0 0 0, .capacity 0 0 0, .reuse 0 0 0 0 0, .ownHandle 0 0 0 0
    none 0 0, .dropHandle 0, .fill 0 0 [], .hold 0 0, .release 0 0] : List (Policy)).all Sys2Proof.policyOk = true ∧ ([.replicaIn 0 0 0
    0 (2 ^ 12) [], .replicaOut 0 (2 ^ 16) 0 0 0, .capacity 0 0 (2 ^ 16), .reuse (2 ^ 32) 0 0 0 0, .ownHandle 0 (2 ^ 8) 0 0 none 0 0,
    .dropHandle (2 ^ 32), .fill (2 ^ 32) 0 [], .hold 0 (2 ^ 8), .release 0 (2 ^ 8)] : List (Policy)).any Sys2Proof.policyOk = false :=
    by decide

theorem test_refuses_beatInputOk : ([baseBeatInput] : List (BeatInput)).all Sys2Proof.beatInputOk = true ∧
    ([{ baseBeatInput with temps := List.replicate 6 0 }] : List (BeatInput)).any Sys2Proof.beatInputOk = false := by decide

theorem test_refuses_stageInputOk : ([baseStageInput] : List (StageInput)).all Sys2Proof.stageInputOk = true ∧
    ([{ baseStageInput with failedUnits := [.eth 2] }] : List (StageInput)).any Sys2Proof.stageInputOk = false := by decide

theorem test_wellFormed_accepts_1 : ([.hello baseHdr baseHelloP, .sessionOpen baseHdr 0 .failed [], .sessionClose baseHdr, .keepalive baseHdr,
    .capsQuery baseHdr, .modelDeclare baseHdr baseWinRef 0 false, .modelWithdraw baseHdr 0, .shardPush baseHdr 0 0 0 0, .shardStatus baseHdr 0 0 0,
    .modelActivate baseHdr 0 0 0, .epochPublish baseHdr 0 0 0, .epochRetire baseHdr 0 0, .adapterLoad baseHdr 0 0 baseWinRef 0 false,
    .adapterReplace baseHdr 0 0, .adapterUnload baseHdr 0 0, .variantDefine baseHdr baseVariantP, .reqSubmit baseHdr baseSubmitP, .reqCancel baseHdr
    0, .reqPause baseHdr 0, .reqResume baseHdr 0, .reqQuery baseHdr 0, .progLoad baseHdr baseWinRef, .progUnload baseHdr 0, .launch baseHdr baseLaunchP,
    .queueCreate baseHdr 0 0 0, .queueDestroy baseHdr 0 0, .ctxCreate baseHdr baseCtxP, .ctxDestroy baseHdr 0, .preempt baseHdr 0 0 0,
    .preemptResume baseHdr 0 0 0, .poolCreate baseHdr 0 0 0 0, .alloc baseHdr baseAllocP, .free baseHdr 0, .copy baseHdr baseCopyP, .tierMove baseHdr 0
    0, .topoQuery baseHdr, .planLoad baseHdr baseWinRef false, .linkCtlQuery baseHdr 0, .linkCtlDisable baseHdr 0, .linkCtlEnable baseHdr 0] : List
    Instr).all wellFormed = true := by decide

theorem test_wellFormed_accepts_2 : ([.linkCtlRetrain baseHdr 0 0, .barrier baseHdr 0 0 0, .snapshotAt baseHdr 0 0 [], .beatSet baseHdr 0,
    .capSet baseHdr 0 0, .capQuery baseHdr, .energyRead baseHdr 0 0 0, .healthQuery baseHdr, .rimeFreeze baseHdr, .rimeRead baseHdr 0 0 0, .rimeThaw
    baseHdr, .rimeClear baseHdr, .regRead baseHdr 0 0, .regWrite baseHdr 0 0#32 0#32, .sorusOpen baseHdr 0 0, .sorusCommit baseHdr 0 0 0,
    .sorusAbort baseHdr 0, .sorusPrepare (.host baseHdr) 0 0 0, .fwStage baseHdr baseWinRef false, .fwActivate baseHdr 0, .attest baseHdr [],
    .certRead baseHdr 0 0 0, .resetStations baseHdr [], .resetWarm baseHdr, .frameReceive baseFrame, .retransmit 0 0, .sessionIdleTimeout 0,
    .sessionAckTimeout 0, .keyUpdate 0, .sessionKeyExpiry 0, .principalLoss 0, .requestForget 0, .acctSlotRelease 0, .rdmaWrite baseRdmaP,
    .ethLinkLoss 0, .ptpSync 0 0, .ptpTimeout, .beatTick baseBeatInput, .thermalStep, .stepCommit 0 []] : List Instr).all wellFormed =
    true := by decide

theorem test_wellFormed_accepts_3 : ([.sorusCommitApply 0, .snapshotCapture 0, .preemptGrant 0 0, .retrainWindow, .commandStart,
    .descriptorIssue basePlace, .descriptorComplete basePlace, .commandRetire 0, .commandRestart 0, .watchdogExpiry 0, .contextFault 0 0
    basePlace, .streamCreditReturn 0 0, .sSync basePlace, .sBeat basePlace false 0, .hint basePlace baseHintF, .sFetch basePlace baseXferF, .sStore
    basePlace baseXferF, .fLoad basePlace baseFLoadF, .stationarySwap basePlace, .fMma basePlace baseFMmaF false, .fDrain basePlace baseFDrainF, .fHad
    basePlace baseFHadF, .vEwise basePlace baseEwiseF, .vSoftmax basePlace baseSoftmaxF, .vNorm basePlace baseNormF, .vRope basePlace baseRopeF, .vConvert
    basePlace baseConvertF, .vCombine basePlace baseCombineF, .vOpt basePlace baseOptF, .vSample basePlace baseSampleF, .gTopk basePlace baseTopkF, .gCount
    basePlace baseCountF, .gScan basePlace baseScanF, .gSort basePlace baseSortF, .gScatter basePlace baseMoveF, .gGather basePlace baseMoveF, .tMove
    basePlace baseTMoveF, .tFill basePlace baseTMoveF, .zCopy basePlace baseZCopyF, .zWait basePlace baseZWaitF] : List Instr).all wellFormed = true :=
    by decide

theorem test_wellFormed_accepts_4 : ([.zAtomic basePlace baseZAtomicF, .zInval basePlace baseZInvalF, .zReduce basePlace baseZReduceF [], .zXchg
    basePlace baseZXchgF, .zTxn basePlace baseZTxnF, .fabricRequest baseFabReq, .fabricResponse baseFabResp, .requestAged 0, .fabricAccessTimeout 0,
    .fabricSorusCommit, .countRecord baseCountRec, .exchangeRow baseXRow, .barrierArrival 0 [] baseArrivalP, .barrierRelease 0 0 [] false,
    .barrierComplete 0, .globalOpTimeout 0, .sorusPrepared 0 0 0 0, .sorusPrepareDeadline 0, .sorusDecision 0 false,
    .sorusInDoubtTimeout 0, .sorusTimeout 0, .linkDetect 0, .linkEqualiseDone 0 0, .linkStageTimeout 0, .identRecord 0 baseIdentRec,
    .identResend 0, .linkRetry 0, .linkDown 0, .linkStateRecord 0 0 false, .laserFeedLoss 0, .faultFinding (.station 0 0 0) .residue,
    .memoryCorrectable 0 0 false, .memoryUncorrectable 0 0 [], .bucketLeak, .takeover (.station 0 0 0) 0, .unitTestComplete (.station 0
    0 0) false, .nameReturn 0 0 0, .lockstepMismatch 0, .standbyResume, .migrationComplete 0 0] : List Instr).all wellFormed = true :=
    by decide

theorem test_wellFormed_accepts_5 : ([.beatShadowCheck [], .scrubPass [], .epochWithdraw 0 0, .epochFree 0 0, .digestComplete 0 0,
    .shardConvert, .shardTimeout 0 0, .shardPeerRead 0 0 [], .adapterVersionLive 0 0, .reqExpire 0, .pauseTtlExpire 0, .pausedHoldExpire
    0, .pauseMoveRetry 0, .resumeMoveComplete 0, .evictionWaitTimeout 0, .tierMoveCopy 0, .tierMoveSwitch 0, .limcelTierMove 0 0 0,
    .hintExpire 0, .slowdownWindow [], .telemetrySample [], .reconcileMs baseReconcile, .regulatorReady 0, .raiseTimeout 0,
    .powerTripAlert 0 0, .tripHoldExpire, .thermalTrip 0 0 0, .rimeMirror false, .rimeFreezeExpire, .powerOnReset, .bootStageComplete
    baseStageInput, .warmResetAssert, .warmRestart, .reverifyComplete 0 [], .powerFail, .beatMarkLoss, .beatMarkRecover, .beatClkLoss,
    .beatClkRecover 0, .fwTakeover 0] : List Instr).all wellFormed = true := by decide

theorem test_wellFormed_accepts_6 : ([.pairReloadComplete 0, .macsecKey 0 [] [], .shutdown, .installChunk 0 [], .installCommit 0 false,
    .loadModeWrite 0 0 0, .capRegisterWrite 0, .registerWrite 0 0#32, .latchedRead 0 0, .hlthStateRead 0, .i3cOffsetWrite 0 0,
    .porAssert 0, .ethLinkUp 0, .neighborDiscoveryArp baseNdQuery, .jtagInstruction .bypass, .servingStepLaunch baseStepLaunchP,
    .pauseMoveComplete 0, .snapshotUnitCopy 0, .transitPacket baseTransitP, .sorusDecisionQuery 0 0] : List Instr).all wellFormed = true
    := by decide

theorem test_wellFormed_refuses_1 : ([.hello ({ baseHdr with session := 2 ^ 32 }) baseHelloP, .hello baseHdr
    ({ baseHelloP with minMajor := 2 ^ 8 }), .sessionOpen ({ baseHdr with session := 2 ^ 32 }) 0 .failed [], .sessionOpen baseHdr (2 ^ 8)
    .failed [], .sessionOpen baseHdr 0 .failed (List.replicate 256 baseQpEntry), .sessionClose ({ baseHdr with session := 2 ^ 32 }),
    .keepalive ({ baseHdr with session := 2 ^ 32 }), .capsQuery ({ baseHdr with session := 2 ^ 32 }), .modelDeclare
    ({ baseHdr with session := 2 ^ 32 }) baseWinRef 0 false, .modelDeclare baseHdr ({ baseWinRef with window := 2 ^ 16 }) 0 false, .modelDeclare
    baseHdr baseWinRef (2 ^ 32) false, .modelWithdraw ({ baseHdr with session := 2 ^ 32 }) 0, .modelWithdraw baseHdr (2 ^ 64), .shardPush
    ({ baseHdr with session := 2 ^ 32 }) 0 0 0 0, .shardPush baseHdr (2 ^ 64) 0 0 0, .shardPush baseHdr 0 (2 ^ 32) 0 0, .shardPush baseHdr 0 0
    (2 ^ 16) 0, .shardPush baseHdr 0 0 0 (2 ^ 64), .shardStatus ({ baseHdr with session := 2 ^ 32 }) 0 0 0, .shardStatus baseHdr (2 ^ 64) 0 0,
    .shardStatus baseHdr 0 (2 ^ 32) 0, .shardStatus baseHdr 0 0 (2 ^ 32), .modelActivate ({ baseHdr with session := 2 ^ 32 }) 0 0 0,
    .modelActivate baseHdr (2 ^ 64) 0 0, .modelActivate baseHdr 0 (2 ^ 16) 0, .modelActivate baseHdr 0 0 (2 ^ 32), .epochPublish
    ({ baseHdr with session := 2 ^ 32 }) 0 0 0, .epochPublish baseHdr (2 ^ 64) 0 0, .epochPublish baseHdr 0 (2 ^ 32) 0, .epochPublish baseHdr 0
    0 (2 ^ 32), .epochRetire ({ baseHdr with session := 2 ^ 32 }) 0 0, .epochRetire baseHdr (2 ^ 64) 0, .epochRetire baseHdr 0 (2 ^ 32),
    .adapterLoad ({ baseHdr with session := 2 ^ 32 }) 0 0 baseWinRef 0 false, .adapterLoad baseHdr (2 ^ 64) 0 baseWinRef 0 false, .adapterLoad
    baseHdr 0 (2 ^ 8) baseWinRef 0 false, .adapterLoad baseHdr 0 0 ({ baseWinRef with window := 2 ^ 16 }) 0 false, .adapterLoad baseHdr 0 0
    baseWinRef (2 ^ 32) false, .adapterReplace ({ baseHdr with session := 2 ^ 32 }) 0 0, .adapterReplace baseHdr (2 ^ 64) 0] : List Instr).any
    wellFormed = false := by decide

theorem test_wellFormed_refuses_2 : ([.adapterReplace baseHdr 0 (2 ^ 8), .adapterUnload ({ baseHdr with session := 2 ^ 32 }) 0 0,
    .adapterUnload baseHdr (2 ^ 64) 0, .adapterUnload baseHdr 0 (2 ^ 8), .variantDefine ({ baseHdr with session := 2 ^ 32 }) baseVariantP,
    .variantDefine baseHdr ({ baseVariantP with modelId := 2 ^ 64 }), .reqSubmit ({ baseHdr with session := 2 ^ 32 }) baseSubmitP, .reqSubmit
    baseHdr ({ baseSubmitP with modelId := 2 ^ 64 }), .reqCancel ({ baseHdr with session := 2 ^ 32 }) 0, .reqCancel baseHdr (2 ^ 32), .reqPause
    ({ baseHdr with session := 2 ^ 32 }) 0, .reqPause baseHdr (2 ^ 32), .reqResume ({ baseHdr with session := 2 ^ 32 }) 0, .reqResume baseHdr (2
    ^ 32), .reqQuery ({ baseHdr with session := 2 ^ 32 }) 0, .reqQuery baseHdr (2 ^ 32), .progLoad ({ baseHdr with session := 2 ^ 32 })
    baseWinRef, .progLoad baseHdr ({ baseWinRef with window := 2 ^ 16 }), .progUnload ({ baseHdr with session := 2 ^ 32 }) 0, .progUnload baseHdr
    (2 ^ 32), .launch ({ baseHdr with session := 2 ^ 32 }) baseLaunchP, .launch baseHdr ({ baseLaunchP with program := 2 ^ 32 }), .queueCreate
    ({ baseHdr with session := 2 ^ 32 }) 0 0 0, .queueCreate baseHdr (2 ^ 8) 0 0, .queueCreate baseHdr 0 (2 ^ 8) 0, .queueCreate baseHdr 0 0 (2
    ^ 8), .queueDestroy ({ baseHdr with session := 2 ^ 32 }) 0 0, .queueDestroy baseHdr (2 ^ 8) 0, .queueDestroy baseHdr 0 (2 ^ 8), .ctxCreate
    ({ baseHdr with session := 2 ^ 32 }) baseCtxP, .ctxCreate baseHdr ({ baseCtxP with job := 2 ^ 16 }), .ctxDestroy
    ({ baseHdr with session := 2 ^ 32 }) 0, .ctxDestroy baseHdr (2 ^ 8), .preempt ({ baseHdr with session := 2 ^ 32 }) 0 0 0, .preempt baseHdr
    (2 ^ 8) 0 0, .preempt baseHdr 0 (2 ^ 8) 0, .preempt baseHdr 0 0 (2 ^ 64), .preemptResume ({ baseHdr with session := 2 ^ 32 }) 0 0 0,
    .preemptResume baseHdr (2 ^ 8) 0 0, .preemptResume baseHdr 0 (2 ^ 8) 0] : List Instr).any wellFormed = false := by decide

theorem test_wellFormed_refuses_3 : ([.preemptResume baseHdr 0 0 (2 ^ 64), .poolCreate ({ baseHdr with session := 2 ^ 32 }) 0 0 0 0,
    .poolCreate baseHdr (2 ^ 8) 0 0 0, .poolCreate baseHdr 0 (2 ^ 8) 0 0, .poolCreate baseHdr 0 0 (2 ^ 64) 0, .poolCreate baseHdr 0 0 0 (2 ^
    64), .alloc ({ baseHdr with session := 2 ^ 32 }) baseAllocP, .alloc baseHdr ({ baseAllocP with account := 2 ^ 8 }), .free
    ({ baseHdr with session := 2 ^ 32 }) 0, .free baseHdr (2 ^ 32), .copy ({ baseHdr with session := 2 ^ 32 }) baseCopyP, .copy baseHdr
    ({ baseCopyP with ctx := 2 ^ 8 }), .tierMove ({ baseHdr with session := 2 ^ 32 }) 0 0, .tierMove baseHdr (2 ^ 32) 0, .tierMove baseHdr 0 (2
    ^ 8), .topoQuery ({ baseHdr with session := 2 ^ 32 }), .planLoad ({ baseHdr with session := 2 ^ 32 }) baseWinRef false, .planLoad baseHdr
    ({ baseWinRef with window := 2 ^ 16 }) false, .linkCtlQuery ({ baseHdr with session := 2 ^ 32 }) 0, .linkCtlQuery baseHdr (2 ^ 8),
    .linkCtlDisable ({ baseHdr with session := 2 ^ 32 }) 0, .linkCtlDisable baseHdr (2 ^ 8), .linkCtlEnable
    ({ baseHdr with session := 2 ^ 32 }) 0, .linkCtlEnable baseHdr (2 ^ 8), .linkCtlRetrain ({ baseHdr with session := 2 ^ 32 }) 0 0,
    .linkCtlRetrain baseHdr (2 ^ 8) 0, .linkCtlRetrain baseHdr 0 (2 ^ 64), .barrier ({ baseHdr with session := 2 ^ 32 }) 0 0 0, .barrier baseHdr
    (2 ^ 32) 0 0, .barrier baseHdr 0 (2 ^ 32) 0, .barrier baseHdr 0 0 (2 ^ 256), .snapshotAt ({ baseHdr with session := 2 ^ 32 }) 0 0 [],
    .snapshotAt baseHdr (2 ^ 64) 0 [], .snapshotAt baseHdr 0 (2 ^ 8) [], .beatSet ({ baseHdr with session := 2 ^ 32 }) 0, .beatSet baseHdr (2 ^
    64), .capSet ({ baseHdr with session := 2 ^ 32 }) 0 0, .capSet baseHdr (2 ^ 32) 0, .capSet baseHdr 0 (2 ^ 64), .capQuery
    ({ baseHdr with session := 2 ^ 32 })] : List Instr).any wellFormed = false := by decide

theorem test_wellFormed_refuses_4 : ([.energyRead ({ baseHdr with session := 2 ^ 32 }) 0 0 0, .energyRead baseHdr (2 ^ 8) 0 0, .energyRead
    baseHdr 0 (2 ^ 32) 0, .energyRead baseHdr 0 0 (2 ^ 32), .healthQuery ({ baseHdr with session := 2 ^ 32 }), .rimeFreeze
    ({ baseHdr with session := 2 ^ 32 }), .rimeRead ({ baseHdr with session := 2 ^ 32 }) 0 0 0, .rimeRead baseHdr (2 ^ 8) 0 0, .rimeRead baseHdr
    0 (2 ^ 32) 0, .rimeRead baseHdr 0 0 (2 ^ 32), .rimeThaw ({ baseHdr with session := 2 ^ 32 }), .rimeClear
    ({ baseHdr with session := 2 ^ 32 }), .regRead ({ baseHdr with session := 2 ^ 32 }) 0 0, .regRead baseHdr (2 ^ 64) 0, .regRead baseHdr 0 (2
    ^ 32), .regWrite ({ baseHdr with session := 2 ^ 32 }) 0 0#32 0#32, .regWrite baseHdr (2 ^ 64) 0#32 0#32, .sorusOpen
    ({ baseHdr with session := 2 ^ 32 }) 0 0, .sorusOpen baseHdr (2 ^ 32) 0, .sorusOpen baseHdr 0 (2 ^ 256), .sorusCommit
    ({ baseHdr with session := 2 ^ 32 }) 0 0 0, .sorusCommit baseHdr (2 ^ 32) 0 0, .sorusCommit baseHdr 0 (2 ^ 8) 0, .sorusCommit baseHdr 0 0 (2
    ^ 64), .sorusAbort ({ baseHdr with session := 2 ^ 32 }) 0, .sorusAbort baseHdr (2 ^ 32), .sorusPrepare (.host { baseHdr with port := 2 })
    0 0 0, .sorusPrepare (.host baseHdr) (2 ^ 32) 0 0, .sorusPrepare (.host baseHdr) 0 (2 ^ 8) 0, .sorusPrepare (.host baseHdr) 0 0 (2 ^ 64),
    .fwStage ({ baseHdr with session := 2 ^ 32 }) baseWinRef false, .fwStage baseHdr ({ baseWinRef with window := 2 ^ 16 }) false, .fwActivate
    ({ baseHdr with session := 2 ^ 32 }) 0, .fwActivate baseHdr (2 ^ 64), .attest ({ baseHdr with session := 2 ^ 32 }) [], .certRead
    ({ baseHdr with session := 2 ^ 32 }) 0 0 0, .certRead baseHdr (2 ^ 8) 0 0, .certRead baseHdr 0 (2 ^ 64) 0, .certRead baseHdr 0 0 (2 ^ 32),
    .resetStations ({ baseHdr with session := 2 ^ 32 }) []] : List Instr).any wellFormed = false := by decide

theorem test_wellFormed_refuses_5 : ([.resetWarm ({ baseHdr with session := 2 ^ 32 }), .frameReceive ({ baseFrame with magic := 2 ^ 16 }),
    .retransmit (2 ^ 32) 0, .retransmit 0 (2 ^ 32), .sessionIdleTimeout (2 ^ 32), .sessionAckTimeout (2 ^ 32), .keyUpdate (2 ^ 32),
    .sessionKeyExpiry (2 ^ 32), .principalLoss (2 ^ 32), .requestForget (2 ^ 32), .acctSlotRelease (2 ^ 8), .rdmaWrite
    ({ baseRdmaP with qpn := 2 ^ 24 }), .ethLinkLoss (2 ^ 8), .ptpSync (2 ^ 64) 0, .beatTick
    ({ baseBeatInput with temps := List.replicate 6 0 }), .stepCommit (2 ^ 32) [], .sorusCommitApply (2 ^ 32), .snapshotCapture (2 ^ 32),
    .preemptGrant (2 ^ 8) 0, .preemptGrant 0 (2 ^ 8), .descriptorIssue ({ basePlace with cmd := 2 ^ 32 }), .descriptorComplete
    ({ basePlace with cmd := 2 ^ 32 }), .commandRetire (2 ^ 32), .commandRestart (2 ^ 32), .watchdogExpiry (2 ^ 32), .contextFault (2 ^
    32) 0 basePlace, .contextFault 0 (2 ^ 8) basePlace, .contextFault 0 0 ({ basePlace with cmd := 2 ^ 32 }), .streamCreditReturn (2 ^ 32) 0,
    .streamCreditReturn 0 (2 ^ 16), .sSync ({ basePlace with cmd := 2 ^ 32 }), .sBeat ({ basePlace with cmd := 2 ^ 32 }) false 0, .sBeat
    basePlace false (2 ^ 64), .hint ({ basePlace with cmd := 2 ^ 32 }) baseHintF, .hint basePlace ({ baseHintF with cls := 2 ^ 8 }), .sFetch
    ({ basePlace with cmd := 2 ^ 32 }) baseXferF, .sFetch basePlace ({ baseXferF with channel := 2 ^ 8 }), .sStore
    ({ basePlace with cmd := 2 ^ 32 }) baseXferF, .sStore basePlace ({ baseXferF with channel := 2 ^ 8 }), .fLoad
    ({ basePlace with cmd := 2 ^ 32 }) baseFLoadF] : List Instr).any wellFormed = false := by decide

theorem test_wellFormed_refuses_6 : ([.fLoad basePlace ({ baseFLoadF with format := 2 ^ 8 }), .stationarySwap
    ({ basePlace with cmd := 2 ^ 32 }), .fMma ({ basePlace with cmd := 2 ^ 32 }) baseFMmaF false, .fMma basePlace
    ({ baseFMmaF with format := 2 ^ 8 }) false, .fDrain ({ basePlace with cmd := 2 ^ 32 }) baseFDrainF, .fDrain basePlace
    ({ baseFDrainF with bank := 2 ^ 8 }), .fHad ({ basePlace with cmd := 2 ^ 32 }) baseFHadF, .fHad basePlace
    ({ baseFHadF with formatA := 2 ^ 8 }), .vEwise ({ basePlace with cmd := 2 ^ 32 }) baseEwiseF, .vEwise basePlace
    ({ baseEwiseF with func := 2 ^ 8 }), .vSoftmax ({ basePlace with cmd := 2 ^ 32 }) baseSoftmaxF, .vSoftmax basePlace
    ({ baseSoftmaxF with format := 2 ^ 8 }), .vNorm ({ basePlace with cmd := 2 ^ 32 }) baseNormF, .vNorm basePlace
    ({ baseNormF with format := 2 ^ 8 }), .vRope ({ basePlace with cmd := 2 ^ 32 }) baseRopeF, .vRope basePlace
    ({ baseRopeF with format := 2 ^ 8 }), .vConvert ({ basePlace with cmd := 2 ^ 32 }) baseConvertF, .vConvert basePlace
    ({ baseConvertF with inFormat := 2 ^ 8 }), .vCombine ({ basePlace with cmd := 2 ^ 32 }) baseCombineF, .vCombine basePlace
    ({ baseCombineF with format := 2 ^ 8 }), .vOpt ({ basePlace with cmd := 2 ^ 32 }) baseOptF, .vOpt basePlace
    ({ baseOptF with mFormat := 2 ^ 8 }), .vSample ({ basePlace with cmd := 2 ^ 32 }) baseSampleF, .vSample basePlace
    ({ baseSampleF with logpBasis := 2 ^ 8 }), .gTopk ({ basePlace with cmd := 2 ^ 32 }) baseTopkF, .gTopk basePlace
    ({ baseTopkF with format := 2 ^ 8 }), .gCount ({ basePlace with cmd := 2 ^ 32 }) baseCountF, .gCount basePlace
    ({ baseCountF with slots := 2 ^ 8 }), .gScan ({ basePlace with cmd := 2 ^ 32 }) baseScanF, .gScan basePlace
    ({ baseScanF with bins := 2 ^ 32 }), .gSort ({ basePlace with cmd := 2 ^ 32 }) baseSortF, .gSort basePlace
    ({ baseSortF with slots := 2 ^ 8 }), .gScatter ({ basePlace with cmd := 2 ^ 32 }) baseMoveF, .gScatter basePlace
    ({ baseMoveF with rowBytes := 2 ^ 16 }), .gGather ({ basePlace with cmd := 2 ^ 32 }) baseMoveF, .gGather basePlace
    ({ baseMoveF with rowBytes := 2 ^ 16 }), .tMove ({ basePlace with cmd := 2 ^ 32 }) baseTMoveF, .tMove basePlace
    ({ baseTMoveF with src := 2 ^ 8 }), .tFill ({ basePlace with cmd := 2 ^ 32 }) baseTMoveF, .tFill basePlace ({ baseTMoveF with src := 2 ^ 8 })]
    : List Instr).any wellFormed = false := by decide

theorem test_wellFormed_refuses_7 : ([.zCopy ({ basePlace with cmd := 2 ^ 32 }) baseZCopyF, .zCopy basePlace
    ({ baseZCopyF with handle := 2 ^ 8 }), .zWait ({ basePlace with cmd := 2 ^ 32 }) baseZWaitF, .zWait basePlace
    ({ baseZWaitF with counter := 2 ^ 32 }), .zAtomic ({ basePlace with cmd := 2 ^ 32 }) baseZAtomicF, .zAtomic basePlace
    ({ baseZAtomicF with src := 2 ^ 8 }), .zInval ({ basePlace with cmd := 2 ^ 32 }) baseZInvalF, .zInval basePlace
    ({ baseZInvalF with aslot := 2 ^ 8 }), .zReduce ({ basePlace with cmd := 2 ^ 32 }) baseZReduceF [], .zReduce basePlace
    ({ baseZReduceF with inFormat := 2 ^ 8 }) [], .zXchg ({ basePlace with cmd := 2 ^ 32 }) baseZXchgF, .zXchg basePlace
    ({ baseZXchgF with role := 2 ^ 8 }), .zTxn ({ basePlace with cmd := 2 ^ 32 }) baseZTxnF, .zTxn basePlace ({ baseZTxnF with src := 2 ^ 8 }),
    .fabricRequest ({ baseFabReq with pkg := 2 ^ 8 }), .fabricResponse ({ baseFabResp with access := 2 ^ 32 }), .requestAged (2 ^ 32),
    .fabricAccessTimeout (2 ^ 32), .countRecord ({ baseCountRec with pkg := 2 ^ 8 }), .exchangeRow ({ baseXRow with pkg := 2 ^ 8 }),
    .barrierArrival (2 ^ 32) [] baseArrivalP, .barrierArrival 0 ([2 ^ 8]) baseArrivalP, .barrierArrival 0 []
    ({ baseArrivalP with merged := [2 ^ 8] }), .barrierRelease (2 ^ 32) 0 [] false, .barrierRelease 0 (2 ^ 64) [] false, .barrierRelease 0
    0 ([2 ^ 8]) false, .barrierComplete (2 ^ 32), .globalOpTimeout (2 ^ 32), .sorusPrepared (2 ^ 32) 0 0 0, .sorusPrepared 0 (2 ^ 8) 0
    0, .sorusPrepared 0 0 (2 ^ 16) 0, .sorusPrepared 0 0 0 (2 ^ 16), .sorusPrepareDeadline (2 ^ 32), .sorusDecision (2 ^ 32) false,
    .sorusInDoubtTimeout (2 ^ 32), .sorusTimeout (2 ^ 32), .linkDetect (2 ^ 8), .linkEqualiseDone (2 ^ 8) 0, .linkEqualiseDone 0 (2 ^
    8), .linkStageTimeout (2 ^ 8)] : List Instr).any wellFormed = false := by decide

theorem test_wellFormed_refuses_8 : ([.identRecord (2 ^ 8) baseIdentRec, .identRecord 0 ({ baseIdentRec with recordTag := 2 ^ 64 }),
    .identResend (2 ^ 8), .linkRetry (2 ^ 8), .linkDown (2 ^ 8), .linkStateRecord (2 ^ 8) 0 false, .linkStateRecord 0 (2 ^ 8) false,
    .laserFeedLoss (2 ^ 8), .faultFinding (.station 7 0 0) .residue, .memoryCorrectable (2 ^ 8) 0 false, .memoryCorrectable 0 (2 ^ 57)
    false, .memoryUncorrectable (2 ^ 8) 0 [], .memoryUncorrectable 0 (2 ^ 57) [], .takeover (.station 7 0 0) 0, .takeover (.station 0 0
    0) (2 ^ 32), .unitTestComplete (.station 7 0 0) false, .nameReturn (2 ^ 3) 0 0, .nameReturn 0 (2 ^ 3) 0, .nameReturn 0 0 (2 ^ 6),
    .lockstepMismatch (2 ^ 2), .migrationComplete (2 ^ 8) 0, .migrationComplete 0 (2 ^ 16), .epochWithdraw (2 ^ 64) 0, .epochWithdraw 0
    (2 ^ 32), .epochFree (2 ^ 64) 0, .epochFree 0 (2 ^ 32), .digestComplete (2 ^ 57) 0, .digestComplete 0 (2 ^ 64), .shardTimeout (2 ^
    64) 0, .shardTimeout 0 (2 ^ 32), .shardPeerRead (2 ^ 64) 0 [], .shardPeerRead 0 (2 ^ 32) [], .adapterVersionLive (2 ^ 64) 0,
    .adapterVersionLive 0 (2 ^ 8), .reqExpire (2 ^ 32), .pauseTtlExpire (2 ^ 32), .pausedHoldExpire (2 ^ 32), .pauseMoveRetry (2 ^ 32),
    .resumeMoveComplete (2 ^ 32), .evictionWaitTimeout (2 ^ 33)] : List Instr).any wellFormed = false := by decide

theorem test_wellFormed_refuses_9 : ([.tierMoveCopy (2 ^ 32), .tierMoveSwitch (2 ^ 32), .limcelTierMove (2 ^ 64) 0 0, .limcelTierMove 0
    (2 ^ 32) 0, .limcelTierMove 0 0 (2 ^ 8), .hintExpire (2 ^ 16), .regulatorReady (2 ^ 1), .raiseTimeout (2 ^ 1), .powerTripAlert (2 ^
    8) 0, .powerTripAlert 0 (2 ^ 32), .thermalTrip (2 ^ 3) 0 0, .thermalTrip 0 (2 ^ 8) 0, .thermalTrip 0 0 (2 ^ 8), .bootStageComplete
    ({ baseStageInput with failedUnits := [.eth 2] }), .reverifyComplete (2 ^ 64) [], .beatClkRecover (2 ^ 48), .fwTakeover (2 ^ 32),
    .pairReloadComplete (2 ^ 2), .macsecKey (2 ^ 8) [] [], .installChunk (2 ^ 64) [], .installCommit (2 ^ 32) false, .loadModeWrite (2 ^
    3) 0 0, .loadModeWrite 0 (2 ^ 6) 0, .loadModeWrite 0 0 (2 ^ 8), .capRegisterWrite (2 ^ 32), .registerWrite (2 ^ 64) 0#32,
    .latchedRead (2 ^ 32) 0, .latchedRead 0 (2 ^ 64), .hlthStateRead (2 ^ 32), .i3cOffsetWrite (2 ^ 64) 0, .i3cOffsetWrite 0 (2 ^ 32),
    .porAssert (2 ^ 64), .ethLinkUp (2 ^ 8), .neighborDiscoveryArp ({ baseNdQuery with target := 2 ^ 128 }), .servingStepLaunch
    ({ baseStepLaunchP with modelId := 2 ^ 64 }), .pauseMoveComplete (2 ^ 32), .snapshotUnitCopy (2 ^ 32), .transitPacket
    ({ baseTransitP with src := 2 ^ 8 }), .sorusDecisionQuery (2 ^ 32) 0, .sorusDecisionQuery 0 (2 ^ 8)] : List Instr).any wellFormed =
    false := by decide

/-! ### A small package -/

/-- A session of a principal with every role and feature. -/
def wSess : Session := ⟨1, 9, 0, 7, 15, 15, 1, 0, 10, 5, [], 3, [], [], 0, 100, 1, 5, 3, false, 0⟩

/-- The header of a command in that session. -/
def wHdr : Hdr := ⟨1, 9, 0, 77, 0, 0⟩

/-- A queue, a context and the accounting slot of the principal. -/
def wQueue : Queue := ⟨0, 0, 4, 0x5B, 0, 0, 0, 0, 0, 0, 0⟩
def wCtx : Ctx :=
  ⟨1, false, 9, false, 7, 100000, 0, 1, Flag.zero, 0, 0, 0, 0, 0, 0, 0, 0, 0, 0, 0, 0, 0, 0, 0, 0, [], 0, [], [wQueue], []⟩

/-- A plain handle of 2 MiB of HBM in a RoCE window, its region and its account. -/
def wHandle : Handle := ⟨4, 1, 9, 0, 3, 2, 0, 0, 0x200000, some 6, 11, 0, 0, 0, [], none⟩
def wRegion : Region := ⟨0, 0, 0x200000, .handle 4, none⟩
def wAccount : Account := ⟨2, 1, 0, 0x400000, 0x40000000, 0x200000⟩

/-- A package that is READY with one session, one context and one handle. -/
def w0 : State :=
  { State.reset with
    boot := { State.reset.boot with stage := 6, pkgValid := true }
    beat := { State.reset.beat with count := 10000, elapsed := 10000, aligned := true }
    net := { State.reset.net with sessions := [wSess], ethUp := [true, true], qps := [⟨5, 1, 0, false⟩] }
    jobs := { State.reset.jobs with ctxs := [wCtx] }
    mem := { State.reset.mem with
      lpWindow := 0x10000000000
      handles := [wHandle]
      nextHandle := 5
      regions := [wRegion]
      accounts := [wAccount] }
    rime := { State.reset.rime with circ := [clearedAtManufacture], next := 1 } }

/-- A load under way, and the package with it. -/
def wAcc : Access := ⟨3, 1, 0x10000, 5, 0, 0, 9000, false, false, false, 0, .load 1, .memory 64, none, none⟩
def wFab (xs : List Access) : State := { w0 with fab := { w0.fab with accesses := xs } }

/-- Bytes at the start of the handle's region, named by its window. -/
def wPut (bs : List Byte) (s : State) : State :=
  { s with mem := { s.mem with
    cells := (bs.zipIdx.filter fun x => x.1 ≠ 0#8).map fun x => (x.2, x.1) } }
def wWin (bs : List Byte) : WinRef := ⟨6, 0, bs.length⟩

/-- A manifest of one tensor of one BF16 element, as its bytes. -/
def wManBytes (kind slot epoch cls packages : Nat) : List Byte :=
  leBytes 4 0x53464D4B ++ leBytes 1 1 ++ leBytes 1 0 ++ leBytes 1 kind ++ leBytes 1 slot ++ leBytes 8 5 ++ leBytes 4 epoch ++
    leBytes 4 0 ++ leBytes 4 1 ++ leBytes 4 1 ++ leBytes 2 0 ++ leBytes 2 1 ++ leBytes 4 4096 ++ leBytes 4 128 ++ leBytes 4 160 ++
    leBytes 4 224 ++ leBytes 4 368 ++ leBytes 8 368 ++ leBytes 64 0 ++
    leBytes 4 0 ++ leBytes 2 256 ++ leBytes 1 0 ++ leBytes 1 1 ++ leBytes 4 1 ++ leBytes 1 8 ++ leBytes 1 8 ++ leBytes 2 32 ++
    leBytes 16 0 ++
    leBytes 4 1 ++ leBytes 2 0xFFFF ++ leBytes 2 0xFFFF ++ leBytes 4 1 ++ leBytes 4 1 ++ leBytes 1 8 ++ leBytes 1 0 ++
    leBytes 1 cls ++ leBytes 13 0 ++ leBytes 32 packages ++
    leBytes 4 0 ++ leBytes 1 0 ++ leBytes 1 8 ++ leBytes 2 0 ++ leBytes 8 2 ++ leBytes 8 2 ++ leBytes 96 0 ++ leBytes 4 1 ++
    leBytes 4 0 ++ leBytes 4 1 ++ leBytes 4 0 ++ leBytes 4 1 ++ leBytes 4 0

/-- A model of one layer and one tensor, which the package holds, in a state. -/
def wLayer : Layer := ⟨0, 0, 0, 256, 0, 1, 1, 8, 8, 32⟩
def wTensor : Tensor := ⟨1, 0, 0xFFFF, 64, 64, 8, 0, 0, 1⟩
def wShard : Shard := ⟨0, 0, 8, 8192, 8192, [], [], 1, 0, 64, 0, 64, 0, 0⟩
def wManifest : Manifest := ⟨0, 0, 5, 1, 0, 4096, [wLayer], [wTensor], [wShard], []⟩
def wPlaced : PlacedTensor := ⟨1, 0, 0x400000, 65536, false, 0, none⟩
def wModel (st : Nat) : Model :=
  ⟨0, 5, st, wManifest, 1000, 0, [], [wPlaced], [], [⟨1, true, [⟨1, 0x400000, []⟩]⟩], 1, [1], 0, 4, 0x800000, [], [], [], [], 0, [], false⟩
def wM (m : Model) : State := { w0 with models := { w0.models with models := [m] } }

/-- An adapter version of that model in slot 3. -/
def wVer (live current : Bool) (shards : List ShardSt) : AdapterVer :=
  ⟨0, live, current, { wManifest with kind := 1, slot := 3, epochId := 0 }, 1000, 0, shards, []⟩
def wSlotM (live current : Bool) (shards : List ShardSt) : Model :=
  { wModel 3 with adapters := [⟨3, 1, false, [wVer live current shards]⟩] }

/-- A running command with one list of one descriptor. -/
def wDesc (b : DBody) : Desc := ⟨false, false, 0, 0, 1, 5, b⟩
def wImage (code : Nat) (b : DBody) : Image := ⟨true, true, 4096, 0, 0, [⟨code, 0, 1⟩], [], [], [wDesc b]⟩
def wLaunch : LaunchSt := ⟨7, 1, 88, 0, [4], [0x10000], 0, 0, none, false, 0, false, [], none⟩
def wList (code : Nat) : ListSt :=
  ⟨code, 0, 1, 1, 0, [QEntry.new 0], [], none, none, Bank.empty, Bank.empty, 1, none, none, none, 0⟩
def wCmd (code : Nat) (b : DBody) : Cmd :=
  ⟨5, 1, 0, .launch, wLaunch, wImage code b, .running, 0, none, 900, 900, 0, false, false, 990, none, 0, 0, [0], [wList code], [], [],
    0, [], [], false⟩
def wRun (c : Cmd) : State := { w0 with jobs := { w0.jobs with cmds := [c] } }

/-- A Zephyr and a Front of the hub. -/
def wZeph : Nat := 0xD00
def wFront : Nat := 0xDC0
def wOrder : ZOrder := ⟨false, false⟩

def gotManifest : Reading → Manifest
  | .ok m => m
  | .refused _ => wManifest
def gotMoved : Moved → State
  | .ok s => s
  | .bad _ => State.reset

/-- A running command at work on one descriptor, its engine's buffer filled. -/
def wBuf (code : Nat) (b : DBody) (bs : List Byte) : Cmd := { wCmd code b with lists := [{ wList code with buf := some bs }] }
def wCounters : Handle := ⟨6, 1, 9, 2, 3, 2, 0, 0x140000000000, 512, none, 0, 0, 0, 0, [], none⟩
def wRun2 (c : Cmd) : State := { wRun c with mem := { w0.mem with handles := [wHandle, wCounters] } }
def wWork (code : Nat) (b : DBody) : Cmd × ListSt × Nat := (wCmd code b, wList code, 0)

def wPut1 : ZCopyF := ⟨wOrder, false, 0, 0xFF, none, 0, 2 ^ 49 + 0x1000, 32, 0⟩
def wPut2 : ZCopyF := ⟨wOrder, false, 0, 0xFF, some 2, 0, 0x1000, 32, 1⟩
def wAtomic : ZAtomicF := ⟨wOrder, 0, 0, 1, 0, 0x100⟩
def wReduce : ZReduceF := ⟨wOrder, false, false, 10, 10, 0, 0, 0, 1, 1, 8, 0, 0x100⟩
def wTxnF : ZTxnF := ⟨wOrder, 0, 0, 0xFF, 1, 0, 0x100, 10100⟩
def wXchg : ZXchgF := ⟨wOrder, 2, 0, 0, 0, 1, 0, 0, 0, 1, 0, 0, 0⟩
def wTxnBytes : List Byte := leBytes 8 (2 ^ 49 + 0x1000) ++ leBytes 8 1 ++ leBytes 32 1 ++ leBytes 256 5
def wAtomBytes : List Byte := leBytes 8 0x1000 ++ leBytes 8 0 ++ leBytes 8 3 ++ leBytes 8 0
def wTable : InstTable := ⟨0, [⟨0, 0, false, 0, [(0, 0)]⟩], []⟩
def wMoe : Model := { wModel 3 with manifest := { wManifest with layers := [{ wLayer with experts := 1, topk := 1 }] }, tables := [wTable] }
def wBatch : XBatch := ⟨5, 5, 0, 0, 0, 1, []⟩
def wXchgRun : State :=
  { wRun (wBuf wZeph (.zXchg wXchg) []) with models := ⟨[wMoe], [], []⟩, fab := { w0.fab with batches := [wBatch] } }

/-- A port of the package in a state. -/
def wLink (port st : Nat) : Link := { Link.zero port with state := st }
def wPort (l : Link) : State := { w0 with fab := { w0.fab with links := [l] } }

/-- A request in a state. -/
def wSubmit : SubmitP := ⟨5, 0, 0, 1, 8, 0x3F800000#32, 0, 0x3F800000#32, 0#32, 0, 0, 0, 1000, 1, 0, 0, [], 0, 0, [3]⟩
def wReq (st : Nat) : Req :=
  ⟨1, 7, 1, 88, wSubmit, [3], 0, st, 0, [], false, 0, [], none, none, [], 0, 0, 0, false, 0, 0, AcceptRec.none⟩
def wR (r : Req) : State := { wM (wModel 3) with serve := { w0.serve with reqs := [r], nextReq := 2 } }

/-- A Limcel image with a body of one byte. -/
def wFwHead (digest : List Byte) : List Byte :=
  leBytes 4 0x47534B53 ++ leBytes 1 2 ++ leBytes 3 0 ++ leBytes 4 2 ++ leBytes 4 0 ++ leBytes 8 0 ++ leBytes 8 1 ++ digest ++ leBytes 48 0
def wFw : List Byte := wFwHead (sha384 [1#8]) ++ List.replicate 1920 0#8 ++ [1#8]

/-- A frame of the session with no entry. -/
def wFrame : Frame := ⟨9, 0, 0x1A1C, 1, 0, 1, 5, 3, 0, false, true, true, false, []⟩

/-- Where a station of a Front is at work. -/
def wAt : Place := ⟨5, wFront⟩
def wFetch : XferF := ⟨0, false, 0, 1, 0, 0⟩
def wTile : Tile := ⟨8, 64, [], true⟩
def wStoreC (n : Nat) : Cmd :=
  { wCmd wFront (.sStore ⟨0, false, 0, n, 0, 0⟩) with streams := [⟨⟨wZeph, wFront, 4, 1⟩, [wTile], [], 1⟩] }
def wUnit : UnitRec := ⟨1, 0, 0, 15, 1, 2, 0, 8, 64, 0, 2, [], [], 0, 0, []⟩
def wView : ViewSt := ⟨[wLayer], 0x800000, wUnit, wLayer, [⟨0, 0, false, 0⟩]⟩
def wProg : Placed := ⟨3, 7, { wImage wFront .sSync with handles := [] }⟩
def wProgs : State := { w0 with jobs := { w0.jobs with programs := [wProg], nextProgram := 4 } }

/-- A program image of one S_SYNC on the Front of die 0, and a Frond with an empty list that one stream feeds. -/
def wProgBytes : List Byte :=
  leBytes 4 0x4D535450 ++ leBytes 1 1 ++ leBytes 3 0 ++ leBytes 4 176 ++ leBytes 2 2 ++ leBytes 2 0 ++ leBytes 2 1 ++ leBytes 2 0 ++
    leBytes 4 1 ++ leBytes 4 64 ++ leBytes 4 96 ++ leBytes 4 96 ++ leBytes 4 112 ++ leBytes 24 0 ++
    leBytes 4 448 ++ leBytes 4 0 ++ leBytes 8 1 ++ leBytes 4 0 ++ leBytes 4 1 ++ leBytes 8 0 ++
    leBytes 2 448 ++ leBytes 2 0 ++ leBytes 4 2 ++ leBytes 8 0 ++ leBytes 64 1

def wMail (stage : Nat) : State := { w0 with boot := { w0.boot with stage := stage, installBuf := [1#8, 2#8] } }
def wMove (b : Option Nat) (copied : Bool) : TierMoveSt := ⟨1, b, copied, 1, 77, 9000⟩
def wHandles (h : Handle) : State := { w0 with mem := { w0.mem with handles := [h] } }
def wQ (st : Nat) : State := { w0 with jobs := { w0.jobs with ctxs := [{ wCtx with queues := [{ wQueue with state := st }] }] } }
def gotPlaced : Placing → List PlacedTensor × State
  | .done ps s => (ps, s)
  | _ => ([], State.reset)
def wDecl : List Byte := wManBytes 0 0 1 0 1
def wDeclM : Manifest := gotManifest (readManifest w0 true wDecl)
def wDeclS : State := wPut wDecl w0

/-- A sorus of the session, on this package and another, and the package with it. -/
def wSorus : Sorus := ⟨3, 1, [0, 1], 0, [], 0, 9000, 0, none, [], 0, none, false, 0, false, false, 7⟩
def wS (x : Sorus) : State := { w0 with sori := { w0.sori with sori := [x] } }
def wHdrS : Hdr := { wHdr with sorus := 3 }

/-- Stations at work: a Crozier that converts one tile, a Rhizoid that moves and sorts, a Frond, a tier mover. -/
def gotMade (l : ListSt) : Work → Made
  | .make m => m
  | _ => ⟨0, 0, 0, [], [], l, ⟨0, 0⟩, 0, 0, false, 0, [], [], [], false⟩
def wCroz : Nat := 64
def wRhiz : Nat := 128
def wFrond : Nat := 0
def wMover : Nat := 0xCC0
def wConvF (fmt : Nat) : ConvF := ⟨fmt, false, 0, 0, 0, 0, 0#32⟩
def wConvert : ConvertF := ⟨8, false, 1, 0x3F800000#32, wConvF 9⟩
def wFeed (code port : Nat) (n : Nat) (ts : List Tile) : StreamSt := ⟨⟨wFront + 4096 * n, code + 4096 * port, 4, 0⟩, ts, [], ts.length⟩
def wConvC (ts : List Tile) : Cmd :=
  { wCmd wCroz (.vConvert wConvert) with
    lists := [wList wCroz, { wList wFront with completed := 1, queue := [] }], streams := [wFeed wCroz 0 0 ts] }
def wConvS (ts : List Tile) : State := wRun (wConvC ts)
def wBenchOf (c : Cmd) (l : ListSt) (s : State) : Bench := benchOf s c l 0
def wPtr : Tile := ⟨10, 1, [], true⟩
def wOnes : Tile := ⟨10, 2, List.replicate 64 ⟨true, 0#32, List.replicate 8 0xFF#8, []⟩, true⟩
def wMoveF : MoveF := ⟨32, 0, 0, 0, 0, 8, 1, 64⟩
def wRhizC (b : DBody) : Cmd :=
  { wCmd wRhiz b with streams := [wFeed wRhiz 0 0 [wTile], wFeed wRhiz 1 1 [wOnes], ⟨⟨wRhiz, wFront, 4, 0⟩, [], [], 0⟩] }
def wSort : SortF := ⟨1, false, false, 1, 1, 0, 0, 0, 0⟩
def wShadow : Cmd := { wCmd wFrond .sSync with lists := [{ wList wFrond with shadow := some (8, ⟨8, 8, 0, []⟩) }] }
def wTMove : TMoveF := ⟨0, 0, 0, 0, 0x10000, 256⟩

/-- A loading model, one small shard of it, and the converter's queue. -/
def wSmallT : Tensor := { wTensor with n := 1, k := 1 }
def wShard0 : Shard := ⟨0, 0, 8, 2, 2, sha384 [1#8, 2#8], [], 1, 0, 1, 0, 1, 0, 0⟩
def wShardOk : Shard :=
  { wShard0 with rdigest := sha384 ((shardImages wSmallT wShard0 [1#8, 2#8]).map Prod.snd).flatten }
def wLoading (x : Shard) (asked : Nat) : Model :=
  { wModel 1 with manifest := { wManifest with tensors := [wSmallT], shards := [x] }, shards := [⟨0, 0, 1, 0, asked, 9000⟩] }
def wSet (x : Shard) (asked : Nat) : ShardSet :=
  ⟨{ wManifest with tensors := [wSmallT], shards := [x] }, [⟨0, 0, 1, 0, asked, 9000⟩], [wPlaced], 0⟩
def wQueueS (x : Shard) : State := { wM (wLoading x 0) with models := ⟨[wLoading x 0], [⟨5, none, 0, [1#8, 2#8]⟩], []⟩ }

def wHandle2 : Handle := { wHandle with id := 7, base := 0x200000, window := none }
def wSnapS (xs : List Snapshot) : State := { w0 with mem := { w0.mem with handles := [wHandle, wHandle2] }, fab := { w0.fab with snaps := xs } }
def wRime (f : Option (Nat × Nat)) : State := { w0 with rime := { w0.rime with freeze := f } }
def wPaused (sets : List Nat) (goal : Option Nat) : Req := { wReq 5 with pages := [⟨0, 1, false, 2⟩], fill := 3, resumeSets := sets, resumeTo := goal }
def wPausedS (r : Req) : State :=
  { wR r with mem := { w0.mem with regions := [⟨1, 0x080000100000, 0x10000, .paused 1, none⟩] } }
def wOver : Cmd := { wCmd wFront .sSync with lists := [{ wList wFront with completed := 1, queue := [] }] }
def wStn (x : StnSt) : State := { w0 with stns := { w0.stns with stns := [x] } }
def wTest (u : HwUnit) : State := { w0 with flash := { w0.flash with map := [⟨u, none, true, none⟩] } }
def wRaise (b : Nat) : State := { w0 with pwr := { w0.pwr with raises := [⟨0, b, false⟩] } }
def wThm (t : ThmSt) : State := { w0 with thm := t }

/-- Later in the same beat count, and the ring's operations and the demands for memory. -/
def wLate (s : State) : State := { s with beat := { s.beat with elapsed := 100000000 } }
def wOp (coord : Nat) : GlobalOp := ⟨9, [0, 1], coord, 1, 77, 9990, 2000, [1], none, false, none⟩
def wOps (o : GlobalOp) : State := { w0 with fab := { w0.fab with ops := [o] } }
def wDem (w : Want) : Demand := ⟨3, 1, 77, 7, w, 9000⟩
def wDems (w : Want) : State := { w0 with mem := { w0.mem with demands := [wDem w] } }
def wDone : QEntry := { QEntry.new 0 with done := true }

/-- A station at work on one descriptor, with the tiles it has taken. -/
def wE (a b c : List Tile) : QEntry := { QEntry.new 0 with in0 := a, in1 := b, in2 := c }
def wL (code : Nat) (e : QEntry) : ListSt := { wList code with queue := [e] }
def wAtL (l : ListSt) (b : DBody) : Cmd := { wCmd l.code b with lists := [l] }
def wBch (l : ListSt) (b : DBody) : Bench := benchOf (wRun (wAtL l b)) (wAtL l b) l 0
def wWords : Tile := ⟨10, 64, [], true⟩
def wFLoad : FLoadF := ⟨false, 8, 8, 0, 1, false, 0, 0, 64⟩
def wLoaded : Loaded := ⟨8, 8, 0, [⟨wTile, 0, 64⟩]⟩
def wFMma : FMmaF := ⟨false, 8, false, 0, 1, false, 0, 64, 0⟩
def wFDrain : FDrainF := ⟨0, false, wConvF 9⟩
def wFHad : FHadF := ⟨false, 8, 8, 0, 1, wConvF 9⟩
def wEwise : EwiseF := ⟨1, 8, 8, false, 1, 0#32, 0#32, wConvF 9⟩
def wSoftmax : SoftmaxF := ⟨false, 8, false, false, false, 64, 0x3F800000#32, 1, wConvF 9⟩
def wNorm : NormF := ⟨false, 8, false, false, false, 8, 64, 0x3F800000#32, 1, wConvF 9⟩
def wRope (pos : Nat) : RopeF := ⟨true, 8, pos, false, 64, 64, 0x461C4000#32, 0, 0x3F800000#32, 1, wConvF 9⟩
def wCombine (res : Bool) : CombineF := ⟨8, 1, res, 0, 1, 64, wConvF 9⟩
def wOpt : OptF := ⟨8, 8, 8, 8, 0#32, 0#32, 0#32, 0#32, 0#32, wConvF 8⟩
def wSample : SampleF := ⟨0, 0, 64, 1⟩
def wTopk (paired : Bool) : TopkF := ⟨8, paired, 1, 64, 0, 1⟩
def wCount : CountF := ⟨1, false, 2, 1, 0⟩
def wScan : ScanF := ⟨2, false, false, 0, 0⟩
def wSortM : SortF := { wSort with toMemory := true }
def wPlace : Tile := ⟨8, 64, List.replicate 64 ⟨true, 0#32, [], []⟩, true⟩
def wZeroW : Tile := ⟨10, 64, List.replicate 64 ⟨true, 0#32, [], []⟩, true⟩
def wEntries : List (Nat × Nat × Nat) := [(0, 0, 0)]
def wSortL : ListSt := { wL wRhiz (wE [wPlace] [wZeroW] []) with hold := [(0, wZeroW)] }
def wSortB : Bench := wBch wSortL (.gSort wSortM)
def wPiece : MemWrite := ((imagePieces 0 (sortRows wSortM wSortB [wPlace] wEntries).tiles)[0]?).getD ⟨0, [], false⟩
def wAddr : Tile := ⟨10, 64, List.replicate 64 ⟨true, 0#32, leBytes 8 0x100000, []⟩, true⟩
def wLast : QEntry := { wE [wPlace] [wAddr] [] with step := 63 }

def wIsOk : Moved → Bool
  | .ok _ => true
  | .bad _ => false
theorem wMoved_ok (m : Moved) (h : wIsOk m = true) : m = .ok (gotMoved m) := by
  cases m
  · rfl
  · cases h

theorem wShard_converts : convertShard wSmallT wShardOk [1#8, 2#8] = .ok (shardImages wSmallT wShard0 [1#8, 2#8]) := by
  have h1 : wShardOk.digest = sha384 [1#8, 2#8] := by simp only [wShardOk, wShard0]
  have h2 : wShardOk.rdigest = sha384 ((shardImages wSmallT wShard0 [1#8, 2#8]).map Prod.snd).flatten := by simp only [wShardOk]
  have h3 : shardImages wSmallT wShardOk [1#8, 2#8] = shardImages wSmallT wShard0 [1#8, 2#8] := by
    simp only [shardImages, shardRow, wShardOk]
  have h4 : wShardOk.compression = 0 := by simp only [wShardOk, wShard0]
  have h5 : wShardOk.rawBytes = 2 := by simp only [wShardOk, wShard0]
  simp [convertShard, h1, h2, h3, h4, h5]

theorem wShard_refused : convertShard wSmallT { wShard0 with digest := [] } [1#8, 2#8] = .error 1 := by
  simp only [convertShard]
  rw [if_pos (by decide +kernel)]

/-! ### The spec's worked cases -/

/-- Source codes of C1.F17, D2.V04 and H.Z11 (chapter 00). -/
theorem test_sourceCodes : sourceCode 1 0 17 = 0x211 ∧ sourceCode 4 1 4 = 0x844 ∧ sourceCode 6 4 11 = 0xD0B := by decide

/-- The block 5.0, 1.3, -0.2, 2.6 quantised to MXFP4 (chapter 02): scale 0x7F, codes 6, 3, 8, 5, bytes 0x36 and 0x58. -/
theorem test_quantiseBlock :
    (convertRun .e2m1 ([0x40A00000#32, 0x3FA66666#32, 0xBE4CCCCD#32, 0x40266666#32].map f32 ++
      List.replicate 28 (f32 0#32)) fun _ => none).1.take 5 = [6, 3, 8, 5, 0] ∧
    (convertRun .e2m1 ([0x40A00000#32, 0x3FA66666#32, 0xBE4CCCCD#32, 0x40266666#32].map f32 ++
      List.replicate 28 (f32 0#32)) fun _ => none).2.1 = [0x7F#8] ∧
    (packRow .e2m1 [6, 3, 8, 5]).take 2 = [0x36#8, 0x58#8] := by decide +kernel

/-- The weights 3, 0.5, 8 and -1 in E4M3 under scale 0x7C (chapter 02). -/
theorem test_e4m3Weights :
    [0x44, 0x30, 0x50, 0xB8].map (fun c => toF32 (Fmt.e4m3.decodeScaled c 0x7C)) =
      [0x3EC00000#32, 0x3D800000#32, 0x3F800000#32, 0xBE000000#32] := by decide +kernel

/-- The channels of the tile image at 0x0001_2345_6000 (chapter 10). -/
theorem test_hbmBlocks :
    [0x123456000, 0x123457000, 0x123458000, 0x123459000, 0x12345A000].map (channelOf w0 0) = [112, 113, 126, 127, 124] := by
  decide +kernel

/-- Position 5, port L03 is linked to position 9, port L11, and back (chapter 11). -/
theorem test_copperLinks :
    (copperLinks 5)[3]? = some ⟨3, 9, 11, 1, none⟩ ∧ (copperLinks 9)[11]? = some ⟨11, 5, 3, 1, none⟩ := by decide

/-- Capacity 20, and the rounds and ones of a hot expert with two of them (chapter 07). -/
theorem test_hotExpert :
    capacityOf ⟨64, 4, 0, 320, 0, 1, 16, 8, 8, 32⟩ 256 = 20 ∧
      [0, 19, 20, 39, 40, 59].map (roundOf 2 20) = [(1, 0), (1, 0), (1, 1), (1, 1), (2, 0), (2, 0)] := by decide

/-- The record of row 37 of head 5 of layer 3 in page-set 1,000 (chapter 06). -/
theorem test_kvRecord :
    let l : Layer := ⟨0, 0, 0, 256, 0, 8, 1, 1, 5, 128⟩
    let v : ViewSt := ⟨List.replicate 20 l, 0, { wUnit with layer := 3, head := 5 }, l, [⟨0, 0, false, 1000⟩]⟩
    v.record 0 37 = 0x9C474000 + 5920 ∧ v.record 1 37 = 0x9C474000 + 13792 := by decide +kernel

/-- A third residue mismatch at level 29 makes the Frond suspect at 45 (chapter 16). -/
theorem test_thirdMismatch :
    (match exec (.faultFinding (.station 4 0 3) .residue) (wStn { StnSt.zero 4 0 3 with level := 29, names := [3] }) with
      | .next t => (stnOf t 4 0 3).map fun e => (e.level, e.state)
      | _ => none) = some (45, 2) := by decide +kernel

/-- With the holding buffer full, an event during a freeze is lost and counted (chapter 17). -/
theorem test_frozenRecorderLoses :
    let s := { wRime (some (1, 9000)) with
      rime := { (wRime (some (1, 9000))).rime with holding := List.replicate 64 clearedAtManufacture } }
    (record 2 1 0xE00 [] s).rime.lostNow = 1 ∧ (record 2 1 0xE00 [] s).rime.holding.length = 64 := by decide +kernel

/-- A cap of 450 W at activity 1,164 / 1,264 leads to PL8 and duty 2 (chapter 15). -/
theorem test_capBelowPl8 :
    let s := { w0 with pwr := { w0.pwr with cap := 450, pIdle := 336000 } }
    capTarget s (1164, 1264) = 8 ∧ capDutyOf s (1164, 1264) = 2 ∧ floorWatts s (1164, 1264) = 381 := by decide +kernel

/-! ### One step -/

/-- The state after a step. -/
def after (s : State) : State := match step s with
  | .next t => t
  | _ => State.reset

/-- A RoCE write stores its bytes, and nothing beside them. -/
theorem test_rdmaWrite :
    (after { w0 with pending := [.rdmaWrite ⟨5, true, 6, 11, 0x100, false, [7#8, 9#8]⟩] }).mem.read 0xFF 4 =
      [0#8, 7#8, 9#8, 0#8] := by decide +kernel

/-- HELLO of versions 1.0 to 1.1 agrees on 1.1 and answers with the package id. -/
theorem test_hello :
    (after { w0 with pending := [.hello { wHdr with session := 0 } ⟨1, 0, 1, 1, 4096, 60, 15⟩] }).out =
      [.plain 9 ⟨0x8001, 0, 77, 0, true,
        [1#8, 1#8, 0#8, 0#8] ++ leBytes 2 4096 ++ leBytes 2 0 ++ leBytes 8 15⟩] := by decide +kernel

/-- CAP_SET outside 300 W to 2,000 W is refused with ST_BAD_PARAM. -/
theorem test_capSetRefused :
    (after { w0 with pending := [.capSet wHdr 2001 0] }).out =
      [.frame 1 0 3 (.reply ⟨0x8601, 0x13, 77, 0, true, []⟩)] := by decide +kernel

/-- The loss of one Ethernet port leaves the other up. -/
theorem test_portLossKeepsTheOther :
    (after { w0 with pending := [.ethLinkLoss 0] }).net.ethUp = [false, true] := by decide +kernel

/-- An empty queue idles; a command in front runs and leaves the rest. -/
theorem test_queue :
    after State.reset = State.reset ∧
      (after { w0 with pending := [.tripHoldExpire, .bucketLeak] }).pending = [.bucketLeak] := by decide +kernel

/-- The published digest of "abc" (FIPS 180-4): its first bytes. -/
theorem test_sha384_abc : (sha384 [0x61#8, 0x62#8, 0x63#8]).take 8 =
    [0xcb#8, 0x00#8, 0x75#8, 0x3f#8, 0x45#8, 0xa3#8, 0x5e#8, 0x8b#8] := by decide +kernel

/-- The published known answer of Philox-4x32-10 for counter 0 and key 0. -/
theorem test_philox_zero : philox 0 ⟨0, 0, 0, 0⟩ = ⟨0x6627e8d5, 0xe169c58d, 0xbc57ac4c, 0x9b00dbd8⟩ := by decide +kernel

/-- A Zstandard frame of one compressed block with a checksum: "hello" eight times (RFC 8878, made with libzstd 1.5.5). -/
theorem test_zstd_hello :
    (zstd [0x28#8, 0xB5#8, 0x2F#8, 0xFD#8, 0x24#8, 0x28#8, 0x5D#8, 0x00#8, 0x00#8, 0x28#8, 0x68#8, 0x65#8,
        0x6C#8, 0x6C#8, 0x6F#8, 0x01#8, 0x00#8, 0x40#8, 0x16#8, 0x2D#8, 0xCC#8, 0xA4#8, 0x03#8, 0x11#8]).map (fun xs => (xs.length, xs.take 6)) =
      some (40, [0x68#8, 0x65#8, 0x6C#8, 0x6C#8, 0x6F#8, 0x68#8]) := by decide +kernel

/-! ## Witnesses of the statements -/

/-! ### QueueIsFirstInFirstOut -/

theorem witness_QueueIsFirstInFirstOut_1 : ∃ (c : Instr) (rest : List Instr) (s t : State), step { s with pending := c :: rest } = .next t :=
  ⟨.tripHoldExpire, [.tripHoldExpire], w0, { w0 with pwr := { w0.pwr with tripUntil := none }, pending := [.tripHoldExpire] }, rfl⟩

theorem witness_QueueIsFirstInFirstOut_2 : ∃ s : State, s.pending = [] :=
  ⟨w0, by decide +kernel⟩

/-! ### SessionsOpen -/

theorem witness_SessionsOpen_1 : ∃ (h : Hdr) (p : HelloP) (s : State), s.boot.stage = 6 ∧ s.boot.pauseUntil = none ∧ h.session = 0
    ∧ h.cflags = 0 ∧ p.idle ≤ 300 ∧ p.minMajor * 256 + p.minMinor ≤ 257 ∧ 257 ≤ p.maxMajor * 256 + p.maxMinor :=
  ⟨{ wHdr with session := 0 }, ⟨1, 1, 1, 1, 4096, 300, 15⟩, w0, by decide +kernel⟩

theorem witness_SessionsOpen_2 : ∃ (h : Hdr) (p : HelloP) (s : State), s.boot.stage = 6 ∧ s.boot.pauseUntil = none ∧ h.session = 0
    ∧ h.cflags = 0 ∧ p.idle ≤ 300 ∧ p.minMajor * 256 + p.minMinor ≤ p.maxMajor * 256 + p.maxMinor ∧ (p.maxMajor * 256 + p.maxMinor < 256 ∨
    257 < p.minMajor * 256 + p.minMinor) :=
  ⟨{ wHdr with session := 0 }, ⟨0, 0, 0, 255, 4096, 300, 15⟩, w0, by decide +kernel⟩

theorem witness_SessionsOpen_3 : ∃ (h : Hdr) (r : List Byte) (qps : List QpEntry) (s : State), s.boot.stage = 6 ∧ s.boot.pauseUntil
    = none ∧ h.session = 0 ∧ h.cflags = 0 :=
  ⟨{ wHdr with session := 0 }, [1#8], [], w0, by decide +kernel⟩

theorem witness_SessionsOpen_4 : ∃ (h : Hdr) (sid principal roles : Nat) (r : List Byte) (qps : List QpEntry) (hs : HelloSt) (s :
    State), s.boot.stage = 6 ∧ s.boot.pauseUntil = none ∧ h.session = 0 ∧ h.cflags = 0 ∧ s.net.sessions.length < 128 ∧ sid ≠ 0 ∧ s.session
    sid = none ∧ s.net.hellos.find? (fun x => x.src = h.src) = some hs ∧ principal < 0xFFFFFFFF ∧ (∀ x ∈ s.net.events, x.principal ≠
    principal) :=
  ⟨{ wHdr with session := 0 }, 2, 0xFFFFFFFE, 1, [], [], ⟨9, 1, 1, 15, 10, 4096⟩,
    { w0 with net := { w0.net with hellos := [⟨9, 1, 1, 15, 10, 4096⟩] } }, by decide +kernel⟩

theorem witness_SessionsOpen_5 : ∃ (h : Hdr) (spdm : SpdmStep) (qps : List QpEntry) (e : Session) (s : State), h.session ≠ 0 ∧
    Served (.sessionOpen h 1 spdm qps) h ⟨0x0002, 0, featRoce⟩ e s ∧ qps ≠ [] ∧ qps.length ≤ 64 ∧ (∀ q ∈ qps, q.port ≤ 1 ∧ 3 ≤ q.pmtu ∧
    q.pmtu ≤ 5) ∧ (s.net.qps.filter fun q => q.session = h.session).length + qps.length ≤ 64 ∧ s.net.qps.length + qps.length ≤ 512 :=
  ⟨wHdr, .failed, [⟨70, 1, 0, 5⟩], wSess, w0, by decide +kernel⟩

theorem witness_SessionsOpen_6 : ∃ (h : Hdr) (r : List Byte) (qps : List QpEntry) (e : Session) (s : State), h.session ≠ 0 ∧ Served
    (.sessionOpen h 0 (.answer r) qps) h ⟨0x0002, 0, 0⟩ e s :=
  ⟨wHdr, [1#8], [], wSess, w0, by decide +kernel⟩

theorem witness_SessionsOpen_7 : ∃ (h : Hdr) (e : Session) (s : State), Served (.keepalive h) h ⟨0x0004, 0, 0⟩ e s :=
  ⟨wHdr, wSess, w0, by decide +kernel⟩

theorem witness_SessionsOpen_8 : ∃ (h : Hdr) (e : Session) (s : State), Served (.capsQuery h) h ⟨0x0005, 0, 0⟩ e s :=
  ⟨wHdr, wSess, w0, by decide +kernel⟩

/-! ### SessionsCloseWhole -/

theorem witness_SessionsCloseWhole_1 : ∃ (h : Hdr) (e : Session) (s : State), Served (.sessionClose h) h ⟨0x0003, 0, 0⟩ e s :=
  ⟨wHdr, wSess, w0, by decide +kernel⟩

theorem witness_SessionsCloseWhole_2 : ∃ (h : Hdr) (e : Session) (s : State), Served (.sessionClose h) h ⟨0x0003, 0, 0⟩ e s ∧ h.cflags % 2
    = 0 :=
  ⟨wHdr, wSess, w0, by decide +kernel⟩

theorem witness_SessionsCloseWhole_3 : ∃ (h : Hdr) (e : Session) (s : State), Served (.sessionClose h) h ⟨0x0003, 0, 0⟩ e s ∧ h.cflags % 2
    = 1 :=
  ⟨{ wHdr with cflags := 1 }, wSess, w0, by decide +kernel⟩

theorem witness_SessionsCloseWhole_4 : ∃ (sid : Nat) (e : Session) (s : State), s.session sid = some e ∧ e.lastFrame + e.idle * 1000000 ≤
    s.beat.elapsed :=
  ⟨1, wSess, wLate w0, by decide +kernel⟩

theorem witness_SessionsCloseWhole_5 : ∃ (sid : Nat) (e : Session) (s : State), s.session sid = some e ∧ (∃ f ∈ e.unacked, f.sentAt +
    2000000 ≤ s.beat.elapsed) :=
  ⟨1, { wSess with unacked := [⟨2, none, 9000, 9000, 100⟩] }, wLate
    { w0 with net := { w0.net with sessions := [{ wSess with unacked := [⟨2, none, 9000, 9000, 100⟩] }] } }, by decide +kernel⟩

theorem witness_SessionsCloseWhole_6 : ∃ (sid : Nat) (e : Session) (s : State), s.session sid = some e ∧ (2 ^ 31 ≤ e.framesIn ∨ 2 ^ 31 ≤
    e.framesOut) :=
  ⟨1, { wSess with framesIn := 2147483648 }, { w0 with net := { w0.net with sessions := [{ wSess with framesIn := 2147483648 }] } },
    by decide +kernel⟩

theorem witness_SessionsCloseWhole_7 : ∃ (p : Nat) (s : State), (∀ e ∈ s.net.sessions, e.principal ≠ p) ∧ (∃ g ∈ s.net.gone,
    g.principal = p ∧ g.since + 60000000 ≤ s.beat.elapsed) :=
  ⟨8, wLate { w0 with net := { w0.net with gone := [⟨8, 40000000⟩] } }, by decide +kernel⟩

/-! ### EthernetAndTransport -/

theorem witness_EthernetAndTransport_1 : ∃ (sid seq : Nat) (e : Session) (f : DevFrame) (s : State), s.session sid = some e ∧ e.unacked.find?
    (fun x => x.seq = seq) = some f ∧ f.lastAt + f.rto ≤ s.beat.elapsed ∧ f.rto ≤ 10000 :=
  ⟨1, 2, { wSess with unacked := [⟨2, none, 9000, 9900, 100⟩] }, ⟨2, none, 9000, 9900, 100⟩,
    { w0 with net := { w0.net with sessions := [{ wSess with unacked := [⟨2, none, 9000, 9900, 100⟩] }] } }, by decide +kernel⟩

theorem witness_EthernetAndTransport_2 : ∃ (sid : Nat) (e : Session) (s : State), s.session sid = some e ∧ (2 ^ 30 ≤ e.framesIn ∨ 2 ^ 30 ≤
    e.framesOut) ∧ e.updating = false :=
  ⟨1, { wSess with framesIn := 1073741824 }, { w0 with net := { w0.net with sessions := [{ wSess with framesIn := 1073741824 }] } },
    by decide +kernel⟩

theorem witness_EthernetAndTransport_3 : ∃ (slot : Nat) (a : Acct) (s : State), s.jobs.acct[slot]? = some a ∧ (∃ b, a.idleSince = some b ∧ b +
    60000000 ≤ s.beat.elapsed) :=
  ⟨0, { Acct.empty with used := true, idleSince := some 9000 }, wLate
    { w0 with jobs := { w0.jobs with acct := [{ Acct.empty with used := true, idleSince := some 9000 }] } }, by decide +kernel⟩

theorem witness_EthernetAndTransport_4 : ∃ (port : Nat) (s : State), s.net.ethUp.getD port false = true :=
  ⟨1, w0, by decide +kernel⟩

theorem witness_EthernetAndTransport_5 : ∃ (port : Nat) (s : State), (s.boot.stage = 5 ∨ s.boot.stage = 6) ∧ s.boot.macsecWait.getD port
    false = false ∧ (∀ e ∈ s.hlth.units, e.unit = .eth port → e.status < 2) :=
  ⟨1, w0, by decide +kernel⟩

theorem witness_EthernetAndTransport_6 : ∃ (q : NdQuery) (r : InstallRec) (s : State), s.flash.install = some r ∧ s.net.ethUp.getD q.port
    false = true ∧ (if q.ipv6 then r.ipv6 else r.ipv4).getD q.port 0 = q.target ∧ q.target ≠ 0 :=
  ⟨⟨1, true, 2⟩, factoryInstall, w0, by decide +kernel⟩

theorem witness_EthernetAndTransport_7 : ∃ (p : RdmaP) (q : QueuePair) (b : Handle) (s : State), s.net.qps.find? (fun q => q.qpn =
    p.qpn) = some q ∧ q.error = false ∧ p.isWrite = true ∧ s.mem.handles.find? (fun x => x.window = some p.window) = some b ∧ b.rKey =
    p.rKey ∧ p.offset + p.data.length ≤ b.span ∧ s.mem.wf = true :=
  ⟨⟨5, true, 6, 11, 0x1FFFFC, false, [1#8, 2#8, 3#8, 4#8]⟩, ⟨5, 1, 0, false⟩, wHandle, w0, by decide +kernel⟩

theorem witness_EthernetAndTransport_8 : ∃ (p : RdmaP) (q : QueuePair) (b : Handle) (s : State), s.net.qps.find? (fun q => q.qpn =
    p.qpn) = some q ∧ q.error = false ∧ p.isWrite = true ∧ s.mem.handles.find? (fun x => x.window = some p.window) = some b ∧ (b.rKey ≠
    p.rKey ∨ b.span < p.offset + p.data.length) :=
  ⟨⟨5, true, 6, 11, 0x1FFFFD, false, [1#8, 2#8, 3#8, 4#8]⟩, ⟨5, 1, 0, false⟩, wHandle, w0, by decide +kernel⟩

/-! ### FramesInOrder -/

theorem witness_FramesInOrder_1 : ∃ (h : Hdr) (op st d : Nat) (r : List Byte) (s : State) (e : Session), h.session ≠ 0 ∧
    s.session h.session = some e ∧ e.unacked.length < 64 :=
  ⟨wHdr, 4, 0, 0, [], w0, wSess, by decide +kernel⟩

theorem witness_FramesInOrder_2 : ∃ (h : Hdr) (op st d : Nat) (r : List Byte) (s : State), h.session = 0 :=
  ⟨{ wHdr with session := 0 }, 4, 0, 0, [], w0, by decide +kernel⟩

theorem witness_FramesInOrder_3 : ∃ (f : Frame) (s : State), s.boot.stage = 6 ∧ s.boot.pauseUntil = none ∧ s.net.ethUp.getD f.port false =
    true ∧ macsecOn s f.port = false ∧ f.magic ≠ 0x1A1C :=
  ⟨{ wFrame with magic := 0x1A1D }, w0, by decide +kernel⟩

theorem witness_FramesInOrder_4 : ∃ (f : Frame) (s : State), s.boot.stage = 6 ∧ s.boot.pauseUntil = none ∧ s.net.ethUp.getD f.port false =
    true ∧ macsecOn s f.port = false ∧ f.magic = 0x1A1C ∧ f.lengthOk = false :=
  ⟨{ wFrame with lengthOk := false }, w0, by decide +kernel⟩

theorem witness_FramesInOrder_5 : ∃ (f : Frame) (s : State), s.boot.stage = 6 ∧ s.boot.pauseUntil = none ∧ s.net.ethUp.getD f.port false =
    true ∧ macsecOn s f.port = false ∧ f.magic = 0x1A1C ∧ f.lengthOk = true ∧ f.session ≠ 0 ∧ s.session f.session = none :=
  ⟨{ wFrame with session := 2 }, w0, by decide +kernel⟩

theorem witness_FramesInOrder_6 : ∃ (f : Frame) (e : Session) (s : State), s.boot.stage = 6 ∧ s.boot.pauseUntil = none ∧ s.net.ethUp.getD
    f.port false = true ∧ macsecOn s f.port = false ∧ f.magic = 0x1A1C ∧ f.lengthOk = true ∧ f.session ≠ 0 ∧ s.session f.session = some e
    ∧ f.tagOk = true ∧ (f.verMajor ≠ e.major ∨ f.verMinor ≠ e.minor) :=
  ⟨{ wFrame with verMinor := 1 }, wSess, w0, by decide +kernel⟩

theorem witness_FramesInOrder_7 : ∃ (f : Frame) (e : Session) (s : State), s.boot.stage = 6 ∧ s.boot.pauseUntil = none ∧ s.net.ethUp.getD
    f.port false = true ∧ macsecOn s f.port = false ∧ f.magic = 0x1A1C ∧ f.lengthOk = true ∧ f.session ≠ 0 ∧ s.session f.session = some e
    ∧ f.tagOk = true ∧ f.verMajor = e.major ∧ f.verMinor = e.minor ∧ f.seq = e.nextIn ∧ e.nextIn < 2 ^ 32 ∧ f.entries = [] ∧ f.ackOnly =
    false ∧ e.held = [] ∧ e.unacked = [] ∧ e.waitingOut = [] :=
  ⟨wFrame, wSess, w0, by decide +kernel⟩

theorem witness_FramesInOrder_8 : ∃ (f : Frame) (s : State), s.boot.stage ≠ 6 :=
  ⟨wFrame, { w0 with boot := { w0.boot with stage := 5 } }, by decide +kernel⟩

/-! ### GatesRefuse -/

theorem witness_GatesRefuse_1 : ∃ (i : Instr) (h : Hdr) (g : Gate) (ranges : Session → State → Option (Nat × Nat)) (run : Session → State
    → State) (e : Session) (s : State), s.session h.session = some e ∧ flagsOver h (cflagsMask g.opcode) = false ∧ h.sorus = 0 :=
  ⟨.capsQuery wHdr, wHdr, ⟨0x0005, 0, 0⟩, (fun _ _ => none), (fun _ s => s), wSess, w0, by decide +kernel⟩

theorem witness_GatesRefuse_2 : ∃ (h : Hdr) (g : Gate) (e : Session) (s : State), s.session h.session = some e ∧
    flagsOver h (cflagsMask g.opcode) = false ∧ h.sorus = 0 ∧ s.boot.stage ≠ 6 :=
  ⟨wHdr, ⟨0x0005, 0, 0⟩, wSess, wMail 5, by decide +kernel⟩

theorem witness_GatesRefuse_3 : ∃ (h : Hdr) (g : Gate) (e : Session) (s : State), s.session h.session = some e ∧
    flagsOver h (cflagsMask g.opcode) = false ∧ h.sorus = 0 ∧ s.boot.pauseUntil ≠ none :=
  ⟨wHdr, ⟨0x0005, 0, 0⟩, wSess, { w0 with boot := { w0.boot with pauseUntil := some 10001 } }, by decide +kernel⟩

theorem witness_GatesRefuse_4 : ∃ (h : Hdr) (g : Gate) (e : Session) (s : State), s.session h.session = some e ∧
    flagsOver h (cflagsMask g.opcode) = false ∧ h.sorus = 0 ∧ s.boot.stage = 6 ∧ s.boot.pauseUntil = none ∧
      s.hlth.failed = true ∧ failedOpcode g.opcode = false :=
  ⟨wHdr, ⟨0x0801 + 1, 0, 0⟩, wSess, { w0 with hlth := { w0.hlth with failed := true } }, by decide +kernel⟩

theorem witness_GatesRefuse_5 : ∃ (h : Hdr) (g : Gate) (e : Session) (s : State), s.session h.session = some e ∧
    flagsOver h (cflagsMask g.opcode) = false ∧ h.sorus = 0 ∧ s.boot.stage = 6 ∧ s.boot.pauseUntil = none ∧
      s.hlth.failed = false ∧ s.beat.aligned = false ∧ earlyOpcode g.opcode = false :=
  ⟨wHdr, ⟨0x0504, 0, 0⟩, wSess, { w0 with beat := { w0.beat with aligned := false } }, by decide +kernel⟩

theorem witness_GatesRefuse_6 : ∃ (h : Hdr) (g : Gate) (e : Session) (s : State), s.session h.session = some e ∧
    flagsOver h (cflagsMask g.opcode) = false ∧ h.sorus = 0 ∧ s.boot.stage = 6 ∧ s.boot.pauseUntil = none ∧
      s.hlth.failed = false ∧ s.beat.aligned = true ∧ g.role ≠ 0 ∧ g.role &&& e.roles = 0 :=
  ⟨wHdr, ⟨0x0101, roleModels, 0⟩, { wSess with roles := 0 },
    { w0 with net := { w0.net with sessions := [{ wSess with roles := 0 }] } }, by decide +kernel⟩

theorem witness_GatesRefuse_7 : ∃ (h : Hdr) (g : Gate) (e : Session) (s : State), s.session h.session = some e ∧
    flagsOver h (cflagsMask g.opcode) = false ∧ h.sorus = 0 ∧ s.boot.stage = 6 ∧ s.boot.pauseUntil = none ∧
      s.hlth.failed = false ∧ s.beat.aligned = true ∧ g.role = 0 ∧ g.features = 0 ∧ 4096 ≤ e.outstanding :=
  ⟨wHdr, ⟨0x0005, 0, 0⟩, { wSess with outstanding := 4096 },
    { w0 with net := { w0.net with sessions := [{ wSess with outstanding := 4096 }] } }, by decide +kernel⟩

/-! ### SoriStageAndClose -/

theorem witness_SoriStageAndClose_1 : ∃ (i : Instr) (h : Hdr) (g : Gate) (ranges : Session → State → Option (Nat × Nat)) (run : Session
    → State → State) (e : Session) (x : Sorus) (s : State), s.boot.stage = 6 ∧ s.boot.pauseUntil = none ∧ s.session h.session = some e ∧
    flagsOver h (cflagsMask g.opcode) = false ∧ gateRefusal g e s = none ∧ ranges e s = none ∧ h.sorus ≠ 0 ∧ s.sorus h.sorus = some x ∧
    x.session = h.session ∧ x.state = 0 ∧ stageable g.opcode = true ∧ x.staged.length < 256 ∧ x.bytes + entryBytes i ≤ 65536 :=
  ⟨.epochRetire wHdrS 5 1, wHdrS, ⟨0x0106, roleModels, featLearn⟩, (fun _ _ => none), (fun _ s => s), wSess,
    { wSorus with bytes := 65536 - entryBytes (.epochRetire wHdrS 5 1) }, wS
    { wSorus with bytes := 65536 - entryBytes (.epochRetire wHdrS 5 1) }, by decide +kernel⟩

theorem witness_SoriStageAndClose_2 : ∃ (h : Hdr) (id members : Nat) (e : Session) (s : State), Served (.sorusOpen h id members) h
    ⟨0x0901, 0, if sorusMap s members = [s.boot.pkg] then 0 else featFabric⟩ e s ∧ id ≠ 0 ∧ s.boot.pkg ∈ sorusMap s members ∧ s.sorus id =
    none ∧ (s.sori.sori.filter fun x => decide (x.state < 3) && !x.own).length < 32 :=
  ⟨wHdr, 4, 3, wSess, wS wSorus, by decide +kernel⟩

theorem witness_SoriStageAndClose_3 : ∃ (h : Hdr) (id : Nat) (e : Session) (s : State), Served (.sorusAbort h id) h ⟨0x0903, 0, 0⟩ e s ∧
    sorusRefusal s e id = none :=
  ⟨wHdr, 3, wSess, wS wSorus, by decide +kernel⟩

theorem witness_SoriStageAndClose_4 : ∃ (h : Hdr) (id mode beat b : Nat) (x : Sorus) (e : Session) (s : State), Served (.sorusCommit h
    id mode beat) h ⟨0x0902, 0, 0⟩ e s ∧ mode ≤ 1 ∧ sorusRefusal s e id = none ∧ s.sorus id = some x ∧ x.coord = s.boot.pkg ∧
    commitBeatFor s mode beat = some b :=
  ⟨wHdr, 3, 0, 10016, 10016, wSorus, wSess, wS wSorus, by decide +kernel⟩

theorem witness_SoriStageAndClose_5 : ∃ (h : Hdr) (id mode beat : Nat) (x : Sorus) (e : Session) (s : State), Served (.sorusCommit h id
    mode beat) h ⟨0x0902, 0, 0⟩ e s ∧ mode ≤ 1 ∧ sorusRefusal s e id = none ∧ s.sorus id = some x ∧ x.coord = s.boot.pkg ∧ commitBeatFor s
    mode beat = none :=
  ⟨wHdr, 3, 0, 10015, wSorus, wSess, wS wSorus, by decide +kernel⟩

/-! ### RegisterAccesses -/

theorem witness_RegisterAccesses_1 : ∃ (h : Hdr) (o count : Nat) (e : Session) (s : State), Served (.regRead h o count) h ⟨0x0801, 0, 0⟩ e s
    ∧ 1 ≤ count ∧ count ≤ 256 ∧ (∀ k, k < count → (regLive s (o + 4 * k)).isSome = true) :=
  ⟨wHdr, 0x10000, 1, wSess, w0, by decide +kernel⟩

theorem witness_RegisterAccesses_2 : ∃ (h : Hdr) (o count : Nat) (e : Session) (s : State), Served (.regRead h o count) h ⟨0x0801, 0, 0⟩ e s
    ∧ (count = 0 ∨ 256 < count ∨ ∃ k, k < count ∧ regLive s (o + 4 * k) = none) :=
  ⟨wHdr, 0x10000, 257, wSess, w0, ⟨by decide +kernel, .inr (.inl (by decide +kernel))⟩⟩

theorem witness_RegisterAccesses_3 : ∃ (requester o v : Nat) (s : State), isLo o = true ∧ regLive s (o + 4) = some v :=
  ⟨1, 0x2000, (regLive w0 0x2004).getD 0, w0, by decide +kernel⟩

theorem witness_RegisterAccesses_5 : ∃ (o count : Nat) (s : State), (∀ k, k < count → i3cSees (o + 4 * k) = false) :=
  ⟨0x12000, 4, w0, by decide +kernel⟩

theorem witness_RegisterAccesses_6 : ∃ (o : Nat) (s : State), i3cSees o = true :=
  ⟨0x11FFC, w0, by decide +kernel⟩

theorem witness_RegisterAccesses_7 : ∃ (h : Hdr) (value mask : Word) (e : Session) (s : State), Served (.regWrite h 0x10000 value mask) h
    ⟨0x0802, roleOperate, 0⟩ e s ∧ 300 ≤ merged s.pwr.cap value mask % 2 ^ 12 ∧ merged s.pwr.cap value mask % 2 ^ 12 ≤ 2000 :=
  ⟨wHdr, 300#32, 0xFFFFFFFF#32, wSess, w0, by decide +kernel⟩

theorem witness_RegisterAccesses_8 : ∃ (h : Hdr) (value mask : Word) (e : Session) (s : State), Served (.regWrite h 0x10000 value mask) h
    ⟨0x0802, roleOperate, 0⟩ e s ∧ (merged s.pwr.cap value mask % 2 ^ 12 < 300 ∨ 2000 < merged s.pwr.cap value mask % 2 ^ 12) :=
  ⟨wHdr, 2001#32, 0xFFFFFFFF#32, wSess, w0, by decide +kernel⟩

theorem witness_RegisterAccesses_9 : ∃ (value : Word) (s : State), (value.toNat % 2 ^ 8 < 85 ∨ 105 < value.toNat % 2 ^ 8) :=
  ⟨106#32, w0, by decide +kernel⟩

theorem witness_RegisterAccesses_10 : ∃ (value : Word) (s : State), 85 ≤ value.toNat % 2 ^ 8 ∧ value.toNat % 2 ^ 8 ≤ 105 :=
  ⟨105#32, w0, by decide +kernel⟩

theorem witness_RegisterAccesses_12 : ∃ (die num mode : Nat) (s : State), mode < 2 :=
  ⟨0, 0, 1, w0, by decide +kernel⟩

theorem witness_RegisterAccesses_13 : ∃ (watts : Nat) (s : State), 300 ≤ watts ∧ watts ≤ 2000 :=
  ⟨2000, w0, by decide +kernel⟩

theorem witness_RegisterAccesses_14 : ∃ (watts : Nat) (s : State), (watts < 300 ∨ 2000 < watts) :=
  ⟨299, w0, by decide +kernel⟩

theorem witness_RegisterAccesses_15 : ∃ (limcel : Bool) (o : Nat) (value mask : Word) (s t : State), writeReg limcel o value mask s =
    some t :=
  ⟨false, 0x10000, 1000#32, 0xFFFFFFFF#32, w0, (writeReg false 0x10000 1000#32 0xFFFFFFFF#32 w0).getD State.reset, by decide +kernel⟩

/-! ### TheRecorder -/

theorem witness_TheRecorder_1 : ∃ (h : Hdr) (e : Session) (s : State), Served (.rimeFreeze h) h ⟨0x0702, 0, 0⟩ e s ∧ s.rime.freeze =
    none :=
  ⟨wHdr, wSess, w0, by decide +kernel⟩

theorem witness_TheRecorder_2 : ∃ (h : Hdr) (e : Session) (o b : Nat) (s : State), Served (.rimeFreeze h) h ⟨0x0702, 0, 0⟩ e s ∧
    s.rime.freeze = some (o, b) ∧ o ≠ h.session :=
  ⟨wHdr, wSess, 2, 9000, wRime (some (2, 9000)), by decide +kernel⟩

theorem witness_TheRecorder_3 : ∃ (h : Hdr) (e : Session) (b : Nat) (s : State), Served (.rimeThaw h) h ⟨0x0704, 0, 0⟩ e s ∧
    s.rime.freeze = some (h.session, b) :=
  ⟨wHdr, wSess, 9000, wRime (some (1, 9000)), by decide +kernel⟩

theorem witness_TheRecorder_4 : ∃ (h : Hdr) (e : Session) (area first maxBytes : Nat) (s : State), Served (.rimeRead h area first
    maxBytes) h ⟨0x0703, 0, 0⟩ e s ∧ area ≤ 1 ∧ 292 ≤ maxBytes ∧ maxBytes ≤ 8192 :=
  ⟨wHdr, wSess, 1, 0, 8192, w0, by decide +kernel⟩

theorem witness_TheRecorder_5 : ∃ (h : Hdr) (e : Session) (s : State), Served (.rimeClear h) h ⟨0x0705, 0, 0⟩ e s ∧ s.rime.freeze =
    none :=
  ⟨wHdr, wSess, w0, by decide +kernel⟩

theorem witness_TheRecorder_8 : ∃ (f : Nat × Nat) (s : State), s.rime.freeze = some f ∧ f.2 + 60000000 ≤ s.beat.elapsed :=
  ⟨(1, 9000), wLate (wRime (some (1, 9000))), by decide +kernel⟩

theorem witness_TheRecorder_9 : ∃ (type sev source : Nat) (p : List Byte) (s : State) (r : Rec), s.rime.freeze = none ∧
    s.rime.circ.getLast? = some r ∧ r.type = type ∧ r.source = source ∧ r.payload = padPayload p ∧ s.beat.elapsed ≤ r.lastElapsed +
    10000000 ∧ r.repeats + 1 ≤ 65535 :=
  ⟨1, 1, 0xE00, [], w0, clearedAtManufacture, by decide +kernel⟩

theorem witness_TheRecorder_10 : ∃ (type sev source : Nat) (p : List Byte) (s : State), s.rime.freeze = none ∧ s.rime.circ.length <
    8192 ∧ (∀ r, s.rime.circ.getLast? = some r → r.type ≠ type) :=
  ⟨2, 1, 0xE00, [], w0,
    by refine ⟨by decide +kernel, by decide +kernel, fun r h => ?_⟩; obtain rfl : clearedAtManufacture = r := Option.some.inj h; decide⟩

theorem witness_TheRecorder_11 : ∃ (type sev source : Nat) (p : List Byte) (s : State), s.rime.freeze ≠ none ∧ sev ≠ 6 :=
  ⟨2, 5, 0xE00, [], wRime (some (1, 9000)), by decide +kernel⟩

/-! ### TimeIsKept -/

theorem witness_TimeIsKept_1 : ∃ (timeUs : Nat) (off : Int) (s : State), off.natAbs ≤ 200 ∧ 15 ≤ s.beat.goodRun :=
  ⟨12000000, -200, { w0 with beat := { w0.beat with goodRun := 15 } }, by decide +kernel⟩

theorem witness_TimeIsKept_2 : ∃ (timeUs : Nat) (off : Int) (s : State), off.natAbs ≤ 200 ∧ s.beat.goodRun < 15 :=
  ⟨12000000, 200, { w0 with beat := { w0.beat with goodRun := 14 } }, by decide +kernel⟩

theorem witness_TimeIsKept_3 : ∃ (timeUs : Nat) (off : Int) (s : State), 1000 < off.natAbs ∧ 3 ≤ s.beat.badRun ∧ s.beat.ptpLock = true
    :=
  ⟨12000000, -1001, { w0 with beat := { w0.beat with badRun := 3, ptpLock := true } }, by decide +kernel⟩

theorem witness_TimeIsKept_4 : ∃ s : State, s.beat.ptpLock = true ∧ s.beat.syncAt + 3000000 ≤ s.beat.elapsed :=
  ⟨wLate { w0 with beat := { w0.beat with ptpLock := true } }, by decide +kernel⟩

theorem witness_TimeIsKept_5 : ∃ (h : Hdr) (second : Nat) (e : Session) (s : State), Served (.beatSet h second) h ⟨0x0506, roleOperate,
    0⟩ e s ∧ s.beat.ptpLock = true ∧ s.beat.clkHold = false ∧ s.beat.ptpOffset.natAbs ≤ 250 ∧ s.beat.ptpTime + 2000000 ≤ second * 1000000
    ∧ second * 1000000 ≤ s.beat.ptpTime + 60000000 ∧ s.beat.aligned = false ∧ s.beat.setPending = none :=
  ⟨wHdr, 12, wSess, { w0 with beat := { w0.beat with aligned := false, ptpLock := true, ptpTime := 10000000, ptpOffset := -250 } },
    by decide +kernel⟩

theorem witness_TimeIsKept_6 : ∃ (h : Hdr) (second : Nat) (e : Session) (s : State), Served (.beatSet h second) h ⟨0x0506, roleOperate,
    0⟩ e s ∧ (s.beat.ptpLock = false ∨ s.beat.clkHold = true) :=
  ⟨wHdr, 12, wSess, { w0 with beat := { w0.beat with aligned := false } }, by decide +kernel⟩

theorem witness_TimeIsKept_7 : ∃ (p : BeatSetSt) (s : State), s.beat.setPending = some p ∧ p.second * 1000000 ≤ s.beat.ptpTime :=
  ⟨⟨12, 1, 77⟩,
    { w0 with beat := { w0.beat with aligned := false, ptpLock := true, ptpTime := 12000000, setPending := some ⟨12, 1, 77⟩ } },
    by decide +kernel⟩

theorem witness_TimeIsKept_8 : ∃ s : State, s.beat.markHold = false :=
  ⟨w0, by decide +kernel⟩

theorem witness_TimeIsKept_9 : ∃ s : State, s.beat.markHold = true :=
  ⟨{ w0 with beat := { w0.beat with markHold := true } }, by decide +kernel⟩

theorem witness_TimeIsKept_11 : ∃ s : State, s.beat.clkHold = false ∧ s.fab.ops = [] :=
  ⟨w0, by decide +kernel⟩

theorem witness_TimeIsKept_12 : ∃ (edge : Nat) (s : State), s.beat.clkHold = true ∧ s.beat.ptpLock = true ∧ s.beat.aligned = true :=
  ⟨2 ^ 48, { w0 with beat := { w0.beat with clkHold := true, ptpLock := true } }, by decide +kernel⟩

theorem witness_TimeIsKept_13 : ∃ (edge : Nat) (s : State), s.beat.clkHold = true ∧ s.beat.ptpLock = false :=
  ⟨10002, { w0 with beat := { w0.beat with clkHold := true } }, by decide +kernel⟩

/-! ### PowerAndTemperature -/

theorem witness_PowerAndTemperature_1 : ∃ (h : Hdr) (watts beat : Nat) (e : Session) (s : State), Served (.capSet h watts beat) h ⟨0x0601,
    roleOperate, 0⟩ e s ∧ 300 ≤ watts ∧ watts ≤ 2000 ∧ beat ≠ 0 ∧ beatLe beat s.now = false :=
  ⟨wHdr, 2000, 10001, wSess, w0, by decide +kernel⟩

theorem witness_PowerAndTemperature_2 : ∃ (h : Hdr) (watts : Nat) (e : Session) (s : State), Served (.capSet h watts 0) h ⟨0x0601, roleOperate,
    0⟩ e s ∧ 300 ≤ watts ∧ watts ≤ 2000 :=
  ⟨wHdr, 300, wSess, w0, by decide +kernel⟩

theorem witness_PowerAndTemperature_3 : ∃ (h : Hdr) (watts beat : Nat) (e : Session) (s : State), Served (.capSet h watts beat) h ⟨0x0601,
    roleOperate, 0⟩ e s ∧ (watts < 300 ∨ 2000 < watts) :=
  ⟨wHdr, 299, 0, wSess, w0, by decide +kernel⟩

theorem witness_PowerAndTemperature_4 : ∃ (h : Hdr) (e : Session) (s : State), Served (.capQuery h) h ⟨0x0602, 0, 0⟩ e s :=
  ⟨wHdr, wSess, w0, by decide +kernel⟩

theorem witness_PowerAndTemperature_5 : ∃ (h : Hdr) (first count : Nat) (e : Session) (s : State), Served (.energyRead h 0 first count) h
    ⟨0x0603, 0, 0⟩ e s ∧ 1 ≤ count ∧ first + count ≤ 32 :=
  ⟨wHdr, 31, 1, wSess, w0, by decide +kernel⟩

theorem witness_PowerAndTemperature_6 : ∃ (h : Hdr) (first count : Nat) (e : Session) (s : State), Served (.energyRead h 1 first count) h
    ⟨0x0603, 0, 0⟩ e s ∧ 1 ≤ count ∧ first + count ≤ 1024 :=
  ⟨wHdr, 1023, 1, wSess, w0, by decide +kernel⟩

theorem witness_PowerAndTemperature_7 : ∃ (c : Nat) (s : State), s.thm.stepAt ≤ s.beat.elapsed ∧ s.thm.atLimit = true ∧ s.thm.ceiling = some c ∧
    c < 8 :=
  ⟨7, wThm { ThmSt.zero with atLimit := true, ceiling := some 7 }, by decide +kernel⟩

theorem witness_PowerAndTemperature_8 : ∃ s : State, s.thm.stepAt ≤ s.beat.elapsed ∧ s.thm.atLimit = true ∧ s.thm.ceiling = some 8 :=
  ⟨wThm { ThmSt.zero with atLimit := true, ceiling := some 8 }, by decide +kernel⟩

theorem witness_PowerAndTemperature_9 : ∃ s : State, s.beat.elapsed < s.thm.stepAt :=
  ⟨wThm { ThmSt.zero with stepAt := 10001 }, by decide +kernel⟩

theorem witness_PowerAndTemperature_10 : ∃ (b c : Nat) (s : State), s.thm.stepAt ≤ s.beat.elapsed ∧ s.thm.atLimit = false ∧ s.thm.coolSince = some
    b ∧ b + 1000 ≤ s.beat.elapsed ∧ s.thm.duty = 8 ∧ s.thm.ceiling = some (c + 1) :=
  ⟨9000, 0, wThm { ThmSt.zero with coolSince := some 9000, duty := 8, ceiling := some 1 }, by decide +kernel⟩

theorem witness_PowerAndTemperature_11 : ∃ (b : Nat) (s : State), s.thm.atLimit = false ∧ s.thm.coolSince = some b ∧ s.beat.elapsed < b + 1000 :=
  ⟨9001, wThm { ThmSt.zero with coolSince := some 9001, ceiling := some 1 }, by decide +kernel⟩

theorem witness_PowerAndTemperature_12 : ∃ (die sensor celsius : Nat) (s : State), 115 ≤ celsius :=
  ⟨0, 0, 115, w0, by decide +kernel⟩

/-! ### RegulatorsAndEnergy -/

theorem witness_RegulatorsAndEnergy_1 : ∃ (e : Nat) (r : Raise) (s : State), targetLevel s e < levelOf s.pwr e ∧ s.pwr.raises.find? (fun x
    => x.engine = e) = some r ∧ r.ready = true ∧ r.since + 8 ≤ s.beat.elapsed :=
  ⟨0, ⟨0, 9992, true⟩, { w0 with pwr := { w0.pwr with raises := [⟨0, 9992, true⟩], levelC := 5 } }, by decide +kernel⟩

theorem witness_RegulatorsAndEnergy_2 : ∃ (engine : Nat) (r : Raise) (s : State), s.pwr.raises.find? (fun x => x.engine = engine) = some r
    :=
  ⟨0, ⟨0, 9993, false⟩, wRaise 9993, by decide +kernel⟩

theorem witness_RegulatorsAndEnergy_3 : ∃ (engine : Nat) (r : Raise) (s : State), s.pwr.raises.find? (fun x => x.engine = engine) = some r
    ∧ r.ready = false ∧ r.since + 100 ≤ s.beat.elapsed :=
  ⟨0, ⟨0, 9900, false⟩, wRaise 9900, by decide +kernel⟩

theorem witness_RegulatorsAndEnergy_5 : ∃ (b : Nat) (s : State), s.pwr.tripUntil = some b ∧ b ≤ s.beat.elapsed :=
  ⟨10000, { w0 with pwr := { w0.pwr with tripUntil := some 10000 } }, by decide +kernel⟩

theorem witness_RegulatorsAndEnergy_6 : ∃ (i : Nat) (h : Hint) (s : State), s.pwr.hints[i]? = some h ∧ beatLe (beatAdd h.start h.span)
    s.now = true :=
  ⟨0, ⟨0, 1, 0, 0, 9000, 100⟩, { w0 with pwr := { w0.pwr with hints := [⟨0, 1, 0, 0, 9000, 100⟩] } }, by decide +kernel⟩

theorem witness_RegulatorsAndEnergy_8 : ∃ (r : Reconcile) (s : State), r.phaseOk = true ∧ r.rangeOk = true ∧ r.stuckOk = true ∧
    s.pwr.suspect = false :=
  ⟨⟨[500000], [510000], [], [], true, true, true⟩, w0, by decide +kernel⟩

/-! ### BeatsAndTheGovernor -/

theorem witness_BeatsAndTheGovernor_1 : ∃ (solo : List (Nat × Nat)) (x : Ctx) (s : State), s.now % 1000000 = 0 ∧ s.jobs.ctxs.filter (fun c =>
    c.num = x.num) = [x] :=
  ⟨[], wCtx, { w0 with beat := { w0.beat with count := 1000000 } }, by decide +kernel⟩

theorem witness_BeatsAndTheGovernor_2 : ∃ (solo : List (Nat × Nat)) (s : State), s.now % 1000000 ≠ 0 :=
  ⟨[], w0, by decide +kernel⟩

theorem witness_BeatsAndTheGovernor_3 : ∃ (inp : BeatInput) (s : State), (s.pins.porLow = true ∨ s.pins.pwrGood = false) :=
  ⟨⟨[], 0, [], []⟩, { w0 with pins := { w0.pins with pwrGood := false } }, by decide +kernel⟩

theorem witness_BeatsAndTheGovernor_4 : ∃ (inp : BeatInput) (s : State), Powered s ∧ s.boot.stage ≠ 6 ∧ s.beat.setPending = none :=
  ⟨⟨[], 0, [], []⟩, wMail 5, by decide +kernel⟩

theorem witness_BeatsAndTheGovernor_5 : ∃ (inp : BeatInput) (s : State), Powered s ∧ s.boot.stage = 6 :=
  ⟨⟨[], 0, [], []⟩, w0, by decide +kernel⟩

theorem witness_BeatsAndTheGovernor_6 : ∃ (e : Nat) (s : State), levelOf s.pwr e < targetLevel s e :=
  ⟨1, { w0 with pwr := { w0.pwr with tripUntil := some 10001 } }, by decide +kernel⟩

theorem witness_BeatsAndTheGovernor_7 : ∃ (b d : Nat), d ≤ 8 :=
  ⟨1250, 8, by decide +kernel⟩

/-! ### LinksComeUpAndFall -/

theorem witness_LinksComeUpAndFall_1 : ∃ (port : Nat) (l : Link) (s : State), s.link port = some l ∧ (l.state = 1 ∨ l.state = 8) :=
  ⟨0, wLink 0 8, wPort (wLink 0 8), by decide +kernel⟩

theorem witness_LinksComeUpAndFall_2 : ∃ (port n w : Nat) (l : Link) (s : State), s.link port = some l ∧ l.state = 2 ∧ widthFor (min n (goodLanes
    l)) = some w :=
  ⟨0, 4, 4, wLink 0 2, wPort (wLink 0 2), by decide +kernel⟩

theorem witness_LinksComeUpAndFall_3 : ∃ (port n : Nat) (l : Link) (s : State), s.link port = some l ∧ l.state = 2 ∧ min n (goodLanes l) < 4 :=
  ⟨0, 3, wLink 0 2, wPort (wLink 0 2), by decide +kernel⟩

theorem witness_LinksComeUpAndFall_4 : ∃ (port : Nat) (l : Link) (s : State), s.link port = some l ∧ l.state = 1 ∧ planOf s port = none ∧ l.since
    + stageBound l < s.beat.elapsed :=
  ⟨0, wLink 0 1, wLate { wPort (wLink 0 1) with flash := { w0.flash with install := none } }, by decide +kernel⟩

theorem witness_LinksComeUpAndFall_5 : ∃ (port : Nat) (l : Link) (p : PlanLink) (s : State), s.link port = some l ∧ 1 ≤ l.state ∧ l.state ≤ 3 ∧
    planOf s port = some p ∧ l.since + stageBound l < s.beat.elapsed :=
  ⟨0, wLink 0 3, ⟨0, 1, 14, 1, none⟩, wLate (wPort (wLink 0 3)), by decide +kernel⟩

theorem witness_LinksComeUpAndFall_6 : ∃ (port : Nat) (r : IdentRec) (l : Link) (p : PlanLink) (s : State), s.link port = some l ∧ (l.state = 3 ∨
    l.state = 5) ∧ planOf s port = some p ∧ r.recordTag = recordTag s ∧ r.pkg = p.peerPkg ∧ r.port = p.peerPort :=
  ⟨0, ⟨recordTag w0, 1, 14, 1, 1⟩, wLink 0 5, ⟨0, 1, 14, 1, none⟩, wPort (wLink 0 5), by decide +kernel⟩

theorem witness_LinksComeUpAndFall_7 : ∃ (port : Nat) (r : IdentRec) (l : Link) (p : PlanLink) (s : State), s.link port = some l ∧ (l.state = 3 ∨
    l.state = 5) ∧ planOf s port = some p ∧ (r.recordTag ≠ recordTag s ∨ r.pkg ≠ p.peerPkg ∨ r.port ≠ p.peerPort) :=
  ⟨0, ⟨recordTag w0, 1, 13, 1, 1⟩, wLink 0 3, ⟨0, 1, 14, 1, none⟩, wPort (wLink 0 3), by decide +kernel⟩

theorem witness_LinksComeUpAndFall_8 : ∃ (port : Nat) (l : Link) (s : State), s.link port = some l ∧ (l.state = 3 ∨ l.state = 5) :=
  ⟨0, wLink 0 5, wPort (wLink 0 5), by decide +kernel⟩

theorem witness_LinksComeUpAndFall_9 : ∃ (port : Nat) (l : Link) (p : PlanLink) (s : State), s.link port = some l ∧ planOf s port = some p ∧
    l.state = 0 ∧ p.standby = none :=
  ⟨0, wLink 0 0, ⟨0, 1, 14, 1, none⟩, wPort (wLink 0 0), by decide +kernel⟩

theorem witness_LinksComeUpAndFall_10 : ∃ (port : Nat) (l : Link) (s : State), s.link port = some l ∧ l.state = 4 ∧ notItsStandby s port :=
  ⟨0, wLink 0 4, wPort (wLink 0 4),
    by refine ⟨by decide +kernel, by decide +kernel, fun r h => ?_⟩; obtain rfl : factoryInstall = r := Option.some.inj h; decide +kernel⟩

theorem witness_LinksComeUpAndFall_11 : ∃ (port : Nat) (l : Link) (s : State), s.link port = some l ∧ isLocal port = false ∧ l.state = 4 ∧
    notItsStandby s port :=
  ⟨16, wLink 16 4, wPort (wLink 16 4),
    by refine ⟨by decide +kernel, by decide +kernel, by decide +kernel, fun r h => ?_⟩; obtain rfl : factoryInstall = r := Option.some.inj h; decide +kernel⟩

theorem witness_LinksComeUpAndFall_12 : ∃ (pkg port : Nat) (s : State), pkg ≠ s.boot.pkg :=
  ⟨119, 16, w0, by decide +kernel⟩

theorem witness_LinksComeUpAndFall_13 : ∃ (pkg port : Nat) (s : State), pkg ≠ s.boot.pkg :=
  ⟨119, 23, w0, by decide +kernel⟩

theorem witness_LinksComeUpAndFall_14 : ∃ (b : Nat) (l : Link) (s : State), s.link l.port = some l ∧ l.state = 4 ∧ l.retrainAt = some b ∧
    beatLe b s.now = true ∧ (∀ x ∈ s.fab.links, x ≠ l → x.retrainAt = none) :=
  ⟨10000, { wLink 0 4 with retrainAt := some 10000 }, wPort { wLink 0 4 with retrainAt := some 10000 }, by decide +kernel⟩

/-! ### FabricHostCommands -/

theorem witness_FabricHostCommands_1 : ∃ (h : Hdr) (e : Session) (s : State), Served (.topoQuery h) h ⟨0x0501, 0, 0⟩ e s :=
  ⟨wHdr, wSess, w0, by decide +kernel⟩

theorem witness_FabricHostCommands_2 : ∃ (h : Hdr) (w : WinRef) (bs : List Byte) (e : Session) (s : State), Served (.planLoad h w true) h
    ⟨0x0502, roleOperate, featRoce⟩ e s ∧ windowBytes s e.principal w = some bs :=
  ⟨wHdr, wWin [1#8], [1#8], wSess, wPut [1#8] w0, by decide +kernel⟩

theorem witness_FabricHostCommands_3 : ∃ (h : Hdr) (w : WinRef) (bs : List Byte) (e : Session) (s : State), Served (.planLoad h w false) h
    ⟨0x0502, roleOperate, featRoce⟩ e s ∧ windowBytes s e.principal w = some bs :=
  ⟨wHdr, wWin [1#8], [1#8], wSess, wPut [1#8] w0, by decide +kernel⟩

theorem witness_FabricHostCommands_4 : ∃ (h : Hdr) (port : Nat) (l : Link) (e : Session) (s : State), Served (.linkCtlQuery h port) h
    ⟨0x0503, roleOperate, 0⟩ e s ∧ s.link port = some l :=
  ⟨wHdr, 23, wLink 23 4, wSess, wPort (wLink 23 4), by decide +kernel⟩

theorem witness_FabricHostCommands_5 : ∃ (h : Hdr) (port : Nat) (l : Link) (e : Session) (s : State), Served (.linkCtlDisable h port) h
    ⟨0x0503, roleOperate, 0⟩ e s ∧ s.link port = some l ∧ l.state ≠ 5 ∧ l.state ≠ 7 :=
  ⟨wHdr, 0, wLink 0 6, wSess, wPort (wLink 0 6), by decide +kernel⟩

theorem witness_FabricHostCommands_6 : ∃ (h : Hdr) (port : Nat) (l : Link) (e : Session) (s : State), Served (.linkCtlDisable h port) h
    ⟨0x0503, roleOperate, 0⟩ e s ∧ s.link port = some l ∧ (l.state = 5 ∨ l.state = 7) :=
  ⟨wHdr, 0, wLink 0 7, wSess, wPort (wLink 0 7), by decide +kernel⟩

theorem witness_FabricHostCommands_7 : ∃ (h : Hdr) (port : Nat) (l : Link) (p : PlanLink) (e : Session) (s : State), Served
    (.linkCtlEnable h port) h ⟨0x0503, roleOperate, 0⟩ e s ∧ s.link port = some l ∧ l.state = 6 ∧ planOf s port = some p :=
  ⟨wHdr, 0, wLink 0 6, ⟨0, 1, 14, 1, none⟩, wSess, wPort (wLink 0 6), by decide +kernel⟩

theorem witness_FabricHostCommands_8 : ∃ (h : Hdr) (port beat : Nat) (l : Link) (e : Session) (s : State), Served (.linkCtlRetrain h port
    beat) h ⟨0x0503, roleOperate, 0⟩ e s ∧ s.link port = some l ∧ l.state = 4 ∧ l.retrainReply = none ∧ beatLe beat s.now = false :=
  ⟨wHdr, 0, 10001, wLink 0 4, wSess, wPort (wLink 0 4), by decide +kernel⟩

/-! ### FindingsAndSuspicion -/

theorem witness_FindingsAndSuspicion_1 : ∃ (d l n w : Nat) (f : Finding) (k : ClassSt) (x : StnSt) (s : State), l < 5 ∧ stnOf s d l n =
    some x ∧ x.state < 2 ∧ findingWeight (classOf (.station d l n)) f = some (w, false) ∧ f ≠ .secdedUncorrectable ∧
    s.hlth.classes[classOf (.station d l n)]? = some k ∧ min 65535 (x.level + w) < k.inThreshold :=
  ⟨0, 0, 0, 16, .residue, ⟨40, 60000, 0, 0, 40, 60000⟩, { StnSt.zero 0 0 0 with level := 23 },
    { w0 with stns := { w0.stns with stns := [{ StnSt.zero 0 0 0 with level := 23 }] } }, by decide +kernel⟩

theorem witness_FindingsAndSuspicion_2 : ∃ (k : ClassSt) (s : State), s.hlth.classes[0]? = some k ∧ k.inLeak ≠ 0 ∧ s.now % (1000 *
    k.inLeak) = 0 :=
  ⟨⟨40, 60000, 0, 0, 40, 10⟩, { w0 with hlth := { w0.hlth with classes := [⟨40, 60000, 0, 0, 40, 10⟩] } }, by decide +kernel⟩

theorem witness_FindingsAndSuspicion_3 : ∃ (d l n w : Nat) (f : Finding) (k : ClassSt) (x : StnSt) (s : State), l < 5 ∧ stnOf s d l n =
    some x ∧ x.state < 2 ∧ findingWeight (classOf (.station d l n)) f = some (w, false) ∧ f ≠ .secdedUncorrectable ∧
    s.hlth.classes[classOf (.station d l n)]? = some k ∧ k.inThreshold ≤ min 65535 (x.level + w) ∧ unitMarked s (.station d l n) = false ∧
    s.hlth.suspicions = [] ∧ s.jobs.cmds = [] :=
  ⟨0, 0, 0, 16, .residue, ⟨40, 60000, 0, 0, 40, 60000⟩, { StnSt.zero 0 0 0 with level := 24 }, wStn
    { StnSt.zero 0 0 0 with level := 24 }, by decide +kernel⟩

theorem witness_FindingsAndSuspicion_4 : ∃ (d n name k micros : Nat) (rest : List HwUnit) (x : StnSt) (s : State), s.hlth.suspicions =
    .station d 0 n :: rest ∧ stnOf s d 0 n = some x ∧ x.names = [name] ∧ x.state = 2 ∧ spareFrond s d = some k :=
  ⟨0, 0, 7, 24, 5, [], { StnSt.zero 0 0 0 with state := 2, names := [7] },
    { w0 with stns := { w0.stns with stns := [{ StnSt.zero 0 0 0 with state := 2, names := [7] }, { StnSt.zero 0 0 24 with state := 1 }] }, hlth := { w0.hlth with suspicions := [.station 0 0 0] } },
    by decide +kernel⟩

theorem witness_FindingsAndSuspicion_5 : ∃ (u : HwUnit) (s : State), underTest s u = true ∧ u ∉ s.hlth.suspicions :=
  ⟨.pc 255, wTest (.pc 255), by decide +kernel⟩

theorem witness_FindingsAndSuspicion_6 : ∃ (u : HwUnit) (s : State), underTest s u = true ∧ u ∉ s.hlth.suspicions :=
  ⟨.lpch 31, wTest (.lpch 31), by decide +kernel⟩

theorem witness_FindingsAndSuspicion_7 : ∃ (d l n : Nat) (x : StnSt) (s : State), l ≠ 0 ∧ stnOf s d l n = some x ∧ x.state = 1 ∧ x.names
    = [] ∧ nameClaimed s (sourceCode d l n) = false :=
  ⟨0, 1, 0, { StnSt.zero 0 1 0 with state := 1 }, wStn { StnSt.zero 0 1 0 with state := 1 }, by decide +kernel⟩

/-! ### PairsChannelsAndShadows -/

theorem witness_PairsChannelsAndShadows_1 : ∃ (p : Nat) (x : UnitSt) (s : State), s.hlth.units.find? (fun e => e.unit = .pair p) = some x
    ∧ x.status < 2 ∧ unitMarked s (.pair p) = false ∧ s.boot.activation = none :=
  ⟨0, ⟨.pair 0, 0, 0, false⟩, w0, by decide +kernel⟩

theorem witness_PairsChannelsAndShadows_3 : ∃ ps : List Nat, 2 ∈ ps :=
  ⟨[3, 3, 2], by decide +kernel⟩

theorem witness_PairsChannelsAndShadows_4 : ∃ (channel : Nat) (c : Channel) (s : State), s.mem.pcs[channel]? = some c ∧ c.cstate = 1 :=
  ⟨0, ⟨1, 0, 0⟩, { w0 with mem := { w0.mem with pcs := [⟨1, 0, 0⟩] } }, by decide +kernel⟩

theorem witness_PairsChannelsAndShadows_5 : ∃ (counts : List Nat) (d : Nat) (s : State), d < 7 ∧ d < s.beat.shadowFix.length ∧ counts.getD
    d s.now ≠ s.now :=
  ⟨[10000, 10000, 10000, 10000, 10000, 10000, 10001], 6, w0, by decide +kernel⟩

theorem witness_PairsChannelsAndShadows_6 : ∃ (h : Hdr) (e : Session) (s : State), Served (.healthQuery h) h ⟨0x0701, 0, 0⟩ e s :=
  ⟨wHdr, wSess, w0, by decide +kernel⟩

/-! ### ResetsKeepWhatTheyShould -/

theorem witness_ResetsKeepWhatTheyShould_2 : ∃ (us : Nat) (s : State), us < 1000 :=
  ⟨999, w0, by decide +kernel⟩

theorem witness_ResetsKeepWhatTheyShould_3 : ∃ (us : Nat) (s : State), 1000 ≤ us :=
  ⟨1000, w0, by decide +kernel⟩

theorem witness_ResetsKeepWhatTheyShould_5 : ∃ s : State, Powered s ∧ 4 ≤ s.boot.stage ∧ s.boot.stage ≤ 6 ∧ s.beat.clkHold = false :=
  ⟨wMail 4, by decide +kernel⟩

theorem witness_ResetsKeepWhatTheyShould_6 : ∃ (h : Hdr) (e : Session) (s : State), Served (.resetWarm h) h ⟨0x0A05, roleOperate, 0⟩ e s ∧
    Powered s :=
  ⟨wHdr, wSess, w0, by decide +kernel⟩

theorem witness_ResetsKeepWhatTheyShould_7 : ∃ s : State, s.boot.stage = 9 :=
  ⟨wMail 9, by decide +kernel⟩

theorem witness_ResetsKeepWhatTheyShould_8 : ∃ s : State, s.boot.stage ≠ 9 :=
  ⟨wMail 8, by decide +kernel⟩

/-! ### BootStagesFollow -/

theorem witness_BootStagesFollow_1 : ∃ (inp : StageInput) (s : State), Powered s ∧ inp.result = .ok ∧ s.boot.stage = 1 :=
  ⟨⟨.ok, false, [], true, 2, 40000⟩, { State.reset with pins := { State.reset.pins with porLow := false } }, by decide +kernel⟩

theorem witness_BootStagesFollow_2 : ∃ (inp : StageInput) (s : State), Powered s ∧ inp.result = .ok ∧ s.boot.stage = 5 :=
  ⟨⟨.ok, false, [], true, 2, 40000⟩, { w0 with boot := { w0.boot with stage := 5 } }, by decide +kernel⟩

theorem witness_BootStagesFollow_3 : ∃ (inp : StageInput) (code : Nat) (s : State), Powered s ∧ inp.result = .failed code ∧ code ≠ 0 ∧
    failedStage code = s.boot.stage ∧ s.boot.stage ≠ 4 :=
  ⟨⟨.failed 1, false, [], true, 2, 40000⟩, 1, { State.reset with pins := { State.reset.pins with porLow := false } }, by decide +kernel⟩

theorem witness_BootStagesFollow_4 : ∃ (inp : StageInput) (code : Nat) (s : State), Powered s ∧ inp.result = .failed code ∧ (code = 8 ∨
    code = 9) ∧ s.boot.stage = 4 :=
  ⟨⟨.failed 9, false, [], true, 2, 40000⟩, 9, { w0 with boot := { w0.boot with stage := 4 } }, by decide +kernel⟩

/-! ### MailboxAndIdentity -/

theorem witness_MailboxAndIdentity_1 : ∃ (port : Nat) (cak ckn : List Byte) (s : State), mailboxAnswers s = true ∧ port < 2 ∧ macsecOn s port
    = true :=
  ⟨1, [1#8], [2#8], { w0 with flash := { w0.flash with install := some { factoryInstall with macsec := [false, true] } } },
    by decide +kernel⟩

theorem witness_MailboxAndIdentity_2 : ∃ (port : Nat) (cak ckn : List Byte) (s : State), mailboxAnswers s = true ∧ (2 ≤ port ∨ macsecOn s
    port = false) :=
  ⟨2, [1#8], [2#8], w0, by decide +kernel⟩

theorem witness_MailboxAndIdentity_3 : ∃ s : State, mailboxAnswers s = true ∧ 4 ≤ s.boot.stage ∧ s.boot.stage ≤ 6 :=
  ⟨wMail 4, by decide +kernel⟩

theorem witness_MailboxAndIdentity_4 : ∃ (offset : Nat) (data : List Byte) (s : State), mailboxAnswers s = true ∧ s.boot.stage = 7 ∧
    data.length ≤ 56 ∧ offset + data.length ≤ 1048576 :=
  ⟨1048520, List.replicate 56 1#8, wMail 7, by decide +kernel⟩

theorem witness_MailboxAndIdentity_5 : ∃ (offset : Nat) (data : List Byte) (s : State), mailboxAnswers s = true ∧ s.boot.stage ≠ 7 :=
  ⟨0, [1#8], wMail 6, by decide +kernel⟩

theorem witness_MailboxAndIdentity_6 : ∃ (total : Nat) (s : State), mailboxAnswers s = true ∧ s.boot.stage = 7 ∧ total =
    s.boot.installBuf.length :=
  ⟨2, wMail 7, by decide +kernel⟩

theorem witness_MailboxAndIdentity_7 : ∃ (total : Nat) (s : State), mailboxAnswers s = true :=
  ⟨2, wMail 7, by decide +kernel⟩

theorem witness_MailboxAndIdentity_8 : ∃ (h : Hdr) (m : List Byte) (e : Session) (s : State), Served (.attest h m) h ⟨0x0A03, 0, 0⟩ e s
    :=
  ⟨wHdr, [1#8], wSess, w0, by decide +kernel⟩

theorem witness_MailboxAndIdentity_9 : ∃ (h : Hdr) (o n : Nat) (e : Session) (s : State), Served (.certRead h 0 o n) h ⟨0x0A04, 0, 0⟩ e s
    ∧ 1 ≤ n ∧ n ≤ 4096 :=
  ⟨wHdr, 0, 4096, wSess, w0, by decide +kernel⟩

theorem witness_MailboxAndIdentity_10 : ∃ (h : Hdr) (slot o n : Nat) (e : Session) (s : State), Served (.certRead h slot o n) h ⟨0x0A04,
    0, 0⟩ e s ∧ slot ≠ 0 :=
  ⟨wHdr, 1, 0, 4096, wSess, w0, by decide +kernel⟩

theorem witness_MailboxAndIdentity_12 : ∃ (op : JtagOp) (s : State), s.pins.porLow = false ∧ (op = .extest ∨ op = .clamp ∨ op = .highz) :=
  ⟨.highz, w0, by decide +kernel⟩

theorem witness_MailboxAndIdentity_13 : ∃ (h : Hdr) (cs : List Nat) (e : Session) (s : State), Served (.resetStations h cs) h ⟨0x0A05,
    roleOperate, 0⟩ e s ∧ (∀ c ∈ cs, ctxRefusal s e.principal c = none) :=
  ⟨wHdr, [1], wSess, w0, by decide +kernel⟩

/-! ### FirmwareUpdate -/

theorem witness_FirmwareUpdate_1 : ∃ (h : Hdr) (w : WinRef) (bs : List Byte) (e : Session) (s : State), Served (.fwStage h w true) h
    ⟨0x0A01, roleOperate, featRoce⟩ e s ∧ windowBytes s e.principal w = some bs ∧ fwRefusal s bs true (tbit h.cflags 0) = none ∧ hKind bs
    = 2 :=
  ⟨wHdr, wWin wFw, wFw, wSess, wPut wFw w0, by decide +kernel⟩

theorem witness_FirmwareUpdate_2 : ∃ (h : Hdr) (w : WinRef) (bs : List Byte) (e : Session) (s : State), Served (.fwStage h w false) h
    ⟨0x0A01, roleOperate, featRoce⟩ e s ∧ windowBytes s e.principal w = some bs ∧ (hKind bs = 1 ∨ hKind bs = 2) :=
  ⟨wHdr, wWin (wFwHead []), wFwHead [], wSess, wPut (wFwHead []) w0, by decide +kernel⟩

theorem witness_FirmwareUpdate_3 : ∃ (h : Hdr) (beat : Nat) (e : Session) (s : State), Served (.fwActivate h beat) h ⟨0x0A02, roleOperate,
    0⟩ e s ∧ s.flash.staged = true ∧ 2 ∈ s.hlth.pairs ∧ beatBefore beat (beatAdd s.now 100000) = false ∧ s.boot.activation = none ∧
    s.sori.sori = [] :=
  ⟨wHdr, 110000, wSess, { w0 with flash := { w0.flash with staged := true } }, by decide +kernel⟩

theorem witness_FirmwareUpdate_4 : ∃ (h : Hdr) (beat : Nat) (e : Session) (s : State), Served (.fwActivate h beat) h ⟨0x0A02, roleOperate,
    0⟩ e s ∧ s.flash.staged = false :=
  ⟨wHdr, 110000, wSess, w0, by decide +kernel⟩

theorem witness_FirmwareUpdate_5 : ∃ (pauseNs k : Nat) (a : Activation) (s : State), s.boot.activation = some a ∧ beatBefore s.now a.beat
    = false ∧ s.hlth.pairs.findIdx? (fun r => r = 2) = some k :=
  ⟨1000, 2, ⟨10000, 1, 77⟩, { w0 with boot := { w0.boot with activation := some ⟨10000, 1, 77⟩ } }, by decide +kernel⟩

theorem witness_FirmwareUpdate_6 : ∃ (p : Nat) (s : State), p ∈ s.boot.reloading :=
  ⟨1, { w0 with boot := { w0.boot with reloading := [1] } }, by decide +kernel⟩

/-! ### ModelsComeAndGo -/

theorem witness_ModelsComeAndGo_1 : ∃ (h : Hdr) (w : WinRef) (bs : List Byte) (m : Manifest) (ps : List PlacedTensor) (e :
    Session) (s s' : State), Served (.modelDeclare h w 0 true) h ⟨0x0101, roleModels, featRoce⟩ e s ∧ windowBytes s e.principal w = some
    bs ∧ readManifest s true bs = .ok m ∧ m.kind = 0 ∧ s.model m.modelId = none ∧ placeWaits s m = false ∧ s.models.models.length +
    waitingModels s < 8 ∧ placeAll (ownerFor s m) (placeOrder s m) true s = .done ps s' :=
  ⟨wHdr, wWin wDecl, wDecl, wDeclM, (gotPlaced (placeAll (ownerFor wDeclS wDeclM) (placeOrder wDeclS wDeclM) true wDeclS)).1, wSess,
    wDeclS, (gotPlaced (placeAll (ownerFor wDeclS wDeclM) (placeOrder wDeclS wDeclM) true wDeclS)).2, by decide +kernel⟩

theorem witness_ModelsComeAndGo_2 : ∃ (h : Hdr) (id : Nat) (m : Model) (e : Session) (s : State), Served (.modelWithdraw h id) h
    ⟨0x0101, roleModels, 0⟩ e s ∧ s.model id = some m ∧ (m.state ≠ 3 ∨ modelInUse s id = false) :=
  ⟨wHdr, 5, wModel 3, wSess, wM (wModel 3), by decide +kernel⟩

theorem witness_ModelsComeAndGo_3 : ∃ (h : Hdr) (id : Nat) (m : Model) (e : Session) (s : State), Served (.modelWithdraw h id) h
    ⟨0x0101, roleModels, 0⟩ e s ∧ s.model id = some m ∧ m.state = 3 ∧ modelInUse s id = true :=
  ⟨wHdr, 5, wModel 3, wSess, wR (wReq 3), by decide +kernel⟩

theorem witness_ModelsComeAndGo_4 : ∃ (h : Hdr) (id kCand : Nat) (m : Model) (e : Session) (s : State), Served (.modelActivate h id kCand
    0) h ⟨0x0104, roleModels, 0⟩ e s ∧ (kCand = 0 ∨ 16 ≤ kCand ∧ kCand ≤ 4096) ∧ s.model id = some m ∧ m.state = 2 ∧
    m.manifest.holders.length ≤ 1 ∧ largestPool s m.manifest ≠ 0 :=
  ⟨wHdr, 5, 16, wModel 2, wSess, wM (wModel 2), by decide +kernel⟩

theorem witness_ModelsComeAndGo_5 : ∃ (h : Hdr) (id kCand n p sid k : Nat) (g : Region) (m : Model) (s : State), s.model id = some m ∧
    m.state = 2 ∧ n ≠ 0 ∧ reservedRegion s sid k = some g ∧ (∀ r ∈ s.mem.regions, r.owner ≠ .kvPool id) :=
  ⟨wHdr, 5, 0, 1, 0, 3, 0, ⟨0, 0x900000, 0x100000, .reserved 3 0, none⟩, wModel 2,
    { wM (wModel 2) with mem := { w0.mem with regions := [⟨0, 0x900000, 0x100000, .reserved 3 0, none⟩] } }, by decide +kernel⟩

/-! ### ShardsArrive -/

theorem witness_ShardsArrive_1 : ∃ (h : Hdr) (id k window offset : Nat) (slot : Option Nat) (set : ShardSet) (st : ShardSt) (x : Shard)
    (bs : List Byte) (e : Session) (s : State), Served (.shardPush h id k window offset) h ⟨0x0102, roleModels, featRoce⟩ e s ∧ pushTarget
    s id k = some slot ∧ shardSet s id slot = some set ∧ set.shards.find? (fun x => x.index = k) = some st ∧ set.manifest.shards[k]? =
    some x ∧ st.state = 0 ∧ windowBytes s e.principal ⟨window, offset, x.bytes⟩ = some bs :=
  ⟨wHdr, 5, 0, 6, 0x1FFFFE, none, wSet { wShard0 with digest := [] } 0, ⟨0, 0, 1, 0, 0, 9000⟩, { wShard0 with digest := [] }, [0#8,
    0#8], wSess, wM (wLoading { wShard0 with digest := [] } 0), by decide +kernel⟩

theorem witness_ShardsArrive_2 : ∃ (h : Hdr) (id first count : Nat) (m : Model) (e : Session) (s : State), Served (.shardStatus h id first
    count) h ⟨0x0103, roleModels, 0⟩ e s ∧ 1 ≤ count ∧ count ≤ 256 ∧ s.model id = some m ∧ m.state ≤ 2 :=
  ⟨wHdr, 5, 0, 256, wModel 2, wSess, wM (wModel 2), by decide +kernel⟩

theorem witness_ShardsArrive_3 : ∃ (p : Push) (rest : List Push) (set : ShardSet) (st : ShardSt) (x : Shard) (y : Tensor) (images : List
    (Nat × List Byte)) (s : State), s.models.converter = p :: rest ∧ shardSet s p.modelId p.slot = some set ∧ set.shards.find? (fun x =>
    x.index = p.shard) = some st ∧ set.manifest.shards[p.shard]? = some x ∧ st.state = 0 ∧ set.manifest.tensors.find? (fun y => y.id =
    x.tensor) = some y ∧ convertShard y x p.bytes = .ok images := ⟨⟨5, none, 0, [1#8, 2#8]⟩, [], wSet wShardOk 0, ⟨0, 0, 1, 0, 0, 9000⟩, wShardOk, wSmallT, shardImages wSmallT wShard0 [1#8, 2#8],
    wQueueS wShardOk, rfl, rfl, rfl, rfl, rfl, rfl, wShard_converts⟩

theorem witness_ShardsArrive_4 : ∃ (p : Push) (rest : List Push) (set : ShardSet) (st : ShardSt) (x : Shard) (y : Tensor) (c : Nat) (s :
    State), s.models.converter = p :: rest ∧ shardSet s p.modelId p.slot = some set ∧ set.shards.find? (fun x => x.index = p.shard) = some
    st ∧ set.manifest.shards[p.shard]? = some x ∧ st.state = 0 ∧ set.manifest.tensors.find? (fun y => y.id = x.tensor) = some y ∧
    convertShard y x p.bytes = .error c :=
  ⟨⟨5, none, 0, [1#8, 2#8]⟩, [], wSet { wShard0 with digest := [] } 0, ⟨0, 0, 1, 0, 0, 9000⟩, { wShard0 with digest := [] }, wSmallT, 1,
    wQueueS { wShard0 with digest := [] }, rfl, rfl, rfl, rfl, rfl, rfl, wShard_refused⟩

theorem witness_ShardsArrive_5 : ∃ (id k : Nat) (slot : Option Nat) (s : State), pushTarget s id k = some slot ∧ queuedShard s id slot k =
    false ∧ attemptOver s id slot k = true :=
  ⟨5, 0, none, { wM (wLoading wShard 0) with beat := { w0.beat with elapsed := 1000000000000 } }, by decide +kernel⟩

theorem witness_ShardsArrive_6 : ∃ (id k : Nat) (images : List Byte) (slot : Option Nat) (set : ShardSet) (st : ShardSt) (x : Shard) (y :
    Tensor) (s : State), pushTarget s id k = some slot ∧ shardSet s id slot = some set ∧ set.shards.find? (fun x => x.index = k) = some st
    ∧ set.manifest.shards[k]? = some x ∧ st.state = 0 ∧ st.asked = 0xFFFFFFFF ∧ set.manifest.tensors.find? (fun y => y.id = x.tensor) =
    some y :=
  ⟨5, 0, [], none, wSet wShard 0xFFFFFFFF, ⟨0, 0, 1, 0, 0xFFFFFFFF, 9000⟩, wShard, wSmallT, wM (wLoading wShard 0xFFFFFFFF),
    by decide +kernel⟩

theorem witness_ShardsArrive_7 : ∃ (id k cause : Nat) (m : Model) (st : ShardSt) (x : Shard) (s : State), s.model id = some m ∧
    m.shards.find? (fun y => y.index = k) = some st ∧ m.manifest.shards[k]? = some x ∧ st.state = 0 :=
  ⟨5, 0, 3, { wModel 1 with shards := [⟨0, 0, 4, 0, 0, 9000⟩] }, ⟨0, 0, 4, 0, 0, 9000⟩, wShard, wM
    { wModel 1 with shards := [⟨0, 0, 4, 0, 0, 9000⟩] }, by decide +kernel⟩

/-! ### EpochsPublishRetireFree -/

theorem witness_EpochsPublishRetireFree_1 : ∃ (h : Hdr) (id epoch table : Nat) (e : Session) (s : State), Served (.epochPublish h id epoch
    table) h ⟨0x0105, roleModels, featLearn⟩ e s ∧ (s.handle table).isSome = true ∧ handleDenied s e.principal table = false ∧
    (publishPrep id epoch table (2 ^ 32 + s.fresh) 0 { s with fresh := s.fresh + 1 }).2 = none :=
  ⟨wHdr, 5, 2, 4, wSess,
    { wPut (leBytes 8 1 ++ leBytes 8 0x500000 ++ leBytes 48 0) (wM (wModel 3)) with models := ⟨[wModel 3], [], [(0x500000, 18432, List.replicate 48 0#8)]⟩ },
    by decide +kernel⟩

theorem witness_EpochsPublishRetireFree_2 : ∃ (h : Hdr) (id epoch table p sid k : Nat) (m : Model) (ps : List Pointer) (s : State),
    s.model id = some m ∧ m.state = 3 ∧ (∀ e ∈ m.usedEpochs, e < epoch) ∧ newTable s m table = some ps ∧ (∀ x ∈ m.epochs, x.id ≠ epoch) :=
  ⟨wHdr, 5, 2, 4, 0, 0, 0, wModel 3, [⟨1, 0x400000, List.replicate 48 0#8⟩], wPut (leBytes 8 1 ++ leBytes 8 0x400000 ++ leBytes 48 0)
    (wM (wModel 3)), by decide +kernel⟩

theorem witness_EpochsPublishRetireFree_3 : ∃ (h : Hdr) (id epoch : Nat) (m : Model) (x : Epoch) (e : Session) (s : State), Served
    (.epochRetire h id epoch) h ⟨0x0106, roleModels, featLearn⟩ e s ∧ s.model id = some m ∧ m.state = 3 ∧ epoch ∈ m.usedEpochs ∧ m.follow
    ≠ epoch ∧ m.epochs.find? (fun x => x.id = epoch) = some x ∧ x.held = true :=
  ⟨wHdr, 5, 1, { wModel 3 with follow := 2 }, ⟨1, true, [⟨1, 0x400000, []⟩]⟩, wSess, wM { wModel 3 with follow := 2 },
    by decide +kernel⟩

theorem witness_EpochsPublishRetireFree_4 : ∃ (h : Hdr) (id epoch : Nat) (m : Model) (e : Session) (s : State), Served (.epochRetire h id
    epoch) h ⟨0x0106, roleModels, featLearn⟩ e s ∧ s.model id = some m ∧ m.state = 3 ∧ epoch ∈ m.usedEpochs ∧ m.follow = epoch :=
  ⟨wHdr, 5, 1, wModel 3, wSess, wM (wModel 3), by decide +kernel⟩

theorem witness_EpochsPublishRetireFree_5 : ∃ (h : Hdr) (id epoch p sid k : Nat) (m : Model) (x : Epoch) (s : State), s.model id = some m
    ∧ m.state = 3 ∧ epoch ∈ m.usedEpochs ∧ m.follow ≠ epoch ∧ m.epochs.find? (fun x => x.id = epoch) = some x ∧ x.held = true :=
  ⟨wHdr, 5, 1, 0, 0, 0, { wModel 3 with follow := 2, epochs := [⟨1, true, [⟨1, 0x400000, []⟩]⟩] }, ⟨1, true, [⟨1, 0x400000, []⟩]⟩, wM
    { wModel 3 with follow := 2, epochs := [⟨1, true, [⟨1, 0x400000, []⟩]⟩] }, by decide +kernel⟩

theorem witness_EpochsPublishRetireFree_6 : ∃ (id epoch : Nat) (m : Model) (x : Epoch) (s : State), s.model id = some m ∧ m.epochs.find?
    (fun x => x.id = epoch) = some x ∧ epochLive s m x = false :=
  ⟨5, 1, { wModel 3 with follow := 2, epochs := [⟨1, false, [⟨1, 0x400000, []⟩]⟩] }, ⟨1, false, [⟨1, 0x400000, []⟩]⟩, wM
    { wModel 3 with follow := 2, epochs := [⟨1, false, [⟨1, 0x400000, []⟩]⟩] }, by decide +kernel⟩

theorem witness_EpochsPublishRetireFree_7 : ∃ (id epoch : Nat) (m : Model) (s : State), s.model id = some m ∧ epoch ∈ spoiltEpochs m :=
  ⟨5, 1, { wModel 3 with placed := [{ wPlaced with learned := true, base := 0x400000 }], suspects := [0x400000] }, wM
    { wModel 3 with placed := [{ wPlaced with learned := true, base := 0x400000 }], suspects := [0x400000] }, by decide +kernel⟩

/-! ### AdaptersAndScrubbing -/

theorem witness_AdaptersAndScrubbing_1 : ∃ (h : Hdr) (id slot : Nat) (w : WinRef) (bs : List Byte) (m : Manifest) (ps : List PlacedTensor)
    (e : Session) (s s' : State), Served (.adapterLoad h id slot w 0 true) h ⟨0x0107, roleModels, featRoce⟩ e s ∧ slot ≤ 63 ∧ modelCode s
    id = 0x33 ∧ ((s.model id).bind fun m => m.slotOf slot) = none ∧ windowBytes s e.principal w = some bs ∧ readManifest s true bs = .ok m
    ∧ m.kind = 1 ∧ m.modelId = id ∧ m.slot = slot ∧ placeWaits s m = false ∧ placeAll (ownerFor s m) (placeOrder s m) true s = .done ps s'
    ∧ s'.models = s.models :=
  ⟨wHdr, 5, 3, wWin (wManBytes 1 3 0 2 0), wManBytes 1 3 0 2 0, gotManifest (readManifest w0 true (wManBytes 1 3 0 2 0)), [], wSess,
    wPut (wManBytes 1 3 0 2 0) (wM (wModel 3)), wPut (wManBytes 1 3 0 2 0) (wM (wModel 3)), by decide +kernel⟩

theorem witness_AdaptersAndScrubbing_2 : ∃ (h : Hdr) (id slot : Nat) (e : Session) (s : State), Served (.adapterReplace h id slot) h
    ⟨0x0108, roleModels, 0⟩ e s ∧ slot ≤ 63 ∧ replaceRefusal { s with fresh := s.fresh + 1 } id slot = none :=
  ⟨wHdr, 5, 3, wSess, wM (wSlotM false false []), by decide +kernel⟩

theorem witness_AdaptersAndScrubbing_3 : ∃ (h : Hdr) (id slot : Nat) (e : Session) (s : State), Served (.adapterUnload h id slot) h
    ⟨0x0109, roleModels, 0⟩ e s ∧ slot ≤ 63 ∧ unloadRefusal { s with fresh := s.fresh + 1 } id slot = none :=
  ⟨wHdr, 5, 3, wSess, wM (wSlotM true true []), by decide +kernel⟩

theorem witness_AdaptersAndScrubbing_4 : ∃ (h : Hdr) (id slot p sid k : Nat) (v : AdapterVer) (s : State), replaceRefusal s id slot = none
    ∧ verifiedStaged s id slot = some v :=
  ⟨wHdr, 5, 3, 0, 0, 0, wVer false false [], wM (wSlotM false false []), by decide +kernel⟩

theorem witness_AdaptersAndScrubbing_5 : ∃ (h : Hdr) (id slot p sid k : Nat) (s : State), unloadRefusal s id slot = none :=
  ⟨wHdr, 5, 3, 0, 0, 0, wM (wSlotM true true []), by decide +kernel⟩

theorem witness_AdaptersAndScrubbing_6 : ∃ (id slot : Nat) (m : Model) (a : AdapterSlot) (v : AdapterVer) (s : State), s.model id = some m
    ∧ m.slotOf slot = some a ∧ a.versions = [v] ∧ v.live = false ∧ (∀ x ∈ v.shards, x.state = 1) :=
  ⟨5, 3, wSlotM false false [], ⟨3, 1, false, [wVer false false []]⟩, wVer false false [], wM (wSlotM false false []),
    by decide +kernel⟩

theorem witness_AdaptersAndScrubbing_7 : ∃ (h : Hdr) (p : VariantP) (bs : List Byte) (m : Model) (e : Session) (s : State), Served
    (.variantDefine h p) h ⟨0x010A, roleModels, featRoce⟩ e s ∧ tbit h.cflags 0 = false ∧ 1 ≤ p.variant ∧ p.variant ≤ 65535 ∧ s.model
    p.modelId = some m ∧ m.state ≠ 4 ∧ (∀ r ∈ s.serve.reqs, r.p.modelId ≠ p.modelId) ∧ windowBytes s e.principal ⟨p.window, p.offset, 4 *
    p.entries⟩ = some bs ∧ variantOk m p.variant (variantEntries bs) = true :=
  ⟨wHdr, ⟨5, 65535, 1, 6, 0, 0⟩, [], wModel 3, wSess, wM (wModel 3), by decide +kernel⟩

theorem witness_AdaptersAndScrubbing_10 : ∃ (a : Nat) (m : Model) (s : State), s.models.models.find? (fun m => namesRegion m a) = some m ∧
    s.model m.id = some m ∧ a ∉ m.suspects :=
  ⟨0x400000, wModel 3, wM (wModel 3), by decide +kernel⟩

theorem witness_AdaptersAndScrubbing_11 : ∃ (id b : Nat) (m : Model) (s : State), s.model id = some m ∧ m.verifying = true ∧ m.state = 1 ∧
    m.epochs ≠ [] ∧ m.suspects = [] ∧ (∀ g ∈ s.mem.regions, g.owner ≠ .kvPool id) ∧ roomFor s 0 none (m.pageSets * setBytes
    m.manifest.layers) = some b :=
  ⟨5, (roomFor (wM { wModel 1 with verifying := true }) 0 none (1000 * setBytes [wLayer])).getD 0, { wModel 1 with verifying := true },
    wM { wModel 1 with verifying := true }, by decide +kernel⟩

/-! ### RequestCommands -/

theorem witness_RequestCommands_1 : ∃ (h : Hdr) (p : SubmitP) (e : Session) (s : State), subInWindow p = false ∧ Served
    (.reqSubmit h p) h ⟨0x0201, roleServe, 0 + if subSpeculates p then featSpeculate else 0⟩ e s ∧ submitBad p = false ∧ p.tokens.length =
    p.promptLen :=
  ⟨wHdr, wSubmit, wSess, w0, by decide +kernel⟩

theorem witness_RequestCommands_2 : ∃ (h : Hdr) (p : SubmitP) (bs : List Byte) (e : Session) (s : State), subInWindow p =
    true ∧ Served (.reqSubmit h (withPrompt s e.principal p)) h ⟨0x0201, roleServe, featRoce + if subSpeculates p then featSpeculate else
    0⟩ e s ∧ submitBad p = false ∧ windowBytes s e.principal ⟨p.window, p.windowOffset, 4 * p.promptLen⟩ = some bs ∧ ((chunks 4 bs).map
    leNat).length = p.promptLen :=
  ⟨wHdr, { wSubmit with flags := 8, window := 6, tokens := [] }, leBytes 4 0, wSess, w0, by decide +kernel⟩

theorem witness_RequestCommands_3 : ∃ (h : Hdr) (id : Nat) (r : Req) (e : Session) (s : State), Served (.reqCancel h id) h
    ⟨0x0202, roleServe, 0⟩ e s ∧ s.req id = some r ∧ r.principal = e.principal :=
  ⟨wHdr, 1, wReq 3, wSess, wR (wReq 3), by decide +kernel⟩

theorem witness_RequestCommands_4 : ∃ (h : Hdr) (id : Nat) (r : Req) (e : Session) (s : State), Served (.reqPause h id) h
    ⟨0x0203, roleServe, 0⟩ e s ∧ s.req id = some r ∧ r.principal = e.principal :=
  ⟨wHdr, 1, wReq 3, wSess, wR (wReq 3), by decide +kernel⟩

theorem witness_RequestCommands_5 : ∃ (h : Hdr) (id : Nat) (r : Req) (e : Session) (s : State), Served (.reqResume h id) h
    ⟨0x0204, roleServe, 0⟩ e s ∧ s.req id = some r ∧ r.principal = e.principal :=
  ⟨wHdr, 1, wReq 5, wSess, wR (wReq 5), by decide +kernel⟩

theorem witness_RequestCommands_6 : ∃ (h : Hdr) (id : Nat) (r : Req) (e : Session) (s : State), Served (.reqQuery h id) h
    ⟨0x0205, roleServe, 0⟩ e s ∧ s.req id = some r ∧ r.principal = e.principal :=
  ⟨wHdr, 1, wReq 3, wSess, wR (wReq 3), by decide +kernel⟩

theorem witness_RequestCommands_7 : ∃ (h : Hdr) (id : Nat) (r : Req) (e : Session) (s : State), Served (.reqQuery h id) h
    ⟨0x0205, roleServe, 0⟩ e s ∧ s.req id = some r ∧ r.principal ≠ e.principal :=
  ⟨wHdr, 1, { wReq 3 with principal := 8 }, wSess, wR { wReq 3 with principal := 8 }, by decide +kernel⟩

theorem witness_RequestCommands_8 : ∃ (id : Nat) (r : Req) (s : State), s.req id = some r ∧ finalState r.state = true :=
  ⟨1, wReq 0x10, wR (wReq 0x10), by decide +kernel⟩

/-! ### RequestsChange -/

theorem witness_RequestsChange_1 : ∃ (h : Hdr) (p : SubmitP) (e : Session) (s : State), s.session h.session = some e ∧
    submitRefusal s p = none ∧ (∀ r ∈ s.serve.reqs, r.id ≠ s.serve.nextReq) :=
  ⟨wHdr, { wSubmit with flags := 16 }, wSess, wM (wModel 3), by decide +kernel⟩

theorem witness_RequestsChange_2 : ∃ (h : Hdr) (id : Nat) (r : Req) (s : State), s.req id = some r ∧ finalState r.state = false
    :=
  ⟨wHdr, 1, wReq 3, wR (wReq 3), by decide +kernel⟩

theorem witness_RequestsChange_3 : ∃ (h : Hdr) (id : Nat) (r : Req) (s : State), s.req id = some r ∧ finalState r.state = true ∧
    r.state ≠ 0x10 :=
  ⟨wHdr, 1, wReq 0x11, wR (wReq 0x11), by decide +kernel⟩

theorem witness_RequestsChange_4 : ∃ (h : Hdr) (id : Nat) (r : Req) (s : State), s.req id = some r ∧ finalState r.state = false
    ∧ r.state ≠ 5 ∧ r.pausePending = false ∧ (r.state = 1 ∨ inStep s id = false) :=
  ⟨wHdr, 1, wReq 3, wR (wReq 3), by decide +kernel⟩

theorem witness_RequestsChange_5 : ∃ (h : Hdr) (id : Nat) (r : Req) (s : State), s.req id = some r ∧ finalState r.state = false
    ∧ r.state ≠ 5 ∧ r.state ≠ 1 ∧ r.pausePending = false ∧ inStep s id = true :=
  ⟨wHdr, 1, wReq 3,
    { wR (wReq 3) with jobs := { w0.jobs with cmds := [{ wOver with kind := .step, launch := { wLaunch with plan := [⟨1, 1, true, []⟩] } }] } },
    by decide +kernel⟩

theorem witness_RequestsChange_6 : ∃ (h : Hdr) (id : Nat) (r : Req) (s : State), s.req id = some r ∧ r.state = 5 ∧ r.resumeTo =
    none ∧ r.pages = [] ∧ 0 < r.fill + r.delivered :=
  ⟨wHdr, 1, { wReq 5 with fill := 1 }, wR { wReq 5 with fill := 1 }, by decide +kernel⟩

theorem witness_RequestsChange_7 : ∃ (h : Hdr) (id : Nat) (r : Req) (s : State), s.req id = some r ∧ r.state = 5 ∧ r.resumeTo =
    none ∧ r.pages ≠ [] ∧ (∀ e ∈ r.pages, e.tier ≠ 2) :=
  ⟨wHdr, 1, { wReq 5 with pages := [⟨0, 1, false, 2⟩] }, wR { wReq 5 with pages := [⟨0, 1, false, 2⟩] }, by decide +kernel⟩

theorem witness_RequestsChange_8 : ∃ (h : Hdr) (id : Nat) (r : Req) (s : State), s.req id = some r :=
  ⟨wHdr, 1, wReq 3, wR (wReq 3), by decide +kernel⟩

theorem witness_RequestsChange_9 : ∃ (id : Nat) (r : Req) (s : State), s.req id = some r ∧ deadlineDue s r = true ∧ finalState r.state =
    false :=
  ⟨1, { wReq 3 with p := { wSubmit with deadline := 10000 } }, wR { wReq 3 with p := { wSubmit with deadline := 10000 } },
    by decide +kernel⟩

theorem witness_RequestsChange_10 : ∃ (id : Nat) (r : Req) (s : State), s.req id = some r ∧ ttlDue s r = true ∧ r.resumeTo = none :=
  ⟨1, wReq 5, { wR (wReq 5) with beat := { w0.beat with elapsed := 1000000000000 } }, by decide +kernel⟩

theorem witness_RequestsChange_11 : ∃ (id : Nat) (r : Req) (s : State), s.req id = some r ∧ holdDue s r = true :=
  ⟨1, wReq 5, { wR (wReq 5) with beat := { w0.beat with elapsed := 1000000000000 } }, by decide +kernel⟩

theorem witness_RequestsChange_12 : ∃ (id : Nat) (r : Req) (s : State), s.req id = some r ∧ finalState r.state = true ∧ r.finalAt + 60000000
    ≤ s.beat.elapsed :=
  ⟨1, wReq 0x10, wLate (wR (wReq 0x10)), by decide +kernel⟩

theorem witness_RequestsChange_13 : ∃ (id : Nat) (r : Req) (s : State), s.req id = some r ∧ finalState r.state = false :=
  ⟨1, wReq 5, wR (wReq 5), by decide +kernel⟩

theorem witness_RequestsChange_14 : ∃ (id : Nat) (r : Req) (s : State), s.req id = some r ∧ r.state = 5 ∧ r.resumeTo = none :=
  ⟨1, wReq 5, wR (wReq 5), by decide +kernel⟩

theorem witness_RequestsChange_15 : ∃ (id : Nat) (r : Req) (g : Region) (s : State), s.req id = some r ∧ pausedRegion s id = some g ∧
    r.state = 5 ∧ r.resumeTo = none ∧ movable s r ≠ [] :=
  ⟨1, wPaused [] none, ⟨1, 0x080000100000, 0x10000, .paused 1, none⟩, wPausedS (wPaused [] none), by decide +kernel⟩

theorem witness_RequestsChange_16 : ∃ (id st : Nat) (r : Req) (g : Region) (s : State), s.req id = some r ∧ pausedRegion s id = some g ∧
    r.resumeTo = some st ∧ r.resumeSets ≠ [] :=
  ⟨1, 2, wPaused [3] (some 2), ⟨1, 0x080000100000, 0x10000, .paused 1, none⟩, wPausedS (wPaused [3] (some 2)), by decide +kernel⟩

/-! ### ProgramsContextsQueues -/

theorem witness_ProgramsContextsQueues_1 : ∃ (h : Hdr) (w : WinRef) (bs : List Byte) (m : Image) (e : Session) (s : State), Served
    (.progLoad h w) h ⟨0x0301, roleJobs, featRoce + featLearn⟩ e s ∧ windowBytes s e.principal w = some bs ∧ leAt bs 4 1 = 1 ∧ parseImage
    bs = some m ∧ imageOk m (layerDrops s) = true ∧ s.jobs.programs.length < 256 ∧ (s.jobs.programs.map fun p => p.image.imageBytes).sum +
    m.imageBytes ≤ 16777216 :=
  ⟨wHdr, wWin wProgBytes, wProgBytes, (parseImage wProgBytes).getD (wImage wFront .sSync), wSess, wPut wProgBytes w0, by decide +kernel⟩

theorem witness_ProgramsContextsQueues_2 : ∃ (h : Hdr) (program : Nat) (p : Placed) (e : Session) (s : State), Served (.progUnload h
    program) h ⟨0x0302, roleJobs, featLearn⟩ e s ∧ s.program program = some p ∧ p.owner = e.principal :=
  ⟨wHdr, 3, wProg, wSess, wProgs, by decide +kernel⟩

theorem witness_ProgramsContextsQueues_3 : ∃ (h : Hdr) (p : CtxP) (n : Nat) (e : Session) (s : State), Served (.ctxCreate h p) h ⟨0x0306,
    roleJobs, featLearn⟩ e s ∧ (p.wdog = 0 ∨ (1000 ≤ p.wdog ∧ p.wdog ≤ 10000000)) ∧ tbit p.members s.boot.pkg = true ∧ freeCtx s = some n
    :=
  ⟨wHdr, ⟨9, 10000000, 0, 1⟩, 2, wSess, w0, by decide +kernel⟩

theorem witness_ProgramsContextsQueues_4 : ∃ (h : Hdr) (n : Nat) (c : Ctx) (e : Session) (s : State), Served (.ctxDestroy h n) h ⟨0x0307,
    roleJobs, featLearn⟩ e s ∧ s.ctx n = some c ∧ n ≠ 0 ∧ c.principal = e.principal ∧ (ctxHasWork s n = false ∨ tbit h.cflags 0 = true) :=
  ⟨wHdr, 1, wCtx, wSess, w0, by decide +kernel⟩

theorem witness_ProgramsContextsQueues_5 : ∃ (h : Hdr) (n cls priority q : Nat) (c : Ctx) (e : Session) (s : State), Served (.queueCreate
    h n cls priority) h ⟨0x0304, roleJobs, featLearn⟩ e s ∧ ctxRefusal s e.principal n = none ∧ cls ≤ 1 ∧ priority ≤ 7 ∧ s.ctx n = some c
    ∧ (List.range 16).find? (fun q => (c.queue q).isNone) = some q :=
  ⟨wHdr, 1, 1, 7, 1, wCtx, wSess, w0, by decide +kernel⟩

theorem witness_ProgramsContextsQueues_6 : ∃ (h : Hdr) (n q : Nat) (c : Ctx) (e : Session) (s : State), Served (.queueDestroy h n q) h
    ⟨0x0305, roleJobs, featLearn⟩ e s ∧ ctxRefusal s e.principal n = none ∧ s.ctx n = some c ∧ (c.queue q).isSome = true ∧ queueBusy s n q
    = false ∧ waitingOf s n q = [] :=
  ⟨wHdr, 1, 0, wCtx, wSess, w0, by decide +kernel⟩

/-! ### LaunchesAndPreemption -/

theorem witness_LaunchesAndPreemption_1 : ∃ (h : Hdr) (p : LaunchP) (m : Placed) (e : Session) (s : State), Served (.launch h p) h
    ⟨0x0303, roleJobs, featLearn⟩ e s ∧ launchRefusal s e.principal (namedEpoch h p) p = none ∧ s.program p.program = some m :=
  ⟨wHdr, ⟨3, 1, 0, 0, 0, 0, 0, [], []⟩, wProg, wSess, wProgs, by decide +kernel⟩

theorem witness_LaunchesAndPreemption_2 : ∃ (h : Hdr) (p : CopyP) (e : Session) (s : State), Served (.copy h p) h ⟨0x0404, roleJobs, 0⟩
    e s ∧ copyRefusal s e.principal p = none :=
  ⟨wHdr, ⟨1, 4, 4, 0, 0x10000, 0x10000⟩, wSess, w0, by decide +kernel⟩

theorem witness_LaunchesAndPreemption_3 : ∃ (p : StepLaunchP) (m : Placed) (c : Ctx) (s : State), s.program p.program = some m ∧ s.ctx 0
    = some c ∧ (c.queue p.queue).isSome = true ∧ s.boot.stage = 6 ∧ s.hlth.failed = false ∧ p.modelId ≠ 0 ∧ epochRefusal s p.modelId
    p.fixedEpoch = none ∧ handlesFit s 0 m.image p.handles = true ∧ dropsRows s m.image = false ∧ samplesOk (((s.model p.modelId).map fun
    x => x.kCand).getD 0) m.image (p.decode || p.plan.any fun i => i.last) = true ∧ namesUnbound s m.image = false ∧ fitsShared s m.image
    = true ∧ (waitingOf s 0 p.queue).length < 255 :=
  ⟨⟨false, 5, none, 3, 0, [], [⟨1, 1, false, []⟩]⟩, wProg, { wCtx with num := 0 },
    { wProgs with models := ⟨[wModel 3], [], []⟩, jobs := { wProgs.jobs with ctxs := [{ wCtx with num := 0 }] } }, by decide +kernel⟩

theorem witness_LaunchesAndPreemption_4 : ∃ (h : Hdr) (n q b : Nat) (e : Session) (s : State), Served (.preempt h n q b) h ⟨0x0308, roleJobs,
    featLearn⟩ e s ∧ preemptRefusal s e.principal n q false = none :=
  ⟨wHdr, 1, 0xFF, 0, wSess, w0, by decide +kernel⟩

theorem witness_LaunchesAndPreemption_5 : ∃ (h : Hdr) (n q b : Nat) (e : Session) (s : State), Served (.preemptResume h n q b) h ⟨0x0308,
    roleJobs, featLearn⟩ e s ∧ preemptRefusal s e.principal n q true = none :=
  ⟨wHdr, 1, 0, 0, wSess, wQ 0x59, by decide +kernel⟩

theorem witness_LaunchesAndPreemption_6 : ∃ (p : Preempt) (c : Ctx) (s : State), s.ctx p.ctx = some c ∧ preemptTargets c (p.wanted.headD 0xFF)
    p.resume ≠ [] :=
  ⟨⟨1, 77, 1, false, 10001, false, [0], [], [], 0, none⟩, wCtx, w0, by decide +kernel⟩

theorem witness_LaunchesAndPreemption_7 : ∃ (n q : Nat) (c : Ctx) (e : Queue) (s : State), s.ctx n = some c ∧ c.queue q = some e ∧ e.state =
    0x5A ∧ queueBusy s n q = false :=
  ⟨1, 0, { wCtx with queues := [{ wQueue with state := 90 }] }, { wQueue with state := 90 }, wQ 90, by decide +kernel⟩

theorem witness_LaunchesAndPreemption_8 : ∃ (n q : Nat) (s : State), queueBusy s n q = true :=
  ⟨1, 0, wRun (wCmd wFront .sSync), by decide +kernel⟩

/-! ### AccountsAndAllocations -/

theorem witness_AccountsAndAllocations_1 : ∃ (h : Hdr) (n tier reserve limit i : Nat) (e : Session) (s : State), Served (.poolCreate h n
    tier reserve limit) h ⟨0x0401, roleJobs, 0⟩ e s ∧ ctxRefusal s e.principal n = none ∧ tier ≤ 1 ∧ reserve ≤ limit ∧ (List.range
    256).find? (fun i => (s.account i).isNone) = some i ∧ reserves s tier + reserve ≤ freeSpace s tier :=
  ⟨wHdr, 1, 0, 0x100000, 0x200000, 0, wSess, w0, by decide +kernel⟩

theorem witness_AccountsAndAllocations_2 : ∃ (h : Hdr) (p : AllocP) (a : Account) (b : Nat) (e : Session) (s : State), Served (.alloc h p)
    h ⟨0x0402, roleJobs, 0⟩ e s ∧ p.kind = 0 ∧ allocRoce p = false ∧ allocBad p = false ∧ allocRefusal s e.principal [s.boot.pkg] p = none
    ∧ s.account p.account = some a ∧ roomFor s a.tier (some a.id) (roundUp64K p.bytes) = some b ∧ s.handle s.mem.nextHandle = none :=
  ⟨wHdr, ⟨2, 0, 3, 0, 0x10000, 0, 0, 0⟩, wAccount, 0x200000, wSess, w0, by decide +kernel⟩

theorem witness_AccountsAndAllocations_3 : ∃ (h : Hdr) (n : Nat) (x : Handle) (e : Session) (s : State), Served (.free h n) h ⟨0x0403,
    roleJobs, 0⟩ e s ∧ s.handle n = some x ∧ handleDenied s e.principal n = false ∧ freeConflict s n = none :=
  ⟨wHdr, 4, wHandle, wSess, w0, by decide +kernel⟩

theorem witness_AccountsAndAllocations_4 : ∃ (h : Hdr) (n : Nat) (x : Handle) (e : Session) (s : State), Served (.free h n) h ⟨0x0403,
    roleJobs, 0⟩ e s ∧ s.handle n = some x ∧ handleDenied s e.principal n = false ∧ freeConflict s n ≠ none :=
  ⟨wHdr, 4, wHandle, wSess, wRun (wCmd wFront .sSync), by decide +kernel⟩

/-! ### MovesAndMemoryErrors -/

theorem witness_MovesAndMemoryErrors_1 : ∃ (h : Hdr) (n tier : Nat) (x : Handle) (e : Session) (s : State), Served (.tierMove h n tier) h
    ⟨0x0405, roleJobs, 0⟩ e s ∧ s.handle n = some x ∧ handleDenied s e.principal n = false ∧ tier ≤ 1 ∧ x.kind = 0 ∧ x.tier ≠ tier ∧
    x.move = none :=
  ⟨wHdr, 4, 1, wHandle, wSess, w0, by decide +kernel⟩

theorem witness_MovesAndMemoryErrors_10 : ∃ (l : LimMove) (g : Region) (m : Model) (s : State), s.mem.wf = true ∧ l.version = none ∧ g ∈
    s.mem.regions ∧ g.base = l.old ∧ g.owner = .tensor l.model l.tensor ∧ s.badAt l.old l.bytes = false ∧ s.model l.model = some m ∧
    m.suspects.contains l.old = false ∧ copySound (storeBytes l.new (s.mem.read l.old l.bytes) s) l = true :=
  ⟨⟨5, 1, none, 1, 0x400000, 0x080000100000, 65536⟩, ⟨0, 0x400000, 65536, .tensor 5 1, none⟩,
    { wModel 3 with manifest := { wManifest with shards := [] } },
    { wM { wModel 3 with manifest := { wManifest with shards := [] } } with mem := { w0.mem with regions := [⟨0, 0x400000, 65536, .tensor 5 1, none⟩] } },
    by decide +kernel⟩

theorem witness_MovesAndMemoryErrors_2 : ∃ (n : Nat) (x : Handle) (m : TierMoveSt) (b : Nat) (s : State), s.handle n = some x ∧ x.move = some
    m ∧ m.newBase = some b ∧ m.copied = false ∧ s.badAt x.base x.bytes = false ∧ s.mem.wf = true :=
  ⟨4, { wHandle with move := some (wMove (some 0x080000100000) false) }, wMove (some 0x080000100000) false, 0x080000100000, wHandles
    { wHandle with move := some (wMove (some 0x080000100000) false) }, by decide +kernel⟩

theorem witness_MovesAndMemoryErrors_3 : ∃ (n : Nat) (x : Handle) (m : TierMoveSt) (b : Nat) (s : State), s.handle n = some x ∧ x.move = some
    m ∧ m.newBase = some b ∧ m.copied = false ∧ s.badAt x.base x.bytes = true :=
  ⟨4, { wHandle with move := some (wMove (some 0x080000100000) false) }, wMove (some 0x080000100000) false, 0x080000100000,
    { wHandles { wHandle with move := some (wMove (some 0x080000100000) false) } with mem := { (wHandles { wHandle with move := some (wMove (some 0x080000100000) false) }).mem with bad := [0] } },
    by decide +kernel⟩

theorem witness_MovesAndMemoryErrors_4 : ∃ (n : Nat) (x : Handle) (m : TierMoveSt) (b : Nat) (s : State), s.handle n = some x ∧ x.move = some
    m ∧ m.newBase = some b ∧ m.copied = true :=
  ⟨4, { wHandle with move := some (wMove (some 0x080000100000) true) }, wMove (some 0x080000100000) true, 0x080000100000, wHandles
    { wHandle with move := some (wMove (some 0x080000100000) true) }, by decide +kernel⟩

theorem witness_MovesAndMemoryErrors_5 : ∃ (n : Nat) (x : Handle) (m : TierMoveSt) (s : State), s.handle n = some x ∧ x.move = some m ∧
    m.newBase = none ∧ waitOver s m.since = true :=
  ⟨4, { wHandle with move := some (wMove none false) }, wMove none false, wLate (wHandles
    { wHandle with move := some (wMove none false) }), by decide +kernel⟩

theorem witness_MovesAndMemoryErrors_6 : ∃ (n : Nat) (d : Demand) (p : AllocP) (s : State), n < 2 ^ 32 ∧ s.mem.demands.find? (fun d => d.id =
    n) = some d ∧ d.want = .alloc p ∧ waitOver s d.since = true :=
  ⟨3, wDem (.alloc ⟨2, 0, 3, 0, 0x10000, 0, 0, 0⟩), ⟨2, 0, 3, 0, 0x10000, 0, 0, 0⟩, wLate (wDems (.alloc ⟨2, 0, 3, 0, 0x10000, 0, 0,
    0⟩)), by decide +kernel⟩

theorem witness_MovesAndMemoryErrors_7 : ∃ (n timeout : Nat) (d : Demand) (m : Manifest) (s : State), n < 2 ^ 32 ∧ s.mem.demands.find? (fun d
    => d.id = n) = some d ∧ d.want = .place m timeout ∧ waitOver s d.since = true :=
  ⟨3, 0, wDem (.place wManifest 0), wManifest, wLate (wDems (.place wManifest 0)), by decide +kernel⟩

theorem witness_MovesAndMemoryErrors_8 : ∃ (n rid : Nat) (d : Demand) (s : State), n < 2 ^ 32 ∧ s.mem.demands.find? (fun d => d.id = n) =
    some d ∧ d.want = .pauseMove rid ∧ waitOver s d.since = true :=
  ⟨3, 1, wDem (.pauseMove 1), wLate (wDems (.pauseMove 1)), by decide +kernel⟩

theorem witness_MovesAndMemoryErrors_9 : ∃ (mid tensor tier b : Nat) (m : Model) (p : PlacedTensor) (s : State), s.model mid = some m ∧
    m.state = 3 ∧ tier ≤ 1 ∧ m.placed.find? (fun q => q.tensor = tensor) = some p ∧ p.tier ≠ tier ∧ p.fresh = none ∧ m.suspects.contains
    p.base = false ∧ movingFrom s p.base = false ∧ (∀ d ∈ s.mem.demands, d.want ≠ .limcelMove mid tensor tier) ∧ (m.manifest.tensors.find?
    (fun t => t.id = tensor)).map (fun t => t.cls) = some 1 ∧ roomFor s tier none p.bytes = some b :=
  ⟨5, 1, 1, (roomFor w0 1 none 65536).getD 0, { wModel 3 with manifest := { wManifest with tensors := [{ wTensor with cls := 1 }] } },
    wPlaced, wM { wModel 3 with manifest := { wManifest with tensors := [{ wTensor with cls := 1 }] } }, by decide +kernel⟩

theorem witness_MovesAndMemoryErrors_11 : ∃ (tier a : Nat) (hard : Bool) (s : State), inTier s tier a = true :=
  ⟨1, 0x080000000000, true, w0, by decide +kernel⟩

theorem witness_MovesAndMemoryErrors_12 : ∃ (tier a id : Nat) (c : Cmd) (s : State), inTier s tier a = true ∧ s.cmd id = some c ∧ c.phase =
    .running ∧ (c.ctx = 0 ∨ ∃ x, s.ctx c.ctx = some x ∧ x.torn = false) :=
  ⟨0, 0x1000, 5, wCmd wFront .sSync, wRun (wCmd wFront .sSync),
    by refine ⟨by decide +kernel, by decide +kernel, by decide +kernel, .inr ⟨wCtx, by decide +kernel⟩⟩⟩

theorem witness_MovesAndMemoryErrors_13 : ∃ (tier a : Nat) (cs : List Nat) (s : State), inTier s tier a = true :=
  ⟨0, 0, [], w0, by decide +kernel⟩

theorem witness_MovesAndMemoryErrors_14 : ∃ (tier a : Nat) (hard : Bool) (cs : List Nat) (s : State), inTier s tier a = false :=
  ⟨0, 0x9200000000, true, [], w0, by decide +kernel⟩

/-! ### CommandsStartAndAdvance -/

theorem witness_CommandsStartAndAdvance_1 : ∃ (c : Cmd) (x : Ctx) (q : Queue) (s : State), s.jobs.cmds = [c] ∧ c.kind ≠ .copy ∧ c.phase = .waiting ∧
    beatLe c.eligible s.now = true ∧ s.ctx c.ctx = some x ∧ q ∈ x.queues ∧ q.num = c.queue ∧ q.state = 0x5B ∧ namesUnbound s c.image =
    false ∧ fitsShared s c.image = true ∧ mayStart s c = true :=
  ⟨{ wCmd wFront .sSync with phase := .waiting }, { wCtx with num := 1 }, wQueue, wRun { wCmd wFront .sSync with phase := .waiting },
    by decide +kernel⟩

theorem witness_CommandsStartAndAdvance_2 : ∃ (id : Nat) (c : Cmd) (s : State), s.cmd id = some c ∧ c.phase = .restarting ∧ carriersUp s c.image =
    true ∧ bindsIssue s c.image = true :=
  ⟨5, { wCmd wFront .sSync with phase := .restarting }, wRun { wCmd wFront .sSync with phase := .restarting }, by decide +kernel⟩

theorem witness_CommandsStartAndAdvance_3 : ∃ (p : Place) (c : Cmd) (l : ListSt) (s : State), s.cmd p.cmd = some c ∧ c.list p.code = some l ∧ c.phase
    = .running ∧ issueReady s c l = true :=
  ⟨wAt, { wCmd wFront .sSync with lists := [{ wList wFront with issued := 0, queue := [] }] },
    { wList wFront with issued := 0, queue := [] }, wRun
    { wCmd wFront .sSync with lists := [{ wList wFront with issued := 0, queue := [] }] }, by decide +kernel⟩

theorem witness_CommandsStartAndAdvance_4 : ∃ (p : Place) (c : Cmd) (l : ListSt) (s : State), s.cmd p.cmd = some c ∧ c.list p.code = some l ∧
    issueReady s c l = false :=
  ⟨wAt, wCmd wFront .sSync, wList wFront, wRun (wCmd wFront .sSync), by decide +kernel⟩

theorem witness_CommandsStartAndAdvance_5 : ∃ (p : Place) (c : Cmd) (l : ListSt) (i : Nat) (e : QEntry) (d : Desc) (s : State), s.cmd p.cmd = some c
    ∧ c.list p.code = some l ∧ c.phase = .running ∧ completing s c l = some i ∧ l.queue[i]? = some e ∧ c.image.descs[e.index]? = some d ∧
    (d.signal = false ∨ c.events.getD d.event 0 < 0xFFFFFFFF) ∧ (l.completed + 1 ≠ l.count ∨ tilesBroken c p.code = false) :=
  ⟨wAt, { wCmd wFront .sSync with lists := [{ wList wFront with queue := [wDone] }] }, { wList wFront with queue := [wDone] }, 0, wDone,
    wDesc .sSync, wRun { wCmd wFront .sSync with lists := [{ wList wFront with queue := [wDone] }] }, by decide +kernel⟩

theorem witness_CommandsStartAndAdvance_6 : ∃ (id n : Nat) (c : Cmd) (e : StreamSt) (s : State), s.cmd id = some c ∧ c.streams[n]? = some e ∧
    e.queue.length < e.spec.depth :=
  ⟨5, 0, wStoreC 1, ⟨⟨wZeph, wFront, 4, 1⟩, [wTile], [], 1⟩, wRun (wStoreC 1), by decide +kernel⟩

/-! ### CommandsEnd -/

theorem witness_CommandsEnd_1 : ∃ (id : Nat) (c : Cmd) (s : State), s.cmd id = some c ∧ c.phase = .running ∧ listsDone c = true ∧
    s.fab.accesses.any (fun a => a.cmd = id) = false ∧ leftover c = none ∧ neverCarried c = none :=
  ⟨5, wOver, wRun wOver, by decide +kernel⟩

theorem witness_CommandsEnd_2 : ∃ (id code : Nat) (c : Cmd) (s : State), s.cmd id = some c ∧ c.phase = .running ∧ listsDone c =
    true ∧ s.fab.accesses.any (fun a => a.cmd = id) = false ∧ (leftover c).or (neverCarried c) = some code :=
  ⟨5, wFront, { wOver with streams := [⟨⟨wZeph, wFront, 4, 1⟩, [wTile], [], 1⟩] }, wRun
    { wOver with streams := [⟨⟨wZeph, wFront, 4, 1⟩, [wTile], [], 1⟩] }, by decide +kernel⟩

theorem witness_CommandsEnd_3 : ∃ (id : Nat) (outs : List StepOut) (c : Cmd) (s : State), s.cmd id = some c ∧ awaitsCommit c =
    true ∧ beatLe (commitBeatOf c) s.now = true :=
  ⟨5, [], { wOver with phase := .retired, launch := { wLaunch with isStep := true } }, wRun
    { wOver with phase := .retired, launch := { wLaunch with isStep := true } }, by decide +kernel⟩

theorem witness_CommandsEnd_4 : ∃ (id : Nat) (outs : List StepOut) (c : Cmd) (x : Ctx) (s : State), s.cmd id = some c ∧
    awaitsCommit c = true ∧ c.kind = .launch ∧ beatLe (commitBeatOf c) s.now = true ∧ s.ctx c.ctx = some x :=
  ⟨5, [], { wOver with phase := .retired, launch := { wLaunch with isStep := true } }, wCtx, wRun
    { wOver with phase := .retired, launch := { wLaunch with isStep := true } }, by decide +kernel⟩

theorem witness_CommandsEnd_5 : ∃ (id : Nat) (outs : List StepOut) (c : Cmd) (s : State), s.cmd id = some c ∧ (awaitsCommit c =
    false ∨ beatLe (commitBeatOf c) s.now = false) :=
  ⟨5, [], wOver, wRun wOver, by decide +kernel⟩

theorem witness_CommandsEnd_6 : ∃ (id cause : Nat) (p : Place) (c : Cmd) (x : Ctx) (s : State), 1 ≤ cause ∧ cause ≤ 8 ∧ s.cmd
    id = some c ∧ c.phase = .running ∧ s.ctx c.ctx = some x ∧ c.ctx ≠ 0 ∧ x.torn = false :=
  ⟨5, 8, wAt, wCmd wFront .sSync, wCtx, wRun (wCmd wFront .sSync), by decide +kernel⟩

theorem witness_CommandsEnd_7 : ∃ (id : Nat) (c : Cmd) (x : Ctx) (s : State), s.cmd id = some c ∧ c.phase = .running ∧ s.ctx
    c.ctx = some x ∧ c.ctx ≠ 0 ∧ x.torn = false ∧ c.progressBeat + x.wdog ≤ s.beat.elapsed :=
  ⟨5, wCmd wFront .sSync, { wCtx with wdog := 9010 },
    { wRun (wCmd wFront .sSync) with jobs := { (wRun (wCmd wFront .sSync)).jobs with ctxs := [{ wCtx with wdog := 9010 }] } },
    by decide +kernel⟩

theorem witness_CommandsEnd_8 : ∃ (id : Nat) (c : Cmd) (x : Ctx) (s : State), s.cmd id = some c ∧ s.ctx c.ctx = some x ∧
    s.beat.elapsed < c.progressBeat + x.wdog :=
  ⟨5, wCmd wFront .sSync, { wCtx with wdog := 9011 },
    { wRun (wCmd wFront .sSync) with jobs := { (wRun (wCmd wFront .sSync)).jobs with ctxs := [{ wCtx with wdog := 9011 }] } },
    by decide +kernel⟩

/-! ### FrondCarriesOut -/

theorem witness_FrondCarriesOut_1 : ∃ (p : Place) (f : FLoadF) (c : Cmd) (l : ListSt) (k : Nat) (b : Bench) (ts : List Tile) (s : State),
    AtStation p (.fLoad f) s c l k b ∧ ts = (if f.fromHold then (List.range f.sets).map (fun i => b.holdTile (f.holdBase + i)) else b.in0)
    ∧ ts.length = f.sets ∧ allOk ts f.format ∧ (f.fromHold = true ∨ b.in1 = [] ∧ b.in2 = []) :=
  ⟨⟨5, wFrond⟩, wFLoad, wAtL (wL wFrond (wE [wTile] [] [])) (.fLoad wFLoad), wL wFrond (wE [wTile] [] []), 0, wBch (wL wFrond (wE
    [wTile] [] [])) (.fLoad wFLoad), [wTile], wRun (wAtL (wL wFrond (wE [wTile] [] [])) (.fLoad wFLoad)), by decide +kernel⟩

theorem witness_FrondCarriesOut_2 : ∃ (p : Place) (f : FMmaF) (c : Cmd) (l : ListSt) (k : Nat) (b : Bench) (ld : Loaded) (fs fx : Fmt) (ts
    : List Tile) (s : State), AtStation p (.fMma f) s c l k b ∧ b.list.active = some ld ∧ Fmt.ofCode ld.format = some fs ∧ Fmt.ofCode
    f.format = some fx ∧ f.format = ld.partner ∧ (f.init ≠ 0 ∨ (b.list.bank f.bank).opened = true ∧ (b.list.bank f.bank).rowTags.length =
    f.rows) ∧ ts = (if f.fromHold then (List.range ((f.rows + 63) / 64)).map (fun i => b.holdTile (f.holdBase + i)) else b.in1) ∧
    ts.length = (f.rows + 63) / 64 ∧ allOk ts f.format ∧ b.in0 = [] ∧ (f.fromHold = false ∨ b.in1 = []) ∧ b.in2.length = (if f.init = 2
    then (f.rows + 63) / 64 * ((passWidth f ld (setDepth fs fx) + 63) / 64) else 0) ∧ allOk b.in2 Fmt.fp32.code :=
  ⟨⟨5, wFrond⟩, wFMma, wAtL { wL wFrond (wE [] [wTile] []) with active := some wLoaded } (.fMma wFMma),
    { wL wFrond (wE [] [wTile] []) with active := some wLoaded }, 0, wBch { wL wFrond (wE [] [wTile] []) with active := some wLoaded }
    (.fMma wFMma), wLoaded, .bf16, .bf16, [wTile], wRun (wAtL { wL wFrond (wE [] [wTile] []) with active := some wLoaded } (.fMma
    wFMma)), by decide +kernel⟩

theorem witness_FrondCarriesOut_4 : ∃ (p : Place) (f : FDrainF) (c : Cmd) (l : ListSt) (k : Nat) (b : Bench) (fo : Fmt) (s : State),
    AtStation p (.fDrain f) s c l k b ∧ Fmt.ofCode f.conv.format = some fo ∧ (b.list.bank f.bank).opened = true :=
  ⟨⟨5, wFrond⟩, wFDrain, wAtL { wL wFrond (wE [] [] []) with bank0 := { Bank.empty with opened := true } } (.fDrain wFDrain),
    { wL wFrond (wE [] [] []) with bank0 := { Bank.empty with opened := true } }, 0, wBch
    { wL wFrond (wE [] [] []) with bank0 := { Bank.empty with opened := true } } (.fDrain wFDrain), .fp16, wRun (wAtL
    { wL wFrond (wE [] [] []) with bank0 := { Bank.empty with opened := true } } (.fDrain wFDrain)), by decide +kernel⟩

theorem witness_FrondCarriesOut_5 : ∃ (p : Place) (f : FHadF) (c : Cmd) (l : ListSt) (k : Nat) (b : Bench) (fa fb fo : Fmt) (x y : Tile)
    (s : State), AtStation p (.fHad f) s c l k b ∧ Fmt.ofCode f.formatA = some fa ∧ Fmt.ofCode f.formatB = some fb ∧ Fmt.ofCode
    f.conv.format = some fo ∧ b.in0 = [] ∧ b.in1 = (if f.fromHold then [] else [x]) ∧ (f.fromHold = true → x = b.holdTile (f.holdBase +
    b.entry.step)) ∧ b.in2 = [y] ∧ x.ok f.formatA = true ∧ y.ok f.formatB = true ∧ x.kExtent = y.kExtent :=
  ⟨⟨5, wFrond⟩, wFHad, wAtL (wL wFrond (wE [] [wTile] [wTile])) (.fHad wFHad), wL wFrond (wE [] [wTile] [wTile]), 0, wBch (wL wFrond (wE
    [] [wTile] [wTile])) (.fHad wFHad), .bf16, .bf16, .fp16, wTile, wTile, wRun (wAtL (wL wFrond (wE [] [wTile] [wTile])) (.fHad
    wFHad)), by decide +kernel⟩

theorem witness_FrondCarriesOut_6 : ∃ (p : Place) (c : Cmd) (l : ListSt) (j : Nat) (x : Loaded) (s : State), s.cmd p.cmd = some c ∧
    c.phase = .running ∧ c.list p.code = some l ∧ l.shadow = some (j, x) ∧ allDone c DBody.isPass (l.queue.filter fun e => decide (e.index
    < j)) = true :=
  ⟨⟨5, wFrond⟩, wShadow, { wList wFrond with shadow := some (8, ⟨8, 8, 0, []⟩) }, 8, ⟨8, 8, 0, []⟩, wRun wShadow, by decide +kernel⟩

/-! ### CrozierCarriesOut -/

theorem witness_CrozierCarriesOut_1 : ∃ (p : Place) (f : EwiseF) (c : Cmd) (l : ListSt) (k : Nat) (b : Bench) (fa fo fb : Fmt) (s :
    State), AtStation p (.vEwise f) s c l k b ∧ Fmt.ofCode f.formatA = some fa ∧ Fmt.ofCode f.conv.format = some fo ∧ fb = (Fmt.ofCode
    f.formatB).getD .fp32 ∧ allOk b.in0 f.formatA ∧ b.closed fa = true ∧ allOk b.in1 f.formatB ∧ b.in1.length = (if ewiseTakesB f.func
    then pieceCount fb (groupLen fa b.in0) else 0) ∧ b.in2 = [] :=
  ⟨⟨5, wCroz⟩, wEwise, wAtL (wL wCroz (wE [wTile] [wTile] [])) (.vEwise wEwise), wL wCroz (wE [wTile] [wTile] []), 0, wBch (wL wCroz (wE
    [wTile] [wTile] [])) (.vEwise wEwise), .bf16, .fp16, .bf16, wRun (wAtL (wL wCroz (wE [wTile] [wTile] [])) (.vEwise wEwise)),
    by decide +kernel⟩

theorem witness_CrozierCarriesOut_10 : ∃ (p : Place) (f : OptF) (c : Cmd) (l : ListSt) (k : Nat) (b : Bench) (fg fm fv fw fo : Fmt) (s :
    State), AtStation p (.vOpt f) s c l k b ∧ Fmt.ofCode f.gFormat = some fg ∧ Fmt.ofCode f.mFormat = some fm ∧ Fmt.ofCode f.vFormat =
    some fv ∧ Fmt.ofCode f.wFormat = some fw ∧ Fmt.ofCode f.conv.format = some fo ∧ b.in0 = [] ∧ b.dry0 = true :=
  ⟨⟨5, wCroz⟩, wOpt, wAtL (wL wCroz (wE [] [] [])) (.vOpt wOpt), wL wCroz (wE [] [] []), 0, wBch (wL wCroz (wE [] [] [])) (.vOpt wOpt),
    .bf16, .bf16, .bf16, .bf16, .bf16, wRun (wAtL (wL wCroz (wE [] [] [])) (.vOpt wOpt)), by decide +kernel⟩

theorem witness_CrozierCarriesOut_11 : ∃ (p : Place) (f : SampleF) (c : Cmd) (l : ListSt) (k : Nat) (b : Bench) (x y : Tile) (s : State),
    AtStation p (.vSample f) s c l k b ∧ b.in0.length = 2 * ((f.kCand + 63) / 64) ∧ allOk b.in0 Fmt.fp32.code ∧ b.in1 = [x] ∧ x.ok
    Fmt.fp32.code = true ∧ b.in2 = [y] ∧ y.ok Fmt.fp32.code = true :=
  ⟨⟨5, wCroz⟩, wSample, wAtL (wL wCroz (wE [wWords, wWords] [wWords] [wWords])) (.vSample wSample), wL wCroz (wE [wWords, wWords]
    [wWords] [wWords]), 0, wBch (wL wCroz (wE [wWords, wWords] [wWords] [wWords])) (.vSample wSample), wWords, wWords, wRun (wAtL (wL
    wCroz (wE [wWords, wWords] [wWords] [wWords])) (.vSample wSample)), by decide +kernel⟩

theorem witness_CrozierCarriesOut_2 : ∃ (p : Place) (f : SoftmaxF) (c : Cmd) (l : ListSt) (k : Nat) (b : Bench) (fi fo : Fmt) (s : State),
    AtStation p (.vSoftmax f) s c l k b ∧ Fmt.ofCode f.format = some fi ∧ Fmt.ofCode f.conv.format = some fo ∧ b.in0.length = pieceCount
    fi f.rowLen ∧ allOk b.in0 f.format ∧ b.in1.length = (if f.scaleSrc then 1 else 0) ∧ allOk b.in1 Fmt.fp32.code ∧ b.in2 = [] :=
  ⟨⟨5, wCroz⟩, wSoftmax, wAtL (wL wCroz (wE [wTile] [] [])) (.vSoftmax wSoftmax), wL wCroz (wE [wTile] [] []), 0, wBch (wL wCroz (wE
    [wTile] [] [])) (.vSoftmax wSoftmax), .bf16, .fp16, wRun (wAtL (wL wCroz (wE [wTile] [] [])) (.vSoftmax wSoftmax)),
    by decide +kernel⟩

theorem witness_CrozierCarriesOut_3 : ∃ (p : Place) (f : NormF) (c : Cmd) (l : ListSt) (k : Nat) (b : Bench) (fi fo : Fmt) (s : State),
    AtStation p (.vNorm f) s c l k b ∧ Fmt.ofCode f.format = some fi ∧ Fmt.ofCode f.conv.format = some fo ∧ b.in0.length = pieceCount fi
    f.rowLen ∧ allOk b.in0 f.format ∧ b.in1.length = (if f.gain then pieceCount ((Fmt.ofCode f.gbFormat).getD .fp32) f.rowLen else 0) ∧
    allOk b.in1 f.gbFormat ∧ b.in2.length = (if f.bias then pieceCount ((Fmt.ofCode f.gbFormat).getD .fp32) f.rowLen else 0) ∧ allOk b.in2
    f.gbFormat :=
  ⟨⟨5, wCroz⟩, wNorm, wAtL (wL wCroz (wE [wTile] [] [])) (.vNorm wNorm), wL wCroz (wE [wTile] [] []), 0, wBch (wL wCroz (wE [wTile] []
    [])) (.vNorm wNorm), .bf16, .fp16, wRun (wAtL (wL wCroz (wE [wTile] [] [])) (.vNorm wNorm)), by decide +kernel⟩

theorem witness_CrozierCarriesOut_4 : ∃ (p : Place) (f : RopeF) (c : Cmd) (l : ListSt) (k : Nat) (b : Bench) (fi fo : Fmt) (s : State),
    AtStation p (.vRope f) s c l k b ∧ Fmt.ofCode f.format = some fi ∧ Fmt.ofCode f.conv.format = some fo ∧ f.posMode = 0 ∧ allOk b.in0
    f.format ∧ b.closed fi = true ∧ b.in1 = [] ∧ b.in2 = [] ∧ headsWhole f fi b.in0 = true :=
  ⟨⟨5, wCroz⟩, (wRope 0), wAtL (wL wCroz (wE [wTile] [] [])) (.vRope (wRope 0)), wL wCroz (wE [wTile] [] []), 0, wBch (wL wCroz (wE
    [wTile] [] [])) (.vRope (wRope 0)), .bf16, .fp16, wRun (wAtL (wL wCroz (wE [wTile] [] [])) (.vRope (wRope 0))), by decide +kernel⟩

theorem witness_CrozierCarriesOut_5 : ∃ (p : Place) (f : RopeF) (c : Cmd) (l : ListSt) (k : Nat) (b : Bench) (fi fo : Fmt) (s : State),
    AtStation p (.vRope f) s c l k b ∧ Fmt.ofCode f.format = some fi ∧ Fmt.ofCode f.conv.format = some fo ∧ f.posMode = 1 ∧ allOk b.in0
    f.format ∧ b.closed fi = true ∧ b.in1.length = 1 ∧ allOk b.in1 Fmt.fp32.code ∧ b.in2 = [] ∧ headsWhole f fi b.in0 = true ∧ (∀ r, r <
    64 → posOf (wordOf (b.in1.headD Tile.blank) r 0) ≠ none) :=
  ⟨⟨5, wCroz⟩, (wRope 1), wAtL (wL wCroz (wE [wTile] [wWords] [])) (.vRope (wRope 1)), wL wCroz (wE [wTile] [wWords] []), 0, wBch (wL
    wCroz (wE [wTile] [wWords] [])) (.vRope (wRope 1)), .bf16, .fp16, wRun (wAtL (wL wCroz (wE [wTile] [wWords] [])) (.vRope (wRope
    1))), by decide +kernel⟩

theorem witness_CrozierCarriesOut_6 : ∃ (p : Place) (f : ConvertF) (c : Cmd) (l : ListSt) (k : Nat) (b : Bench) (fi fo : Fmt) (s : State),
    AtStation p (.vConvert f) s c l k b ∧ Fmt.ofCode f.inFormat = some fi ∧ Fmt.ofCode f.conv.format = some fo ∧ allOk b.in0 f.inFormat ∧
    b.closed fi = true ∧ b.in1.length = (if f.rowFactor then 1 else 0) ∧ allOk b.in1 Fmt.fp32.code ∧ b.in2 = [] :=
  ⟨⟨5, wCroz⟩, wConvert, wAtL (wL wCroz (wE [wTile] [] [])) (.vConvert wConvert), wL wCroz (wE [wTile] [] []), 0, wBch (wL wCroz (wE
    [wTile] [] [])) (.vConvert wConvert), .bf16, .fp16, wRun (wAtL (wL wCroz (wE [wTile] [] [])) (.vConvert wConvert)),
    by decide +kernel⟩

theorem witness_CrozierCarriesOut_7 : ∃ (p : Place) (f : CombineF) (c : Cmd) (l : ListSt) (k n : Nat) (b : Bench) (fi fo : Fmt) (g : Tile)
    (s : State), AtStation p (.vCombine f) s c l k b ∧ Fmt.ofCode f.format = some fi ∧ Fmt.ofCode f.conv.format = some fo ∧ f.residual =
    false ∧ allOk b.in0 f.format ∧ (arrivalsOf f fi b).bad = false ∧ b.in1 = [g] ∧ g.ok Fmt.fp32.code = true ∧ b.in2 = [] ∧ n = min 64
    (f.rows - 64 * b.entry.step) ∧ (∀ r, r < n → rowArrived f (arrivalsOf f fi b) (g.row r) (64 * b.entry.step + r) = true) :=
  ⟨⟨5, wCroz⟩, (wCombine false), wAtL (wL wCroz (wE [] [wWords] [])) (.vCombine (wCombine false)), wL wCroz (wE [] [wWords] []), 0, 1,
    wBch (wL wCroz (wE [] [wWords] [])) (.vCombine (wCombine false)), .bf16, .fp16, wWords, wRun (wAtL (wL wCroz (wE [] [wWords] []))
    (.vCombine (wCombine false))), by decide +kernel⟩

theorem witness_CrozierCarriesOut_8 : ∃ (p : Place) (f : CombineF) (c : Cmd) (l : ListSt) (k n : Nat) (b : Bench) (fi fo fr : Fmt) (g h :
    Tile) (hs : List Tile) (s : State), AtStation p (.vCombine f) s c l k b ∧ Fmt.ofCode f.format = some fi ∧ Fmt.ofCode f.conv.format =
    some fo ∧ f.residual = true ∧ allOk b.in0 f.format ∧ (arrivalsOf f fi b).bad = false ∧ b.in1 = [g] ∧ g.ok Fmt.fp32.code = true ∧ b.in2
    = h :: hs ∧ Fmt.ofCode h.format = some fr ∧ allOk b.in2 h.format ∧ b.in2.length = pieceCount fr f.rowLen ∧ n = min 64 (f.rows - 64 *
    b.entry.step) ∧ (∀ r, r < n → rowArrived f (arrivalsOf f fi b) (g.row r) (64 * b.entry.step + r) = true) :=
  ⟨⟨5, wCroz⟩, (wCombine true), wAtL (wL wCroz (wE [] [wWords] [wTile])) (.vCombine (wCombine true)), wL wCroz (wE [] [wWords] [wTile]),
    0, 1, wBch (wL wCroz (wE [] [wWords] [wTile])) (.vCombine (wCombine true)), .bf16, .fp16, .bf16, wWords, wTile, [], wRun (wAtL (wL
    wCroz (wE [] [wWords] [wTile])) (.vCombine (wCombine true))), by decide +kernel⟩

theorem witness_CrozierCarriesOut_9 : ∃ (p : Place) (f : OptF) (c : Cmd) (l : ListSt) (k nm nv nw : Nat) (b : Bench) (fg fm fv fw fo :
    Fmt) (s : State), AtStation p (.vOpt f) s c l k b ∧ Fmt.ofCode f.gFormat = some fg ∧ Fmt.ofCode f.mFormat = some fm ∧ Fmt.ofCode
    f.vFormat = some fv ∧ Fmt.ofCode f.wFormat = some fw ∧ Fmt.ofCode f.conv.format = some fo ∧ b.in0 ≠ [] ∧ allOk b.in0 f.gFormat ∧
    b.closed fg = true ∧ nm = pieceCount fm (groupLen fg b.in0) ∧ nv = pieceCount fv (groupLen fg b.in0) ∧ nw = pieceCount fw (groupLen fg
    b.in0) ∧ b.in1.length = nm + nv ∧ allOk (b.in1.take nm) f.mFormat ∧ allOk (b.in1.drop nm) f.vFormat ∧ b.in2.length = nw ∧ allOk b.in2
    f.wFormat :=
  ⟨⟨5, wCroz⟩, wOpt, wAtL (wL wCroz (wE [wTile] [wTile, wTile] [wTile])) (.vOpt wOpt), wL wCroz (wE [wTile] [wTile, wTile] [wTile]), 0,
    1, 1, 1, wBch (wL wCroz (wE [wTile] [wTile, wTile] [wTile])) (.vOpt wOpt), .bf16, .bf16, .bf16, .bf16, .bf16, wRun (wAtL (wL wCroz
    (wE [wTile] [wTile, wTile] [wTile])) (.vOpt wOpt)), by decide +kernel⟩

/-! ### RhizoidCarriesOut -/

theorem witness_RhizoidCarriesOut_1 : ∃ (p : Place) (f : TopkF) (c : Cmd) (l : ListSt) (k : Nat) (b : Bench) (fi : Fmt) (s : State),
    AtStation p (.gTopk f) s c l k b ∧ Fmt.ofCode f.format = some fi ∧ f.paired = false ∧ b.in0.length = pieceCount fi f.rowLen ∧ allOk
    b.in0 f.format :=
  ⟨⟨5, wRhiz⟩, (wTopk false), wAtL (wL wRhiz (wE [wTile] [] [])) (.gTopk (wTopk false)), wL wRhiz (wE [wTile] [] []), 0, wBch (wL wRhiz
    (wE [wTile] [] [])) (.gTopk (wTopk false)), .bf16, wRun (wAtL (wL wRhiz (wE [wTile] [] [])) (.gTopk (wTopk false))),
    by decide +kernel⟩

theorem witness_RhizoidCarriesOut_2 : ∃ (p : Place) (f : TopkF) (c : Cmd) (l : ListSt) (k : Nat) (b : Bench) (fi : Fmt) (s : State),
    AtStation p (.gTopk f) s c l k b ∧ Fmt.ofCode f.format = some fi ∧ f.paired = true ∧ b.in0.length = 2 * ((f.rowLen + 63) / 64) ∧ (∀ i
    (hi : i < b.in0.length), (b.in0[i]).ok (if i % 2 = 1 then Fmt.fp32.code else f.format) = true) :=
  ⟨⟨5, wRhiz⟩, (wTopk true), wAtL (wL wRhiz (wE [wTile, wWords] [] [])) (.gTopk (wTopk true)), wL wRhiz (wE [wTile, wWords] [] []), 0,
    wBch (wL wRhiz (wE [wTile, wWords] [] [])) (.gTopk (wTopk true)), .bf16, wRun (wAtL (wL wRhiz (wE [wTile, wWords] [] [])) (.gTopk
    (wTopk true))), by decide +kernel⟩

theorem witness_RhizoidCarriesOut_3 : ∃ (p : Place) (f : CountF) (c : Cmd) (l : ListSt) (k : Nat) (b : Bench) (s : State), AtStation p
    (.gCount f) s c l k b ∧ b.in0.length = (f.rows + 63) / 64 ∧ allOk b.in0 Fmt.fp32.code ∧ b.in1 = [] ∧ b.in2 = [] ∧ (∀ e ∈ entriesOf b
    f.slots f.rows f.map f.holdBase b.in0, e.2.2 < f.bins) :=
  ⟨⟨5, wRhiz⟩, wCount, wAtL (wL wRhiz (wE [wWords] [] [])) (.gCount wCount), wL wRhiz (wE [wWords] [] []), 0, wBch (wL wRhiz (wE
    [wWords] [] [])) (.gCount wCount), wRun (wAtL (wL wRhiz (wE [wWords] [] [])) (.gCount wCount)), by decide +kernel⟩

theorem witness_RhizoidCarriesOut_4 : ∃ (p : Place) (f : ScanF) (c : Cmd) (l : ListSt) (k : Nat) (b : Bench) (x : Tile) (adm : List Nat)
    (s : State), AtStation p (.gScan f) s c l k b ∧ b.in0 = [x] ∧ x.ok Fmt.fp32.code = true ∧ b.in1 = [] ∧ b.in2 = [] ∧ f.cap = 0 ∧ adm =
    (List.range f.bins).map (fun j => if f.align64 then ((wordOf x (j / 64) (j % 64)).toNat + 63) / 64 * 64 else (wordOf x (j / 64) (j %
    64)).toNat) ∧ adm.sum ≤ 2147483647 :=
  ⟨⟨5, wRhiz⟩, wScan, wAtL (wL wRhiz (wE [wWords] [] [])) (.gScan wScan), wL wRhiz (wE [wWords] [] []), 0, wBch (wL wRhiz (wE [wWords]
    [] [])) (.gScan wScan), wWords, [0, 0], wRun (wAtL (wL wRhiz (wE [wWords] [] [])) (.gScan wScan)), by decide +kernel⟩

theorem witness_RhizoidCarriesOut_5 : ∃ (p : Place) (f : SortF) (c : Cmd) (l : ListSt) (k : Nat) (b : Bench) (x : Tile) (xs : List Tile)
    (es : List (Nat × Nat × Nat)) (s : State), AtStation p (.gSort f) s c l k b ∧ b.in0 = x :: xs ∧ b.in0.length = (f.rows + 63) / 64 ∧
    allOk b.in0 x.format ∧ b.in1.length = (f.rows + 63) / 64 ∧ allOk b.in1 Fmt.fp32.code ∧ b.in2 = [] ∧ es = (entriesOf b f.slots f.rows
    f.map f.mapBase b.in1).filter (fun e => ((tileAt b.in0 e.1).row (e.1 % 64)).valid && !(tagOf ((tileAt b.in0 e.1).row (e.1 %
    64)).tag).pad) ∧ (∀ e ∈ es, e.2.2 < f.bins) ∧ (∀ e ∈ withRanks es [], heldWord b f.offsetBase e.2.2.1 + e.2.2.2 < 2 ^ 31) ∧ f.toMemory
    = false ∧ sortTables f + (sortRows f b b.in0 es).tiles.length ≤ b.slots :=
  ⟨⟨5, wRhiz⟩, wSort, wAtL (wL wRhiz (wE [wTile] [wWords] [])) (.gSort wSort), wL wRhiz (wE [wTile] [wWords] []), 0, wBch (wL wRhiz (wE
    [wTile] [wWords] [])) (.gSort wSort), wTile, [], [], wRun (wAtL (wL wRhiz (wE [wTile] [wWords] [])) (.gSort wSort)),
    by decide +kernel⟩

theorem witness_RhizoidCarriesOut_6 : ∃ (p : Place) (f : SortF) (c : Cmd) (l : ListSt) (k : Nat) (b : Bench) (x : Tile) (xs : List Tile)
    (es : List (Nat × Nat × Nat)) (w : MemWrite) (s : State), AtStation p (.gSort f) s c l k b ∧ b.in0 = x :: xs ∧ b.in0.length = (f.rows
    + 63) / 64 ∧ allOk b.in0 x.format ∧ b.in1.length = (f.rows + 63) / 64 ∧ allOk b.in1 Fmt.fp32.code ∧ b.in2 = [] ∧ es = (entriesOf b
    f.slots f.rows f.map f.mapBase b.in1).filter (fun e => ((tileAt b.in0 e.1).row (e.1 % 64)).valid && !(tagOf ((tileAt b.in0 e.1).row
    (e.1 % 64)).tag).pad) ∧ (∀ e ∈ es, e.2.2 < f.bins) ∧ (∀ e ∈ withRanks es [], heldWord b f.offsetBase e.2.2.1 + e.2.2.2 < 2 ^ 31) ∧
    f.toMemory = true ∧ b.waiting = false ∧ (imagePieces f.destBase (sortRows f b b.in0 es).tiles)[b.entry.step]? = some w :=
  ⟨⟨5, wRhiz⟩, wSortM, wAtL wSortL (.gSort wSortM), wSortL, 0, wSortB, wPlace, [], wEntries, wPiece, wRun (wAtL wSortL (.gSort wSortM)),
    by decide +kernel⟩

theorem witness_RhizoidCarriesOut_7 : ∃ (p : Place) (f : MoveF) (c : Cmd) (l : ListSt) (k r : Nat) (b : Bench) (x a : Tile) (s : State),
    AtStation p (.gScatter f) s c l k b ∧ b.in0 = [x] ∧ b.in1 = [a] ∧ b.in2 = [] ∧ x.ok x.format = true ∧ a.ok Fmt.fp32.code = true ∧
    b.waiting = false ∧ r = b.entry.step % 64 :=
  ⟨⟨5, wRhiz⟩, wMoveF, wAtL (wL wRhiz (wE [wTile] [wWords] [])) (.gScatter wMoveF), wL wRhiz (wE [wTile] [wWords] []), 0, 0, wBch (wL
    wRhiz (wE [wTile] [wWords] [])) (.gScatter wMoveF), wTile, wWords, wRun (wAtL (wL wRhiz (wE [wTile] [wWords] [])) (.gScatter
    wMoveF)), by decide +kernel⟩

theorem witness_RhizoidCarriesOut_8 : ∃ (p : Place) (f : MoveF) (c : Cmd) (l : ListSt) (k d y : Nat) (b : Bench) (x a : Tile) (s : State),
    AtStation p (.gScatter f) s c l k b ∧ b.in0 = [x] ∧ b.in1 = [a] ∧ b.in2 = [] ∧ x.ok x.format = true ∧ a.ok Fmt.fp32.code = true ∧
    b.waiting = false ∧ b.entry.step + 1 = 64 * f.tiles ∧ f.scaleBytes = 0 ∧ f.offset + f.rowBytes ≤ 256 ∧ scatterAddr x a 63 = some d ∧ d
    % 32 = 0 ∧ d % 256 + f.rowBytes ≤ 256 ∧ 0 < f.rowBytes ∧ target s d = .here y ∧ ownsRange s c.ctx y f.rowBytes true = true ∧
    blockedUnits s y f.rowBytes = [] ∧ s.mem.wf = true :=
  ⟨⟨5, wRhiz⟩, wMoveF, wAtL (wL wRhiz wLast) (.gScatter wMoveF), wL wRhiz wLast, 0, 0x100000, 0x100000, wBch (wL wRhiz wLast) (.gScatter
    wMoveF), wPlace, wAddr, wRun (wAtL (wL wRhiz wLast) (.gScatter wMoveF)), by decide +kernel⟩

theorem witness_RhizoidCarriesOut_9 : ∃ (p : Place) (f : MoveF) (c : Cmd) (l : ListSt) (k : Nat) (b : Bench) (a : Tile) (s : State),
    AtStation p (.gGather f) s c l k b ∧ b.in0 = [] ∧ b.in1 = [a] ∧ b.in2 = [] ∧ a.ok Fmt.fp32.code = true :=
  ⟨⟨5, wRhiz⟩, wMoveF, wAtL (wL wRhiz (wE [] [wWords] [])) (.gGather wMoveF), wL wRhiz (wE [] [wWords] []), 0, wBch (wL wRhiz (wE []
    [wWords] [])) (.gGather wMoveF), wWords, wRun (wAtL (wL wRhiz (wE [] [wWords] [])) (.gGather wMoveF)), by decide +kernel⟩

/-! ### StationsWaitOrFault -/

theorem witness_StationsWaitOrFault_1 : ∃ (i : Instr) (p : Place) (body : DBody) (op : Bench → Work) (note : Bench → Nat) (c : Cmd) (l :
    ListSt) (k : Nat) (b : Bench) (m : Made) (s : State), stationRow i = some (p, body, op, note) ∧ AtStation p body s c l k b ∧ op b =
    .make m :=
  ⟨.vConvert ⟨5, wCroz⟩ wConvert, ⟨5, wCroz⟩, .vConvert wConvert, opVConvert wConvert, (fun _ => 0), wAtL (wL wCroz (wE [wTile] [] []))
    (.vConvert wConvert), wL wCroz (wE [wTile] [] []), 0, wBch (wL wCroz (wE [wTile] [] [])) (.vConvert wConvert), gotMade (wL wCroz (wE
    [wTile] [] [])) (opVConvert wConvert (wBch (wL wCroz (wE [wTile] [] [])) (.vConvert wConvert))), wRun (wAtL (wL wCroz (wE [wTile] []
    [])) (.vConvert wConvert)), rfl, by decide +kernel, by decide +kernel⟩

theorem witness_StationsWaitOrFault_2 : ∃ (i : Instr) (p : Place) (body : DBody) (op : Bench → Work) (note : Bench → Nat) (c : Cmd) (l :
    ListSt) (k n0 n1 n2 q : Nat) (b : Bench) (s : State), stationRow i = some (p, body, op, note) ∧ AtStation p body s c l k b ∧ op b =
    .need n0 n1 n2 ∧ wanting (countNoted p c k (note b) b.entry s) c b n0 n1 n2 false = some q :=
  ⟨.vConvert ⟨5, wCroz⟩ wConvert, ⟨5, wCroz⟩, .vConvert wConvert, opVConvert wConvert, (fun _ => 0), wConvC [wTile], wList wCroz, 0, 1,
    0, 0, 0, benchOf (wConvS [wTile]) (wConvC [wTile]) (wList wCroz) 0, wConvS [wTile],
    rfl, by decide +kernel, by decide +kernel, by decide +kernel⟩

theorem witness_StationsWaitOrFault_3 : ∃ (i : Instr) (p : Place) (body : DBody) (op : Bench → Work) (note : Bench → Nat) (c : Cmd) (l :
    ListSt) (k n0 n1 n2 q : Nat) (b : Bench) (s : State), stationRow i = some (p, body, op, note) ∧ AtStation p body s c l k b ∧ op b =
    .need n0 n1 n2 ∧ wanting (countNoted p c k (note b) b.entry s) c b n0 n1 n2 false = none ∧ wanting (countNoted p c k (note b) b.entry
    s) c b n0 n1 n2 true = some q ∧ (b.in0.length < n0 → b.dry0 = false) ∧ (b.in1.length < n1 → b.dry1 = false) ∧ (b.in2.length < n2 →
    b.dry2 = false) :=
  ⟨.vConvert ⟨5, wCroz⟩ wConvert, ⟨5, wCroz⟩, .vConvert wConvert, opVConvert wConvert, (fun _ => 0),
    { wConvC [] with lists := [wList wCroz, wList wFront] }, wList wCroz, 0, 1, 0, 0, 0, benchOf (wRun
    { wConvC [] with lists := [wList wCroz, wList wFront] }) ({ wConvC [] with lists := [wList wCroz, wList wFront] }) (wList wCroz) 0,
    wRun { wConvC [] with lists := [wList wCroz, wList wFront] },
    rfl, by decide +kernel, by decide +kernel, by decide +kernel, by decide +kernel, by decide +kernel, by decide +kernel, by decide +kernel⟩

theorem witness_StationsWaitOrFault_4 : ∃ (i : Instr) (p : Place) (body : DBody) (op : Bench → Work) (note : Bench → Nat) (c : Cmd) (l :
    ListSt) (k n0 n1 n2 : Nat) (b : Bench) (s : State), stationRow i = some (p, body, op, note) ∧ AtStation p body s c l k b ∧ op b =
    .need n0 n1 n2 ∧ wanting (countNoted p c k (note b) b.entry s) c b n0 n1 n2 false = none ∧ ((b.in0.length < n0 ∧ b.dry0 = true) ∨
    (b.in1.length < n1 ∧ b.dry1 = true) ∨ (b.in2.length < n2 ∧ b.dry2 = true)) :=
  ⟨.vConvert ⟨5, wCroz⟩ wConvert, ⟨5, wCroz⟩, .vConvert wConvert, opVConvert wConvert, (fun _ => 0), wConvC [], wList wCroz, 0, 1, 0, 0,
    benchOf (wConvS []) (wConvC []) (wList wCroz) 0, wConvS [],
    rfl, by decide +kernel, by decide +kernel, by decide +kernel, by decide +kernel⟩

theorem witness_StationsWaitOrFault_5 : ∃ (i : Instr) (p : Place) (body : DBody) (op : Bench → Work) (note : Bench → Nat) (c : Cmd) (l :
    ListSt) (k cause : Nat) (b : Bench) (s : State), stationRow i = some (p, body, op, note) ∧ AtStation p body s c l k b ∧ op b = .fault
    cause :=
  ⟨.vConvert ⟨5, wCroz⟩ wConvert, ⟨5, wCroz⟩, .vConvert wConvert, opVConvert wConvert, (fun _ => 0), wAtL (wL wCroz (wE [wPtr] [] []))
    (.vConvert wConvert), wL wCroz (wE [wPtr] [] []), 0, 1, benchOf (wRun (wAtL (wL wCroz (wE [wPtr] [] [])) (.vConvert wConvert)))
    (wAtL (wL wCroz (wE [wPtr] [] [])) (.vConvert wConvert)) (wL wCroz (wE [wPtr] [] [])) 0, wRun (wAtL (wL wCroz (wE [wPtr] [] []))
    (.vConvert wConvert)), rfl, by decide +kernel, by decide +kernel⟩

theorem witness_StationsWaitOrFault_6 : ∃ (i : Instr) (p : Place) (body : DBody) (op : Bench → Work) (note : Bench → Nat) (c : Cmd) (l :
    ListSt) (k q : Nat) (s : State), stationRow i = some (p, body, op, note) ∧ atWork s p body = some (c, l, k) ∧ q ∈ (portsOf body).2 ∧
    portHolds c (q * 4096 + p.code) = true :=
  ⟨.vConvert ⟨5, wCroz⟩ wConvert, ⟨5, wCroz⟩, .vConvert wConvert, opVConvert wConvert, (fun _ => 0),
    { wAtL (wL wCroz (wE [wTile] [] [])) (.vConvert wConvert) with streams := [⟨⟨wCroz, wFront, 4, 0⟩, [], [wTile], 1⟩] }, wL wCroz (wE
    [wTile] [] []), 0, 0, wRun
    { wAtL (wL wCroz (wE [wTile] [] [])) (.vConvert wConvert) with streams := [⟨⟨wCroz, wFront, 4, 0⟩, [], [wTile], 1⟩] },
    rfl, by decide +kernel, by decide +kernel, by decide +kernel⟩

theorem witness_StationsWaitOrFault_7 : ∃ (i : Instr) (p : Place) (body : DBody) (op : Bench → Work) (note : Bench → Nat) (s : State),
    stationRow i = some (p, body, op, note) ∧ atWork s p body = none :=
  ⟨.vConvert ⟨5, wCroz⟩ wConvert, ⟨5, wCroz⟩, .vConvert wConvert, opVConvert wConvert, (fun _ => 0), w0, rfl, by decide +kernel⟩

theorem witness_StationsWaitOrFault_8 : ∃ (i : Instr) (p : Place) (body : DBody) (op : Bench → Work) (note : Bench → Nat) (s t : State),
    stationRow i = some (p, body, op, note) ∧ (∀ f, body ≠ .gSort f) ∧ (∀ f, body ≠ .gScatter f) ∧ exec i s = .next t :=
  ⟨.vConvert ⟨5, wCroz⟩ wConvert, ⟨5, wCroz⟩, .vConvert wConvert, opVConvert wConvert, (fun _ => 0), w0, w0, rfl, by simp, by simp, rfl⟩

theorem witness_StationsWaitOrFault_9 : ∃ (c : Cmd) (e : StreamSt) (l : ListSt), c.list (e.spec.producer % 4096) = some l :=
  ⟨wConvC [], wFeed wCroz 0 0 [], { wList wFront with completed := 1, queue := [] }, by decide +kernel⟩

theorem witness_StationsWaitOrFault_10 : ∃ (id code : Nat) (c : Cmd) (s : State), s.cmd id = some c ∧ c.phase = .running ∧
    listsDone c = true ∧ s.fab.accesses.any (fun a => a.cmd = id) = false ∧ (leftover c).or (neverCarried c) = some code :=
  ⟨5, wFront, { wOver with streams := [⟨⟨wZeph, wFront, 4, 1⟩, [wTile], [], 1⟩] }, wRun
    { wOver with streams := [⟨⟨wZeph, wFront, 4, 1⟩, [wTile], [], 1⟩] }, by decide +kernel⟩

theorem witness_StationsWaitOrFault_11 : ∃ (p : Place) (c : Cmd) (l : ListSt) (k : Nat) (e : QEntry) (d : Desc) (x : StreamSt) (s :
    State), s.cmd p.cmd = some c ∧ c.list p.code = some l ∧ c.phase = .running ∧ completing s c l = some k ∧ l.queue[k]? = some e ∧
    c.image.descs[e.index]? = some d ∧ d.signal = false ∧ l.completed + 1 = l.count ∧ x ∈ c.streams ∧ x.spec.producer % 4096 = p.code ∧
    x.spec.tiles ≠ 0 ∧ x.carried ≠ x.spec.tiles :=
  ⟨wAt, { wCmd wFront .sSync with lists := [{ wList wFront with queue := [wDone] }], streams := [⟨⟨wFront, wCroz, 4, 1⟩, [], [], 0⟩] },
    { wList wFront with queue := [wDone] }, 0, wDone, wDesc .sSync, ⟨⟨wFront, wCroz, 4, 1⟩, [], [], 0⟩, wRun
    { wCmd wFront .sSync with lists := [{ wList wFront with queue := [wDone] }], streams := [⟨⟨wFront, wCroz, 4, 1⟩, [], [], 0⟩] },
    by decide +kernel⟩

theorem witness_StationsWaitOrFault_12 : ∃ (id cause code : Nat) (desc : Option Nat) (c : Cmd) (s : State), s.cmd id = some c ∧
    c.phase = .running ∧ c.ctx ≠ 0 :=
  ⟨5, 1, wFront, none, wOver, wRun wOver, by decide +kernel⟩

theorem witness_StationsWaitOrFault_13 : ∃ (id : Nat) (c : Cmd) (s : State), s.cmd id = some c ∧ c.phase = .running :=
  ⟨5, wCmd wFront .sSync, wRun (wCmd wFront .sSync), by decide +kernel⟩

/-! ### TierMovers -/

theorem witness_TierMovers_1 : ∃ (p : Place) (f : TMoveF) (c : Cmd) (l : ListSt) (k : Nat) (src dst : List (Nat × Nat)) (s : State),
    atWork s p (.tMove f) = some (c, l, k) ∧ localRuns s c f.src f.srcOffset f.bytes = some src ∧ localRuns s c f.dst f.dstOffset f.bytes
    = some dst ∧ (∀ x ∈ src, s.badAt x.1 x.2 = false) :=
  ⟨⟨5, wMover⟩, wTMove, wCmd wMover (.tMove wTMove), wList wMover, 0, [(0, 256)], [(0x10000, 256)], wRun (wCmd wMover (.tMove wTMove)),
    by decide +kernel⟩

theorem witness_TierMovers_2 : ∃ (p : Place) (f : TMoveF) (c : Cmd) (l : ListSt) (k : Nat) (dst : List (Nat × Nat)) (s : State), atWork s
    p (.tFill f) = some (c, l, k) ∧ localRuns s c f.dst f.dstOffset f.bytes = some dst :=
  ⟨⟨5, wMover⟩, wTMove, wCmd wMover (.tFill wTMove), wList wMover, 0, [(0x10000, 256)], wRun (wCmd wMover (.tFill wTMove)),
    by decide +kernel⟩

theorem witness_TierMovers_3 : ∃ (p : Place) (f : TMoveF) (c : Cmd) (l : ListSt) (k : Nat) (s : State), atWork s p (.tMove f) = some (c,
    l, k) ∧ (localRuns s c f.src f.srcOffset f.bytes = none ∨ localRuns s c f.dst f.dstOffset f.bytes = none) :=
  ⟨⟨5, wMover⟩, { wTMove with dstOffset := 0x1FFF01 }, wCmd wMover (.tMove { wTMove with dstOffset := 0x1FFF01 }), wList wMover, 0, wRun
    (wCmd wMover (.tMove { wTMove with dstOffset := 0x1FFF01 })), by decide +kernel⟩

theorem witness_TierMovers_4 : ∃ (p : Place) (f : TMoveF) (c : Cmd) (l : ListSt) (k : Nat) (s : State), atWork s p (.tFill f) = some (c,
    l, k) ∧ localRuns s c f.dst f.dstOffset f.bytes = none :=
  ⟨⟨5, wMover⟩, { wTMove with dstOffset := 0x1FFF01 }, wCmd wMover (.tFill { wTMove with dstOffset := 0x1FFF01 }), wList wMover, 0, wRun
    (wCmd wMover (.tFill { wTMove with dstOffset := 0x1FFF01 })), by decide +kernel⟩

theorem witness_TierMovers_5 : ∃ (p : Place) (f : TMoveF) (c : Cmd) (l : ListSt) (k : Nat) (src dst : List (Nat × Nat)) (s : State),
    atWork s p (.tMove f) = some (c, l, k) ∧ localRuns s c f.src f.srcOffset f.bytes = some src ∧ localRuns s c f.dst f.dstOffset f.bytes
    = some dst ∧ (∃ x ∈ src, s.badAt x.1 x.2 = true) :=
  ⟨⟨5, wMover⟩, wTMove, wCmd wMover (.tMove wTMove), wList wMover, 0, [(0, 256)], [(0x10000, 256)],
    { wRun (wCmd wMover (.tMove wTMove)) with mem := { w0.mem with bad := [0] } }, by decide +kernel⟩

theorem witness_TierMovers_6 : ∃ (a : Nat) (bs : List Byte) (s : State), blockedUnits s a bs.length = [] ∧ s.mem.wf = true :=
  ⟨0x10000, [1#8], w0, by decide +kernel⟩

/-! ### FrontDescriptors -/

theorem witness_FrontDescriptors_1 : ∃ (p : Place) (c : Cmd) (l : ListSt) (k : Nat) (s : State), atWork s p .sSync = some (c, l, k) :=
  ⟨wAt, wCmd wFront .sSync, wList wFront, 0, wRun (wCmd wFront .sSync), by decide +kernel⟩

theorem witness_FrontDescriptors_10 : ∃ (p : Place) (f : XferF) (c : Cmd) (l : ListSt) (k : Nat) (x : Tile) (xs : List Tile) (ended :
    Bool) (s u : State), atWork s p (.sStore f) = some (c, l, k) ∧ inputOf s c (f.channel * 4096 + p.code) = (x :: xs, ended) ∧ storeImage
    c p f (l.entry k).index (l.entry k).step x (takeFrom c.id (f.channel * 4096 + p.code) 1 s) = .ok u :=
  ⟨wAt, ⟨0, false, 0, 1, 0, 0⟩, wStoreC 1, wList wFront, 0, wTile, [], false, wRun (wStoreC 1), gotMoved (storeImage (wStoreC 1) wAt ⟨0,
    false, 0, 1, 0, 0⟩ 0 0 wTile (takeFrom 5 wFront 1 (wRun (wStoreC 1)))), by decide +kernel⟩

theorem witness_FrontDescriptors_11 : ∃ (p : Place) (f : XferF) (c : Cmd) (l : ListSt) (k : Nat) (s : State), atWork s p (.sStore f) =
    some (c, l, k) ∧ inputOf s c (f.channel * 4096 + p.code) = ([], true) :=
  ⟨wAt, ⟨0, false, 0, 1, 0, 0⟩, { wStoreC 1 with streams := [] }, wList wFront, 0, wRun { wStoreC 1 with streams := [] },
    by decide +kernel⟩

theorem witness_FrontDescriptors_12 : ∃ (p : Place) (f : XferF) (c : Cmd) (l : ListSt) (k : Nat) (s : State), atWork s p (.sStore f) =
    some (c, l, k) ∧ inputOf s c (f.channel * 4096 + p.code) = ([], false) :=
  ⟨wAt, ⟨0, false, 0, 1, 0, 0⟩,
    { wStoreC 1 with lists := [wList wFront, wList wZeph], streams := [⟨⟨wZeph, wFront, 4, 1⟩, [], [], 0⟩] }, wList wFront, 0, wRun
    { wStoreC 1 with lists := [wList wFront, wList wZeph], streams := [⟨⟨wZeph, wFront, 4, 1⟩, [], [], 0⟩] }, by decide +kernel⟩

theorem witness_FrontDescriptors_2 : ∃ (p : Place) (k : Nat) (c : Cmd) (l : ListSt) (e : QEntry) (d : Desc) (s : State), s.cmd p.cmd =
    some c ∧ c.list p.code = some l ∧ l.queue[k]? = some e ∧ c.image.descs[e.index]? = some d ∧ (d.signal = true → c.events.getD d.event 0
    < 0xFFFFFFFF) ∧ l.completed + 1 ≠ l.count :=
  ⟨wAt, 0, { wCmd wFront .sSync with lists := [{ wList wFront with count := 2 }] }, { wList wFront with count := 2 }, QEntry.new 0,
    wDesc .sSync, wRun { wCmd wFront .sSync with lists := [{ wList wFront with count := 2 }] }, by decide +kernel⟩

theorem witness_FrontDescriptors_3 : ∃ (p : Place) (absolute : Bool) (beat : Nat) (c : Cmd) (l : ListSt) (k : Nat) (s : State), atWork s p
    (.sBeat absolute beat) = some (c, l, k) :=
  ⟨wAt, false, 4, wCmd wFront (.sBeat false 4), wList wFront, 0, wRun (wCmd wFront (.sBeat false 4)), by decide +kernel⟩

theorem witness_FrontDescriptors_4 : ∃ (p : Place) (f : HintF) (c : Cmd) (l : ListSt) (k : Nat) (s : State), atWork s p (.hint f) = some
    (c, l, k) :=
  ⟨wAt, ⟨1, 1, 4, 8, 2⟩, wCmd wFront (.hint ⟨1, 1, 4, 8, 2⟩), wList wFront, 0, wRun (wCmd wFront (.hint ⟨1, 1, 4, 8, 2⟩)),
    by decide +kernel⟩

theorem witness_FrontDescriptors_5 : ∃ (p : Place) (f : XferF) (c : Cmd) (l : ListSt) (k base off : Nat) (h : Handle) (s u : State),
    atWork s p (.sFetch f) = some (c, l, k) ∧ portHolds c (f.channel * 4096 + p.code) = false ∧ slotHandle s c f.handle = some (h, base) ∧
    h.kind = 0 ∧ f.cache = false ∧ off = f.offset + (l.entry k).step * (if f.stride = 0 then imageBytes else f.stride) ∧ off + imageBytes
    ≤ h.bytes ∧ u = (if (l.entry k).step = 0 then lateStall c.ctx h.tier s else s) ∧ slotHandle u c f.handle = some (h, base) ∧ u.badAt
    (base + off) fetchBytes = false :=
  ⟨wAt, wFetch, wCmd wFront (.sFetch wFetch), wList wFront, 0, 0, 0, wHandle, wRun (wCmd wFront (.sFetch wFetch)), lateStall 1 0 (wRun
    (wCmd wFront (.sFetch wFetch))),
    by decide +kernel, by decide +kernel, by decide +kernel, by decide +kernel, by decide +kernel, by decide +kernel, by decide +kernel, rfl, rfl, rfl⟩

theorem witness_FrontDescriptors_6 : ∃ (p : Place) (f : XferF) (c : Cmd) (l : ListSt) (k tier : Nat) (s t u : State), atWork s p (.sFetch
    f) = some (c, l, k) ∧ portHolds c (f.channel * 4096 + p.code) = false ∧ tier = ((slotHandle s c f.handle).map fun h => if h.1.kind = 0
    then h.1.tier else 0).getD 0 ∧ t = (if (l.entry k).step = 0 then lateStall c.ctx tier s else s) ∧ fetchImage c p f (l.entry k).index
    (l.entry k).step t = .ok u :=
  ⟨wAt, wFetch, wCmd wFront (.sFetch wFetch), wList wFront, 0, 0, wRun (wCmd wFront (.sFetch wFetch)), lateStall 1 0 (wRun (wCmd wFront
    (.sFetch wFetch))), gotMoved (fetchImage (wCmd wFront (.sFetch wFetch)) wAt wFetch 0 0 (lateStall 1 0 (wRun (wCmd wFront (.sFetch
    wFetch))))), by decide +kernel, by decide +kernel, by decide +kernel, rfl, wMoved_ok _ (by decide +kernel)⟩

theorem witness_FrontDescriptors_7 : ∃ (p : Place) (f : XferF) (c : Cmd) (l : ListSt) (k tier cause : Nat) (s t : State), atWork s p
    (.sFetch f) = some (c, l, k) ∧ portHolds c (f.channel * 4096 + p.code) = false ∧ tier = ((slotHandle s c f.handle).map fun h => if
    h.1.kind = 0 then h.1.tier else 0).getD 0 ∧ t = (if (l.entry k).step = 0 then lateStall c.ctx tier s else s) ∧ fetchImage c p f
    (l.entry k).index (l.entry k).step t = .bad cause :=
  ⟨wAt, { wFetch with offset := 0x1FFFFF }, wCmd wFront (.sFetch { wFetch with offset := 0x1FFFFF }), wList wFront, 0, 0, 2, wRun (wCmd
    wFront (.sFetch { wFetch with offset := 0x1FFFFF })), lateStall 1 0 (wRun (wCmd wFront (.sFetch
    { wFetch with offset := 0x1FFFFF }))), by decide +kernel, by decide +kernel, by decide +kernel, rfl, by decide +kernel⟩

theorem witness_FrontDescriptors_8 : ∃ (p : Place) (f : XferF) (c : Cmd) (l : ListSt) (k : Nat) (s : State), atWork s p (.sFetch f) = some
    (c, l, k) ∧ portHolds c (f.channel * 4096 + p.code) = true :=
  ⟨wAt, wFetch, { wCmd wFront (.sFetch wFetch) with streams := [⟨⟨wFront, wCroz, 4, 0⟩, [], [wTile], 1⟩] }, wList wFront, 0, wRun
    { wCmd wFront (.sFetch wFetch) with streams := [⟨⟨wFront, wCroz, 4, 0⟩, [], [wTile], 1⟩] }, by decide +kernel⟩

theorem witness_FrontDescriptors_9 : ∃ (p : Place) (f : XferF) (c : Cmd) (l : ListSt) (k base off : Nat) (h : Handle) (x : Tile) (xs :
    List Tile) (ended : Bool) (s u : State), atWork s p (.sStore f) = some (c, l, k) ∧ inputOf s c (f.channel * 4096 + p.code) = (x :: xs,
    ended) ∧ u = takeFrom c.id (f.channel * 4096 + p.code) 1 s ∧ slotHandle u c f.handle = some (h, base) ∧ h.kind = 0 ∧ off = f.offset +
    (l.entry k).step * (if f.stride = 0 then imageBytes else f.stride) ∧ off + x.image.length ≤ h.bytes :=
  ⟨wAt, ⟨0, false, 0, 1, 0, 0⟩, wStoreC 1, wList wFront, 0, 0, 0, wHandle, wTile, [], false, wRun (wStoreC 1), takeFrom 5 wFront 1 (wRun
    (wStoreC 1)), by decide +kernel⟩

theorem witness_FrontDescriptors_13 : ∃ (p : Place) (c : Cmd) (l : ListSt) (k : Nat) (d : Desc) (s : State), atWork s p .sSync = some (c, l,
    k) ∧ c.image.descs[(l.entry k).index]? = some d ∧ d.signal = false ∧ l.completed + 1 ≠ l.count :=
  ⟨wAt, { wCmd wFront .sSync with lists := [{ wList wFront with count := 2 }] }, { wList wFront with count := 2 }, 0, wDesc .sSync, wRun
    { wCmd wFront .sSync with lists := [{ wList wFront with count := 2 }] }, by decide +kernel⟩

/-! ### FabricEngineDescriptors -/

theorem witness_FabricEngineDescriptors_1 : ∃ (p : Place) (f : ZCopyF) (c : Cmd) (l : ListSt) (k : Nat) (s t : State), zWork s p (.zCopy
    f) f.order = some (c, l, k) ∧ f.counter = none ∧ copyMove c (originOf c l k) f (zAddr c f.aslot f.remote) s = .ok t :=
  ⟨⟨5, wZeph⟩, wPut1, wCmd wZeph (.zCopy wPut1), wList wZeph, 0, wRun (wCmd wZeph (.zCopy wPut1)), gotMoved (copyMove (wCmd wZeph
    (.zCopy wPut1)) (originOf (wCmd wZeph (.zCopy wPut1)) (wList wZeph) 0) wPut1 (zAddr (wCmd wZeph (.zCopy wPut1)) wPut1.aslot
    wPut1.remote) (wRun (wCmd wZeph (.zCopy wPut1)))), by decide +kernel⟩

theorem witness_FabricEngineDescriptors_2 : ∃ (p : Place) (f : ZCopyF) (c : Cmd) (l : ListSt) (k n home : Nat) (s t : State), zWork s p
    (.zCopy f) f.order = some (c, l, k) ∧ f.counter = some n ∧ home = bumpHome s f (zAddr c f.aslot f.remote) ∧ home = s.boot.pkg ∧
    ownsCounter s c n true = true ∧ copyMove c (originOf c l k) f (zAddr c f.aslot f.remote) s = .ok t ∧ (∀ x ∈ t.fab.accesses, ¬ (x.cmd =
    c.id ∧ s.fab.nextAccess ≤ x.id)) ∧ t.boot = s.boot :=
  ⟨⟨5, wZeph⟩, wPut2, wCmd wZeph (.zCopy wPut2), wList wZeph, 0, 2, 0, wRun2 (wCmd wZeph (.zCopy wPut2)), gotMoved (copyMove (wCmd wZeph
    (.zCopy wPut2)) (originOf (wCmd wZeph (.zCopy wPut2)) (wList wZeph) 0) wPut2 (zAddr (wCmd wZeph (.zCopy wPut2)) wPut2.aslot
    wPut2.remote) (wRun2 (wCmd wZeph (.zCopy wPut2)))), by decide +kernel⟩

theorem witness_FabricEngineDescriptors_3 : ∃ (p : Place) (f : ZWaitF) (c : Cmd) (l : ListSt) (k : Nat) (s : State), zWork s p (.zWait f)
    f.order = some (c, l, k) ∧ ownsCounter s c f.counter false = true :=
  ⟨⟨5, wZeph⟩, ⟨wOrder, 2, 1⟩, wCmd wZeph (.zWait ⟨wOrder, 2, 1⟩), wList wZeph, 0, wRun2 (wCmd wZeph (.zWait ⟨wOrder, 2, 1⟩)),
    by decide +kernel⟩

theorem witness_FabricEngineDescriptors_4 : ∃ (p : Place) (f : ZAtomicF) (c : Cmd) (l : ListSt) (k : Nat) (bs : List Byte) (s t u :
    State), zWork s p (.zAtomic f) f.order = some (c, l, k) ∧ bufferOf s p = some bs ∧ awaitingDesc s c.id (l.entry k).index = false ∧
    eachMove (issueAtomic c (originOf c l k) f) ((List.range f.count).map fun j => (j, atomicEntry bs j)) (dropBuffer p s) = (.ok t, u) :=
  ⟨⟨5, wZeph⟩, wAtomic, wBuf wZeph (.zAtomic wAtomic) wAtomBytes, { wList wZeph with buf := some wAtomBytes }, 0, wAtomBytes, wRun2
    (wBuf wZeph (.zAtomic wAtomic) wAtomBytes), gotMoved (eachMove (issueAtomic (wBuf wZeph (.zAtomic wAtomic) wAtomBytes) (originOf
    (wBuf wZeph (.zAtomic wAtomic) wAtomBytes) ({ wList wZeph with buf := some wAtomBytes }) 0) wAtomic) ((List.range 1).map fun j =>
    (j, atomicEntry wAtomBytes j)) (dropBuffer ⟨5, wZeph⟩ (wRun2 (wBuf wZeph (.zAtomic wAtomic) wAtomBytes)))).1, (eachMove (issueAtomic
    (wBuf wZeph (.zAtomic wAtomic) wAtomBytes) (originOf (wBuf wZeph (.zAtomic wAtomic) wAtomBytes)
    ({ wList wZeph with buf := some wAtomBytes }) 0) wAtomic) ((List.range 1).map fun j => (j, atomicEntry wAtomBytes j)) (dropBuffer
    ⟨5, wZeph⟩ (wRun2 (wBuf wZeph (.zAtomic wAtomic) wAtomBytes)))).2, by decide +kernel⟩

theorem witness_FabricEngineDescriptors_5 : ∃ (p : Place) (f : ZInvalF) (c : Cmd) (l : ListSt) (k : Nat) (s u : State), zWork s p (.zInval
    f) f.order = some (c, l, k) ∧ u = invalidate (jobOf s c.id) (zAddr c f.aslot f.addr) f.bytes s ∧ (f.jobScope = true → ∀ m ∈ jobMembers
    u c, m ≠ u.boot.pkg → homeUp u m = true) :=
  ⟨⟨5, wZeph⟩, ⟨wOrder, false, 0xFF, 0x1000, 256⟩, wCmd wZeph (.zInval ⟨wOrder, false, 0xFF, 0x1000, 256⟩), wList wZeph, 0, wRun (wCmd
    wZeph (.zInval ⟨wOrder, false, 0xFF, 0x1000, 256⟩)), invalidate (jobOf (wRun (wCmd wZeph (.zInval ⟨wOrder, false, 0xFF, 0x1000,
    256⟩))) 5) (zAddr (wCmd wZeph (.zInval ⟨wOrder, false, 0xFF, 0x1000, 256⟩)) 0xFF 0x1000) 256 (wRun (wCmd wZeph (.zInval ⟨wOrder,
    false, 0xFF, 0x1000, 256⟩))), by decide +kernel⟩

theorem witness_FabricEngineDescriptors_6 : ∃ (p : Place) (f : ZReduceF) (arr : List Contribution) (c : Cmd) (l : ListSt) (k : Nat) (fi fo
    : Fmt) (bs : List Byte) (s t : State), zWork s p (.zReduce f) f.order = some (c, l, k) ∧ reduceMembers s c f = some [s.boot.pkg] ∧
    Fmt.ofCode f.inFormat = some fi ∧ Fmt.ofCode f.outFormat = some fo ∧ s.beat.clkHold = false ∧ l.wait = none ∧ bufferOf s p = some bs ∧
    awaitingDesc s c.id (l.entry k).index = false ∧ slotWrite c (originOf c l k) f.dst f.dstOffset (reduceAll f fi fo [bs.take (f.elements
    * (fi.bits / 8))]).1 (startWait p s) = .ok t :=
  ⟨⟨5, wZeph⟩, wReduce, [], wBuf wZeph (.zReduce wReduce) (leBytes 32 0), { wList wZeph with buf := some (leBytes 32 0) }, 0, .fp32,
    .fp32, leBytes 32 0, wRun2 (wBuf wZeph (.zReduce wReduce) (leBytes 32 0)), gotMoved (slotWrite (wBuf wZeph (.zReduce wReduce)
    (leBytes 32 0)) (originOf (wBuf wZeph (.zReduce wReduce) (leBytes 32 0)) ({ wList wZeph with buf := some (leBytes 32 0) }) 0) 0
    0x100 (reduceAll wReduce .fp32 .fp32 [leBytes 32 0]).1 (startWait ⟨5, wZeph⟩ (wRun2 (wBuf wZeph (.zReduce wReduce) (leBytes 32
    0))))), by decide +kernel⟩

theorem witness_FabricEngineDescriptors_7 : ∃ (p : Place) (f : ZTxnF) (c : Cmd) (l : ListSt) (k base home : Nat) (h : Handle) (bs : List
    Byte) (s : State), zWork s p (.zTxn f) f.order = some (c, l, k) ∧ bufferOf s p = some bs ∧ awaitingDesc s c.id (l.entry k).index =
    false ∧ ((txnAddrs f (txnEntries c f bs)).map (homeOfAddr (dropBuffer p s))).eraseDups = [some home] ∧ home ≠ s.boot.pkg ∧ homeUp s
    home = true ∧ slotHandle s c f.res = some (h, base) ∧ h.kind = 0 ∧ f.resOffset + 8 ≤ h.bytes :=
  ⟨⟨5, wZeph⟩, wTxnF, wBuf wZeph (.zTxn wTxnF) wTxnBytes, { wList wZeph with buf := some wTxnBytes }, 0, 0, 1, wHandle, wTxnBytes, wRun2
    (wBuf wZeph (.zTxn wTxnF) wTxnBytes), by decide +kernel⟩

theorem witness_FabricEngineDescriptors_8 : ∃ (p : Place) (f : ZXchgF) (c : Cmd) (l : ListSt) (k : Nat) (m : Model) (y : Layer) (t :
    InstTable) (b : XBatch) (bs : List Byte) (s : State), zWork s p (.zXchg f) f.order = some (c, l, k) ∧ modelAt s f.model = some m ∧
    m.manifest.layers[f.layer]? = some y ∧ tableFor m c = some t ∧ y.experts ≠ 0 ∧ f.role = 2 ∧ bufferOf s p = some bs ∧ awaitingDesc s
    c.id (l.entry k).index = false ∧ s.fab.batches.find? (fun b => b.cmd = c.id && b.model = m.id && b.layer = f.layer && b.half = f.half
    && b.lslot = f.lslot && b.round = f.round) = some b ∧ b.rows = [] :=
  ⟨⟨5, wZeph⟩, wXchg, wBuf wZeph (.zXchg wXchg) [], { wList wZeph with buf := some [] }, 0, wMoe,
    { wLayer with experts := 1, topk := 1 }, wTable, wBatch, [], wXchgRun, by decide +kernel⟩

/-! ### RemoteAccesses -/

theorem witness_RemoteAccesses_1 : ∃ (r : FabReq) (n : Nat) (s : State), (s.now + 1024 - r.issueLow % 1024) % 1024 < 512 ∧
    s.fab.heldIn = [] ∧ r.seq = seqFor s.fab.seqIn r.pkg r.agent ∧ r.kind = .load n :=
  ⟨⟨1, 1, 9, 1, seqFor w0.fab.seqIn 1 1, 273, false, 0, .load 32⟩, 32, w0, by decide +kernel⟩

theorem witness_RemoteAccesses_2 : ∃ (r : FabReq) (d : List Byte) (a : Nat) (s : State), (s.now + 1024 - r.issueLow % 1024) % 1024 <
    512 ∧ s.fab.heldIn = [] ∧ r.seq = seqFor s.fab.seqIn r.pkg r.agent ∧ r.kind = .store d ∧ localOf s r.addr = some a ∧ r.addr % 32 = 0 ∧
    d.length % 32 = 0 ∧ (homeHandle s r.job a d.length true).isSome = true ∧ blockedUnits s a d.length = [] ∧ s.mem.wf = true :=
  ⟨⟨1, 1, 9, 1, seqFor w0.fab.seqIn 1 1, 273, false, 0, .store (leBytes 32 7)⟩, leBytes 32 7, 0,
    { w0 with mem := { w0.mem with handles := [{ wHandle with rights := 11 }] } }, by decide +kernel⟩

theorem witness_RemoteAccesses_3 : ∃ (r : FabReq) (op operand compare v a : Nat) (s : State), (s.now + 1024 - r.issueLow % 1024) %
    1024 < 512 ∧ s.fab.heldIn = [] ∧ r.seq = seqFor s.fab.seqIn r.pkg r.agent ∧ r.kind = .atomic op operand compare ∧ localOf s r.addr =
    some a ∧ r.addr % 8 = 0 ∧ (homeHandle s r.job a 8 true).isSome = true ∧ s.badAt a 8 = false ∧ blockedUnits s a 8 = [] ∧ s.mem.wf =
    true ∧ atomicNew op (leNat (s.mem.read a 8)) operand compare = some v :=
  ⟨⟨1, 1, 9, 1, 0, 273, false, 0, .atomic 0 3 0⟩, 0, 3, 0, 3, 0,
    { w0 with mem := { w0.mem with handles := [{ wHandle with rights := 11 }] } }, by decide +kernel⟩

theorem witness_RemoteAccesses_4 : ∃ (r : FabReq) (s : State), 512 ≤ (s.now + 1024 - r.issueLow % 1024) % 1024 ∧ r.seq ≠ seqFor
    s.fab.seqIn r.pkg r.agent :=
  ⟨⟨1, 1, 9, 1, 2, 272, false, 0, .load 32⟩, w0, by decide +kernel⟩

theorem witness_RemoteAccesses_5 : ∃ (r : FabReq) (s : State), 512 ≤ (s.now + 1024 - r.issueLow % 1024) % 1024 ∧ r.seq = seqFor
    s.fab.seqIn r.pkg r.agent ∧ s.fab.heldIn = [] :=
  ⟨⟨1, 1, 9, 1, 0, 272, false, 0, .load 32⟩, w0, by decide +kernel⟩

theorem witness_RemoteAccesses_6 : ∃ (r : FabReq) (s : State), (s.now + 1024 - r.issueLow % 1024) % 1024 < 512 ∧ r.seq < seqFor
    s.fab.seqIn r.pkg r.agent :=
  ⟨⟨1, 1, 9, 1, 2, 273, false, 0, .load 32⟩, { w0 with fab := { w0.fab with seqIn := [(1, 1, 3)] } }, by decide +kernel⟩

theorem witness_RemoteAccesses_7 : ∃ (r : FabResp) (x : Access) (a : Nat) (s : State), s.fab.accesses.find? (fun x => x.id =
    r.access) = some x ∧ r.ok = true ∧ r.cacheable = false ∧ x.sink = .memory a ∧ x.bump = none :=
  ⟨⟨3, true, false, false, [0#8]⟩, wAcc, 64, wFab [wAcc], by decide +kernel⟩

theorem witness_RemoteAccesses_8 : ∃ (r : FabResp) (x : Access) (s : State), s.fab.accesses.find? (fun x => x.id = r.access) =
    some x ∧ r.ok = false :=
  ⟨⟨3, false, false, false, []⟩, wAcc, wFab [wAcc], by decide +kernel⟩

theorem witness_RemoteAccesses_9 : ∃ (n : Nat) (x : Access) (s : State), s.fab.accesses.find? (fun x => x.id = n) = some x ∧
    x.issued + s.fab.timeout ≤ s.beat.elapsed :=
  ⟨3, wAcc, wLate (wFab [wAcc]), by decide +kernel⟩

theorem witness_RemoteAccesses_10 : ∃ (n : Nat) (x : Access) (s : State), x ∈ s.fab.accesses ∧ x.id = n ∧ x.aged = false ∧ x.held =
    false ∧ x.issued + 512 ≤ s.beat.elapsed :=
  ⟨3, { wAcc with issued := 9488 }, wFab [{ wAcc with issued := 9488 }], by decide +kernel⟩

/-! ### ExchangeAndTransit -/

theorem witness_ExchangeAndTransit_2 : ∃ (r : XRow) (g : CountRec) (u : Option Nat) (s : State), r.toReturn = false ∧
    latestCounts s r.pkg r.job r.model r.layer r.half = some (g, u) ∧ (tagOf r.tag).gen = g.gen :=
  ⟨⟨1, 9, 5, 0, 0, false, 0, 1, 0, 0, 1, 8, 64, 0#32, [], [], false⟩, ⟨1, 9, 5, 0, 0, 0, false, [(0, 1, 1)]⟩, none,
    { w0 with fab := { w0.fab with counts := [(⟨1, 9, 5, 0, 0, 0, false, [(0, 1, 1)]⟩, none)] } }, by decide +kernel⟩

theorem witness_ExchangeAndTransit_3 : ∃ (r : XRow) (g : CountRec) (u : Option Nat) (s : State), r.toReturn = false ∧
    latestCounts s r.pkg r.job r.model r.layer r.half = some (g, u) ∧ (tagOf r.tag).gen ≠ g.gen :=
  ⟨⟨1, 9, 5, 0, 0, false, 0, 1, 0, 0, 1, 8, 64, 0#32, [], [], false⟩, ⟨1, 9, 5, 0, 0, 1, false, [(0, 1, 1)]⟩, none,
    { w0 with fab := { w0.fab with counts := [(⟨1, 9, 5, 0, 0, 1, false, [(0, 1, 1)]⟩, none)] } }, by decide +kernel⟩

theorem witness_ExchangeAndTransit_4 : ∃ (x : StagedTxn) (s : State), s.fab.txns = [x] ∧ beatLe x.beat s.now = true ∧ x.pkg ≠
    s.boot.pkg ∧ (∃ y ∈ txnLines s x.entries, y.2.1 = true ∧ maskInto y.2.2.1 (s.mem.read y.1 256) y.2.2.2 ≠ s.mem.read y.1 256) :=
  ⟨⟨1, 1, 0, 9, 10000, leBytes 8 0x200000 ++ leBytes 8 1 ++ leBytes 32 1 ++ leBytes 256 5, some 0⟩,
    { w0 with fab := { w0.fab with txns := [⟨1, 1, 0, 9, 10000, leBytes 8 0x200000 ++ leBytes 8 1 ++ leBytes 32 1 ++ leBytes 256 5, some 0⟩] } },
    by refine ⟨by decide +kernel, by decide +kernel, by decide +kernel, (0x200000, true, 1, leBytes 256 5), ?_⟩; decide +kernel⟩

theorem witness_ExchangeAndTransit_5 : ∃ (s : State), (∀ x ∈ s.fab.txns, beatLe x.beat s.now = false) :=
  ⟨{ w0 with fab := { w0.fab with txns := [⟨1, 1, 0, 9, 10001, [], none⟩] } }, by decide +kernel⟩

theorem witness_ExchangeAndTransit_6 : ∃ (p : TransitP) (port : Nat) (x : Link) (s : State), p.dest ≠ s.boot.pkg ∧ p.channel < 15 ∧
    p.channel % 5 ≠ 4 ∧ (s.now + 1024 - p.issueLow % 1024) % 1024 < 512 ∧ egressOf s p.src p.dest p.addr = some port ∧ s.link port = some
    x :=
  ⟨⟨3, 2, 1, 0x1000, 64, 273⟩, 0, wLink 0 4, wPort (wLink 0 4), by decide +kernel⟩

theorem witness_ExchangeAndTransit_7 : ∃ (p : TransitP) (s : State), p.dest ≠ s.boot.pkg ∧ p.channel < 15 ∧ p.channel % 5 ≠ 4 ∧ 512 ≤
    (s.now + 1024 - p.issueLow % 1024) % 1024 :=
  ⟨⟨3, 2, 1, 0, 64, 272⟩, wPort (wLink 0 4), by decide +kernel⟩

/-! ### BarriersAndSnapshots -/

theorem witness_BarriersAndSnapshots_1 : ∃ (h : Hdr) (id timeout members : Nat) (e : Session) (s : State), Served (.barrier h id timeout
    members) h ⟨0x0504, roleJobs, featFabric⟩ e s ∧ s.boot.pkg ∈ membersOf members ∧ (timeout = 0 ∨ (1000 ≤ timeout ∧ timeout ≤ 10000000))
    ∧ s.op id = none ∧ s.fab.ops.length < 64 ∧ s.beat.clkHold = false ∧ (∀ m ∈ membersOf members, m ∉ s.fab.unreachable) :=
  ⟨wHdr, 9, 10000000, 1, wSess, w0, by decide +kernel⟩

theorem witness_BarriersAndSnapshots_2 : ∃ (id : Nat) (ms fresh : List Nat) (o : GlobalOp) (s : State), s.op id = some o ∧ o.coord =
    s.boot.pkg ∧ o.completeAt = none ∧ s.beat.clkHold = false ∧ (∀ m ∈ o.members, m ∈ o.arrived ++ fresh) :=
  ⟨9, [0], [0], wOp 0, wOps (wOp 0), by decide +kernel⟩

theorem witness_BarriersAndSnapshots_3 : ∃ (id i : Nat) (ms fresh : List Nat) (p : BcastPart) (data : List Byte) (o : GlobalOp) (s : State),
    s.op id = some o ∧ s.beat.clkHold = false ∧ s.boot.pkg ∈ ms ∧ p.root ≠ s.boot.pkg ∧ p.piece = some (i, data) ∧ s.mem.wf = true :=
  ⟨9, 1, [0, 1], [], ⟨1, 70000, 0x10000, some (1, [7#8])⟩, [7#8], wOp 1, wOps (wOp 1), by decide +kernel⟩

theorem witness_BarriersAndSnapshots_4 : ∃ (id beat : Nat) (ms : List Nat) (limited : Bool) (o : GlobalOp) (s : State), s.op id = some o ∧
    s.boot.pkg ∈ ms :=
  ⟨9, 10020, [0, 1], true, ⟨9, [0, 1], 1, 1, 77, 9990, 2000, [1], none, false, none⟩,
    { w0 with fab := { w0.fab with ops := [⟨9, [0, 1], 1, 1, 77, 9990, 2000, [1], none, false, none⟩] } }, by decide +kernel⟩

theorem witness_BarriersAndSnapshots_5 : ∃ (id c : Nat) (o : GlobalOp) (s : State), s.op id = some o ∧ o.completeAt = some c ∧ beatLe c s.now
    = true ∧ o.limited = false ∧ o.session ≠ 0 :=
  ⟨9, 10000, ⟨9, [0, 1], 1, 1, 77, 9990, 2000, [1], some 10000, false, none⟩,
    { w0 with fab := { w0.fab with ops := [⟨9, [0, 1], 1, 1, 77, 9990, 2000, [1], some 10000, false, none⟩] } }, by decide +kernel⟩

theorem witness_BarriersAndSnapshots_6 : ∃ (id c : Nat) (o : GlobalOp) (s : State), s.op id = some o ∧ o.completeAt = some c ∧ beatLe c s.now
    = false :=
  ⟨9, 10001, ⟨9, [0, 1], 1, 1, 77, 9990, 2000, [1], some 10001, false, none⟩,
    { w0 with fab := { w0.fab with ops := [⟨9, [0, 1], 1, 1, 77, 9990, 2000, [1], some 10001, false, none⟩] } }, by decide +kernel⟩

theorem witness_BarriersAndSnapshots_7 : ∃ (id : Nat) (o : GlobalOp) (s : State), s.op id = some o ∧ o.coord ≠ s.boot.pkg :=
  ⟨9, wOp 1, wOps (wOp 1), by decide +kernel⟩

theorem witness_BarriersAndSnapshots_8 : ∃ (id : Nat) (o : GlobalOp) (s : State), s.op id = some o ∧ o.coord = s.boot.pkg ∧ o.startBeat +
    o.timeout ≤ s.beat.elapsed :=
  ⟨9, { wOp 0 with startBeat := 8000 }, wOps { wOp 0 with startBeat := 8000 }, by decide +kernel⟩

theorem witness_BarriersAndSnapshots_9 : ∃ (h : Hdr) (beat ctx : Nat) (ps : List (Nat × Nat)) (e : Session) (s : State), Served
    (.snapshotAt h beat ctx ps) h ⟨0x0505, roleJobs, featLearn⟩ e s ∧ snapRefusal e.principal ctx ps s = none ∧ beatBefore s.now beat =
    true :=
  ⟨wHdr, 10001, 1, [(4, 7)], wSess, wSnapS [], by decide +kernel⟩

theorem witness_BarriersAndSnapshots_10 : ∃ (id : Nat) (x : Snapshot) (s : State), s.fab.snaps.find? (fun x => x.id = id) = some x ∧
    x.captured = false ∧ beatLe x.beat s.now = true :=
  ⟨3, ⟨3, 1, 77, 10000, 1, [(4, 7)], false, []⟩, wSnapS [⟨3, 1, 77, 10000, 1, [(4, 7)], false, []⟩], by decide +kernel⟩

theorem witness_BarriersAndSnapshots_11 : ∃ (id a b n : Nat) (rest : List (Nat × Nat × Nat)) (x : Snapshot) (s : State),
    s.fab.snaps.find? (fun x => x.id = id && x.captured) = some x ∧ x.units = (a, b, n) :: rest ∧ s.mem.wf = true :=
  ⟨3, 0, 0x200000, 65536, [], ⟨3, 1, 77, 10000, 1, [(4, 7)], true, [(0, 0x200000, 65536)]⟩, wSnapS [⟨3, 1, 77, 10000, 1, [(4, 7)], true,
    [(0, 0x200000, 65536)]⟩], by decide +kernel⟩

/-! ### SoriPrepareAndEnd -/

theorem witness_SoriPrepareAndEnd_1 : ∃ (id coord beat : Nat) (x : Sorus) (s : State), s.sorus id = some x ∧ x.state = 0 ∧ x.own =
    false ∧ x.staged = [] ∧ x.answers = [] ∧ s.hlth.failed = false ∧ s.beat.clkHold = false ∧ s.boot.activation = none ∧ s.boot.pauseUntil
    = none ∧ coord ≠ s.boot.pkg :=
  ⟨3, 1, 10100, wSorus, wS wSorus, by decide +kernel⟩

theorem witness_SoriPrepareAndEnd_2 : ∃ (h : Hdr) (id coord beat : Nat) (e : Session) (s : State), Served (.sorusPrepare (.host h) id
    coord beat) h ⟨0x0904, 0, 0⟩ e s :=
  ⟨wHdr, 3, 1, 10100, wSess, w0, by decide +kernel⟩

theorem witness_SoriPrepareAndEnd_3 : ∃ (id pkg k : Nat) (x : Sorus) (s : State), s.sorus id = some x ∧ x.coord = s.boot.pkg ∧ x.own =
    false ∧ x.state = 2 ∧ x.decided = none ∧ pkg ∈ x.members ∧ (∀ a ∈ x.answers, a.1 ≠ pkg) ∧ (∀ m ∈ x.members, m = pkg ∨ ∃ a ∈ x.answers,
    a.1 = m) ∧ beatBefore (beatAdd s.now 4) x.commitBeat = true :=
  ⟨3, 1, 0, { wSorus with state := 2, answers := [(0, 0, 0)], commitBeat := 10005 }, wS
    { wSorus with state := 2, answers := [(0, 0, 0)], commitBeat := 10005 }, by decide +kernel⟩

theorem witness_SoriPrepareAndEnd_4 : ∃ (id pkg st k : Nat) (x : Sorus) (s : State), s.sorus id = some x ∧ x.coord = s.boot.pkg ∧ x.own
    = false ∧ x.state = 2 ∧ x.decided = none ∧ pkg ∈ x.members ∧ (∀ a ∈ x.answers, a.1 ≠ pkg) ∧ st ≠ stOk :=
  ⟨3, 1, 0x21, 0, { wSorus with state := 2, answers := [(0, 0, 0)], commitBeat := 10005 }, wS
    { wSorus with state := 2, answers := [(0, 0, 0)], commitBeat := 10005 }, by decide +kernel⟩

theorem witness_SoriPrepareAndEnd_5 : ∃ (id m : Nat) (x : Sorus) (s : State), s.sorus id = some x ∧ x.coord = s.boot.pkg ∧ x.own =
    false ∧ x.state = 2 ∧ x.decided = none ∧ m ∈ x.members ∧ (∀ a ∈ x.answers, a.1 ≠ m) ∧ beatLe x.commitBeat (beatAdd s.now 4) = true :=
  ⟨3, 1, { wSorus with state := 2, answers := [(0, 0, 0)], commitBeat := 10004 }, wS
    { wSorus with state := 2, answers := [(0, 0, 0)], commitBeat := 10004 }, by decide +kernel⟩

theorem witness_SoriPrepareAndEnd_6 : ∃ (id : Nat) (x : Sorus) (s : State), s.sorus id = some x ∧ x.state = 2 ∧ x.own = false ∧
    x.decided = none :=
  ⟨3, { wSorus with state := 2 }, wS { wSorus with state := 2 }, by decide +kernel⟩

theorem witness_SoriPrepareAndEnd_7 : ∃ (id : Nat) (x : Sorus) (s : State), s.sorus id = some x ∧ x.state = 2 ∧ x.own = false ∧
    x.decided = none :=
  ⟨3, { wSorus with state := 2 }, wS { wSorus with state := 2 }, by decide +kernel⟩

theorem witness_SoriPrepareAndEnd_8 : ∃ (id pkg : Nat) (x : Sorus) (d : Bool) (s : State), s.sorus id = some x ∧ x.decided = some d :=
  ⟨3, 1, { wSorus with decided := some false }, false, wS { wSorus with decided := some false }, by decide +kernel⟩

theorem witness_SoriPrepareAndEnd_9 : ∃ (id : Nat) (x : Sorus) (s : State), s.sorus id = some x ∧ x.state = 2 ∧ x.decided = some true ∧ x.staged =
    [] ∧ x.inDoubt = false ∧ beatBefore s.now x.commitBeat = false :=
  ⟨3, { wSorus with state := 2, decided := some true, commitBeat := 10000 }, wS
    { wSorus with state := 2, decided := some true, commitBeat := 10000 }, by decide +kernel⟩

theorem witness_SoriPrepareAndEnd_10 : ∃ (id : Nat) (x : Sorus) (s : State), s.sorus id = some x ∧ beatBefore s.now x.commitBeat = true :=
  ⟨3, { wSorus with state := 2, decided := some true, commitBeat := 10001 }, wS
    { wSorus with state := 2, decided := some true, commitBeat := 10001 }, by decide +kernel⟩

theorem witness_SoriPrepareAndEnd_11 : ∃ (id : Nat) (x : Sorus) (s : State), s.sorus id = some x ∧ x.state = 0 ∧ x.openedAt + 10000000 ≤
    s.beat.elapsed :=
  ⟨3, wSorus, wLate (wS wSorus), by decide +kernel⟩

theorem witness_SoriPrepareAndEnd_12 : ∃ (id : Nat) (x : Sorus) (s : State), s.sorus id = some x ∧ x.state ≠ 0 :=
  ⟨3, { wSorus with state := 2 }, wS { wSorus with state := 2 }, by decide +kernel⟩

theorem witness_SoriPrepareAndEnd_13 : ∃ (id : Nat) (x : Sorus) (s : State), s.sorus id = some x ∧ x.state = 2 ∧ x.inDoubt = true ∧ x.decided = none
    ∧ x.asked = true ∧ beatBefore s.now (beatAdd x.commitBeat 100000) = false :=
  ⟨3, { wSorus with state := 2, inDoubt := true, asked := true },
    { wS { wSorus with state := 2, inDoubt := true, asked := true } with beat := { w0.beat with count := 200000 } }, by decide +kernel⟩

theorem witness_SoriPrepareAndEnd_14 : ∃ (id m : Nat) (x : Sorus) (s : State), s.sorus id = some x ∧ x.state = 2 ∧ x.inDoubt = true ∧ x.decided =
    none ∧ x.asked = false ∧ m ∈ x.members ∧ m ≠ s.boot.pkg ∧ beatBefore s.now (beatAdd x.commitBeat 100000) = false :=
  ⟨3, 1, { wSorus with state := 2, inDoubt := true },
    { wS { wSorus with state := 2, inDoubt := true } with beat := { w0.beat with count := 200000 } }, by decide +kernel⟩

/-! ### MxElementsAreScaled -/

theorem witness_MxElementsAreScaled_1 : ∃ (f : Fmt) (raw scale : Nat) (n : Bool) (m : Nat) (e : Int), f.isMx = true ∧ scale ≤ 0xFE ∧
    f.decode raw = .fin n m e :=
  ⟨.e2m1, 1, 254, false, 1, -1, by decide +kernel⟩

theorem witness_MxElementsAreScaled_2 : ∃ (f : Fmt) (raw scale : Nat), f.isMx = true ∧ scale ≤ 0xFE ∧ (∀ n m e, f.decode raw ≠ .fin n m e)
    :=
  ⟨.e5m2, 0x7F, 254,
    by refine ⟨by decide +kernel, by decide +kernel, fun n m e => ?_⟩; rw [show Fmt.decode .e5m2 0x7F = .nan from by decide +kernel]; exact nofun⟩

theorem witness_MxElementsAreScaled_3 : ∃ (f : Fmt) (raw : Nat), f.isMx = true :=
  ⟨.mxint8, 1, by decide +kernel⟩

theorem witness_MxElementsAreScaled_4 : ∃ scale : Nat, scale ≤ 0xFE :=
  ⟨254, by decide +kernel⟩

/-! ### HolesReadNothing -/

theorem witness_HolesReadNothing_1 : ∃ (v : ViewSt) (i : Nat) (rs : List (ViewSt × Query)), v.unit.pages ≤ i :=
  ⟨wView, 2, [], by decide +kernel⟩

/-! ### VisibleSlots -/

theorem witness_VisibleSlots_1 : ∃ (v : ViewSt) (q : Query) (slot : Nat), v.unit.keys + v.unit.ndraft ≤ slot :=
  ⟨wView, ⟨1, 1, true, 64⟩, 66, by decide +kernel⟩

theorem witness_VisibleSlots_2 : ∃ (v : ViewSt) (i : Nat) (seen : Nat → Word) (blank : Word), v.hole i = true :=
  ⟨wView, 2, (fun _ => 0#32), 0#32, by decide +kernel⟩

theorem witness_VisibleSlots_3 : ∃ (v : ViewSt) (q : Query) (slot : Nat), slot < v.unit.keys :=
  ⟨wView, ⟨1, 1, true, 64⟩, 63, by decide +kernel⟩

theorem witness_VisibleSlots_4 : ∃ (v : ViewSt) (q : Query) (d : Nat), 1 ≤ d ∧ d ≤ v.unit.ndraft :=
  ⟨wView, ⟨1, 1, true, 64⟩, 2, by decide +kernel⟩

theorem witness_VisibleSlots_5 : ∃ (v : ViewSt) (p : Nat), p < 0xFFFFFFFF :=
  ⟨wView, 0xFFFFFFFE, by decide +kernel⟩

/-! ### EntriesGoToRoundsAndInstances -/

theorem witness_EntriesGoToRoundsAndInstances_1 :
    ∃ (t : InstTable) (l : Layer) (layer : Nat) (counts offsets : List Nat) (a : Assignment), counts.length = offsets.length ∧
    assign t l layer counts offsets = some a ∧
    ∃ c, c = capacityOf { l with cfQ8 := ((t.factors.find? fun x => x.1 = layer).map Prod.snd).getD l.cfQ8 }
      ((counts.sum + l.topk - 1) / max 1 l.topk) ∧ 0 < c :=
  ⟨⟨1, [⟨0, 0, false, 0, [(0, 0), (1, 2)]⟩], [(0, 512)]⟩, { wLayer with experts := 1, topk := 1 }, 0, [5], [0],
    (assign ⟨1, [⟨0, 0, false, 0, [(0, 0), (1, 2)]⟩], [(0, 512)]⟩ { wLayer with experts := 1, topk := 1 } 0 [5] [0]).getD ⟨[], [], []⟩,
    by decide +kernel, by decide +kernel, 10, by decide +kernel⟩

/-! ### LpddrBlocksByXor -/

theorem witness_LpddrBlocksByXor_1 : ∃ (s : State) (a b : Nat), 0x080000000000 ≤ a ∧ b = (a - 0x080000000000) / 4096 ∧ (∀ c ∈ s.mem.lpchs,
    c.cstate = 0) :=
  ⟨w0, 0x080000021FFF, 33, by decide +kernel⟩

/-! ### OnlyTheseOpcodesStage -/

theorem witness_OnlyTheseOpcodesStage_2 : ∃ (i : Instr) (h : Hdr) (g : Gate) (ranges : Session → State → Option (Nat × Nat)) (run :
    Session → State → State) (e : Session) (x : Sorus) (s : State), s.boot.stage = 6 ∧ s.boot.pauseUntil = none ∧ s.session h.session =
    some e ∧ h.sorus ≠ 0 ∧ s.sorus h.sorus = some x ∧ x.session = h.session ∧ x.state = 0 ∧ stageable g.opcode = false :=
  ⟨.capsQuery wHdrS, wHdrS, ⟨0x0005, 0, 0⟩, (fun _ _ => none), (fun _ s => s), wSess, wSorus, wS wSorus, by decide +kernel⟩

theorem witness_OnlyTheseOpcodesStage_3 : ∃ (h : Hdr) (e : Session) (x : Sorus) (s : State), s.boot.stage = 6 ∧ s.boot.pauseUntil = none ∧
    s.session h.session = some e ∧ flagsOver h 0 = false ∧ gateRefusal ⟨0x0A05, roleOperate, 0⟩ e s = none ∧ h.sorus ≠ 0 ∧ s.sorus h.sorus
    = some x ∧ x.session = h.session ∧ x.state = 0 :=
  ⟨wHdrS, wSess, wSorus, wS wSorus, by decide +kernel⟩

/-! ### ContextsAreDestroyed -/

theorem witness_ContextsAreDestroyed_1 : ∃ (h : Hdr) (n : Nat) (c : Ctx) (e : Session) (s : State), Served (.ctxDestroy h n) h ⟨0x0307,
    roleJobs, featLearn⟩ e s ∧ s.ctx n = some c ∧ n ≠ 0 ∧ c.principal = e.principal ∧ c.torn = true ∧ ctxHasWork s n = false :=
  ⟨wHdr, 1, { wCtx with torn := true }, wSess, { w0 with jobs := { w0.jobs with ctxs := [{ wCtx with torn := true }] } },
    by decide +kernel⟩

theorem witness_ContextsAreDestroyed_2 : ∃ (h : Hdr) (n : Nat) (c : Ctx) (e : Session) (s : State), Served (.ctxDestroy h n) h ⟨0x0307,
    roleJobs, featLearn⟩ e s ∧ s.ctx n = some c ∧ n ≠ 0 ∧ c.principal = e.principal ∧ c.torn = false ∧ ctxHasWork s n = true ∧ tbit
    h.cflags 0 = false :=
  ⟨wHdr, 1, wCtx, wSess, wRun (wCmd wFront .sSync), by decide +kernel⟩

theorem witness_ContextsAreDestroyed_3 : ∃ (h : Hdr) (n : Nat) (c : Ctx) (e : Session) (s : State), Served (.ctxDestroy h n) h ⟨0x0307,
    roleJobs, featLearn⟩ e s ∧ s.ctx n = some c ∧ n ≠ 0 ∧ c.principal = e.principal ∧ c.torn = false ∧ (ctxHasWork s n = false ∨ tbit
    h.cflags 0 = true) :=
  ⟨{ wHdr with cflags := 1 }, 1, wCtx, wSess, wRun (wCmd wFront .sSync), by decide +kernel⟩

theorem witness_ContextsAreDestroyed_4 : ∃ (p : Nat) (s : State), (∀ e ∈ s.net.sessions, e.principal ≠ p) ∧ (∃ g ∈ s.net.gone, g.principal
    = p ∧ g.since + 60000000 ≤ s.beat.elapsed) :=
  ⟨8, wLate { w0 with net := { w0.net with gone := [⟨8, 40000000⟩] } }, by decide +kernel⟩

/-! ### RecordsAreNumbered -/

theorem witness_RecordsAreNumbered_1 : ∃ (r : Rec) (s : State), (∀ x, s.rime.circ.getLast? = some x → foldsInto r x = false) :=
  ⟨{ clearedAtManufacture with type := 2 }, w0,
    by refine fun r h => ?_; obtain rfl : clearedAtManufacture = r := Option.some.inj h; decide⟩

theorem witness_RecordsAreNumbered_2 : ∃ (r x : Rec) (s : State), s.rime.circ.getLast? = some x ∧ foldsInto r x = true :=
  ⟨clearedAtManufacture, clearedAtManufacture, w0, by decide +kernel⟩

/-! ### ResetPins -/

theorem witness_ResetPins_1 : ∃ (us : Nat) (s : State), 1000 ≤ us :=
  ⟨1000, w0, by decide +kernel⟩

theorem witness_ResetPins_2 : ∃ (us : Nat) (s : State), us < 1000 :=
  ⟨999, w0, by decide +kernel⟩

theorem witness_ResetPins_3 : ∃ s : State, s.pins.porLow = true :=
  ⟨{ w0 with pins := { w0.pins with porLow := true } }, by decide +kernel⟩

theorem witness_ResetPins_4 : ∃ s : State, Powered s ∧ s.boot.resetKind = 0 ∧ s.boot.stage < 4 :=
  ⟨wMail 3, by decide +kernel⟩

/-! ### OnlyTheseCommandsWrite -/

theorem witness_OnlyTheseCommandsWrite_1 : ∃ (i : Instr) (s t : State), exec i s = .next t :=
  ⟨.tripHoldExpire, w0, { w0 with pwr := { w0.pwr with tripUntil := none } }, rfl⟩

/-! ### AntiRollbackCountersNeverFall -/

theorem witness_AntiRollbackCountersNeverFall_1 : ∃ s t : State, step s = .next t :=
  ⟨{ w0 with pending := [.tripHoldExpire] }, { w0 with pwr := { w0.pwr with tripUntil := none } }, rfl⟩

/-! ### MemoryStaysCanonical -/

theorem witness_MemoryStaysCanonical_1 : ∃ s t : State, s.mem.wf = true ∧ step s = .next t :=
  ⟨{ w0 with pending := [.tripHoldExpire] }, { w0 with pwr := { w0.pwr with tripUntil := none } }, ⟨by decide +kernel, rfl⟩⟩

end Tests
end

section
/-! The reading of an MX element (R40): what a scale factor does to a value, what `Fmt.decodeScaled` gives for each kind of
scale code, and the statement about MX elements assembled from them. -/
namespace Sys2Proof.Machine

/-! ### Scaling a value by a power of two -/

@[simp] theorem Num.scale_fin (n : Bool) (m : Nat) (e k : Int) : (Num.fin n m e).scale k = .fin n m (e + k) := rfl

/-- A NaN or an infinity has no exponent to move. -/
theorem Num.scale_of_forall_ne_fin {x : Num} (h : ∀ n m e, x ≠ .fin n m e) (k : Int) : x.scale k = x := by
  cases x with
  | nan => rfl
  | inf neg => rfl
  | fin n m e => exact absurd rfl (h n m e)

/-! ### An element under the scale code of its block -/

theorem Fmt.decodeScaled_of_ne {f : Fmt} {scale : Nat} (hmx : f.isMx = true) (hs : scale ≠ 0xFF) (raw : Nat) :
    f.decodeScaled raw scale = (f.decode raw).scale ((scale : Int) - 127) := by
  rw [Fmt.decodeScaled, if_pos hmx, if_neg hs]

theorem Fmt.decodeScaled_nan_code {f : Fmt} (hmx : f.isMx = true) (raw : Nat) : f.decodeScaled raw 0xFF = .nan := by
  rw [Fmt.decodeScaled, if_pos hmx, if_pos rfl]

/-- Settles O48: the scale code decides between the NaN of the block and the scaled element value, and scaling moves the
exponent of a finite value and nothing else. -/
theorem mxElementsAreScaled : Obligations.MxElementsAreScaled := by
  refine ⟨fun f raw scale n m e hmx hs hfin => ?_, fun f raw scale hmx hs hne => ?_, fun f raw hmx => ?_, fun scale hs => ?_⟩
  · rw [Fmt.decodeScaled_of_ne hmx (by omega), hfin, Num.scale_fin]
  · rw [Fmt.decodeScaled_of_ne hmx (by omega), Num.scale_of_forall_ne_fin hne]
  · exact Fmt.decodeScaled_nan_code hmx raw
  · omega

end Sys2Proof.Machine
end

section
/-! The holes of a view (R169): what each face delivers at a hole, of whatever state, and the statement about images at or
beyond PAGES assembled from it. -/
namespace Sys2Proof.Machine

section
variable {v : ViewSt} {i : Nat}

/-! ### Which tile a face delivers (R166) -/

@[simp] theorem ViewSt.tile_k (s : State) (rows : List (ViewSt × Query)) : v.tile s rows 0 i = some (v.partTile s 0 i) := rfl

@[simp] theorem ViewSt.tile_v (s : State) (rows : List (ViewSt × Query)) : v.tile s rows 1 i = some (v.partTile s 1 i) := rfl

@[simp] theorem ViewSt.tile_pos (s : State) (rows : List (ViewSt × Query)) : v.tile s rows 2 i = some (v.posTile i) := rfl

@[simp] theorem ViewSt.tile_mask (s : State) (rows : List (ViewSt × Query)) :
    v.tile s rows 3 i = some (v.maskTile i (fun _ => 0#32) 0#32) := rfl

@[simp] theorem ViewSt.tile_bias (s : State) (rows : List (ViewSt × Query)) :
    v.tile s rows 4 i = some (v.maskTile i (v.biasOf s) negInf32) := rfl

/-! ### The tiles of a hole -/

theorem ViewSt.hole_of_pages_le (h : v.unit.pages ≤ i) : v.hole i = true := by simp [ViewSt.hole, h]

/-- The state has no part in the right-hand side: a K or V hole reads no memory. -/
theorem ViewSt.partTile_of_hole (h : v.hole i = true) (s : State) (part : Nat) :
    v.partTile s part i =
      ⟨if part = 0 then v.layer.kFormat else v.layer.vFormat, v.layer.headDim, List.replicate 64 emptyRow, true⟩ := by
  simp [ViewSt.partTile, h]

theorem ViewSt.posTile_of_hole (h : v.hole i = true) : v.posTile i = faceTile fun _ => (false, 0#32, []) := by
  simp [ViewSt.posTile, h]

/-- Neither what a seen slot holds nor what an invalid row's column holds shows in a hole, so a BIAS hole reads no statistics. -/
theorem ViewSt.maskTile_of_hole (h : v.hole i = true) (seen : Nat → Word) (blank : Word) :
    v.maskTile i seen blank = faceTile fun _ => (true, 0#32, List.replicate 64 0xFF800000#32) := by
  simp [ViewSt.maskTile, h, negInf32]

end

/-- Settles O49: an image at or beyond PAGES is a hole, and the tile of a hole on each of the five faces is written without the
state. -/
theorem holesReadNothing : Obligations.HolesReadNothing := by
  intro v i rs hi s
  have hole : v.hole i = true := ViewSt.hole_of_pages_le hi
  refine ⟨⟨v.layer.kFormat, v.layer.headDim, fun u => ?_⟩, ⟨v.layer.vFormat, v.layer.headDim, fun u => ?_⟩, ?_, ?_, ?_⟩
  · rw [ViewSt.tile_k, ViewSt.partTile_of_hole hole, if_pos rfl]
  · rw [ViewSt.tile_v, ViewSt.partTile_of_hole hole, if_neg Nat.one_ne_zero]
  · rw [ViewSt.tile_pos, ViewSt.posTile_of_hole hole]
  · rw [ViewSt.tile_mask, ViewSt.maskTile_of_hole hole]
  · rw [ViewSt.tile_bias, ViewSt.maskTile_of_hole hole]

end Sys2Proof.Machine
end

section
/-! The mask rules (R170): the segment of a position and what `ViewSt.sees` says of a slot in each of its three ranges (beyond
the drafts, committed, draft), and the statement about visible slots assembled from them. -/
namespace Sys2Proof.Machine

/-- An unused BOUNDS entry, all ones, is above every position below it, so leaving it out of the count changes nothing. -/
theorem ViewSt.seg_eq_countP (v : ViewSt) {p : Nat} (hp : p < 0xFFFFFFFF) :
    v.seg p = v.unit.bounds.countP fun b => decide (b ≤ p) := by
  rw [ViewSt.seg, ← List.countP_eq_length_filter]
  refine List.countP_congr fun b _ => ?_
  have hb : b ≤ p → b ≠ 0xFFFFFFFF := by omega
  simpa using hb

theorem ViewSt.sees_of_slots_le {v : ViewSt} {slot : Nat} (h : v.unit.keys + v.unit.ndraft ≤ slot) (q : Query) :
    v.sees q slot = false := if_pos h

/-- Each set mask kind is one condition on a committed slot, and a kind that is not set is none. -/
theorem ViewSt.sees_committed {v : ViewSt} {slot : Nat} (h : slot < v.unit.keys) (q : Query) :
    v.sees q slot = true ↔
      (v.unit.causal = true → v.posOf slot ≤ q.pos) ∧
      (v.unit.windowed = true → (q.pos : Int) - v.posOf slot < v.unit.window) ∧
      (v.unit.segmented = true → v.seg (v.posOf slot) = v.seg q.pos) := by
  have below : ¬ v.unit.keys + v.unit.ndraft ≤ slot := by omega
  rw [ViewSt.sees, if_neg below, if_pos h]
  simp [and_assoc, imp_iff_not_or]

/-- The slot of draft `d` of a unit is KEYS + d − 1, and its bit of ANCESTORS is the one that is looked at. -/
theorem ViewSt.sees_draft {v : ViewSt} {d : Nat} (h₁ : 1 ≤ d) (h₂ : d ≤ v.unit.ndraft) (q : Query) :
    v.sees q (v.unit.keys + d - 1) = true ↔ v.unit.tree = true ∧ tbit q.ancestors (d - 1) = true := by
  have inDrafts : ¬ v.unit.keys + v.unit.ndraft ≤ v.unit.keys + d - 1 := by omega
  have notCommitted : ¬ v.unit.keys + d - 1 < v.unit.keys := by omega
  have number : v.unit.keys + d - 1 - v.unit.keys = d - 1 := by omega
  rw [ViewSt.sees, if_neg inDrafts, if_neg notCommitted, number, Bool.and_eq_true]

/-- Settles O50: one clause per range of slots, the hole's tile, and the segment as a count of BOUNDS entries. -/
theorem visibleSlots : Obligations.VisibleSlots :=
  ⟨fun _ q _ h => ViewSt.sees_of_slots_le h q,
   fun _ _ seen blank h => ViewSt.maskTile_of_hole h seen blank,
   fun _ q _ h => ViewSt.sees_committed h q,
   fun _ q _ h₁ h₂ => ViewSt.sees_draft h₁ h₂ q,
   fun v _ h => v.seg_eq_countP h⟩

end Sys2Proof.Machine
end

section
/-! The dispatch of R195: the experts that `assign` serves, the placing of one ranked entry, and `assign` said once through both,
from which the statement about rounds and expert copies is assembled. -/
namespace Sys2Proof.Machine

/-! ### The experts that have entries -/

/-- The experts with entries in a half, each as its count, its number and its offset. -/
def routedExperts (counts offsets : List Nat) : List ((Nat × Nat) × Nat) :=
  (counts.zipIdx.zip offsets).filter fun ((k, _), _) => decide (0 < k)

theorem mem_routedExperts {counts offsets : List Nat} (hlen : counts.length = offsets.length) {k e off : Nat} :
    ((k, e), off) ∈ routedExperts counts offsets ↔ 0 < k ∧ k = counts.getD e 0 ∧ off = offsets.getD e 0 := by
  have zipped : ((k, e), off) ∈ counts.zipIdx.zip offsets ↔ counts[e]? = some k ∧ offsets[e]? = some off := by
    rw [List.mem_iff_getElem?]
    simp only [List.getElem?_zip_eq_some, List.getElem?_zipIdx, Option.map_eq_some_iff, Prod.mk.injEq, Nat.zero_add]
    constructor
    · rintro ⟨i, ⟨k, hk, rfl, rfl⟩, hoff⟩
      exact ⟨hk, hoff⟩
    · rintro ⟨hk, hoff⟩
      exact ⟨e, ⟨k, hk, rfl, rfl⟩, hoff⟩
  rw [routedExperts, List.mem_filter, zipped, decide_eq_true_eq, and_comm]
  refine and_congr_right fun hpos => ?_
  by_cases he : e < counts.length
  · have he' : e < offsets.length := hlen ▸ he
    simp [he, he', eq_comm]
  · have noEntry : counts[e]? = none := List.getElem?_eq_none (Nat.le_of_not_lt he)
    have noCount : counts.getD e 0 = 0 := List.getD_eq_default counts 0 (Nat.le_of_not_lt he)
    exact iff_of_false (by simp [noEntry]) fun ⟨hk, _⟩ => by omega

/-! ### The place of one entry -/

/-- How many entries of an expert one round takes: n × c. -/
def roundSize (t : InstTable) (layer c e : Nat) : Nat := (instancesOf t layer e).length * c

/-- The position, destination, slot and round of the entry of rank `r` of an expert whose entries begin at `off`. -/
def placeEntry (t : InstTable) (layer c e off r : Nat) : Nat × Nat × Nat × Nat :=
  let copy := (instancesOf t layer e).getD (r % roundSize t layer c e / c) (0, 0)
  (off + r, copy.1, copy.2, r / roundSize t layer c e + 1)

theorem placeEntry_eq_iff {t : InstTable} {layer c e off r pos pkg slot round : Nat} :
    (pos, pkg, slot, round) = placeEntry t layer c e off r ↔
      pos = off + r ∧ round = r / roundSize t layer c e + 1 ∧
      (pkg, slot) = (instancesOf t layer e).getD (r % roundSize t layer c e / c) (0, 0) := by
  simp only [placeEntry, Prod.ext_iff]
  tauto

/-- Every entry of a half with its place, before DROP takes any away. -/
def placedEntries (t : InstTable) (layer c : Nat) (counts offsets : List Nat) : List (Nat × Nat × Nat × Nat) :=
  (routedExperts counts offsets).flatMap fun ((k, e), off) => (List.range k).map (placeEntry t layer c e off)

theorem mem_placedEntries {t : InstTable} {layer c : Nat} {counts offsets : List Nat} (hlen : counts.length = offsets.length)
    {x : Nat × Nat × Nat × Nat} :
    x ∈ placedEntries t layer c counts offsets ↔
      ∃ e r, r < counts.getD e 0 ∧ x = placeEntry t layer c e (offsets.getD e 0) r := by
  simp only [placedEntries, List.mem_flatMap, List.mem_map, List.mem_range, Prod.exists, mem_routedExperts hlen]
  constructor
  · rintro ⟨_, e, _, ⟨-, rfl, rfl⟩, r, hr, rfl⟩
    exact ⟨e, r, hr, rfl⟩
  · rintro ⟨e, r, hr, rfl⟩
    exact ⟨_, e, _, ⟨Nat.zero_lt_of_lt hr, rfl, rfl⟩, r, hr, rfl⟩

/-! ### What `assign` answers -/

/-- What DROP leaves (R195): everything when it is not 1, the first round when it is. -/
def survivesDrop (l : Layer) (x : Nat × Nat × Nat × Nat) : Bool := l.drop ≠ 1 || decide (x.2.2.2 ≤ 1)

theorem survivesDrop_iff {l : Layer} {x : Nat × Nat × Nat × Nat} :
    survivesDrop l x = true ↔ ¬ (l.drop = 1 ∧ 1 < x.2.2.2) := by
  simp [survivesDrop, imp_iff_not_or]

/-- The rounds an expert of `k` entries needs: that of its last entry. -/
def roundsOf (t : InstTable) (layer c e k : Nat) : Nat := (k - 1) / max 1 (roundSize t layer c e) + 1

theorem assign_eq_some {t : InstTable} {l : Layer} {layer c : Nat} {counts offsets : List Nat} {a : Assignment}
    (hc : c = capacityOf { l with cfQ8 := ((t.factors.find? fun x => x.1 = layer).map Prod.snd).getD l.cfQ8 }
      ((counts.sum + l.topk - 1) / max 1 l.topk))
    (h : assign t l layer counts offsets = some a) :
    (∀ k e off, ((k, e), off) ∈ routedExperts counts offsets → instancesOf t layer e ≠ []) ∧
    a = ⟨(placedEntries t layer c counts offsets).filter (survivesDrop l),
      ((placedEntries t layer c counts offsets).filter fun x => !survivesDrop l x).map fun x => x.1,
      (routedExperts counts offsets).map fun ((k, e), _) => (e, k, roundsOf t layer c e k)⟩ := by
  subst hc
  by_cases missing : ((routedExperts counts offsets).any fun ((_, e), _) => (instancesOf t layer e).isEmpty) = true
  · exact absurd ((if_pos missing).symm.trans h) (Option.some_ne_none a).symm
  · refine ⟨fun k e off hmem hnil => missing (List.any_eq_true.mpr ⟨_, hmem, List.isEmpty_iff.mpr hnil⟩), ?_⟩
    exact (Option.some.inj ((if_neg missing).symm.trans h)).symm

section
variable {t : InstTable} {l : Layer} {layer c : Nat} {counts offsets : List Nat}

theorem mem_sentEntries (hlen : counts.length = offsets.length) {pos pkg slot round : Nat} :
    (pos, pkg, slot, round) ∈ (placedEntries t layer c counts offsets).filter (survivesDrop l) ↔
      ∃ e r, r < counts.getD e 0 ∧ pos = offsets.getD e 0 + r ∧ round = r / roundSize t layer c e + 1 ∧
        (pkg, slot) = (instancesOf t layer e).getD (r % roundSize t layer c e / c) (0, 0) ∧ ¬ (l.drop = 1 ∧ 1 < round) := by
  rw [List.mem_filter, mem_placedEntries hlen, survivesDrop_iff]
  simp only [placeEntry_eq_iff, ← exists_and_right, and_assoc]

theorem mem_droppedPositions (hlen : counts.length = offsets.length) {pos : Nat} :
    pos ∈ ((placedEntries t layer c counts offsets).filter fun x => !survivesDrop l x).map (fun x => x.1) ↔
      ∃ e r, r < counts.getD e 0 ∧ pos = offsets.getD e 0 + r ∧ l.drop = 1 ∧ 1 < r / roundSize t layer c e + 1 := by
  have lost (x : Nat × Nat × Nat × Nat) : (!survivesDrop l x) = true ↔ l.drop = 1 ∧ 1 < x.2.2.2 := by
    rw [Bool.not_eq_true', ← Bool.not_eq_true, survivesDrop_iff, not_not]
  simp only [List.mem_map, List.mem_filter, mem_placedEntries hlen, lost]
  constructor
  · rintro ⟨_, ⟨⟨e, r, hr, rfl⟩, hdrop, hround⟩, rfl⟩
    exact ⟨e, r, hr, rfl, hdrop, hround⟩
  · rintro ⟨e, r, hr, rfl, hdrop, hround⟩
    exact ⟨_, ⟨⟨e, r, hr, rfl⟩, hdrop, hround⟩, rfl⟩

/-- With an instance and room in it the guard against an empty round has no effect. -/
theorem roundsOf_eq {e : Nat} (hinst : instancesOf t layer e ≠ []) (hc : 0 < c) (k : Nat) :
    roundsOf t layer c e k = (k - 1) / roundSize t layer c e + 1 := by
  have room : 1 ≤ roundSize t layer c e := Nat.mul_pos (List.length_pos_of_ne_nil hinst) hc
  rw [roundsOf, Nat.max_eq_right room]

end

/-- Settles O51: a member of each of the three lists of the answer comes from one expert and one rank, and the round grows with
the rank, so the last entry's round is the number of rounds. -/
theorem entriesGoToRoundsAndInstances : Obligations.EntriesGoToRoundsAndInstances := by
  intro t l layer counts offsets a hlen h c hc hpos
  obtain ⟨served, rfl⟩ := assign_eq_some hc h
  refine ⟨fun pos pkg slot round => mem_sentEntries hlen, fun pos => mem_droppedPositions hlen, fun hdrop => ?_,
    fun e k n hmem => ?_⟩
  · have keeps (x : Nat × Nat × Nat × Nat) : survivesDrop l x = true := survivesDrop_iff.mpr fun hx => hdrop hx.1
    simp [keeps]
  · obtain ⟨⟨⟨k, e⟩, off⟩, hexp, heq⟩ := List.mem_map.mp hmem
    obtain ⟨rfl, rfl, rfl⟩ := heq
    have last : roundsOf t layer c e k = (k - 1) / roundSize t layer c e + 1 := roundsOf_eq (served k e off hexp) hpos k
    refine ⟨fun r hr => ?_, last.symm⟩
    rw [last]
    exact Nat.succ_le_succ (Nat.div_le_div_right (Nat.le_sub_one_of_lt hr))

end Sys2Proof.Machine
end

section
/-! The placing of LPDDR blocks on channels (R273): the two fields that `blockHome` gives a block, read as bits of its number, and
the channel of an address in a tier with no retired channel, from which the statement is assembled. -/
namespace Sys2Proof.Machine

/-! ### The home of a block -/

/-- A channel number is five bits, so the channel is the exclusive or of the block's five-bit fields. -/
theorem blockHome_lpddr_channel (b : Nat) :
    (blockHome 1 b).1 = (b &&& 31) ^^^ ((b >>> 5) &&& 31) ^^^ ((b >>> 10) &&& 31) ^^^ ((b >>> 15) &&& 31) ^^^
      ((b >>> 20) &&& 31) ^^^ ((b >>> 25) &&& 31) := by
  have field (x : Nat) : x &&& 31 = x % 32 := Nat.and_two_pow_sub_one_eq_mod x 5
  simp only [field, Nat.shiftRight_eq_div_pow]
  rfl

theorem blockHome_lpddr_row (b : Nat) : (blockHome 1 b).2 = b >>> 5 := (Nat.shiftRight_eq_div_pow b 5).symm

/-! ### A tier without a retired channel (R271) -/

theorem retiredChannels_eq_zero_iff {cs : List Channel} : retiredChannels cs = 0 ↔ ∀ c ∈ cs, c.cstate = 0 := by
  simp [retiredChannels]

/-- Each displacement belongs to one retirement, so with none a block is at its home. -/
theorem channelOf_of_retiredChannels_eq_zero {s : State} {tier : Nat}
    (h : retiredChannels (if tier = 0 then s.mem.pcs else s.mem.lpchs) = 0) (addr : Nat) :
    channelOf s tier addr = (blockHome tier ((addr - tierBase tier) / 4096)).1 := by
  simp only [channelOf, h, Nat.min_zero, List.range_zero, List.foldl_nil]

/-- Settles O52: with no channel retired an address is in the channel of its block's home, and the home's channel and row are read
off the bits of the block number. -/
theorem lpddrBlocksByXor : Obligations.LpddrBlocksByXor := by
  intro s a b _ hb hnone
  have home : channelOf s 1 a = (blockHome 1 b).1 := by
    rw [hb]
    exact channelOf_of_retiredChannels_eq_zero (tier := 1) (retiredChannels_eq_zero_iff.mpr hnone) a
  exact ⟨home.trans (blockHome_lpddr_channel b), blockHome_lpddr_row b⟩

end Sys2Proof.Machine
end

section
/-! Staging (R374 to R376): a command that names an open sorus of its session goes to `stage`, what `stage` answers for an opcode
that may not be staged and for one with a staging failure, and what an abort leaves of the sorus, from which the statement about
the opcodes of R375 is assembled. -/
namespace Sys2Proof.Machine

/-! ### What an abort leaves (R376) -/

/-- A sorus after its abort: decided against, with nothing staged. -/
def Sorus.aborted (x : Sorus) : Sorus := { x with state := 4, decided := some false, staged := [], inDoubt := false }

/-- An abort sends replies and gives back regions, which are no part of the sori, and then closes its sorus. -/
theorem abortSorus_of_not_final {id : Nat} {x : Sorus} {s : State} (hx : s.sorus id = some x) (notCommitted : x.state ≠ 3)
    (notAborted : x.state ≠ 4) (pkg index status : Nat) :
    ∃ t, t.sori = s.sori ∧ abortSorus id pkg index status s = setSorus id Sorus.aborted t := by
  simp only [abortSorus, hx, notCommitted, notAborted, decide_false, Bool.or_self, Bool.false_eq_true, if_false]
  refine ⟨_, ?_, rfl⟩
  split <;> simp only [finish_keeps] <;> exact foldl_keeps_sori _ (fun u i => by split <;> simp) x.staged s

theorem sorus_abortSorus {id : Nat} {x : Sorus} {s : State} (hx : s.sorus id = some x) (notCommitted : x.state ≠ 3)
    (notAborted : x.state ≠ 4) (pkg index status : Nat) : (abortSorus id pkg index status s).sorus id = some x.aborted := by
  obtain ⟨t, kept, closed⟩ := abortSorus_of_not_final hx notCommitted notAborted pkg index status
  have found : t.sorus id = some x := by rw [State.sorus, kept]; exact hx
  rw [closed, sorus_setSorus id Sorus.aborted (fun _ => rfl), found, Option.map_some]

theorem State.sorus_id {id : Nat} {x : Sorus} {s : State} (hx : s.sorus id = some x) : x.id = id := by
  simpa using List.find?_some (p := fun y : Sorus => decide (y.id = id)) hx

@[simp] theorem sorus_reply (h : Hdr) (op st d : Nat) (r : List Byte) (s : State) (id : Nat) :
    (reply h op st d r s).sorus id = s.sorus id := by
  simp [State.sorus]

/-! ### A command that names an open sorus of its session (R374, R375) -/

section
variable {i : Instr} {h : Hdr} {g : Gate} {x : Sorus} {s : State}

theorem stage_of_not_stageable (hx : s.sorus h.sorus = some x) (ofSession : x.session = h.session) (opened : x.state = 0)
    (hop : stageable g.opcode = false) (fault : Option (Nat × Nat)) :
    stage i h g fault s = abortSorus x.id s.boot.pkg x.staged.length stBadParam (reply h g.opcode stBadParam 0 [] s) := by
  simp [stage, hx, ofSession, opened, hop]

theorem stage_of_fault (hx : s.sorus h.sorus = some x) (ofSession : x.session = h.session) (opened : x.state = 0)
    (hop : stageable g.opcode = true) (st d : Nat) :
    stage i h g (some (st, d)) s = abortSorus x.id s.boot.pkg x.staged.length st (reply h g.opcode st d [] s) := by
  simp [stage, hx, ofSession, opened, hop]

/-- The failure that staging finds: of the format, else of the gate, else of the ranges. -/
def stagingFault (h : Hdr) (g : Gate) (ranges : Session → State → Option (Nat × Nat)) (e : Session) (s : State) : Option (Nat × Nat) :=
  if flagsOver h (cflagsMask g.opcode) then some (stMalformed, 0) else (gateRefusal g e s).or (ranges e s)

theorem stagingFault_of_gate {ranges : Session → State → Option (Nat × Nat)} {e : Session}
    (flags : flagsOver h (cflagsMask g.opcode) = false) (gate : gateRefusal g e s = none) :
    stagingFault h g ranges e s = ranges e s := by
  simp [stagingFault, flags, gate]

theorem hosted_of_sorus_ne_zero {ranges : Session → State → Option (Nat × Nat)} {run : Session → State → State} {e : Session}
    (ready : s.boot.stage = 6) (running : s.boot.pauseUntil = none) (he : s.session h.session = some e) (hs : h.sorus ≠ 0) :
    hosted i h g ranges run s = .next (stage i h g (stagingFault h g ranges e s) s) := by
  cases gate : gateRefusal g e s <;> simp [hosted, stagingFault, ready, running, he, hs, gate]

end

/-- Naming a sorus is a fault of the ranges of RESET with SCOPE 1 (R375). -/
theorem exec_resetWarm (h : Hdr) (s : State) :
    exec (.resetWarm h) s = hosted (.resetWarm h) h ⟨0x0A05, roleOperate, 0⟩ (fun _ _ => badIf (h.sorus ≠ 0))
      (fun _ s => warmReset 2 (replyOk h 0x0A05 [] s)) s := rfl

/-- Settles O53: an opcode outside the list aborts the sorus before any fault of its own is looked at, and RESET with SCOPE 1, whose
opcode is in the list, fails in its ranges. -/
theorem onlyTheseOpcodesStage : Obligations.OnlyTheseOpcodesStage := by
  refine ⟨fun op => List.contains_iff_mem, fun i h g ranges run e x s ready running he hs hx ofSession opened hop => ?_,
    fun h e x s ready running he flags gate hs hx ofSession opened => ?_⟩
  · have aborted : (abortSorus x.id s.boot.pkg x.staged.length 0x0013 (reply h g.opcode 0x0013 0 [] s)).sorus h.sorus =
        some x.aborted := by
      rw [State.sorus_id hx]
      exact sorus_abortSorus ((sorus_reply ..).trans hx) (by omega) (by omega) ..
    refine ⟨_, x.aborted, ?_, rfl, aborted, rfl, rfl, by simp⟩
    rw [hosted_of_sorus_ne_zero ready running he hs, stage_of_not_stageable hx ofSession opened hop, stBadParam]
  · have fault : stagingFault h ⟨0x0A05, roleOperate, 0⟩ (fun _ _ => badIf (h.sorus ≠ 0)) e s = some (stBadParam, 0) := by
      rw [stagingFault_of_gate flags gate, badIf, decide_eq_true hs, if_pos rfl]
    rw [exec_resetWarm, hosted_of_sorus_ne_zero ready running he hs, fault, stage_of_fault hx ofSession opened rfl, stBadParam]

end Sys2Proof.Machine
end

section
/-! The end of contexts (R397): the numbers of the contexts, what the end of a command and of all the commands of a context leaves
under an id, and which contexts CTX_DESTROY and the loss of a principal take, from which the statement about both is assembled. -/
namespace Sys2Proof.Machine
open Sys2Proof.Claims

/-! ### The numbers of the contexts that are not FREE -/

/-- The numbers of the live and torn-down contexts. -/
def State.ctxNums (s : State) : List Nat := s.jobs.ctxs.map fun c => c.num

theorem State.ctx_eq_none_iff {s : State} {n : Nat} : s.ctx n = none ↔ n ∉ s.ctxNums := by
  simp [State.ctx, State.ctxNums]

theorem State.mem_ctxs_of_ctx {s : State} {n : Nat} {c : Ctx} (hc : s.ctx n = some c) : c ∈ s.jobs.ctxs ∧ c.num = n :=
  ⟨List.mem_of_find?_eq_some hc, by simpa using List.find?_some (p := fun x : Ctx => decide (x.num = n)) hc⟩

theorem State.ctxNums_of_jobs {s t : State} (h : t.jobs = s.jobs) : t.ctxNums = s.ctxNums := by rw [ctxNums, h, ctxNums]

theorem ctxNums_setCtx (n : Nat) (f : Ctx → Ctx) (hf : ∀ c, (f c).num = c.num) (s : State) : (setCtx n f s).ctxNums = s.ctxNums := by
  simp only [State.ctxNums, setCtx_ctxs, updBy, List.map_map]
  exact List.map_congr_left fun c _ => by simp only [Function.comp_apply, apply_ite Ctx.num, hf, ite_self]

/-! ### The end of a command (R148) -/

/-- A running command after its end: retired without a run, and with no commit to come. -/
def Cmd.cut (c : Cmd) : Cmd := { clearRun c with phase := .retired, committed := true, retireBeat := 0 }

/-- What its end leaves of a command: nothing of one that waits, one that is over as it is, and a running one cut. -/
def Cmd.ended (c : Cmd) : Option Cmd := if c.phase = .waiting then none else if c.phase.over then some c else some c.cut

/-- What an end leaves is over, and it has no commit to come and no lists unless it was over before. -/
theorem Cmd.over_of_ended {x y : Cmd} (h : x.ended = some y) :
    y.phase.over = true ∧ (x.phase.over = false → y.committed = true ∧ y.lists = []) := by
  unfold ended at h
  split at h
  · cases h
  · split at h
    next isOver => cases h; exact ⟨isOver, fun notOver => absurd isOver (by simp [notOver])⟩
    next => cases h; exact ⟨rfl, fun _ => ⟨rfl, rfl⟩⟩

theorem Cmd.ended_of_over {c : Cmd} (h : c.phase.over = true) : c.ended = some c := by
  have notWaiting : c.phase ≠ .waiting := fun hw => by simp [hw, Phase.over] at h
  rw [ended, if_neg notWaiting, if_pos h]

/-- A second end changes nothing. -/
theorem Cmd.bind_ended_bind_ended (o : Option Cmd) : (o.bind ended).bind ended = o.bind ended := by
  rw [Option.bind_assoc]
  refine Option.bind_congr fun x _ => ?_
  cases hy : x.ended with
  | none => rfl
  | some y => exact ended_of_over (over_of_ended hy).1

/-- The context of a command that is cut: the generation of the command stays blocked from its end on (R187). -/
def Ctx.blockGen (gen since : Nat) (x : Ctx) : Ctx := { x with blockedGens := x.blockedGens ++ [(gen, since)] }

/-- What `endCmd` can do to the jobs: its reply and the accesses that it drops are no part of them. -/
theorem endCmd_cases (id status : Nat) (s : State) :
    (s.cmd id = none ∧ endCmd id status s = s) ∨
    ∃ c, s.cmd id = some c ∧
      ((c.phase = .waiting ∧ (endCmd id status s).jobs = { s.jobs with cmds := s.jobs.cmds.filter fun x => x.id ≠ id }) ∨
      (c.phase.over = true ∧ endCmd id status s = s) ∨
      (c.phase ≠ .waiting ∧ c.phase.over = false ∧
        (endCmd id status s).jobs = (setCtx c.ctx (Ctx.blockGen c.gen s.beat.elapsed) (setCmd id Cmd.cut s)).jobs)) := by
  cases hc : s.cmd id with
  | none => exact .inl ⟨rfl, by simp only [endCmd, hc]⟩
  | some c =>
    refine .inr ⟨c, rfl, ?_⟩
    by_cases hw : c.phase = .waiting
    · exact .inl ⟨hw, by simp [endCmd, hc, hw]⟩
    · cases ho : c.phase.over with
      | true => exact .inr (.inl ⟨rfl, by simp [endCmd, hc, hw, ho]⟩)
      | false =>
        refine .inr (.inr ⟨hw, rfl, ?_⟩)
        simp only [endCmd, hc, hw, ho, if_false, Bool.false_eq_true, finishCmd_keeps, orphan_keeps, setCtx, setCmd]
        rfl

theorem cmd_of_jobs {s t : State} (h : t.jobs = s.jobs) (id : Nat) : t.cmd id = s.cmd id := lookups_of.1 h id

theorem ctx_of_jobs {s t : State} (h : t.jobs = s.jobs) (n : Nat) : t.ctx n = s.ctx n := lookups_of.2.1 h n

theorem cmd_setCtx (n : Nat) (f : Ctx → Ctx) (s : State) (id : Nat) : (setCtx n f s).cmd id = s.cmd id := rfl

theorem cmd_setCmd_of_ne {id k : Nat} (h : k ≠ id) {f : Cmd → Cmd} (hf : ∀ c, (f c).id = c.id) (s : State) :
    (setCmd k f s).cmd id = s.cmd id := by
  rw [State.cmd, setCmd_cmds, State.cmd]
  exact find_updBy_ne _ _ f (fun c => by rw [hf]) (fun c hc => by simp_all) _

theorem cmd_endCmd (id status : Nat) (s : State) : (endCmd id status s).cmd id = (s.cmd id).bind Cmd.ended := by
  obtain ⟨hc, same⟩ | ⟨c, hc, ⟨hw, gone⟩ | ⟨ho, same⟩ | ⟨hw, ho, cut⟩⟩ := endCmd_cases id status s
  · rw [same, hc, Option.bind_none]
  · have left : (endCmd id status s).cmd id = none := by simp [State.cmd, gone]
    rw [left, hc, Option.bind_some, Cmd.ended, if_pos hw]
  · rw [same, hc, Option.bind_some, Cmd.ended_of_over ho]
  · rw [cmd_of_jobs cut, cmd_setCtx, cmd_setCmd id Cmd.cut (fun _ => rfl), hc, Option.bind_some, Cmd.ended, if_neg hw, ho]
    rfl

theorem cmd_endCmd_of_ne {id k : Nat} (h : k ≠ id) (status : Nat) (s : State) : (endCmd k status s).cmd id = s.cmd id := by
  obtain ⟨_, same⟩ | ⟨c, _, ⟨_, gone⟩ | ⟨_, same⟩ | ⟨_, _, cut⟩⟩ := endCmd_cases k status s
  · rw [same]
  · rw [State.cmd, gone, List.find?_filter, State.cmd]
    exact congrArg (List.find? · s.jobs.cmds) (funext fun c => by by_cases hc : c.id = id <;> simp [hc, h.symm])
  · rw [same]
  · rw [cmd_of_jobs cut, cmd_setCtx, cmd_setCmd_of_ne h (f := Cmd.cut) fun _ => rfl]

theorem ctxNums_endCmd (id status : Nat) (s : State) : (endCmd id status s).ctxNums = s.ctxNums := by
  obtain ⟨_, same⟩ | ⟨c, _, ⟨_, gone⟩ | ⟨_, same⟩ | ⟨_, _, cut⟩⟩ := endCmd_cases id status s
  · rw [same]
  · rw [State.ctxNums, gone, State.ctxNums]
  · rw [same]
  · rw [State.ctxNums_of_jobs cut, ctxNums_setCtx _ (Ctx.blockGen _ _) fun _ => rfl, State.ctxNums, setCmd_ctxs, State.ctxNums]

/-! ### The end of the commands of a context -/

/-- Commands that end one after the other: each id of the list is ended, however often it stands there. -/
theorem cmd_foldl_endCmd (status id : Nat) (cs : List Cmd) (s : State) :
    (cs.foldl (fun s c => endCmd c.id status s) s).cmd id =
      if id ∈ cs.map Cmd.id then (s.cmd id).bind Cmd.ended else s.cmd id := by
  induction cs generalizing s with
  | nil => rfl
  | cons c cs ih =>
    rw [List.foldl_cons, ih, List.map_cons]
    by_cases hc : c.id = id
    · rw [hc, if_pos List.mem_cons_self, cmd_endCmd, Cmd.bind_ended_bind_ended, ite_self]
    · rw [cmd_endCmd_of_ne hc]
      simp only [List.mem_cons, Ne.symm hc, false_or]

theorem cmd_endCmdsOf {n id : Nat} {x : Cmd} {s : State} (hx : s.cmd id = some x) (ofCtx : x.ctx = n) (status : Nat) :
    (endCmdsOf n status s).cmd id = x.ended := by
  have hid : x.id = id := by simpa using List.find?_some (p := fun c : Cmd => decide (c.id = id)) hx
  have listed : id ∈ (s.jobs.cmds.filter fun c => c.ctx = n).map Cmd.id :=
    List.mem_map.mpr ⟨x, by simpa [ofCtx] using List.mem_of_find?_eq_some hx, hid⟩
  rw [endCmdsOf, cmd_foldl_endCmd, if_pos listed, hx, Option.bind_some]

theorem ctxNums_endCmdsOf (n status : Nat) (s : State) : (endCmdsOf n status s).ctxNums = s.ctxNums :=
  foldl_keeps State.ctxNums _ (fun s (c : Cmd) => ctxNums_endCmd c.id status s) _ s

/-! ### The end of a context (R397) -/

theorem endMove_jobs (h : Handle) (status : Nat) (s : State) : (endMove h status s).jobs = s.jobs := by
  unfold endMove
  split
  · simp only [finish_keeps]
  · rfl

/-- The waits of a context are its pre-emptions, allocations, snapshots and moves, and of the jobs it loses the pre-emptions. -/
theorem endWaits_jobs (n status : Nat) (s : State) :
    (endWaits n status s).jobs = { s.jobs with preempts := s.jobs.preempts.filter fun p => p.ctx ≠ n } := by
  simp [endWaits, endMove_jobs]

theorem restAcct_ctxs (p : Nat) (s : State) : (restAcct p s).jobs.ctxs = s.jobs.ctxs := by
  unfold restAcct
  split <;> rfl

theorem restAcct_cmds (p : Nat) (s : State) : (restAcct p s).jobs.cmds = s.jobs.cmds := by
  unfold restAcct
  split <;> rfl

/-- A destroyed context leaves the commands as their ends leave them. -/
theorem cmd_destroyCtx {n : Nat} {c : Ctx} {s : State} (hc : s.ctx n = some c) (id : Nat) :
    (destroyCtx n s).cmd id = (endCmdsOf n stCancelled s).cmd id := by
  simp only [State.cmd, destroyCtx, hc, restAcct_cmds, dropJobBlocks_keeps, freeHandlesOf_keeps, endWaits_jobs]

theorem ctxNums_destroyCtx (n : Nat) (s : State) : (destroyCtx n s).ctxNums = s.ctxNums.filter fun k => k ≠ n := by
  cases hc : s.ctx n with
  | none =>
    have absent := State.ctx_eq_none_iff.mp hc
    have kept : ∀ k ∈ s.ctxNums, decide (k ≠ n) = true := fun k hk => decide_eq_true fun h => absent (h ▸ hk)
    simp only [destroyCtx, hc]
    exact (List.filter_eq_self.mpr kept).symm
  | some c =>
    rw [← ctxNums_endCmdsOf n stCancelled s]
    simp only [State.ctxNums, destroyCtx, hc, restAcct_ctxs, dropJobBlocks_keeps, freeHandlesOf_keeps, endWaits_jobs,
      List.filter_map, Function.comp_def]

theorem ctx_destroyCtx (n : Nat) (s : State) : (destroyCtx n s).ctx n = none := by
  simp [State.ctx_eq_none_iff, ctxNums_destroyCtx]

theorem mem_ctxNums_foldl_destroyCtx {k : Nat} {cs : List Ctx} {s : State} :
    k ∈ (cs.foldl (fun s c => destroyCtx c.num s) s).ctxNums ↔ k ∈ s.ctxNums ∧ ∀ c ∈ cs, k ≠ c.num := by
  induction cs generalizing s with
  | nil => simp
  | cons c cs ih => simp [ih, ctxNums_destroyCtx, and_assoc]

theorem ctx_losePrincipal {p n : Nat} {c : Ctx} {s : State} (hc : s.ctx n = some c) (made : c.principal = p)
    (notPersist : c.persist = false) (notZero : n ≠ 0) : (losePrincipal p s).ctx n = none := by
  obtain ⟨mem, rfl⟩ := State.mem_ctxs_of_ctx hc
  have listed : c ∈ s.jobs.ctxs.filter fun c => c.principal = p && !c.persist && decide (c.num ≠ 0) :=
    List.mem_filter.mpr ⟨mem, by simp [made, notPersist, notZero]⟩
  rw [State.ctx_eq_none_iff, losePrincipal, mem_ctxNums_foldl_destroyCtx]
  exact fun left => left.2 c listed rfl

/-! ### CTX_DESTROY and PRINCIPAL_LOSS -/

/-- A command that is served and breaks none of its ranges is carried out. -/
theorem hosted_of_served {i : Instr} {h : Hdr} {g : Gate} {e : Session} {s : State} (served : Served i h g e s)
    {ranges : Session → State → Option (Nat × Nat)} (inRange : ranges e s = none) (run : Session → State → State) :
    hosted i h g ranges run s = .next (run e s) := by
  obtain ⟨ready, running, he, flags, gate, noSorus, free⟩ := served
  simp [hosted, ready, running, he, flags, gate, noSorus, free, inRange]

theorem exec_ctxDestroy (h : Hdr) (n : Nat) (s : State) :
    exec (.ctxDestroy h n) s = hosted (.ctxDestroy h n) h ⟨0x0307, roleJobs, featLearn⟩
      (fun e s => (ctxRefusal s e.principal n).filter fun r => r.2 ≠ 0x58)
      (fun _ s => if ctxHasWork s n && !tbit h.cflags 0 then reply h 0x0307 stConflict 0x50 [] s
        else replyOk h 0x0307 [] (destroyCtx n s)) s := rfl

/-- Of the owner of a context, CTX_DESTROY destroys it, live or torn down, unless it has work and FORCE is not given. -/
theorem exec_ctxDestroy_of_owner {h : Hdr} {n : Nat} {c : Ctx} {e : Session} {s : State}
    (served : Served (.ctxDestroy h n) h ⟨0x0307, roleJobs, featLearn⟩ e s) (hc : s.ctx n = some c) (notZero : n ≠ 0)
    (owner : c.principal = e.principal) :
    exec (.ctxDestroy h n) s = .next (if ctxHasWork s n && !tbit h.cflags 0 then reply h 0x0307 stConflict 0x50 [] s
      else replyOk h 0x0307 [] (destroyCtx n s)) := by
  have inRange : ((ctxRefusal s e.principal n).filter fun r => r.2 ≠ 0x58) = none := by
    cases torn : c.torn <;> simp [ctxRefusal, hc, notZero, owner, torn]
  rw [exec_ctxDestroy, hosted_of_served served inRange]

/-- With no work, or with FORCE, it destroys the context. -/
theorem exec_ctxDestroy_of_allowed {h : Hdr} {n : Nat} {c : Ctx} {e : Session} {s : State}
    (served : Served (.ctxDestroy h n) h ⟨0x0307, roleJobs, featLearn⟩ e s) (hc : s.ctx n = some c) (notZero : n ≠ 0)
    (owner : c.principal = e.principal) (allowed : ctxHasWork s n = false ∨ tbit h.cflags 0 = true) :
    exec (.ctxDestroy h n) s = .next (replyOk h 0x0307 [] (destroyCtx n s)) := by
  rw [exec_ctxDestroy_of_owner served hc notZero owner, if_neg]
  obtain idle | force := allowed
  · simp [idle]
  · simp [force]

theorem ctx_replyOk_destroyCtx (h : Hdr) (n : Nat) (s : State) : (replyOk h 0x0307 [] (destroyCtx n s)).ctx n = none := by
  rw [ctx_of_jobs (s := destroyCtx n s) (by simp)]
  exact ctx_destroyCtx n s

theorem exec_principalLoss_of_due {p : Nat} {s : State} (noSession : ∀ e ∈ s.net.sessions, e.principal ≠ p)
    (due : ∃ g ∈ s.net.gone, g.principal = p ∧ g.since + 60000000 ≤ s.beat.elapsed) :
    ∃ t, exec (.principalLoss p) s = .next t ∧ t.jobs = (losePrincipal p s).jobs := by
  have isDue : (s.net.gone.any fun g => g.principal = p && decide (g.since + 60000000 ≤ s.beat.elapsed)) = true := by simpa using due
  have isGone : (s.net.sessions.any fun e => e.principal = p) = false := by simpa using noSession
  simp [exec, execPrincipalLoss, isDue, isGone]

/-- Settles O54: CTX_DESTROY answers by `exec_ctxDestroy_of_owner`, the commands of the context are what their ends leave of them, and
the loss of a principal takes the numbers of its contexts away one after the other. -/
theorem contextsAreDestroyed : Obligations.ContextsAreDestroyed := by
  refine ⟨fun h n c e s served hc notZero owner _ idle => ?_, fun h n c e s served hc notZero owner _ work noForce => ?_,
    fun h n c e s served hc notZero owner _ mayEnd => ?_, fun p s noSession due => ?_⟩
  · exact ⟨_, exec_ctxDestroy_of_allowed served hc notZero owner (.inl idle), ctx_replyOk_destroyCtx ..⟩
  · rw [exec_ctxDestroy_of_owner served hc notZero owner, work, noForce]
    rfl
  · refine ⟨_, exec_ctxDestroy_of_allowed served hc notZero owner mayEnd, ctx_replyOk_destroyCtx .., by simp, ?_⟩
    intro id x hx ofCtx y hy
    rw [cmd_of_jobs (s := destroyCtx n s) (by simp), cmd_destroyCtx hc, cmd_endCmdsOf hx ofCtx] at hy
    exact Cmd.over_of_ended hy
  · obtain ⟨t, ht, jobs⟩ := exec_principalLoss_of_due noSession due
    refine ⟨t, ht, fun n c hc made notPersist notZero => ?_⟩
    rw [ctx_of_jobs jobs]
    exact ctx_losePrincipal hc made notPersist notZero

end Sys2Proof.Machine
end

section
/-! The numbers of records (R443): what a fold and a new entry do to the circulating area and to the number the next record takes,
what an event enters while nothing is frozen, and the statement about sequence numbers assembled from them. -/
namespace Sys2Proof.Machine

@[simp] theorem getLast?_setLast (rs : List Rec) (r : Rec) : (setLast rs r).getLast? = some r := List.getLast?_concat

theorem length_setLast {rs : List Rec} (h : rs ≠ []) (r : Rec) : (setLast rs r).length = rs.length := by
  have := List.length_pos_iff.mpr h
  simp only [setLast, List.length_append, List.length_dropLast, List.length_singleton]
  omega

/-! ### The two ways a record enters (R444, R446) -/

/-- A fold replaces the latest record of the circulating area and touches nothing else of the recorder's volatile part. -/
theorem rime_enterRec_of_folds {e r : Rec} {s : State} (hlast : s.rime.circ.getLast? = some r) (folds : foldsInto e r = true) :
    (enterRec e s).rime = { s.rime with circ := setLast s.rime.circ (foldRec r e) } := by
  simp only [enterRec, hlast, folds, if_true]
  split <;> rfl

theorem enterRec_of_not_folds {e : Rec} {s : State} (h : ∀ r, s.rime.circ.getLast? = some r → foldsInto e r = false) :
    enterRec e s = enterRec.enterNew e s := by
  cases hlast : s.rime.circ.getLast? with
  | none => simp only [enterRec, hlast]
  | some r => simp [enterRec, hlast, h r hlast]

theorem circ_enterNew (e : Rec) (s : State) :
    (enterRec.enterNew e s).rime.circ =
      (s.rime.circ ++ [{ e with seq := s.rime.next }]).drop (s.rime.circ.length + 1 - 8192) := by
  simp [enterRec.enterNew]

@[simp] theorem next_enterNew (e : Rec) (s : State) : (enterRec.enterNew e s).rime.next = (s.rime.next + 1) % 2 ^ 32 := rfl

/-- Dropping the records beyond 8,192 never drops the one that has just entered. -/
theorem getLast?_circ_enterNew (e : Rec) (s : State) :
    (enterRec.enterNew e s).rime.circ.getLast? = some { e with seq := s.rime.next } := by
  have kept : ¬ (s.rime.circ ++ [{ e with seq := s.rime.next }]).length ≤ s.rime.circ.length + 1 - 8192 := by
    simp only [List.length_append, List.length_singleton]
    omega
  rw [circ_enterNew, List.getLast?_drop, if_neg kept, List.getLast?_concat]

/-! ### The first record of an empty recorder (R450) -/

/-- While nothing is frozen an event enters at once, as a record of its type. -/
theorem record_of_not_frozen {s : State} (h : s.rime.freeze = none) (type sev source : Nat) (payload : List Byte) :
    ∃ e : Rec, e.type = type ∧ record type sev source payload s = enterRec e s := by
  refine ⟨⟨type, sev, source, 1, (stampNow s).1, (stampNow s).2, (stampNow s).1, (stampNow s).2, false, 0, padPayload payload,
    s.beat.elapsed, s.beat.elapsed⟩, rfl, ?_⟩
  simp [record, h]

theorem record_of_empty {s : State} (notFrozen : s.rime.freeze = none) (empty : s.rime.circ = []) (type sev source : Nat)
    (payload : List Byte) :
    ∃ y, (record type sev source payload s).rime.circ = [y] ∧ y.seq = s.rime.next ∧ y.type = type ∧
      (record type sev source payload s).rime.next = (s.rime.next + 1) % 2 ^ 32 := by
  obtain ⟨e, rfl, entered⟩ := record_of_not_frozen notFrozen type sev source payload
  have isNew : enterRec e s = enterRec.enterNew e s := enterRec_of_not_folds (by simp [empty])
  rw [entered, isNew]
  exact ⟨{ e with seq := s.rime.next }, by simp [circ_enterNew, empty], rfl, rfl, next_enterNew e s⟩

/-- CLEARED is recorded in an emptied recorder whose next number is 0; the freeze, put back afterwards, has no part in it. -/
theorem clearRecorder_leaves_cleared (principal : Nat) (s : State) :
    ∃ y, (clearRecorder principal s).rime.circ = [y] ∧ y.seq = 0 ∧ y.type = 0x0001 ∧ (clearRecorder principal s).rime.next = 1 := by
  simp only [clearRecorder]
  exact record_of_empty rfl rfl ..

/-- Settles O55: a record that does not fold takes the next number and moves it on by one, a fold keeps the number of the record it
folds into, and after a clear CLEARED stands alone at 0. -/
theorem recordsAreNumbered : Obligations.RecordsAreNumbered := by
  refine ⟨fun r s notFolds => ?_, fun r x s hlast folds => ?_, clearRecorder_leaves_cleared⟩
  · rw [enterRec_of_not_folds notFolds]
    exact ⟨⟨_, getLast?_circ_enterNew r s, rfl⟩, next_enterNew r s⟩
  · have nonempty : s.rime.circ ≠ [] := List.ne_nil_of_mem (List.mem_of_getLast? hlast)
    rw [rime_enterRec_of_folds hlast folds]
    exact ⟨rfl, length_setLast nonempty _, foldRec x r, getLast?_setLast _ _, rfl⟩

end Sys2Proof.Machine
end

section
/-! The reset pins (R501): what a pulse on POR_L does by its length, what WARM_RST_L does by the pins and the stage of the start-up,
and the statement about both assembled from them. -/
namespace Sys2Proof.Machine
open Sys2Proof.Claims

/-! ### POR_L -/

theorem execPorAssert_of_long {us : Nat} (long : 1000 ≤ us) (s : State) :
    execPorAssert us s = .next { s.powerOn with pins := { s.powerOn.pins with porLow := true } } :=
  if_neg (Nat.not_lt.mpr long)

theorem execPorAssert_of_short {us : Nat} (short : us < 1000) (s : State) : execPorAssert us s = .next s :=
  if_pos short

/-! ### WARM_RST_L -/

/-- A power-on start before stage 4 is one of the times at which memory cannot be retained. -/
theorem warmActsAsPor_of_early {s : State} (powerOnStart : s.boot.resetKind = 0) (early : s.boot.stage < 4) :
    warmActsAsPor s = true := by
  simp [warmActsAsPor, powerOnStart, early]

theorem warmReset_of_porLow {s : State} (low : s.pins.porLow = true) (kind : Nat) : warmReset kind s = s := by
  simp [warmReset, low]

theorem warmReset_of_actsAsPor {s : State} (powered : Powered s) (notInRefresh : s.boot.stage ≠ 9) (acts : warmActsAsPor s = true)
    (kind : Nat) : warmReset kind s = s.powerOn := by
  obtain ⟨released, pwrGood⟩ := powered
  simp [warmReset, released, pwrGood, notInRefresh, acts]

/-- Settles O56: 1,000 µs divide the pulses on POR_L, and WARM_RST_L does what `warmReset` does: nothing under POR_L, and the power-on
reset before stage 4, where the package is not in self-refresh. -/
theorem resetPins : Obligations.ResetPins := by
  refine ⟨fun us s long => execPorAssert_of_long long s, fun us s short => execPorAssert_of_short short s, fun s low => ?_,
    fun s powered powerOnStart early => ?_⟩
  · exact congrArg Host.Outcome.next (warmReset_of_porLow low 1)
  · have notInRefresh : s.boot.stage ≠ 9 := by omega
    exact congrArg Host.Outcome.next
      (warmReset_of_actsAsPor powered notInRefresh (warmActsAsPor_of_early powerOnStart early) 1)

end Sys2Proof.Machine
end

section
/-! The frames of memory's bytes that the operations which make room need (R252, R279): a victim's tiles start on their way, and no
byte moves before the move is switched in. -/
namespace Sys2Proof.Machine

/-- Room is made in HBM by starting moves, which store nothing yet. -/
theorem makeRoomHbm_cells {account : Option Nat} {n fuel : Nat} {s t : State} (h : makeRoomHbm account n fuel s = some t) :
    t.mem.cells = s.mem.cells := by
  induction fuel generalizing s with
  | zero =>
    unfold makeRoomHbm at h
    split at h <;> simp_all
  | succ fuel ih =>
    unfold makeRoomHbm at h
    split at h
    · simp_all
    · split at h
      · simp at h
      · split at h
        · simp at h
        · rename_i u hu
          have room := makeRoomLp_keeps _ _ _ _ _ hu
          split at h
          · simp at h
          · simpa [room] using ih h

/-- What `demandRoom` hands on, at once or for later. -/
theorem demandRoom_cells (tier : Nat) (account : Option Nat) (n : Nat) (s : State) :
    (∀ b t, demandRoom tier account n s = .now b t → t.mem.cells = s.mem.cells) ∧
      ∀ t, demandRoom tier account n s = .later t → t.mem.cells = s.mem.cells := by
  unfold demandRoom
  split
  · simp
  · dsimp only
    split
    · split <;> simp
    · rename_i u hu
      have kept : u.mem.cells = s.mem.cells := by
        split at hu
        · simp [makeRoomLp_keeps _ _ _ _ _ hu]
        · exact makeRoomHbm_cells hu
      split <;> simp_all

theorem demandRoom_now_cells {tier n b : Nat} {account : Option Nat} {s t : State} (h : demandRoom tier account n s = .now b t) :
    t.mem.cells = s.mem.cells := (demandRoom_cells tier account n s).1 b t h

theorem demandRoom_later_cells {tier n : Nat} {account : Option Nat} {s t : State} (h : demandRoom tier account n s = .later t) :
    t.mem.cells = s.mem.cells := (demandRoom_cells tier account n s).2 t h

theorem placeAll_cells (owner : Nat → Owner) (ts : List Tensor) (hbm : Bool) (s : State) :
    (∀ ps t, placeAll owner ts hbm s = .done ps t → t.mem.cells = s.mem.cells) ∧
      ∀ t, placeAll owner ts hbm s = .waits t → t.mem.cells = s.mem.cells :=
  placeAll_same (fun s => s.mem.cells) owner (fun _ _ _ _ _ => by simp) (fun _ _ _ _ _ h => demandRoom_now_cells h)
    (fun _ _ _ _ h => demandRoom_later_cells h) ts hbm s

@[simp] theorem placeManifest_cells (h : Hdr) (m : Manifest) (timeout source : Nat) (s : State) :
    (placeManifest h m timeout source s).mem.cells = s.mem.cells := by
  unfold placeManifest
  split
  case h_1 placed => simpa using (placeAll_cells _ _ _ _).1 _ _ placed
  case h_2 waits => simpa using (placeAll_cells _ _ _ _).2 _ waits
  case h_3 => simp

@[simp] theorem activatePrep_cells (modelId sets sid k : Nat) (s : State) :
    (activatePrep modelId sets sid k s).1.mem.cells = s.mem.cells := by
  unfold activatePrep
  (repeat' split) <;> grind [demandRoom_now_cells, demandRoom_later_cells, takeRegion_keeps, waitFor_keeps, pauseMoveFails_keeps]

@[simp] theorem allocPrep_cells (principal : Nat) (p : AllocP) (sid k : Nat) (s : State) :
    (allocPrep principal p sid k s).1.mem.cells = s.mem.cells := by
  unfold allocPrep
  (repeat' split) <;> grind [demandRoom_now_cells, demandRoom_later_cells, takeRegion_keeps, waitFor_keeps, pauseMoveFails_keeps]

@[simp] theorem prepOne_cells (principal : Nat) (i : Instr) (sid k : Nat) (s : State) :
    (prepOne principal i sid k s).1.mem.cells = s.mem.cells := by
  unfold prepOne
  split <;> simp

@[simp] theorem prepAll_cells (principal sid k : Nat) (is : List Instr) (s : State) :
    (prepAll principal sid k is s).1.mem.cells = s.mem.cells := by
  induction is generalizing k s with
  | nil => rfl
  | cons i is ih =>
    have one := prepOne_cells principal i sid k s
    unfold prepAll
    split
    · rfl
    · split <;> rename_i prepared <;> rw [prepared] at one
      · exact one
      · rw [ih, one]

@[simp] theorem memberPrepare_cells (sid : Nat) (s : State) : (memberPrepare sid s).mem.cells = s.mem.cells := by
  unfold memberPrepare
  (repeat' split) <;> grind [prepAll_cells, answerCoord_keeps, setSorus_keeps, dropReserved_keeps, abortSorus_keeps]

@[simp] theorem startPauseMove_cells (rid : Nat) (s : State) : (startPauseMove rid s).mem.cells = s.mem.cells := by
  unfold startPauseMove
  (repeat' split) <;> grind [demandRoom_now_cells, demandRoom_later_cells, takeRegion_keeps, waitFor_keeps, pauseMoveFails_keeps]

@[simp] theorem becomePaused_cells (rid : Nat) (s : State) : (becomePaused rid s).mem.cells = s.mem.cells := by
  simp [becomePaused]

@[simp] theorem settlePauses_cells (s : State) : (settlePauses s).mem.cells = s.mem.cells := by
  simp [settlePauses]

@[simp] theorem commitServing_cells (c : Cmd) (outs : List StepOut) (s : State) : (commitServing c outs s).mem.cells = s.mem.cells := by
  simp [commitServing]

@[simp] theorem commitStep_cells (c : Cmd) (outs : List StepOut) (s : State) : (commitStep c outs s).mem.cells = s.mem.cells := by
  unfold commitStep
  split <;> simp

/-! Frames of the operations that the laws have none for. -/

@[simp] theorem ite_cells (c : Prop) [Decidable c] (a b : MemSt) : (if c then a else b).cells = if c then a.cells else b.cells :=
  apply_ite MemSt.cells c a b

@[simp] theorem ite_undef (c : Prop) [Decidable c] (a b : MemSt) : (if c then a else b).undef = if c then a.undef else b.undef :=
  apply_ite MemSt.undef c a b

@[simp] theorem ite_counters (c : Prop) [Decidable c] (a b : FlashSt) :
    (if c then a else b).counters = if c then a.counters else b.counters := apply_ite FlashSt.counters c a b

@[simp] theorem ite_install (c : Prop) [Decidable c] (a b : FlashSt) :
    (if c then a else b).install = if c then a.install else b.install := apply_ite FlashSt.install c a b

@[simp] theorem holdRow_keeps (i : Instr) (s : State) :
    (holdRow i s).mem = s.mem ∧ (holdRow i s).flash = s.flash ∧ (holdRow i s).pins = s.pins ∧ (holdRow i s).pending = s.pending :=
  ⟨rfl, rfl, rfl, rfl⟩

@[simp] theorem spdmInSession_keeps (h : Hdr) (spdm : SpdmStep) (s : State) :
    (spdmInSession h spdm s).mem = s.mem ∧ (spdmInSession h spdm s).flash = s.flash ∧ (spdmInSession h spdm s).pins = s.pins ∧
      (spdmInSession h spdm s).pending = s.pending := by
  unfold spdmInSession
  split <;> simp

@[simp] theorem errorStall_keeps (ctx tier : Nat) (s : State) :
    (errorStall ctx tier s).mem = s.mem ∧ (errorStall ctx tier s).flash = s.flash ∧ (errorStall ctx tier s).pins = s.pins ∧
      (errorStall ctx tier s).pending = s.pending := by
  simp [errorStall]

@[simp] theorem passPiece_keeps (id : Nat) (members : List Nat) (p : BcastPart) (i : Nat) (data : List Byte) (s : State) :
    (passPiece id members p i data s).mem = s.mem ∧ (passPiece id members p i data s).flash = s.flash ∧
      (passPiece id members p i data s).pins = s.pins ∧ (passPiece id members p i data s).pending = s.pending := by
  simp [passPiece]

@[simp] theorem takePart_keeps (id : Nat) (members : List Nat) (p : BcastPart) (s : State) :
    (takePart id members p s).mem.undef = s.mem.undef ∧ (takePart id members p s).flash = s.flash ∧
      (takePart id members p s).pins = s.pins ∧ (takePart id members p s).pending = s.pending := by
  unfold takePart
  dsimp only
  cases p.piece <;> simp

@[simp] theorem addQueueEnergy_keeps (r : Reconcile) (suspect : Bool) (s : State) :
    (addQueueEnergy r suspect s).mem = s.mem ∧ (addQueueEnergy r suspect s).flash = s.flash ∧
      (addQueueEnergy r suspect s).pins = s.pins ∧ (addQueueEnergy r suspect s).pending = s.pending := by
  simp [addQueueEnergy]

@[simp] theorem noteFails_keeps (p : Place) (body : DBody) (s : State) :
    (noteFails p body s).mem = s.mem ∧ (noteFails p body s).flash = s.flash ∧ (noteFails p body s).pins = s.pins ∧
      (noteFails p body s).pending = s.pending := by
  unfold noteFails
  split <;> simp

@[simp] theorem stepEntry_keeps (p : Place) (i n : Nat) (s : State) :
    (stepEntry p i n s).mem = s.mem ∧ (stepEntry p i n s).flash = s.flash ∧ (stepEntry p i n s).pins = s.pins ∧
      (stepEntry p i n s).pending = s.pending := by
  simp [stepEntry]

@[simp] theorem reusePrefix_keeps (request donor first count posBase : Nat) (s : State) :
    (reusePrefix request donor first count posBase s).mem = s.mem ∧ (reusePrefix request donor first count posBase s).flash = s.flash ∧
      (reusePrefix request donor first count posBase s).pins = s.pins ∧
      (reusePrefix request donor first count posBase s).pending = s.pending := by
  unfold reusePrefix
  dsimp only
  split
  · split <;> simp
  · simp

@[simp] theorem leaveOps_keeps (s : State) :
    (leaveOps s).mem = s.mem ∧ (leaveOps s).flash = s.flash ∧ (leaveOps s).pins = s.pins ∧ (leaveOps s).pending = s.pending := by
  simp [leaveOps]

@[simp] theorem spoilWord_keeps (addr : Nat) (s : State) :
    (spoilWord addr s).mem.cells = s.mem.cells ∧ (spoilWord addr s).mem.undef = s.mem.undef ∧ (spoilWord addr s).flash = s.flash ∧
      (spoilWord addr s).pins = s.pins ∧ (spoilWord addr s).pending = s.pending := by
  unfold spoilWord
  dsimp only
  split <;> simp

@[simp] theorem heard_keeps (f : Frame) (s : State) :
    (heard f s).mem = s.mem ∧ (heard f s).flash = s.flash ∧ (heard f s).pins = s.pins ∧ (heard f s).pending = s.pending := by
  simp [heard]

end Sys2Proof.Machine
end

section
/-! The canonical form of memory over the operations that store bytes. `Canonical` says it of the two parts of memory that it depends
on, so that the frame lemmas rewrite through the operations that leave both alone. -/
namespace Sys2Proof.Machine

/-- The canonical form, said of the two parts of memory that it speaks of. -/
def Canonical (cells : List (Nat × Byte)) (undef : List Undef) : Prop :=
  ({ MemSt.zero with cells := cells, undef := undef } : MemSt).wf = true

theorem canonical_iff {m : MemSt} : Canonical m.cells m.undef ↔ m.wf = true :=
  iff_of_eq (congrArg (· = true) (wf_congr rfl rfl))

@[simp] theorem canonical_ite {c : Prop} [Decidable c] {a b : List (Nat × Byte)} {u : List Undef} (ha : Canonical a u)
    (hb : Canonical b u) : Canonical (if c then a else b) u := by
  split <;> assumption

theorem wf_of_undef {m : MemSt} {u : List Undef} (hu : m.undef = u) : Canonical m.cells u ↔ m.wf = true := by
  subst hu; exact canonical_iff

/-! ### Folds -/

theorem foldl_canonical {α : Type} {g : State → α → State} {u : List Undef} (undef : ∀ s x, (g s x).mem.undef = s.mem.undef)
    (step : ∀ s x, s.mem.undef = u → Canonical s.mem.cells u → Canonical (g s x).mem.cells u) (xs : List α) {s : State}
    (hu : s.mem.undef = u) (h : Canonical s.mem.cells u) : Canonical (xs.foldl g s).mem.cells u := by
  induction xs generalizing s with
  | nil => exact h
  | cons x xs ih => exact ih ((undef s x).trans hu) (step s x hu h)

/-! ### Stores -/

section
variable {u : List Undef}

@[simp] theorem storeBytes_canonical (a : Nat) (bs : List Byte) {s : State} (hu : s.mem.undef = u) (h : Canonical s.mem.cells u) :
    Canonical (storeBytes a bs s).mem.cells u := by
  rw [wf_of_undef (by simpa using hu)]
  exact storeBytes_wf a bs s ((wf_of_undef hu).mp h)

@[simp] theorem copyUnit_canonical (id : Nat) (x : Nat × Nat × Nat) {s : State} (hu : s.mem.undef = u) (h : Canonical s.mem.cells u) :
    Canonical (copyUnit id x s).mem.cells u := by
  rw [wf_of_undef (by simpa using hu)]
  exact copyUnit_wf id x s ((wf_of_undef hu).mp h)

@[simp] theorem applyWrite_canonical (a : Nat) (bs : List Byte) {s : State} (hu : s.mem.undef = u) (h : Canonical s.mem.cells u) :
    Canonical (applyWrite a bs s).mem.cells u := by
  rw [wf_of_undef (by simpa using hu)]
  exact applyWrite_wf a bs s ((wf_of_undef hu).mp h)

@[simp] theorem deliverFor_canonical (bump : Option (Nat × Nat × Nat × Nat)) (sink : Sink) (data : List Byte) {s : State}
    (hu : s.mem.undef = u) (h : Canonical s.mem.cells u) : Canonical (deliverFor bump sink data s).mem.cells u := by
  unfold deliverFor
  (repeat' split) <;> simp [hu, h]

@[simp] theorem deliver_canonical (sink : Sink) (data : List Byte) {s : State} (hu : s.mem.undef = u) (h : Canonical s.mem.cells u) :
    Canonical (deliver sink data s).mem.cells u := deliverFor_canonical none sink data hu h

@[simp] theorem loadPiece_canonical (o : Origin) (job home addr n : Nat) (sink : Sink) {s : State} (hu : s.mem.undef = u)
    (h : Canonical s.mem.cells u) : Canonical (loadPiece o job home addr n sink s).mem.cells u := by
  unfold loadPiece
  split <;> simp [hu, h]

@[simp] theorem storeRuns_canonical (runs : List (Nat × Nat)) (bs : List Byte) {s : State} (hu : s.mem.undef = u)
    (h : Canonical s.mem.cells u) : Canonical (storeRuns runs bs s).mem.cells u := by
  induction runs generalizing bs s with
  | nil => exact h
  | cons run runs ih => exact ih _ (by simpa using hu) (by simp [hu, h])

@[simp] theorem applyAtomic_canonical (op a value : Nat) {s : State} (hu : s.mem.undef = u) (h : Canonical s.mem.cells u) :
    Canonical (applyAtomic op a value s).mem.cells u := by
  unfold applyAtomic
  dsimp only
  split <;> simp [hu, h]

@[simp] theorem bumpCounter_canonical (i inc : Nat) {s : State} (hu : s.mem.undef = u) (h : Canonical s.mem.cells u) :
    Canonical (bumpCounter i inc s).mem.cells u := by
  simp [bumpCounter, hu, h]

@[simp] theorem endCopy_canonical (o : Origin) (bump : Nat × Nat × Nat × Nat) {s : State} (hu : s.mem.undef = u)
    (h : Canonical s.mem.cells u) : Canonical (endCopy o bump s).mem.cells u := by
  unfold endCopy
  dsimp only
  split <;> simp [hu, h]

@[simp] theorem answerAccess_canonical (x : Access) (ok cacheable : Bool) (data : List Byte) {s : State} (hu : s.mem.undef = u)
    (h : Canonical s.mem.cells u) : Canonical (answerAccess x ok cacheable data s).mem.cells u := by
  unfold answerAccess
  dsimp only
  (repeat' split) <;> simp [hu, h]

@[simp] theorem answerTxn_canonical (pkg agent seq result : Nat) {s : State} (hu : s.mem.undef = u) (h : Canonical s.mem.cells u) :
    Canonical (answerTxn pkg agent seq result s).mem.cells u := by
  unfold answerTxn
  (repeat' split) <;> simp [hu, h]

@[simp] theorem commitTxn_canonical (t : StagedTxn) {s : State} (hu : s.mem.undef = u) (h : Canonical s.mem.cells u) :
    Canonical (commitTxn t s).mem.cells u := by
  unfold commitTxn
  dsimp only
  split
  · have lines : ∀ (s : State) (x : Nat × Bool × Nat × List Byte),
        (if x.2.1 then s else applyWrite x.1 (maskInto x.2.2.1 (s.mem.read x.1 256) x.2.2.2) s).mem.undef = s.mem.undef := by
      intro s x; split <;> simp
    refine answerTxn_canonical _ _ _ _ ?_ (foldl_canonical lines (fun s x hu h => ?_) _ (by simpa using hu) (by simpa using h))
    · rw [foldl_keeps_mem_undef _ lines]; simpa using hu
    · split <;> simp [hu, h]
  · simp [hu, h]

@[simp] theorem commitTxns_canonical {s : State} (hu : s.mem.undef = u) (h : Canonical s.mem.cells u) :
    Canonical (commitTxns s).mem.cells u := by
  unfold commitTxns
  exact foldl_canonical (by simp) (fun s x hu h => by simp [hu, h]) _ hu h

@[simp] theorem switchLim_canonical (l : LimMove) {s : State} (hu : s.mem.undef = u) (h : Canonical s.mem.cells u) :
    Canonical (switchLim l s).mem.cells u := by
  unfold switchLim
  dsimp only
  (repeat' split) <;> simp [hu, h]

@[simp] theorem switchLims_canonical {s : State} (hu : s.mem.undef = u) (h : Canonical s.mem.cells u) :
    Canonical (switchLims s).mem.cells u :=
  foldl_canonical (by simp) (fun s x hu h => by simp [hu, h]) _ hu h

@[simp] theorem replicaEnters_canonical (modelId layer expert pkg lslot : Nat) (tiles : List (Nat × List Byte)) {s : State}
    (hu : s.mem.undef = u) (h : Canonical s.mem.cells u) : Canonical (replicaEnters modelId layer expert pkg lslot tiles s).mem.cells u := by
  unfold replicaEnters
  dsimp only
  (repeat' split) <;> simp [hu, h]

@[simp] theorem fillHandle_canonical (id offset : Nat) (data : List Byte) {s : State} (hu : s.mem.undef = u)
    (h : Canonical s.mem.cells u) : Canonical (fillHandle id offset data s).mem.cells u := by
  unfold fillHandle
  (repeat' split) <;> simp [hu, h]

theorem storeRow_canonical {c : Cmd} {slot off r format kExtent : Nat} {tag : Word} {data scales : List Byte} {s t : State}
    (ht : storeRow c slot off r format kExtent tag data scales s = some t) (hu : s.mem.undef = u) (h : Canonical s.mem.cells u) :
    Canonical t.mem.cells u := by
  unfold storeRow at ht
  split at ht <;> cases ht
  simp [hu, h]

theorem unshare_canonical {rid : Nat} {s t : State} (ht : unshare rid s = some t) (hu : s.mem.undef = u)
    (h : Canonical s.mem.cells u) : Canonical t.mem.cells u := by
  unfold unshare at ht
  (repeat' split at ht) <;> cases ht
  · exact h
  · exact h
  · rename_i taken
    have set := takeSet_keeps _ _ _ taken
    simp_all

theorem extendPages_canonical {rid slots : Nat} {s t : State} (ht : extendPages rid slots s = some t) (hu : s.mem.undef = u)
    (h : Canonical s.mem.cells u) : Canonical t.mem.cells u := by
  unfold extendPages at ht
  (repeat' split at ht) <;> cases ht
  rename_i alone _ _ _ _ _ _ taken
  have shared := unshare_keeps _ _ _ alone
  have sets := takeSets_keeps _ _ _ _ taken
  have form := unshare_canonical alone hu h
  simp_all

@[simp] theorem freezePlan_canonical (decode : Bool) (modelId : Nat) (fixedEpoch : Option Nat) (plan : List PlanItem) {s : State}
    (hu : s.mem.undef = u) (h : Canonical s.mem.cells u) :
    Canonical (freezePlan decode modelId fixedEpoch plan s).2.mem.cells u := by
  induction plan generalizing s with
  | nil => exact h
  | cons i is ih =>
    unfold freezePlan
    split
    · exact ih hu h
    · rename_i extended
      obtain ⟨n, _, extended⟩ := Option.bind_eq_some_iff.mp extended
      have kept := extendPages_keeps _ _ _ _ extended
      simp_all [extendPages_canonical extended hu h]

@[simp] theorem finishPauseMove_canonical (rid : Nat) {s : State} (hu : s.mem.undef = u) (h : Canonical s.mem.cells u) :
    Canonical (finishPauseMove rid s).mem.cells u := by
  unfold finishPauseMove
  dsimp only
  (repeat' split) <;> try exact h
  simpa using foldl_canonical (by simp) (fun s x hu h => by simp [hu, h]) _ hu h

@[simp] theorem finishResumeMove_canonical (rid : Nat) {s : State} (hu : s.mem.undef = u) (h : Canonical s.mem.cells u) :
    Canonical (finishResumeMove rid s).mem.cells u := by
  unfold finishResumeMove
  dsimp only
  (repeat' split) <;> try exact h
  simpa using foldl_canonical (by simp) (fun s x hu h => by simp [hu, h]) _ hu h

@[simp] theorem acceptShard_canonical (modelId : Nat) (slot : Option Nat) (x : Shard) (images : List (Nat × List Byte)) {s : State}
    (hu : s.mem.undef = u) (h : Canonical s.mem.cells u) : Canonical (acceptShard modelId slot x images s).mem.cells u := by
  unfold acceptShard
  dsimp only
  split
  · exact h
  · simpa using foldl_canonical (by simp) (fun s x hu h => by simp [hu, h]) _ hu h

@[simp] theorem applyAt_canonical (job addr : Nat) (kind : AccessKind) {s : State} (hu : s.mem.undef = u) (h : Canonical s.mem.cells u) :
    Canonical (applyAt job addr kind s).1.mem.cells u := by
  unfold applyAt
  dsimp only
  (repeat' split) <;> simp [hu, h]

@[simp] theorem serveRequest_canonical (r : FabReq) {s : State} (hu : s.mem.undef = u) (h : Canonical s.mem.cells u) :
    Canonical (serveRequest r s).mem.cells u := by
  unfold serveRequest
  split
  · rename_i commit entries _
    have staged := stageTxn_keeps r commit entries s
    split
    grind [sendFab_keeps]
  · simpa using h
  · have applied := applyAt_canonical r.job r.addr r.kind hu h
    split
    rename_i result
    simpa [result] using applied

@[simp] theorem serveHeld_canonical (fuel pkg agent : Nat) {s : State} (hu : s.mem.undef = u) (h : Canonical s.mem.cells u) :
    Canonical (serveHeld fuel pkg agent s).mem.cells u := by
  induction fuel generalizing s with
  | zero => exact h
  | succ fuel ih =>
    unfold serveHeld
    dsimp only
    (repeat' split)
    · exact h
    · exact ih (by simp [hu]) (by simp [hu, h])
    · exact ih (by simp [hu]) (by simp [hu, h])

@[simp] theorem takePart_canonical (id : Nat) (members : List Nat) (p : BcastPart) {s : State} (hu : s.mem.undef = u)
    (h : Canonical s.mem.cells u) : Canonical (takePart id members p s).mem.cells u := by
  unfold takePart
  dsimp only
  cases p.piece <;> simp [hu, h]

end

end Sys2Proof.Machine
end

section
/-! The canonical form over data accesses, stations and engines. `Moved.Sound` says that what a move leaves, when it leaves a state, has
the form. -/
namespace Sys2Proof.Machine

/-- What the move leaves, if it succeeds, has the canonical form with these undefined ranges. -/
def Moved.Sound (u : List Undef) : Moved → Prop
  | .ok t => t.mem.undef = u ∧ Canonical t.mem.cells u
  | .bad _ => True

section
variable {u : List Undef}

@[simp] theorem sound_ok {t : State} : (Moved.ok t).Sound u ↔ t.mem.undef = u ∧ Canonical t.mem.cells u := Iff.rfl

@[simp] theorem sound_bad (e : Nat) : (Moved.bad e).Sound u := trivial

theorem foldl_sound {α : Type} {g : Moved → α → Moved} (step : ∀ r x, r.Sound u → (g r x).Sound u) (xs : List α) {r : Moved}
    (h : r.Sound u) : (xs.foldl g r).Sound u := by
  induction xs generalizing r with
  | nil => exact h
  | cons x xs ih => exact ih (step r x h)

theorem eachMove_sound {α : Type} {f : α → State → Moved}
    (step : ∀ x s, s.mem.undef = u → Canonical s.mem.cells u → (f x s).Sound u) (xs : List α) {s : State} (hu : s.mem.undef = u)
    (h : Canonical s.mem.cells u) :
    (eachMove f xs s).1.Sound u ∧ (eachMove f xs s).2.mem.undef = u ∧ Canonical (eachMove f xs s).2.mem.cells u := by
  induction xs generalizing s with
  | nil => simp [eachMove, hu, h]
  | cons x xs ih =>
    have one := step x s hu h
    unfold eachMove
    cases hf : f x s with
    | ok v => rw [hf] at one; exact ih one.1 one.2
    | bad e => simp [hu, h]

/-! ### Accesses to slots and ranges -/

@[simp] theorem loadTo_sound (c : Cmd) (o : Origin) (addr n : Nat) (sink : Sink) {s : State} (hu : s.mem.undef = u)
    (h : Canonical s.mem.cells u) : (loadTo c o addr n sink s).Sound u := by
  unfold loadTo
  split
  · simp
  · refine foldl_sound (fun r x hr => ?_) _ (by simp [hu, h])
    cases r with
    | bad e => simp
    | ok v =>
      obtain ⟨vu, vc⟩ := hr
      dsimp only
      (repeat' split) <;> simp [vu, vc]

@[simp] theorem storeTo_sound (c : Cmd) (o : Origin) (addr : Nat) (data : List Byte) {s : State} (hu : s.mem.undef = u)
    (h : Canonical s.mem.cells u) : (storeTo c o addr data s).Sound u := by
  unfold storeTo
  split
  · simp
  · refine foldl_sound (fun r x hr => ?_) _ (by simp [hu, h])
    cases r with
    | bad e => simp
    | ok v =>
      obtain ⟨vu, vc⟩ := hr
      dsimp only
      (repeat' split) <;> simp [vu, vc]

@[simp] theorem slotRead_sound (c : Cmd) (o : Origin) (slot off n : Nat) (sink : Sink) {s : State} (hu : s.mem.undef = u)
    (h : Canonical s.mem.cells u) : (slotRead c o slot off n sink s).Sound u := by
  unfold slotRead
  (repeat' split) <;> simp [hu, h]

@[simp] theorem slotWrite_sound (c : Cmd) (o : Origin) (slot off : Nat) (data : List Byte) {s : State} (hu : s.mem.undef = u)
    (h : Canonical s.mem.cells u) : (slotWrite c o slot off data s).Sound u := by
  unfold slotWrite
  (repeat' split) <;> simp [hu, h]

@[simp] theorem copyMove_sound (c : Cmd) (o : Origin) (f : ZCopyF) (a : Nat) {s : State} (hu : s.mem.undef = u)
    (h : Canonical s.mem.cells u) : (copyMove c o f a s).Sound u := by
  unfold copyMove
  (repeat' split) <;> simp [hu, h]

@[simp] theorem bufferRead_sound (c : Cmd) (o : Origin) (p : Place) (slot off n : Nat) {s : State} (hu : s.mem.undef = u)
    (h : Canonical s.mem.cells u) : (bufferRead c o p slot off n s).Sound u := by
  unfold bufferRead
  exact slotRead_sound _ _ _ _ _ _ (by simpa using hu) (by simpa using h)

@[simp] theorem fetchFace_sound (c : Cmd) (p : Place) (f : XferF) (hd : Handle) (off : Nat) {s : State} (hu : s.mem.undef = u)
    (h : Canonical s.mem.cells u) : (fetchFace c p f hd off s).Sound u := by
  unfold fetchFace
  dsimp only
  (repeat' split) <;> simp [hu, h]

@[simp] theorem fetchImage_sound (c : Cmd) (p : Place) (f : XferF) (desc k : Nat) {s : State} (hu : s.mem.undef = u)
    (h : Canonical s.mem.cells u) : (fetchImage c p f desc k s).Sound u := by
  unfold fetchImage
  dsimp only
  (repeat' split) <;> simp [hu, h]

@[simp] theorem faceWrite_sound (c : Cmd) (w : Nat × List Byte) {s : State} (hu : s.mem.undef = u) (h : Canonical s.mem.cells u) :
    (faceWrite c w s).Sound u := by
  unfold faceWrite
  (repeat' split) <;> simp [hu, h]

@[simp] theorem storeImage_sound (c : Cmd) (p : Place) (f : XferF) (desc k : Nat) (t : Tile) {s : State} (hu : s.mem.undef = u)
    (h : Canonical s.mem.cells u) : (storeImage c p f desc k t s).Sound u := by
  have faces := fun ws => (eachMove_sound (f := faceWrite c) (fun x s hu h => faceWrite_sound c x hu h) ws hu h).1
  unfold storeImage
  dsimp only
  (repeat' split) <;> try simp [hu, h]
  all_goals
    rename_i ws _ _ _ written
    simpa [written] using faces ws

@[simp] theorem issueAtomic_sound (c : Cmd) (o : Origin) (f : ZAtomicF) (x : Nat × Nat × Nat × Nat × Nat) {s : State}
    (hu : s.mem.undef = u) (h : Canonical s.mem.cells u) : (issueAtomic c o f x s).Sound u := by
  unfold issueAtomic
  dsimp only
  (repeat' split) <;> simp [hu, h]

@[simp] theorem stageOwn_sound (c : Cmd) (o : Origin) (f : ZTxnF) (es : List Byte) (sink : Sink) {s : State} (hu : s.mem.undef = u)
    (h : Canonical s.mem.cells u) : (stageOwn c o f es sink s).Sound u := by
  unfold stageOwn
  dsimp only
  (repeat' split) <;> simp [hu, h]

@[simp] theorem writeOne_sound (c : Cmd) (o : Origin) (w : MemWrite) {s : State} (hu : s.mem.undef = u) (h : Canonical s.mem.cells u) :
    (writeOne c o w s).Sound u := by
  unfold writeOne
  (repeat' split) <;> simp [hu, h]

@[simp] theorem readOne_sound (c : Cmd) (o : Origin) (st serial : Nat) (r : MemRead) {s : State} (hu : s.mem.undef = u)
    (h : Canonical s.mem.cells u) : (readOne c o st serial r s).Sound u := by
  unfold readOne
  dsimp only
  (repeat' split) <;> simp [hu, h]

theorem readAll_sound (c : Cmd) (o : Origin) (st serial : Option Nat) (rs : List MemRead) {s : State} (hu : s.mem.undef = u)
    (h : Canonical s.mem.cells u) :
    (readAll c o st serial rs s).1.Sound u ∧ (readAll c o st serial rs s).2.mem.undef = u ∧
      Canonical (readAll c o st serial rs s).2.mem.cells u := by
  unfold readAll
  split
  · exact eachMove_sound (fun x s hu h => readOne_sound c o _ _ x hu h) rs hu h
  · simp [hu, h]

/-! ### Stations and engines -/

theorem landMoves_canonical (p : Place) (i : Nat) (o : Origin) {r : Moved × State}
    (h : r.1.Sound u ∧ r.2.mem.undef = u ∧ Canonical r.2.mem.cells u) : Canonical (landMoves p i o r).mem.cells u := by
  unfold landMoves
  split <;> simp_all

@[simp] theorem applyMade_canonical (p : Place) (c : Cmd) (l : ListSt) (i : Nat) (m : Made) {s : State} (hu : s.mem.undef = u)
    (h : Canonical s.mem.cells u) : Canonical (applyMade p c l i m s).mem.cells u := by
  unfold applyMade
  dsimp only
  have written := eachMove_sound (u := u) (f := writeOne c (originOf c l i)) (fun x s hu h => writeOne_sound c _ x hu h) m.writes
    (s := setList c.id p.code (fun x => { m.list with queue := updAt i (fun e => e.stepped m) x.queue }) s) (by simpa using hu)
    (by simpa using h)
  split
  · rename_i failed
    rw [failed] at written
    simp [written]
  · rename_i v _ wrote
    rw [wrote] at written
    have read := readAll_sound (u := u) c (originOf c l i) (producedBy c p.code)
      ((producedBy c p.code).bind fun k => (c.streams[k]?).map fun e => e.carried) m.reads
      (s := putTo c.id p.code 1 m.out1 (putTo c.id p.code 0 m.out0 v)) (by simp [written.1.1]) (by simp [written.1.2])
    split <;> rename_i landed <;> rw [landed] at read
    · simpa using read.2.2
    · simpa using read.1.2

@[simp] theorem turn_canonical (p : Place) (body : DBody) (op : Bench → Work) (note : Bench → Nat) {s : State} (hu : s.mem.undef = u)
    (h : Canonical s.mem.cells u) : Canonical (turn p body op note s).1.mem.cells u := by
  unfold turn
  dsimp only
  (repeat' split) <;> simp [hu, h]

@[simp] theorem turns_canonical (p : Place) (body : DBody) (op : Bench → Work) (note : Bench → Nat) (n : Nat) {s : State}
    (hu : s.mem.undef = u) (h : Canonical s.mem.cells u) : Canonical (turns p body op note n s).mem.cells u := by
  induction n generalizing s with
  | zero => exact h
  | succ n ih =>
    have kept := turn_keeps p body op note s
    have one := turn_canonical p body op note hu h
    unfold turns
    split <;> rename_i turned <;> rw [turned] at kept one
    · exact ih (by simp_all) one
    · exact one

@[simp] theorem runNoted_canonical (p : Place) (body : DBody) (op : Bench → Work) (note : Bench → Nat) {s : State}
    (hu : s.mem.undef = u) (h : Canonical s.mem.cells u) : Canonical (runNoted p body op note s).mem.cells u := by
  simp [runNoted, hu, h]

@[simp] theorem runStation_canonical (p : Place) (body : DBody) (op : Bench → Work) {s : State} (hu : s.mem.undef = u)
    (h : Canonical s.mem.cells u) : Canonical (runStation p body op s).mem.cells u := by
  simp [runStation, hu, h]

end
end Sys2Proof.Machine
end

section
/-! The canonical form over the engines' descriptors and the exchange (R194 to R199, R331 to R337). -/
namespace Sys2Proof.Machine

section
variable {u : List Undef}

theorem withSource_canonical (c : Cmd) (o : Origin) (p : Place) (slot off n : Nat) {k : List Byte → State → State}
    (hk : ∀ b s, s.mem.undef = u → Canonical s.mem.cells u → Canonical (k b s).mem.cells u) {s : State} (hu : s.mem.undef = u)
    (h : Canonical s.mem.cells u) : Canonical (withSource c o p slot off n k s).mem.cells u := by
  unfold withSource
  dsimp only
  have started : (if (bufferOf s p).isSome = true then Moved.ok s else bufferRead c o p slot off n s).Sound u := by
    split <;> simp [hu, h]
  split <;> rename_i begun <;> rw [begun] at started
  · simpa using h
  · split
    · exact started.2
    · exact hk _ _ started.1 started.2

@[simp] theorem acceptResult_canonical (r : XRow) {s : State} (hu : s.mem.undef = u) (h : Canonical s.mem.cells u) :
    Canonical (acceptResult r s).mem.cells u := by
  unfold acceptResult
  (repeat' split) <;> try simp [h]
  rename_i stored
  exact storeRow_canonical stored hu h

@[simp] theorem acceptRow_canonical (r : XRow) {s : State} (hu : s.mem.undef = u) (h : Canonical s.mem.cells u) :
    Canonical (acceptRow r s).mem.cells u := by
  unfold acceptRow
  dsimp only
  (repeat' split) <;> simp [hu, h]

@[simp] theorem issueRow_canonical (o : Origin) (dest : Nat) (r : XRow) {s : State} (hu : s.mem.undef = u) (h : Canonical s.mem.cells u) :
    Canonical (issueRow o dest r s).mem.cells u := by
  unfold issueRow
  dsimp only
  (repeat' split) <;> simp [hu, h]

/-- Rows that leave one after another. -/
theorem issueRows_canonical {α : Type} (o : Origin) (dest : α → Nat) (row : α → XRow) (xs : List α) {s : State} (hu : s.mem.undef = u)
    (h : Canonical s.mem.cells u) : Canonical (xs.foldl (fun s x => issueRow o (dest x) (row x) s) s).mem.cells u :=
  foldl_canonical (by simp) (fun s x hu h => by simp [hu, h]) _ hu h

@[simp] theorem sendRounds_canonical (c : Cmd) (o : Origin) (p : Place) (f : ZXchgF) (modelId : Nat) (buf : List Byte) (n : Nat) {s : State}
    (hu : s.mem.undef = u) (h : Canonical s.mem.cells u) : Canonical (sendRounds c o p f modelId buf n s).mem.cells u := by
  unfold sendRounds
  split
  · exact h
  · refine foldl_canonical (fun s x => ?_) (fun s x hu h => ?_) _ hu h
    · split
      · rfl
      · simp
    · split
      · exact h
      · exact issueRows_canonical o _ _ _ (by simpa using hu) (by simpa using h)

@[simp] theorem placeDropped_canonical (c : Cmd) (p : Place) (f : ZXchgF) (buf : List Byte) (n x : Nat) {s : State} (hu : s.mem.undef = u)
    (h : Canonical s.mem.cells u) : Canonical (placeDropped c p f buf n x s).mem.cells u := by
  unfold placeDropped
  dsimp only
  refine foldl_canonical (fun s q => ?_) (fun s q hu h => ?_) _ (by simpa using hu) (by simpa using h)
  · cases stored : storeRow c f.ret (windowImage f q x) (x % 64) 0 0
        (Tag.word { tagOf ((bufferTile buf n q x).row (x % 64)).tag with gen := c.gen, pad := true }) [] [] s with
    | none => rfl
    | some t => simp [storeRow_keeps _ _ _ _ _ _ _ _ _ _ _ stored]
  · cases stored : storeRow c f.ret (windowImage f q x) (x % 64) 0 0
        (Tag.word { tagOf ((bufferTile buf n q x).row (x % 64)).tag with gen := c.gen, pad := true }) [] [] s with
    | none => exact h
    | some t => exact storeRow_canonical stored hu h

@[simp] theorem placeAllDropped_canonical (c : Cmd) (p : Place) (f : ZXchgF) (buf : List Byte) (n : Nat) (xs : List Nat) {s : State}
    (hu : s.mem.undef = u) (h : Canonical s.mem.cells u) :
    Canonical (xs.foldl (fun s x => placeDropped c p f buf n x s) s).mem.cells u :=
  foldl_canonical (by simp) (fun s x hu h => by simp [hu, h]) _ hu h

@[simp] theorem beginSend_canonical (c : Cmd) (o : Origin) (p : Place) (f : ZXchgF) (m : Model) (l : Layer) (t : InstTable)
    (buf : List Byte) (n : Nat) {s : State} (hu : s.mem.undef = u) (h : Canonical s.mem.cells u) :
    Canonical (beginSend c o p f m l t buf n s).mem.cells u := by
  unfold beginSend
  dsimp only
  split <;> simp [hu, h]

@[simp] theorem runSend_canonical (c : Cmd) (o : Origin) (p : Place) (i : Nat) (f : ZXchgF) (m : Model) (l : Layer) (t : InstTable)
    (buf : List Byte) (n : Nat) {s : State} (hu : s.mem.undef = u) (h : Canonical s.mem.cells u) :
    Canonical (runSend c o p i f m l t buf n s).mem.cells u := by
  unfold runSend
  dsimp only
  (repeat' split) <;> simp [hu, h]

/-- Tiles that an engine reads into its buffer. -/
theorem bufferReads_sound {c : Cmd} {o : Origin} {p : Place} {slot : Nat} {images : List Nat} {s t : State} {r : Moved}
    (hu : s.mem.undef = u) (h : Canonical s.mem.cells u)
    (landed : eachMove (fun off s => bufferRead c o p slot off imageBytes s) images s = (r, t)) :
    r.Sound u ∧ t.mem.undef = u ∧ Canonical t.mem.cells u := by
  have moved := eachMove_sound (f := fun off s => bufferRead c o p slot off imageBytes s)
    (fun x s hu h => bufferRead_sound c o p _ x _ hu h) images hu h
  rwa [landed] at moved

theorem readUnlessBuffered_sound {c : Cmd} {o : Origin} {p : Place} {slot : Nat} {images : List Nat} {b : Bool} {s t : State} {r : Moved}
    (hu : s.mem.undef = u) (h : Canonical s.mem.cells u)
    (landed : (if b = true then (Moved.ok s, s) else eachMove (fun off s => bufferRead c o p slot off imageBytes s) images s) = (r, t)) :
    r.Sound u ∧ t.mem.undef = u ∧ Canonical t.mem.cells u := by
  cases b with
  | true => cases landed; exact ⟨⟨hu, h⟩, hu, h⟩
  | false => exact bufferReads_sound hu h landed

@[simp] theorem exchangeSend_canonical (c : Cmd) (o : Origin) (p : Place) (i : Nat) (f : ZXchgF) (m : Model) (l : Layer) (t : InstTable)
    {s : State} (hu : s.mem.undef = u) (h : Canonical s.mem.cells u) : Canonical (exchangeSend c o p i f m l t s).mem.cells u := by
  unfold exchangeSend
  refine withSource_canonical c o p _ _ _ (fun buf s hu h => ?_) hu h
  dsimp only
  split
  · split <;> rename_i landed <;> have kept := bufferReads_sound hu h landed
    · simpa using kept.2.2
    · split
      · exact kept.1.2
      · exact runSend_canonical _ _ _ _ _ _ _ _ _ _ kept.1.1 kept.1.2
  · simp [hu, h]

@[simp] theorem layBatch_canonical (c : Cmd) (o : Origin) (p : Place) (i : Nat) (f : ZXchgF) (modelId job : Nat) (limited : Bool)
    (rows : List (Nat × Nat × Word)) {s : State} (hu : s.mem.undef = u) (h : Canonical s.mem.cells u) :
    Canonical (layBatch c o p i f modelId job limited rows s).mem.cells u := by
  unfold layBatch
  exact landMoves_canonical p i o (eachMove_sound (fun x s hu h => slotWrite_sound c o _ _ _ hu h) _ (by simpa using hu)
    (by simpa using h))

@[simp] theorem exchangeReceive_canonical (c : Cmd) (o : Origin) (p : Place) (i : Nat) (f : ZXchgF) (modelId : Nat) (limited : Bool)
    {s : State} (hu : s.mem.undef = u) (h : Canonical s.mem.cells u) :
    Canonical (exchangeReceive c o p i f modelId limited s).mem.cells u := by
  unfold exchangeReceive
  dsimp only
  (repeat' split) <;> simp [hu, h]

@[simp] theorem exchangeReturn_canonical (c : Cmd) (o : Origin) (p : Place) (i : Nat) (f : ZXchgF) (modelId : Nat) (limited : Bool)
    {s : State} (hu : s.mem.undef = u) (h : Canonical s.mem.cells u) :
    Canonical (exchangeReturn c o p i f modelId limited s).mem.cells u := by
  unfold exchangeReturn
  dsimp only
  split
  · simpa using h
  · rename_i b _
    split <;> rename_i landed <;> have kept := readUnlessBuffered_sound hu h landed
    · simpa using kept.2.2
    · split
      · exact kept.1.2
      · rw [show ∀ v : State, (finishEntry p i v).mem.cells = v.mem.cells by simp]
        exact issueRows_canonical o _ _ _ (by simpa using kept.1.1) (by simpa using kept.1.2)

end
end Sys2Proof.Machine
end

section
/-! The canonical form over what also makes ranges undefined: allocations, commits, and the phases of a beat (R37). -/
namespace Sys2Proof.Machine

/-- Memory has the canonical form. -/
@[simp] abbrev Formed (s : State) : Prop := Canonical s.mem.cells s.mem.undef

theorem formed_iff {s : State} : Formed s ↔ s.mem.wf = true := canonical_iff

@[simp] theorem undefine_canonical (r : Undef) {m : MemSt} (h : Canonical m.cells m.undef) :
    Canonical (m.undefine r).cells (m.undefine r).undef :=
  canonical_iff.mpr (undefine_wf m r (canonical_iff.mp h))

theorem foldl_formed {α : Type} {g : State → α → State} (step : ∀ s x, Formed s → Formed (g s x)) (xs : List α) {s : State}
    (h : Formed s) : Formed (xs.foldl g s) := by
  induction xs generalizing s with
  | nil => exact h
  | cons x xs ih => exact ih (step s x h)

@[simp] theorem ownHandle_formed (kind rights tier bytes : Nat) (at_ : Option Nat) (modelId plan : Nat) {s : State} (h : Formed s) :
    Formed (ownHandle kind rights tier bytes at_ modelId plan s) := by
  unfold ownHandle
  generalize List.replicate 512 (0#8) = zeros
  dsimp only
  split
  · exact h
  · rename_i takes _
    cases takes <;> split <;> simp [h]

theorem makeHandle_formed {ans : Answer} (hans : ∀ st d r s, (ans st d r s).mem = s.mem) (p : AllocP) (a : Account) (base : Nat)
    {s : State} (h : Formed s) : Formed (makeHandle ans p a base s) := by
  unfold makeHandle
  generalize List.replicate 512 (0#8) = zeros
  dsimp only
  (repeat' split) <;> simp [h, hans]

end Sys2Proof.Machine
end

section
/-! Allocations, commits, policies and waiting demands keep the form (R278, R279, R380). -/
namespace Sys2Proof.Machine

theorem demandRoom_now_formed {tier n b : Nat} {account : Option Nat} {s t : State} (room : demandRoom tier account n s = .now b t)
    (h : Formed s) : Formed t := by
  have kept := (demandRoom_keeps tier account n s).1 b t room
  simpa [kept, demandRoom_now_cells room] using h

theorem demandRoom_later_formed {tier n : Nat} {account : Option Nat} {s t : State} (room : demandRoom tier account n s = .later t)
    (h : Formed s) : Formed t := by
  have kept := (demandRoom_keeps tier account n s).2 t room
  simpa [kept, demandRoom_later_cells room] using h

theorem placeAll_done_formed {owner : Nat → Owner} {ts : List Tensor} {hbm : Bool} {ps : List PlacedTensor} {s t : State}
    (placed : placeAll owner ts hbm s = .done ps t) (h : Formed s) : Formed t := by
  have kept := (placeAll_keeps owner ts hbm s).1 ps t placed
  simpa [kept, (placeAll_cells owner ts hbm s).1 ps t placed] using h

theorem finishAlloc_formed {ans : Answer} (hans : ∀ st d r s, (ans st d r s).mem = s.mem) (p : AllocP) (base : Nat) {s : State}
    (h : Formed s) : Formed (finishAlloc ans p base s) := by
  unfold finishAlloc
  dsimp only
  split
  · simpa [hans] using h
  · exact makeHandle_formed hans _ _ _ (by split <;> simp [h])

@[simp] theorem allocNow_formed (hd : Hdr) (principal : Nat) (p : AllocP) {s : State} (h : Formed s) :
    Formed (allocNow hd principal p s) := by
  unfold allocNow
  split
  · simpa using h
  · split
    · exact finishAlloc_formed (by simp) _ _ h
    · split <;> rename_i room
      · exact finishAlloc_formed (by simp) _ _ (demandRoom_now_formed room h)
      · simpa using demandRoom_later_formed room h
      · simpa using h

theorem allocCommit_formed {ans : Answer} (hans : ∀ st d r s, (ans st d r s).mem = s.mem) (principal : Nat) (p : AllocP) (sid k : Nat)
    {s : State} (h : Formed s) : Formed (allocCommit ans principal p sid k s) := by
  unfold allocCommit
  dsimp only
  split
  · simpa [hans] using h
  · split
    · exact finishAlloc_formed hans _ _ (by simpa using h)
    · split
      · exact finishAlloc_formed hans _ _ (by simpa using h)
      · simpa [hans] using h

@[simp] theorem commitOne_formed (principal sid k : Nat) (i : Instr) {s : State} (h : Formed s) : Formed (commitOne principal sid k i s) := by
  unfold commitOne
  split
  case h_11 => exact allocCommit_formed (by simp) _ _ _ _ h
  case h_19 => split <;> simpa using h
  case h_20 => split <;> simpa using h
  case h_21 => split <;> simpa using h
  all_goals simpa using h

@[simp] theorem commitAll_formed (principal sid k : Nat) (is : List Instr) {s : State} (h : Formed s) :
    Formed (commitAll principal sid k is s) := by
  induction is generalizing k s with
  | nil => exact h
  | cons i is ih => exact ih _ (commitOne_formed _ _ _ _ h)

@[simp] theorem applySorus_formed (sid : Nat) {s : State} (h : Formed s) : Formed (applySorus sid s) := by
  unfold applySorus
  dsimp only
  (repeat' split) <;> simp [h]

@[simp] theorem phase3Sori_formed {s : State} (h : Formed s) : Formed (phase3Sori s) :=
  foldl_formed (fun s i h => by simp [h]) _ h

@[simp] theorem applyPolicy_formed (p : Policy) {s : State} (h : Formed s) : Formed (applyPolicy p s) := by
  unfold applyPolicy
  cases p <;> simp [h]

@[simp] theorem applyPolicies_formed (ps : List Policy) {s : State} (h : Formed s) : Formed (ps.foldl (fun s p => applyPolicy p s) s) :=
  foldl_formed (fun s p h => by simp [h]) _ h

@[simp] theorem phase3_formed (ps : List Policy) {s : State} (h : Formed s) : Formed (phase3 ps s) := by
  unfold phase3
  rw [Formed, show ∀ v : State, (commitTxns v).mem.undef = v.mem.undef by simp]
  exact commitTxns_canonical rfl (applyPolicies_formed ps (by simp [h]))

@[simp] theorem retryDemand_formed (d : Demand) {s : State} (h : Formed s) : Formed (retryDemand d s) := by
  unfold retryDemand
  dsimp only
  split
  · split
    · simpa using h
    · simpa using h
    · split
      · exact finishAlloc_formed (by simp) _ _ (by simpa using h)
      · exact h
  · split
    · simpa using h
    · split
      · rename_i placed
        simpa using placeAll_done_formed placed h
      · exact h
  · (repeat' split) <;> simp [h]
  · (repeat' split) <;> simp [h]

@[simp] theorem retryDemands_formed {s : State} (h : Formed s) : Formed (retryDemands s) :=
  foldl_formed (fun s d h => by simp [h]) _ h

@[simp] theorem afterPhases_formed {s : State} (h : Formed s) : Formed (afterPhases s) := by
  simp [afterPhases, h]

end Sys2Proof.Machine
end

section
/-! The frames of memory's bytes over the parts of a beat (R37). -/
namespace Sys2Proof.Machine

@[simp] theorem phase1Sori_cells (s : State) : (phase1Sori s).mem.cells = s.mem.cells := by
  unfold phase1Sori
  refine foldl_keeps (fun s => s.mem.cells) _ (fun s i => ?_) _ s
  (repeat' split) <;> simp

@[simp] theorem beginMove_cells (hd : Handle) (s : State) : (beginMove hd s).mem.cells = s.mem.cells := by
  unfold beginMove
  dsimp only
  split
  · rfl
  · split
    · rfl
    · split <;> rename_i room
      · simpa using demandRoom_now_cells room
      · simpa using demandRoom_later_cells room
      · simp

@[simp] theorem beginMoves_cells (s : State) : (beginMoves s).mem.cells = s.mem.cells :=
  foldl_keeps (fun s => s.mem.cells) _ (by simp) _ s

@[simp] theorem phase2_cells (outs : List (Nat × List StepOut)) (s : State) : (phase2 outs s).mem.cells = s.mem.cells :=
  foldl_keeps (fun s => s.mem.cells) _ (by simp) _ s

@[simp] theorem pauseNow_cells {ans : Answer} (hans : ∀ st d r s, (ans st d r s).mem = s.mem) (rid : Nat) (s : State) :
    (pauseNow ans rid s).mem.cells = s.mem.cells := by
  unfold pauseNow
  (repeat' split) <;> simp [hans]

@[simp] theorem act_cells (a : Instr) (s : State) : (act a s).mem.cells = s.mem.cells := by
  unfold act
  split
  case h_5 => split <;> simp
  all_goals simp

@[simp] theorem phase4_cells (s : State) : (phase4 s).mem.cells = s.mem.cells := by
  simp [phase4]

@[simp] theorem applyReuse_keeps (p : Policy) (s : State) :
    (applyReuse p s).mem = s.mem ∧ (applyReuse p s).flash = s.flash ∧ (applyReuse p s).pins = s.pins ∧
      (applyReuse p s).pending = s.pending := by
  unfold applyReuse
  split <;> simp

end Sys2Proof.Machine
end

section
/-! The anti-rollback counters (R457) only rise: `Counters.Under` compares them one by one. -/
namespace Sys2Proof.Machine

/-- No counter of the first stands above the same counter of the second. -/
structure Counters.Under (c d : Counters) : Prop where
  stage1 : c.stage1 ≤ d.stage1
  limcel : c.limcel ≤ d.limcel
  config : c.config ≤ d.config
  install : c.install ≤ d.install
  manifest : c.manifest ≤ d.manifest
  keyRevoke : c.keyRevoke ≤ d.keyRevoke

@[simp] theorem Counters.Under.refl (c : Counters) : c.Under c := by constructor <;> exact Nat.le_refl _

theorem Counters.Under.trans {c d e : Counters} (h : c.Under d) (k : d.Under e) : c.Under e :=
  ⟨h.stage1.trans k.stage1, h.limcel.trans k.limcel, h.config.trans k.config, h.install.trans k.install, h.manifest.trans k.manifest,
    h.keyRevoke.trans k.keyRevoke⟩

@[simp] theorem under_ite {p : Prop} [Decidable p] {c d e : Counters} (hd : c.Under d) (he : c.Under e) :
    c.Under (if p then d else e) := by
  split <;> assumption

section
variable {c : Counters}

theorem foldl_under {α : Type} {g : State → α → State} (step : ∀ s x, c.Under s.flash.counters → c.Under (g s x).flash.counters)
    (xs : List α) {s : State} (h : c.Under s.flash.counters) : c.Under (xs.foldl g s).flash.counters := by
  induction xs generalizing s with
  | nil => exact h
  | cons x xs ih => exact ih (step s x h)

@[simp] theorem raiseManifest_under (v : Nat) {s : State} (h : c.Under s.flash.counters) : c.Under (raiseManifest v s).flash.counters :=
  h.trans (by constructor <;> simp [raiseManifest])

@[simp] theorem raiseCounters_under {s : State} (h : c.Under s.flash.counters) : c.Under (raiseCounters s).flash.counters :=
  h.trans (by constructor <;> simp [raiseCounters])

@[simp] theorem endLimcel_under (inp : StageInput) {s : State} (h : c.Under s.flash.counters) :
    c.Under (endLimcel inp s).flash.counters := by
  unfold endLimcel
  dsimp only
  (repeat' split) <;> try simpa using h
  exact h.trans (by constructor <;> simp)

@[simp] theorem endLinks_under (inp : StageInput) {s : State} (h : c.Under s.flash.counters) :
    c.Under (endLinks inp s).flash.counters := by
  unfold endLinks
  exact raiseCounters_under (by simpa using h)

@[simp] theorem makeLive_under (modelId slot : Nat) (v : AdapterVer) {s : State} (h : c.Under s.flash.counters) :
    c.Under (makeLive modelId slot v s).flash.counters :=
  raiseManifest_under _ (by simpa using h)

@[simp] theorem enliven_under (modelId slot : Nat) {s : State} (h : c.Under s.flash.counters) :
    c.Under (enliven modelId slot s).flash.counters := by
  unfold enliven
  (repeat' split) <;> simp [h]

@[simp] theorem enlivenAll_under {s : State} (h : c.Under s.flash.counters) : c.Under (enlivenAll s).flash.counters :=
  foldl_under (fun s x h => by simp [h]) _ h

theorem activateCommit_under {ans : Answer} (hans : ∀ st d r s, (ans st d r s).flash = s.flash) (modelId kCand n sid k : Nat) {s : State}
    (h : c.Under s.flash.counters) : c.Under (activateCommit ans modelId kCand n sid k s).flash.counters := by
  unfold activateCommit
  dsimp only
  (repeat' split) <;> simp [h, hans]

theorem replaceCommit_under {ans : Answer} (hans : ∀ st d r s, (ans st d r s).flash = s.flash) (force : Bool) (modelId slot : Nat)
    {s : State} (h : c.Under s.flash.counters) : c.Under (replaceCommit ans force modelId slot s).flash.counters := by
  unfold replaceCommit
  dsimp only
  (repeat' split) <;> simp [h, hans]

@[simp] theorem commitOne_under (principal sid k : Nat) (i : Instr) {s : State} (h : c.Under s.flash.counters) :
    c.Under (commitOne principal sid k i s).flash.counters := by
  unfold commitOne
  split
  case h_1 => exact activateCommit_under (by simp) _ _ _ _ _ h
  case h_4 => exact replaceCommit_under (by simp) _ _ _ h
  case h_19 => split <;> simpa using h
  case h_20 => split <;> simpa using h
  case h_21 => split <;> simpa using h
  all_goals simpa using h

@[simp] theorem commitAll_under (principal sid k : Nat) (is : List Instr) {s : State} (h : c.Under s.flash.counters) :
    c.Under (commitAll principal sid k is s).flash.counters := by
  induction is generalizing k s with
  | nil => exact h
  | cons i is ih => exact ih _ (commitOne_under _ _ _ _ h)

@[simp] theorem applySorus_under (sid : Nat) {s : State} (h : c.Under s.flash.counters) :
    c.Under (applySorus sid s).flash.counters := by
  unfold applySorus
  dsimp only
  (repeat' split) <;> simp [h]

@[simp] theorem phase3Sori_under {s : State} (h : c.Under s.flash.counters) : c.Under (phase3Sori s).flash.counters :=
  foldl_under (fun s i h => by simp [h]) _ h

@[simp] theorem phase3_under (ps : List Policy) {s : State} (h : c.Under s.flash.counters) : c.Under (phase3 ps s).flash.counters := by
  unfold phase3
  dsimp only
  rw [show ∀ v : State, (commitTxns v).flash.counters = v.flash.counters by simp]
  exact foldl_under (fun s p h => by simp [h]) ps (by simp [h])

end
end Sys2Proof.Machine
end

section
/-! What a command leaves, in three strengths: `Calm` (the queue, the pins, the counters of R457, the installation record and memory
stay), `Stores` (memory may change but keeps its form) and `Onward` (the queue stays, memory keeps its form, no counter falls). -/
namespace Sys2Proof.Machine
open Sys2Proof.Claims

/-- The parts that most commands leave alone. -/
structure Calm (s t : State) : Prop where
  pending : t.pending = s.pending
  pins : t.pins = s.pins
  counters : t.flash.counters = s.flash.counters
  install : t.flash.install = s.flash.install
  cells : t.mem.cells = s.mem.cells
  undef : t.mem.undef = s.mem.undef

/-- As `Calm`, but memory's bytes may change and keep their form. -/
structure Stores (s t : State) : Prop where
  pending : t.pending = s.pending
  pins : t.pins = s.pins
  counters : t.flash.counters = s.flash.counters
  install : t.flash.install = s.flash.install
  formed : Formed s → Formed t

/-- What every command holds to. -/
structure Onward (s t : State) : Prop where
  pending : t.pending = s.pending
  under : s.flash.counters.Under t.flash.counters
  formed : Formed s → Formed t

theorem calm_iff {s t : State} : Calm s t ↔ t.pending = s.pending ∧ t.pins = s.pins ∧ t.flash.counters = s.flash.counters ∧
    t.flash.install = s.flash.install ∧ t.mem.cells = s.mem.cells ∧ t.mem.undef = s.mem.undef :=
  ⟨fun ⟨a, b, c, d, e, f⟩ => ⟨a, b, c, d, e, f⟩, fun ⟨a, b, c, d, e, f⟩ => ⟨a, b, c, d, e, f⟩⟩

@[simp] theorem Calm.refl (s : State) : Calm s s := ⟨rfl, rfl, rfl, rfl, rfl, rfl⟩

theorem Calm.trans {s t v : State} (h : Calm s t) (k : Calm t v) : Calm s v :=
  ⟨k.pending.trans h.pending, k.pins.trans h.pins, k.counters.trans h.counters, k.install.trans h.install, k.cells.trans h.cells,
    k.undef.trans h.undef⟩

theorem Calm.stores {s t : State} (h : Calm s t) : Stores s t :=
  ⟨h.pending, h.pins, h.counters, h.install, fun form => by rw [Formed, h.cells, h.undef]; exact form⟩

theorem Stores.onward {s t : State} (h : Stores s t) : Onward s t := ⟨h.pending, by simp [h.counters], h.formed⟩

theorem Calm.onward {s t : State} (h : Calm s t) : Onward s t := h.stores.onward

theorem Onward.refl (s : State) : Onward s s := (Calm.refl s).onward

theorem Onward.trans {s t v : State} (h : Onward s t) (k : Onward t v) : Onward s v :=
  ⟨k.pending.trans h.pending, h.under.trans k.under, k.formed ∘ h.formed⟩

theorem foldl_onward {α : Type} {g : State → α → State} (step : ∀ s x, Onward s (g s x)) (xs : List α) (s : State) :
    Onward s (xs.foldl g s) := by
  induction xs generalizing s with
  | nil => exact Onward.refl s
  | cons x xs ih => exact (step s x).trans (ih _)

/-- The outcome is a next state that stands in the relation to the state before. -/
def Leads (r : State → State → Prop) (s : State) (o : Host.Outcome State Fault Refusal) : Prop := ∃ t, o = .next t ∧ r s t

@[simp] theorem leads_next {r : State → State → Prop} {s t : State} : Leads r s (.next t) ↔ r s t := by simp [Leads]

theorem Leads.mono {r q : State → State → Prop} {s : State} {o : Host.Outcome State Fault Refusal} (h : Leads r s o)
    (imp : ∀ t, r s t → q s t) : Leads q s o := by
  obtain ⟨t, next, hr⟩ := h
  exact ⟨t, next, imp t hr⟩

/-- A host command holds to a relation when its effect does: to be refused, staged or held in a pause is calm. -/
theorem leads_hosted {r : State → State → Prop} (calm : ∀ {s t}, Calm s t → r s t) {i : Instr} {h : Hdr} {g : Gate}
    {ranges : Session → State → Option (Nat × Nat)} {run : Session → State → State} {s : State} (effect : ∀ e, r s (run e s)) :
    Leads r s (hosted i h g ranges run s) := by
  have still : ∀ {t : State}, Calm s t → Leads r s (.next t) := fun h => leads_next.mpr (calm h)
  unfold hosted
  dsimp only
  split
  · exact still (Calm.refl s)
  split
  · exact still (by simp [calm_iff])
  split
  · exact still (by simp [calm_iff])
  split
  · exact still (by simp [calm_iff])
  split
  · exact still (by simp [calm_iff])
  split
  · exact still (by simp [calm_iff])
  · exact leads_next.mpr (effect _)

theorem calm_hosted {i : Instr} {h : Hdr} {g : Gate} {ranges : Session → State → Option (Nat × Nat)} {run : Session → State → State}
    {s : State} (effect : ∀ e, Calm s (run e s)) : Leads Calm s (hosted i h g ranges run s) := leads_hosted id effect

end Sys2Proof.Machine
end

section
/-! The stations' operations that write no memory: every one but G_SORT and G_SCATTER. -/
namespace Sys2Proof.Machine

/-- A step that the outcome makes writes no memory. -/
def Work.WritesNothing : Work → Prop
  | .make m => m.writes = []
  | _ => True

@[simp] theorem writesNothing_make (m : Made) : (Work.make m).WritesNothing ↔ m.writes = [] := Iff.rfl

@[simp] theorem writesNothing_idle : Work.idle.WritesNothing := trivial

@[simp] theorem writesNothing_fault (cause : Nat) : (Work.fault cause).WritesNothing := trivial

@[simp] theorem writesNothing_need (n0 n1 n2 : Nat) : (Work.need n0 n1 n2).WritesNothing := trivial

@[simp] theorem nothing_writes (b : Bench) : b.nothing.writes = [] := rfl

@[simp] theorem withTiles_writesNothing (b : Bench) (n0 n1 n2 f0 f1 f2 : Nat) {w : Work} (h : w.WritesNothing) :
    (withTiles b n0 n1 n2 f0 f1 f2 w).WritesNothing := by
  unfold withTiles
  (repeat' split) <;> simp [h]

@[simp] theorem opFLoad_writesNothing (f : FLoadF) (b : Bench) : (opFLoad f b).WritesNothing := by
  unfold opFLoad
  dsimp only
  (repeat' split) <;> simp

@[simp] theorem opFMma_writesNothing (f : FMmaF) (b : Bench) : (opFMma f b).WritesNothing := by
  unfold opFMma
  dsimp only
  (repeat' split) <;> simp

@[simp] theorem opFDrain_writesNothing (f : FDrainF) (b : Bench) : (opFDrain f b).WritesNothing := by
  unfold opFDrain
  dsimp only
  (repeat' split) <;> simp

@[simp] theorem opFHad_writesNothing (f : FHadF) (b : Bench) : (opFHad f b).WritesNothing := by
  unfold opFHad
  dsimp only
  (repeat' split) <;> simp

@[simp] theorem opVEwise_writesNothing (f : EwiseF) (b : Bench) : (opVEwise f b).WritesNothing := by
  unfold opVEwise
  (repeat' split) <;> simp

@[simp] theorem opVSoftmax_writesNothing (f : SoftmaxF) (b : Bench) : (opVSoftmax f b).WritesNothing := by
  unfold opVSoftmax
  (repeat' split) <;> simp

@[simp] theorem opVNorm_writesNothing (f : NormF) (b : Bench) : (opVNorm f b).WritesNothing := by
  unfold opVNorm
  (repeat' split) <;> simp

@[simp] theorem opVRope_writesNothing (f : RopeF) (b : Bench) : (opVRope f b).WritesNothing := by
  unfold opVRope
  dsimp only
  (repeat' split) <;> simp

@[simp] theorem opVConvert_writesNothing (f : ConvertF) (b : Bench) : (opVConvert f b).WritesNothing := by
  unfold opVConvert
  (repeat' split) <;> simp

@[simp] theorem opVCombine_writesNothing (f : CombineF) (b : Bench) : (opVCombine f b).WritesNothing := by
  unfold opVCombine
  dsimp only
  (repeat' split) <;> simp

@[simp] theorem opVOpt_writesNothing (f : OptF) (b : Bench) : (opVOpt f b).WritesNothing := by
  unfold opVOpt
  dsimp only
  (repeat' split) <;> simp

@[simp] theorem opVSample_writesNothing (f : SampleF) (b : Bench) : (opVSample f b).WritesNothing := by
  unfold opVSample
  simp

@[simp] theorem opGTopk_writesNothing (f : TopkF) (b : Bench) : (opGTopk f b).WritesNothing := by
  unfold opGTopk
  dsimp only
  (repeat' split) <;> simp

@[simp] theorem opGCount_writesNothing (f : CountF) (b : Bench) : (opGCount f b).WritesNothing := by
  unfold opGCount
  dsimp only
  (repeat' split) <;> simp

@[simp] theorem opGScan_writesNothing (f : ScanF) (b : Bench) : (opGScan f b).WritesNothing := by
  unfold opGScan
  dsimp only
  (repeat' split) <;> simp

@[simp] theorem opGGather_writesNothing (f : MoveF) (b : Bench) : (opGGather f b).WritesNothing := by
  unfold opGGather
  simp

/-! A station that writes no memory leaves its bytes: what it reads lands in tiles. -/

@[simp] theorem deliver_tile_cells (cmd stream serial place : Nat) (partial_ : Bool) (data : List Byte) (s : State) :
    (deliver (.tile cmd stream serial place partial_) data s).mem.cells = s.mem.cells := by
  unfold deliver deliverFor
  split <;> simp_all

@[simp] theorem loadPiece_tile_cells (o : Origin) (job home addr n cmd stream serial place : Nat) (partial_ : Bool) (s : State) :
    (loadPiece o job home addr n (.tile cmd stream serial place partial_) s).mem.cells = s.mem.cells := by
  unfold loadPiece
  split <;> simp

theorem loadTo_tile_cells {c : Cmd} {o : Origin} {addr n cmd stream serial place : Nat} {partial_ : Bool} {s t : State}
    (h : loadTo c o addr n (.tile cmd stream serial place partial_) s = .ok t) : t.mem.cells = s.mem.cells := by
  unfold loadTo at h
  split at h
  · cases h
  · refine foldl_moved_keeps (fun s => s.mem.cells) _ (fun _ _ => rfl) (fun s x t h => ?_) _ _ _ h
    simp only at h
    (repeat' split at h) <;> cases h <;> simp [Sink.shift]

theorem readOne_cells {c : Cmd} {o : Origin} {st serial : Nat} {r : MemRead} {s t : State} (h : readOne c o st serial r s = .ok t) :
    t.mem.cells = s.mem.cells := by
  unfold readOne at h
  dsimp only at h
  split at h
  · exact loadTo_tile_cells h
  · (repeat' split at h) <;> cases h <;> simp

theorem readAll_cells {c : Cmd} {o : Origin} {st serial : Option Nat} {rs : List MemRead} {s v : State} {r : Moved}
    (landed : readAll c o st serial rs s = (r, v)) : v.mem.cells = s.mem.cells ∧ ∀ t, r = .ok t → t.mem.cells = s.mem.cells := by
  unfold readAll at landed
  split at landed
  · rename_i st serial
    have moved := eachMove_keeps (fun s : State => s.mem.cells) (readOne c o st serial) (fun _ _ _ h => readOne_cells h) rs s
    rwa [landed] at moved
  · cases landed
    simp

@[simp] theorem applyMade_cells (p : Place) (c : Cmd) (l : ListSt) (i : Nat) {m : Made} (hm : m.writes = []) (s : State) :
    (applyMade p c l i m s).mem.cells = s.mem.cells := by
  unfold applyMade
  simp only [hm, eachMove]
  split <;> rename_i landed
  · simpa using (readAll_cells landed).1
  · simpa using (readAll_cells landed).2 _ rfl

/-- A turn of a station that writes no memory. -/
theorem turn_cells {op : Bench → Work} (hop : ∀ b, (op b).WritesNothing) (p : Place) (body : DBody) (note : Bench → Nat) (s : State) :
    (turn p body op note s).1.mem.cells = s.mem.cells := by
  unfold turn
  dsimp only
  split
  · rfl
  · rename_i c l i _
    have made := hop (benchOf s c l i)
    split
    · rfl
    · split
      · simp
      · simp
      · rename_i made_
        rw [made_] at made
        simp [show _ = [] from made]
      · (repeat' split) <;> simp

theorem turns_cells {op : Bench → Work} (hop : ∀ b, (op b).WritesNothing) (p : Place) (body : DBody) (note : Bench → Nat) (n : Nat)
    (s : State) : (turns p body op note n s).mem.cells = s.mem.cells := by
  induction n generalizing s with
  | zero => rfl
  | succ n ih =>
    have one := turn_cells hop p body note s
    unfold turns
    split <;> rename_i turned <;> rw [turned] at one
    · rw [ih, one]
    · exact one

/-- A station that writes no memory is calm. -/
theorem runNoted_calm {op : Bench → Work} (hop : ∀ b, (op b).WritesNothing) (p : Place) (body : DBody) (note : Bench → Nat) (s : State) :
    Calm s (runNoted p body op note s) := by
  have cells : (runNoted p body op note s).mem.cells = s.mem.cells := turns_cells hop p body note _ s
  simp [calm_iff, cells]

theorem runStation_calm {op : Bench → Work} (hop : ∀ b, (op b).WritesNothing) (p : Place) (body : DBody) (s : State) :
    Calm s (runStation p body op s) := runNoted_calm hop p body _ s

end Sys2Proof.Machine
end

section
/-! The commands that are calm: a host command by `calm_hosted`, another by its own branches. -/
namespace Sys2Proof.Machine

theorem foldl_calm {α : Type} {g : State → α → State} (step : ∀ s x, Calm s (g s x)) (xs : List α) (s : State) :
    Calm s (xs.foldl g s) := by
  induction xs generalizing s with
  | nil => exact Calm.refl s
  | cons x xs ih => exact (step s x).trans (ih _)

/-- A sorus of its own is calm when its prepare is. -/
theorem ownSorus_calm (i : Instr) (h : Hdr) (op : Nat) {prep : Prep} (hp : ∀ sid k s, Calm s (prep sid k s).1) (s : State) :
    Calm s (ownSorus i h op prep s) := by
  have drawn : Calm s (draw s).2 := by simp [calm_iff]
  have prepared := drawn.trans (hp (2 ^ 32 + (draw s).1) 0 (draw s).2)
  unfold ownSorus
  dsimp only
  split
  · rename_i ready
    rw [ready] at prepared
    exact prepared.trans (by simp [calm_iff])
  · rename_i refused
    rw [refused] at prepared
    split
    · exact prepared.trans (by simp [calm_iff])
    · exact drawn.trans (by simp [calm_iff])

theorem demandRoom_now_calm {tier n b : Nat} {account : Option Nat} {s t : State} (room : demandRoom tier account n s = .now b t) :
    Calm s t := by
  simp [calm_iff, (demandRoom_keeps tier account n s).1 b t room, demandRoom_now_cells room]

theorem demandRoom_later_calm {tier n : Nat} {account : Option Nat} {s t : State} (room : demandRoom tier account n s = .later t) :
    Calm s t := by
  simp [calm_iff, (demandRoom_keeps tier account n s).2 t room, demandRoom_later_cells room]

/-- The commands that waited for data that cannot be corrected end (R275). -/
theorem endWaiting_calm (at_ : State → Nat → Nat) (tier : Nat) (cmds : List Nat) (s : State) :
    Calm s (cmds.foldl (fun s id => contextFaultAt id 3 (at_ s id) (match s.cmd id with
      | some c => errorStall c.ctx tier s
      | none => s)) s) :=
  foldl_calm (fun s id => by split <;> simp [calm_iff]) cmds s

theorem markSuspect_calm (base : Nat) (s : State) : Calm s (markSuspect base s) := by simp [calm_iff]

theorem dropIfUnasked_calm (unasked : Bool) (addr : Nat) (s : State) : Calm s (if unasked then dropMovesAt addr s else s) := by
  split <;> simp [calm_iff]

@[simp] theorem execHello_calm (h : Hdr) (p : HelloP) (s : State) : Leads Calm s (execHello h p s) := by
  unfold execHello
  dsimp only
  (repeat' split) <;> simp [calm_iff]

@[simp] theorem execSessionOpen_calm (h : Hdr) (phase : Nat) (spdm : SpdmStep) (qps : List QpEntry) (s : State) :
    Leads Calm s (execSessionOpen h phase spdm qps s) := by
  unfold execSessionOpen
  split
  · (repeat' split) <;> simp [calm_iff]
  · refine calm_hosted fun e => ?_
    dsimp only
    (repeat' split) <;> simp [calm_iff]

@[simp] theorem execSessionClose_calm (h : Hdr) (s : State) : Leads Calm s (execSessionClose h s) := by
  unfold execSessionClose
  exact calm_hosted fun e => by simp [calm_iff]

@[simp] theorem execKeepalive_calm (h : Hdr) (s : State) : Leads Calm s (execKeepalive h s) := by
  unfold execKeepalive
  exact calm_hosted fun e => by simp [calm_iff]

@[simp] theorem execCapsQuery_calm (h : Hdr) (s : State) : Leads Calm s (execCapsQuery h s) := by
  unfold execCapsQuery
  exact calm_hosted fun e => by simp [calm_iff]

@[simp] theorem execModelDeclare_calm (h : Hdr) (w : WinRef) (shardTimeout : Nat) (sigOk : Bool) (s : State) :
    Leads Calm s (execModelDeclare h w shardTimeout sigOk s) := by
  unfold execModelDeclare
  refine calm_hosted fun e => ?_
  (repeat' split) <;> simp [calm_iff]

@[simp] theorem execModelWithdraw_calm (h : Hdr) (modelId : Nat) (s : State) : Leads Calm s (execModelWithdraw h modelId s) := by
  unfold execModelWithdraw
  refine calm_hosted fun e => ?_
  split <;> simp [calm_iff]

@[simp] theorem execShardPush_calm (h : Hdr) (modelId shard window offset : Nat) (s : State) :
    Leads Calm s (execShardPush h modelId shard window offset s) := by
  unfold execShardPush
  refine calm_hosted fun e => ?_
  (repeat' split) <;> simp [calm_iff]

@[simp] theorem execShardStatus_calm (h : Hdr) (modelId first count : Nat) (s : State) :
    Leads Calm s (execShardStatus h modelId first count s) := by
  unfold execShardStatus
  refine calm_hosted fun e => ?_
  split <;> simp [calm_iff]

@[simp] theorem execModelActivate_calm (h : Hdr) (modelId kCand kvPagesets : Nat) (s : State) :
    Leads Calm s (execModelActivate h modelId kCand kvPagesets s) := by
  unfold execModelActivate
  refine calm_hosted fun e => ?_
  (repeat' split)
  · simp [calm_iff]
  · simp [calm_iff]
  · simp [calm_iff]
  · exact ownSorus_calm _ h 0x0104 (fun sid k s => by simp [calm_iff]) s

@[simp] theorem execEpochPublish_calm (h : Hdr) (modelId epoch table : Nat) (s : State) :
    Leads Calm s (execEpochPublish h modelId epoch table s) := by
  unfold execEpochPublish
  exact calm_hosted fun e => by simp [calm_iff]

@[simp] theorem execEpochRetire_calm (h : Hdr) (modelId epoch : Nat) (s : State) : Leads Calm s (execEpochRetire h modelId epoch s) := by
  unfold execEpochRetire
  exact calm_hosted fun e => by simp [calm_iff]

@[simp] theorem execAdapterLoad_calm (h : Hdr) (modelId slot : Nat) (w : WinRef) (shardTimeout : Nat) (sigOk : Bool) (s : State) :
    Leads Calm s (execAdapterLoad h modelId slot w shardTimeout sigOk s) := by
  unfold execAdapterLoad
  refine calm_hosted fun e => ?_
  (repeat' split) <;> simp [calm_iff]

@[simp] theorem execAdapterReplace_calm (h : Hdr) (modelId slot : Nat) (s : State) : Leads Calm s (execAdapterReplace h modelId slot s) := by
  unfold execAdapterReplace
  exact calm_hosted fun e => by simp [calm_iff]

@[simp] theorem execAdapterUnload_calm (h : Hdr) (modelId slot : Nat) (s : State) : Leads Calm s (execAdapterUnload h modelId slot s) := by
  unfold execAdapterUnload
  exact calm_hosted fun e => by simp [calm_iff]

@[simp] theorem execVariantDefine_calm (h : Hdr) (p : VariantP) (s : State) : Leads Calm s (execVariantDefine h p s) := by
  unfold execVariantDefine
  exact calm_hosted fun e => by simp [calm_iff]

@[simp] theorem execReqSubmit_calm (h : Hdr) (p : SubmitP) (s : State) : Leads Calm s (execReqSubmit h p s) := by
  unfold execReqSubmit
  exact calm_hosted fun e => by simp [calm_iff]

@[simp] theorem execReqCancel_calm (h : Hdr) (request : Nat) (s : State) : Leads Calm s (execReqCancel h request s) := by
  unfold execReqCancel
  exact calm_hosted fun e => by simp [calm_iff]

@[simp] theorem execReqPause_calm (h : Hdr) (request : Nat) (s : State) : Leads Calm s (execReqPause h request s) := by
  unfold execReqPause
  exact calm_hosted fun e => by simp [calm_iff]

@[simp] theorem execReqResume_calm (h : Hdr) (request : Nat) (s : State) : Leads Calm s (execReqResume h request s) := by
  unfold execReqResume
  exact calm_hosted fun e => by simp [calm_iff]

@[simp] theorem execReqQuery_calm (h : Hdr) (request : Nat) (s : State) : Leads Calm s (execReqQuery h request s) := by
  unfold execReqQuery
  exact calm_hosted fun e => by simp [calm_iff]

@[simp] theorem execProgLoad_calm (h : Hdr) (w : WinRef) (s : State) : Leads Calm s (execProgLoad h w s) := by
  unfold execProgLoad
  refine calm_hosted fun e => ?_
  split <;> simp [calm_iff]

@[simp] theorem execProgUnload_calm (h : Hdr) (program : Nat) (s : State) : Leads Calm s (execProgUnload h program s) := by
  unfold execProgUnload
  exact calm_hosted fun e => by simp [calm_iff]

@[simp] theorem execLaunch_calm (h : Hdr) (p : LaunchP) (s : State) : Leads Calm s (execLaunch h p s) := by
  unfold execLaunch
  exact calm_hosted fun e => by simp [calm_iff]

@[simp] theorem execQueueCreate_calm (h : Hdr) (ctx cls priority : Nat) (s : State) :
    Leads Calm s (execQueueCreate h ctx cls priority s) := by
  unfold execQueueCreate
  refine calm_hosted fun e => ?_
  split <;> simp [calm_iff]

@[simp] theorem execQueueDestroy_calm (h : Hdr) (ctx queue : Nat) (s : State) : Leads Calm s (execQueueDestroy h ctx queue s) := by
  unfold execQueueDestroy
  exact calm_hosted fun e => by simp [calm_iff]

@[simp] theorem execCtxCreate_calm (h : Hdr) (p : CtxP) (s : State) : Leads Calm s (execCtxCreate h p s) := by
  unfold execCtxCreate
  refine calm_hosted fun e => ?_
  split <;> simp [calm_iff]

@[simp] theorem execCtxDestroy_calm (h : Hdr) (ctx : Nat) (s : State) : Leads Calm s (execCtxDestroy h ctx s) := by
  unfold execCtxDestroy
  exact calm_hosted fun e => by simp [calm_iff]

@[simp] theorem execPreempt_calm (h : Hdr) (ctx queue beat : Nat) (s : State) : Leads Calm s (execPreempt h ctx queue beat s) := by
  unfold execPreempt
  exact calm_hosted fun e => by simp [calm_iff]

@[simp] theorem execPreemptResume_calm (h : Hdr) (ctx queue beat : Nat) (s : State) :
    Leads Calm s (execPreemptResume h ctx queue beat s) := by
  unfold execPreemptResume
  exact calm_hosted fun e => by simp [calm_iff]

@[simp] theorem execPoolCreate_calm (h : Hdr) (ctx tier reserve limit : Nat) (s : State) :
    Leads Calm s (execPoolCreate h ctx tier reserve limit s) := by
  unfold execPoolCreate
  refine calm_hosted fun e => ?_
  split <;> simp [calm_iff]

@[simp] theorem execFree_calm (h : Hdr) (handle : Nat) (s : State) : Leads Calm s (execFree h handle s) := by
  unfold execFree
  exact calm_hosted fun e => by simp [calm_iff]

@[simp] theorem execCopy_calm (h : Hdr) (p : CopyP) (s : State) : Leads Calm s (execCopy h p s) := by
  unfold execCopy
  exact calm_hosted fun e => by simp [calm_iff]

@[simp] theorem execTierMove_calm (h : Hdr) (handle tier : Nat) (s : State) : Leads Calm s (execTierMove h handle tier s) := by
  unfold execTierMove
  exact calm_hosted fun e => by simp [calm_iff]

@[simp] theorem execTopoQuery_calm (h : Hdr) (s : State) : Leads Calm s (execTopoQuery h s) := by
  unfold execTopoQuery
  exact calm_hosted fun e => by simp [calm_iff]

@[simp] theorem execPlanLoad_calm (h : Hdr) (w : WinRef) (sigOk : Bool) (s : State) : Leads Calm s (execPlanLoad h w sigOk s) := by
  unfold execPlanLoad
  refine calm_hosted fun e => ?_
  (repeat' split) <;> simp [calm_iff]

@[simp] theorem execLinkCtlQuery_calm (h : Hdr) (port : Nat) (s : State) : Leads Calm s (execLinkCtlQuery h port s) := by
  unfold execLinkCtlQuery
  exact calm_hosted fun e => by simp [calm_iff]

@[simp] theorem execLinkCtlDisable_calm (h : Hdr) (port : Nat) (s : State) : Leads Calm s (execLinkCtlDisable h port s) := by
  unfold execLinkCtlDisable
  exact calm_hosted fun e => by simp [calm_iff]

@[simp] theorem execLinkCtlEnable_calm (h : Hdr) (port : Nat) (s : State) : Leads Calm s (execLinkCtlEnable h port s) := by
  unfold execLinkCtlEnable
  exact calm_hosted fun e => by simp [calm_iff]

@[simp] theorem execLinkCtlRetrain_calm (h : Hdr) (port beat : Nat) (s : State) : Leads Calm s (execLinkCtlRetrain h port beat s) := by
  unfold execLinkCtlRetrain
  refine calm_hosted fun e => ?_
  split <;> simp [calm_iff]

@[simp] theorem execBarrier_calm (h : Hdr) (id timeout members : Nat) (s : State) : Leads Calm s (execBarrier h id timeout members s) := by
  unfold execBarrier
  refine calm_hosted fun e => ?_
  (repeat' split) <;> simp [calm_iff]

@[simp] theorem execSnapshotAt_calm (h : Hdr) (beat ctx : Nat) (pairs : List (Nat × Nat)) (s : State) :
    Leads Calm s (execSnapshotAt h beat ctx pairs s) := by
  unfold execSnapshotAt
  exact calm_hosted fun e => by simp [calm_iff]

@[simp] theorem execBeatSet_calm (h : Hdr) (second : Nat) (s : State) : Leads Calm s (execBeatSet h second s) := by
  unfold execBeatSet
  refine calm_hosted fun e => ?_
  split <;> simp [calm_iff]

@[simp] theorem execCapSet_calm (h : Hdr) (watts beat : Nat) (s : State) : Leads Calm s (execCapSet h watts beat s) := by
  unfold execCapSet
  exact calm_hosted fun e => by simp [calm_iff]

@[simp] theorem execCapQuery_calm (h : Hdr) (s : State) : Leads Calm s (execCapQuery h s) := by
  unfold execCapQuery
  exact calm_hosted fun e => by simp [calm_iff]

@[simp] theorem execEnergyRead_calm (h : Hdr) (kind first count : Nat) (s : State) : Leads Calm s (execEnergyRead h kind first count s) := by
  unfold execEnergyRead
  exact calm_hosted fun e => by simp [calm_iff]

@[simp] theorem execHealthQuery_calm (h : Hdr) (s : State) : Leads Calm s (execHealthQuery h s) := by
  unfold execHealthQuery
  exact calm_hosted fun e => by simp [calm_iff]

@[simp] theorem execRimeFreeze_calm (h : Hdr) (s : State) : Leads Calm s (execRimeFreeze h s) := by
  unfold execRimeFreeze
  exact calm_hosted fun e => by simp [calm_iff]

@[simp] theorem execRimeRead_calm (h : Hdr) (area first maxBytes : Nat) (s : State) :
    Leads Calm s (execRimeRead h area first maxBytes s) := by
  unfold execRimeRead
  exact calm_hosted fun e => by simp [calm_iff]

@[simp] theorem execRimeThaw_calm (h : Hdr) (s : State) : Leads Calm s (execRimeThaw h s) := by
  unfold execRimeThaw
  exact calm_hosted fun e => by simp [calm_iff]

@[simp] theorem execRimeClear_calm (h : Hdr) (s : State) : Leads Calm s (execRimeClear h s) := by
  unfold execRimeClear
  exact calm_hosted fun e => by simp [calm_iff]

@[simp] theorem execRegWrite_calm (h : Hdr) (offset : Nat) (value mask : Word) (s : State) :
    Leads Calm s (execRegWrite h offset value mask s) := by
  unfold execRegWrite
  exact calm_hosted fun e => by simp [calm_iff]

@[simp] theorem execSorusOpen_calm (h : Hdr) (sorus members : Nat) (s : State) : Leads Calm s (execSorusOpen h sorus members s) := by
  unfold execSorusOpen
  refine calm_hosted fun e => ?_
  split <;> simp [calm_iff]

@[simp] theorem execSorusCommit_calm (h : Hdr) (sorus mode beat : Nat) (s : State) : Leads Calm s (execSorusCommit h sorus mode beat s) := by
  unfold execSorusCommit
  refine calm_hosted fun e => ?_
  dsimp only
  (repeat' split) <;> simp [calm_iff]

@[simp] theorem execSorusAbort_calm (h : Hdr) (sorus : Nat) (s : State) : Leads Calm s (execSorusAbort h sorus s) := by
  unfold execSorusAbort
  refine calm_hosted fun e => ?_
  split <;> simp [calm_iff]

@[simp] theorem execSorusPrepare_calm (src : PrepSource) (sorus coord commitBeat : Nat) (s : State) :
    Leads Calm s (execSorusPrepare src sorus coord commitBeat s) := by
  unfold execSorusPrepare
  split
  · exact calm_hosted fun e => Calm.refl _
  · (repeat' split) <;> simp [calm_iff]

@[simp] theorem execFwStage_calm (h : Hdr) (w : WinRef) (sigOk : Bool) (s : State) : Leads Calm s (execFwStage h w sigOk s) := by
  unfold execFwStage
  refine calm_hosted fun e => ?_
  (repeat' split) <;> simp [calm_iff]

@[simp] theorem execFwActivate_calm (h : Hdr) (beat : Nat) (s : State) : Leads Calm s (execFwActivate h beat s) := by
  unfold execFwActivate
  refine calm_hosted fun e => ?_
  split <;> simp [calm_iff]

@[simp] theorem execAttest_calm (h : Hdr) (message : List Byte) (s : State) : Leads Calm s (execAttest h message s) := by
  unfold execAttest
  exact calm_hosted fun e => by simp [calm_iff]

@[simp] theorem execCertRead_calm (h : Hdr) (slot offset length : Nat) (s : State) : Leads Calm s (execCertRead h slot offset length s) := by
  unfold execCertRead
  exact calm_hosted fun e => by simp [calm_iff]

@[simp] theorem execResetStations_calm (h : Hdr) (ctxs : List Nat) (s : State) : Leads Calm s (execResetStations h ctxs s) := by
  unfold execResetStations
  exact calm_hosted fun e => by simp [calm_iff]

@[simp] theorem execRetransmit_calm (session seq : Nat) (s : State) : Leads Calm s (execRetransmit session seq s) := by
  unfold execRetransmit
  (repeat' split) <;> simp [calm_iff]

@[simp] theorem execSessionIdleTimeout_calm (session : Nat) (s : State) : Leads Calm s (execSessionIdleTimeout session s) := by
  unfold execSessionIdleTimeout
  split <;> simp [calm_iff]

@[simp] theorem execSessionAckTimeout_calm (session : Nat) (s : State) : Leads Calm s (execSessionAckTimeout session s) := by
  unfold execSessionAckTimeout
  (repeat' split) <;> simp [calm_iff]

@[simp] theorem execKeyUpdate_calm (session : Nat) (s : State) : Leads Calm s (execKeyUpdate session s) := by
  unfold execKeyUpdate
  split <;> simp [calm_iff]

@[simp] theorem execSessionKeyExpiry_calm (session : Nat) (s : State) : Leads Calm s (execSessionKeyExpiry session s) := by
  unfold execSessionKeyExpiry
  split <;> simp [calm_iff]

@[simp] theorem execPrincipalLoss_calm (principal : Nat) (s : State) : Leads Calm s (execPrincipalLoss principal s) := by
  unfold execPrincipalLoss
  dsimp only
  (repeat' split) <;> simp [calm_iff]

@[simp] theorem execRequestForget_calm (request : Nat) (s : State) : Leads Calm s (execRequestForget request s) := by
  unfold execRequestForget
  (repeat' split) <;> simp [calm_iff]

@[simp] theorem execAcctSlotRelease_calm (slot : Nat) (s : State) : Leads Calm s (execAcctSlotRelease slot s) := by
  simp [execAcctSlotRelease, calm_iff]

@[simp] theorem execEthLinkLoss_calm (port : Nat) (s : State) : Leads Calm s (execEthLinkLoss port s) := by
  unfold execEthLinkLoss
  split <;> simp [calm_iff]

@[simp] theorem execPtpSync_calm (timeUs : Nat) (offsetNs : Int) (s : State) : Leads Calm s (execPtpSync timeUs offsetNs s) := by
  unfold execPtpSync
  dsimp only
  (repeat' split) <;> simp [calm_iff]

@[simp] theorem execPtpTimeout_calm (s : State) : Leads Calm s (execPtpTimeout s) := by
  unfold execPtpTimeout
  split <;> simp [calm_iff]

@[simp] theorem execThermalStep_calm (s : State) : Leads Calm s (execThermalStep s) := by
  unfold execThermalStep
  dsimp only
  (repeat' split) <;> simp [calm_iff]

@[simp] theorem execStepCommit_calm (cmd : Nat) (outs : List StepOut) (s : State) : Leads Calm s (execStepCommit cmd outs s) := by
  unfold execStepCommit
  (repeat' split) <;> simp [calm_iff]

@[simp] theorem execSnapshotCapture_calm (snap : Nat) (s : State) : Leads Calm s (execSnapshotCapture snap s) := by
  simp [execSnapshotCapture, calm_iff]

@[simp] theorem execPreemptGrant_calm (ctx queue : Nat) (s : State) : Leads Calm s (execPreemptGrant ctx queue s) := by
  simp [execPreemptGrant, calm_iff]

@[simp] theorem execRetrainWindow_calm (s : State) : Leads Calm s (execRetrainWindow s) := by
  simp [execRetrainWindow, calm_iff]

@[simp] theorem execCommandStart_calm (s : State) : Leads Calm s (execCommandStart s) := by
  simp [execCommandStart, calm_iff]

@[simp] theorem execDescriptorIssue_calm (at_ : Place) (s : State) : Leads Calm s (execDescriptorIssue at_ s) := by
  simp [execDescriptorIssue, calm_iff]

@[simp] theorem execDescriptorComplete_calm (at_ : Place) (s : State) : Leads Calm s (execDescriptorComplete at_ s) := by
  simp [execDescriptorComplete, calm_iff]

@[simp] theorem execCommandRetire_calm (cmd : Nat) (s : State) : Leads Calm s (execCommandRetire cmd s) := by
  unfold execCommandRetire
  (repeat' split) <;> simp [calm_iff]

@[simp] theorem execCommandRestart_calm (cmd : Nat) (s : State) : Leads Calm s (execCommandRestart cmd s) := by
  simp [execCommandRestart, calm_iff]

@[simp] theorem execWatchdogExpiry_calm (cmd : Nat) (s : State) : Leads Calm s (execWatchdogExpiry cmd s) := by
  unfold execWatchdogExpiry
  dsimp only
  (repeat' split) <;> simp [calm_iff]

@[simp] theorem execContextFault_calm (cmd cause : Nat) (at_ : Place) (s : State) : Leads Calm s (execContextFault cmd cause at_ s) := by
  unfold execContextFault
  split <;> simp [calm_iff]

@[simp] theorem execStreamCreditReturn_calm (cmd stream : Nat) (s : State) : Leads Calm s (execStreamCreditReturn cmd stream s) := by
  unfold execStreamCreditReturn
  dsimp only
  (repeat' split) <;> simp [calm_iff]

@[simp] theorem execSSync_calm (at_ : Place) (s : State) : Leads Calm s (execSSync at_ s) := by
  unfold execSSync
  split <;> simp [calm_iff]

@[simp] theorem execSBeat_calm (at_ : Place) (absolute : Bool) (beat : Nat) (s : State) : Leads Calm s (execSBeat at_ absolute beat s) := by
  unfold execSBeat
  dsimp only
  (repeat' split) <;> simp [calm_iff]

@[simp] theorem execHint_calm (at_ : Place) (f : HintF) (s : State) : Leads Calm s (execHint at_ f s) := by
  unfold execHint
  (repeat' split) <;> simp [calm_iff]

@[simp] theorem execFLoad_calm (p : Place) (f : FLoadF) (s : State) : Leads Calm s (execFLoad p f s) := by
  unfold execFLoad
  exact leads_next.mpr (runStation_calm (by simp) _ _ _)

@[simp] theorem execStationarySwap_calm (p : Place) (s : State) : Leads Calm s (execStationarySwap p s) := by
  unfold execStationarySwap
  (repeat' split) <;> simp [calm_iff]

@[simp] theorem execFMma_calm (p : Place) (f : FMmaF) (residueFails : Bool) (s : State) : Leads Calm s (execFMma p f residueFails s) := by
  unfold execFMma
  have noted : Calm s (if residueFails then noteFails p (.fMma f) s else s) := by
    split <;> simp [calm_iff]
  exact leads_next.mpr (noted.trans (runStation_calm (by simp) _ _ _))

@[simp] theorem execFDrain_calm (p : Place) (f : FDrainF) (s : State) : Leads Calm s (execFDrain p f s) := by
  unfold execFDrain
  exact leads_next.mpr (runStation_calm (by simp) _ _ _)

@[simp] theorem execFHad_calm (p : Place) (f : FHadF) (s : State) : Leads Calm s (execFHad p f s) := by
  unfold execFHad
  exact leads_next.mpr (runStation_calm (by simp) _ _ _)

@[simp] theorem execVEwise_calm (p : Place) (f : EwiseF) (s : State) : Leads Calm s (execVEwise p f s) := by
  unfold execVEwise
  exact leads_next.mpr (runStation_calm (by simp) _ _ _)

@[simp] theorem execVSoftmax_calm (p : Place) (f : SoftmaxF) (s : State) : Leads Calm s (execVSoftmax p f s) := by
  unfold execVSoftmax
  exact leads_next.mpr (runStation_calm (by simp) _ _ _)

@[simp] theorem execVNorm_calm (p : Place) (f : NormF) (s : State) : Leads Calm s (execVNorm p f s) := by
  unfold execVNorm
  exact leads_next.mpr (runStation_calm (by simp) _ _ _)

@[simp] theorem execVRope_calm (p : Place) (f : RopeF) (s : State) : Leads Calm s (execVRope p f s) := by
  unfold execVRope
  exact leads_next.mpr (runStation_calm (by simp) _ _ _)

@[simp] theorem execVConvert_calm (p : Place) (f : ConvertF) (s : State) : Leads Calm s (execVConvert p f s) := by
  unfold execVConvert
  exact leads_next.mpr (runStation_calm (by simp) _ _ _)

@[simp] theorem execVCombine_calm (p : Place) (f : CombineF) (s : State) : Leads Calm s (execVCombine p f s) := by
  unfold execVCombine
  exact leads_next.mpr (runNoted_calm (by simp) _ _ _ _)

@[simp] theorem execVOpt_calm (p : Place) (f : OptF) (s : State) : Leads Calm s (execVOpt p f s) := by
  unfold execVOpt
  exact leads_next.mpr (runStation_calm (by simp) _ _ _)

@[simp] theorem execVSample_calm (p : Place) (f : SampleF) (s : State) : Leads Calm s (execVSample p f s) := by
  unfold execVSample
  exact leads_next.mpr (runStation_calm (by simp) _ _ _)

@[simp] theorem execGTopk_calm (p : Place) (f : TopkF) (s : State) : Leads Calm s (execGTopk p f s) := by
  unfold execGTopk
  exact leads_next.mpr (runStation_calm (by simp) _ _ _)

@[simp] theorem execGCount_calm (p : Place) (f : CountF) (s : State) : Leads Calm s (execGCount p f s) := by
  unfold execGCount
  exact leads_next.mpr (runStation_calm (by simp) _ _ _)

@[simp] theorem execGScan_calm (p : Place) (f : ScanF) (s : State) : Leads Calm s (execGScan p f s) := by
  unfold execGScan
  exact leads_next.mpr (runStation_calm (by simp) _ _ _)

@[simp] theorem execGGather_calm (p : Place) (f : MoveF) (s : State) : Leads Calm s (execGGather p f s) := by
  unfold execGGather
  exact leads_next.mpr (runStation_calm (by simp) _ _ _)

@[simp] theorem execZWait_calm (at_ : Place) (f : ZWaitF) (s : State) : Leads Calm s (execZWait at_ f s) := by
  unfold execZWait
  (repeat' split) <;> simp [calm_iff]

@[simp] theorem execZInval_calm (at_ : Place) (f : ZInvalF) (s : State) : Leads Calm s (execZInval at_ f s) := by
  unfold execZInval
  dsimp only
  (repeat' split) <;> simp [calm_iff]

@[simp] theorem execRequestAged_calm (access : Nat) (s : State) : Leads Calm s (execRequestAged access s) := by
  unfold execRequestAged
  split <;> simp [calm_iff]

@[simp] theorem execFabricAccessTimeout_calm (access : Nat) (s : State) : Leads Calm s (execFabricAccessTimeout access s) := by
  unfold execFabricAccessTimeout
  (repeat' split) <;> simp [calm_iff]

@[simp] theorem execCountRecord_calm (r : CountRec) (s : State) : Leads Calm s (execCountRecord r s) := by
  simp [execCountRecord, calm_iff]

@[simp] theorem execBarrierRelease_calm (id beat : Nat) (members : List Nat) (limited : Bool) (s : State) :
    Leads Calm s (execBarrierRelease id beat members limited s) := by
  unfold execBarrierRelease
  dsimp only
  (repeat' split) <;> simp [calm_iff]

@[simp] theorem execBarrierComplete_calm (id : Nat) (s : State) : Leads Calm s (execBarrierComplete id s) := by
  simp [execBarrierComplete, calm_iff]

@[simp] theorem execGlobalOpTimeout_calm (id : Nat) (s : State) : Leads Calm s (execGlobalOpTimeout id s) := by
  unfold execGlobalOpTimeout
  (repeat' split) <;> simp [calm_iff]

@[simp] theorem execSorusPrepared_calm (sorus pkg status index : Nat) (s : State) :
    Leads Calm s (execSorusPrepared sorus pkg status index s) := by
  unfold execSorusPrepared
  (repeat' split) <;> simp [calm_iff]

@[simp] theorem execSorusPrepareDeadline_calm (sorus : Nat) (s : State) : Leads Calm s (execSorusPrepareDeadline sorus s) := by
  unfold execSorusPrepareDeadline
  split <;> simp [calm_iff]

@[simp] theorem execSorusDecision_calm (sorus : Nat) (commit : Bool) (s : State) : Leads Calm s (execSorusDecision sorus commit s) := by
  unfold execSorusDecision
  (repeat' split) <;> simp [calm_iff]

@[simp] theorem execSorusInDoubtTimeout_calm (sorus : Nat) (s : State) : Leads Calm s (execSorusInDoubtTimeout sorus s) := by
  unfold execSorusInDoubtTimeout
  dsimp only
  (repeat' split) <;> simp [calm_iff]

@[simp] theorem execSorusTimeout_calm (sorus : Nat) (s : State) : Leads Calm s (execSorusTimeout sorus s) := by
  unfold execSorusTimeout
  (repeat' split) <;> simp [calm_iff]

@[simp] theorem execLinkDetect_calm (port : Nat) (s : State) : Leads Calm s (execLinkDetect port s) := by
  unfold execLinkDetect
  (repeat' split) <;> simp [calm_iff]

@[simp] theorem execLinkEqualiseDone_calm (port n : Nat) (s : State) : Leads Calm s (execLinkEqualiseDone port n s) := by
  unfold execLinkEqualiseDone
  (repeat' split) <;> simp [calm_iff]

@[simp] theorem execLinkStageTimeout_calm (port : Nat) (s : State) : Leads Calm s (execLinkStageTimeout port s) := by
  unfold execLinkStageTimeout
  (repeat' split) <;> simp [calm_iff]

@[simp] theorem execIdentRecord_calm (port : Nat) (r : IdentRec) (s : State) : Leads Calm s (execIdentRecord port r s) := by
  unfold execIdentRecord
  dsimp only
  (repeat' split) <;> simp [calm_iff]

@[simp] theorem execIdentResend_calm (port : Nat) (s : State) : Leads Calm s (execIdentResend port s) := by
  unfold execIdentResend
  (repeat' split) <;> simp [calm_iff]

@[simp] theorem execLinkRetry_calm (port : Nat) (s : State) : Leads Calm s (execLinkRetry port s) := by
  unfold execLinkRetry
  dsimp only
  (repeat' split) <;> simp [calm_iff]

@[simp] theorem execLinkDown_calm (port : Nat) (s : State) : Leads Calm s (execLinkDown port s) := by
  unfold execLinkDown
  (repeat' split) <;> simp [calm_iff]

@[simp] theorem execLinkStateRecord_calm (pkg port : Nat) (up : Bool) (s : State) : Leads Calm s (execLinkStateRecord pkg port up s) := by
  unfold execLinkStateRecord
  dsimp only
  (repeat' split) <;> simp [calm_iff]

@[simp] theorem execLaserFeedLoss_calm (port : Nat) (s : State) : Leads Calm s (execLaserFeedLoss port s) := by
  unfold execLaserFeedLoss
  (repeat' split) <;> simp [calm_iff]

@[simp] theorem execFaultFinding_calm (unit : HwUnit) (f : Finding) (s : State) : Leads Calm s (execFaultFinding unit f s) := by
  unfold execFaultFinding
  split <;> simp [calm_iff]

@[simp] theorem execMemoryCorrectable_calm (tier addr : Nat) (hard : Bool) (s : State) :
    Leads Calm s (execMemoryCorrectable tier addr hard s) := by
  unfold execMemoryCorrectable
  split <;> simp [calm_iff]

@[simp] theorem execMemoryUncorrectable_calm (tier addr : Nat) (cmds : List Nat) (s : State) :
    Leads Calm s (execMemoryUncorrectable tier addr cmds s) := by
  unfold execMemoryUncorrectable
  split
  · exact leads_next.mpr (Calm.refl _)
  · have spoilt : Calm s (spoilWord addr (chargeFinding (channelUnit tier (channelOf s tier addr)) .memUncorrectable s)) := by
      simp [calm_iff]
    dsimp only
    split <;> rw [leads_next]
    · refine Calm.trans (Calm.trans ?_ (dropIfUnasked_calm _ _ _)) (markSuspect_calm _ _)
      exact spoilt.trans (endWaiting_calm _ tier cmds _)
    · refine Calm.trans ?_ (dropIfUnasked_calm _ _ _)
      exact spoilt.trans (endWaiting_calm _ tier cmds _)

@[simp] theorem execBucketLeak_calm (s : State) : Leads Calm s (execBucketLeak s) := by
  simp [execBucketLeak, calm_iff]

@[simp] theorem execTakeover_calm (unit : HwUnit) (micros : Nat) (s : State) : Leads Calm s (execTakeover unit micros s) := by
  unfold execTakeover
  (repeat' split) <;> simp [calm_iff]

@[simp] theorem execUnitTestComplete_calm (unit : HwUnit) (passed : Bool) (s : State) :
    Leads Calm s (execUnitTestComplete unit passed s) := by
  unfold execUnitTestComplete
  (repeat' split) <;> simp [calm_iff]

@[simp] theorem execNameReturn_calm (die letter num : Nat) (s : State) : Leads Calm s (execNameReturn die letter num s) := by
  unfold execNameReturn
  split <;> simp [calm_iff]

@[simp] theorem execLockstepMismatch_calm (pair : Nat) (s : State) : Leads Calm s (execLockstepMismatch pair s) := by
  simp [execLockstepMismatch, calm_iff]

@[simp] theorem execStandbyResume_calm (s : State) : Leads Calm s (execStandbyResume s) := by
  simp [execStandbyResume, calm_iff]

@[simp] theorem execMigrationComplete_calm (tier channel : Nat) (s : State) : Leads Calm s (execMigrationComplete tier channel s) := by
  unfold execMigrationComplete
  split <;> simp [calm_iff]

@[simp] theorem execBeatShadowCheck_calm (counts : List Nat) (s : State) : Leads Calm s (execBeatShadowCheck counts s) := by
  simp [execBeatShadowCheck, calm_iff]

@[simp] theorem execScrubPass_calm (findings : List ScrubFinding) (s : State) : Leads Calm s (execScrubPass findings s) := by
  unfold execScrubPass
  rw [leads_next]
  refine Calm.trans (t := { s with mem := { s.mem with passes := wrap32 (s.mem.passes + 1), scrubNext := s.mem.scrubInterval } })
    (by simp [calm_iff]) (foldl_calm (fun s f => ?_) _ _)
  (repeat' split)
  · exact Calm.refl _
  · simp [calm_iff]
  · exact markSuspect_calm _ _

@[simp] theorem execEpochWithdraw_calm (modelId epoch : Nat) (s : State) : Leads Calm s (execEpochWithdraw modelId epoch s) := by
  unfold execEpochWithdraw
  (repeat' split) <;> simp [calm_iff]

@[simp] theorem execEpochFree_calm (modelId epoch : Nat) (s : State) : Leads Calm s (execEpochFree modelId epoch s) := by
  unfold execEpochFree
  (repeat' split) <;> simp [calm_iff]

@[simp] theorem execDigestComplete_calm (addr bytes : Nat) (s : State) : Leads Calm s (execDigestComplete addr bytes s) := by
  simp [execDigestComplete, calm_iff]

@[simp] theorem execShardTimeout_calm (modelId shard : Nat) (s : State) : Leads Calm s (execShardTimeout modelId shard s) := by
  unfold execShardTimeout
  (repeat' split) <;> simp [calm_iff]

@[simp] theorem execReqExpire_calm (request : Nat) (s : State) : Leads Calm s (execReqExpire request s) := by
  unfold execReqExpire
  (repeat' split) <;> simp [calm_iff]

@[simp] theorem execPauseTtlExpire_calm (request : Nat) (s : State) : Leads Calm s (execPauseTtlExpire request s) := by
  unfold execPauseTtlExpire
  (repeat' split) <;> simp [calm_iff]

@[simp] theorem execPausedHoldExpire_calm (request : Nat) (s : State) : Leads Calm s (execPausedHoldExpire request s) := by
  unfold execPausedHoldExpire
  (repeat' split) <;> simp [calm_iff]

@[simp] theorem execPauseMoveRetry_calm (request : Nat) (s : State) : Leads Calm s (execPauseMoveRetry request s) := by
  unfold execPauseMoveRetry
  (repeat' split) <;> simp [calm_iff]

@[simp] theorem execEvictionWaitTimeout_calm (demand : Nat) (s : State) : Leads Calm s (execEvictionWaitTimeout demand s) := by
  unfold execEvictionWaitTimeout
  (repeat' split) <;> simp [calm_iff]

@[simp] theorem execTierMoveSwitch_calm (handle : Nat) (s : State) : Leads Calm s (execTierMoveSwitch handle s) := by
  simp [execTierMoveSwitch, calm_iff]

@[simp] theorem execLimcelTierMove_calm (modelId tensor tier : Nat) (s : State) :
    Leads Calm s (execLimcelTierMove modelId tensor tier s) := by
  unfold execLimcelTierMove
  split
  · simp
  · split
    · simp
    · split <;> rename_i room
      · exact leads_next.mpr ((demandRoom_now_calm room).trans (by simp [calm_iff]))
      · exact leads_next.mpr ((demandRoom_later_calm room).trans (by simp [calm_iff]))
      · simp

@[simp] theorem execHintExpire_calm (index : Nat) (s : State) : Leads Calm s (execHintExpire index s) := by
  unfold execHintExpire
  split <;> simp [calm_iff]

@[simp] theorem execSlowdownWindow_calm (solo : List (Nat × Nat)) (s : State) : Leads Calm s (execSlowdownWindow solo s) := by
  unfold execSlowdownWindow
  split <;> simp [calm_iff]

@[simp] theorem execTelemetrySample_calm (samples : List RailSample) (s : State) : Leads Calm s (execTelemetrySample samples s) := by
  simp [execTelemetrySample, calm_iff]

@[simp] theorem execReconcileMs_calm (r : Reconcile) (s : State) : Leads Calm s (execReconcileMs r s) := by
  simp [execReconcileMs, calm_iff]

@[simp] theorem execRegulatorReady_calm (engine : Nat) (s : State) : Leads Calm s (execRegulatorReady engine s) := by
  unfold execRegulatorReady
  split <;> simp [calm_iff]

@[simp] theorem execRaiseTimeout_calm (engine : Nat) (s : State) : Leads Calm s (execRaiseTimeout engine s) := by
  unfold execRaiseTimeout
  (repeat' split) <;> simp [calm_iff]

@[simp] theorem execPowerTripAlert_calm (rail current : Nat) (s : State) : Leads Calm s (execPowerTripAlert rail current s) := by
  simp [execPowerTripAlert, calm_iff]

@[simp] theorem execTripHoldExpire_calm (s : State) : Leads Calm s (execTripHoldExpire s) := by
  unfold execTripHoldExpire
  split <;> simp [calm_iff]

@[simp] theorem execRimeMirror_calm (failed : Bool) (s : State) : Leads Calm s (execRimeMirror failed s) := by
  unfold execRimeMirror
  split <;> simp [calm_iff]

@[simp] theorem execRimeFreezeExpire_calm (s : State) : Leads Calm s (execRimeFreezeExpire s) := by
  unfold execRimeFreezeExpire
  split <;> simp [calm_iff]

@[simp] theorem execReverifyComplete_calm (modelId : Nat) (badRegions : List Nat) (s : State) :
    Leads Calm s (execReverifyComplete modelId badRegions s) := by
  unfold execReverifyComplete
  (repeat' split) <;> simp [calm_iff]

@[simp] theorem execBeatMarkLoss_calm (s : State) : Leads Calm s (execBeatMarkLoss s) := by
  unfold execBeatMarkLoss
  split <;> simp [calm_iff]

@[simp] theorem execBeatMarkRecover_calm (s : State) : Leads Calm s (execBeatMarkRecover s) := by
  simp [execBeatMarkRecover, calm_iff]

@[simp] theorem execBeatClkLoss_calm (s : State) : Leads Calm s (execBeatClkLoss s) := by
  unfold execBeatClkLoss
  split <;> simp [calm_iff]

@[simp] theorem execBeatClkRecover_calm (edgeBeat : Nat) (s : State) : Leads Calm s (execBeatClkRecover edgeBeat s) := by
  unfold execBeatClkRecover
  dsimp only
  (repeat' split) <;> simp [calm_iff]

@[simp] theorem execPairReloadComplete_calm (pair : Nat) (s : State) : Leads Calm s (execPairReloadComplete pair s) := by
  unfold execPairReloadComplete
  split <;> simp [calm_iff]

@[simp] theorem execMacsecKey_calm (port : Nat) (cak ckn : List Byte) (s : State) : Leads Calm s (execMacsecKey port cak ckn s) := by
  unfold execMacsecKey
  (repeat' split) <;> simp [calm_iff]

@[simp] theorem execShutdown_calm (s : State) : Leads Calm s (execShutdown s) := by
  unfold execShutdown
  (repeat' split) <;> simp [calm_iff]

@[simp] theorem execInstallChunk_calm (offset : Nat) (data : List Byte) (s : State) : Leads Calm s (execInstallChunk offset data s) := by
  unfold execInstallChunk
  (repeat' split) <;> simp [calm_iff]

@[simp] theorem execLoadModeWrite_calm (die num mode : Nat) (s : State) : Leads Calm s (execLoadModeWrite die num mode s) := by
  unfold execLoadModeWrite
  split <;> simp [calm_iff]

@[simp] theorem execCapRegisterWrite_calm (watts : Nat) (s : State) : Leads Calm s (execCapRegisterWrite watts s) := by
  unfold execCapRegisterWrite
  split <;> simp [calm_iff]

@[simp] theorem execRegisterWrite_calm (offset : Nat) (value : Word) (s : State) : Leads Calm s (execRegisterWrite offset value s) := by
  unfold execRegisterWrite
  split
  · simp
  · cases written : writeReg true offset value 0xFFFFFFFF#32 s with
    | none => simp
    | some t => simp [calm_iff, writeReg_keeps _ _ _ _ _ _ written]

@[simp] theorem execLatchedRead_calm (requester offset : Nat) (s : State) : Leads Calm s (execLatchedRead requester offset s) := by
  simp [execLatchedRead, calm_iff]

@[simp] theorem execEthLinkUp_calm (port : Nat) (s : State) : Leads Calm s (execEthLinkUp port s) := by
  unfold execEthLinkUp
  dsimp only
  (repeat' split) <;> simp [calm_iff]

@[simp] theorem execNeighborDiscoveryArp_calm (q : NdQuery) (s : State) : Leads Calm s (execNeighborDiscoveryArp q s) := by
  unfold execNeighborDiscoveryArp
  dsimp only
  (repeat' split) <;> simp [calm_iff]

@[simp] theorem execTransitPacket_calm (p : TransitP) (s : State) : Leads Calm s (execTransitPacket p s) := by
  unfold execTransitPacket
  (repeat' split) <;> simp [calm_iff]

@[simp] theorem execSorusDecisionQuery_calm (sorus pkg : Nat) (s : State) : Leads Calm s (execSorusDecisionQuery sorus pkg s) := by
  unfold execSorusDecisionQuery
  split <;> simp [calm_iff]

end Sys2Proof.Machine
end

section
/-! The commands that may change a byte of memory and nothing else of what `Stores` keeps. -/
namespace Sys2Proof.Machine

theorem stored {s t : State} (frame : t.pending = s.pending ∧ t.pins = s.pins ∧ t.flash.counters = s.flash.counters ∧
    t.flash.install = s.flash.install) (form : Formed s → Formed t) : Leads Stores s (.next t) :=
  leads_next.mpr ⟨frame.1, frame.2.1, frame.2.2.1, frame.2.2.2, form⟩

theorem Stores.refl (s : State) : Stores s s := (Calm.refl s).stores

theorem Stores.trans {s t v : State} (h : Stores s t) (k : Stores t v) : Stores s v :=
  ⟨k.pending.trans h.pending, k.pins.trans h.pins, k.counters.trans h.counters, k.install.trans h.install, k.formed ∘ h.formed⟩

@[simp] theorem execAlloc_stores (h : Hdr) (p : AllocP) (s : State) : Leads Stores s (execAlloc h p s) := by
  unfold execAlloc
  exact leads_hosted Calm.stores fun e => leads_next.mp (stored (by simp) fun form => by simp [form])

@[simp] theorem execRdmaWrite_stores (p : RdmaP) (s : State) : Leads Stores s (execRdmaWrite p s) := by
  unfold execRdmaWrite
  dsimp only
  (repeat' split) <;> exact stored (by simp) fun form => by simp [form]

/-! ### What a move leaves -/

/-- What the move leaves, if it succeeds. -/
def Moved.Stores (s : State) (r : Moved) : Prop := ∀ t, r = .ok t → Machine.Stores s t

theorem ok_stores {s t : State} : (Moved.ok t).Stores s ↔ Stores s t :=
  ⟨fun h => h t rfl, fun h v hv => by injection hv with hv; exact hv ▸ h⟩

theorem bad_stores (e : Nat) (s : State) : (Moved.bad e).Stores s := fun t ht => by injection ht

theorem moved_stores {r : Moved} {s : State} (frame : ∀ t, r = .ok t → t.pending = s.pending ∧ t.pins = s.pins ∧
      t.flash.counters = s.flash.counters ∧ t.flash.install = s.flash.install) (sound : Formed s → r.Sound s.mem.undef) : r.Stores s := by
  intro t ht
  obtain ⟨pending, pins, counters, install⟩ := frame t ht
  refine ⟨pending, pins, counters, install, fun form => ?_⟩
  obtain ⟨undef, canonical⟩ := ht ▸ sound form
  rw [Formed, undef]
  exact canonical

theorem fetchImage_stores (c : Cmd) (p : Place) (f : XferF) (desc k : Nat) (s : State) : (fetchImage c p f desc k s).Stores s :=
  moved_stores (fun t ht => by simp [fetchImage_keeps _ _ _ _ _ _ _ ht]) fun form => by simp [form]

theorem storeImage_stores (c : Cmd) (p : Place) (f : XferF) (desc k : Nat) (t : Tile) (s : State) :
    (storeImage c p f desc k t s).Stores s :=
  moved_stores (fun t ht => by simp [storeImage_keeps _ _ _ _ _ _ _ _ ht]) fun form => by simp [form]

theorem Moved.Stores.after {r : Moved} {v s : State} (hr : r.Stores s) (hv : Machine.Stores v s) : r.Stores v :=
  fun t ht => hv.trans (hr t ht)

theorem eachMove_stores {α : Type} {f : α → State → Moved} (step : ∀ x s, (f x s).Stores s) (xs : List α) (s : State) :
    (eachMove f xs s).1.Stores s ∧ Stores s (eachMove f xs s).2 := by
  induction xs generalizing s with
  | nil => exact ⟨ok_stores.mpr (Stores.refl s), Stores.refl s⟩
  | cons x xs ih =>
    have one := step x s
    unfold eachMove
    cases moved : f x s with
    | bad e => exact ⟨bad_stores e s, Stores.refl s⟩
    | ok v => exact ⟨(ih v).1.after (one v moved), (one v moved).trans (ih v).2⟩

theorem landMove_stores (p : Place) (i n desc : Nat) {r : Moved} {s v : State} (hv : Stores v s) (hr : r.Stores s) :
    Stores v (landMove p i n desc r s).1 := by
  unfold landMove
  split
  · exact hv.trans ((hr _ rfl).trans (Calm.stores (by simp [calm_iff])))
  · exact hv.trans (Calm.stores (by simp [calm_iff]))

theorem landMoves_stores (p : Place) (i : Nat) (o : Origin) {r : Moved × State} {v : State} (hr : r.1.Stores v) (hs : Stores v r.2) :
    Stores v (landMoves p i o r) := by
  unfold landMoves
  split
  · exact (hr _ rfl).trans (Calm.stores (by simp [calm_iff]))
  · exact hs.trans (Calm.stores (by simp [calm_iff]))

theorem lateIf_stores (late : Prop) [Decidable late] (ctx tier : Nat) (s : State) : Stores s (if late then lateStall ctx tier s else s) := by
  split
  · exact Calm.stores (by simp [calm_iff])
  · exact Stores.refl s

theorem fetchStep_stores (p : Place) (f : XferF) (s : State) : Stores s (fetchStep p f s).1 := by
  unfold fetchStep
  split
  · exact Stores.refl s
  · split
    · exact Stores.refl s
    · exact landMove_stores _ _ _ _ (lateIf_stores _ _ _ s) (fetchImage_stores _ _ _ _ _ _)

theorem storeStep_stores (p : Place) (f : XferF) (s : State) : Stores s (storeStep p f s).1 := by
  unfold storeStep
  split
  · exact Stores.refl s
  · dsimp only
    split
    · exact Calm.stores (by simp [calm_iff])
    · exact Calm.stores (by simp [calm_iff])
    · exact landMove_stores _ _ _ _ (Stores.refl s) ((storeImage_stores _ _ _ _ _ _ _).after (Calm.stores (by simp [calm_iff])))

/-! ### The Front's transfers (R139) -/

theorem frontSteps_stores {f : State → State × Bool} (step : ∀ s, Stores s (f s).1) (n : Nat) (s : State) :
    Stores s (frontSteps f n s) := by
  induction n generalizing s with
  | zero => exact Stores.refl s
  | succ n ih =>
    have one := step s
    unfold frontSteps
    split <;> rename_i stepped <;> rw [stepped] at one
    · exact one.trans (ih _)
    · exact one

@[simp] theorem execSFetch_stores (p : Place) (f : XferF) (s : State) : Leads Stores s (execSFetch p f s) := by
  unfold execSFetch
  exact leads_next.mpr (frontSteps_stores (fetchStep_stores p f) _ s)

@[simp] theorem execSStore_stores (p : Place) (f : XferF) (s : State) : Leads Stores s (execSStore p f s) := by
  unfold execSStore
  exact leads_next.mpr (frontSteps_stores (storeStep_stores p f) _ s)

@[simp] theorem execGSort_stores (p : Place) (f : SortF) (s : State) : Leads Stores s (execGSort p f s) := by
  unfold execGSort
  exact stored (by simp) fun form => by simp [form]

@[simp] theorem execGScatter_stores (p : Place) (f : MoveF) (s : State) : Leads Stores s (execGScatter p f s) := by
  unfold execGScatter
  exact stored (by simp) fun form => by simp [form]

@[simp] theorem execTMove_stores (p : Place) (f : TMoveF) (s : State) : Leads Stores s (execTMove p f s) := by
  unfold execTMove
  dsimp only
  (repeat' split) <;> exact stored (by simp) fun form => by simp [form]

@[simp] theorem execTFill_stores (p : Place) (f : TMoveF) (s : State) : Leads Stores s (execTFill p f s) := by
  unfold execTFill
  (repeat' split) <;> exact stored (by simp) fun form => by simp [form]

@[simp] theorem execFabricRequest_stores (r : FabReq) (s : State) : Leads Stores s (execFabricRequest r s) := by
  unfold execFabricRequest
  dsimp only
  (repeat' split) <;> exact stored (by simp) fun form => by simp [form]

@[simp] theorem execFabricResponse_stores (r : FabResp) (s : State) : Leads Stores s (execFabricResponse r s) := by
  unfold execFabricResponse
  split <;> exact stored (by simp) fun form => by simp [form]

@[simp] theorem execFabricSorusCommit_stores (s : State) : Leads Stores s (execFabricSorusCommit s) := by
  unfold execFabricSorusCommit
  exact stored (by simp) fun form => by simp [form]

@[simp] theorem execExchangeRow_stores (r : XRow) (s : State) : Leads Stores s (execExchangeRow r s) := by
  unfold execExchangeRow
  exact stored (by simp) fun form => by simp [form]

@[simp] theorem execBarrierArrival_stores (id : Nat) (members : List Nat) (a : ArrivalP) (s : State) :
    Leads Stores s (execBarrierArrival id members a s) := by
  unfold execBarrierArrival
  dsimp only
  (repeat' split) <;> exact stored (by simp) fun form => by simp [form]

@[simp] theorem execShardConvert_stores (s : State) : Leads Stores s (execShardConvert s) := by
  unfold execShardConvert
  dsimp only
  (repeat' split) <;> exact stored (by simp) fun form => by simp [form]

@[simp] theorem execShardPeerRead_stores (modelId shard : Nat) (images : List Byte) (s : State) :
    Leads Stores s (execShardPeerRead modelId shard images s) := by
  unfold execShardPeerRead
  (repeat' split) <;> exact stored (by simp) fun form => by simp [form]

@[simp] theorem execResumeMoveComplete_stores (request : Nat) (s : State) : Leads Stores s (execResumeMoveComplete request s) := by
  unfold execResumeMoveComplete
  exact stored (by simp) fun form => by simp [form]

@[simp] theorem execPauseMoveComplete_stores (request : Nat) (s : State) : Leads Stores s (execPauseMoveComplete request s) := by
  unfold execPauseMoveComplete
  exact stored (by simp) fun form => by simp [form]

@[simp] theorem execTierMoveCopy_stores (handle : Nat) (s : State) : Leads Stores s (execTierMoveCopy handle s) := by
  unfold execTierMoveCopy
  (repeat' split) <;> exact stored (by simp) fun form => by simp [form]

@[simp] theorem execServingStepLaunch_stores (p : StepLaunchP) (s : State) : Leads Stores s (execServingStepLaunch p s) := by
  unfold execServingStepLaunch
  dsimp only
  (repeat' split) <;> exact stored (by simp) fun form => by simp [form]

@[simp] theorem execSnapshotUnitCopy_stores (snap : Nat) (s : State) : Leads Stores s (execSnapshotUnitCopy snap s) := by
  unfold execSnapshotUnitCopy
  (repeat' split) <;> exact stored (by simp) fun form => by simp [form]

/-! ### The fabric copy engines (R331 to R337) -/

theorem withSource_stores {k : List Byte → State → State} (hk : ∀ b s, Stores s (k b s)) (c : Cmd) (o : Origin) (p : Place)
    (slot off n : Nat) (s : State) : Stores s (withSource c o p slot off n k s) := by
  have started : (if (bufferOf s p).isSome then Moved.ok s else bufferRead c o p slot off n s).Stores s := by
    split
    · exact ok_stores.mpr (Stores.refl s)
    · exact moved_stores (fun t ht => by simp [bufferRead_keeps _ _ _ _ _ _ _ _ ht]) fun form => by simp [form]
  unfold withSource
  dsimp only
  split
  · exact Calm.stores (by simp [calm_iff])
  · rename_i begun
    have first := started _ begun
    split
    · exact first
    · exact first.trans (hk _ _)

@[simp] theorem execZCopy_stores (p : Place) (f : ZCopyF) (s : State) : Leads Stores s (execZCopy p f s) := by
  unfold execZCopy
  split
  · exact leads_next.mpr (Stores.refl s)
  · rename_i c l i _
    extract_lets o a home badCounter first
    have moved : (copyMove c o f a s).Stores s :=
      moved_stores (fun t ht => by simp [copyMove_keeps _ _ _ _ _ _ ht]) fun form => by simp [form]
    split
    · exact stored (by simp) fun form => by simp [form]
    · split
      · exact stored (by simp) fun form => by simp [form]
      · rename_i t copied
        refine leads_next.mpr ((moved t copied).trans ?_)
        (repeat' split) <;> exact leads_next.mp (stored (by simp) fun form => by simp [form])

@[simp] theorem execZAtomic_stores (p : Place) (f : ZAtomicF) (s : State) : Leads Stores s (execZAtomic p f s) := by
  unfold execZAtomic
  split
  · exact leads_next.mpr (Stores.refl s)
  · refine leads_next.mpr (withSource_stores (fun bs s => ?_) _ _ _ _ _ _ s)
    have issued := fun c o xs s => eachMove_stores (f := issueAtomic c o f)
      (fun x s => moved_stores (fun t ht => by simp [issueAtomic_keeps _ _ _ _ _ _ ht]) fun form => by simp [form]) xs s
    have dropped : Stores s (dropBuffer p s) := Calm.stores (by simp [calm_iff])
    exact landMoves_stores _ _ _ ((issued _ _ _ _).1.after dropped) (dropped.trans (issued _ _ _ _).2)

@[simp] theorem execZReduce_stores (p : Place) (f : ZReduceF) (arrivals : List Contribution) (s : State) :
    Leads Stores s (execZReduce p f arrivals s) := by
  have written : ∀ c o data s, (slotWrite c o f.dst f.dstOffset data s).Stores s := fun c o data s =>
    moved_stores (fun t ht => by simp [slotWrite_keeps _ _ _ _ _ _ _ ht]) fun form => by simp [form]
  unfold execZReduce
  split
  · exact leads_next.mpr (Stores.refl s)
  · extract_lets o fail
    split
    · extract_lets
      split
      · exact stored (by simp [fail]) fun form => by simp [fail, form]
      · refine leads_next.mpr (withSource_stores (fun mine s => ?_) _ _ _ _ _ _ s)
        extract_lets mine sent r
        have waits : Stores s sent := by
          unfold sent
          split
          · exact Stores.refl s
          · exact Calm.stores (by simp [calm_iff])
        split
        · split
          · exact waits.trans (Calm.stores (by simp [calm_iff, fail]))
          · rename_i wrote
            exact waits.trans ((written _ _ _ _ _ wrote).trans (Calm.stores (by simp [calm_iff])))
        · exact waits
    · exact stored (by simp [fail]) fun form => by simp [fail, form]

@[simp] theorem execZXchg_stores (p : Place) (f : ZXchgF) (s : State) : Leads Stores s (execZXchg p f s) := by
  unfold execZXchg
  (repeat' split) <;> exact stored (by simp) fun form => by simp [form]

@[simp] theorem execZTxn_stores (p : Place) (f : ZTxnF) (s : State) : Leads Stores s (execZTxn p f s) := by
  unfold execZTxn
  split
  · exact leads_next.mpr (Stores.refl s)
  · extract_lets o
    refine leads_next.mpr (withSource_stores (fun bs s => ?_) _ _ _ _ _ _ s)
    extract_lets v es homes spoilt moved
    have dropped : Stores s v := Calm.stores (by simp [calm_iff, v])
    have staged : moved.Stores v := by
      unfold moved
      split
      · split
        · exact bad_stores 2 v
        · extract_lets sink
          split
          · exact moved_stores (fun t ht => by simp [stageOwn_keeps _ _ _ _ _ _ _ ht]) fun form => by simp [form]
          · split
            · exact bad_stores 4 v
            · exact ok_stores.mpr (Calm.stores (by simp [calm_iff, spoilt]))
      · exact bad_stores 2 v
    exact landMoves_stores _ _ _ (staged.after dropped) dropped

end Sys2Proof.Machine
end

section
/-! The commands that reach more than memory: the counters, the installation record or the pins. -/
namespace Sys2Proof.Machine
open Sys2Proof.Claims

/-- What the sets of Claims allow the command to change. -/
structure Moves (i : Instr) (s t : State) : Prop where
  onward : Onward s t
  cells : mayStore i = false → t.mem.cells = s.mem.cells
  counters : mayCount i = false → t.flash.counters = s.flash.counters
  install : mayInstall i = false → t.flash.install = s.flash.install
  pins : mayPin i = false → t.pins = s.pins

theorem Calm.moves {i : Instr} {s t : State} (h : Calm s t) : Moves i s t :=
  ⟨h.onward, fun _ => h.cells, fun _ => h.counters, fun _ => h.install, fun _ => h.pins⟩

theorem Stores.moves {i : Instr} {s t : State} (hi : mayStore i = true) (h : Stores s t) : Moves i s t :=
  ⟨h.onward, fun no => by simp [hi] at no, fun _ => h.counters, fun _ => h.install, fun _ => h.pins⟩

/-- A command in each of the sets. -/
theorem Onward.moves {i : Instr} {s t : State} (hi : mayStore i = true ∧ mayCount i = true ∧ mayInstall i = true ∧ mayPin i = true)
    (h : Onward s t) : Moves i s t := by
  obtain ⟨store, count, install, pin⟩ := hi
  exact ⟨h, fun no => by simp [store] at no, fun no => by simp [count] at no, fun no => by simp [install] at no,
    fun no => by simp [pin] at no⟩

/-- A command that may move a pin and nothing else. -/
theorem moves_pins {i : Instr} {s t : State} (hi : mayPin i = true) (frame : t.pending = s.pending ∧
      t.flash.counters = s.flash.counters ∧ t.flash.install = s.flash.install ∧ t.mem = s.mem) : Moves i s t := by
  obtain ⟨pending, counters, install, mem⟩ := frame
  exact ⟨⟨pending, by simp [counters], fun form => by rw [Formed, mem]; exact form⟩, fun _ => by rw [mem], fun _ => counters,
    fun _ => install, fun no => by simp [hi] at no⟩

theorem execRegRead_moves (h : Hdr) (offset count : Nat) (s : State) :
    Leads (Moves (.regRead h offset count)) s (execRegRead h offset count s) := by
  unfold execRegRead
  exact leads_hosted Calm.moves fun e => moves_pins rfl (by simp)

theorem execThermalTrip_moves (die sensor celsius : Nat) (s : State) :
    Leads (Moves (.thermalTrip die sensor celsius)) s (execThermalTrip die sensor celsius s) := by
  unfold execThermalTrip
  split
  · exact leads_next.mpr (Calm.refl s).moves
  · exact leads_next.mpr (moves_pins rfl (by simp))

theorem execWarmRestart_moves (s : State) : Leads (Moves .warmRestart) s (execWarmRestart s) := by
  unfold execWarmRestart
  split <;> exact leads_next.mpr (moves_pins rfl (by simp))

theorem execHlthStateRead_moves (requester : Nat) (s : State) :
    Leads (Moves (.hlthStateRead requester)) s (execHlthStateRead requester s) := by
  unfold execHlthStateRead
  exact leads_next.mpr (moves_pins rfl (by simp))

theorem execI3cOffsetWrite_moves (offset count : Nat) (s : State) :
    Leads (Moves (.i3cOffsetWrite offset count)) s (execI3cOffsetWrite offset count s) := by
  unfold execI3cOffsetWrite
  exact leads_next.mpr (moves_pins rfl (by simp))

theorem execJtagInstruction_moves (op : JtagOp) (s : State) :
    Leads (Moves (.jtagInstruction op)) s (execJtagInstruction op s) := by
  unfold execJtagInstruction
  exact leads_next.mpr (moves_pins rfl (by simp))

theorem execAdapterVersionLive_moves (modelId slot : Nat) (s : State) :
    Leads (Moves (.adapterVersionLive modelId slot)) s (execAdapterVersionLive modelId slot s) := by
  unfold execAdapterVersionLive
  refine leads_next.mpr ⟨⟨by simp, by simp, fun form => by simpa using form⟩, ?_, ?_, ?_, ?_⟩ <;> simp [mayCount]

theorem execSorusCommitApply_moves (sorus : Nat) (s : State) :
    Leads (Moves (.sorusCommitApply sorus)) s (execSorusCommitApply sorus s) := by
  unfold execSorusCommitApply
  refine leads_next.mpr ⟨⟨by simp, by simp, fun form => by simp [form]⟩, ?_, ?_, ?_, ?_⟩ <;> simp [mayStore, mayCount]

theorem execFwTakeover_moves (pauseNs : Nat) (s : State) : Leads (Moves (.fwTakeover pauseNs)) s (execFwTakeover pauseNs s) := by
  unfold execFwTakeover
  dsimp only
  split
  · exact leads_next.mpr (Calm.refl s).moves
  · split
    · exact leads_next.mpr (Calm.refl s).moves
    · split
      · exact leads_next.mpr (Calm.moves (by simp [calm_iff]))
      · refine leads_next.mpr ⟨⟨by simp, ?_, fun form => by simpa using form⟩, ?_, ?_, ?_, ?_⟩
        · constructor <;> simp
        all_goals simp [mayCount]

theorem execInstallCommit_moves (total : Nat) (sigOk : Bool) (s : State) :
    Leads (Moves (.installCommit total sigOk)) s (execInstallCommit total sigOk s) := by
  unfold execInstallCommit
  dsimp only
  split
  · exact leads_next.mpr (Calm.refl s).moves
  · split
    · exact leads_next.mpr (Calm.moves (by simp [calm_iff]))
    · split
      · exact leads_next.mpr (Calm.moves (by simp [calm_iff]))
      · split
        · exact leads_next.mpr (Calm.moves (by simp [calm_iff]))
        · refine leads_next.mpr ⟨⟨by simp, by simp, fun form => by simpa using form⟩, ?_, ?_, ?_, ?_⟩ <;> simp [mayInstall]

/-! ### Resets and starts: each set holds them, so `Onward` is all -/

theorem reset_formed : Formed State.reset := formed_iff.mpr zero_wf

theorem powerOn_onward (s : State) : Onward s s.powerOn :=
  ⟨rfl, Counters.Under.refl _, fun _ => reset_formed⟩

theorem enterRefresh_onward (kind : Nat) (s : State) : Onward s (enterRefresh kind s) := by
  refine ⟨?_, ?_, fun form => ?_⟩ <;> simp_all [enterRefresh]

theorem warmReset_onward (kind : Nat) (s : State) : Onward s (warmReset kind s) := by
  unfold warmReset
  (repeat' split)
  · exact Onward.refl s
  · exact powerOn_onward s
  · exact enterRefresh_onward kind s

theorem execPowerFail_moves (s : State) : Leads (Moves .powerFail) s (execPowerFail s) := by
  unfold execPowerFail
  exact leads_next.mpr (Onward.moves ⟨rfl, rfl, rfl, rfl⟩ ((powerOn_onward s).trans ⟨rfl, Counters.Under.refl _, id⟩))

theorem execPorAssert_moves (heldUs : Nat) (s : State) : Leads (Moves (.porAssert heldUs)) s (execPorAssert heldUs s) := by
  unfold execPorAssert
  split
  · exact leads_next.mpr (Calm.refl s).moves
  · exact leads_next.mpr (Onward.moves ⟨rfl, rfl, rfl, rfl⟩ ((powerOn_onward s).trans ⟨rfl, Counters.Under.refl _, id⟩))

theorem execResetWarm_onward (h : Hdr) (s : State) : Leads Onward s (execResetWarm h s) := by
  unfold execResetWarm
  exact leads_hosted Calm.onward fun e => (Calm.onward (by simp [calm_iff])).trans (warmReset_onward 2 _)

theorem sized_formed {s : State} (w : Nat) (b : BootSt) (form : Formed s) :
    Formed { s with mem := { s.mem with lpWindow := w }, boot := b } := form

theorem cleared_formed (s : State) (us : List Undef) :
    Formed { s with mem := { s.mem with cells := [], undef := us } } := by simp [Canonical, MemSt.wf]

theorem endMemory_formed (inp : StageInput) {s : State} (form : Formed s) : Formed (endMemory inp s) := by
  unfold endMemory
  split
  · simpa using form
  · split
    · simpa using form
    · refine sized_formed _ _ ?_
      split
      · exact cleared_formed _ _
      · exact form

theorem endMemory_onward (inp : StageInput) (s : State) : Onward s (endMemory inp s) :=
  ⟨by simp, by simp, endMemory_formed inp⟩

theorem takePending_onward (s : State) : Onward s (takePending s) := ⟨by simp, by simp, fun form => by simpa using form⟩

theorem execBootStageComplete_onward (inp : StageInput) (s : State) : Leads Onward s (execBootStageComplete inp s) := by
  have started : Onward s (endLimcel inp (takePending s)) :=
    (takePending_onward s).trans ⟨by simp, by simp, fun form => by simpa using form⟩
  have waits : ∀ code, Onward s (waitPlan code (takePending s)) := fun code =>
    (takePending_onward s).trans ⟨by simp, by simp, fun form => by simpa using form⟩
  unfold execBootStageComplete
  split
  · exact leads_next.mpr (Onward.refl s)
  · dsimp only
    split
    · split
      · exact leads_next.mpr (Onward.refl s)
      · split
        · exact leads_next.mpr (waits _)
        · exact leads_next.mpr ⟨by simp, by simp, fun form => by simpa using form⟩
    · split
      · exact leads_next.mpr ⟨by simp, by simp, fun form => by simpa using form⟩
      · split
        · exact leads_next.mpr ⟨by simp, by simp, fun form => by simpa using form⟩
        · split
          · exact leads_next.mpr (endMemory_onward inp s)
          · split
            · exact leads_next.mpr started
            · split
              · exact leads_next.mpr ⟨by simp, by simp, fun form => by simpa using form⟩
              · exact leads_next.mpr (Onward.refl s)

end Sys2Proof.Machine
end

section
/-! The commands that bring other commands with them: a frame takes host commands one after another (R358), and a beat, which runs its
phases (R37), may end a pause and take the frames that came in it (R475). -/
namespace Sys2Proof.Machine
open Sys2Proof.Claims

theorem outcome_onward {s : State} {o : Host.Outcome State Fault Refusal} (h : Leads Onward s o) : Onward s (outcomeState s o) := by
  obtain ⟨t, rfl, onward⟩ := h
  exact onward

theorem takeHost_onward (i : Instr) (s : State) : Onward s (takeHost i s) := by
  unfold takeHost
  refine outcome_onward ?_
  split
  case h_32 => exact (execAlloc_stores _ _ s).mono fun _ => Stores.onward
  case h_53 => exact (execRegRead_moves _ _ _ s).mono fun _ => Moves.onward
  case h_64 => exact execResetWarm_onward _ s
  all_goals exact Leads.mono (by simp) fun _ => Calm.onward

theorem takeEntry_onward (f : Frame) (acc : Bool × State) (e : RawEntry) : Onward acc.2 (takeEntry f acc e).2 := by
  unfold takeEntry
  dsimp only
  split
  · exact Onward.refl _
  split
  · exact Calm.onward (by simp [calm_iff])
  split
  · exact Calm.onward (by simp [calm_iff])
  split
  · exact Calm.onward (by simp [calm_iff])
  split
  · exact takeHost_onward _ _
  · exact Onward.refl _

theorem takeEntries_onward (f : Frame) (s : State) : Onward s (takeEntries f s) := by
  unfold takeEntries
  generalize false = b
  induction f.entries generalizing b s with
  | nil => exact Onward.refl s
  | cons e es ih =>
    rw [List.foldl_cons]
    exact (takeEntry_onward f (b, s) e).trans (ih _ _)

theorem processFrame_onward (f : Frame) (s : State) : Onward s (processFrame f s) :=
  (Calm.onward (by simp [calm_iff])).trans (takeEntries_onward f _)

theorem processHeld_onward (sid n : Nat) (s : State) : Onward s (processHeld sid n s) := by
  induction n generalizing s with
  | zero => exact Onward.refl s
  | succ n ih =>
    unfold processHeld
    (repeat' split)
    · exact Onward.refl s
    · exact Onward.refl s
    · exact (processFrame_onward _ s).trans (ih _)

theorem acknowledge_onward (f : Frame) (before : Nat) (s : State) : Onward s (acknowledge f before s) :=
  Calm.onward (by simp [calm_iff])

theorem sessionFrame_onward (f : Frame) (e : Session) (s : State) : Onward s (sessionFrame f e s) := by
  unfold sessionFrame
  dsimp only
  split
  · exact Calm.onward (by simp [calm_iff])
  · split
    · exact Calm.onward (by simp [calm_iff])
    · split
      · refine Onward.trans ?_ (acknowledge_onward _ _ _)
        refine Onward.trans ?_ (processHeld_onward _ _ _)
        refine Onward.trans ?_ (processFrame_onward _ _)
        exact Calm.onward (by simp [calm_iff])
      · exact Calm.onward (by simp [calm_iff])

theorem execFrameReceive_onward (f : Frame) (s : State) : Leads Onward s (execFrameReceive f s) := by
  have dropped : ∀ k, Leads Onward s (.next (discard k s)) := fun k => leads_next.mpr (Calm.onward (by simp [calm_iff]))
  unfold execFrameReceive
  split
  · exact leads_next.mpr (Onward.refl s)
  split
  · exact leads_next.mpr (Onward.refl s)
  split
  · exact leads_next.mpr (Calm.onward (by simp [calm_iff]))
  split
  · exact dropped 0
  split
  · exact dropped 1
  split
  · split
    · exact dropped 2
    split
    · exact dropped 6
    · exact leads_next.mpr (takeEntries_onward f s)
  · split
    · exact dropped 3
    split
    · exact dropped 2
    split
    · exact dropped 4
    · exact leads_next.mpr (sessionFrame_onward f _ s)

theorem takeHeld_onward (i : Instr) (s : State) : Onward s (takeHeld i s) := by
  unfold takeHeld
  split
  · exact outcome_onward (execFrameReceive_onward _ s)
  · exact takeHost_onward _ s

theorem endPause_onward (s : State) : Onward s (endPause s) := by
  unfold endPause
  split
  · split
    · exact (Calm.onward (by simp [calm_iff])).trans (foldl_onward (fun s i => takeHeld_onward i s) _ _)
    · exact Onward.refl s
  · exact Onward.refl s

theorem boundary_onward (s : State) : Onward s (boundary s) := by
  unfold boundary
  refine (endPause_onward s).trans ⟨by simp, by simp, fun form => by simpa using form⟩

/-! ### A beat -/

theorem phase3_onward (ps : List Policy) (s : State) : Onward s (phase3 ps s) := ⟨by simp, by simp, fun form => by simp [form]⟩

theorem afterPhases_onward (s : State) : Onward s (afterPhases s) := ⟨by simp, by simp, fun form => by simp [form]⟩

theorem phases_onward (inp : BeatInput) (s : State) : Onward s (phases inp s) := by
  unfold phases
  extract_lets s1 paused s3 s5 s6 s9
  have h1 : Onward s s1 := boundary_onward s
  have h3 : Onward s1 s3 := (Calm.onward (by simp [calm_iff])).trans (phase3_onward inp.policy (phase2 inp.outs s1))
  have h5 : Onward s3 s5 := by
    unfold s5
    split
    · exact Calm.onward (by simp [calm_iff])
    · exact Calm.onward (by simp [calm_iff])
  have h6 : Onward s5 s6 := by
    unfold s6
    split
    · exact Onward.refl s5
    · exact Calm.onward (by simp [calm_iff])
  have h9 : Onward s6 s9 := Calm.onward (by simp [calm_iff, s9])
  have counted : ∀ v, Onward v (countBeat (countStalls v)) := fun v => Calm.onward (by simp [calm_iff])
  exact h1.trans (h3.trans (h5.trans (h6.trans (h9.trans ((afterPhases_onward s9).trans (counted _))))))

theorem execBeatTick_onward (inp : BeatInput) (s : State) : Leads Onward s (execBeatTick inp s) := by
  have advanced : Onward s (alignNow (advance inp s)) := Calm.onward (by simp [calm_iff])
  unfold execBeatTick
  split
  · exact leads_next.mpr (Onward.refl s)
  · dsimp only
    split
    · exact leads_next.mpr (advanced.trans (phases_onward inp _))
    · exact leads_next.mpr advanced

/-! ### Every command -/

/-- Every command answers a next state, and changes only what the sets of Claims let it change. -/
theorem exec_moves (i : Instr) (s : State) : Leads (Moves i) s (exec i s) := by
  have calm : ∀ {o}, Leads Calm s o → Leads (Moves i) s o := fun h => h.mono fun _ => Calm.moves
  have stores : mayStore i = true → ∀ {o}, Leads Stores s o → Leads (Moves i) s o := fun hi _ h => h.mono fun _ => Stores.moves hi
  cases i
  case frameReceive f => exact (execFrameReceive_onward f s).mono fun _ => Onward.moves ⟨rfl, rfl, rfl, rfl⟩
  case beatTick inp => exact (execBeatTick_onward inp s).mono fun _ => Onward.moves ⟨rfl, rfl, rfl, rfl⟩
  case resetWarm h => exact (execResetWarm_onward h s).mono fun _ => Onward.moves ⟨rfl, rfl, rfl, rfl⟩
  case bootStageComplete inp => exact (execBootStageComplete_onward inp s).mono fun _ => Onward.moves ⟨rfl, rfl, rfl, rfl⟩
  case powerOnReset => exact leads_next.mpr ((powerOn_onward s).moves ⟨rfl, rfl, rfl, rfl⟩)
  case warmResetAssert => exact leads_next.mpr ((warmReset_onward 1 s).moves ⟨rfl, rfl, rfl, rfl⟩)
  case powerFail => exact execPowerFail_moves s
  case porAssert heldUs => exact execPorAssert_moves heldUs s
  case regRead h offset count => exact execRegRead_moves h offset count s
  case thermalTrip die sensor celsius => exact execThermalTrip_moves die sensor celsius s
  case warmRestart => exact execWarmRestart_moves s
  case hlthStateRead requester => exact execHlthStateRead_moves requester s
  case i3cOffsetWrite offset count => exact execI3cOffsetWrite_moves offset count s
  case jtagInstruction op => exact execJtagInstruction_moves op s
  case adapterVersionLive modelId slot => exact execAdapterVersionLive_moves modelId slot s
  case sorusCommitApply sorus => exact execSorusCommitApply_moves sorus s
  case fwTakeover pauseNs => exact execFwTakeover_moves pauseNs s
  case installCommit total sigOk => exact execInstallCommit_moves total sigOk s
  case alloc | rdmaWrite | sFetch | sStore | gSort | gScatter | tMove | tFill | zCopy | zAtomic | zReduce | zXchg | zTxn |
      fabricRequest | fabricResponse | fabricSorusCommit | exchangeRow | barrierArrival | shardConvert | shardPeerRead |
      resumeMoveComplete | pauseMoveComplete | tierMoveCopy | servingStepLaunch | snapshotUnitCopy =>
    exact stores rfl (by simp [exec])
  all_goals exact calm (by simp [exec])

theorem exec_onward {i : Instr} {s t : State} (next : exec i s = .next t) : Onward s t := by
  obtain ⟨u, left, moves⟩ := exec_moves i s
  cases left.symm.trans next
  exact moves.onward

theorem step_of_pending {c : Instr} {rest : List Instr} {s : State} (hs : s.pending = c :: rest) :
    step s = exec c { s with pending := rest } := by
  unfold step
  rw [hs]

theorem step_of_empty {s : State} (hs : s.pending = []) : step s = .next s := by
  unfold step
  rw [hs]

/-- What a step keeps: no counter falls, and memory keeps its form. -/
theorem step_keeps {s t : State} (next : step s = .next t) : s.flash.counters.Under t.flash.counters ∧ (Formed s → Formed t) := by
  cases hs : s.pending with
  | nil =>
    rw [step_of_empty hs] at next
    cases next
    exact ⟨Counters.Under.refl _, id⟩
  | cons c rest =>
    rw [step_of_pending hs] at next
    exact ⟨(exec_onward next).under, (exec_onward next).formed⟩

end Sys2Proof.Machine
end

section
open Sys2Proof Sys2Proof.Machine Sys2Proof.Claims

/-- Settles O58: each command changes only what its set in Claims allows (`exec_moves`). -/
theorem onlyTheseCommandsWrite : Obligations.OnlyTheseCommandsWrite := by
  intro i s t next
  obtain ⟨u, left, moves⟩ := exec_moves i s
  cases left.symm.trans next
  exact ⟨moves.cells, moves.counters, moves.install, moves.pins⟩

/-- Settles O59: a counter is only ever raised, to the maximum of itself and another number. -/
theorem antiRollbackCountersNeverFall : Obligations.AntiRollbackCountersNeverFall := by
  intro s t next
  have under := (step_keeps next).1
  exact ⟨under.stage1, under.limcel, under.config, under.install, under.manifest, under.keyRevoke⟩

/-- Settles O60: bytes are stored by `MemSt.write` and made undefined by `MemSt.undefine`, which both keep the form. -/
theorem memoryStaysCanonical : Obligations.MemoryStaysCanonical := by
  intro s t form next
  exact formed_iff.mp ((step_keeps next).2 (formed_iff.mpr form))

/-- Settles O1: by the definition of a step. -/
theorem stepRunsTheFrontCommand : Obligations.StepRunsTheFrontCommand := fun _ _ _ => step_of_pending rfl

/-- Settles O2: no command touches the queue (`exec_onward`). -/
theorem queueIsFirstInFirstOut : Obligations.QueueIsFirstInFirstOut := by
  refine ⟨fun c rest s t next => ?_, fun s hs => step_of_empty hs, fun _ _ => rfl, fun _ _ _ => rfl⟩
  rw [step_of_pending rfl] at next
  exact (exec_onward next).pending

/-- Settles O3: the meaning of every command is a next state (`exec_moves`). -/
theorem everyCommandAnswersNext : Obligations.EveryCommandAnswersNext := by
  intro c s
  obtain ⟨t, next, _⟩ := exec_moves c s
  exact ⟨t, next⟩

end

section
/-! HELLO and SESSION_OPEN (R352, R353), and the ends of sessions and principals (R354). -/
namespace Sys2Proof.Machine
open Sys2Proof.Claims

/-! ### Opening a session -/

/-- A command whose ranges refuse it is answered with the refusal and does nothing else. -/
theorem hosted_of_refused {i : Instr} {h : Hdr} {g : Gate} {e : Session} {s : State} (served : Served i h g e s)
    {ranges : Session → State → Option (Nat × Nat)} {st d : Nat} (refused : ranges e s = some (st, d)) (run : Session → State → State) :
    hosted i h g ranges run s = .next (reply h g.opcode st d [] s) := by
  obtain ⟨ready, running, he, flags, gate, noSorus, -⟩ := served
  simp [hosted, ready, running, he, flags, gate, noSorus, refused]

/-- Version 1.1 is picked when the host's range reaches it (R352). -/
theorem pickVersion_of_reaches {p : HelloP} (low : p.minMajor * 256 + p.minMinor ≤ 257) (high : 257 ≤ p.maxMajor * 256 + p.maxMinor) :
    pickVersion p = some (1, 1) := by
  simp [pickVersion, low, high]

theorem pickVersion_of_misses {p : HelloP}
    (miss : p.maxMajor * 256 + p.maxMinor < 256 ∨ 257 < p.minMajor * 256 + p.minMinor) : pickVersion p = none := by
  unfold pickVersion
  dsimp only
  rw [if_neg (by simp; omega), if_neg (by simp; omega)]

theorem principalId_of_lt {n : Nat} (h : n < 0xFFFFFFFF) : principalId n = n := by
  unfold principalId
  rw [Nat.mod_eq_of_lt (by omega), if_neg (by omega)]

/-- With no event waiting for the principal, a new session takes none. -/
theorem flushEvents_of_none {sid p : Nat} {s : State} (none : ∀ x ∈ s.net.events, x.principal ≠ p) : flushEvents sid p s = s := by
  have empty : (s.net.events.filter fun x => x.principal = p) = [] := by simpa using none
  have kept : (s.net.events.filter fun x => x.principal ≠ p) = s.net.events := by simpa using none
  simp only [flushEvents, empty, kept, List.foldl_nil]

end Sys2Proof.Machine
end

section
open Sys2Proof Sys2Proof.Machine Sys2Proof.Claims

/-- Settles O4: each phase by the branch that its hypotheses name. -/
theorem sessionsOpen : Obligations.SessionsOpen := by
  refine ⟨?_, ?_, ?_, ?_, ?_, ?_, ?_, ?_⟩
  · intro h p s ready running session flags idle low high
    have order : ¬ p.maxMajor * 256 + p.maxMinor < p.minMajor * 256 + p.minMinor := by omega
    show execHello h p s = _
    simp [execHello, ready, running, session, flags, Nat.not_lt.mpr idle, order, pickVersion_of_reaches low high, packageFeatures]
  · intro h p s ready running session flags idle order miss
    show execHello h p s = _
    simp [execHello, ready, running, session, flags, Nat.not_lt.mpr idle, Nat.not_lt.mpr order, pickVersion_of_misses miss, stVersion]
  · intro h r qps s ready running session flags
    show execSessionOpen h 0 (.answer r) qps s = _
    simp [execSessionOpen, ready, running, session, flags, openPhase0]
  · intro h sid principal roles r qps hs s ready running session flags room notZero fresh hello small noEvents
    show execSessionOpen h 0 (.finish sid principal roles r) qps s = _
    simp [execSessionOpen, ready, running, session, flags, openPhase0, Nat.not_le.mpr room, notZero, fresh, principalId_of_lt small]
    rw [flushEvents_of_none (by simpa [openSession] using noEvents)]
    simp [openSession, hello, principalId_of_lt small]
  · intro h spdm qps e s session served notEmpty few ranges mine all
    have sound : (qps.any fun q => decide (1 < q.port) || decide (q.pmtu < 3) || decide (5 < q.pmtu)) = false := by
      refine List.any_eq_false.mpr fun q hq => ?_
      obtain ⟨port, low, high⟩ := ranges q hq
      simp [Nat.not_lt.mpr port, Nat.not_lt.mpr low, Nat.not_lt.mpr high]
    refine ⟨_, (if_neg (by simp)).trans (hosted_of_served served ?_ _), ?_⟩
    · simp [badIf, notEmpty, few, sound]
    · simp [Nat.not_lt.mpr mine, Nat.not_lt.mpr all]
  · intro h r qps e s session served
    exact (if_neg (by simp [session])).trans (hosted_of_served served rfl _)
  · intro h e s served
    exact hosted_of_served served rfl _
  · intro h e s served
    exact hosted_of_served served rfl _

end

section
/-! A session closes whole (R354): the ids of the open sessions, and the keys of the contexts that a principal leaves behind. -/
namespace Sys2Proof.Machine
open Sys2Proof.Claims

/-! ### The ids of the open sessions -/

/-- The ids of the open sessions. -/
def State.sessionIds (s : State) : List Nat := s.net.sessions.map fun e => e.id

theorem State.session_eq_none_iff {s : State} {sid : Nat} : s.session sid = none ↔ sid ∉ s.sessionIds := by
  simp [State.session, State.sessionIds]

theorem State.sessionIds_of_net {s t : State} (h : t.net = s.net) : t.sessionIds = s.sessionIds := by rw [sessionIds, h, sessionIds]

theorem sessionIds_setSession (sid : Nat) (f : Session → Session) (hf : ∀ e, (f e).id = e.id) (s : State) :
    (setSession sid f s).sessionIds = s.sessionIds := by
  simp only [State.sessionIds, setSession, updBy, List.map_map]
  exact List.map_congr_left fun e _ => by simp only [Function.comp_apply, apply_ite Session.id, hf, ite_self]

@[simp] theorem sessionIds_sendEntry (sid : Nat) (d : DevEntry) (s : State) : (sendEntry sid d s).sessionIds = s.sessionIds := by
  unfold sendEntry
  split
  · rfl
  · split
    · exact sessionIds_setSession sid _ (by intro; rfl) s
    · exact sessionIds_setSession sid _ (by intro; rfl) s

@[simp] theorem sessionIds_finish (sid tag op st d : Nat) (r : List Byte) (s : State) :
    (finish sid tag op st d r s).sessionIds = s.sessionIds := by
  rw [finish, sessionIds_sendEntry, sessionIds_setSession sid _ (by intro; rfl)]

@[simp] theorem sessionIds_replyOk (h : Hdr) (op : Nat) (r : List Byte) (s : State) : (replyOk h op r s).sessionIds = s.sessionIds := by
  unfold replyOk reply sendReply
  split
  · rfl
  · exact sessionIds_sendEntry _ _ s

@[simp] theorem sessionIds_sendEvent (sid p : Nat) (d : DevEntry) (s : State) : (sendEvent sid p d s).sessionIds = s.sessionIds := by
  unfold sendEvent
  split
  · exact sessionIds_sendEntry _ d s
  · rfl

theorem sessionIds_foldl {α : Type} {g : State → α → State} (h : ∀ s x, (g s x).sessionIds = s.sessionIds) (xs : List α) (s : State) :
    (xs.foldl g s).sessionIds = s.sessionIds := foldl_keeps State.sessionIds g h xs s

theorem sessionIds_endCmd (id status : Nat) (s : State) : (endCmd id status s).sessionIds = s.sessionIds := by
  have finished : ∀ (c : Cmd) (s : State), (finishCmd c status 0 s).sessionIds = s.sessionIds := by
    intro c s
    unfold finishCmd
    split
    · rfl
    · exact sessionIds_finish _ _ _ _ _ _ s
  unfold endCmd
  (repeat' split)
  · rfl
  · exact finished _ _
  · rfl
  · rw [finished, State.sessionIds_of_net (s := s) (by simp)]

theorem sessionIds_endWaits (n status : Nat) (s : State) : (endWaits n status s).sessionIds = s.sessionIds := by
  have moved : ∀ (s : State) (h : Handle), (endMove h status s).sessionIds = s.sessionIds := by
    intro s h
    unfold endMove
    split
    · exact sessionIds_finish _ _ _ _ _ _ s
    · rfl
  unfold endWaits
  dsimp only
  refine (sessionIds_foldl moved _ _).trans ((sessionIds_foldl (fun s x => ?_) _ _).trans
    ((sessionIds_foldl (fun s x => ?_) _ _).trans (sessionIds_foldl (fun s x => ?_) _ _)))
  · exact sessionIds_finish _ _ _ _ _ _ s
  · exact sessionIds_finish _ _ _ _ _ _ s
  · split <;> exact sessionIds_finish _ _ _ _ _ _ s

theorem sessionIds_destroyCtx (n : Nat) (s : State) : (destroyCtx n s).sessionIds = s.sessionIds := by
  unfold destroyCtx
  split
  · rfl
  · refine (State.sessionIds_of_net (s := endWaits n stCancelled (endCmdsOf n stCancelled s)) (by simp)).trans ?_
    rw [sessionIds_endWaits]
    exact sessionIds_foldl (fun s (c : Cmd) => sessionIds_endCmd c.id stCancelled s) _ s

theorem sessionIds_losePrincipal (p : Nat) (s : State) : (losePrincipal p s).sessionIds = s.sessionIds :=
  sessionIds_foldl (fun s (c : Ctx) => sessionIds_destroyCtx c.num s) _ _

/-! ### SESSION_CLOSE and the timeouts -/

@[simp] theorem sendEvent_qps (sid p : Nat) (d : DevEntry) (s : State) : (sendEvent sid p d s).net.qps = s.net.qps := by
  unfold sendEvent
  split <;> simp

@[simp] theorem sendEvent_latches (sid p : Nat) (d : DevEntry) (s : State) : (sendEvent sid p d s).net.latches = s.net.latches := by
  unfold sendEvent
  split <;> simp

/-- What is gone with a session. -/
structure ClosedWhole (sid : Nat) (t : State) : Prop where
  session : t.session sid = none
  qps : ∀ q ∈ t.net.qps, q.session ≠ sid
  latches : ∀ l ∈ t.net.latches, l.requester ≠ sid

theorem closeSession_closes {sid : Nat} {s : State} (opened : sid ∈ s.sessionIds) : ClosedWhole sid (closeSession sid s) := by
  unfold closeSession
  split
  next gone => exact absurd opened (State.session_eq_none_iff.mp gone)
  next e _ =>
    dsimp only
    constructor
    · rw [State.session_eq_none_iff, sessionIds_foldl (by simp)]
      simp [State.sessionIds]
    · rw [foldl_keeps (fun s => s.net.qps) _ (by simp)]
      simp
    · rw [foldl_keeps (fun s => s.net.latches) _ (by simp)]
      simp

theorem State.mem_sessionIds {sid : Nat} {e : Session} {s : State} (he : s.session sid = some e) : sid ∈ s.sessionIds := by
  by_contra absent
  simp [State.session_eq_none_iff.mpr absent] at he

theorem execSessionIdleTimeout_of_idleDue {sid : Nat} {e : Session} {s : State} (he : s.session sid = some e)
    (due : e.idleDue s = true) : execSessionIdleTimeout sid s = .next (closeSession sid s) := by
  rw [execSessionIdleTimeout, if_pos (by rw [he, Option.any_some, due])]

theorem exec_sessionIdleTimeout {sid : Nat} {e : Session} {s : State} (he : s.session sid = some e)
    (due : e.lastFrame + e.idle * 1000000 ≤ s.beat.elapsed) : exec (.sessionIdleTimeout sid) s = .next (closeSession sid s) :=
  execSessionIdleTimeout_of_idleDue he (decide_eq_true due)

theorem Session.ackDue_of_late {e : Session} {s : State} (due : ∃ f ∈ e.unacked, f.sentAt + 2000000 ≤ s.beat.elapsed) :
    e.ackDue s = true := by
  obtain ⟨f, hf, late⟩ := due
  exact List.any_eq_true.mpr ⟨f, hf, decide_eq_true late⟩

theorem execSessionAckTimeout_of_ackDue {sid : Nat} {e : Session} {s : State} (he : s.session sid = some e)
    (due : e.ackDue s = true) : execSessionAckTimeout sid s = .next (closeSession sid s) := by
  rw [execSessionAckTimeout, he]
  exact if_pos due

theorem exec_sessionAckTimeout {sid : Nat} {e : Session} {s : State} (he : s.session sid = some e)
    (due : ∃ f ∈ e.unacked, f.sentAt + 2000000 ≤ s.beat.elapsed) : exec (.sessionAckTimeout sid) s = .next (closeSession sid s) :=
  execSessionAckTimeout_of_ackDue he (Session.ackDue_of_late due)

theorem execSessionKeyExpiry_of_keyUsed {sid : Nat} {e : Session} {s : State} (he : s.session sid = some e)
    (used : e.keyUsed (2 ^ 31) = true) : execSessionKeyExpiry sid s = .next (closeSession sid s) := by
  rw [execSessionKeyExpiry, if_pos (by rw [he, Option.any_some, used])]

theorem exec_sessionKeyExpiry {sid : Nat} {e : Session} {s : State} (he : s.session sid = some e)
    (due : 2 ^ 31 ≤ e.framesIn ∨ 2 ^ 31 ≤ e.framesOut) : exec (.sessionKeyExpiry sid) s = .next (closeSession sid s) :=
  execSessionKeyExpiry_of_keyUsed he (by simpa only [Session.keyUsed, Bool.or_eq_true, decide_eq_true_eq] using due)

/-! ### The keys of the contexts -/

/-- Number, principal and persistence of the contexts that are not FREE. -/
def State.ctxKeys (s : State) : List (Nat × Nat × Bool) := s.jobs.ctxs.map fun c => (c.num, c.principal, c.persist)

theorem ctxKeys_endCmd (id status : Nat) (s : State) : (endCmd id status s).ctxKeys = s.ctxKeys := by
  obtain ⟨_, same⟩ | ⟨c, _, ⟨_, gone⟩ | ⟨_, same⟩ | ⟨_, _, cut⟩⟩ := endCmd_cases id status s
  · rw [same]
  · rw [State.ctxKeys, gone, State.ctxKeys]
  · rw [same]
  · simp only [State.ctxKeys, cut, setCtx_ctxs, setCmd_ctxs, updBy, List.map_map]
    refine List.map_congr_left fun x _ => ?_
    simp only [Function.comp_apply]
    split <;> rfl

theorem ctxKeys_destroyCtx (n : Nat) (s : State) : ∀ k ∈ (destroyCtx n s).ctxKeys, k ∈ s.ctxKeys ∧ k.1 ≠ n := by
  intro k hk
  cases hc : s.ctx n with
  | none =>
    simp only [destroyCtx, hc] at hk
    refine ⟨hk, fun number => State.ctx_eq_none_iff.mp hc ?_⟩
    obtain ⟨c, hc, rfl⟩ := List.mem_map.mp hk
    exact List.mem_map.mpr ⟨c, hc, number⟩
  | some c =>
    have ended : (endCmdsOf n stCancelled s).ctxKeys = s.ctxKeys :=
      foldl_keeps State.ctxKeys _ (fun s (c : Cmd) => ctxKeys_endCmd c.id stCancelled s) _ s
    simp only [State.ctxKeys, destroyCtx, hc, restAcct_ctxs, dropJobBlocks_keeps, freeHandlesOf_keeps, endWaits_jobs] at hk
    obtain ⟨x, hx, rfl⟩ := List.mem_map.mp hk
    obtain ⟨hx, number⟩ := List.mem_filter.mp hx
    exact ⟨ended ▸ List.mem_map.mpr ⟨x, hx, rfl⟩, by simpa using number⟩

theorem ctxKeys_foldl_destroyCtx (cs : List Ctx) (s : State) :
    ∀ k ∈ (cs.foldl (fun s c => destroyCtx c.num s) s).ctxKeys, k ∈ s.ctxKeys ∧ ∀ c ∈ cs, k.1 ≠ c.num := by
  induction cs generalizing s with
  | nil => exact fun k hk => ⟨hk, by simp⟩
  | cons c cs ih =>
    intro k hk
    obtain ⟨left, others⟩ := ih (destroyCtx c.num s) k hk
    obtain ⟨before, this⟩ := ctxKeys_destroyCtx c.num s k left
    exact ⟨before, List.forall_mem_cons.mpr ⟨this, others⟩⟩

/-- Of a principal that is lost only the persistent contexts and context 0 are left. -/
theorem losePrincipal_ctxs {p : Nat} {s : State} {c : Ctx} (hc : c ∈ (losePrincipal p s).jobs.ctxs) (made : c.principal = p) :
    c.persist = true ∨ c.num = 0 := by
  obtain ⟨before, others⟩ := ctxKeys_foldl_destroyCtx _ _ (c.num, c.principal, c.persist) (List.mem_map.mpr ⟨c, hc, rfl⟩)
  obtain ⟨x, hx, key⟩ := List.mem_map.mp before
  simp only [Prod.mk.injEq] at key
  obtain ⟨number, principal, persist⟩ := key
  by_contra kept
  rw [not_or] at kept
  exact others x (List.mem_filter.mpr ⟨hx, by simp_all⟩) number.symm

theorem exec_principalLoss {p : Nat} {s : State} (noSession : ∀ e ∈ s.net.sessions, e.principal ≠ p)
    (due : ∃ g ∈ s.net.gone, g.principal = p ∧ g.since + 60000000 ≤ s.beat.elapsed) :
    exec (.principalLoss p) s = .next { losePrincipal p s with
      net := { (losePrincipal p s).net with gone := (losePrincipal p s).net.gone.filter fun g => g.principal ≠ p } } := by
  have isDue : (s.net.gone.any fun g => g.principal = p && decide (g.since + 60000000 ≤ s.beat.elapsed)) = true := by simpa using due
  have isGone : (s.net.sessions.any fun e => e.principal = p) = false := by simpa using noSession
  simp [exec, execPrincipalLoss, isDue, isGone]

theorem losePrincipal_actions (p : Nat) (s : State) : (losePrincipal p s).serve.actions =
    s.serve.actions ++ ((s.serve.reqs.filter fun r => r.principal = p && !finalState r.state).map fun r => r.id).map
      fun r => Instr.reqCancel noHost r := by
  rw [losePrincipal, foldl_keeps (fun s => s.serve) _ (by simp)]

end Sys2Proof.Machine
end

section
open Sys2Proof Sys2Proof.Machine Sys2Proof.Claims

/-- Settles O5: a session that closes while it is open is gone whole (`closeSession_closes`), and the loss of a principal takes its
requests and contexts. -/
theorem sessionsCloseWhole : Obligations.SessionsCloseWhole := by
  have closes : ∀ (sid : Nat) (s : State), sid ∈ s.sessionIds → (closeSession sid s).session sid = none ∧
      (closeSession sid s).mem.cells = s.mem.cells ∧ (∀ q ∈ (closeSession sid s).net.qps, q.session ≠ sid) ∧
      ∀ l ∈ (closeSession sid s).net.latches, l.requester ≠ sid := fun sid s opened =>
    ⟨(closeSession_closes opened).session, by simp, (closeSession_closes opened).qps, (closeSession_closes opened).latches⟩
  refine ⟨?_, ?_, ?_, ?_, ?_, ?_, ?_⟩
  · intro h e s served
    obtain ⟨-, -, he, -⟩ := id served
    have lost : ∀ b : Bool, (if b then losePrincipal e.principal s else s).sessionIds = s.sessionIds := fun b => by
      cases b <;> simp [sessionIds_losePrincipal]
    obtain ⟨session, cells, left⟩ := closes h.session (replyOk h 0x0003 [] (if tbit h.cflags 0 then losePrincipal e.principal s else s))
      (by rw [sessionIds_replyOk, lost]; exact State.mem_sessionIds he)
    rw [exec, execSessionClose, hosted_of_served served rfl]
    exact ⟨_, rfl, session, cells.trans (by simp), left⟩
  · intro h e s served even
    rw [exec, execSessionClose, hosted_of_served served rfl]
    simp [tbit, even]
  · intro h e s served odd
    rw [exec, execSessionClose, hosted_of_served served rfl]
    simp [tbit, odd]
  · intro sid e s he due
    exact ⟨_, exec_sessionIdleTimeout he due, closes sid s (State.mem_sessionIds he)⟩
  · intro sid e s he due
    exact ⟨_, exec_sessionAckTimeout he due, closes sid s (State.mem_sessionIds he)⟩
  · intro sid e s he due
    exact ⟨_, exec_sessionKeyExpiry he due, closes sid s (State.mem_sessionIds he)⟩
  · intro p s noSession due
    refine ⟨_, exec_principalLoss noSession due, by simp, fun r hr made active => ?_, fun c hc made => losePrincipal_ctxs hc made⟩
    rw [losePrincipal_actions]
    simp only [List.mem_append, List.mem_map, List.mem_filter]
    exact .inr ⟨r.id, ⟨r, ⟨hr, by simp [made, active]⟩, rfl⟩, rfl⟩

end

section
/-! The transport's timers (R350, R357, R516), the Ethernet ports (R339, R340) and RDMA into a window (R344). -/
namespace Sys2Proof.Machine
open Sys2Proof.Claims

theorem exec_retransmit {sid seq : Nat} {e : Session} {f : DevFrame} {s : State} (he : s.session sid = some e)
    (hf : e.unacked.find? (fun x => x.seq = seq) = some f) (due : f.lastAt + f.rto ≤ s.beat.elapsed) :
    exec (.retransmit sid seq) s = .next (emit (.retransmit sid (sendPort s e) seq f.entry)
      (setSession sid (fun e => { e with
        unacked := updBy (fun x => x.seq = seq) (fun x => x.again s.beat.elapsed) e.unacked }) s)) := by
  rw [exec, execRetransmit, he]
  simp only [hf, if_neg (Nat.not_lt.mpr due)]

theorem Session.keyUsed_iff {e : Session} {n : Nat} : e.keyUsed n = true ↔ n ≤ e.framesIn ∨ n ≤ e.framesOut := by
  simp only [keyUsed, Bool.or_eq_true, decide_eq_true_eq]

theorem exec_keyUpdate {sid : Nat} {e : Session} {s : State} (he : s.session sid = some e) (used : e.keyUsed (2 ^ 30) = true)
    (idle : e.updating = false) :
    exec (.keyUpdate sid) s = .next (emit (.keyUpdate sid) (setSession sid (fun e => { e with updating := true }) s)) := by
  rw [exec, execKeyUpdate, if_pos (by rw [he, Option.any_some, used, idle]; rfl)]

theorem execRdmaWrite_of_granted {p : RdmaP} {q : QueuePair} {b : Handle} {s : State}
    (hq : s.net.qps.find? (fun q => q.qpn = p.qpn) = some q) (good : q.error = false) (write : p.isWrite = true)
    (hb : s.mem.handles.find? (fun x => x.window = some p.window) = some b) (key : b.rKey = p.rKey)
    (fits : p.offset + p.data.length ≤ b.span) :
    execRdmaWrite p s = .next (emit (.roceAck p.qpn)
      (applyWrite (b.base + p.offset) p.data (if p.ecnMarked then emit (.congestion p.qpn) s else s))) := by
  cases hm : p.ecnMarked <;> simp [execRdmaWrite, hq, good, write, hb, key, fits, hm, emit]

theorem execRdmaWrite_of_barred {p : RdmaP} {q : QueuePair} {b : Handle} {s : State}
    (hq : s.net.qps.find? (fun q => q.qpn = p.qpn) = some q) (good : q.error = false) (write : p.isWrite = true)
    (hb : s.mem.handles.find? (fun x => x.window = some p.window) = some b)
    (barred : b.rKey ≠ p.rKey ∨ b.span < p.offset + p.data.length) :
    execRdmaWrite p s = .next (emit (.roceNakAccess p.qpn) (if p.ecnMarked then emit (.congestion p.qpn) s else s)) := by
  have refused := barred.neg_resolve_left
  cases hm : p.ecnMarked <;> simpa [execRdmaWrite, hq, good, write, hb, hm, emit] using refused

theorem mem_congestion (c : Bool) (q : Nat) (s : State) : (if c then emit (.congestion q) s else s).mem = s.mem := by
  cases c <;> rfl

theorem fab_congestion (c : Bool) (q : Nat) (s : State) : (if c then emit (.congestion q) s else s).fab = s.fab := by
  cases c <;> rfl

theorem updAt_of_getElem? {α : Type} {k : Nat} {f : α → α} {xs : List α} {x : α} (h : xs[k]? = some x) : updAt k f xs = xs.set k (f x) := by
  rw [updAt, List.modify_eq_set_getElem?, h]
  rfl

theorem exec_acctSlotRelease {slot : Nat} {a : Acct} {s : State} (ha : s.jobs.acct[slot]? = some a)
    (due : (a.idleSince.any fun b => decide (b + 60000000 ≤ s.beat.elapsed)) = true) :
    exec (.acctSlotRelease slot) s = .next { s with jobs := { s.jobs with
      acct := s.jobs.acct.set slot { a with used := false, idleSince := none } } } := by
  simp only [exec, execAcctSlotRelease, updAt_of_getElem? ha, due, if_true]

end Sys2Proof.Machine
end

section
open Sys2Proof Sys2Proof.Machine Sys2Proof.Claims

/-- Settles O6. -/
theorem ethernetAndTransport : Obligations.EthernetAndTransport := by
  refine ⟨?_, ?_, ?_, ?_, ?_, ?_, ?_, ?_⟩
  · intro sid seq e f s he hf due _
    rw [exec_retransmit he hf due]
    simp only [DevFrame.again]
  · intro sid e s he due idle
    exact exec_keyUpdate he (Session.keyUsed_iff.mpr due) idle
  · intro slot a s ha ⟨b, hb, due⟩
    exact exec_acctSlotRelease ha (by rw [hb, Option.any_some, decide_eq_true due])
  · intro port s up
    rw [exec, execEthLinkLoss, if_pos up]
  · intro port s stage noKey serves
    have inService : (s.hlth.units.any fun e => e.unit = .eth port && decide (2 ≤ e.status)) = false := by simpa using serves
    have lit : (!(s.hlth.units.any fun e => e.unit = .eth port && decide (2 ≤ e.status)) &&
        (decide (s.boot.stage = 5) || decide (s.boot.stage = 6)) && !s.boot.macsecWait.getD port false) = true := by
      rw [inService, noKey]
      simpa using stage
    rw [exec, execEthLinkUp, if_pos lit]
  · intro q r s hr up mine target
    simp only [exec, execNeighborDiscoveryArp, hr, up, mine]
    simp [target, emit]
  · intro p q b s hq good write hb key fits formed
    refine ⟨_, execRdmaWrite_of_granted hq good write hb key fits, applyWrite_wf _ _ _ (by rwa [mem_congestion]), by simp [emit], ?_, ?_⟩
    · intro k hk
      exact readByte_applyWrite _ k _ _ _ (List.getElem?_eq_getElem hk)
    · intro free a outside
      exact (readByte_applyWrite_outside _ a _ _ (by rwa [mem_congestion]) (by rwa [blockedUnits, fab_congestion]) outside).trans
        (by rw [mem_congestion])
  · intro p q b s hq good write hb barred
    exact ⟨_, execRdmaWrite_of_barred hq good write hb barred, mem_congestion _ _ s, by simp [emit]⟩

end

section
/-! A sorus is opened, filled and closed by its host (R374 to R377). -/
namespace Sys2Proof.Machine
open Sys2Proof.Claims

/-- A sorus with one more command staged. -/
def Sorus.with (x : Sorus) (i : Instr) : Sorus := { x with staged := x.staged ++ [i], bytes := x.bytes + entryBytes i }

theorem stage_of_room {i : Instr} {h : Hdr} {g : Gate} {x : Sorus} {s : State} (hx : s.sorus h.sorus = some x)
    (ofSession : x.session = h.session) (opened : x.state = 0) (hop : stageable g.opcode = true) (room : x.staged.length < 256)
    (bytes : x.bytes + entryBytes i ≤ 65536) :
    stage i h g none s = accept h g.opcode [] (setSorus x.id (fun x => x.with i) s) := by
  simp [stage, hx, ofSession, opened, hop, Nat.not_le.mpr room, Nat.not_lt.mpr bytes, Sorus.with]

theorem sorusRefusal_eq_none_iff {s : State} {e : Session} {id : Nat} :
    sorusRefusal s e id = none ↔ ∃ x, s.sorus id = some x ∧ x.principal = e.principal ∧ x.session = e.id ∧ x.state = 0 := by
  unfold sorusRefusal
  cases s.sorus id with
  | none => simp
  | some x => by_cases hp : x.principal = e.principal <;> simp [hp]

@[simp] theorem sorus_replyOk (h : Hdr) (op : Nat) (r : List Byte) (s : State) (id : Nat) : (replyOk h op r s).sorus id = s.sorus id :=
  sorus_reply h op stOk 0 r s id

@[simp] theorem sorus_accept (h : Hdr) (op : Nat) (r : List Byte) (s : State) (id : Nat) : (accept h op r s).sorus id = s.sorus id := by
  simp [State.sorus]

theorem State.sorus_append (s : State) {id : Nat} (x : Sorus) (hid : x.id = id) :
    { s with sori := { s.sori with sori := (s.sori.sori.filter fun y : Sorus => y.id ≠ id) ++ [x] } }.sorus id = some x := by
  have here : (s.sori.sori.filter fun y : Sorus => y.id ≠ id).find? (fun y => y.id = id) = none := by simp
  rw [State.sorus, List.find?_append, here, Option.none_or, List.find?_singleton, hid, decide_eq_true rfl, if_pos rfl]

end Sys2Proof.Machine
end

section
open Sys2Proof Sys2Proof.Machine Sys2Proof.Claims

/-- Settles O9. -/
theorem soriStageAndClose : Obligations.SoriStageAndClose := by
  refine ⟨?_, ?_, ?_, ?_, ?_⟩
  · intro i h g ranges run e x s ready running he flags gate inRange hs hx ofSession opened hop room bytes
    rw [hosted_of_sorus_ne_zero ready running he hs, stagingFault_of_gate flags gate, inRange,
      stage_of_room hx ofSession opened hop room bytes]
    refine ⟨_, x.with i, rfl, ?_, rfl, opened, ?_⟩
    · rw [sorus_accept, State.sorus_id hx, sorus_setSorus h.sorus (·.with i) (fun _ => rfl), hx, Option.map_some]
    · simp
  · intro h id members e s served given mine absent room
    have inRange : badIf (decide (id = 0) || !(sorusMap s members).contains s.boot.pkg) = none := by simp [badIf, given, mine]
    rw [exec, execSorusOpen, hosted_of_served served inRange]
    simp only [absent, Option.filter_none, if_neg (Nat.not_le.mpr room)]
    refine ⟨_, _, rfl, (sorus_replyOk ..).trans (State.sorus_append s _ rfl), rfl, rfl, rfl, rfl, rfl, rfl, ?_⟩
    simp
  · intro h id e s served open_
    obtain ⟨x, hx, -, -, opened⟩ := sorusRefusal_eq_none_iff.mp open_
    rw [exec, execSorusAbort, hosted_of_served served rfl]
    simp only [open_]
    refine ⟨_, _, rfl, (sorus_replyOk ..).trans (sorus_abortSorus hx (by omega) (by omega) _ _ _), rfl, rfl, rfl, ?_⟩
    simp
  · intro h id mode beat b x e s served modes open_ hx coord beats
    have inRange : badIf (decide (1 < mode)) = none := by simp [badIf, modes]
    rw [exec, execSorusCommit, hosted_of_served served inRange]
    simp only [open_, hx, coord, beats, ne_eq, not_true, if_false]
    simp
  · intro h id mode beat x e s served modes open_ hx coord beats
    have inRange : badIf (decide (1 < mode)) = none := by simp [badIf, modes]
    rw [exec, execSorusCommit, hosted_of_served served inRange]
    simp only [open_, hx, coord, beats, ne_eq, not_true, if_false]

end

section
/-! What register reads return (R438, R477, R481, R482) and what register writes change (R16 to R19, R483). -/
namespace Sys2Proof.Machine
open Sys2Proof.Claims

/-! ### Reads -/

theorem latchRead_of_isLo {requester o v : Nat} {s : State} (lo : isLo o = true) (hv : regLive s (o + 4) = some v) :
    latchRead requester o s = { s with net := { s.net with
      latches := ⟨requester, o + 4, v⟩ :: s.net.latches.filter fun l => !(l.requester = requester && l.offset = o + 4) } } := by
  simp only [latchRead, lo, if_true, hv]

theorem latchRead_of_not_isLo {requester o : Nat} {s : State} (lo : isLo o = false) : latchRead requester o s = s := by
  simp [latchRead, lo]

theorem readWords_length (requester o count : Nat) (s : State) : (readWords requester o count s).1.length = count := by
  simp [readWords]

theorem readWords_one (requester o : Nat) (s : State) : (readWords requester o 1 s).1 = [regSeen s requester o] := by
  simp only [readWords, List.range_one, List.map_cons, List.map_nil, Nat.mul_zero, Nat.add_zero, Bool.and_eq_true, decide_eq_true_eq]
  rw [if_neg (by omega)]

/-- The words that the I3C port returns for the words read. -/
def i3cWords (o count : Nat) (ws : List (Option Nat)) : List Word :=
  (List.range count).zip ws |>.map fun x => if i3cSees (o + 4 * x.1) then BitVec.ofNat 32 (x.2.getD 0) else 0#32

theorem exec_i3cOffsetWrite (o count : Nat) (s : State) : exec (.i3cOffsetWrite o count) s =
    .next (emit (.i3c (i3cWords o count (readWords 0 o count s).1)) (readWords 0 o count s).2) := rfl

theorem i3cWords_of_blind {o count : Nat} {ws : List (Option Nat)} (blind : ∀ k, k < count → i3cSees (o + 4 * k) = false)
    (length : ws.length = count) : i3cWords o count ws = List.replicate count 0#32 := by
  refine List.eq_replicate_iff.mpr ⟨by simp [i3cWords, length], fun w hw => ?_⟩
  obtain ⟨x, hx, rfl⟩ := List.mem_map.mp hw
  rw [blind x.1 (List.mem_range.mp (List.of_mem_zip hx).1), if_neg Bool.false_ne_true]

/-! ### Writes -/

theorem merged_all (old : Nat) (value : Word) : merged old value 0xFFFFFFFF#32 = value.toNat := by
  have ones : (0xFFFFFFFF#32 : Word) = BitVec.allOnes 32 := rfl
  rw [merged, ones, BitVec.not_allOnes, BitVec.and_zero, BitVec.zero_or, BitVec.and_allOnes]

theorem ranged_of_mem {n lo hi : Nat} {s : State} (least : lo ≤ n) (most : n ≤ hi) : ranged n lo hi s = some s := by
  simp [ranged, least, most]

theorem ranged_of_not_mem {n lo hi : Nat} {s : State} (out : n < lo ∨ hi < n) : ranged n lo hi s = none := by
  simp only [ranged, Bool.and_eq_true, decide_eq_true_eq]
  exact if_neg (by omega)

theorem writeReg_cap (limcel : Bool) (value mask : Word) (s : State) :
    writeReg limcel 0x10000 value mask s = ranged (merged s.pwr.cap value mask % 2 ^ 12) 300 2000
      { s with pwr := { s.pwr with cap := merged s.pwr.cap value mask % 2 ^ 12 } } := if_pos rfl

theorem writeReg_limit (limcel : Bool) (value mask : Word) (s : State) :
    writeReg limcel 0x11000 value mask s = ranged (merged s.thm.limit value mask % 2 ^ 8) 85 105
      { s with thm := { s.thm with limit := merged s.thm.limit value mask % 2 ^ 8 } } := by
  simp only [writeReg, Nat.reduceEqDiff, if_false, if_true]

theorem writeReg_thmFlags (limcel : Bool) (value mask : Word) (s : State) : writeReg limcel 0x11004 value mask s =
    some { s with thm := { s.thm with hit := s.thm.hit.w1c (tbit (value &&& mask).toNat 31) } } := by
  simp [writeReg, clearFlags, clearHubFlags]

theorem regLive_cap (s : State) : regLive s 0x10000 = some s.pwr.cap := by simp [regLive, pwrWord]

theorem regLive_limit (s : State) : regLive s 0x11000 = some s.thm.limit := by simp [regLive, thmWord]

theorem regLive_thmFlags (s : State) : regLive s 0x11004 = some (s.thm.hit.bit * 2 ^ 31 + s.thm.hit.count) := by simp [regLive, thmWord]

/-- Beside the parts of `clearFlags_keeps`, clearing flags leaves these. -/
theorem clearFlags_leaves (o b : Nat) (s : State) :
    (clearFlags o b s).mem.handles = s.mem.handles ∧ (clearFlags o b s).mem.regions = s.mem.regions ∧
    (clearFlags o b s).jobs.cmds = s.jobs.cmds ∧ (clearFlags o b s).net.sessions = s.net.sessions ∧
    (clearFlags o b s).beat.count = s.beat.count ∧ (clearFlags o b s).pwr.levelC = s.pwr.levelC ∧
    (clearFlags o b s).pwr.levelD = s.pwr.levelD := by
  have hub : (clearHubFlags o b s).net.sessions = s.net.sessions ∧ (clearHubFlags o b s).beat.count = s.beat.count ∧
      (clearHubFlags o b s).pwr.levelC = s.pwr.levelC ∧ (clearHubFlags o b s).pwr.levelD = s.pwr.levelD := by
    unfold clearHubFlags
    dsimp only
    (repeat' split) <;> simp
  unfold clearFlags
  dsimp only
  (repeat' split) <;> simp [hub]

theorem levels_of_guarded_req {p : Prop} [Decidable p] {c d : Nat} {s t : State}
    (h : (if p then some { s with pwr := { s.pwr with reqC := c, reqD := d } } else none) = some t) :
    t.pwr.levelC = s.pwr.levelC ∧ t.pwr.levelD = s.pwr.levelD := by
  split at h
  · rw [← Option.some.inj h]; exact ⟨rfl, rfl⟩
  · cases h

theorem writeReg_levels {limcel : Bool} {o : Nat} {value mask : Word} {s t : State} (h : writeReg limcel o value mask s = some t) :
    t.pwr.levelC = s.pwr.levelC ∧ t.pwr.levelD = s.pwr.levelD := by
  unfold writeReg at h
  by_cases cap : o = 0x10000
  · rw [if_pos cap] at h; rw [ranged_eq h]; exact ⟨rfl, rfl⟩
  rw [if_neg cap] at h
  by_cases req : o = 0x1000C
  · rw [if_pos req] at h
    by_cases ofLimcel : limcel = true
    · rw [if_pos ofLimcel] at h
      exact levels_of_guarded_req h
    · rw [if_neg ofLimcel] at h
      rw [← Option.some.inj h]; exact ⟨rfl, rfl⟩
  rw [if_neg req] at h
  by_cases limit : o = 0x11000
  · rw [if_pos limit] at h; rw [ranged_eq h]; exact ⟨rfl, rfl⟩
  rw [if_neg limit] at h
  by_cases cls : (decide (0x20100 ≤ o) && decide (o < 0x20180)) = true
  · rw [if_pos cls] at h
    rw [(writeClass_keeps o value mask s t h).2.1]; exact ⟨rfl, rfl⟩
  rw [if_neg cls] at h
  by_cases pct : o = 0x30010
  · rw [if_pos pct] at h; rw [ranged_eq h]; exact ⟨rfl, rfl⟩
  rw [if_neg pct] at h
  by_cases time : o = 0x30020
  · rw [if_pos time] at h; rw [ranged_eq h]; exact ⟨rfl, rfl⟩
  rw [if_neg time] at h
  by_cases scrub : o = 0x40000
  · rw [if_pos scrub] at h; rw [ranged_eq h]; exact ⟨rfl, rfl⟩
  rw [if_neg scrub] at h
  by_cases age : o = 0x5FF00
  · rw [if_pos age] at h; rw [ranged_eq h]; exact ⟨rfl, rfl⟩
  rw [if_neg age] at h
  by_cases mode : (decide (0x70000 ≤ o) && decide (o < 0x80000)) = true
  · rw [if_pos mode] at h
    dsimp only at h
    split at h
    · split at h <;> cases h <;> exact ⟨rfl, rfl⟩
    · cases h; exact ⟨rfl, rfl⟩
  rw [if_neg mode] at h
  cases h
  exact (clearFlags_leaves o _ s).2.2.2.2.2

theorem regWriteRefusal_cap_of_mem {value mask : Word} {s : State} (least : 300 ≤ merged s.pwr.cap value mask % 2 ^ 12)
    (most : merged s.pwr.cap value mask % 2 ^ 12 ≤ 2000) : regWriteRefusal 0x10000 value mask s = none := by
  have noBox : mailboxWord 0x10000 = false := by decide
  simp only [regWriteRefusal, regLive_cap, noBox, writeReg_cap, ranged_of_mem least most, Option.isNone_some, Bool.false_eq_true, if_false]

theorem regWriteRefusal_cap_of_not_mem {value mask : Word} {s : State}
    (out : merged s.pwr.cap value mask % 2 ^ 12 < 300 ∨ 2000 < merged s.pwr.cap value mask % 2 ^ 12) :
    regWriteRefusal 0x10000 value mask s = some (stBadParam, 0) := by
  have noBox : mailboxWord 0x10000 = false := by decide
  simp only [regWriteRefusal, regLive_cap, noBox, writeReg_cap, ranged_of_not_mem out, Option.isNone_some, Option.isNone_none,
    Bool.false_eq_true, if_false, if_true]

theorem regWriteAt_cap {ans : Answer} {value mask : Word} {s : State} (least : 300 ≤ merged s.pwr.cap value mask % 2 ^ 12)
    (most : merged s.pwr.cap value mask % 2 ^ 12 ≤ 2000) : regWriteAt ans 0x10000 value mask s =
      ans stOk 0 (leBytes 4 (merged s.pwr.cap value mask % 2 ^ 12))
        { s with pwr := { s.pwr with cap := merged s.pwr.cap value mask % 2 ^ 12 } } := by
  simp only [regWriteAt, writeReg_cap, ranged_of_mem least most, regLive_cap, Option.getD_some]

theorem exec_registerWrite_limit (value : Word) (s : State) : exec (.registerWrite 0x11000 value) s =
    .next ((ranged (value.toNat % 2 ^ 8) 85 105 { s with thm := { s.thm with limit := value.toNat % 2 ^ 8 } }).getD s) := by
  rw [exec, execRegisterWrite, regLive_limit, writeReg_limit, merged_all]
  rfl

theorem exec_registerWrite_thmFlags (value : Word) (s : State) : exec (.registerWrite 0x11004 value) s =
    .next { s with thm := { s.thm with hit := s.thm.hit.w1c (tbit value.toNat 31) } } := by
  have ones : value &&& 0xFFFFFFFF#32 = value := BitVec.and_allOnes
  rw [exec, execRegisterWrite, regLive_thmFlags, writeReg_thmFlags, ones]
  rfl

theorem writeReg_leaves {limcel : Bool} {o : Nat} {value mask : Word} {s t : State} (h : writeReg limcel o value mask s = some t) :
    t.mem.handles = s.mem.handles ∧ t.mem.regions = s.mem.regions ∧ t.jobs.cmds = s.jobs.cmds ∧ t.net.sessions = s.net.sessions ∧
    t.beat.count = s.beat.count := by
  rcases writeReg_form h with ⟨_, rfl⟩ | ⟨_, rfl⟩ | rfl | ⟨_, _, rfl⟩ | ⟨_, rfl⟩ | ⟨_, rfl⟩ | ⟨_, rfl⟩ | ⟨_, rfl⟩ | ⟨_, _, _, rfl⟩ | ⟨_, rfl⟩ <;>
    simp [clearFlags_leaves]

end Sys2Proof.Machine
end

section
open Sys2Proof Sys2Proof.Machine Sys2Proof.Claims

/-- Settles O10. -/
theorem registerAccesses : Obligations.RegisterAccesses := by
  refine ⟨?_, ?_, ?_, ?_, ?_, ?_, ?_, ?_, ?_, ?_, ?_, ?_, ?_, ?_, ?_⟩
  · intro h o count e s served least most exist
    have inRange : badIf (decide (count = 0) || decide (256 < count) ||
        (List.range count).any fun k => (regLive s (o + 4 * k)).isNone) = none := by
      have all : ∀ k < count, (regLive s (o + 4 * k)).isNone = false := fun k hk => by
        simpa using exist k hk
      have none_ : ((List.range count).any fun k => (regLive s (o + 4 * k)).isNone) = false := by
        simp only [List.any_eq_false, List.mem_range]
        exact fun k hk => by rw [all k hk]; exact Bool.false_ne_true
      rw [none_, decide_eq_false (by omega), decide_eq_false (by omega)]
      rfl
    rw [exec, execRegRead, hosted_of_served served inRange]
  · intro h o count e s served out
    have refused : badIf (decide (count = 0) || decide (256 < count) ||
        (List.range count).any fun k => (regLive s (o + 4 * k)).isNone) = some (0x0013, 0) := by
      refine if_pos ?_
      simp only [Bool.or_eq_true, decide_eq_true_eq, List.any_eq_true, List.mem_range, Option.isNone_iff_eq_none, or_assoc]
      exact out
    rw [exec, execRegRead, hosted_of_refused served refused]
  · intro requester o v s lo hv
    refine ⟨_, rfl, ?_, ?_⟩
    · rw [latchRead_of_isLo lo hv]; simp [regSeen]
    · rw [latchRead_of_isLo lo hv]
  · intro requester s
    rw [exec, execHlthStateRead, readEffect, latchRead_of_not_isLo (by decide), if_pos rfl]
  · intro o count s blind
    exact ⟨_, exec_i3cOffsetWrite o count s, by simp [emit, i3cWords_of_blind blind (readWords_length ..)], by simp [emit]⟩
  · intro o s sees
    exact ⟨_, exec_i3cOffsetWrite o 1 s, by simp [emit, i3cWords, readWords_one, sees]⟩
  · intro h value mask e s served least most
    rw [exec, execRegWrite, hosted_of_served served (regWriteRefusal_cap_of_mem least most), regWriteAt_cap least most]
    rfl
  · intro h value mask e s served out
    exact hosted_of_refused served (regWriteRefusal_cap_of_not_mem out) _
  · intro value s out
    rw [exec_registerWrite_limit, ranged_of_not_mem out, Option.getD_none]
  · intro value s least most
    rw [exec_registerWrite_limit, ranged_of_mem least most, Option.getD_some]
  · exact exec_registerWrite_thmFlags
  · intro die num mode s mode2
    exact if_pos mode2
  · intro watts s least most
    simp [exec, execCapRegisterWrite, Nat.not_lt.mpr least, Nat.not_lt.mpr most]
  · intro watts s out
    exact if_pos (by simpa using out)
  · intro limcel o value mask s t ht
    obtain ⟨sori, models, serve, out, -, pins, pending, boot, flash, cells, undef⟩ := writeReg_keeps limcel o value mask s t ht
    obtain ⟨handles, regions, cmds, sessions, count⟩ := writeReg_leaves ht
    obtain ⟨levelC, levelD⟩ := writeReg_levels ht
    exact ⟨cells, undef, handles, regions, flash, boot, models, serve, sori, out, pins, pending, cmds, sessions, count, levelC, levelD⟩

end

section
/-! Time (R342, R469 to R472): what a Sync does to the lock, BEAT_SET and its edge, and the holdovers. -/
namespace Sys2Proof.Machine
open Sys2Proof.Claims

theorem satOffset_of_near {n : Int} (h : n.natAbs ≤ 200) : satOffset n = n := by
  unfold satOffset
  omega

/-- The state after a Sync is measured, before lock and unlock are looked at. -/
def State.synced (s : State) (timeUs : Nat) (off : Int) (good bad : Nat) : State :=
  { s with beat := { s.beat with ptpTime := timeUs, syncAt := s.beat.elapsed, ptpOffset := satOffset off, goodRun := good, badRun := bad } }

theorem execPtpSync_of_near {timeUs : Nat} {off : Int} {s : State} (near : off.natAbs ≤ 200) :
    execPtpSync timeUs off s =
      if 16 ≤ s.beat.goodRun + 1 then
        .next (takePtp { s.synced timeUs off (s.beat.goodRun + 1) 0 with
          beat := { (s.synced timeUs off (s.beat.goodRun + 1) 0).beat with ptpLock := true } })
      else .next (s.synced timeUs off (s.beat.goodRun + 1) 0) := by
  have notFar : ¬ 1000 < off.natAbs := by omega
  simp only [execPtpSync, State.synced, if_pos near, if_neg notFar]
  rfl

theorem execPtpSync_of_far {timeUs : Nat} {off : Int} {s : State} (far : 1000 < off.natAbs) (run : 3 ≤ s.beat.badRun) :
    execPtpSync timeUs off s = .next (losePtp (s.synced timeUs off 0 (s.beat.badRun + 1))) := by
  have notNear : ¬ off.natAbs ≤ 200 := by omega
  simp only [execPtpSync, State.synced, if_neg notNear, if_pos far, if_pos (Nat.add_le_add_right run 1)]

theorem takePtp_beat (s : State) : ∃ on base, (takePtp s).beat = { s.beat with onPtp := on, ptpBase := base } := by
  unfold takePtp
  split
  · exact ⟨_, _, rfl⟩
  · exact ⟨_, _, rfl⟩

theorem losePtp_of_locked {s : State} (locked : s.beat.ptpLock = true) : losePtp s = { s with beat := { s.beat with
    ptpLock := false, ptpUnlock := s.beat.ptpUnlock.hit, goodRun := 0, badRun := 0 } } := if_pos locked

theorem exec_ptpTimeout {s : State} (locked : s.beat.ptpLock = true) (due : s.beat.syncAt + 3000000 ≤ s.beat.elapsed) :
    exec .ptpTimeout s = .next { s with beat := { s.beat with
      ptpLock := false, ptpUnlock := s.beat.ptpUnlock.hit, goodRun := 0, badRun := 0 } } := by
  rw [exec, execPtpTimeout, if_neg (Nat.not_lt.mpr due), losePtp_of_locked locked]

theorem beatSetRefusal_of_good {s : State} {second : Nat} (locked : s.beat.ptpLock = true) (clock : s.beat.clkHold = false)
    (near : s.beat.ptpOffset.natAbs ≤ 250) (least : s.beat.ptpTime + 2000000 ≤ second * 1000000)
    (most : second * 1000000 ≤ s.beat.ptpTime + 60000000) (fresh : s.beat.aligned = false) (idle : s.beat.setPending = none) :
    beatSetRefusal s second none = none := by
  simp only [beatSetRefusal, locked, clock, fresh, idle, decide_eq_false (Nat.not_lt.mpr near), decide_eq_false (Nat.not_lt.mpr least),
    decide_eq_false (Nat.not_lt.mpr most)]
  rfl

theorem beatSetRefusal_of_unlocked {s : State} {second : Nat} (out : s.beat.ptpLock = false ∨ s.beat.clkHold = true) :
    beatSetRefusal s second none = some (stConflict, 0x53) := by
  refine if_pos ?_
  rcases out with unlocked | noClock
  · rw [unlocked]; rfl
  · rw [noClock, Bool.or_true, Bool.true_or]

theorem alignNow_of_due {p : BeatSetSt} {s : State} (waits : s.beat.setPending = some p) (due : p.second * 1000000 ≤ s.beat.ptpTime) :
    alignNow s = finish p.session p.tag 0x0506 stOk 0 (leBytes 8 (p.second * 1000000 % 2 ^ 48))
      (takePtp { s with beat := { s.beat with count := p.second * 1000000 % 2 ^ 48, aligned := true, setPending := none } }) := by
  simp only [alignNow, waits, if_neg (Nat.not_lt.mpr due)]

theorem takePtp_aligned_beat (v : Nat) (s : State) :
    ∃ on base, (takePtp { s with beat := { s.beat with count := v, aligned := true, setPending := none } }).beat =
      { s.beat with count := v, aligned := true, setPending := none, onPtp := on, ptpBase := base } := takePtp_beat _

theorem alignNow_beat {p : BeatSetSt} {s : State} (waits : s.beat.setPending = some p) (due : p.second * 1000000 ≤ s.beat.ptpTime) :
    ∃ on base, (alignNow s).beat = { s.beat with
      count := p.second * 1000000 % 2 ^ 48, aligned := true, setPending := none, onPtp := on, ptpBase := base } := by
  rw [alignNow_of_due waits due, (finish_keeps ..).1]
  exact takePtp_aligned_beat _ s

theorem leaveOps_of_none {s : State} (h : s.fab.ops = []) : leaveOps s = s := by
  rw [leaveOps, h, List.foldl_nil]

theorem exec_beatClkLoss {s : State} (clock : s.beat.clkHold = false) (noOps : s.fab.ops = []) : exec .beatClkLoss s =
    .next (recordHoldover 1 { s with beat := { s.beat with clkHold := true, clkLost := s.beat.clkLost.hit } }) := by
  rw [exec, execBeatClkLoss, if_neg (by rw [clock]; exact Bool.false_ne_true), leaveOps_of_none (by simpa using noOps)]

end Sys2Proof.Machine
end

section
open Sys2Proof Sys2Proof.Machine Sys2Proof.Claims

/-- Settles O12. -/
theorem timeIsKept : Obligations.TimeIsKept := by
  refine ⟨?_, ?_, ?_, ?_, ?_, ?_, ?_, ?_, ?_, ?_, ?_, ?_, ?_⟩
  · intro timeUs off s near run
    refine ⟨_, (execPtpSync_of_near near).trans (if_pos (Nat.add_le_add_right run 1)), ?_⟩
    obtain ⟨on, base, beat⟩ := takePtp_beat { s.synced timeUs off (s.beat.goodRun + 1) 0 with
      beat := { (s.synced timeUs off (s.beat.goodRun + 1) 0).beat with ptpLock := true } }
    rw [beat]
    exact ⟨rfl, rfl, satOffset_of_near near, rfl⟩
  · intro timeUs off s near run
    rw [exec, execPtpSync_of_near near, if_neg (by omega), State.synced, satOffset_of_near near]
  · intro timeUs off s far run locked
    refine ⟨_, execPtpSync_of_far far run, ?_⟩
    rw [losePtp_of_locked (s := s.synced timeUs off 0 _) locked]
    exact ⟨rfl, rfl⟩
  · exact fun s => exec_ptpTimeout
  · intro h second e s served locked clock near least most fresh idle
    have passes := beatSetRefusal_of_good locked clock near least most fresh idle
    rw [exec, execBeatSet, hosted_of_served served rfl, passes]
    refine ⟨_, rfl, rfl, ?_⟩
    simp [awaitEdge, fresh]
  · intro h second e s served out
    rw [exec, execBeatSet, hosted_of_served served rfl, beatSetRefusal_of_unlocked out]
    rfl
  · intro p s waits due
    obtain ⟨on, base, beat⟩ := alignNow_beat waits due
    rw [beat]
    exact ⟨rfl, rfl, rfl, rfl⟩
  · intro s mark
    exact ⟨_, if_neg (by rw [mark]; exact Bool.false_ne_true), by simp, by simp, by simp, by simp⟩
  · exact fun s mark => if_pos mark
  · exact fun s => rfl
  · intro s clock noOps
    exact ⟨_, exec_beatClkLoss clock noOps, by simp, by simp, by simp⟩
  · intro edge s clock locked aligned
    simp [exec, execBeatClkRecover, clock, locked, aligned]
  · intro edge s clock locked
    simp [exec, execBeatClkRecover, clock, locked]

end

section
/-! Caps and their queries (R369, R417, R422), the steps of the thermal ceiling and its trip (R415, R416). -/
namespace Sys2Proof.Machine
open Sys2Proof.Claims

theorem exec_capSet_of_served {h : Hdr} {watts beat : Nat} {e : Session} {s : State}
    (served : Served (.capSet h watts beat) h ⟨0x0601, roleOperate, 0⟩ e s) (least : 300 ≤ watts) (most : watts ≤ 2000) :
    exec (.capSet h watts beat) s =
      .next (queueCap h watts (if beat = 0 || beatLe beat s.now then beatAdd s.now 1 else beat) 1 (accept h 0x0601 [] s)) := by
  have inRange : badIf (decide (watts < 300) || decide (2000 < watts)) = none := by simp [badIf, least, most]
  rw [exec, execCapSet, hosted_of_served served inRange]

theorem queueCap_accept_pwr (h : Hdr) (watts b k op : Nat) (s : State) : (queueCap h watts b k (accept h op [] s)).pwr =
    { s.pwr with caps := s.pwr.caps ++ [⟨watts, b, h.session, h.tag, k⟩] } := by
  simp [queueCap]

/-- The range check of ENERGY_READ. -/
theorem energyRange_of_fits {kind first count : Nat} (known : kind ≤ 1) (least : 1 ≤ count) (most : count ≤ 1024)
    (fits : first + count ≤ if kind = 0 then 32 else 1024) :
    badIf (decide (1 < kind) || decide (count = 0) || decide (1024 < count) ||
      decide ((if kind = 0 then 32 else 1024) < first + count)) = none := by
  rw [decide_eq_false (Nat.not_lt.mpr known), decide_eq_false (by omega), decide_eq_false (Nat.not_lt.mpr most),
    decide_eq_false (Nat.not_lt.mpr fits)]
  rfl

section
variable {s : State}

theorem exec_thermalStep_hot (due : s.thm.stepAt ≤ s.beat.elapsed) (hot : s.thm.atLimit = true) {c : Nat}
    (hc : s.thm.ceiling = some c) : exec .thermalStep s =
      if c < 8 then .next { s with thm := { s.thm with stepAt := s.beat.elapsed + 100, ceiling := some (c + 1) } }
      else .next { s with thm := { s.thm with stepAt := s.beat.elapsed + 100, duty := max 1 (s.thm.duty - 1) } } := by
  rw [exec, execThermalStep, if_neg (Nat.not_lt.mpr due)]
  simp only [hot, hc, if_true]

theorem exec_thermalStep_early (early : s.beat.elapsed < s.thm.stepAt) : exec .thermalStep s = .next s := if_pos early

theorem exec_thermalStep_cold {b : Nat} (cold : s.thm.atLimit = false) (since : s.thm.coolSince = some b)
    (recent : s.beat.elapsed < b + 1000) : exec .thermalStep s = .next s := by
  rw [exec, execThermalStep]
  split
  · rfl
  · simp only [cold, since, if_pos recent]
    rfl

theorem exec_thermalStep_back {b c : Nat} (due : s.thm.stepAt ≤ s.beat.elapsed) (cold : s.thm.atLimit = false)
    (since : s.thm.coolSince = some b) (long : b + 1000 ≤ s.beat.elapsed) (full : s.thm.duty = 8) (hc : s.thm.ceiling = some (c + 1)) :
    exec .thermalStep s = .next { s with thm := { s.thm with stepAt := s.beat.elapsed + 100, ceiling := some c } } := by
  rw [exec, execThermalStep, if_neg (Nat.not_lt.mpr due)]
  simp only [cold, since, if_neg (Nat.not_lt.mpr long), full, hc, Nat.lt_irrefl, if_false, Nat.succ_ne_zero, Nat.add_sub_cancel,
    Bool.false_eq_true]

end

end Sys2Proof.Machine
end

section
open Sys2Proof Sys2Proof.Machine Sys2Proof.Claims

/-- Settles O13. -/
theorem powerAndTemperature : Obligations.PowerAndTemperature := by
  refine ⟨?_, ?_, ?_, ?_, ?_, ?_, ?_, ?_, ?_, ?_, ?_, ?_⟩
  · intro h watts beat e s served least most given later
    refine ⟨_, exec_capSet_of_served served least most, ?_⟩
    rw [queueCap_accept_pwr, later, if_neg (by simp [given])]
  · intro h watts e s served least most
    refine ⟨_, exec_capSet_of_served served least most, ?_⟩
    rw [queueCap_accept_pwr]
    rfl
  · intro h watts beat e s served out
    have refused : badIf (decide (watts < 300) || decide (2000 < watts)) = some (stBadParam, 0) := if_pos (by simpa using out)
    rw [exec, execCapSet, hosted_of_refused served refused]
    rfl
  · intro h e s served
    exact hosted_of_served served rfl _
  · intro h first count e s served least most
    rw [exec, execEnergyRead, hosted_of_served served (energyRange_of_fits (by decide) least (by omega) most)]
    rfl
  · intro h first count e s served least most
    rw [exec, execEnergyRead, hosted_of_served served (energyRange_of_fits (by decide) least (by omega) most)]
    rfl
  · intro c s due hot hc room
    rw [exec_thermalStep_hot due hot hc, if_pos room]
  · intro s due hot hc
    rw [exec_thermalStep_hot due hot hc, if_neg (Nat.lt_irrefl 8)]
  · exact fun s => exec_thermalStep_early
  · intro b c s due cold since long full hc
    exact exec_thermalStep_back due cold since long full hc
  · intro b s cold since recent
    exact exec_thermalStep_cold cold since recent
  · intro die sensor celsius s hot
    exact ⟨_, if_neg (Nat.not_lt.mpr hot), by simp, by simp, by simp, by simp⟩

end

section
/-! Raises and trips of the regulators (R406, R407, R418) and the reconciliation of each millisecond (R409, R422). -/
namespace Sys2Proof.Machine
open Sys2Proof.Claims

theorem levelOf_withLevel (p : PwrSt) (e l : Nat) : levelOf (withLevel p e l) e = l := by
  by_cases h : e = 0 <;> simp [levelOf, withLevel, h]

theorem levelOf_completeRaise (e : Nat) (s : State) : levelOf (completeRaise e s).pwr e = levelOf s.pwr e - 1 :=
  (levelOf_withLevel s.pwr e _ :)

theorem engine_of_mem_raises_completeRaise {e : Nat} {s : State} {x : Raise} (hx : x ∈ (completeRaise e s).pwr.raises) : x.engine ≠ e := by
  simpa using (List.mem_filter.mp hx).2

theorem governEngine_of_ready {e : Nat} {r : Raise} {s : State} (slow : targetLevel s e < levelOf s.pwr e)
    (hr : s.pwr.raises.find? (fun x => x.engine = e) = some r) (ready : r.ready = true) (due : r.since + 8 ≤ s.beat.elapsed) :
    governEngine e s = completeRaise e s := by
  simp [governEngine, Nat.lt_asymm slow, slow, hr, ready, due]

theorem execRaiseTimeout_of_due {engine : Nat} {r : Raise} {s : State} (hr : s.pwr.raises.find? (fun x => x.engine = engine) = some r)
    (waits : r.ready = false) (due : r.since + 100 ≤ s.beat.elapsed) : execRaiseTimeout engine s =
      .next (record 0x0604 3 pkgSource (leBytes 1 engine ++ leBytes 1 (levelOf s.pwr engine - 1))
        (emit (.voltage engine (levelOf s.pwr engine)) { s with pwr := { withNoRaise s.pwr engine (r.since + 150) with
          raises := s.pwr.raises.filter fun x => x.engine ≠ engine
          raiseFail := s.pwr.raiseFail.hit } })) := by
  have gone : ¬ (r.ready = true ∨ s.beat.elapsed < r.since + 100) := by
    simpa [waits] using due
  simp only [execRaiseTimeout, hr, Bool.or_eq_true, decide_eq_true_eq, if_neg gone]

theorem withNoRaise_levels (p : PwrSt) (e b : Nat) : (withNoRaise p e b).levelC = p.levelC ∧ (withNoRaise p e b).levelD = p.levelD := by
  unfold withNoRaise
  split <;> exact ⟨rfl, rfl⟩

theorem hintExpire_of_ended {i : Nat} {h : Hint} {s : State} (hh : s.pwr.hints[i]? = some h)
    (ended : beatLe (beatAdd h.start h.span) s.now = true) :
    execHintExpire i s = .next { s with pwr := { s.pwr with hints := s.pwr.hints.eraseIdx i } } := by
  rw [execHintExpire, if_pos (by rw [hh, Option.any_some, ended])]

theorem tripHoldExpire_of_ended {b : Nat} {s : State} (hb : s.pwr.tripUntil = some b) (ended : b ≤ s.beat.elapsed) :
    execTripHoldExpire s = .next { s with pwr := { s.pwr with tripUntil := none } } := by
  rw [execTripHoldExpire, if_pos (by rw [hb, Option.any_some, decide_eq_true ended])]

/-! ### Reconciliation -/

@[simp] theorem addQueueEnergy_pwr (r : Reconcile) (suspect : Bool) (s : State) : (addQueueEnergy r suspect s).pwr = s.pwr :=
  foldl_keeps State.pwr _ (by intro s x; simp) _ s

@[simp] theorem addQueueEnergy_cmds (r : Reconcile) (suspect : Bool) (s : State) : (addQueueEnergy r suspect s).jobs.cmds = s.jobs.cmds :=
  foldl_keeps (fun s => s.jobs.cmds) _ (by intro s x; rfl) _ s

/-- The entry after 31 others. -/
theorem getD_map_range_append {α : Type} (n : Nat) (f : Nat → α) (x d : α) : ((List.range n).map f ++ [x]).getD n d = x := by
  simp [List.getD_eq_getElem?_getD]

/-- With all tests of plausibility passed and no suspicion, the counters grow by what was measured. -/
theorem execReconcileMs_of_plausible {r : Reconcile} {s : State} (phase : r.phaseOk = true) (range : r.rangeOk = true)
    (stuck : r.stuckOk = true) (trusted : s.pwr.suspect = false) :
    ∃ t, execReconcileMs r s = .next t ∧ t.pwr.measured = (r.measured.sum + s.pwr.vioEstimate) / 1000 ∧
      t.pwr.estimate = r.estimate.sum / 1000 ∧ t.pwr.suspect = false ∧
      t.pwr.energy.getD 31 0 =
        (s.pwr.energy.getD 31 0 + (s.pwr.carry.getD 31 0 + (r.measured.sum + s.pwr.vioEstimate) * 10 ^ 6) / 10 ^ 9) % 2 ^ 64 ∧
      t.pwr.cap = s.pwr.cap ∧ t.mem = s.mem ∧ t.jobs.cmds = s.jobs.cmds := by
  unfold execReconcileMs
  extract_lets e m diff apart pass bad good finding was suspect mask vio parts total before p s1 hlth s2
  have passes : pass = true := by simp [pass, phase, range, stuck]
  have noSuspect : suspect = false := by simp [suspect, passes, was, trusted]
  have kept : ∀ bs, (if finding then record 0x0601 3 pkgSource bs s2 else s2).pwr = p ∧
      (if finding then record 0x0601 3 pkgSource bs s2 else s2).mem = s.mem ∧
      (if finding then record 0x0601 3 pkgSource bs s2 else s2).jobs.cmds = s.jobs.cmds := fun bs => by
    split <;> simp [s2, s1]
  obtain ⟨pwr, mem, cmds⟩ := kept (leBytes 4 (e / 1000) ++ leBytes 4 (m / 1000) ++ leBytes 1 mask)
  refine ⟨_, rfl, ?_⟩
  rw [pwr]
  refine ⟨rfl, rfl, noSuspect, ?_, rfl, mem, cmds⟩
  have last : p.energy.getD 31 0 = total.1 := by
    simp only [p, parts, List.map_append, List.map_map, List.map_cons, List.map_nil, getD_map_range_append]
  rw [last]
  simp only [total, noSuspect]
  rfl

end Sys2Proof.Machine
end

section
open Sys2Proof Sys2Proof.Machine Sys2Proof.Claims

/-- Settles O14. -/
theorem regulatorsAndEnergy : Obligations.RegulatorsAndEnergy := by
  refine ⟨?_, ?_, ?_, ?_, ?_, ?_, ?_, ?_⟩
  · intro e r s slow hr ready due
    rw [governEngine_of_ready slow hr ready due]
    exact ⟨levelOf_completeRaise e s, rfl, fun x => engine_of_mem_raises_completeRaise⟩
  · intro engine r s hr
    simp only [exec, execRegulatorReady, hr]
  · intro engine r s hr waits due
    obtain ⟨levelC, levelD⟩ := withNoRaise_levels s.pwr engine (r.since + 150)
    exact ⟨_, execRaiseTimeout_of_due hr waits due, by simp [emit], by simp [emit], by simp [emit, levelC], by simp [emit, levelD], by simp [emit]⟩
  · intro rail current s
    exact ⟨_, rfl, by simp⟩
  · exact fun b s => tripHoldExpire_of_ended
  · exact fun i h s => hintExpire_of_ended
  · intro xs s
    refine ⟨_, rfl, fun x hx => List.mem_append_right _ hx, fun x hx other => List.mem_append_left _ ?_, rfl⟩
    refine List.mem_filter.mpr ⟨hx, ?_⟩
    simpa using other
  · intro r s phase range stuck trusted
    exact execReconcileMs_of_plausible phase range stuck trusted

end

section
/-! The windows of the contexts (R400), the edge of a beat (R37, R470), the levels of phase 7 (R406, R410) and the pacing of issue beats
(R419). -/
namespace Sys2Proof.Machine
open Sys2Proof.Claims

/-! ### SLOWDOWN_WINDOW -/

/-- A context whose window has closed; the wait behind transit is drawn. -/
def Ctx.closed (solo : List (Nat × Nat)) (transit : Nat) (now : Nat) (c : Ctx) : Ctx :=
  { c with
    slowdown := (slowdownOf solo c.retired).1
    covered := (slowdownOf solo c.retired).2
    claimWait := c.claimWaitNow
    transitWait := transit
    paceWait := c.paceWaitNow
    windowBeat := now % 2 ^ 32
    claimWaitNow := 0
    paceWaitNow := 0
    retired := [] }

theorem ctx_setCtx_of_ne {n m : Nat} (h : m ≠ n) (f : Ctx → Ctx) (hf : ∀ x, (f x).num = x.num) (s : State) :
    (setCtx n f s).ctx m = s.ctx m := by
  refine find_updBy_ne _ _ f (fun x => by rw [hf]) (fun x hx => ?_) _
  simp only [decide_eq_true_eq, decide_eq_false_iff_not] at hx ⊢
  omega

theorem closeWindow_eq (solo : List (Nat × Nat)) (n : Nat) (s : State) : ∃ transit, closeWindow solo n s =
    setCtx n (Ctx.closed solo transit s.now) { s with fresh := s.fresh + 1 } := ⟨_, rfl⟩

theorem ctx_closeWindow_of_ne {n m : Nat} (h : m ≠ n) (solo : List (Nat × Nat)) (s : State) :
    (closeWindow solo n s).ctx m = s.ctx m := by
  obtain ⟨transit, same⟩ := closeWindow_eq solo n s
  rw [same, ctx_setCtx_of_ne h _ (by intro; rfl)]
  rfl

theorem ctx_foldl_closeWindow {m : Nat} (solo : List (Nat × Nat)) {ns : List Nat} (h : m ∉ ns) (s : State) :
    (ns.foldl (fun s n => closeWindow solo n s) s).ctx m = s.ctx m := by
  induction ns generalizing s with
  | nil => rfl
  | cons n ns ih =>
    obtain ⟨this, rest⟩ := not_or.mp (mt List.mem_cons.mpr h)
    exact (ih rest _).trans (ctx_closeWindow_of_ne this solo s)

theorem foldl_closeWindow_cmds (solo : List (Nat × Nat)) (ns : List Nat) (s : State) :
    (ns.foldl (fun s n => closeWindow solo n s) s).jobs.cmds = s.jobs.cmds :=
  foldl_keeps (fun s => s.jobs.cmds) _ (by intro s n; rfl) ns s

theorem foldl_closeWindow_mem (solo : List (Nat × Nat)) (ns : List Nat) (s : State) :
    (ns.foldl (fun s n => closeWindow solo n s) s).mem = s.mem := foldl_keeps State.mem _ (by intro s n; rfl) ns s

/-- A context that stands once in the list has its window closed once. -/
theorem ctx_slowdownWindow {solo : List (Nat × Nat)} {x : Ctx} {s : State} (once : s.jobs.ctxs.filter (fun c => c.num = x.num) = [x]) :
    ∃ transit now, ((s.jobs.ctxs.map fun c => c.num).foldl (fun s n => closeWindow solo n s) s).ctx x.num =
      some (x.closed solo transit now) := by
  have found : s.ctx x.num = some x := by rw [State.ctx, ← List.head?_filter, once]; rfl
  obtain ⟨l₁, l₂, split, before, -, after⟩ := List.filter_eq_cons_iff.mp once
  have notBefore : x.num ∉ l₁.map fun c => c.num := by
    simpa using before
  have notAfter : x.num ∉ l₂.map fun c => c.num := by
    simpa using List.filter_eq_nil_iff.mp after
  rw [split, List.map_append, List.map_cons, List.foldl_append, List.foldl_cons]
  generalize ht : (l₁.map fun c => c.num).foldl (fun s n => closeWindow solo n s) s = t
  have here : t.ctx x.num = some x := by rw [← ht, ctx_foldl_closeWindow solo notBefore, found]
  obtain ⟨transit, same⟩ := closeWindow_eq solo x.num t
  have kept : ({ t with fresh := t.fresh + 1 } : State).ctx x.num = some x := here
  refine ⟨transit, t.now, ?_⟩
  rw [ctx_foldl_closeWindow solo notAfter, same, ctx_setCtx x.num _ (by intro; rfl), kept, Option.map_some]

/-! ### Beats and levels -/

theorem alignNow_of_none {s : State} (h : s.beat.setPending = none) : alignNow s = s := by
  simp only [alignNow, h]

theorem governEngine_of_fast {e : Nat} {s : State} (fast : levelOf s.pwr e < targetLevel s e) : governEngine e s =
    emit (.voltage e (targetLevel s e)) { s with pwr := { withLevel s.pwr e (targetLevel s e) with
      raises := s.pwr.raises.filter fun r => r.engine ≠ e } } := by
  simp only [governEngine, if_pos fast]

theorem issueBeat_mod (b k d : Nat) : issueBeat (8 * b + k) d = issueBeat k d := by
  simp only [issueBeat, Nat.mul_add_mod]

theorem issueBeats_of_period : ∀ d ≤ 8, ((List.range 8).filter fun k => issueBeat k d).length = d := by decide

end Sys2Proof.Machine
end

section
open Sys2Proof Sys2Proof.Machine Sys2Proof.Claims

/-- Settles O15. -/
theorem beatsAndTheGovernor : Obligations.BeatsAndTheGovernor := by
  refine ⟨?_, ?_, ?_, ?_, ?_, ?_, ?_⟩
  · intro solo x s edge once
    obtain ⟨transit, now, closed⟩ := ctx_slowdownWindow (solo := solo) once
    exact ⟨_, x.closed solo transit now, if_neg (not_not.mpr edge), closed, rfl, rfl, rfl, rfl, rfl, rfl, rfl,
      foldl_closeWindow_cmds solo _ s, foldl_closeWindow_mem solo _ s⟩
  · exact fun solo s within => if_pos within
  · intro inp s off
    exact if_pos (by simpa using off)
  · rintro inp s ⟨released, good⟩ notReady idle
    have aligned : alignNow (advance inp s) = advance inp s := alignNow_of_none idle
    have notReady' : (advance inp s).boot.stage ≠ 6 := notReady
    simp only [exec, execBeatTick, released, good, aligned, if_neg notReady']
    exact ⟨_, rfl, rfl, rfl, rfl, rfl, rfl, rfl, rfl⟩
  · rintro inp s ⟨released, good⟩ ready
    have ready' : (alignNow (advance inp s)).boot.stage = 6 := by rw [(alignNow_keeps _).2.2.2.2.2.2.2.2.2.2.2.2.2.1]; exact ready
    simp only [exec, execBeatTick, released, good, if_pos ready']
    rfl
  · intro e s fast
    rw [governEngine_of_fast fast]
    exact ⟨levelOf_withLevel s.pwr e _, rfl, by simp [emit], rfl, rfl⟩
  · intro b d hd
    simp only [issueBeat_mod]
    exact issueBeats_of_period d hd

end

section
/-! Bringing a link up, its loss, and the records it leaves (R295 to R299, R304, R305, R308, R512). -/
namespace Sys2Proof.Machine
open Sys2Proof.Claims

/-! ### The port that a look-up finds -/

theorem State.link_of_links {s t : State} (h : t.fab.links = s.fab.links) (p : Nat) : t.link p = s.link p := by rw [link, h, link]

theorem State.link_port {s : State} {p : Nat} {l : Link} (h : s.link p = some l) : l.port = p := by
  simpa using List.find?_some (p := fun y : Link => decide (y.port = p)) h

theorem link_setLink_of_ne {p q : Nat} (h : p ≠ q) (f : Link → Link) (hf : ∀ x, (f x).port = x.port) (s : State) :
    (setLink q f s).link p = s.link p := by
  refine find_updBy_ne _ _ f (fun x => by rw [hf]) (fun x hx => ?_) _
  simp only [decide_eq_true_eq, decide_eq_false_iff_not] at hx ⊢
  omega

theorem link_setLink_of_some {p : Nat} {l : Link} {s : State} (hl : s.link p = some l) (f : Link → Link) (hf : ∀ x, (f x).port = x.port) :
    (setLink p f s).link p = some (f l) := by
  rw [link_setLink p f hf, hl, Option.map_some]

/-! ### A port enters a state -/

/-- A port as it stands in a state entered now. -/
def Link.entered (l : Link) (st now : Nat) : Link :=
  { l with
    state := st
    since := now
    width := if st = 2 || st = 3 || st = 4 || st = 5 then l.width else 0
    downCount := if l.state = 4 && st ≠ 4 then min 0xFFFF (l.downCount + 1) else l.downCount }

theorem link_answerRetrain {p : Nat} {l : Link} {s : State} (hl : s.link p = some l) :
    ∃ rr, (answerRetrain p s).link p = some { l with retrainReply := rr } := by
  unfold answerRetrain
  simp only [hl]
  cases h : l.retrainReply with
  | none => exact ⟨none, by rw [hl, ← h]⟩
  | some rr =>
    refine ⟨none, ?_⟩
    rw [State.link_of_links (s := setLink p (fun x => { x with retrainReply := none }) s) (by simp),
      link_setLink_of_some hl _ (by intro; rfl)]

theorem answerRetrain_routesStale (p : Nat) (s : State) : (answerRetrain p s).fab.routesStale = s.fab.routesStale := by
  unfold answerRetrain
  (repeat' split) <;> simp

/-- The standby link of a pair starts only where its port is DOWN and the plan names it. -/
theorem link_startStandby {pair : Nat × Nat} {p : Nat} {l : Link} {s : State} (hl : s.link p = some l)
    (apart : l.state ≠ 0 ∨ ∀ r, s.flash.install = some r → ∀ x ∈ planAt s.boot.pkg r, x.port = p → x.standby ≠ some pair) :
    (startStandby pair s).link p = some l := by
  unfold startStandby
  split
  · exact hl
  next r hr =>
    have each : ∀ x ∈ (planAt s.boot.pkg r).filter (fun l => l.standby = some pair), l.state ≠ 0 ∨ x.port ≠ p := fun x hx => by
      obtain ⟨planned, standby⟩ := List.mem_filter.mp hx
      exact apart.imp_right fun h same => h r hr x planned same (by simpa using standby)
    generalize (planAt s.boot.pkg r).filter (fun l => l.standby = some pair) = xs at each
    clear apart hr
    induction xs generalizing s with
    | nil => exact hl
    | cons x xs ih =>
      refine ih ?_ fun y hy => each y (List.mem_cons_of_mem x hy)
      by_cases same : p = x.port
      · have busy : l.state ≠ 0 := (each x List.mem_cons_self).resolve_right (not_not.mpr same.symm)
        subst same
        dsimp only
        rw [link_setLink_of_some hl _ (by intro y; split <;> rfl), if_neg busy]
      · dsimp only
        rw [link_setLink_of_ne same _ (by intro y; split <;> rfl), hl]

theorem pairOfPort_of_install {s t : State} (h : t.flash.install = s.flash.install) (pkg p : Nat) :
    pairOfPort t pkg p = pairOfPort s pkg p := by rw [pairOfPort, h, pairOfPort]

theorem refuseEntries_links (pkg p : Nat) (s : State) : (refuseEntries pkg p s).fab.links = s.fab.links := by
  unfold refuseEntries
  split <;> rfl

/-- What happens as a port leaves UP (R304), after it has its new state. -/
def leftUp (port st width : Nat) (s : State) : State :=
  let s := record 0x0503 3 pkgSource (leBytes 1 port ++ leBytes 1 st ++ leBytes 1 width) (resendHeld port s)
  let s := refuseEntries s.boot.pkg port (floodLink s.boot.pkg port false s)
  let s := match pairOfPort s s.boot.pkg port with
    | some p => startStandby p s
    | none => s
  { s with fab := { s.fab with routesStale := true } }

/-- What happens as a port with the entry `l` enters a state, after it has that state. -/
def entryEffects (port st : Nat) (l : Link) (s : State) : State :=
  if l.state = 4 && st ≠ 4 then leftUp port st l.width s
  else if l.state ≠ 4 && st = 4 then floodLink s.boot.pkg port true { s with fab := { s.fab with routesStale := true } }
  else s

theorem enterState_eq {port st : Nat} {l : Link} {s : State} (hl : s.link port = some l) :
    ∃ u, u = setLink port (fun x => { x with
        state := st
        since := s.beat.elapsed
        width := if st = 2 || st = 3 || st = 4 || st = 5 then l.width else 0
        downCount := if l.state = 4 && st ≠ 4 then min 0xFFFF (x.downCount + 1) else x.downCount }) s ∧
      enterState port st s = if st = 4 || st = 0 || st = 5 || st = 7 then answerRetrain port (entryEffects port st l u)
        else entryEffects port st l u := by
  refine ⟨_, rfl, ?_⟩
  simp only [enterState, hl]
  rfl

theorem link_leftUp {port st width : Nat} {l : Link} {s : State} (hl : s.link port = some l) (apart : l.state ≠ 0 ∨ notItsStandby s port) :
    (leftUp port st width s).link port = some l := by
  unfold leftUp
  extract_lets u v w
  have hu : u.link port = some l := by rw [State.link_of_links (s := s) (by simp [u]), hl]
  have hv : v.link port = some l := by rw [State.link_of_links (s := u) (by simp [v, refuseEntries_links]), hu]
  have install : v.flash.install = s.flash.install := by simp [v, u]
  have pkg : v.boot.pkg = s.boot.pkg := by simp [v, u]
  have hw : w.link port = some l := by
    simp only [w]
    split
    next pair hpair =>
      refine link_startStandby hv (apart.imp_right fun apart r hr x hx same standby => ?_)
      rw [pairOfPort_of_install install, pkg] at hpair
      rw [install] at hr
      rw [pkg] at hx
      rcases apart r hr x hx same with alone | other
      · rw [alone] at standby; cases standby
      · exact other (standby.trans hpair.symm)
    next => exact hv
  exact hw

theorem leftUp_routesStale (port st width : Nat) (s : State) : (leftUp port st width s).fab.routesStale = true := rfl

/-- A port that enters a state has it, whatever the loss of UP brings with it. -/
theorem link_enterState {port st : Nat} {l : Link} {s : State} (hl : s.link port = some l)
    (apart : l.state ≠ 4 ∨ st ≠ 0 ∨ notItsStandby s port) :
    ∃ rr, (enterState port st s).link port = some { l.entered st s.beat.elapsed with retrainReply := rr } := by
  obtain ⟨u, hu, same⟩ := enterState_eq (st := st) hl
  have linkU : u.link port = some (l.entered st s.beat.elapsed) := by
    rw [hu, link_setLink_of_some hl _ (by intro; rfl), Link.entered]
  have install : u.flash.install = s.flash.install := by rw [hu]; rfl
  have pkg : u.boot.pkg = s.boot.pkg := by rw [hu]; rfl
  rw [same]
  have linkV : (entryEffects port st l u).link port = some (l.entered st s.beat.elapsed) := by
    unfold entryEffects
    split
    next left =>
      obtain ⟨up, -⟩ : l.state = 4 ∧ st ≠ 4 := by simpa using left
      refine link_leftUp linkU ((apart.resolve_left (not_not.mpr up)).imp_right fun h r hr x hx samePort => ?_)
      rw [pairOfPort_of_install install, pkg]
      exact h r (install ▸ hr) x (pkg ▸ hx) samePort
    next =>
      split
      · rw [State.link_of_links (s := u) (by simp), linkU]
      · exact linkU
  split
  · exact link_answerRetrain linkV
  · exact ⟨_, linkV⟩

theorem enterState_routesStale {port st : Nat} {l : Link} {s : State} (hl : s.link port = some l) (up : l.state = 4) (left : st ≠ 4) :
    (enterState port st s).fab.routesStale = true := by
  obtain ⟨u, -, same⟩ := enterState_eq (st := st) hl
  have stale : (entryEffects port st l u).fab.routesStale = true := by
    rw [entryEffects, if_pos (by simp [up, left]), leftUp_routesStale]
  rw [same]
  split
  · rw [answerRetrain_routesStale, stale]
  · exact stale

theorem enterState_out {port st : Nat} {l : Link} {s : State} (hl : s.link port = some l) (notUp : l.state ≠ 4)
    (quiet : st = 1 ∨ st = 2 ∨ st = 3) : (enterState port st s).out = s.out := by
  obtain ⟨u, hu, same⟩ := enterState_eq (st := st) hl
  have none_ : (st = 4 || st = 0 || st = 5 || st = 7) = false := by
    rcases quiet with h | h | h <;> rw [h] <;> rfl
  have notFour : st ≠ 4 := by omega
  rw [same, none_, if_neg Bool.false_ne_true]
  simp [entryEffects, notUp, notFour, hu]

/-! ### Ports by their keys, for phase 8 -/

/-- What phase 8 looks at in a port. -/
def Link.key (l : Link) : Nat × Nat × Option Nat := (l.port, l.state, l.retrainAt)

def State.linkKeys (s : State) : List (Nat × Nat × Option Nat) := s.fab.links.map Link.key

theorem State.link_of_linkKeys {s t : State} (h : t.linkKeys = s.linkKeys) (p : Nat) :
    (t.link p).map Link.key = (s.link p).map Link.key := by
  have byKey : ∀ u : State, (u.link p).map Link.key = u.linkKeys.find? fun k => k.1 = p := fun u => by
    rw [State.linkKeys, List.find?_map]
    rfl
  rw [byKey, byKey, h]

theorem linkKeys_setLink (p : Nat) (f : Link → Link) (hf : ∀ l, (f l).key = l.key) (s : State) : (setLink p f s).linkKeys = s.linkKeys := by
  simp only [State.linkKeys, setLink_links, updBy, List.map_map]
  refine List.map_congr_left fun l _ => ?_
  simp only [Function.comp_apply]
  split
  · exact hf l
  · rfl

theorem linkKeys_settleShares (s : State) : (settleShares s).linkKeys = s.linkKeys :=
  foldl_keeps State.linkKeys _ (fun s (l : Link) => linkKeys_setLink l.port _ (by intro; rfl) (draw s).2) _ s

theorem linkKeys_returnLanes (s : State) : (returnLanes s).linkKeys = s.linkKeys := by
  simp only [State.linkKeys, returnLanes, List.map_map]
  refine List.map_congr_left fun l _ => ?_
  simp only [Function.comp_apply]
  split <;> rfl

theorem failOp_links (id : Nat) (leaves : Bool) (s : State) : (failOp id leaves s).fab.links = s.fab.links := by
  unfold failOp
  (repeat' split) <;> simp

theorem updateRoutes_links (s : State) : (updateRoutes s).fab.links = s.fab.links := by
  unfold updateRoutes
  split
  · rfl
  · exact foldl_keeps (fun s => s.fab.links) _ (fun s (o : GlobalOp) => failOp_links o.id false s) _ _

/-- Whether a port's retraining window opens now. -/
def Link.opensNow (now : Nat) (l : Link) : Bool :=
  match l.retrainAt with
  | some b => beatLe b now
  | none => false

/-- The window of a port opens. -/
def openWindow (s : State) (l : Link) : State :=
  if l.state = 4 then enterState l.port 2 (setLink l.port (fun x => { x with retrainAt := none }) s)
  else answerRetrain l.port (setLink l.port (fun x => { x with retrainAt := none }) s)

theorem phase8_eq (s : State) : phase8 s = updateRoutes (returnLanes
    (((settleShares s).fab.links.filter (Link.opensNow (settleShares s).now)).foldl openWindow (settleShares s))) := rfl

theorem link_openWindow {l x : Link} {s : State} (up : l.state = 4) (hx : s.link l.port = some x) :
    ∃ y, (openWindow s l).link l.port = some y ∧ y.state = 2 ∧ y.retrainAt = none := by
  rw [openWindow, if_pos up]
  obtain ⟨rr, entered⟩ := link_enterState (port := l.port) (st := 2)
    (link_setLink_of_some hx (fun x => { x with retrainAt := none }) (by intro; rfl)) (.inr (.inl (by omega)))
  exact ⟨_, entered, rfl, rfl⟩

theorem link_foldl_openWindow {p : Nat} {ls : List Link} (ne : ls ≠ []) (ups : ∀ l ∈ ls, l.port = p ∧ l.state = 4) {x : Link} {s : State}
    (hx : s.link p = some x) : ∃ y, (ls.foldl openWindow s).link p = some y ∧ y.state = 2 ∧ y.retrainAt = none := by
  induction ls generalizing s x with
  | nil => exact absurd rfl ne
  | cons l ls ih =>
    obtain ⟨samePort, up⟩ := ups l List.mem_cons_self
    subst samePort
    obtain ⟨y, hy, state, window⟩ := link_openWindow up hx
    cases ls with
    | nil => exact ⟨y, hy, state, window⟩
    | cons m ms => exact ih (List.cons_ne_nil m ms) (fun k hk => ups k (List.mem_cons_of_mem _ hk)) hy

/-- With one port alone waiting for its window, the window of that port opens in phase 8. -/
theorem link_phase8 {b : Nat} {l : Link} {s : State} (hl : s.link l.port = some l) (up : l.state = 4) (waits : l.retrainAt = some b)
    (due : beatLe b s.now = true) (alone : ∀ x ∈ s.fab.links, x ≠ l → x.retrainAt = none) :
    ∃ y, (phase8 s).link l.port = some y ∧ y.state = 2 ∧ y.retrainAt = none := by
  have keys : (settleShares s).linkKeys = s.linkKeys := linkKeys_settleShares s
  have now : (settleShares s).now = s.now := by simp [State.now]
  have found : ∃ x, (settleShares s).link l.port = some x ∧ x.key = l.key := by
    have same := State.link_of_linkKeys keys l.port
    rwa [hl, Option.map_some, Option.map_eq_some_iff] at same
  obtain ⟨x, hx, key⟩ := found
  rw [phase8_eq, now]
  have waiting : ∀ y ∈ (settleShares s).fab.links.filter (Link.opensNow s.now), y.port = l.port ∧ y.state = 4 := fun y hy => by
    obtain ⟨hy, opensNow⟩ := List.mem_filter.mp hy
    have inKeys : y.key ∈ s.linkKeys := keys ▸ List.mem_map.mpr ⟨y, hy, rfl⟩
    obtain ⟨z, hz, same⟩ := List.mem_map.mp inKeys
    simp only [Link.key, Prod.mk.injEq] at same
    obtain ⟨port, state, window⟩ := same
    by_cases isL : z = l
    · rw [← port, ← state, isL]
      exact ⟨rfl, up⟩
    · rw [Link.opensNow, ← window, alone z hz isL] at opensNow
      exact absurd opensNow Bool.false_ne_true
  have some_ : (settleShares s).fab.links.filter (Link.opensNow s.now) ≠ [] := by
    refine List.ne_nil_of_mem (a := x) (List.mem_filter.mpr ⟨List.mem_of_find?_eq_some hx, ?_⟩)
    simp only [Link.key, Prod.mk.injEq] at key
    rw [Link.opensNow, key.2.2, waits]
    exact due
  obtain ⟨y, hy, state, window⟩ := link_foldl_openWindow some_ waiting hx
  have returned := State.link_of_linkKeys
    (linkKeys_returnLanes (((settleShares s).fab.links.filter (Link.opensNow s.now)).foldl openWindow (settleShares s))) l.port
  rw [hy, Option.map_some, Option.map_eq_some_iff] at returned
  obtain ⟨z, hz, zkey⟩ := returned
  simp only [Link.key, Prod.mk.injEq] at zkey
  obtain ⟨-, zstate, zwindow⟩ := zkey
  refine ⟨z, ?_, zstate.trans state, zwindow.trans window⟩
  rw [State.link_of_links (updateRoutes_links _), hz]

/-! ### The commands -/

theorem startStandby_fab (pair : Nat × Nat) (s : State) : (startStandby pair s).fab.remote = s.fab.remote ∧
    (startStandby pair s).fab.routesStale = s.fab.routesStale := by
  unfold startStandby
  split
  · exact ⟨rfl, rfl⟩
  · exact ⟨foldl_keeps (fun s => s.fab.remote) _ (by intros; rfl) _ _, foldl_keeps (fun s => s.fab.routesStale) _ (by intros; rfl) _ _⟩

theorem refuseEntries_fab (pkg port : Nat) (s : State) : (refuseEntries pkg port s).fab.remote = s.fab.remote ∧
    (refuseEntries pkg port s).fab.routesStale = s.fab.routesStale := by
  unfold refuseEntries
  split <;> exact ⟨rfl, rfl⟩

/-- A port with the width and the lanes that equalisation has found, the lanes taken from `l`. -/
def Link.equalised (l : Link) (port w : Nat) (x : Link) : Link :=
  { x with
    width := w
    lanes := arrangeLanes 0 l.lanes
    spareUsed := x.spareUsed || (isLocal port && (((arrangeLanes 0 l.lanes).getD 8 ⟨0, false, 0⟩).lstate = 0)) }

theorem execLinkEqualiseDone_of_width {port n w : Nat} {l : Link} {s : State} (hl : s.link port = some l) (state : l.state = 2)
    (width : widthFor (min n (goodLanes l)) = some w) : execLinkEqualiseDone port n s =
      .next (sendIdent port (enterState port 3 (setLink port (Link.equalised l port w) s))) := by
  simp only [execLinkEqualiseDone, hl, state, width, ne_eq, not_true, if_false]
  rfl

theorem widthFor_eq_none {n : Nat} (h : n < 4) : widthFor n = none := by
  rw [widthFor, if_neg (by omega), if_neg (by omega)]

theorem link_quarantine {port type : Nat} {bs : List Byte} {l : Link} {s : State} (hl : s.link port = some l) :
    ∃ x, (quarantine port type bs s).link port = some x ∧ x.state = 5 ∧ x.mismatch = l.mismatch.hit := by
  obtain ⟨rr, entered⟩ := link_enterState (port := port) (st := 5)
    (link_setLink_of_some hl (fun x => { x with mismatch := x.mismatch.hit }) (by intro; rfl)) (.inr (.inl (by omega)))
  exact ⟨_, (State.link_of_links (by rw [quarantine, (record_keeps ..).2.2.2.2.2.2.2.2.2.2.1]) port).trans entered, rfl, rfl⟩

/-- A port with the peer that an identity record names. -/
def Link.named (r : IdentRec) (l : Link) : Link := { l with peerPkg := r.pkg, peerPort := r.port }

/-- What a record of a wrong topology says in its finding. -/
def identTopo (port : Nat) (r : IdentRec) : List Byte := leBytes 1 port ++ leBytes 1 r.pkg ++ leBytes 1 r.port ++ leBytes 8 r.recordTag

section
variable {port : Nat} {r : IdentRec} {l : Link} {p : PlanLink} {s : State}

theorem planOf_setLink (q : Nat) (f : Link → Link) (s : State) (port : Nat) : planOf (setLink q f s) port = planOf s port := rfl

theorem execIdentRecord_of_differs (hl : s.link port = some l) (state : l.state = 3 ∨ l.state = 5) (planned : planOf s port = some p)
    (differs : r.recordTag ≠ recordTag s ∨ r.pkg ≠ p.peerPkg ∨ r.port ≠ p.peerPort) :
    execIdentRecord port r s = .next (quarantine port 0x0501 (identTopo port r) (setLink port (Link.named r) s)) := by
  have wrong : (r.recordTag ≠ recordTag s || r.pkg ≠ p.peerPkg || r.port ≠ p.peerPort) = true := by
    simpa only [Bool.or_eq_true, decide_eq_true_eq, or_assoc] using differs
  have listens : ¬ (l.state ≠ 3 && l.state ≠ 5) = true := by
    simp only [Bool.and_eq_true, decide_eq_true_eq]
    omega
  simp only [execIdentRecord, hl, if_neg listens, planOf_setLink, planned]
  exact if_pos wrong

theorem execIdentRecord_of_topology (hl : s.link port = some l) (state : l.state = 3 ∨ l.state = 5) (planned : planOf s port = some p)
    (tag : r.recordTag = recordTag s) (pkg : r.pkg = p.peerPkg) (peer : r.port = p.peerPort) :
    execIdentRecord port r s =
      if min Config.linkVersions.2 r.verMax < Config.linkVersions.1 || min Config.linkVersions.2 r.verMax < r.verMin ||
          min Config.linkVersions.2 r.verMax < versionFloor s then
        .next (quarantine port 0x0502 (leBytes 1 port ++ leBytes 1 r.verMin ++ leBytes 1 r.verMax ++
          leBytes 1 (min Config.linkVersions.2 r.verMax)) (setLink port (Link.named r) s))
      else .next (enterState port 4 (setLink port (fun x => { x with version := min Config.linkVersions.2 r.verMax })
        (setLink port (Link.named r) s))) := by
  have right : ¬ (r.recordTag ≠ recordTag s || r.pkg ≠ p.peerPkg || r.port ≠ p.peerPort) = true := by
    simp [tag, pkg, peer]
  have listens : ¬ (l.state ≠ 3 && l.state ≠ 5) = true := by
    simp only [Bool.and_eq_true, decide_eq_true_eq]
    omega
  simp only [execIdentRecord, hl, if_neg listens, planOf_setLink, planned]
  exact if_neg right

theorem execIdentRecord_of_old (hl : s.link port = some l) (state : l.state = 3 ∨ l.state = 5) (planned : planOf s port = some p)
    (tag : r.recordTag = recordTag s) (pkg : r.pkg = p.peerPkg) (peer : r.port = p.peerPort)
    (old : min Config.linkVersions.2 r.verMax < Config.linkVersions.1 ∨ min Config.linkVersions.2 r.verMax < r.verMin ∨
      min Config.linkVersions.2 r.verMax < versionFloor s) :
    execIdentRecord port r s = .next (quarantine port 0x0502 (leBytes 1 port ++ leBytes 1 r.verMin ++ leBytes 1 r.verMax ++
      leBytes 1 (min Config.linkVersions.2 r.verMax)) (setLink port (Link.named r) s)) := by
  rw [execIdentRecord_of_topology hl state planned tag pkg peer]
  exact if_pos (by simpa only [Bool.or_eq_true, decide_eq_true_eq, or_assoc] using old)

theorem execIdentRecord_of_known (hl : s.link port = some l) (state : l.state = 3 ∨ l.state = 5) (planned : planOf s port = some p)
    (tag : r.recordTag = recordTag s) (pkg : r.pkg = p.peerPkg) (peer : r.port = p.peerPort)
    (known : ¬ (min Config.linkVersions.2 r.verMax < Config.linkVersions.1 ∨ min Config.linkVersions.2 r.verMax < r.verMin ∨
      min Config.linkVersions.2 r.verMax < versionFloor s)) :
    execIdentRecord port r s = .next (enterState port 4 (setLink port
      (fun x => { x with version := min Config.linkVersions.2 r.verMax }) (setLink port (Link.named r) s))) := by
  rw [execIdentRecord_of_topology hl state planned tag pkg peer]
  exact if_neg (by simpa only [Bool.or_eq_true, decide_eq_true_eq, or_assoc] using known)

end

end Sys2Proof.Machine
end

section
open Sys2Proof Sys2Proof.Machine Sys2Proof.Claims

/-- Settles O16. -/
theorem linksComeUpAndFall : Obligations.LinksComeUpAndFall := by
  refine ⟨?_, ?_, ?_, ?_, ?_, ?_, ?_, ?_, ?_, ?_, ?_, ?_, ?_, ?_⟩
  · intro port l s hl state
    obtain ⟨rr, entered⟩ := link_enterState (st := 2) hl (.inr (.inl (by omega)))
    refine ⟨enterState port 2 s, _, ?_, entered, rfl, by simp, by simp⟩
    rw [exec, execLinkDetect, hl]
    exact if_pos (by simpa using state)
  · intro port n w l s hl state width
    have wide := link_setLink_of_some hl (Link.equalised l port w) (by intro; rfl)
    obtain ⟨rr, entered⟩ := link_enterState (st := 3) wide (.inr (.inl (by omega)))
    refine ⟨_, _, execLinkEqualiseDone_of_width hl state width, (State.link_of_links (by simp [sendIdent, emit]) port).trans entered, rfl, rfl, ?_⟩
    have notUp : (Link.equalised l port w l).state ≠ 4 := by simp [Link.equalised, state]
    simp [sendIdent, emit, enterState_out wide notUp, recordTag]
  · intro port n l s hl state few
    obtain ⟨rr, entered⟩ := link_enterState (st := 7) hl (.inr (.inl (by omega)))
    refine ⟨enterState port 7 s, _, ?_, entered, rfl⟩
    simp [exec, execLinkEqualiseDone, hl, state, widthFor_eq_none few]
  · intro port l s hl state unplanned late
    obtain ⟨rr, entered⟩ := link_enterState (st := 8) hl (.inr (.inl (by omega)))
    refine ⟨enterState port 8 s, _, ?_, entered, rfl⟩
    simp [exec, execLinkStageTimeout, hl, state, unplanned, Nat.not_le.mpr late]
  · intro port l p s hl least most planned late
    obtain ⟨rr, entered⟩ := link_enterState (st := 0) hl (.inl (by omega))
    refine ⟨enterState port 0 s, _, ?_, entered, rfl⟩
    have stage : (l.state = 1 ∨ l.state = 2) ∨ l.state = 3 := by omega
    simp [exec, execLinkStageTimeout, hl, stage, planned, Nat.not_le.mpr late]
  · intro port r l p s hl state planned tag pkg peer
    have named := link_setLink_of_some hl (Link.named r) (by intro; rfl)
    dsimp only
    by_cases old : min Config.linkVersions.2 r.verMax < Config.linkVersions.1 ∨ min Config.linkVersions.2 r.verMax < r.verMin ∨
        min Config.linkVersions.2 r.verMax < versionFloor s
    · obtain ⟨x, hx, quarantined, -⟩ := link_quarantine named
      refine ⟨_, x, execIdentRecord_of_old hl state planned tag pkg peer old, hx, ?_⟩
      rwa [if_pos old]
    · have versioned := link_setLink_of_some named (fun x => { x with version := min Config.linkVersions.2 r.verMax }) (by intro; rfl)
      obtain ⟨rr, entered⟩ := link_enterState (st := 4) versioned (.inr (.inl (by omega)))
      refine ⟨_, _, execIdentRecord_of_known hl state planned tag pkg peer old, entered, ?_⟩
      rw [if_neg old]
      exact ⟨rfl, rfl, rfl, rfl⟩
  · intro port r l p s hl state planned differs
    obtain ⟨x, hx, quarantined, mismatch⟩ := link_quarantine (link_setLink_of_some hl (Link.named r) (by intro; rfl))
    exact ⟨_, x, execIdentRecord_of_differs hl state planned differs, hx, quarantined, mismatch⟩
  · intro port l s hl state
    rw [exec, execIdentResend, hl]
    exact if_pos (by simpa using state)
  · intro port l p s hl planned down noStandby
    obtain ⟨rr, entered⟩ := link_enterState (st := 1) hl (.inr (.inl (by omega)))
    refine ⟨enterState port 1 s, _, ?_, entered, rfl⟩
    simp [exec, execLinkRetry, hl, planned, down, noStandby]
  · intro port l s hl up apart
    obtain ⟨rr, entered⟩ := link_enterState (st := 0) hl (.inr (.inr apart))
    refine ⟨enterState port 0 s, _, ?_, entered, rfl, rfl, ?_, enterState_routesStale hl up (by omega), by simp, by simp⟩
    · simp [exec, execLinkDown, hl, up]
    · simp [Link.entered, up]
  · intro port l s hl global up apart
    obtain ⟨rr, entered⟩ := link_enterState (st := 0) hl (.inr (.inr apart))
    refine ⟨enterState port 0 s, _, ?_, entered, rfl, enterState_routesStale hl up (by omega)⟩
    simp [exec, execLaserFeedLoss, hl, up, global]
  · intro pkg port s foreign
    simp only [exec, execLinkStateRecord, if_neg foreign, if_true]
    refine ⟨_, rfl, ?_, ?_, ?_, fun known => ?_⟩
    · split <;> simp
    · split <;> simp
    · split <;> simp
    · rw [known, Option.map_some, if_pos rfl]
  · intro pkg port s foreign
    simp only [exec, execLinkStateRecord, if_neg foreign, Bool.false_eq_true, if_false]
    split <;> refine ⟨_, rfl, ?_⟩
    · rw [(startStandby_fab _ _).1, (startStandby_fab _ _).2, (refuseEntries_fab _ _ _).1, (refuseEntries_fab _ _ _).2]
      refine ⟨rfl, ?_⟩
      split <;> simp
    · rw [(refuseEntries_fab _ _ _).1, (refuseEntries_fab _ _ _).2]
      refine ⟨rfl, ?_⟩
      split <;> simp
  · intro b l s hl up waits due alone
    obtain ⟨x, hx, state, window⟩ := link_phase8 hl up waits due alone
    exact ⟨_, x, rfl, hx, state, window, by simp⟩

end

section
/-! The host commands of the fabric (R300, R305, R368). -/
namespace Sys2Proof.Machine
open Sys2Proof.Claims

theorem portRange_of_some {port : Nat} {l : Link} {s : State} (hl : s.link port = some l) (e : Session) : portRange port e s = none := by
  simp [portRange, badIf, hl]

theorem linkStateOf_of_some {port : Nat} {l : Link} {s : State} (hl : s.link port = some l) : linkStateOf s port = l.state := by
  simp [linkStateOf, hl]

@[simp] theorem link_reply (h : Hdr) (op st d : Nat) (r : List Byte) (s : State) (port : Nat) :
    (reply h op st d r s).link port = s.link port := State.link_of_links (by simp) port

@[simp] theorem link_accept (h : Hdr) (op : Nat) (r : List Byte) (s : State) (port : Nat) :
    (accept h op r s).link port = s.link port := State.link_of_links (by simp) port

theorem linkDisable_of_free {ans : Answer} {port : Nat} {l : Link} {s : State} (hl : s.link port = some l) (open_ : l.state ≠ 5)
    (kept : l.state ≠ 7) : linkDisable ans port s = ans stOk 0 (leBytes 1 6) (enterState port 6 s) := by
  simp [linkDisable, linkStateOf_of_some hl, open_, kept]

theorem linkDisable_of_barred {ans : Answer} {port : Nat} {l : Link} {s : State} (hl : s.link port = some l)
    (barred : l.state = 5 ∨ l.state = 7) : linkDisable ans port s = ans stConflict l.state [] s := by
  simp [linkDisable, linkStateOf_of_some hl, barred]

theorem linkEnable_of_disabled {ans : Answer} {port : Nat} {l : Link} {p : PlanLink} {s : State} (hl : s.link port = some l)
    (disabled : l.state = 6) (planned : planOf s port = some p) : linkEnable ans port s =
      ans stOk 0 (leBytes 1 (linkStateOf (enterState port 1 s) port)) (enterState port 1 s) := by
  simp [linkEnable, linkStateOf_of_some hl, disabled, planned]

theorem retrainRefusal_of_up {port : Nat} {l : Link} {s : State} (hl : s.link port = some l) (up : l.state = 4)
    (idle : l.retrainReply = none) : retrainRefusal s port = none := by
  simp [retrainRefusal, linkStateOf_of_some hl, up, hl, idle]

end Sys2Proof.Machine
end

section
open Sys2Proof Sys2Proof.Machine Sys2Proof.Claims

/-- Settles O17. -/
theorem fabricHostCommands : Obligations.FabricHostCommands := by
  refine ⟨?_, ?_, ?_, ?_, ?_, ?_, ?_, ?_⟩
  · intro h e s served
    exact hosted_of_served served rfl _
  · intro h w bs e s served window
    rw [exec, execPlanLoad, hosted_of_served served rfl, window]
    rfl
  · intro h w bs e s served window
    rw [exec, execPlanLoad, hosted_of_served served rfl, window]
    rfl
  · intro h port l e s served hl
    rw [exec, execLinkCtlQuery, hosted_of_served served (portRange_of_some hl e), linkStateOf_of_some hl]
  · intro h port l e s served hl open_ kept
    obtain ⟨rr, entered⟩ := link_enterState (st := 6) hl (.inr (.inl (by omega)))
    rw [exec, execLinkCtlDisable, hosted_of_served served (portRange_of_some hl e), linkDisable_of_free hl open_ kept]
    exact ⟨_, _, rfl, (link_reply ..).trans entered, rfl⟩
  · intro h port l e s served hl barred
    rw [exec, execLinkCtlDisable, hosted_of_served served (portRange_of_some hl e), linkDisable_of_barred hl barred]
    rfl
  · intro h port l p e s served hl disabled planned
    obtain ⟨rr, entered⟩ := link_enterState (st := 1) hl (.inr (.inl (by omega)))
    rw [exec, execLinkCtlEnable, hosted_of_served served (portRange_of_some hl e), linkEnable_of_disabled hl disabled planned]
    exact ⟨_, _, rfl, (link_reply ..).trans entered, rfl⟩
  · intro h port beat l e s served hl up idle later
    have hl' : (accept h 0x0503 [] s).link port = some l := (link_accept ..).trans hl
    rw [exec, execLinkCtlRetrain, hosted_of_served served (portRange_of_some hl e), retrainRefusal_of_up hl up idle, later]
    exact ⟨_, _, rfl, link_setLink_of_some hl' _ (by intro; rfl), up, rfl, rfl⟩

end

section
/-! Findings and suspicion (R85, R426, R429 to R431): a station table with two entries for one Frond. The statement about the takeover
takes the spare before the Frond's names are cleared; clearing them makes the second entry the lowest spare. -/
namespace Sys2Proof.Machine
open Sys2Proof.Claims

/-- An entry of the station table for a Frond of die 0. -/
def frondEntry (num : Nat) (names : List Nat) (state : Nat) : StnSt := { StnSt.zero 0 0 num with names := names, state := state }

/-- Frond 0 of die 0 is suspect and stands in the table twice, the second time as a spare that carries a name; Frond 2 is the spare. -/
def twiceListed : State :=
  { State.reset with
    hlth := { State.reset.hlth with suspicions := [.station 0 0 0] }
    stns := { State.reset.stns with stns := [frondEntry 0 [7] 2, frondEntry 0 [5] 1, frondEntry 2 [] 1] } }

theorem spareFrond_twiceListed : spareFrond twiceListed 0 = some 2 := by decide +kernel

theorem stnOf_twiceListed : stnOf twiceListed 0 0 0 = some (frondEntry 0 [7] 2) := by decide +kernel

/-- The spare of before is still one after the takeover: the second entry has taken the name. -/
theorem stnOf_takeover_twiceListed : (match exec (.takeover (.station 0 0 0) 0) twiceListed with
    | .next t => stnOf t 0 0 2
    | _ => none) = some (frondEntry 2 [] 1) := by decide +kernel

end Sys2Proof.Machine
end

section
open Sys2Proof Sys2Proof.Machine Sys2Proof.Claims

/-- Refutes O18: with a Frond that stands in the station table twice, the takeover gives its name to the second entry and not to the
spare that was the lowest one before. -/
theorem not_findingsAndSuspicion : ¬ Obligations.FindingsAndSuspicion := by
  intro holds
  obtain ⟨-, -, -, takeover, -⟩ := holds
  obtain ⟨t, y, taken, -, found, names, -⟩ :=
    takeover 0 0 7 2 0 [] _ twiceListed rfl stnOf_twiceListed rfl rfl spareFrond_twiceListed
  have left := stnOf_takeover_twiceListed
  rw [taken] at left
  cases Option.some.inj (found.symm.trans left)
  cases names

end

section
/-! Control-core pairs (R434), migrated channels (R271) and the beat shadows (R435). -/
namespace Sys2Proof.Machine
open Sys2Proof.Claims

/-! ### A pair whose cores disagree -/

section
variable {p : Nat} {s : State}

theorem suspectUnit_pair (unmarked : unitMarked s (.pair p) = false) (f : Finding) (hard : Bool) :
    (suspectUnit (.pair p) f hard s).hlth.pairs = updAt p (fun _ => 3) s.hlth.pairs ∧
    (suspectUnit (.pair p) f hard s).hlth.suspicions = s.hlth.suspicions ++ [.pair p] ∧
    (suspectUnit (.pair p) f hard s).jobs = s.jobs ∧ (suspectUnit (.pair p) f hard s).mem = s.mem ∧
    (suspectUnit (.pair p) f hard s).boot = s.boot := by
  simp [suspectUnit, unmarked, loseTaker, setUnit, haltPair, mapWrite]

theorem chargeFinding_lockstep {x : UnitSt} (hx : s.hlth.units.find? (fun e => e.unit = .pair p) = some x) (serves : x.status < 2) :
    ∃ us, chargeFinding (.pair p) .lockstep s =
      suspectUnit (.pair p) .lockstep true { s with hlth := { s.hlth with units := us } } := by
  have weight : findingWeight (classOf (.pair p)) .lockstep = some (0, true) := rfl
  have inService : unitOut s (.pair p) = false := by simp [unitOut, hx, serves]
  simp only [chargeFinding, weight, noteFinding, inService, setUnit]
  exact ⟨_, rfl⟩

end

/-! ### Roles of the pairs -/

theorem mem_set_of_findIdx {a b c : Nat} (h : a ≠ b) {ps : List Nat} {i : Nat} (hi : ps.findIdx? (fun x => x = b) = some i) (ha : a ∈ ps) :
    a ∈ ps.set i c := by
  obtain ⟨k, hk⟩ := List.mem_iff_getElem?.mp ha
  have other : i ≠ k := fun same => by
    obtain ⟨hlt, hb, -⟩ := List.findIdx?_eq_some_iff_getElem.mp hi
    rw [← same, List.getElem?_eq_getElem hlt, Option.some.injEq] at hk
    exact h (hk.symm.trans (of_decide_eq_true hb))
  exact List.mem_iff_getElem?.mpr ⟨k, by rw [List.getElem?_set_ne other, hk]⟩

/-- A standby pair takes a role that nobody carries; with none the pairs with a role carry both. -/
def takeRole (r : Nat) (ps : List Nat) : List Nat :=
  if ps.contains r || ps.contains 4 then ps
  else match ps.findIdx? fun x => x = 2 with
    | some i => ps.set i r
    | none => ps.map fun x => if x < 2 then 4 else x

theorem takeRole_zero {ps : List Nat} (standby : 2 ∈ ps) : 0 ∈ takeRole 0 ps ∨ 4 ∈ takeRole 0 ps := by
  unfold takeRole
  split
  next has => simpa using has
  next =>
    split
    next i hi =>
      obtain ⟨hlt, -⟩ := List.findIdx?_eq_some_iff_getElem.mp hi
      exact .inl (List.mem_set hlt 0)
    next none_ => exact absurd (List.findIdx?_eq_none_iff.mp none_ 2 standby) (by decide)

theorem takeRole_one {ps : List Nat} (h : 0 ∈ ps ∨ 4 ∈ ps) : 0 ∈ takeRole 1 ps ∨ 4 ∈ takeRole 1 ps := by
  unfold takeRole
  split
  · exact h
  · split
    next i hi => exact h.imp (mem_set_of_findIdx (by decide) hi) (mem_set_of_findIdx (by decide) hi)
    next =>
      rcases h with zero | both
      · exact .inr (List.mem_map.mpr ⟨0, zero, rfl⟩)
      · exact .inr (List.mem_map.mpr ⟨4, both, rfl⟩)

theorem resumeRoles_eq (ps : List Nat) : resumeRoles ps =
    if (takeRole 1 (takeRole 0 ps)).contains 4 then
      match (takeRole 1 (takeRole 0 ps)).findIdx? fun x => x = 2 with
      | some i => ((takeRole 1 (takeRole 0 ps)).map fun x => if x = 4 then 0 else x).set i 1
      | none => takeRole 1 (takeRole 0 ps)
    else takeRole 1 (takeRole 0 ps) := rfl

/-- With a standby pair somebody carries role 0. -/
theorem resumeRoles_carried {ps : List Nat} (standby : 2 ∈ ps) : 0 ∈ resumeRoles ps ∨ 4 ∈ resumeRoles ps := by
  have taken := takeRole_one (takeRole_zero standby)
  rw [resumeRoles_eq]
  generalize takeRole 1 (takeRole 0 ps) = qs at taken ⊢
  split
  next has =>
    have both : 4 ∈ qs := List.contains_iff_mem.mp has
    split
    next i hi =>
      have mapped : (qs.map fun x => if x = 4 then 0 else x).findIdx? (fun x => x = 2) = some i := by
        rw [List.findIdx?_map, ← hi]
        congr 1
        funext x
        simp only [Function.comp_apply]
        split <;> simp_all
      exact .inl (mem_set_of_findIdx (by decide) mapped (List.mem_map.mpr ⟨4, both, rfl⟩))
    next => exact .inr both
  next => exact taken

/-! ### Channels and shadows -/

theorem exec_beatShadowCheck_beat (counts : List Nat) (s : State) : ∃ t, exec (.beatShadowCheck counts) s = .next t ∧
    t.beat.count = s.beat.count ∧
    t.beat.shadowFix = s.beat.shadowFix.zipIdx.map fun (x, d) => x || decide (counts.getD d s.now ≠ s.now) := by
  refine ⟨_, rfl, ?_, ?_⟩
  · dsimp only
    rw [foldl_keeps (fun s => s.beat) _ (by intro s d; split <;> rfl)]
  · dsimp only
    rw [foldl_keeps (fun s => s.beat) _ (by intro s d; split <;> rfl)]

end Sys2Proof.Machine
end

section
open Sys2Proof Sys2Proof.Machine Sys2Proof.Claims

/-- Settles O19. -/
theorem pairsChannelsAndShadows : Obligations.PairsChannelsAndShadows := by
  refine ⟨?_, fun s => rfl, fun ps => resumeRoles_carried, ?_, ?_, ?_⟩
  · intro p x s hx serves unmarked idle
    obtain ⟨us, charged⟩ := chargeFinding_lockstep hx serves
    obtain ⟨pairs, suspicions, jobs, mem, boot⟩ :=
      suspectUnit_pair (p := p) (s := { s with hlth := { s.hlth with units := us } }) unmarked .lockstep true
    have noUpdate : abandonUpdate (chargeFinding (.pair p) .lockstep s) = chargeFinding (.pair p) .lockstep s := by
      rw [charged, abandonUpdate, boot, idle]
    refine ⟨_, rfl, ?_⟩
    rw [noUpdate, charged]
    exact ⟨pairs, suspicions, jobs, mem⟩
  · intro channel c s hc state
    rw [exec, execMigrationComplete, if_pos rfl]
    simp only [updAt_of_getElem? hc, if_pos state]
  · intro counts d s _ hd off
    obtain ⟨t, ht, count, fix⟩ := exec_beatShadowCheck_beat counts s
    refine ⟨t, ht, ?_, count⟩
    rw [fix, List.getD_eq_getElem?_getD, List.getElem?_map, List.getElem?_zipIdx, List.getElem?_eq_getElem hd]
    simp only [Option.map_some, Nat.zero_add, Option.getD_some, decide_eq_true off, Bool.or_true]
  · intro h e s served
    rw [exec, execHealthQuery, hosted_of_served served rfl]

end

section
/-! What stands after a reset (R288, R453, R458, R466, R500, R501), and that no record enters the retirement map. -/
namespace Sys2Proof.Machine
open Sys2Proof.Claims

/-! ### Records leave the retirement map alone -/

@[simp] theorem enterRec_map (e : Rec) (s : State) : (enterRec e s).flash.map = s.flash.map := by
  have new (e : Rec) : (enterRec.enterNew e s).flash.map = s.flash.map := rfl
  unfold enterRec
  dsimp only
  (repeat' split)
  · rfl
  · rfl
  · exact new e
  · exact new e

@[simp] theorem record_map (type sev source : Nat) (bs : List Byte) (s : State) : (record type sev source bs s).flash.map = s.flash.map := by
  unfold record
  dsimp only
  (repeat' split) <;> simp

@[simp] theorem enterHeld_map (e : Rec) (s : State) : (enterHeld e s).flash.map = s.flash.map := by
  rw [enterHeld, enterRec_map]

@[simp] theorem endFreeze_map (s : State) : (endFreeze s).flash.map = s.flash.map := by
  have held (es : List Rec) (s : State) : (es.foldl (fun s e => enterHeld e s) s).flash.map = s.flash.map :=
    foldl_keeps (fun s => s.flash.map) _ (fun s e => enterHeld_map e s) es s
  unfold endFreeze
  dsimp only
  (repeat' split) <;> simp [held]

/-! ### A warm reset -/

theorem warmActsAsPor_of_late {s : State} (late : 4 ≤ s.boot.stage) (before : s.boot.stage ≤ 6) : warmActsAsPor s = false := by
  have notEarly : ¬ s.boot.stage < 4 := by omega
  have notHalted : s.boot.stage ≠ 15 := by omega
  have notGiven : s.boot.stage ≠ 8 := by omega
  simp [warmActsAsPor, notEarly, notHalted, notGiven]

theorem warmReset_of_late {s : State} (powered : Powered s) (late : 4 ≤ s.boot.stage) (before : s.boot.stage ≤ 6) (kind : Nat) :
    warmReset kind s = enterRefresh kind s := by
  obtain ⟨released, good⟩ := powered
  have notInRefresh : s.boot.stage ≠ 9 := by omega
  simp [warmReset, released, good, notInRefresh, warmActsAsPor_of_late late before]

section
variable (kind : Nat) (s : State)

theorem enterRefresh_boot : (enterRefresh kind s).boot.stage = 9 ∧ (enterRefresh kind s).boot.resetKind = kind := ⟨rfl, rfl⟩

theorem enterRefresh_ends : (enterRefresh kind s).net.sessions = [] ∧ (enterRefresh kind s).jobs.cmds = [] ∧
    (enterRefresh kind s).jobs.ctxs = [] := ⟨rfl, rfl, rfl⟩

theorem enterRefresh_mem : (enterRefresh kind s).mem.cells = s.mem.cells ∧ (enterRefresh kind s).mem.undef = s.mem.undef := by
  have cells : (enterRefresh kind s).mem.cells = (endFreeze s).mem.cells := rfl
  have undef : (enterRefresh kind s).mem.undef = (endFreeze s).mem.undef := rfl
  rw [cells, undef]
  simp

theorem enterRefresh_beat {s : State} (clock : s.beat.clkHold = false) : (enterRefresh kind s).beat.count = s.beat.count ∧
    (enterRefresh kind s).beat.aligned = s.beat.aligned := by
  have kept : (enterRefresh kind s).beat = s.beat.kept := congrArg BeatSt.kept (endFreeze_keeps s).1
  rw [kept, BeatSt.kept, if_neg (by rw [clock]; exact Bool.false_ne_true)]
  exact ⟨rfl, rfl⟩

theorem enterRefresh_flash : (enterRefresh kind s).flash.counters = s.flash.counters ∧ (enterRefresh kind s).flash.map = s.flash.map ∧
    (enterRefresh kind s).pending = s.pending := by
  have flash : (enterRefresh kind s).flash = (endFreeze s).flash := rfl
  have pending : (enterRefresh kind s).pending = (endFreeze s).pending := rfl
  rw [flash, pending]
  simp

end

/-! ### The values after a power-on reset -/

theorem readByte_zero (a : Nat) : MemSt.zero.readByte a = 0#8 := rfl

end Sys2Proof.Machine
end

section
open Sys2Proof Sys2Proof.Machine Sys2Proof.Claims

/-- Settles O20. -/
theorem resetState : Obligations.ResetState :=
  ⟨by decide, readByte_zero, rfl, rfl, rfl, rfl, rfl, rfl, rfl, rfl, rfl, rfl, rfl, rfl, rfl, rfl, rfl, rfl, rfl⟩

/-- Settles O21. -/
theorem resetsKeepWhatTheyShould : Obligations.ResetsKeepWhatTheyShould := by
  refine ⟨?_, ?_, ?_, ?_, ?_, ?_, ?_, ?_⟩
  · exact fun s => ⟨_, rfl, rfl, rfl, rfl, rfl, rfl, rfl, rfl, rfl, rfl⟩
  · exact fun us s short => if_pos short
  · exact fun us s long => ⟨_, if_neg (Nat.not_lt.mpr long), rfl, rfl, rfl, rfl⟩
  · exact fun s => ⟨_, rfl, rfl, rfl, rfl⟩
  · intro s powered late before clock
    obtain ⟨cells, undef⟩ := enterRefresh_mem 1 s
    obtain ⟨count, aligned⟩ := enterRefresh_beat 1 clock
    obtain ⟨counters, map, pending⟩ := enterRefresh_flash 1 s
    refine ⟨enterRefresh 1 s, ?_, rfl, rfl, rfl, cells, undef, count, aligned, rfl, rfl, rfl, counters, map, pending⟩
    rw [exec, execWarmResetAssert, warmReset_of_late powered late before]
  · intro h e s served powered
    obtain ⟨ready, -, -, -, -, noSorus, -⟩ := id served
    have inRange : badIf (h.sorus ≠ 0) = none := by simp [badIf, noSorus]
    obtain ⟨cells, -⟩ := enterRefresh_mem 2 (replyOk h 0x0A05 [] s)
    refine ⟨enterRefresh 2 (replyOk h 0x0A05 [] s), ?_, rfl, rfl, cells.trans (by simp), rfl⟩
    rw [exec, execResetWarm, hosted_of_served served inRange, warmReset_of_late (by simpa [Powered] using powered) (by simp [ready]) (by simp [ready])]
  · exact fun s refresh => if_pos refresh
  · exact fun s other => if_neg other

end

section
/-! The stages of a start (R458 to R461). -/
namespace Sys2Proof.Machine
open Sys2Proof.Claims

section
variable {inp : StageInput} {s : State}

theorem execBootStageComplete_ok (powered : Powered s) (ok : inp.result = .ok) : execBootStageComplete inp s =
    if s.boot.stage = 1 then .next (endRom inp s)
    else if s.boot.stage = 2 then .next (endStage1 inp s)
    else if s.boot.stage = 3 then .next (endMemory inp s)
    else if s.boot.stage = 4 then .next (endLimcel inp (takePending s))
    else if s.boot.stage = 5 then .next (endLinks inp s)
    else .next s := by
  obtain ⟨released, good⟩ := powered
  simp only [execBootStageComplete, released, good, ok]
  rfl

theorem execBootStageComplete_failed {code : Nat} (powered : Powered s) (failed : inp.result = .failed code) (given : code ≠ 0)
    (mine : failedStage code = s.boot.stage) : execBootStageComplete inp s =
      if s.boot.stage = 4 then .next (waitPlan code (takePending s)) else .next (halt code s) := by
  obtain ⟨released, good⟩ := powered
  have answered : ¬ (decide (failedStage code ≠ s.boot.stage) || decide (code = 0)) = true := by simp [mine, given]
  simp only [execBootStageComplete, released, good, failed, if_neg answered]
  rfl

theorem endRom_leads : (endRom inp s).boot.stage = 2 ∧ (endRom inp s).flash = s.flash ∨
    (endRom inp s).boot.stage = 15 ∧ (endRom inp s).boot.error = 1 ∧ (endRom inp s).pins.alert = true := by
  unfold endRom
  split
  · exact .inr ⟨rfl, rfl, rfl⟩
  · exact .inl ⟨rfl, rfl⟩

/-- READY raises the counters of the images that run to their security versions. -/
theorem endLinks_counters : s.flash.counters.stage1 ≤ (endLinks inp s).flash.counters.stage1 ∧
    hSecVersion s.boot.s1Header ≤ (endLinks inp s).flash.counters.stage1 ∧
    s.flash.counters.limcel ≤ (endLinks inp s).flash.counters.limcel ∧
    hSecVersion s.boot.lcHeader ≤ (endLinks inp s).flash.counters.limcel := by
  have counters (us : List HwUnit) : (us.foldl (testedAtStart inp.failedUnits) s).flash.counters = s.flash.counters :=
    foldl_keeps (fun s => s.flash.counters) _ (by intro s u; simp) us s
  have boot (us : List HwUnit) : (us.foldl (testedAtStart inp.failedUnits) s).boot = s.boot :=
    foldl_keeps State.boot _ (by intro s u; simp) us s
  simp only [endLinks, raiseCounters, counters, boot]
  exact ⟨le_max_left _ _, le_max_right _ _, le_max_left _ _, le_max_right _ _⟩

theorem halt_ports (code : Nat) (s : State) : ∀ l ∈ (halt code s).fab.links, l.state = 0 := by
  simp [halt]

end

end Sys2Proof.Machine
end

section
open Sys2Proof Sys2Proof.Machine Sys2Proof.Claims

/-- Settles O22. -/
theorem bootStagesFollow : Obligations.BootStagesFollow := by
  refine ⟨?_, ?_, ?_, ?_⟩
  · intro inp s powered ok stage
    exact ⟨_, by rw [exec, execBootStageComplete_ok powered ok, if_pos stage], endRom_leads⟩
  · intro inp s powered ok stage
    refine ⟨endLinks inp s, ?_, rfl, rfl, endLinks_counters⟩
    rw [exec, execBootStageComplete_ok powered ok, stage]
    rfl
  · intro inp code s powered failed given mine notLimcel
    refine ⟨halt code s, ?_, rfl, rfl, rfl, rfl, halt_ports code s⟩
    rw [exec, execBootStageComplete_failed powered failed given mine, if_neg notLimcel]
  · intro inp code s powered failed code89 stage
    have given : code ≠ 0 := by omega
    have mine : failedStage code = s.boot.stage := by
      rcases code89 with rfl | rfl <;> rw [stage] <;> rfl
    refine ⟨waitPlan code (takePending s), ?_, rfl, rfl⟩
    rw [exec, execBootStageComplete_failed powered failed given mine, if_pos stage]

end

section
/-! The mailbox (R461, R468, R479), identity (R462 to R464) and the test port (R510, R511). -/
namespace Sys2Proof.Machine
open Sys2Proof.Claims

/-! ### The mailbox -/

theorem layBytes_drop (buf : List Byte) (off : Nat) (data : List Byte) :
    (layBytes buf off data).drop off = data ++ buf.drop (off + data.length) := by
  have length : (padTo off (buf.take off)).length = off := by
    simp [padTo]
  rw [layBytes, List.append_assoc, List.drop_append_of_le_length (Nat.le_of_eq length.symm), List.drop_of_length_le (Nat.le_of_eq length),
    List.nil_append]

theorem execMacsecKey_of_answers {port : Nat} {cak ckn : List Byte} {s : State} (answers : mailboxAnswers s = true) :
    execMacsecKey port cak ckn s =
      if 2 ≤ port || !macsecOn s port then .next (mailbox 1 3 (leBytes 1 port ++ cak ++ ckn) s)
      else .next (mailbox 1 2 (leBytes 1 port ++ cak ++ ckn) { s with boot := { s.boot with
        macsecWait := updAt port (fun _ => false) s.boot.macsecWait
        macsecKeys := (port, cak, ckn) :: s.boot.macsecKeys.filter fun k => k.1 ≠ port } }) := by
  rw [execMacsecKey, answers]
  rfl

/-- The commands and requests end as a package shuts down. -/
def shutWork (s : State) : State :=
  (((s.jobs.cmds.filter fun c => c.phase ≠ .waiting).foldl (fun s c => endCmd c.id stCancelled s) s).serve.reqs.filter fun r =>
    !finalState r.state).foldl (fun s r => endRequest r.id 0x11 stCancelled s)
      ((s.jobs.cmds.filter fun c => c.phase ≠ .waiting).foldl (fun s c => endCmd c.id stCancelled s) s)

theorem execShutdown_of_running {s : State} (answers : mailboxAnswers s = true) (late : 4 ≤ s.boot.stage) (before : s.boot.stage ≤ 6) :
    execShutdown s = .next (mailbox 2 2 [] { darken (mirrorNow (shutWork s)) with
      boot := { (darken (mirrorNow (shutWork s))).boot with stage := 8 } }) := by
  have notOff : s.boot.stage ≠ 8 := by omega
  rw [execShutdown, answers]
  simp only [notOff, late, before, decide_true, Bool.and_true, Bool.not_true, Bool.false_eq_true, if_false, if_true]
  rfl

theorem shutWork_keeps (s : State) : (shutWork s).mem.cells = s.mem.cells ∧ (shutWork s).flash = s.flash := by
  have cmds (cs : List Cmd) : (cs.foldl (fun s c => endCmd c.id stCancelled s) s).mem.cells = s.mem.cells ∧
      (cs.foldl (fun s c => endCmd c.id stCancelled s) s).flash = s.flash := by simp
  constructor
  · exact (foldl_keeps (fun s => s.mem.cells) _ (by intro s r; simp) _ _).trans (cmds _).1
  · exact (foldl_keeps State.flash _ (by intro s r; simp) _ _).trans (cmds _).2

theorem darken_ports (s : State) : ∀ l ∈ (darken s).fab.links, l.state = 0 := by
  simp [darken]

theorem execInstallChunk_of_fits {offset : Nat} {data : List Byte} {s : State} (answers : mailboxAnswers s = true) (waits : s.boot.stage = 7)
    (short : data.length ≤ 56) (fits : offset + data.length ≤ 1048576) : execInstallChunk offset data s =
      .next (mailbox 3 2 (leBytes 4 offset ++ leBytes 2 data.length ++ data)
        { s with boot := { s.boot with installBuf := layBytes s.boot.installBuf offset data } }) := by
  have room : ¬ (decide (s.boot.stage ≠ 7) || decide (56 < data.length) || decide (1048576 < offset + data.length)) = true := by
    simp [waits, short, fits]
  rw [execInstallChunk, answers]
  exact if_neg room

theorem execInstallChunk_of_elsewhere {offset : Nat} {data : List Byte} {s : State} (answers : mailboxAnswers s = true)
    (elsewhere : s.boot.stage ≠ 7) : execInstallChunk offset data s =
      .next (mailbox 3 3 (leBytes 4 offset ++ leBytes 2 data.length ++ data) s) := by
  have refused : (decide (s.boot.stage ≠ 7) || decide (56 < data.length) || decide (1048576 < offset + data.length)) = true := by
    simp [elsewhere]
  rw [execInstallChunk, answers]
  exact if_pos refused

theorem execInstallCommit_unsigned {total : Nat} {s : State} (answers : mailboxAnswers s = true) :
    execInstallCommit total false s = .next (mailbox 4 3 (leBytes 4 total) s) := by
  have refused : (decide (s.boot.stage ≠ 7) || decide ((s.boot.installBuf.take total).length ≠ total) || !false ||
      !recordVerifies s (s.boot.installBuf.take total)) = true := by simp
  rw [execInstallCommit, answers]
  exact if_pos refused

theorem execInstallCommit_signed {total : Nat} {s : State} (answers : mailboxAnswers s = true) (waits : s.boot.stage = 7)
    (whole : total = s.boot.installBuf.length) : execInstallCommit total true s =
      if recordVerifies s s.boot.installBuf = true then
        match readInstall s s.boot.installBuf with
        | none => .next (mailbox 4 3 (leBytes 4 total) s)
        | some r =>
          if !planSound r || r.secVersion < s.flash.counters.install || (r.device ≠ 0 && r.device ≠ s.flash.serial) then
            .next (mailbox 4 3 (leBytes 4 total) s)
          else .next (mailbox 4 2 (leBytes 4 total) { s with
            flash := { s.flash with install := some r, installHeader := s.boot.installBuf.take 128 }
            boot := { s.boot with stage := 4, installBuf := [] } })
      else .next (mailbox 4 3 (leBytes 4 total) s) := by
  have all : s.boot.installBuf.take total = s.boot.installBuf := by rw [whole, List.take_length]
  have checks : (decide (s.boot.stage ≠ 7) || decide (s.boot.installBuf.length ≠ total) || !true ||
      !recordVerifies s s.boot.installBuf) = !recordVerifies s s.boot.installBuf := by simp [waits, whole]
  rw [execInstallCommit, answers, all]
  dsimp only
  rw [checks]
  cases recordVerifies s s.boot.installBuf <;> rfl

/-! ### The test port and RESET of stations -/

theorem execJtagInstruction_bypass {op : JtagOp} {s : State} (released : s.pins.porLow = false)
    (outside : op = .extest ∨ op = .clamp ∨ op = .highz) :
    execJtagInstruction op s = .next (emit (.testPort .bypass none) { s with pins := { s.pins with jtag := .bypass } }) := by
  rcases outside with rfl | rfl | rfl <;> simp [execJtagInstruction, released]

theorem resetRefusal_eq_none {s : State} {p : Nat} {cs : List Nat} (h : ∀ c ∈ cs, ctxRefusal s p c = none) : resetRefusal s p cs = none :=
  List.findSome?_eq_none_iff.mpr h

end Sys2Proof.Machine
end

section
open Sys2Proof Sys2Proof.Machine Sys2Proof.Claims

/-- Settles O23. -/
theorem mailboxAndIdentity : Obligations.MailboxAndIdentity := by
  refine ⟨?_, ?_, ?_, ?_, ?_, ?_, ?_, ?_, ?_, ?_, ?_, ?_, ?_⟩
  · intro port cak ckn s answers known enabled
    have mine : ¬ (decide (2 ≤ port) || !macsecOn s port) = true := by simp [known, enabled]
    exact ⟨_, (execMacsecKey_of_answers answers).trans (if_neg mine), rfl, rfl, rfl, rfl⟩
  · intro port cak ckn s answers other
    have refused : (decide (2 ≤ port) || !macsecOn s port) = true := by simpa using other
    exact ⟨_, (execMacsecKey_of_answers answers).trans (if_pos refused), rfl, rfl, rfl⟩
  · intro s answers late before
    obtain ⟨cells, flash⟩ := shutWork_keeps s
    refine ⟨_, execShutdown_of_running answers late before, rfl, rfl, rfl, darken_ports _, ?_, ?_⟩
    · simpa [mailbox] using cells
    · simp [mailbox, flash]
  · intro offset data s answers waits short fits
    exact ⟨_, execInstallChunk_of_fits answers waits short fits, rfl, layBytes_drop _ offset data, rfl⟩
  · intro offset data s answers elsewhere
    exact ⟨_, execInstallChunk_of_elsewhere answers elsewhere, rfl, rfl⟩
  · intro total s answers waits whole
    rw [exec, execInstallCommit_signed answers waits whole]
    split
    · cases readInstall s s.boot.installBuf with
      | none => rfl
      | some r =>
        simp only [Bool.or_eq_true, Bool.and_eq_true, Bool.not_eq_true', decide_eq_true_eq, or_assoc]
        split <;> rfl
    · rfl
  · exact fun total s => execInstallCommit_unsigned
  · intro h m e s served
    exact hosted_of_served served rfl _
  · intro h o n e s served least most
    have inRange : badIf (decide (0 ≠ 0) || decide (n = 0) || decide (4096 < n)) = none := by
      rw [decide_eq_false (by omega), decide_eq_false (by omega), decide_eq_false (Nat.not_lt.mpr most)]
      rfl
    rw [exec, execCertRead, hosted_of_served served inRange]
  · intro h slot o n e s served other
    have refused : badIf (decide (slot ≠ 0) || decide (n = 0) || decide (4096 < n)) = some (0x0013, 0) := by
      rw [decide_eq_true other]
      rfl
    rw [exec, execCertRead, hosted_of_refused served refused]
  · exact fun s => rfl
  · exact fun op s => execJtagInstruction_bypass
  · intro h cs e s served known
    obtain ⟨-, -, -, -, -, noSorus, -⟩ := id served
    have free := resetRefusal_eq_none known
    have inRange : (if h.sorus = 0 then resetRefusal s e.principal cs else badIf (cs.any fun c => decide (63 < c))) = none := by
      rw [if_pos noSorus, free]
    rw [exec, execResetStations, hosted_of_served served inRange, resetCommit, free]
    rfl

end

section
/-! Live firmware update (R473 to R476). -/
namespace Sys2Proof.Machine
open Sys2Proof.Claims

/-- A field of a header lies in the header. -/
theorem leAt_take {off size n : Nat} (h : off + size ≤ n) (bs : List Byte) : leAt (bs.take n) off size = leAt bs off size := by
  rw [leAt, leAt, List.drop_take, List.take_take, Nat.min_eq_left (by omega)]

theorem hKind_take (bs : List Byte) : hKind (bs.take 128) = hKind bs := leAt_take (by decide) bs

theorem fwRefusal_unsigned {s : State} {bs : List Byte} {discard : Bool} (kind : hKind bs = 1 ∨ hKind bs = 2) :
    fwRefusal s bs false discard = some (stSignature, 0) := by
  have known : (decide (hKind bs ≠ 1) && decide (hKind bs ≠ 2)) = false := by
    rcases kind with h | h <;> rw [h] <;> rfl
  rw [fwRefusal, known]
  rfl

theorem activateFwRefusal_of_ready {s : State} {beat : Nat} (staged : s.flash.staged = true) (standby : 2 ∈ s.hlth.pairs)
    (later : beatBefore beat (beatAdd s.now 100000) = false) (idle : s.boot.activation = none) (noSori : s.sori.sori = []) :
    activateFwRefusal s beat = none := by
  simp [activateFwRefusal, staged, standby, later, idle, noSori]

theorem activateFwRefusal_of_not_staged {s : State} {beat : Nat} (staged : s.flash.staged = false) :
    activateFwRefusal s beat = some (stConflict, 0x51) := by
  simp [activateFwRefusal, staged]

/-- The package with the staged image running from its slot, after a takeover by the pair `k`. -/
theorem execFwTakeover_of_standby {pauseNs k : Nat} {a : Activation} {s : State} (ha : s.boot.activation = some a)
    (due : beatBefore s.now a.beat = false) (standby : s.hlth.pairs.findIdx? (fun r => r = 2) = some k) :
    ∃ old u, execFwTakeover pauseNs s = .next (finish a.session a.tag 0x0A02 stOk 0 (leBytes 4 pauseNs) u) ∧
      u = { s with
        hlth := { s.hlth with pairs := (s.hlth.pairs.map fun _ => 3).set k 4 }
        boot := { s.boot with
          activation := none
          lcSlot := 1 - s.boot.lcSlot
          lcHeader := s.flash.limcel.getD (1 - s.boot.lcSlot) []
          reloading := old
          pauseUntil := some (beatAdd a.beat ((pauseNs + 999) / 1000)) }
        flash := { s.flash with
          bootLc := 1 - s.boot.lcSlot
          staged := false
          counters := { s.flash.counters with
            limcel := max s.flash.counters.limcel (hSecVersion (s.flash.limcel.getD (1 - s.boot.lcSlot) [])) } } } := by
  simp only [execFwTakeover, ha, due, standby, Bool.false_eq_true, if_false]
  exact ⟨_, _, rfl, rfl⟩

theorem getElem?_set_of_findIdx? {ps : List Nat} {k : Nat} (h : ps.findIdx? (fun r => r = 2) = some k) :
    ((ps.map fun _ => 3).set k 4)[k]? = some 4 := by
  obtain ⟨hlt, -⟩ := List.findIdx?_eq_some_iff_getElem.mp h
  rw [List.getElem?_set_self (by rwa [List.length_map])]

end Sys2Proof.Machine
end

section
open Sys2Proof Sys2Proof.Machine Sys2Proof.Claims

/-- Settles O24. -/
theorem firmwareUpdate : Obligations.FirmwareUpdate := by
  refine ⟨?_, ?_, ?_, ?_, ?_, ?_⟩
  · intro h w bs e s served window free kind
    have limcel : hKind (bs.take 128) ≠ 1 := by rw [hKind_take, kind]; decide
    rw [exec, execFwStage, hosted_of_served served rfl]
    simp only [window, free, if_neg limcel]
  · intro h w bs e s served window kind
    rw [exec, execFwStage, hosted_of_served served rfl]
    simp only [window, fwRefusal_unsigned kind]
    rfl
  · intro h beat e s served staged standby later idle noSori
    rw [exec, execFwActivate, hosted_of_served served rfl, activateFwRefusal_of_ready staged standby later idle noSori]
    refine ⟨_, rfl, ?_⟩
    simp
  · intro h beat e s served staged
    rw [exec, execFwActivate, hosted_of_served served rfl, activateFwRefusal_of_not_staged staged]
    rfl
  · intro pauseNs k a s ha due standby
    obtain ⟨old, u, taken, hu⟩ := execFwTakeover_of_standby (pauseNs := pauseNs) ha due standby
    refine ⟨_, taken, ?_⟩
    simp only [finish_keeps, hu]
    exact ⟨trivial, trivial, trivial, trivial, getElem?_set_of_findIdx? standby, le_max_left _ _, trivial, trivial⟩
  · intro p s reloading
    refine ⟨_, if_pos (List.contains_iff_mem.mpr reloading), ?_, rfl⟩
    simp

end

section
/-! A command that runs as a sorus of its own (R377), and models that are declared, withdrawn and activated (R243, R244, R251, R252). -/
namespace Sys2Proof.Machine
open Sys2Proof.Claims

/-! ### A sorus of its own -/

/-- The sorus that a command runs as on this package, prepared. -/
def ownPrepared (i : Instr) (h : Hdr) (principal : Nat) (s : State) : Sorus :=
  ⟨2 ^ 32 + s.fresh, h.session, [s.boot.pkg], 2, [i], entryBytes i, s.beat.elapsed, beatAdd s.now 16, none, [], s.boot.pkg, some true,
    false, 0, true, false, principal⟩

/-- A prepared sorus with one command applies it. -/
theorem exec_sorusCommitApply_single {x : Sorus} {i : Instr} {u : State} (hx : u.sorus x.id = some x) (prepared : x.state = 2)
    (decided : x.decided = some true) (noDoubt : x.inDoubt = false) (staged : x.staged = [i]) (noTag : x.commitTag = none)
    (due : beatBefore u.now x.commitBeat = false) : exec (.sorusCommitApply x.id) u =
      .next (setSorus x.id (fun y => { y with state := 3, staged := [], inDoubt := false })
        (dropReserved x.id (commitOne x.principal x.id 0 i u))) := by
  have applies : ¬ (decide (x.state ≠ 2) || decide (x.decided ≠ some true) || beatBefore u.now x.commitBeat) = true := by
    simp [prepared, decided, due]
  have certain : recordDoubt x u = u := by rw [recordDoubt, noDoubt, if_neg Bool.false_ne_true]
  rw [exec, execSorusCommitApply, applySorus, hx]
  dsimp only
  rw [if_neg applies, noTag, staged, certain]
  rfl

theorem ownSorus_of_passes {i : Instr} {h : Hdr} {op : Nat} {prep : Prep} {s : State}
    (passes : prep (2 ^ 32 + s.fresh) 0 { s with fresh := s.fresh + 1 } = ({ s with fresh := s.fresh + 1 }, none)) :
    ∃ principal, ownSorus i h op prep s = { accept h op [] { s with fresh := s.fresh + 1 } with
      sori := { s.sori with sori := s.sori.sori ++ [ownPrepared i h principal s] } } := by
  refine ⟨(((accept h op [] { s with fresh := s.fresh + 1 }).session h.session).map fun e => e.principal).getD 0, ?_⟩
  simp only [ownSorus, draw, passes, ownPrepared]
  simp [State.now]

theorem ownSorus_prepared {i : Instr} {h : Hdr} {op : Nat} {prep : Prep} {s : State}
    (passes : prep (2 ^ 32 + s.fresh) 0 { s with fresh := s.fresh + 1 } = ({ s with fresh := s.fresh + 1 }, none)) :
    OwnSorusPrepared i h s (ownSorus i h op prep s) ∧ (ownSorus i h op prep s).mem = s.mem := by
  obtain ⟨principal, same⟩ := ownSorus_of_passes (i := i) (h := h) (op := op) passes
  rw [same]
  refine ⟨⟨ownPrepared i h principal s, rfl, rfl, rfl, rfl, rfl, rfl, rfl, rfl, fun u hx due => ?_⟩, by simp⟩
  exact exec_sorusCommitApply_single hx rfl rfl rfl rfl rfl due

/-! ### Declaring and withdrawing -/

theorem State.model_of_models {s t : State} (h : t.models = s.models) (id : Nat) : t.model id = s.model id := by rw [model, h, model]

/-- A model as it enters (R244, R248, R252). -/
theorem addModel_models (m : Manifest) (timeout source : Nat) (ps : List PlacedTensor) (s : State) :
    ∃ x, (addModel m timeout source ps s).models.models = s.models.models ++ [x] ∧ x.id = m.modelId ∧ x.manifest = m ∧ x.placed = ps ∧
      x.timeout = timeout ∧ x.source = source ∧ x.state = (if x.shards = [] then 2 else 1) ∧
      ∀ y ∈ x.shards, y.state = 0 ∧ y.attempt = 1 := by
  refine ⟨_, rfl, rfl, rfl, rfl, rfl, rfl, ?_, ?_⟩
  · simp only [List.isEmpty_iff]
  · intro y hy
    obtain ⟨x, -, rfl⟩ := List.mem_map.mp hy
    exact ⟨rfl, rfl⟩

theorem placeRefusal_of_base {s : State} {m : Manifest} (base : m.kind = 0) (absent : s.model m.modelId = none)
    (room : s.models.models.length < 8) : placeRefusal s m = none := by
  simp [placeRefusal, base, absent, room]

theorem withdrawModel_model (id : Nat) (s : State) : (withdrawModel id s).model id = none := by
  simp [withdrawModel, State.model]

theorem withdrawModel_regions (id : Nat) (s : State) : ∀ g ∈ (withdrawModel id s).mem.regions, ofModel id g.owner = false := by
  intro g hg
  simpa using (List.mem_filter.mp hg).2

theorem withdrawModel_converter (id : Nat) (s : State) : ∀ p ∈ (withdrawModel id s).models.converter, p.modelId ≠ id := by
  intro p hp
  simpa using (List.mem_filter.mp hp).2

/-! ### Activating -/

theorem activatePrep_of_loaded {id sid k : Nat} {m : Model} {s : State} (hm : s.model id = some m) (loaded : m.state = 2)
    (alone : m.manifest.holders.length ≤ 1) (pool : largestPool s m.manifest ≠ 0) : activatePrep id 0 sid k s = (s, none) := by
  simp [activatePrep, hm, loaded, Nat.not_lt.mpr alone, pool]

/-- A model as it is activated with the pool `base`, of `n` page-sets. -/
def Model.activated (s : State) (base kCand n : Nat) (m x : Model) : Model :=
  { x with
    state := 3
    epochs := [⟨m.manifest.epochId, false, firstEpochTable s x⟩]
    follow := m.manifest.epochId
    usedEpochs := [m.manifest.epochId]
    kCand := if kCand = 0 then 1024 else kCand
    pageSets := n
    kvBase := base
    usedSets := []
    tables := [firstTable x.manifest] }

theorem find?_kvPool_append {id : Nat} {rs : List Region} {g : Region} {p : Owner → Bool} (hp : p (.kvPool id) = false)
    (none_ : ∀ r ∈ rs, r.owner ≠ .kvPool id) (hg : g.owner = .kvPool id) :
    ((rs ++ [g]).filter fun r => !p r.owner).find? (fun r => r.owner = .kvPool id) = some g := by
  have before : (rs.filter fun r => !p r.owner).find? (fun r => r.owner = .kvPool id) = none := by
    simpa using fun r hr _ => none_ r hr
  rw [List.filter_append, List.find?_append, before, Option.none_or, List.filter_singleton]
  simp [hg, hp]

theorem activateCommit_of_reserved {ans : Answer} {id kCand n sid k : Nat} {m : Model} {g : Region} {s : State}
    (hm : s.model id = some m) (loaded : m.state = 2) (given : n ≠ 0) (hg : reservedRegion s sid k = some g)
    (noPool : ∀ r ∈ s.mem.regions, r.owner ≠ .kvPool id) :
    ∃ u, u.models = s.models ∧ u.flash = s.flash ∧ activateCommit ans id kCand n sid k s =
      ans stOk 0 (leBytes 8 u.now ++ leBytes 4 n)
        (raiseManifest m.manifest.secVersion (setModel id (Model.activated u g.base kCand n m) u)) := by
  have found := find?_kvPool_append (id := id) (rs := s.mem.regions) (g := ⟨0, g.base, g.bytes, .kvPool id, none⟩)
    (p := fun o => o = .reserved sid k) (by simp) noPool rfl
  refine ⟨dropRegions (fun o => o = .reserved sid k) (takeRegion 0 g.base g.bytes (.kvPool id) s), rfl, rfl, ?_⟩
  simp only [activateCommit, hm, loaded, hg, if_neg given, ne_eq, not_true, if_false]
  simp only [dropRegions, takeRegion, found]
  rfl

end Sys2Proof.Machine
end

section
open Sys2Proof Sys2Proof.Machine Sys2Proof.Claims

/-- Settles O25. -/
theorem modelsComeAndGo : Obligations.ModelsComeAndGo := by
  refine ⟨?_, ?_, ?_, ?_, ?_⟩
  · intro h w bs m ps e s s' served window read base absent noWait room placed
    have free : placeRefusal s m = none := placeRefusal_of_base base absent (by omega)
    obtain ⟨x, models, hx⟩ := addModel_models m 30 e.principal ps s'
    rw [exec, execModelDeclare, hosted_of_served served rfl]
    simp only [window, read, base, ne_eq, not_true, if_false, free, noWait, Bool.false_eq_true, if_neg (Nat.not_le.mpr room),
      placeManifest, placed, takeUp, if_true]
    refine ⟨_, x, rfl, (by simpa [answerNow, shardSeconds] using models), ?_⟩
    obtain ⟨id, manifest, placedAs, timeout, source, state, shards⟩ := hx
    exact ⟨id, manifest, placedAs, timeout, source, state, shards, by simp [answerNow, addModel]⟩
  · intro h id m e s served hm idle
    have free : ¬ (decide (m.state = 3) && modelInUse s id) = true := by
      rcases idle with h | h <;> simp [h]
    rw [exec, execModelWithdraw, hosted_of_served served rfl]
    simp only [hm, if_neg free]
    refine ⟨_, rfl, ?_, by simp, ?_, ?_⟩
    · exact (State.model_of_models (by simp) id).trans (withdrawModel_model id s)
    · simpa using withdrawModel_regions id s
    · simpa using withdrawModel_converter id s
  · intro h id m e s served hm active used
    rw [exec, execModelWithdraw, hosted_of_served served rfl]
    simp only [hm, active, used]
    rfl
  · intro h id kCand m e s served range hm loaded alone pool
    have inRange : badIf ((decide (kCand ≠ 0) && (decide (kCand < 16) || decide (4096 < kCand))) || decide (2147483647 < 0)) = none := by
      simp [badIf]
      omega
    have passes : activatePrep id 0 (2 ^ 32 + s.fresh) 0 { s with fresh := s.fresh + 1 } = ({ s with fresh := s.fresh + 1 }, none) :=
      activatePrep_of_loaded hm loaded alone pool
    rw [exec, execModelActivate, hosted_of_served served inRange]
    simp only [hm, loaded, if_neg (Nat.not_lt.mpr alone)]
    exact ⟨_, rfl, ownSorus_prepared passes⟩
  · intro h id kCand n p sid k g m s hm loaded given hg noPool
    obtain ⟨u, models, flash, committed⟩ := activateCommit_of_reserved (ans := answerLater h.session h.tag 0x0104) (kCand := kCand)
      hm loaded given hg noPool
    have hu : u.model id = some m := by rw [State.model, models]; exact hm
    refine ⟨Model.activated u g.base kCand n m m, ?_, rfl, rfl, rfl, rfl, rfl, rfl, rfl, ?_⟩
    · rw [commitOne, committed]
      refine (State.model_of_models (s := setModel id (Model.activated u g.base kCand n m) u) (by simp [answerLater, raiseManifest]) id).trans ?_
      rw [model_setModel id _ (by intro; rfl), hu, Option.map_some]
    · rw [commitOne, committed]
      simp [answerLater, raiseManifest, flash]

end

section

/-! ## The arrival of shards: O26 -/

namespace Sys2Proof.Machine

/-- The set of shards of a model. -/
theorem shardSet_none {id : Nat} {m : Model} {s : State} (known : s.model id = some m) :
    shardSet s id none = some ⟨m.manifest, m.shards, m.placed ++ m.origins, m.source⟩ := by
  rw [shardSet, known, Option.map_some]

theorem setShard_none_model (id k : Nat) (f : ShardSt → ShardSt) (s : State) :
    (setShard id none k f s).model id =
      (s.model id).map fun m => { m with shards := updBy (fun x => x.index = k) f m.shards } :=
  model_setModel _ _ (by intro; rfl) _

/-- The models beside the page-sets of their pools that are taken: what the end of a request leaves as it is (R161). -/
def State.bareModels (s : State) : List Model := s.models.models.map fun m => { m with usedSets := [] }

theorem State.bareModels_of_models {s t : State} (h : t.models = s.models) : t.bareModels = s.bareModels := by
  rw [bareModels, bareModels, h]

theorem Model.eq_of_bare {m x : Model} (bare : { x with usedSets := [] } = { m with usedSets := [] }) :
    x = { m with usedSets := x.usedSets } := by
  cases x; cases m
  simp only [Model.mk.injEq] at bare ⊢
  simp only [bare, and_self]

theorem State.mem_of_bareModels {s t : State} (same : t.bareModels = s.bareModels) {x : Model} (hx : x ∈ t.models.models) :
    ∃ m ∈ s.models.models, x = { m with usedSets := x.usedSets } := by
  have mem : { x with usedSets := [] } ∈ s.bareModels := same ▸ List.mem_map_of_mem hx
  obtain ⟨m, hm, bare⟩ := List.mem_map.mp mem
  exact ⟨m, hm, Model.eq_of_bare bare.symm⟩

theorem State.find_bareModels (s : State) (id : Nat) :
    s.bareModels.find? (fun m => m.id = id) = (s.model id).map fun m => { m with usedSets := [] } := by
  rw [bareModels, List.find?_map]
  rfl

theorem State.model_of_bareModels {s t : State} {id : Nat} {m : Model} (same : t.bareModels = s.bareModels) (known : s.model id = some m) :
    ∃ sets, t.model id = some { m with usedSets := sets } := by
  have bare := t.find_bareModels id
  rw [same, find_bareModels, known, Option.map_some, eq_comm, Option.map_eq_some_iff] at bare
  obtain ⟨x, hx, bare⟩ := bare
  exact ⟨x.usedSets, hx.trans (congrArg some (Model.eq_of_bare bare))⟩

theorem setModel_bareModels {f : Model → Model} (bare : ∀ m, { f m with usedSets := [] } = { m with usedSets := [] }) (n : Nat)
    (s : State) : (setModel n f s).bareModels = s.bareModels := by
  simp only [State.bareModels, setModel, updBy, List.map_map]
  refine List.map_congr_left fun m _ => ?_
  simp only [Function.comp]
  split
  · exact bare m
  · rfl

theorem freePages_bareModels (rid : Nat) (s : State) : (freePages rid s).bareModels = s.bareModels := by
  unfold freePages
  split
  · rfl
  next r _ =>
    refine (State.bareModels_of_models rfl).trans (setModel_bareModels (f := fun m => { m with usedSets := _ }) ?_ r.p.modelId s)
    intro m
    rfl

theorem restAcct_models (principal : Nat) (s : State) : (restAcct principal s).models = s.models := by simp

theorem endRequest_bareModels (rid state status : Nat) (s : State) : (endRequest rid state status s).bareModels = s.bareModels := by
  unfold endRequest
  split
  · rfl
  next r _ =>
    split
    · rfl
    dsimp only
    rw [State.bareModels_of_models (restAcct_models _ _)]
    have told (r' : Req) : (sendDone r' status (setReq rid (fun _ => r') s)).bareModels = s.bareModels :=
      State.bareModels_of_models (by simp [setReq])
    split
    · exact told _
    · exact (freePages_bareModels _ _).trans (told _)

theorem endRequests_bareModels (state status : Nat) (rs : List Req) (s : State) :
    (rs.foldl (fun s r => endRequest r.id state status s) s).bareModels = s.bareModels :=
  foldl_keeps State.bareModels (fun s (r : Req) => endRequest r.id state status s) (fun s r => endRequest_bareModels r.id _ _ s) _ s

theorem endRequestsOf_bareModels (p : Req → Bool) (s : State) : (endRequestsOf p s).bareModels = s.bareModels :=
  endRequests_bareModels 0x11 stContextFault _ s

theorem failModel_model {id : Nat} {m : Model} (status : Nat) {s : State} (known : s.model id = some m) :
    ∃ sets, (failModel id status s).model id = some { m with state := 4, failStatus := status, usedSets := sets } := by
  refine State.model_of_bareModels (endRequestsOf_bareModels _ _) (m := { m with state := 4, failStatus := status }) ?_
  rw [model_setModel _ _ (by intro; rfl), known, Option.map_some]

/-- A model whose shards settle keeps their standing; its own state may change. -/
theorem settleShards_none_shards {id : Nat} {m : Model} {s : State} (known : s.model id = some m) :
    ∃ m', (settleShards id none s).model id = some m' ∧ m'.shards = m.shards := by
  simp only [settleShards, known]
  split
  · exact ⟨m, known, rfl⟩
  split
  · obtain ⟨sets, failed⟩ := failModel_model (failStatusOf m.shards) known
    exact ⟨_, failed, rfl⟩
  · exact ⟨{ m with state := if decide (m.state = 1) && m.epochs.isEmpty then 2 else m.state },
      by rw [model_setModel _ _ (by intro; rfl), known, Option.map_some], rfl⟩

/-- The standing of a pending shard after a failed attempt (R248, R249). -/
def ShardSt.attemptFailed (set : ShardSet) (x : Shard) (cause now : Nat) (y : ShardSt) : ShardSt :=
  if 4 ≤ y.attempt then { y with state := 2, cause := cause }
  else { y with attempt := y.attempt + 1, cause := cause, asked := askedFor set x y.attempt, since := now }

theorem ShardSt.attemptFailed_index (set : ShardSet) (x : Shard) (cause now : Nat) (y : ShardSt) :
    (y.attemptFailed set x cause now).index = y.index := by
  unfold attemptFailed; split <;> rfl

theorem failAttempt_shards {id k cause : Nat} {m : Model} {st : ShardSt} {x : Shard} {s : State} (known : s.model id = some m)
    (found : m.shards.find? (fun y => y.index = k) = some st) (shard : m.manifest.shards[k]? = some x) (pending : st.state = 0) :
    ∃ m' set now, (failAttempt id none k cause s).model id = some m' ∧
      m'.shards = updBy (fun y => y.index = k) (ShardSt.attemptFailed set x cause now) m.shards := by
  obtain ⟨set, shards, ofShards, ofManifest⟩ : ∃ set, shardSet s id none = some set ∧ set.shards = m.shards ∧ set.manifest = m.manifest :=
    ⟨_, shardSet_none known, rfl, rfl⟩
  have changed (u : State) (same : u.models = s.models) :
      (setShard id none k (ShardSt.attemptFailed set x cause s.beat.elapsed) u).model id = some { m with
        shards := updBy (fun y => y.index = k) (ShardSt.attemptFailed set x cause s.beat.elapsed) m.shards } := by
    rw [setShard_none_model, State.model_of_models same, known, Option.map_some]
  simp only [failAttempt, shards, ofShards, ofManifest, found, shard, pending, ne_eq, not_true_eq_false, if_false]
  obtain ⟨m', known', kept⟩ := settleShards_none_shards (changed
    (if 4 ≤ st.attempt then record 0x0101 3 pkgSource (leBytes 8 id ++ leBytes 4 k ++ leBytes 1 st.attempt ++ leBytes 1 cause) s
      else askPeer id k set x st.attempt
        (record 0x0101 3 pkgSource (leBytes 8 id ++ leBytes 4 k ++ leBytes 1 st.attempt ++ leBytes 1 cause) s))
    (by split <;> simp))
  refine ⟨m', set, s.beat.elapsed, ?_, kept⟩
  rw [← known']
  simp only [record_keeps]
  rfl

/-- Settles O26, by the branches of each event; what a failed attempt leaves is told by `failAttempt_shards`. -/
theorem shardsArrive : Obligations.ShardsArrive := by
  unfold Obligations.ShardsArrive
  refine ⟨?_, ?_, ?_, ?_, ?_, ?_, ?_⟩
  · intro h id k window offset slot set st x bs e s served target shards found shard pending bytes
    rw [exec, execShardPush, hosted_of_served served rfl]
    simp only [target, shards, found, shard, pending, bytes]
    rfl
  · intro h id first count m e s served positive bounded known loading
    have inRange : badIf (count = 0 || decide (256 < count)) = none := by
      rw [show (decide (count = 0) || decide (256 < count)) = false by simp; omega]; rfl
    rw [exec, execShardStatus, hosted_of_served served inRange]
    simp only [known, if_neg (show ¬ m.state = 3 by omega), if_neg (show ¬ m.state = 4 by omega), modelCode, Option.getD_none]
    exact ⟨_, rfl⟩
  · intro p rest set st x y images s queue shards found shard pending tensor converted
    rw [exec, execShardConvert, queue]
    have set' : shardSet { s with models := { s.models with converter := rest } } p.modelId p.slot = some set := shards
    simp only [set', found, shard, pending, tensor, converted]
    rfl
  · intro p rest set st x y c s queue shards found shard pending tensor failed
    rw [exec, execShardConvert, queue]
    have set' : shardSet { s with models := { s.models with converter := rest } } p.modelId p.slot = some set := shards
    simp only [set', found, shard, pending, tensor, failed]
    rfl
  · intro id k slot s target unqueued elapsed
    simp [exec, execShardTimeout, target, unqueued, elapsed]
  · intro id k images slot set st x y s target shards found shard pending asked tensor
    simp only [exec, execShardPeerRead, target, shards, found, shard, tensor]
    rw [if_neg (by simp [pending, asked])]
    split <;> simp_all
  · intro id k cause m st x s known found shard pending
    obtain ⟨m', set, now, known', shards⟩ := failAttempt_shards (cause := cause) known found shard pending
    refine ⟨m', st.attemptFailed set x cause now, known', ?_, ?_, ?_, ?_⟩
    · rw [shards, find_updBy _ _ (by intro y; simp [ShardSt.attemptFailed_index]), found, Option.map_some]
    · unfold ShardSt.attemptFailed; split <;> rfl
    · intro final; rw [ShardSt.attemptFailed, if_pos final]
    · intro again; rw [ShardSt.attemptFailed, if_neg (by omega)]; exact ⟨pending, rfl⟩

end Sys2Proof.Machine

end

section

/-! ## Weight epochs: O27 -/

namespace Sys2Proof.Machine
open Sys2Proof.Claims

theorem mem_filter_id_ne {es : List Epoch} {k : Nat} : ∀ y ∈ es.filter fun e => e.id ≠ k, y.id ≠ k := by simp

theorem setModel_known {id : Nat} {f : Model → Model} {m : Model} {s : State} (known : s.model id = some m)
    (sameId : ∀ x, (f x).id = x.id) : (setModel id f s).model id = some (f m) := by
  rw [model_setModel _ _ sameId, known, Option.map_some]

theorem model_setModel_of_ne {n k : Nat} (h : n ≠ k) (f : Model → Model) (hf : ∀ x, (f x).id = x.id) (s : State) :
    (setModel n f s).model k = s.model k :=
  find_updBy_ne _ _ f (fun x => by simp [hf]) (fun x hx => by simp_all) _

theorem model_finish {id session tag op st d : Nat} {r : List Byte} {o : Option Model} {s : State} (h : s.model id = o) :
    (finish session tag op st d r s).model id = o :=
  (State.model_of_models (by simp) id).trans h

/-- Sweeping a model's regions leaves all of the model but its list of replaced regions. -/
theorem sweepRegions_model {id : Nat} {m : Model} {s : State} (known : s.model id = some m) :
    ∃ origins, (sweepRegions id s).model id = some { m with origins := origins } := by
  simp only [sweepRegions, known]
  exact ⟨_, setModel_known ((State.model_of_models rfl id).trans known) (by intro; rfl)⟩

theorem adoptRegions_models (id : Nat) (ps : List Pointer) (s : State) : (ps.foldl (fun s p => adoptRegion id p s) s).models = s.models :=
  foldl_keeps (fun s : State => s.models) _ (fun s p => by simp) ps s

/-- The commit of a publication (R261): the new epoch is the follow epoch, and the old one is held if asked. -/
theorem publishCommit_model {session tag : Nat} {hold : Bool} {id epoch table : Nat} {m : Model} {ps : List Pointer} {s : State}
    (known : s.model id = some m) (active : m.state = 3) (newer : ∀ e ∈ m.usedEpochs, e < epoch) (named : newTable s m table = some ps) :
    ∃ m', (publishCommit (answerLater session tag 0x0105) hold id epoch table s).model id = some m' ∧ m'.follow = epoch ∧
      m'.epochs = updBy (fun e => e.id = m.follow) (fun e => { e with held := e.held || hold }) m.epochs ++ [⟨epoch, false, ps⟩] ∧
      m'.usedEpochs = m.usedEpochs ++ [epoch] ∧ m'.state = 3 := by
  have unused : (m.usedEpochs.any fun e => decide (epoch ≤ e)) = false := by
    simpa using newer
  simp only [publishCommit, known, active, unused, named, answerLater, ne_eq, not_true_eq_false, Bool.false_eq_true, if_false]
  exact ⟨_, model_finish (setModel_known ((State.model_of_models (adoptRegions_models _ _ _) id).trans known) (by intro; rfl)),
    rfl, rfl, rfl, active⟩

theorem retireRefusal_of_held {s : State} {id epoch : Nat} {m : Model} {x : Epoch} (known : s.model id = some m) (active : m.state = 3)
    (used : epoch ∈ m.usedEpochs) (old : m.follow ≠ epoch) (found : m.epochs.find? (fun x => x.id = epoch) = some x) (held : x.held = true) :
    retireRefusal s id epoch = none := by
  simp [retireRefusal, known, active, used, old, found, held]

theorem retireRefusal_of_follow {s : State} {id epoch : Nat} {m : Model} (known : s.model id = some m) (active : m.state = 3)
    (used : epoch ∈ m.usedEpochs) (follows : m.follow = epoch) : retireRefusal s id epoch = some (stConflict, 0x56) := by
  simp [retireRefusal, known, active, used, follows]

/-- The withdrawal of an epoch (R256): it is gone, and a follow epoch leaves the model FAILED. -/
theorem withdrawEpoch_model {id epoch : Nat} {m : Model} {s : State} (known : s.model id = some m) :
    ∃ m', (withdrawEpoch id epoch s).model id = some m' ∧ (∀ y ∈ m'.epochs, y.id ≠ epoch) ∧ (m.follow = epoch → m'.state = 4) := by
  simp only [withdrawEpoch, known]
  obtain ⟨sets, ended⟩ := State.model_of_bareModels (endRequestsOf_bareModels (fun r => r.p.modelId = id && r.pin = some epoch) s) known
  have removed : (setModel id (fun m => { m with epochs := m.epochs.filter fun e => e.id ≠ epoch })
      (endRequestsOf (fun r => r.p.modelId = id && r.pin = some epoch) s)).model id =
      some { m with usedSets := sets, epochs := m.epochs.filter fun e => e.id ≠ epoch } := setModel_known ended (by intro; rfl)
  have swept {n : Model} {u : State} (known : u.model id = some n) : ∃ m', (setModel id
      (fun x => { x with suspects := x.suspects.filter (namesRegion x) }) (sweepRegions id u)).model id = some m' ∧
      m'.epochs = n.epochs ∧ m'.state = n.state := by
    obtain ⟨origins, after⟩ := sweepRegions_model known
    exact ⟨_, setModel_known after (by intro; rfl), rfl, rfl⟩
  by_cases follows : m.follow = epoch
  · rw [if_pos follows]
    obtain ⟨sets', failed⟩ := failModel_model stDigest removed
    obtain ⟨m', known', epochs, state⟩ := swept failed
    exact ⟨m', known', epochs ▸ mem_filter_id_ne, fun _ => state⟩
  · rw [if_neg follows]
    obtain ⟨m', known', epochs, -⟩ := swept removed
    exact ⟨m', known', epochs ▸ mem_filter_id_ne, fun h => absurd h follows⟩

/-- Settles O27, by the branches of each command and event. -/
theorem epochsPublishRetireFree : Obligations.EpochsPublishRetireFree := by
  unfold Obligations.EpochsPublishRetireFree
  refine ⟨?_, ?_, ?_, ?_, ?_, ?_, ?_, ?_⟩
  · intro h id epoch table e s served hasTable allowed passes
    have inRange : (if (s.handle table).isNone then some (stBadParam, 0)
        else if handleDenied s e.principal table then some (stDenied, 0) else none) = (none : Option (Nat × Nat)) := by
      rw [if_neg (by simp [Option.isSome_iff_ne_none.mp hasTable]), if_neg (by simp [allowed])]
    rw [exec, execEpochPublish, hosted_of_served served inRange]
    have passes' : publishPrep id epoch table (2 ^ 32 + s.fresh) 0 { s with fresh := s.fresh + 1 } =
        ({ s with fresh := s.fresh + 1 }, none) := Prod.ext rfl passes
    obtain ⟨prepared, mem⟩ := ownSorus_prepared (i := .epochPublish h id epoch table) (h := h) (op := 0x0105) passes'
    obtain ⟨principal, same⟩ := ownSorus_of_passes (i := .epochPublish h id epoch table) (h := h) (op := 0x0105) passes'
    exact ⟨_, rfl, prepared, mem, by rw [same]; simp⟩
  · intro h id epoch table p sid k m ps s known active newer named new
    exact publishCommit_model known active newer named
  · intro h id epoch m x e s served known active used old found held
    rw [exec, execEpochRetire, hosted_of_served served rfl, retireCommit, retireRefusal_of_held known active used old found held]
    rfl
  · intro h id epoch m e s served known active used follows
    rw [exec, execEpochRetire, hosted_of_served served rfl, retireCommit, retireRefusal_of_follow known active used follows]
    rfl
  · intro h id epoch p sid k m x s known active used old found held
    rw [commitOne, retireCommit, retireRefusal_of_held known active used old found held]
    exact ⟨_, model_finish (setModel_known known (by intro; rfl)), rfl, rfl⟩
  · intro id epoch m x s known found dead
    have removed : (setModel id (fun m => { m with epochs := m.epochs.filter fun x => x.id ≠ epoch }) s).model id =
        some { m with epochs := m.epochs.filter fun x => x.id ≠ epoch } := setModel_known known (by intro; rfl)
    obtain ⟨origins, swept⟩ := sweepRegions_model removed
    refine ⟨_, _, ?_, swept, mem_filter_id_ne, ?_⟩
    · simp only [exec, execEpochFree, known, Option.bind_some, found, Option.map_some, dead]
      rfl
    · simp [setModel]
  · intro id epoch m s known spoilt
    obtain ⟨m', known', gone, failed⟩ := withdrawEpoch_model (epoch := epoch) known
    refine ⟨_, m', ?_, known', gone, failed⟩
    simp [exec, execEpochWithdraw, known, spoilt]
  · intro addr bytes s
    rfl

end Sys2Proof.Machine

end

section

/-! ## Adapter slots, variants and scrub passes: O28 -/

namespace Sys2Proof.Machine
open Sys2Proof.Claims

/-! ### The slots of a model -/

/-- The adapter slot of a model is there and has a property. -/
def SlotHas (P : AdapterSlot → Prop) (id slot : Nat) (s : State) : Prop :=
  ∃ m a, s.model id = some m ∧ m.slotOf slot = some a ∧ P a

theorem SlotHas.of_models {P : AdapterSlot → Prop} {id slot : Nat} {s t : State} (h : SlotHas P id slot s) (same : t.models = s.models) :
    SlotHas P id slot t := by
  obtain ⟨m, a, known, found, holds⟩ := h
  exact ⟨m, a, (State.model_of_models same id).trans known, found, holds⟩

theorem SlotHas.of_bareModels {P : AdapterSlot → Prop} {id slot : Nat} {s t : State} (h : SlotHas P id slot s)
    (same : t.bareModels = s.bareModels) : SlotHas P id slot t := by
  obtain ⟨m, a, known, found, holds⟩ := h
  obtain ⟨sets, known'⟩ := State.model_of_bareModels same known
  exact ⟨_, a, known', found, holds⟩

/-- A model's slots after one of them changed, or was made. -/
def Model.withSlot (slot : Nat) (f : AdapterSlot → AdapterSlot) (m : Model) : Model :=
  { m with adapters := if (m.slotOf slot).isSome then updBy (fun a => a.slot = slot) f m.adapters
    else m.adapters ++ [f ⟨slot, 1, false, []⟩] }

theorem Model.slotOf_withSlot {slot : Nat} {f : AdapterSlot → AdapterSlot} (sameSlot : ∀ a, (f a).slot = a.slot) (m : Model) :
    (m.withSlot slot f).slotOf slot = some (f ((m.slotOf slot).getD ⟨slot, 1, false, []⟩)) := by
  unfold withSlot
  cases found : m.slotOf slot with
  | none =>
    rw [Option.isSome_none, if_neg Bool.false_ne_true, slotOf, List.find?_append, show m.adapters.find? _ = none from found]
    simp [sameSlot]
  | some a =>
    rw [Option.isSome_some, if_pos rfl, slotOf, find_updBy _ _ (by intro a; simp [sameSlot]), show m.adapters.find? _ = some a from found]
    rfl

theorem Model.slotOf_withSlot_of_ne {slot k : Nat} (other : k ≠ slot) {f : AdapterSlot → AdapterSlot}
    (sameSlot : ∀ a, (f a).slot = a.slot) {m : Model} {a : AdapterSlot} (found : m.slotOf slot = some a) :
    (m.withSlot k f).slotOf slot = some a := by
  unfold withSlot
  split
  · rw [slotOf, find_updBy_ne _ _ f (fun x => by simp [sameSlot]) (fun x hx => by simp_all)]
    exact found
  · rw [slotOf, List.find?_append, show m.adapters.find? _ = some a from found]
    rfl

theorem setSlot_eq (id slot : Nat) (f : AdapterSlot → AdapterSlot) (s : State) : setSlot id slot f s = setModel id (Model.withSlot slot f) s := rfl

theorem SlotHas.setSlot {P Q : AdapterSlot → Prop} {id slot k j : Nat} {f : AdapterSlot → AdapterSlot} {s : State} (h : SlotHas P id slot s)
    (sameSlot : ∀ a, (f a).slot = a.slot) (own : ∀ a, P a → k = id → j = slot → Q (f a)) (others : ∀ a, P a → ¬ (k = id ∧ j = slot) → Q a) :
    SlotHas Q id slot (Machine.setSlot k j f s) := by
  obtain ⟨m, a, known, found, holds⟩ := h
  by_cases ownModel : k = id
  · subst ownModel
    by_cases ownSlot : j = slot
    · subst ownSlot
      refine ⟨m.withSlot j f, f a, setModel_known known (by intro; rfl), ?_, own a holds rfl rfl⟩
      rw [Model.slotOf_withSlot sameSlot, found, Option.getD_some]
    · exact ⟨m.withSlot j f, a, setModel_known known (by intro; rfl), Model.slotOf_withSlot_of_ne ownSlot sameSlot found,
        others a holds (by simp [ownSlot])⟩
  · refine ⟨m, a, ?_, found, others a holds (by simp [ownModel])⟩
    rw [setSlot_eq, model_setModel_of_ne ownModel _ (by intro; rfl)]
    exact known

/-! ### Versions that leave -/

/-- What sweeping the adapters takes out. -/
def sweptVersions (s : State) : List (Nat × Nat × Nat) :=
  (s.models.models.map fun m => (m.adapters.map fun a =>
    (a.versions.filter fun v => v.live && !v.current && !(s.serve.reqs.any (usesVersion m.id a.slot v.version))).map
      fun v => (m.id, a.slot, v.version)).flatten).flatten

/-- One version is taken out of its slot, with its regions. -/
def removeVersion (x : Nat × Nat × Nat) (s : State) : State :=
  setSlot x.1 x.2.1 (fun a => { a with versions := a.versions.filter fun v => v.version ≠ x.2.2 }) (dropRegions (ofVersion x.1 x.2.1 x.2.2) s)

theorem sweepAdapters_eq (s : State) : sweepAdapters s = (sweptVersions s).foldl (fun s x => removeVersion x s) s := rfl

theorem mem_sweptVersions {s : State} {x : Nat × Nat × Nat} (h : x ∈ sweptVersions s) :
    ∃ m ∈ s.models.models, ∃ a ∈ m.adapters, ∃ v ∈ a.versions, v.current = false ∧ x = (m.id, a.slot, v.version) := by
  simp only [sweptVersions, List.mem_flatten, List.mem_map] at h
  obtain ⟨_, ⟨m, hm, rfl⟩, h⟩ := h
  simp only [List.mem_flatten, List.mem_map] at h
  obtain ⟨_, ⟨a, ha, rfl⟩, h⟩ := h
  obtain ⟨v, hv, rfl⟩ := List.mem_map.mp h
  obtain ⟨hv, gone⟩ := List.mem_filter.mp hv
  exact ⟨m, hm, a, ha, v, hv, by simp_all, rfl⟩

/-- What a slot keeps while versions leave it, it keeps when the adapters are swept. -/
theorem SlotHas.sweepAdapters {P : AdapterSlot → Prop} {id slot : Nat} {s : State} (h : SlotHas P id slot s)
    (kept : ∀ n, (id, slot, n) ∈ sweptVersions s → ∀ a, P a → P { a with versions := a.versions.filter fun v => v.version ≠ n }) :
    SlotHas P id slot (Machine.sweepAdapters s) := by
  have fold (xs : List (Nat × Nat × Nat)) (sub : ∀ x ∈ xs, x ∈ sweptVersions s) (u : State) (hu : SlotHas P id slot u) :
      SlotHas P id slot (xs.foldl (fun s x => removeVersion x s) u) := by
    induction xs generalizing u with
    | nil => exact hu
    | cons x xs ih =>
      refine ih (fun y hy => sub y (List.mem_cons_of_mem _ hy)) _ ((hu.of_models rfl).setSlot (fun _ => rfl) ?_ fun a ha _ => ha)
      rintro a ha rfl rfl
      exact kept x.2.2 (sub x List.mem_cons_self) a ha
  exact fold _ (fun _ h => h) s h

theorem SlotHas.dropVersion {P : AdapterSlot → Prop} {id slot : Nat} {s : State} (n : Nat) (h : SlotHas P id slot s)
    (kept : ∀ a, P a → P { a with versions := a.versions.filter fun v => v.version ≠ n }) :
    SlotHas P id slot (Machine.dropVersion id slot n s) :=
  ((h.of_bareModels (endRequestsOf_bareModels _ s)).of_models (t := dropRegions _ _) rfl).setSlot (fun _ => rfl)
    (fun a ha _ _ => kept a ha) fun _ ha _ => ha

theorem retireRequests_bareModels (id slot : Nat) (keep : Option Nat) (s : State) :
    (retireRequests id slot keep s).bareModels = s.bareModels := endRequests_bareModels _ _ _ s

/-! ### The versions of a slot that follow a command -/

/-- Of a slot's versions just those with one number are current, and one of them is live. -/
def OnlyCurrent (n : Nat) (a : AdapterSlot) : Prop :=
  a.closed = false ∧ (∃ w ∈ a.versions, w.version = n ∧ w.live = true ∧ w.current = true) ∧
    ∀ u ∈ a.versions, u.version ≠ n → u.current = false

/-- A slot that is closed and has no current version. -/
def ClosedSlot (a : AdapterSlot) : Prop := a.closed = true ∧ ∀ u ∈ a.versions, u.current = false

theorem OnlyCurrent.filter {n k : Nat} {a : AdapterSlot} (other : k ≠ n) (h : OnlyCurrent n a) :
    OnlyCurrent n { a with versions := a.versions.filter fun v => v.version ≠ k } := by
  obtain ⟨opened, ⟨w, hw, number, live, current⟩, rest⟩ := h
  refine ⟨opened, ⟨w, List.mem_filter.mpr ⟨hw, by simp [number, other.symm]⟩, number, live, current⟩, fun u hu => ?_⟩
  exact rest u (List.mem_filter.mp hu).1

theorem ClosedSlot.filter {k : Nat} {a : AdapterSlot} (h : ClosedSlot a) :
    ClosedSlot { a with versions := a.versions.filter fun v => v.version ≠ k } :=
  ⟨h.1, fun u hu => h.2 u (List.mem_filter.mp hu).1⟩

theorem Model.mem_withSlot {slot : Nat} {f : AdapterSlot → AdapterSlot} {m : Model} {a : AdapterSlot}
    (ha : a ∈ (m.withSlot slot f).adapters) (own : a.slot = slot) : ∃ b, a = f b := by
  unfold withSlot at ha
  dsimp only at ha
  split at ha
  · obtain ⟨b, -, rfl⟩ := List.mem_map.mp ha
    split
    · exact ⟨b, rfl⟩
    next other =>
      refine absurd ?_ other
      rw [if_neg other] at own
      simp [own]
  next absent =>
    obtain old | new := List.mem_append.mp ha
    · have found : (m.slotOf slot).isSome := by
        rw [slotOf, List.find?_isSome]
        exact ⟨a, old, by simp [own]⟩
      exact absurd found absent
    · exact ⟨_, List.mem_singleton.mp new⟩

/-- What a staged version's slot is once the version is live (R263, R264). -/
def AdapterSlot.enlivened (n : Nat) (a : AdapterSlot) : AdapterSlot :=
  { a with closed := false, versions := a.versions.map fun w => { w with live := w.live || w.version = n, current := w.version = n } }

theorem makeLive_models (id slot : Nat) (v : AdapterVer) (s : State) :
    (makeLive id slot v s).models = (setSlot id slot (AdapterSlot.enlivened v.version) s).models := rfl

theorem AdapterSlot.current_enlivened {n : Nat} {a : AdapterSlot} {w : AdapterVer} (hw : w ∈ (a.enlivened n).versions) :
    w.current = decide (w.version = n) := by
  obtain ⟨u, -, rfl⟩ := List.mem_map.mp hw
  rfl

theorem AdapterSlot.onlyCurrent_enlivened {a : AdapterSlot} {v : AdapterVer} (hv : v ∈ a.versions) :
    OnlyCurrent v.version (a.enlivened v.version) := by
  refine ⟨rfl, ⟨{ v with live := v.live || v.version = v.version, current := v.version = v.version }, List.mem_map.mpr ⟨v, hv, rfl⟩,
    rfl, by simp, by simp⟩, fun u hu other => ?_⟩
  rw [current_enlivened hu, decide_eq_false other]

/-- Once a version is live, sweeping its slot does not take it out. -/
theorem sweptVersions_makeLive {id slot k : Nat} {v : AdapterVer} {s u : State} (same : u.bareModels = (makeLive id slot v s).bareModels)
    (swept : (id, slot, k) ∈ sweptVersions u) : k ≠ v.version := by
  obtain ⟨x, hx, a, ha, w, hw, notCurrent, ids⟩ := mem_sweptVersions swept
  simp only [Prod.mk.injEq] at ids
  obtain ⟨rfl, rfl, rfl⟩ := ids
  obtain ⟨y, hy, bare⟩ := State.mem_of_bareModels same hx
  rw [makeLive_models, setSlot_eq] at hy
  obtain ⟨m, -, rfl⟩ := List.mem_map.mp hy
  have ownModel : m.id = x.id := by
    rw [bare]
    split <;> rfl
  rw [if_pos (by simp [ownModel])] at bare
  rw [bare] at ha
  obtain ⟨b, rfl⟩ := Model.mem_withSlot (f := AdapterSlot.enlivened v.version) ha rfl
  rw [AdapterSlot.current_enlivened hw] at notCurrent
  exact of_decide_eq_false notCurrent

theorem verifiedStaged_mem {s : State} {id slot : Nat} {v : AdapterVer} (h : verifiedStaged s id slot = some v) :
    SlotHas (fun a => v ∈ a.versions) id slot s := by
  rw [verifiedStaged, Option.filter_eq_some_iff, Option.bind_eq_some_iff] at h
  obtain ⟨⟨a, found, staged⟩, -⟩ := h
  obtain ⟨m, known, found⟩ := Option.bind_eq_some_iff.mp found
  exact ⟨m, a, known, found, List.mem_of_find?_eq_some staged⟩

theorem SlotHas.finish {P : AdapterSlot → Prop} {id slot session tag op st d : Nat} {r : List Byte} {s : State} (h : SlotHas P id slot s) :
    SlotHas P id slot (Machine.finish session tag op st d r s) := h.of_models (by simp)

/-- The commit of ADAPTER_REPLACE (R264): the staged version is the slot's only current one. -/
theorem replaceCommit_slot {session tag op id slot : Nat} {force : Bool} {v : AdapterVer} {s : State}
    (allowed : replaceRefusal s id slot = none) (staged : verifiedStaged s id slot = some v) :
    SlotHas (OnlyCurrent v.version) id slot (replaceCommit (answerLater session tag op) force id slot s) := by
  simp only [replaceCommit, allowed, staged, answerLater]
  have live : SlotHas (OnlyCurrent v.version) id slot (makeLive id slot v s) :=
    ((verifiedStaged_mem staged).setSlot (f := AdapterSlot.enlivened v.version) (fun _ => rfl)
      (fun a ha _ _ => AdapterSlot.onlyCurrent_enlivened ha) fun _ _ other => absurd ⟨rfl, rfl⟩ other).of_models rfl
  have same (u : State) (hu : u = (if force = true then retireRequests id slot (some v.version) (makeLive id slot v s)
      else makeLive id slot v s)) : u.bareModels = (makeLive id slot v s).bareModels := by
    subst hu
    split
    · exact retireRequests_bareModels _ _ _ _
    · rfl
  exact ((live.of_bareModels (same _ rfl)).sweepAdapters fun n swept _ ha =>
    OnlyCurrent.filter (sweptVersions_makeLive (same _ rfl) swept) ha).finish

theorem unloadRefusal_eq_none {s : State} {id slot : Nat} (h : unloadRefusal s id slot = none) : SlotHas (fun _ => True) id slot s := by
  unfold unloadRefusal at h
  split at h
  · simp at h
  split at h
  next standing =>
    cases found : (s.model id).bind fun m => m.slotOf slot with
    | none => simp [found] at standing
    | some a =>
      obtain ⟨m, known, found⟩ := Option.bind_eq_some_iff.mp found
      exact ⟨m, a, known, found, trivial⟩
  · simp at h

/-- The commit of ADAPTER_UNLOAD (R265): the slot is closed and has no current version. -/
theorem unloadCommit_slot {session tag op id slot : Nat} {force : Bool} {s : State} (allowed : unloadRefusal s id slot = none) :
    SlotHas ClosedSlot id slot (unloadCommit (answerLater session tag op) force id slot s) := by
  simp only [unloadCommit, allowed, answerLater]
  refine (SlotHas.sweepAdapters ?_ fun n _ a ha => ha.filter).finish
  have closed (u : State) (hu : SlotHas (fun _ => True) id slot u) : SlotHas ClosedSlot id slot (setSlot id slot (fun a => { a with
      closed := true, versions := a.versions.map fun v => { v with current := false } }) u) := by
    refine hu.setSlot (fun _ => rfl) (fun a _ _ _ => ⟨rfl, fun w hw => ?_⟩) fun _ _ other => absurd ⟨rfl, rfl⟩ other
    obtain ⟨x, -, rfl⟩ := List.mem_map.mp hw
    rfl
  have standing := unloadRefusal_eq_none allowed
  have dropped : SlotHas ClosedSlot id slot (setSlot id slot (fun a => { a with
      closed := true, versions := a.versions.map fun v => { v with current := false } })
      (match ((s.model id).bind fun m => m.slotOf slot).bind fun a => a.staged with
      | some v => dropVersion id slot v.version s
      | none => s)) := by
    refine closed _ ?_
    split
    · exact standing.dropVersion _ fun _ _ => trivial
    · exact standing
  split
  · exact dropped.of_bareModels (retireRequests_bareModels _ _ _ _)
  · exact dropped

/-! ### Suspect regions -/

/-- The suspect regions of a model (R256). -/
def State.suspectsOf (id : Nat) (s : State) : Option (List Nat) := (s.model id).map fun m => m.suspects

theorem setModel_suspectsOf {f : Model → Model} (sameId : ∀ m, (f m).id = m.id) (same : ∀ m, (f m).suspects = m.suspects) (n id : Nat)
    (s : State) : (setModel n f s).suspectsOf id = s.suspectsOf id := by
  unfold State.suspectsOf
  by_cases own : n = id
  · subst own
    rw [model_setModel _ _ sameId, Option.map_map]
    exact congrArg (Option.map · _) (funext same)
  · rw [model_setModel_of_ne own _ sameId]

theorem beginReload_keepsSuspects (n a id : Nat) (s : State) :
    (beginReload n a s).suspectsOf id = s.suspectsOf id ∧ (beginReload n a s).mem.suspect = s.mem.suspect := by
  unfold beginReload
  split
  · exact ⟨rfl, rfl⟩
  split
  · exact ⟨rfl, rfl⟩
  · exact ⟨setModel_suspectsOf (by intro; rfl) (by intro; rfl) _ _ _, rfl⟩

theorem beginAdapterReload_keepsSuspects (n slot version a id : Nat) (s : State) :
    (beginAdapterReload n slot version a s).suspectsOf id = s.suspectsOf id ∧
      (beginAdapterReload n slot version a s).mem.suspect = s.mem.suspect := by
  unfold beginAdapterReload
  split
  · exact ⟨rfl, rfl⟩
  split
  · exact ⟨rfl, rfl⟩
  split
  · exact ⟨rfl, rfl⟩
  · exact ⟨setModel_suspectsOf (f := Model.withSlot _ _) (by intro; rfl) (by intro; rfl) _ _ _, rfl⟩

/-- Reloads begin without a change of what is suspect. -/
theorem beginReloads_keepsSuspects (id : Nat) (s : State) :
    (beginReloads s).suspectsOf id = s.suspectsOf id ∧ (beginReloads s).mem.suspect = s.mem.suspect := by
  suffices ((beginReloads s).suspectsOf id, (beginReloads s).mem.suspect) = (s.suspectsOf id, s.mem.suspect) from Prod.mk.inj this
  refine foldl_keeps (fun s : State => (s.suspectsOf id, s.mem.suspect)) _ (fun s m => ?_) _ s
  refine Eq.trans (foldl_keeps (fun s : State => (s.suspectsOf id, s.mem.suspect)) _ (fun s x => ?_) _ _)
    (foldl_keeps (fun s : State => (s.suspectsOf id, s.mem.suspect)) _ (fun s a => ?_) _ s)
  · exact Prod.ext (beginAdapterReload_keepsSuspects _ _ _ _ _ _).1 (beginAdapterReload_keepsSuspects _ _ _ _ id _).2
  · exact Prod.ext (beginReload_keepsSuspects _ _ _ _).1 (beginReload_keepsSuspects _ _ id _).2

/-- A region that fails its second hash is suspect and counted, and its reload changes no byte yet (R256). -/
theorem markSuspect_suspects {a : Nat} {m : Model} {s : State} (names : s.models.models.find? (fun m => namesRegion m a) = some m)
    (known : s.model m.id = some m) (new : a ∉ m.suspects) :
    ∃ m', (markSuspect a s).model m.id = some m' ∧ a ∈ m'.suspects ∧ (markSuspect a s).mem.suspect = sat32 (s.mem.suspect + 1) ∧
      (markSuspect a s).mem.cells = s.mem.cells := by
  have unmarked : ¬ m.suspects.contains a = true := by simpa using new
  simp only [markSuspect, names]
  rw [if_neg unmarked]
  have reloading (u : State) (sameModels : u.models = s.models) (counted : u.mem = { s.mem with suspect := sat32 (s.mem.suspect + 1) }) :
      ∃ m', (beginReloads (setModel m.id (fun m => { m with suspects := m.suspects ++ [a] }) u)).model m.id = some m' ∧ a ∈ m'.suspects ∧
        (beginReloads (setModel m.id (fun m => { m with suspects := m.suspects ++ [a] }) u)).mem.suspect = sat32 (s.mem.suspect + 1) ∧
        (beginReloads (setModel m.id (fun m => { m with suspects := m.suspects ++ [a] }) u)).mem.cells = s.mem.cells := by
    obtain ⟨suspects, suspect⟩ := beginReloads_keepsSuspects m.id (setModel m.id (fun m => { m with suspects := m.suspects ++ [a] }) u)
    rw [State.suspectsOf, State.suspectsOf, setModel_known (m := m) ((State.model_of_models sameModels _).trans known) (by intro; rfl),
      Option.map_some, Option.map_eq_some_iff] at suspects
    obtain ⟨m', known', suspects⟩ := suspects
    refine ⟨m', known', by simp [suspects], suspect.trans (congrArg MemSt.suspect counted), ?_⟩
    simp [setModel, counted]
  exact reloading _ (by simp) (by simp)

/-! ### The KV pool of a model that wakes -/

theorem roomFor_setModel (id : Nat) (f : Model → Model) (s : State) (tier : Nat) (account : Option Nat) (n : Nat) :
    roomFor (setModel id f s) tier account n = roomFor s tier account n := rfl

/-- A model that has been verified returns to ACTIVE with its KV pool taken anew (R257, log 126). -/
theorem wakeModel_pool {id b : Nat} {m : Model} {s : State} (known : s.model id = some m) (loading : m.state = 1)
    (verified : m.verifying = false) (epochs : m.epochs ≠ []) (clean : m.suspects = []) (noPool : ∀ g ∈ s.mem.regions, g.owner ≠ .kvPool id)
    (room : roomFor s 0 none (m.pageSets * setBytes m.manifest.layers) = some b) :
    (wakeModel id s).model id = some { m with state := 3, kvBase := b } ∧
      (wakeModel id s).mem = (takeRegion 0 b (m.pageSets * setBytes m.manifest.layers) (.kvPool id) s).mem := by
  have active := setModel_known (f := fun m => { m with state := 3 }) known (by intro; rfl)
  have free : ¬ (s.mem.regions.any fun g => g.owner = .kvPool id) = true := by simpa using noPool
  have ready : (decide (m.state = 1) && !m.verifying && !m.epochs.isEmpty && m.suspects.isEmpty) = true := by
    simp [loading, verified, epochs, clean]
  simp only [wakeModel, known]
  rw [if_pos ready]
  simp only [retakePool, active]
  split
  next held => exact absurd held free
  · rw [roomFor_setModel, room]
    exact ⟨setModel_known ((State.model_of_models rfl id).trans active) (by intro; rfl), rfl⟩

theorem placeManifest_of_done {h : Hdr} {m : Manifest} {timeout source : Nat} {ps : List PlacedTensor} {s s' : State}
    (done : placeAll (ownerFor s m) (placeOrder s m) true s = .done ps s') :
    placeManifest h m timeout source s = takeUp (answerNow h (declareOp m)) m timeout source ps s' := by
  rw [placeManifest, done]

theorem modelCode_active {s : State} {id : Nat} (h : modelCode s id = 0x33) : ∃ m, s.model id = some m := by
  unfold modelCode at h
  split at h
  next m known => exact ⟨m, known⟩
  · simp at h

/-- A slot with one more staged version (R263). -/
def AdapterSlot.load (m : Manifest) (timeout source : Nat) (xs : List ShardSt) (ps : List PlacedTensor) (a : AdapterSlot) : AdapterSlot :=
  { a with next := nextVersion a.next, versions := a.versions ++ [⟨a.next, false, false, m, timeout, source, xs, ps⟩] }

theorem addAdapter_eq (m : Manifest) (timeout source : Nat) (ps : List PlacedTensor) (s : State) : addAdapter m timeout source ps s =
    setModel m.modelId (Model.withSlot m.slot (AdapterSlot.load m timeout source (freshShards s m source) ps)) s := rfl

/-- The first version of an adapter is staged in a slot of its own (R263). -/
theorem takeUp_adapter {h : Hdr} {m : Manifest} {timeout source : Nat} {ps : List PlacedTensor} {x : Model} {s : State}
    (adapter : m.kind = 1) (known : s.model m.modelId = some x) (new : x.slotOf m.slot = none) :
    ∃ y a v, (takeUp (answerNow h (declareOp m)) m timeout source ps s).model m.modelId = some y ∧ y.slotOf m.slot = some a ∧ a.next = 2 ∧
      a.versions = [v] ∧ v.version = 1 ∧ v.live = false ∧ v.manifest = m ∧ v.placed = ps := by
  have sameModels (t : State) (st d : Nat) (r : List Byte) : (answerNow h (declareOp m) st d r t).models = t.models := by simp [answerNow]
  rw [takeUp, if_neg (by omega), addAdapter_eq]
  refine ⟨_, _, _, (State.model_of_models (sameModels _ _ _ _) _).trans (setModel_known known (by intro; rfl)),
    (Model.slotOf_withSlot (by intro; rfl) x).trans (congrArg (fun a => some (AdapterSlot.load m timeout source _ ps (Option.getD a _))) new),
    rfl, rfl, rfl, rfl, rfl, rfl⟩

theorem verifiedStaged_single {s : State} {id slot : Nat} {m : Model} {a : AdapterSlot} {v : AdapterVer} (known : s.model id = some m)
    (found : m.slotOf slot = some a) (only : a.versions = [v]) (staged : v.live = false) (verified : ∀ x ∈ v.shards, x.state = 1) :
    verifiedStaged s id slot = some v := by
  have all : (v.shards.all fun x => x.state = 1) = true := by simpa using verified
  simp only [verifiedStaged, known, Option.bind_some, found, AdapterSlot.staged, only]
  simpa [staged] using verified

/-- The only version of a slot becomes live and current once it is verified (R263). -/
theorem enliven_single {s : State} {id slot : Nat} {m : Model} {a : AdapterSlot} {v : AdapterVer} (known : s.model id = some m)
    (found : m.slotOf slot = some a) (only : a.versions = [v]) (staged : v.live = false) (verified : ∀ x ∈ v.shards, x.state = 1) :
    enliven id slot s = makeLive id slot v s ∧
      ∃ m' a', (makeLive id slot v s).model id = some m' ∧ m'.slotOf slot = some a' ∧ a'.versions = [{ v with live := true, current := true }] := by
  have noLive : (((s.model id).bind fun m => m.slotOf slot).any fun a => a.versions.any fun w => w.live) = false := by
    simp only [known, Option.bind_some, found, Option.any_some, only]
    simp [staged]
  constructor
  · rw [enliven, verifiedStaged_single known found only staged verified]
    dsimp only
    rw [if_neg (by simp [noLive])]
  · refine ⟨_, _, setModel_known (f := Model.withSlot slot (AdapterSlot.enlivened v.version)) known (by intro; rfl),
      Model.slotOf_withSlot (by intro; rfl) m, ?_⟩
    simp [found, AdapterSlot.enlivened, only]

/-- A sorus of its own whose preconditions are one refusal leaves the models as they are until it commits (R377). -/
theorem plainSorus_prepared {i : Instr} {h : Hdr} {op : Nat} {f : State → Option (Nat × Nat)} {s : State}
    (allowed : f { s with fresh := s.fresh + 1 } = none) :
    OwnSorusPrepared i h s (ownSorus i h op (plainPrep f) s) ∧ (ownSorus i h op (plainPrep f) s).models = s.models := by
  have passes : plainPrep f (2 ^ 32 + s.fresh) 0 { s with fresh := s.fresh + 1 } = ({ s with fresh := s.fresh + 1 }, none) :=
    Prod.ext rfl allowed
  obtain ⟨principal, same⟩ := ownSorus_of_passes (i := i) (h := h) (op := op) passes
  exact ⟨(ownSorus_prepared passes).1, by rw [same]; simp⟩

/-- A model with a variant defined (R207). -/
def Model.withVariant (s : State) (p : VariantP) (es : List (Nat × Nat)) (m : Model) : Model :=
  let vs := (m.variants.filter fun v => v.id ≠ p.variant) ++ [⟨p.variant, p.slots, es, []⟩]
  { m with variants := vs.map fun v => { v with masks := maskRows m vs v.id }, tables := nextTables s m (markPrivate p.variant es) }

theorem reply_models (h : Hdr) (op st d : Nat) (r : List Byte) (s : State) : (reply h op st d r s).models = s.models := by simp

theorem badIf_slot {slot : Nat} (range : slot ≤ 63) : badIf (decide (63 < slot)) = none := by
  rw [decide_eq_false (by omega)]; rfl

theorem variantRefusal_of_allowed {s : State} {principal : Nat} {p : VariantP} {m : Model} {bs : List Byte} (known : s.model p.modelId = some m)
    (standing : m.state ≠ 4) (unused : ∀ r ∈ s.serve.reqs, r.p.modelId ≠ p.modelId)
    (bytes : windowBytes s principal ⟨p.window, p.offset, 4 * p.entries⟩ = some bs) (allowed : variantOk m p.variant (variantEntries bs) = true) :
    variantRefusal s principal false p = none := by
  have free : ¬ (s.serve.reqs.any fun r => r.p.modelId = p.modelId && r.p.variant = p.variant && !finalState r.state) = true := by
    simp only [List.any_eq_true, not_exists, not_and]
    intro r hr
    simp [unused r hr]
  simp only [variantRefusal, known]
  rw [if_neg standing, if_neg free, if_neg Bool.false_ne_true, bytes]
  simp [allowed, badIf]

/-- Settles O28: the versions of a slot through `SlotHas`, the suspects through `markSuspect_suspects`, the pool through `wakeModel_pool`. -/
theorem adaptersAndScrubbing : Obligations.AdaptersAndScrubbing := by
  unfold Obligations.AdaptersAndScrubbing
  refine ⟨?_, ?_, ?_, ?_, ?_, ?_, ?_, ?_, ?_, ?_, ?_⟩
  · intro h id slot w bs m ps e s s' served range active new bytes read kind own ownSlot room done same
    subst own ownSlot
    have inRange : badIf (decide (63 < m.slot) || decide (3600 < 0)) = none := by
      rw [show (decide (63 < m.slot) || decide (3600 < 0)) = false by simp; omega]; rfl
    obtain ⟨x, known⟩ := modelCode_active active
    have new' : x.slotOf m.slot = none := by simpa [known] using new
    have unstaged : ¬ (((s.model m.modelId).bind fun x => x.slotOf m.slot).bind fun a => a.staged).isSome = true := by simp [new]
    rw [exec, execAdapterLoad, hosted_of_served served inRange]
    rw [if_neg (by simp [active]), if_neg unstaged, bytes]
    simp only [read]
    rw [if_neg (by simp [kind]), if_neg (by simp [room]), placeManifest_of_done done]
    obtain ⟨y, a, v, loaded⟩ := takeUp_adapter (h := h) (timeout := shardSeconds 0) (source := e.principal) (ps := ps) kind
      ((State.model_of_models same _).trans known) new'
    exact ⟨_, y, a, v, rfl, loaded⟩
  · intro h id slot e s served range allowed
    rw [exec, execAdapterReplace, hosted_of_served served (badIf_slot range)]
    exact ⟨_, rfl, plainSorus_prepared allowed⟩
  · intro h id slot e s served range allowed
    rw [exec, execAdapterUnload, hosted_of_served served (badIf_slot range)]
    exact ⟨_, rfl, plainSorus_prepared allowed⟩
  · intro h id slot p sid k v s allowed staged
    obtain ⟨m', a', known, found, opened, ⟨w, hw, number, live, current⟩, rest⟩ := replaceCommit_slot (session := h.session) (tag := h.tag)
      (op := 0x0108) (force := tbit h.cflags 0) allowed staged
    exact ⟨m', a', w, known, found, opened, hw, number, live, current, rest⟩
  · intro h id slot p sid k s allowed
    obtain ⟨m', a', known, found, closed, rest⟩ := unloadCommit_slot (session := h.session) (tag := h.tag) (op := 0x0109)
      (force := tbit h.cflags 0) allowed
    exact ⟨m', a', known, found, closed, rest⟩
  · intro id slot m a v s known found only staged verified
    obtain ⟨same, m', a', known', found', versions⟩ := enliven_single known found only staged verified
    exact ⟨_, m', a', congrArg Host.Outcome.next same, known', found', versions, rfl, rfl⟩
  · intro h p bs m e s served keep positive bounded known standing unused bytes allowed
    have inRange : badIf (p.variant = 0 || decide (65535 < p.variant)) = none := by
      rw [show (decide (p.variant = 0) || decide (65535 < p.variant)) = false by simp; omega]; rfl
    have served' : Served (.variantDefine h p) h ⟨0x010A, roleModels, if tbit h.cflags 0 then 0 else featRoce⟩ e s := by
      rw [keep]; exact served
    rw [exec, execVariantDefine, hosted_of_served served' inRange, keep, variantCommit,
      variantRefusal_of_allowed known standing unused bytes allowed]
    simp only [bytes, Option.map_some, Option.getD_some, Bool.false_eq_true, if_false, answerNow]
    have defined := setModel_known (s := s) (f := Model.withVariant s p (variantEntries bs)) known (by intro; rfl)
    exact ⟨_, _, rfl, (State.model_of_models (reply_models _ _ _ _ _ _) _).trans defined, rfl, by simp [setModel]⟩
  · intro s
    rfl
  · intro a s
    rfl
  · intro a m s names known new
    obtain ⟨m', known', suspect, counted, cells⟩ := markSuspect_suspects (s := { s with mem := { s.mem with
      passes := wrap32 (s.mem.passes + 1), scrubNext := s.mem.scrubInterval } }) names known new
    exact ⟨_, m', rfl, known', suspect, counted, cells⟩
  · intro id b m s known verifying loading epochs clean noPool room
    have woken := wakeModel_pool (s := setModel id (fun m => { m with verifying := false }) s)
      (setModel_known known (by intro; rfl)) loading rfl epochs clean noPool room
    obtain ⟨known', mem⟩ := woken
    refine ⟨_, ⟨0, b, m.pageSets * setBytes m.manifest.layers, .kvPool id, none⟩, ?_, known', ?_, rfl, rfl, ?_⟩
    · simp only [exec, execReverifyComplete, known, verifying]
      rfl
    · rw [mem]
      simp [takeRegion]
    · rw [mem]
      rfl

end Sys2Proof.Machine

end

section

/-! ## What request actions and request events do: O30 -/

namespace Sys2Proof.Machine
open Sys2Proof.Claims

theorem State.req_of_serve {s t : State} (h : t.serve = s.serve) (id : Nat) : t.req id = s.req id := by rw [req, h, req]

theorem setReq_known {id : Nat} {f : Req → Req} {r : Req} {s : State} (known : s.req id = some r) (sameId : ∀ x, (f x).id = x.id) :
    (setReq id f s).req id = some (f r) := by
  rw [req_setReq _ _ sameId, known, Option.map_some]

theorem setReq_of_ne {n k : Nat} (h : n ≠ k) (f : Req → Req) (sameId : ∀ x, (f x).id = x.id) (s : State) : (setReq n f s).req k = s.req k :=
  find_updBy_ne _ _ f (fun x => by simp [sameId]) (fun x hx => by simp_all) _

theorem req_finish {id session tag op st d : Nat} {b : List Byte} {o : Option Req} {s : State} (h : s.req id = o) :
    (finish session tag op st d b s).req id = o :=
  (State.req_of_serve (by simp) id).trans h

theorem find_updBy_const {α : Type} {p : α → Bool} {x y : α} {xs : List α} (hy : p y = true) (found : xs.find? p = some x) :
    (updBy p (fun _ => y) xs).find? p = some y := by
  induction xs with
  | nil => simp at found
  | cons a xs ih =>
    by_cases ha : p a = true
    · simp [updBy, ha, hy]
    · have rest : xs.find? p = some x := by simpa [ha] using found
      simpa [updBy, ha] using ih rest

/-- The state of a request and the time of its pause: what stays while its pages go. -/
def State.standing (id : Nat) (s : State) : Option (Nat × Nat) := (s.req id).map fun r => (r.state, r.pausedAt)

theorem State.standing_of_serve {s t : State} (h : t.serve = s.serve) (id : Nat) : t.standing id = s.standing id := by
  rw [standing, standing, req_of_serve h]

theorem State.standing_some {id st at' : Nat} {s : State} (h : s.standing id = some (st, at')) :
    ∃ r, s.req id = some r ∧ r.state = st ∧ r.pausedAt = at' := by
  obtain ⟨r, known, same⟩ := Option.map_eq_some_iff.mp h
  exact ⟨r, known, congrArg Prod.fst same, congrArg Prod.snd same⟩

theorem setReq_standing {f : Req → Req} (sameId : ∀ r, (f r).id = r.id) (same : ∀ r, ((f r).state, (f r).pausedAt) = (r.state, r.pausedAt))
    (n id : Nat) (s : State) : (setReq n f s).standing id = s.standing id := by
  unfold State.standing
  by_cases own : n = id
  · subst own
    rw [req_setReq _ _ sameId, Option.map_map]
    exact congrArg (Option.map · _) (funext same)
  · rw [setReq_of_ne own _ sameId]

theorem freePages_standing (rid id : Nat) (s : State) : (freePages rid s).standing id = s.standing id := by
  unfold freePages
  split
  · rfl
  · exact (setReq_standing (by intro; rfl) (by intro; rfl) rid id _).trans (State.standing_of_serve rfl id)

theorem restAcct_serve (principal : Nat) (s : State) : (restAcct principal s).serve = s.serve := by simp

/-- A request that ends is in the state that ends it (R212 to R214). -/
theorem endRequest_state {id st status : Nat} {r : Req} {s : State} (known : s.req id = some r) (unfinished : finalState r.state = false) :
    ∃ r', (endRequest id st status s).req id = some r' ∧ r'.state = st := by
  suffices (endRequest id st status s).standing id = some (st, r.pausedAt) by
    obtain ⟨r', known', state, -⟩ := State.standing_some this
    exact ⟨r', known', state⟩
  rw [endRequest, known]
  dsimp only
  rw [if_neg (by simp [unfinished]), State.standing_of_serve (restAcct_serve _ _)]
  have ended (r' : Req) (own : r'.id = id) (same : (r'.state, r'.pausedAt) = (st, r.pausedAt)) :
      (sendDone r' status (setReq id (fun _ => r') s)).standing id = some (st, r.pausedAt) := by
    rw [State.standing_of_serve (s := setReq id (fun _ => r') s) (by simp), State.standing, State.req, setReq]
    dsimp only
    rw [find_updBy_const (by simp [own]) known, Option.map_some, same]
  have sameId : r.id = id := by simpa using List.find?_some known
  split
  · exact ended _ sameId rfl
  · exact (freePages_standing _ _ _).trans (ended _ sameId rfl)

theorem evictPaused_standing (rid id : Nat) (s : State) : (evictPaused rid s).standing id = s.standing id :=
  freePages_standing rid id s

theorem makeRoomLp_standing {account : Option Nat} {n id fuel : Nat} {s t : State} (h : makeRoomLp account n fuel s = some t) :
    t.standing id = s.standing id := by
  induction fuel generalizing s with
  | zero =>
    unfold makeRoomLp at h
    split at h
    · cases h; rfl
    · cases h
  | succ fuel ih =>
    unfold makeRoomLp at h
    split at h
    · cases h; rfl
    split at h
    · cases h
    · exact (ih h).trans (evictPaused_standing _ id s)

/-- Room made in LPDDR for a demand: nobody's state changes, paused requests may lose their pages (R279). -/
theorem demandRoom_standing (account : Option Nat) (n id : Nat) (s : State) :
    (∀ b t, demandRoom 1 account n s = .now b t → t.standing id = s.standing id) ∧
      ∀ t, demandRoom 1 account n s = .later t → t.standing id = s.standing id := by
  unfold demandRoom
  split
  · constructor
    · rintro b t h; cases h; rfl
    · rintro t h; cases h
  rw [if_pos rfl]
  dsimp only
  split
  · split
    · constructor
      · rintro b t h; cases h
      · rintro t h; cases h; rfl
    · constructor
      · rintro b t h; cases h
      · rintro t h; cases h
  next made =>
    split
    · constructor
      · rintro b t h; cases h; exact makeRoomLp_standing made
      · rintro t h; cases h
    · constructor
      · rintro b t h; cases h
      · rintro t h; cases h; exact makeRoomLp_standing made

theorem startPauseMove_standing (rid id : Nat) (s : State) : (startPauseMove rid s).standing id = s.standing id := by
  unfold startPauseMove
  split
  · rfl
  next r _ =>
    dsimp only
    split
    · rfl
    obtain ⟨now, later⟩ := demandRoom_standing none ((movable s r).length * setSize s r.p.modelId) id s
    split
    next b t room => exact (State.standing_of_serve (s := t) rfl id).trans (now b t room)
    next t room => exact (State.standing_of_serve (s := t) rfl id).trans (later t room)
    · rfl

/-- A request that pauses is PAUSED from now on, wherever its pages go (R227). -/
theorem becomePaused_state {id : Nat} {r : Req} {s : State} (known : s.req id = some r) :
    ∃ r', (becomePaused id s).req id = some r' ∧ r'.state = 5 ∧ r'.pausedAt = s.beat.elapsed := by
  refine State.standing_some ((startPauseMove_standing id id _).trans ?_)
  rw [State.standing, setReq_known known (by intro; rfl), Option.map_some]

/-- A request whose pages return has none, in HBM or in LPDDR (R161, R228). -/
theorem freePages_req {id : Nat} {r : Req} {s : State} (known : s.req id = some r) :
    (freePages id s).req id = some { r with pages := [], resumeSets := [] } ∧ ∀ g ∈ (freePages id s).mem.regions, g.owner ≠ .paused id := by
  simp only [freePages, known]
  constructor
  · exact setReq_known (f := fun r => { r with pages := [], resumeSets := [] }) ((State.req_of_serve rfl id).trans known) (by intro; rfl)
  · intro g hg
    simpa using (List.mem_filter.mp hg).2

/-- Pages that a store brings somewhere leave the requests as they are. -/
theorem storeBytes_fold_serve {α : Type} (at' : State → α → Nat) (bytes : State → α → List Byte) (xs : List α) (s : State) :
    (xs.foldl (fun s x => storeBytes (at' s x) (bytes s x) s) s).serve = s.serve :=
  foldl_keeps (fun s : State => s.serve) _ (fun s x => by simp) xs s

/-- The pages of a pause in LPDDR (R227). -/
def PageEntry.moved (ids : List Nat) (e : PageEntry) : PageEntry :=
  if e.tier = 1 && ids.contains e.pageSet then { e with tier := 2, shared := false, pageSet := ids.idxOf e.pageSet } else e

theorem finishPauseMove_req {id : Nat} {r : Req} {g : Region} {s : State} (known : s.req id = some r) (region : pausedRegion s id = some g)
    (paused : r.state = 5) (resting : r.resumeTo = none) (some' : movable s r ≠ []) :
    ∃ r', (finishPauseMove id s).req id = some r' ∧ r'.pages = r.pages.map (PageEntry.moved ((movable s r).map fun e => e.pageSet)) := by
  simp only [finishPauseMove, known, region]
  rw [if_neg (by simp [paused, resting, some'])]
  refine ⟨_, setReq_known ((State.req_of_serve ?_ id).trans known) (by intro; rfl), rfl⟩
  exact storeBytes_fold_serve (fun _ (x : PageEntry × Nat) => g.base + setSize s r.p.modelId * x.2)
    (fun s' x => s'.mem.read (setAddr s' r.p.modelId x.1.pageSet) (setSize s r.p.modelId)) _ s

theorem mem_movable {s : State} {r : Req} {e : PageEntry} (h : e ∈ movable s r) : e.tier = 1 := by
  have cond := (List.mem_filter.mp h).2
  simp only [Bool.and_eq_true] at cond
  exact of_decide_eq_true cond.1

theorem PageEntry.moved_movable {s : State} {r : Req} {e : PageEntry} (h : e ∈ movable s r) :
    (e.moved ((movable s r).map fun e => e.pageSet)).tier = 2 := by
  have named : ((movable s r).map fun e => e.pageSet).contains e.pageSet = true := by simpa using ⟨e, h, rfl⟩
  rw [moved, if_pos (by rw [named, mem_movable h]; rfl)]

theorem finishResumeMove_req {id st : Nat} {r : Req} {g : Region} {s : State} (known : s.req id = some r)
    (region : pausedRegion s id = some g) (resuming : r.resumeTo = some st) (taken : r.resumeSets ≠ []) :
    ∃ r', (finishResumeMove id s).req id = some r' ∧ r'.resumeSets = [] ∧ (∀ e ∈ r'.pages, e.tier ≠ 2) ∧
      ∀ g ∈ (finishResumeMove id s).mem.regions, g.owner ≠ .paused id := by
  simp only [finishResumeMove, known, region]
  rw [if_neg (by simp [resuming, taken])]
  refine ⟨_, setReq_known ((State.req_of_serve ?_ id).trans known) (by intro; rfl), rfl, ?_, ?_⟩
  · exact storeBytes_fold_serve (fun s' (x : Nat × Nat) => setAddr s' r.p.modelId x.1)
      (fun s' x => s'.mem.read (g.base + setSize s r.p.modelId * x.2) (setSize s r.p.modelId)) _ s
  · intro e he
    obtain ⟨x, -, rfl⟩ := List.mem_map.mp he
    split
    · exact (by decide : (1 : Nat) ≠ 2)
    next other => exact other
  · intro g hg
    simpa using (List.mem_filter.mp hg).2

theorem takeAcct_serve (principal : Nat) (s : State) : (takeAcct principal s).serve = s.serve := by simp

theorem find_append_new {rs : List Req} {r : Req} (new : ∀ x ∈ rs, x.id ≠ r.id) : (rs ++ [r]).find? (fun x => x.id = r.id) = some r := by
  have absent : rs.find? (fun x => x.id = r.id) = none := List.find?_eq_none.mpr fun x hx => by simpa using new x hx
  rw [List.find?_append, absent]
  simp

/-- A submission that is taken up waits as a request of its sender's (R209, R213). -/
theorem submitNow_req {h : Hdr} {p : SubmitP} {principal : Nat} {s : State} (allowed : submitRefusal s p = none)
    (new : ∀ r ∈ s.serve.reqs, r.id ≠ s.serve.nextReq) :
    ∃ r, (submitNow (answerLater h.session h.tag 0x0201) h.session h.tag principal p s).req s.serve.nextReq = some r ∧ r.state = 1 ∧
      r.principal = principal ∧ r.session = h.session ∧ r.tag = h.tag ∧ r.tokens = p.tokens ∧ r.fill = 0 ∧ r.pages = [] ∧ r.delivered = 0 ∧
      (submitNow (answerLater h.session h.tag 0x0201) h.session h.tag principal p s).serve.nextReq = s.serve.nextReq + 1 := by
  have entered (r : Req) (own : r.id = s.serve.nextReq) (u : State)
      (serve : u.serve = { s.serve with reqs := s.serve.reqs ++ [r], nextReq := s.serve.nextReq + 1 }) : u.req s.serve.nextReq = some r := by
    rw [State.req, serve, ← own]
    exact find_append_new (own ▸ new)
  simp only [submitNow, allowed, answerLater]
  by_cases given : subSeedGiven p = true
  · rw [if_pos given]
    exact ⟨_, req_finish (entered _ rfl _ (takeAcct_serve _ _)), rfl, rfl, rfl, rfl, rfl, rfl, rfl, rfl, by simp⟩
  · rw [if_neg given]
    exact ⟨_, req_finish (entered _ rfl _ (takeAcct_serve _ _)), rfl, rfl, rfl, rfl, rfl, rfl, rfl, rfl, by simp⟩

/-- Settles O30: the state of a request that ends or pauses through `endRequest_state` and `becomePaused_state`, the moves of its pages
through `finishPauseMove_req` and `finishResumeMove_req`. -/
theorem requestsChange : Obligations.RequestsChange := by
  unfold Obligations.RequestsChange
  refine ⟨?_, ?_, ?_, ?_, ?_, ?_, ?_, ?_, ?_, ?_, ?_, ?_, ?_, ?_, ?_, ?_⟩
  · intro h p e s open' allowed new
    obtain ⟨r, known, reqs⟩ := submitNow_req (h := h) (principal := e.principal) allowed new
    simp only [act, open']
    exact ⟨_, r, rfl, known, reqs⟩
  · intro h id r s known unfinished
    have running : r.state ≠ 0x10 := by rintro done; simp [done, finalState] at unfinished
    obtain ⟨r', known', state⟩ := endRequest_state (st := 0x11) (status := stCancelled) known unfinished
    refine ⟨r', ?_, state⟩
    simp only [act, cancelNow, known]
    rw [if_neg (by simp [running]), if_neg (by simp [unfinished])]
    exact req_finish known'
  · intro h id r s known final early
    simp only [act, cancelNow, known]
    rw [if_neg (by simp [early]), if_pos final]
    rfl
  · intro h id r s known unfinished notPaused noPause free
    have pausable : ¬ (finalState r.state || decide (r.state = 5) || r.pausePending) = true := by simp [unfinished, notPaused, noPause]
    simp only [act, pauseNow, known]
    rw [if_neg pausable]
    by_cases queued : r.state = 1
    · rw [if_pos queued]
      obtain ⟨r', known', state, since⟩ := becomePaused_state (s := leavePlans id s) known
      exact ⟨r', req_finish known', state, since⟩
    · rw [if_neg queued, if_neg (by simp [free.resolve_left queued])]
      obtain ⟨r', known', state, since⟩ := becomePaused_state known
      exact ⟨r', req_finish known', state, since⟩
  · intro h id r s known unfinished notPaused notQueued noPause stepping
    have pausable : ¬ (finalState r.state || decide (r.state = 5) || r.pausePending) = true := by simp [unfinished, notPaused, noPause]
    simp only [act, pauseNow, known]
    rw [if_neg pausable, if_neg notQueued, if_pos stepping]
    exact ⟨_, req_finish (setReq_known known (by intro; rfl)), rfl, rfl⟩
  · intro h id r s known paused resting noPages begun
    simp only [act, resumeNow, known]
    rw [if_neg (by simp [paused, resting]), if_pos (by simp [noPages, begun])]
    exact ⟨_, req_finish (setReq_known (setReq_known known (by intro; rfl)) (by intro; rfl)), rfl, rfl, rfl⟩
  · intro h id r s known paused resting pages near
    have none' : (r.pages.filter fun e => e.tier = 2).length = 0 := by
      rw [List.length_eq_zero_iff, List.filter_eq_nil_iff]
      exact fun e he => by simp [near e he]
    simp only [act, resumeNow, known]
    rw [if_neg (by simp [paused, resting]), if_neg (by simp [pages]), if_pos none']
    refine ⟨_, req_finish (setReq_known (s := dropRegions _ s) ((State.req_of_serve rfl id).trans known) (by intro; rfl)), rfl, ?_⟩
    simp only [Bool.or_eq_true, decide_eq_true_eq]
  · intro h id r s known
    simp only [act, queryNow, known]
    rfl
  · intro id r s known due unfinished
    obtain ⟨r', known', state⟩ := endRequest_state (st := 0x12) (status := stExpired) known unfinished
    refine ⟨_, r', ?_, known', state⟩
    simp only [exec, execReqExpire, known, due, expire]
    rfl
  · intro id r s known due resting
    have paused : r.state = 5 := by
      simp only [ttlDue, Bool.and_eq_true] at due
      exact of_decide_eq_true due.1
    obtain ⟨known', noRegion⟩ := freePages_req known
    refine ⟨_, _, ?_, known', paused, rfl, noRegion⟩
    simp only [exec, execPauseTtlExpire, known, due, lapse, paused, resting]
    rfl
  · intro id r s known due
    have paused : r.state = 5 := by
      simp only [holdDue, Bool.and_eq_true] at due
      exact of_decide_eq_true due.1.1
    obtain ⟨r', known', state⟩ := endRequest_state (st := 0x12) (status := stExpired) known (by simp [paused, finalState])
    refine ⟨_, r', ?_, known', state⟩
    simp only [exec, execPausedHoldExpire, known, due, expire]
    rfl
  · intro id r s known final old
    simp only [exec, execRequestForget, known, final, old]
    rfl
  · intro id r s known unfinished
    simp only [exec, execRequestForget, known, unfinished]
    rfl
  · intro id r s known paused resting
    simp only [exec, execPauseMoveRetry, known, paused, resting]
    rfl
  · intro id r g s known region paused resting pages
    obtain ⟨r', known', moved⟩ := finishPauseMove_req known region paused resting pages
    refine ⟨_, r', rfl, known', by rw [moved, List.length_map], fun e he k at' => ?_⟩
    exact ⟨_, by rw [moved, List.getElem?_map, at', Option.map_some], PageEntry.moved_movable he⟩
  · intro id st r g s known region resuming taken
    obtain ⟨r', known', resumed⟩ := finishResumeMove_req known region resuming taken
    exact ⟨_, r', rfl, known', resumed⟩

end Sys2Proof.Machine

end

section

/-! ## Programs, contexts and queues: O31 -/

namespace Sys2Proof.Machine
open Sys2Proof.Claims

theorem loadProgram_of_room {h : Hdr} {principal : Nat} {bs : List Byte} {m : Image} {s : State} (version : leAt bs 4 1 = 1)
    (parsed : parseImage bs = some m) (ok : imageOk m (layerDrops s) = true) (slots : s.jobs.programs.length < 256)
    (room : (s.jobs.programs.map fun p => p.image.imageBytes).sum + m.imageBytes ≤ 16777216) :
    loadProgram h principal bs s = replyOk h 0x0301 (leBytes 4 s.jobs.nextProgram) { s with jobs := { s.jobs with
      programs := s.jobs.programs ++ [⟨s.jobs.nextProgram, principal, m⟩], nextProgram := s.jobs.nextProgram + 1 } } := by
  rw [loadProgram, if_neg (by simp [version]), parsed]
  dsimp only
  rw [if_neg (by simp [ok]), if_neg (by simp; omega)]

theorem withdrawOne_keepsWork (n q : Nat) (p : Preempt) (s : State) :
    (withdrawOne n q p s).jobs.ctxs = s.jobs.ctxs ∧ (withdrawOne n q p s).jobs.cmds = s.jobs.cmds := by
  unfold withdrawOne
  split
  · exact ⟨rfl, rfl⟩
  dsimp only
  split
  · simp only [finish_keeps, and_self]
  · exact ⟨rfl, rfl⟩

theorem withdraw_ctxs (n q : Nat) (s : State) : (withdraw n q s).jobs.ctxs = s.jobs.ctxs :=
  foldl_keeps (fun s : State => s.jobs.ctxs) _ (fun s p => (withdrawOne_keepsWork n q p s).1) _ s

theorem withdraw_cmds (n q : Nat) (s : State) : (withdraw n q s).jobs.cmds = s.jobs.cmds :=
  foldl_keeps (fun s : State => s.jobs.cmds) _ (fun s p => (withdrawOne_keepsWork n q p s).2) _ s

theorem replyOk_jobs (h : Hdr) (op : Nat) (r : List Byte) (s : State) : (replyOk h op r s).jobs = s.jobs := by simp

theorem State.ctx_of_ctxs {s t : State} (h : t.jobs.ctxs = s.jobs.ctxs) (n : Nat) : t.ctx n = s.ctx n := by rw [ctx, h, ctx]

theorem setCtx_known {n : Nat} {f : Ctx → Ctx} {c : Ctx} {s : State} (known : s.ctx n = some c) (sameNum : ∀ x, (f x).num = x.num) :
    (setCtx n f s).ctx n = some (f c) := by
  rw [ctx_setCtx _ _ sameNum, known, Option.map_some]

/-- A queue with nothing that waits or runs has no command that has not ended. -/
theorem queue_idle {s : State} {n q : Nat} (free : queueBusy s n q = false) (empty : waitingOf s n q = []) :
    (s.jobs.cmds.any fun c => c.ctx = n && c.queue = q && c.kind ≠ .copy && !c.phase.over) = false := by
  rw [queueBusy, List.any_eq_false] at free
  rw [waitingOf, List.filter_eq_nil_iff] at empty
  rw [List.any_eq_false]
  intro c hc
  have notBusy := free c hc
  have notWaiting := empty c hc
  cases phase : c.phase <;> simp_all [Phase.over]

/-- A destroyed context has no handle left (R280). -/
theorem destroyCtx_handles {n : Nat} {c : Ctx} {s : State} (known : s.ctx n = some c) : ∀ x ∈ (destroyCtx n s).mem.handles, x.ctx ≠ n := by
  simp only [destroyCtx, known, restAcct_keeps, dropJobBlocks_keeps, freeHandlesOf]
  intro x hx
  simpa using (List.mem_filter.mp hx).2

/-- Settles O31, by the branch each command takes. -/
theorem programsContextsQueues : Obligations.ProgramsContextsQueues := by
  unfold Obligations.ProgramsContextsQueues
  refine ⟨?_, ?_, ?_, ?_, ?_, ?_⟩
  · intro h w bs m e s served bytes version parsed ok slots room
    rw [exec, execProgLoad, hosted_of_served served rfl, bytes]
    exact congrArg Host.Outcome.next (loadProgram_of_room version parsed ok slots room)
  · intro h program p e s served placed owner
    have inRange : (match s.program program with
      | none => some (stBadParam, 0)
      | some p => if p.owner = e.principal then none else some (stDenied, 0)) = none := by
      rw [placed]
      exact if_pos owner
    rw [exec, execProgUnload, hosted_of_served served inRange]
  · intro h p n e s served wdog member free
    have wdogOk : (p.wdog ≠ 0 && (decide (p.wdog < 1000) || decide (10000000 < p.wdog))) = false := by simp; omega
    rw [exec, execCtxCreate, hosted_of_served served (by rw [wdogOk, member]; rfl), free]
  · intro h n c e s served known notZero owner allowed
    refine ⟨_, exec_ctxDestroy_of_allowed served known notZero owner allowed, ctx_replyOk_destroyCtx .., ?_, ?_, by simp⟩
    · simp only [replyOk_keeps]
      exact destroyCtx_handles known
    · intro id x y hx ofCtx hy
      rw [cmd_of_jobs (s := destroyCtx n s) (by simp), cmd_destroyCtx known, cmd_endCmdsOf hx ofCtx] at hy
      exact (Cmd.over_of_ended hy).1
  · intro h n cls priority q c e s served allowed clsOk priorityOk known free
    have inRange : (match ctxRefusal s e.principal n with
      | some r => some r
      | none => badIf (decide (1 < cls) || decide (7 < priority))) = none := by
      rw [allowed, decide_eq_false (by omega), decide_eq_false (by omega)]
      rfl
    rw [exec, execQueueCreate, hosted_of_served served inRange, known, Option.bind_some, free]
  · intro h n q c e s served allowed known queue free empty
    have inRange : (match ctxRefusal s e.principal n with
      | some r => some r
      | none => badIf ((s.ctx n).bind fun c => c.queue q).isNone) = none := by
      rw [allowed, known, Option.bind_some, Option.isNone_eq_false_iff.mpr queue]
      rfl
    rw [exec, execQueueDestroy, hosted_of_served served inRange, queue_idle free empty, if_neg Bool.false_ne_true]
    have removed := setCtx_known (f := fun c => { c with queues := c.queues.filter fun e => e.num ≠ q }) known (by intro; rfl)
    refine ⟨_, _, rfl, (State.ctx_of_ctxs ?_ n).trans removed, ?_, by simp [setCtx], ?_⟩
    · rw [replyOk_jobs, withdraw_ctxs]
    · rw [Ctx.queue, List.find?_eq_none]
      intro x hx
      simpa using (List.mem_filter.mp hx).2
    · rw [replyOk_jobs, withdraw_cmds]
      rfl

end Sys2Proof.Machine

end

section

/-! ## Launches and pre-emption: O32 -/

namespace Sys2Proof.Machine
open Sys2Proof.Claims

/-! ### The queues of a context -/

/-- The queue of a context is there and has a property. -/
def HasQueue (P : Queue → Prop) (n q : Nat) (s : State) : Prop := ∃ c e, s.ctx n = some c ∧ c.queue q = some e ∧ P e

theorem HasQueue.of_ctxs {P : Queue → Prop} {n q : Nat} {s t : State} (h : HasQueue P n q s) (same : t.jobs.ctxs = s.jobs.ctxs) :
    HasQueue P n q t := by
  obtain ⟨c, e, known, found, holds⟩ := h
  exact ⟨c, e, (State.ctx_of_ctxs same n).trans known, found, holds⟩

theorem HasQueue.setQueue {P Q : Queue → Prop} {n q j : Nat} {f : Queue → Queue} {s : State} (h : HasQueue P n q s)
    (sameNum : ∀ e, (f e).num = e.num) (own : ∀ e, P e → j = q → Q (f e)) (others : ∀ e, P e → j ≠ q → Q e) :
    HasQueue Q n q (Machine.setQueue n j f s) := by
  obtain ⟨c, e, known, found, holds⟩ := h
  have changed := setCtx_known (f := fun c => { c with queues := updBy (fun e => e.num = j) f c.queues }) known (by intro; rfl)
  by_cases ownQueue : j = q
  · subst ownQueue
    refine ⟨_, f e, changed, ?_, own e holds rfl⟩
    rw [Ctx.queue, find_updBy _ _ (by intro x; simp [sameNum]), show c.queues.find? _ = some e from found, Option.map_some]
  · refine ⟨_, e, changed, ?_, others e holds ownQueue⟩
    rw [Ctx.queue, find_updBy_ne _ _ f (fun x => by simp [sameNum]) (fun x hx => by simp_all)]
    exact found

/-- Queues that one after the other are brought into a state. -/
theorem hasQueue_foldl {P : Queue → Prop} {n : Nat} {g : State → Nat → State}
    (brings : ∀ s j, HasQueue (fun _ => True) n j s → HasQueue P n j (g s j))
    (keeps : ∀ (Q : Queue → Prop) s j q, (Q = P ∨ Q = fun _ => True) → HasQueue Q n q s → HasQueue Q n q (g s j)) {q : Nat} {ts : List Nat}
    {s : State} (listed : q ∈ ts) (known : HasQueue (fun _ => True) n q s) : HasQueue P n q (ts.foldl g s) := by
  have kept (ts : List Nat) (s : State) (h : HasQueue P n q s) : HasQueue P n q (ts.foldl g s) := by
    induction ts generalizing s with
    | nil => exact h
    | cons j ts ih => exact ih _ (keeps P s j q (.inl rfl) h)
  induction ts generalizing s with
  | nil => cases listed
  | cons j ts ih =>
    by_cases own : j = q
    · subst own
      exact kept ts _ (brings s j known)
    · exact ih ((List.mem_cons.mp listed).resolve_left (Ne.symm own)) (keeps _ s j q (.inr rfl) known)

theorem record_jobs (type sev source : Nat) (p : List Byte) (s : State) : (record type sev source p s).jobs = s.jobs := by simp

theorem HasQueue.enter {P : Queue → Prop} {n q j st : Nat} {s : State} (h : HasQueue P n q s) (kept : ∀ e, P e → P { e with state := st }) :
    HasQueue P n q (Machine.setQueue n j (fun e => { e with state := st }) s) :=
  h.setQueue (fun _ => rfl) (fun e he _ => kept e he) fun _ he _ => he

theorem HasQueue.readyQueue {P Q : Queue → Prop} {n q j issuer : Nat} {s : State} (h : HasQueue P n q s)
    (own : ∀ e, P e → j = q → Q { e with state := 0x5B }) (others : ∀ e, P e → j ≠ q → Q e) : HasQueue Q n q (readyQueue n j issuer s) :=
  ((h.of_ctxs (withdraw_ctxs n j s)).setQueue (f := fun e => { e with state := 0x5B }) (fun _ => rfl) own others).of_ctxs
    (by rw [Machine.readyQueue, record_jobs])

theorem mem_preemptTargets {c : Ctx} {w q : Nat} {resume : Bool} (h : q ∈ preemptTargets c w resume) : ∃ e, c.queue q = some e := by
  obtain ⟨e, he, rfl⟩ := List.mem_map.mp h
  rw [← Option.isSome_iff_exists, Ctx.queue, List.find?_isSome]
  exact ⟨e, (List.mem_filter.mp he).1, by simp⟩

/-- The queues that a PREEMPT or a RESUME acts on are PREEMPTING, or READY again (R390, R391). -/
theorem applyPreempt_queues {p : Preempt} {c : Ctx} {s : State} (known : s.ctx p.ctx = some c)
    (targets : preemptTargets c (p.wanted.headD 0xFF) p.resume ≠ []) {q : Nat} (hq : q ∈ preemptTargets c (p.wanted.headD 0xFF) p.resume) :
    HasQueue (fun e => e.state = if p.resume then 0x5B else 0x5A) p.ctx q (applyPreempt p s) := by
  obtain ⟨e, found⟩ := mem_preemptTargets hq
  have some' : ¬ (preemptTargets c (p.wanted.headD 0xFF) p.resume).isEmpty = true := by rwa [List.isEmpty_iff]
  simp only [applyPreempt, known]
  rw [if_neg some']
  have known' (f : Preempt → Preempt) : HasQueue (fun _ => True) p.ctx q
      { s with jobs := { s.jobs with preempts := updBy (fun x => x = p) f s.jobs.preempts } } := ⟨c, e, known, found, trivial⟩
  cases resume : p.resume
  · simp only [Bool.false_eq_true, if_false]
    refine hasQueue_foldl (fun s j h => h.setQueue (f := fun e => { e with state := 0x5A }) (fun _ => rfl) (fun _ _ _ => rfl) fun _ _ other => absurd rfl other)
      (fun Q s j q either h => ?_) (resume ▸ hq) (known' _)
    obtain rfl | rfl := either
    · exact h.enter fun _ _ => rfl
    · exact h.enter fun _ _ => trivial
  · simp only [if_true]
    refine hasQueue_foldl (fun s j h => h.readyQueue (fun _ _ _ => rfl) fun _ _ other => absurd rfl other)
      (fun Q s j q either h => ?_) (resume ▸ hq) (known' _)
    obtain rfl | rfl := either
    · exact h.readyQueue (fun _ _ _ => rfl) fun _ he _ => he
    · exact h.readyQueue (fun _ _ _ => trivial) fun _ he _ => he

theorem setAcct_keepsWork (p : Nat) (f : Acct → Acct) (s : State) :
    (setAcct p f s).jobs.ctxs = s.jobs.ctxs ∧ (setAcct p f s).jobs.cmds = s.jobs.cmds ∧ (setAcct p f s).jobs.preempts = s.jobs.preempts ∧
      (setAcct p f s).mem = s.mem := by
  unfold setAcct
  dsimp only
  split <;> exact ⟨rfl, rfl, rfl, rfl⟩

theorem setAccts_keepsWork (f : Acct → Acct) (ps : List Nat) (s : State) :
    (ps.foldl (fun s p => setAcct p f s) s).jobs.ctxs = s.jobs.ctxs ∧ (ps.foldl (fun s p => setAcct p f s) s).jobs.cmds = s.jobs.cmds ∧
      (ps.foldl (fun s p => setAcct p f s) s).jobs.preempts = s.jobs.preempts ∧ (ps.foldl (fun s p => setAcct p f s) s).mem = s.mem :=
  ⟨foldl_keeps (fun s : State => s.jobs.ctxs) _ (fun s p => (setAcct_keepsWork p f s).1) ps s,
    foldl_keeps (fun s : State => s.jobs.cmds) _ (fun s p => (setAcct_keepsWork p f s).2.1) ps s,
    foldl_keeps (fun s : State => s.jobs.preempts) _ (fun s p => (setAcct_keepsWork p f s).2.2.1) ps s,
    foldl_keeps (fun s : State => s.mem) _ (fun s p => (setAcct_keepsWork p f s).2.2.2) ps s⟩

/-- A grant is counted in accounts alone (R398). -/
theorem countGrant_keepsWork (n : Nat) (s : State) :
    (countGrant n s).jobs.ctxs = s.jobs.ctxs ∧ (countGrant n s).jobs.cmds = s.jobs.cmds ∧
      (countGrant n s).jobs.preempts = s.jobs.preempts ∧ (countGrant n s).mem = s.mem := by
  unfold countGrant
  dsimp only
  split
  · exact setAccts_keepsWork _ _ s
  split
  · exact setAcct_keepsWork _ _ s
  · exact ⟨rfl, rfl, rfl, rfl⟩

theorem grantQueue_of_busy {n q : Nat} {s : State} (busy : queueBusy s n q = true) : grantQueue n q s = s := by
  unfold grantQueue
  split
  · rfl
  · rw [if_pos (by simp [busy])]

theorem accept_jobs (h : Hdr) (op : Nat) (r : List Byte) (s : State) : (accept h op r s).jobs = s.jobs := by simp

/-- A command that is placed stands last. -/
theorem addCmd_cmds (c : Cmd) (s : State) : (addCmd c s).jobs.cmds = s.jobs.cmds ++ [c] := by
  unfold addCmd
  dsimp only
  split <;> rfl

theorem addCmd_copy (c : Cmd) (s : State) (copy : c.kind = .copy) : (addCmd c s).jobs.ctxs = s.jobs.ctxs := by
  rw [addCmd, if_pos copy]

/-- A queue as its grant leaves it. -/
def Queue.granted (now : Nat) (e : Queue) : Queue := { e with state := 0x59, grants := sat32 (e.grants + 1), heldSince := now }

/-- A granted queue is HELD, and no PREEMPT waits for it any more (R390). -/
theorem grantQueue_held {n q : Nat} {c : Ctx} {e : Queue} {s : State} (known : s.ctx n = some c) (found : c.queue q = some e)
    (preempting : e.state = 0x5A) (free : queueBusy s n q = false) :
    HasQueue (fun e' => e'.state = 0x59 ∧ e'.grants = sat32 (e.grants + 1) ∧ e'.heldSince = s.now) n q (grantQueue n q s) ∧
      (∀ p ∈ (grantQueue n q s).jobs.preempts, p.ctx = n → q ∉ p.waiting) ∧ (grantQueue n q s).jobs.cmds = s.jobs.cmds ∧
      (grantQueue n q s).mem = s.mem := by
  have held : HasQueue (fun e' => e'.state = 0x59 ∧ e'.grants = sat32 (e.grants + 1) ∧ e'.heldSince = s.now) n q
      (Machine.setQueue n q (Queue.granted s.now) s) :=
    HasQueue.setQueue (P := fun x => x = e) ⟨c, e, known, found, rfl⟩ (fun _ => rfl) (fun x hx _ => by subst hx; exact ⟨rfl, rfl, rfl⟩)
      fun _ _ other => absurd rfl other
  have counted (t : State) (jobs : t.jobs = (Machine.setQueue n q (Queue.granted s.now) s).jobs) (mem : t.mem = s.mem) :
      (if e.cls = 0 then countGrant n t else t).jobs.ctxs = (Machine.setQueue n q (Queue.granted s.now) s).jobs.ctxs ∧
        (if e.cls = 0 then countGrant n t else t).jobs.cmds = s.jobs.cmds ∧ (if e.cls = 0 then countGrant n t else t).mem = s.mem := by
    obtain ⟨ctxs, cmds, -, mem'⟩ := countGrant_keepsWork n t
    split
    · exact ⟨ctxs.trans (by rw [jobs]), cmds.trans (by rw [jobs]; rfl), mem'.trans mem⟩
    · exact ⟨by rw [jobs], by rw [jobs]; rfl, mem⟩
  have grantable : ¬ (decide (e.state ≠ 0x5A) || queueBusy s n q) = true := by simp [preempting, free]
  simp only [grantQueue, known, Option.bind_some, found]
  rw [if_neg grantable]
  obtain ⟨ctxs, cmds, mem⟩ := counted _ (record_jobs _ _ _ _ _) (by simp [Machine.setQueue, setCtx])
  refine ⟨held.of_ctxs ctxs, ?_, cmds, mem⟩
  intro p hp own
  obtain ⟨x, -, rfl⟩ := List.mem_map.mp hp
  split
  · simp
  next other =>
    rw [if_neg other] at own
    simpa [own] using other

/-- Settles O32: the commands placed by `addCmd`, the queues that a pre-emption reaches through `HasQueue`. -/
theorem launchesAndPreemption : Obligations.LaunchesAndPreemption := by
  unfold Obligations.LaunchesAndPreemption
  refine ⟨?_, ?_, ?_, ?_, ?_, ?_, ?_, ?_⟩
  · intro h p m e s served allowed placed
    have inRange : (if h.sorus = 0 then launchRefusal s e.principal (namedEpoch h p) p else none) = none := by
      rw [allowed, ite_self]
    have placed' : (accept h 0x0303 (leBytes 4 s.jobs.nextCmd) s).program p.program = some m := by
      rw [State.program, accept_jobs, ← State.program]
      exact placed
    rw [exec, execLaunch, hosted_of_served served inRange, takeLaunch, placed']
    refine ⟨_, _, rfl, (addCmd_cmds _ _).trans (by rw [accept_jobs]), ?_, rfl, rfl, rfl, rfl, rfl, rfl, ?_, ?_⟩
    · exact congrArg JobSt.nextCmd (accept_jobs _ _ _ _)
    · simp
    · simp
  · intro h p e s served allowed
    rw [exec, execCopy, hosted_of_served served allowed]
    refine ⟨_, _, rfl, (addCmd_cmds _ _).trans (by rw [accept_jobs]), ?_, rfl, rfl, rfl, ?_, ?_, ?_⟩
    · exact congrArg JobSt.nextCmd (accept_jobs _ _ _ _)
    · simp [newCmd, State.now]
    · simp
    · rw [addCmd_copy _ _ rfl, accept_jobs]
  · intro p m c s placed known queue ready sound model epoch fit rows samples bound shared room
    have hasQueue : ∃ e, ((s.ctx 0).bind fun c => c.queue p.queue) = some e := by
      rw [known, Option.bind_some]
      exact Option.isSome_iff_exists.mp queue
    obtain ⟨e, hasQueue⟩ := hasQueue
    have kept := (freezePlan_keeps p.decode p.modelId p.fixedEpoch (fullPlan s p) s).2.2.2.2.2.2.2.2.1
    simp only [exec, execServingStepLaunch, placed, hasQueue]
    rw [if_neg (by simp [ready, sound, model, epoch, fit, rows, samples, bound, shared, room])]
    generalize freezePlan p.decode p.modelId p.fixedEpoch (fullPlan s p) s = frozen at kept ⊢
    refine ⟨_, newCmd frozen.2 0 p.queue .step ⟨0, 0, 0, p.program, p.handles, [], 0, p.modelId, p.fixedEpoch, true, 0, p.decode, frozen.1,
      none⟩ m.image (beatAdd frozen.2.now 1), rfl, rfl, rfl, rfl, rfl, rfl, rfl, ?_, ?_⟩
    · rw [addCmd_cmds]
      exact List.mem_append_right _ (List.mem_singleton.mpr rfl)
    · rw [addCmd_cmds, List.length_append, kept]
      rfl
  · intro h n q b e s served allowed
    have inRange : preemptRanges h n q false e s = none := by rw [preemptRanges, allowed, ite_self]
    rw [exec, execPreempt, hosted_of_served served inRange]
  · intro h n q b e s served allowed
    have inRange : preemptRanges h n q true e s = none := by rw [preemptRanges, allowed, ite_self]
    rw [exec, execPreemptResume, hosted_of_served served inRange]
  · intro p c s known targets
    obtain ⟨q₀, hq₀⟩ := List.exists_mem_of_ne_nil _ targets
    obtain ⟨c', -, known', -, -⟩ := applyPreempt_queues known targets hq₀
    refine ⟨c', known', fun q hq => ?_⟩
    obtain ⟨c'', e', known'', found, state⟩ := applyPreempt_queues known targets hq
    obtain rfl : c' = c'' := Option.some.inj (known'.symm.trans known'')
    exact ⟨e', found, state⟩
  · intro n q c e s known found preempting free
    obtain ⟨⟨c', e', known', found', state, grants, since⟩, served, cmds, mem⟩ := grantQueue_held known found preempting free
    exact ⟨_, c', e', rfl, known', found', state, grants, since, served, cmds, mem⟩
  · intro n q s busy
    rw [exec, execPreemptGrant, grantQueue_of_busy busy]

end Sys2Proof.Machine

end

section

/-! ## Accounts and allocations: O33 -/

namespace Sys2Proof.Machine
open Sys2Proof.Claims

/-- Outside a range that becomes undefined memory reads as before (R278). -/
theorem readByte_undefine_outside {u : Undef} {k : Nat} (outside : ¬ (u.base ≤ k ∧ k < u.base + u.bytes)) (m : MemSt) :
    (m.undefine u).readByte k = m.readByte k := by
  have cells : (m.undefine u).cells.find? (fun c => c.1 = k) = m.cells.find? (fun c => c.1 = k) := by
    rw [MemSt.undefine, List.find?_filter]
    refine congrArg (List.find? · m.cells) (funext fun c => ?_)
    by_cases hc : c.1 = k
    · subst hc
      simp; omega
    · simp [hc]
  have undef : (m.undefine u).undefAt k = m.undefAt k := by
    simp only [MemSt.undefAt, MemSt.undefine]
    rw [List.find?_cons_of_neg (by simp; omega)]
  rw [MemSt.readByte, MemSt.readByte, cells, undef]

/-- The plain handle that an allocation makes (R278, R367). -/
def plainHandle (p : AllocP) (a : Account) (base job : Nat) (id : Nat) : Handle :=
  ⟨id, a.ctx, job, 0, p.rights, p.account, a.tier, base, roundUp64K p.bytes, none, 0, p.modelId, p.plan, p.stripeBase, [], none⟩

/-- A plain allocation makes its handle; its range reads as undefined from then on (R278). -/
theorem makeHandle_plain {ans : Answer} {p : AllocP} {a : Account} {base : Nat} {s : State} (plain : p.kind = 0) (noWindow : allocRoce p = false)
    (some' : roundUp64K p.bytes ≠ 0) (sameMem : ∀ st d r u, (ans st d r u).mem = u.mem) :
    ∃ seed job, (makeHandle ans p a base s).mem.handles = s.mem.handles ++ [plainHandle p a base job s.mem.nextHandle] ∧
      (makeHandle ans p a base s).mem.nextHandle = s.mem.nextHandle + 1 ∧ (makeHandle ans p a base s).mem.regions = s.mem.regions ∧
      ∀ k, (makeHandle ans p a base s).mem.readByte k = (s.mem.undefine ⟨base, roundUp64K p.bytes, seed⟩).readByte k := by
  have size : regionSize p = roundUp64K p.bytes := by rw [regionSize, if_neg (by omega), if_pos plain]
  refine ⟨s.fresh, ((s.ctx a.ctx).map fun c => c.job).getD 0, ?_⟩
  simp only [makeHandle, noWindow, size, plain, sameMem]
  simp only [Bool.false_eq_true, if_false, some']
  exact ⟨rfl, rfl, rfl, fun _ => rfl⟩

theorem roundUp64K_ne_zero {n : Nat} (h : n ≠ 0) : roundUp64K n ≠ 0 := by
  unfold roundUp64K
  omega

theorem reply_mem (h : Hdr) (op st d : Nat) (r : List Byte) (s : State) : (reply h op st d r s).mem = s.mem := by simp

theorem find_append_handle {hs : List Handle} {x : Handle} (new : hs.find? (fun y => y.id = x.id) = none) :
    (hs ++ [x]).find? (fun y => y.id = x.id) = some x := by
  rw [List.find?_append, new]
  simp

theorem mem_updBy {α : Type} {p : α → Bool} {f : α → α} {xs : List α} {x : α} (h : x ∈ updBy p f xs) :
    (∃ y, p y = true ∧ x = f y) ∨ p x = false := by
  obtain ⟨y, -, rfl⟩ := List.mem_map.mp h
  by_cases hy : p y = true
  · exact .inl ⟨y, hy, if_pos hy⟩
  · rw [if_neg hy]
    exact .inr (Bool.not_eq_true _ ▸ hy)

/-- A freed handle is gone with its windows, and its region is no handle's any more; no byte changes (R280). -/
theorem freeHandle_of_free {h : Hdr} {n : Nat} {x : Handle} {s : State} (known : s.handle n = some x) (free : freeConflict s n = none) :
    (freeHandle (answerNow h 0x0403) n s).handle n = none ∧ (freeHandle (answerNow h 0x0403) n s).mem.cells = s.mem.cells ∧
      (freeHandle (answerNow h 0x0403) n s).mem.undef = s.mem.undef ∧ (∀ w ∈ (freeHandle (answerNow h 0x0403) n s).mem.windows, w.2 ≠ n) ∧
      ∀ g ∈ (freeHandle (answerNow h 0x0403) n s).mem.regions, g.owner ≠ .handle n := by
  have kept (b : Prop) [Decidable b] (f : Account → Account) : (if b then s else setAccount x.account f s).mem.cells = s.mem.cells ∧
      (if b then s else setAccount x.account f s).mem.undef = s.mem.undef := by
    split <;> exact ⟨rfl, rfl⟩
  simp only [freeHandle, known, free, answerNow]
  simp only [State.handle, reply_mem]
  refine ⟨?_, (kept _ _).1, (kept _ _).2, ?_, ?_⟩
  · rw [List.find?_eq_none]
    intro y hy
    simpa using (List.mem_filter.mp hy).2
  · intro w hw
    simpa using (List.mem_filter.mp hw).2
  · intro g hg
    obtain ⟨y, -, rfl⟩ | other := mem_updBy hg
    · exact Owner.noConfusion
    · exact of_decide_eq_false other

/-- Settles O33: the handle of an allocation by `makeHandle_plain`, its end by `freeHandle_of_free`. -/
theorem accountsAndAllocations : Obligations.AccountsAndAllocations := by
  unfold Obligations.AccountsAndAllocations
  refine ⟨?_, ?_, ?_, ?_⟩
  · intro h n tier reserve limit i e s served allowed tierOk limitOk free room
    have inRange : (match ctxRefusal s e.principal n with
      | some r => some r
      | none => badIf (decide (1 < tier) || decide (limit < reserve))) = none := by
      rw [allowed, decide_eq_false (by omega), decide_eq_false (by omega)]
      rfl
    rw [exec, execPoolCreate, hosted_of_served served inRange, free]
    exact congrArg Host.Outcome.next (if_neg (by omega))
  · intro h p a b e s served plain noWindow fields allowed account room new
    have size : regionSize p = roundUp64K p.bytes := by rw [regionSize, if_neg (by omega), if_pos plain]
    have some' : roundUp64K p.bytes ≠ 0 := roundUp64K_ne_zero fun none' => by
      simp [allocBad, plain, noWindow, none'] at fields
    have served' : Served (.alloc h p) h ⟨0x0402, roleJobs, if allocRoce p then featRoce else 0⟩ e s := by
      rw [noWindow]
      exact served
    have inRange : (if allocBad p = true then some (stBadParam, 0)
        else if h.sorus = 0 then allocRefusal s e.principal [s.boot.pkg] p else none) = none := by
      rw [fields, if_neg Bool.false_ne_true, allowed, ite_self]
    have atOnce : demandRoom a.tier (some a.id) (regionSize p) s = .now b s := by
      rw [demandRoom, size, room]
    rw [exec, execAlloc, hosted_of_served served' inRange]
    simp only [allocNow, account]
    rw [if_neg (by rwa [size]), atOnce]
    dsimp only
    rw [finishAlloc, account]
    dsimp only
    rw [if_neg (by rwa [size]), size]
    obtain ⟨seed, job, handles, next, regions, reads⟩ := makeHandle_plain (ans := answerNow h 0x0402) (p := p) (a := a) (base := b)
      (s := takeRegion a.tier b (roundUp64K p.bytes) (.handle s.mem.nextHandle) s) plain noWindow some' fun st d r u => reply_mem _ _ _ _ _ _
    refine ⟨_, plainHandle p a b job s.mem.nextHandle, rfl, ?_, rfl, rfl, rfl, rfl, rfl, rfl, rfl, ?_, next, fun k outside => ?_⟩
    · rw [State.handle, handles]
      exact find_append_handle (x := plainHandle p a b job s.mem.nextHandle) new
    · rw [regions]
      exact ⟨⟨a.tier, b, roundUp64K p.bytes, .handle s.mem.nextHandle, none⟩, List.mem_append_right _ (List.mem_singleton.mpr rfl), rfl, rfl, rfl⟩
    · rw [reads, readByte_undefine_outside outside]
      rfl
  · intro h n x e s served known allowed free
    have inRange : handleRanges n e s = none := by simp [handleRanges, known, allowed]
    rw [exec, execFree, hosted_of_served served inRange]
    exact ⟨_, rfl, freeHandle_of_free known free⟩
  · intro h n x e s served known allowed bound
    have inRange : handleRanges n e s = none := by simp [handleRanges, known, allowed]
    have refused : freeConflict s n = some (stConflict, 0x50) := by
      unfold freeConflict at bound ⊢
      split
      · rfl
      next free => exact absurd (if_neg free) bound
    rw [exec, execFree, hosted_of_served served inRange, freeHandle, known, refused]
    rfl

end Sys2Proof.Machine

end

section

/-! ## Context faults: how a running command ends, and what its context loses (R394 to R397) -/

namespace Sys2Proof.Machine

theorem State.cmd_of_cmds {s t : State} (h : t.jobs.cmds = s.jobs.cmds) (id : Nat) : t.cmd id = s.cmd id := by rw [cmd, h, cmd]

/-- The cause that a context carries (R401). -/
def State.causeOf (n : Nat) (s : State) : Option Nat := (s.ctx n).map fun x => x.cause

theorem State.causeOf_of_ctxs {s t : State} (h : t.jobs.ctxs = s.jobs.ctxs) (n : Nat) : t.causeOf n = s.causeOf n := by
  rw [causeOf, causeOf, ctx_of_ctxs h]

theorem setCtx_causeOf {f : Ctx → Ctx} (sameNum : ∀ x, (f x).num = x.num) (same : ∀ x, (f x).cause = x.cause) (k n : Nat) (s : State) :
    (setCtx k f s).causeOf n = s.causeOf n := by
  unfold State.causeOf
  by_cases own : k = n
  · subst own
    rw [ctx_setCtx _ _ sameNum, Option.map_map]
    exact congrArg (Option.map · _) (funext same)
  · rw [ctx_setCtx_of_ne (Ne.symm own) _ sameNum]

theorem endCmd_causeOf (id status n : Nat) (s : State) : (endCmd id status s).causeOf n = s.causeOf n := by
  obtain ⟨_, same⟩ | ⟨c, _, ⟨_, gone⟩ | ⟨_, same⟩ | ⟨_, _, cut⟩⟩ := endCmd_cases id status s
  · rw [same]
  · exact State.causeOf_of_ctxs (by rw [gone]) n
  · rw [same]
  · rw [State.causeOf_of_ctxs (congrArg JobSt.ctxs cut)]
    exact (setCtx_causeOf (f := Ctx.blockGen _ _) (fun _ => rfl) (fun _ => rfl) _ _ _).trans (State.causeOf_of_ctxs rfl n)

theorem endCmds_causeOf (status n : Nat) (cs : List Cmd) (s : State) :
    (cs.foldl (fun s c => endCmd c.id status s) s).causeOf n = s.causeOf n :=
  foldl_keeps (State.causeOf n) (fun s (c : Cmd) => endCmd c.id status s) (fun s c => endCmd_causeOf c.id status n s) cs s

theorem finishes_jobs {α : Type} (g : State → α → State) (h : ∀ s x, (g s x).jobs = s.jobs) (xs : List α) (s : State) :
    (xs.foldl g s).jobs = s.jobs := foldl_keeps State.jobs g h xs s

/-- Dropping the staged launches of a context takes waiting commands away and nothing else of the jobs (R396). -/
theorem dropStaged_jobs (n : Nat) (s : State) : ∃ p : Cmd → Bool, (∀ c, c.phase ≠ .waiting → p c = true) ∧
    (dropStaged n s).jobs = { s.jobs with cmds := s.jobs.cmds.filter p } := by
  refine ⟨fun c => !(c.ctx = n && c.phase = .waiting && c.launch.stagedAt = some s.now), fun c hc => by simp [hc], ?_⟩
  have told (cs : List Cmd) : (cs.foldl (fun s c => finish c.launch.session c.launch.tag (cmdOpcode c) stConflict 0x58 [] s) s).jobs = s.jobs :=
    finishes_jobs _ (fun s c => by simp) cs s
  simp only [dropStaged, told]

theorem find_filter_of_some {α : Type} {p q : α → Bool} {xs : List α} {x : α} (found : xs.find? p = some x) (kept : q x = true) :
    (xs.filter q).find? p = some x := by
  induction xs with
  | nil => cases found
  | cons y ys ih =>
    by_cases hy : p y = true
    · rw [List.find?_cons_of_pos hy] at found
      obtain rfl := Option.some.inj found
      rw [List.filter_cons_of_pos kept, List.find?_cons_of_pos hy]
    · rw [List.find?_cons_of_neg hy] at found
      by_cases hq : q y = true
      · rw [List.filter_cons_of_pos hq, List.find?_cons_of_neg hy]
        exact ih found
      · rw [List.filter_cons_of_neg hq]
        exact ih found

theorem dropStaged_cmd {n id : Nat} {c : Cmd} {s : State} (known : s.cmd id = some c) (started : c.phase ≠ .waiting) :
    (dropStaged n s).cmd id = some c := by
  obtain ⟨p, kept, jobs⟩ := dropStaged_jobs n s
  rw [State.cmd, jobs]
  exact find_filter_of_some known (kept c started)

theorem dropStaged_ctxs (n : Nat) (s : State) : (dropStaged n s).jobs.ctxs = s.jobs.ctxs := by
  obtain ⟨p, -, jobs⟩ := dropStaged_jobs n s
  rw [jobs]

/-- What stands of a context after its teardown (R394, R397). -/
theorem tearDown_ctx {n : Nat} {x : Ctx} {s : State} (known : s.ctx n = some x) (notLimcel : n ≠ 0) (untorn : x.torn = false) :
    ∃ x', (tearDown n s).ctx n = some x' ∧ x'.torn = true ∧ x'.queues = [] ∧ x'.cause = x.cause := by
  have ended : (endCmdsOf n stContextFault (dropStaged n s)).causeOf n = some x.cause := by
    rw [endCmdsOf, endCmds_causeOf, State.causeOf_of_ctxs (dropStaged_ctxs n s), State.causeOf, known, Option.map_some]
  obtain ⟨y, hy, cause⟩ := Option.map_eq_some_iff.mp ended
  have freed (u : State) : (freeHandlesOf n (dropJobBlocks x.job u)).jobs = u.jobs := by simp
  have torn (u : State) (hu : u.jobs.ctxs = (endCmdsOf n stContextFault (dropStaged n s)).jobs.ctxs) :
      (setCtx n (fun c => { c with queues := [] })
        (freeHandlesOf n (dropJobBlocks x.job (setCtx n (fun c => { c with torn := true }) u)))).ctx n =
        some { y with torn := true, queues := [] } :=
    setCtx_known ((State.ctx_of_ctxs (congrArg JobSt.ctxs (freed _)) n).trans
      (setCtx_known ((State.ctx_of_ctxs hu n).trans hy) (by intro; rfl))) (by intro; rfl)
  simp only [tearDown, known]
  rw [if_neg (by simp [notLimcel, untorn])]
  exact ⟨_, torn _ (by simp [endWaits_jobs]), rfl, rfl, cause⟩

theorem tearDown_cmd {n id : Nat} {x : Ctx} {s : State} (known : s.ctx n = some x) (notLimcel : n ≠ 0) (untorn : x.torn = false) :
    (tearDown n s).cmd id = (endCmdsOf n stContextFault (dropStaged n s)).cmd id := by
  simp only [tearDown, known]
  rw [if_neg (by simp [notLimcel, untorn])]
  simp only [State.cmd, setCtx, dropJobBlocks_keeps, freeHandlesOf_keeps, endWaits_jobs]

theorem freeHandlesOf_handles (n : Nat) (u : State) : ∀ h ∈ (freeHandlesOf n u).mem.handles, h.ctx ≠ n := by
  intro h hh
  rw [freeHandlesOf] at hh
  simpa using (List.mem_filter.mp hh).2

theorem setCtx_mem (n : Nat) (f : Ctx → Ctx) (s : State) : (setCtx n f s).mem = s.mem := rfl

theorem tearDown_handles {n : Nat} {x : Ctx} {s : State} (known : s.ctx n = some x) (notLimcel : n ≠ 0) (untorn : x.torn = false) :
    ∀ h ∈ (tearDown n s).mem.handles, h.ctx ≠ n := by
  simp only [tearDown, known]
  rw [if_neg (by simp [notLimcel, untorn]), setCtx_mem]
  exact freeHandlesOf_handles n _

/-- A running command of a context that is torn down is cut (R148, R394). -/
theorem tearDown_cmd_of_running {id : Nat} {c : Cmd} {x : Ctx} {s : State} (known : s.cmd id = some c) (running : c.phase ≠ .waiting)
    (context : s.ctx c.ctx = some x) (notLimcel : c.ctx ≠ 0) (untorn : x.torn = false) : (tearDown c.ctx s).cmd id = c.ended := by
  rw [tearDown_cmd context notLimcel untorn]
  exact cmd_endCmdsOf (dropStaged_cmd known running) rfl stContextFault

/-! ### The noted fault -/

theorem noteFault_cmds (n cause source seq mark : Nat) (s : State) : (noteFault n cause source seq mark s).jobs.cmds = s.jobs.cmds := by
  rw [noteFault, record_jobs]
  rfl

/-- A fault is noted in its context: the first one's cause stays (R401). -/
theorem noteFault_ctx {n cause source seq mark : Nat} {x : Ctx} {s : State} (known : s.ctx n = some x) :
    ∃ x', (noteFault n cause source seq mark s).ctx n = some x' ∧ x'.torn = x.torn ∧
      x'.cause = if x.faulted.count = 0 then cause else x.cause := by
  have noted := setCtx_known (f := fun c => { c with
    faulted := c.faulted.hit
    cause := if c.faulted.count = 0 then cause else c.cause
    faultSeq := if c.faulted.count = 0 then seq else c.faultSeq
    faultSource := if c.faulted.count = 0 then source else c.faultSource
    faultMark := if c.faulted.count = 0 then mark else c.faultMark }) known (by intro; rfl)
  exact ⟨_, (State.ctx_of_ctxs (by rw [noteFault, record_jobs]) n).trans noted, rfl, rfl⟩

/-- The context fault of a running command of a host's context (R394 to R396). -/
theorem contextFault_torn {id cause code : Nat} {desc : Option Nat} {c : Cmd} {x : Ctx} {s : State} (known : s.cmd id = some c)
    (running : c.phase = .running) (context : s.ctx c.ctx = some x) (notLimcel : c.ctx ≠ 0) (untorn : x.torn = false) :
    (contextFault id cause code desc s).cmd id = c.ended ∧
      (∃ x', (contextFault id cause code desc s).ctx c.ctx = some x' ∧ x'.torn = true ∧ x'.queues = [] ∧
        x'.cause = if x.faulted.count = 0 then cause else x.cause) ∧
      ∀ h ∈ (contextFault id cause code desc s).mem.handles, h.ctx ≠ c.ctx := by
  have torn (source seq mark : Nat) :
      (tearDown c.ctx (noteFault c.ctx cause source seq mark s)).cmd id = c.ended ∧
        (∃ x', (tearDown c.ctx (noteFault c.ctx cause source seq mark s)).ctx c.ctx = some x' ∧ x'.torn = true ∧ x'.queues = [] ∧
          x'.cause = if x.faulted.count = 0 then cause else x.cause) ∧
        ∀ h ∈ (tearDown c.ctx (noteFault c.ctx cause source seq mark s)).mem.handles, h.ctx ≠ c.ctx := by
    obtain ⟨y, hy, stillUp, first⟩ := noteFault_ctx (cause := cause) (source := source) (seq := seq) (mark := mark) context
    obtain ⟨x', hx', isTorn, noQueues, sameCause⟩ := tearDown_ctx hy notLimcel (stillUp.trans untorn)
    exact ⟨tearDown_cmd_of_running ((State.cmd_of_cmds (noteFault_cmds ..) id).trans known) (by simp [running]) hy notLimcel (stillUp.trans untorn),
      ⟨x', hx', isTorn, noQueues, sameCause.trans first⟩, tearDown_handles hy notLimcel (stillUp.trans untorn)⟩
  simp only [contextFault, known]
  rw [if_pos (by simp [running]), if_neg notLimcel]
  exact torn code _ _

theorem endRequest_cmds (id state status : Nat) (s : State) : (endRequest id state status s).jobs.cmds = s.jobs.cmds := by
  unfold endRequest
  split
  · rfl
  split
  · rfl
  dsimp only
  rw [restAcct_cmds]
  split
  · simp [setReq]
  · simp [setReq]

theorem endRequests_cmds (state status : Nat) (is : List PlanItem) (s : State) :
    (is.foldl (fun s i => endRequest i.request state status s) s).jobs.cmds = s.jobs.cmds :=
  foldl_keeps (fun s : State => s.jobs.cmds) (fun s (i : PlanItem) => endRequest i.request state status s)
    (fun s i => endRequest_cmds i.request state status s) is s

/-- A fault of a command in Limcel's own context ends the command (R395). -/
theorem contextFault_limcel {id cause code : Nat} {desc : Option Nat} {c : Cmd} {s : State} (known : s.cmd id = some c)
    (running : c.phase = .running) (limcel : c.ctx = 0) : (contextFault id cause code desc s).cmd id = c.ended := by
  have idem : c.ended.bind Cmd.ended = c.ended := Cmd.bind_ended_bind_ended (some c)
  simp only [contextFault, known]
  rw [if_pos (by simp [running]), if_pos limcel, cmd_foldl_endCmd, State.cmd_of_cmds (endRequests_cmds _ _ _ _), cmd_endCmd,
    State.cmd_of_cmds (noteFault_cmds ..), known, Option.bind_some, idem, ite_self]

end Sys2Proof.Machine

end

section

/-! ## Moves between tiers and memory errors: O34 -/

namespace Sys2Proof.Machine
open Sys2Proof.Claims

/-! ### The words that read as uncorrectable stay so (log 123) -/

theorem restAcct_mem (principal : Nat) (s : State) : (restAcct principal s).mem = s.mem := by simp

theorem freePages_bad (rid : Nat) (s : State) : (freePages rid s).mem.bad = s.mem.bad := by
  unfold freePages
  split <;> rfl

theorem endRequest_bad (id state status : Nat) (s : State) : (endRequest id state status s).mem.bad = s.mem.bad := by
  unfold endRequest
  split
  · rfl
  split
  · rfl
  dsimp only
  rw [restAcct_mem]
  have told (r' : Req) : (sendDone r' status (setReq id (fun _ => r') s)).mem.bad = s.mem.bad := by simp [setReq]
  split
  · exact told _
  · exact (freePages_bad _ _).trans (told _)

theorem endWaits_bad (n status : Nat) (s : State) : (endWaits n status s).mem.bad = s.mem.bad := by
  simp [endWaits]

theorem dropStaged_mem (n : Nat) (s : State) : (dropStaged n s).mem = s.mem := by simp [dropStaged]

theorem tearDown_bad (n : Nat) (s : State) : (tearDown n s).mem.bad = s.mem.bad := by
  unfold tearDown
  split
  · rfl
  split
  · rfl
  · simp only [setCtx_mem, freeHandlesOf, dropJobBlocks_keeps, endWaits_bad, endCmdsOf_keeps, dropStaged_mem]

theorem contextFault_bad (id cause code : Nat) (desc : Option Nat) (s : State) :
    (contextFault id cause code desc s).mem.bad = s.mem.bad := by
  have requests (is : List PlanItem) (s : State) : (is.foldl (fun s i => endRequest i.request 0x11 stContextFault s) s).mem.bad = s.mem.bad :=
    foldl_keeps (fun s : State => s.mem.bad) (fun s (i : PlanItem) => endRequest i.request 0x11 stContextFault s)
      (fun s i => endRequest_bad _ _ _ s) is s
  have commands (cs : List Cmd) (s : State) : (cs.foldl (fun s x => endCmd x.id stContextFault s) s).mem.bad = s.mem.bad :=
    foldl_keeps (fun s : State => s.mem.bad) (fun s (x : Cmd) => endCmd x.id stContextFault s) (fun s x => by simp) cs s
  unfold contextFault
  split
  · rfl
  split
  · dsimp only
    split
    · rw [commands, requests]
      simp
    · rw [tearDown_bad]
      simp
  split
  · simp
  · rfl

theorem contextFaults_bad (g : State → Nat → State) (cause : Nat) (code : State → Nat → Nat) (kept : ∀ s id, (g s id).mem.bad = s.mem.bad)
    (ids : List Nat) (s : State) :
    (ids.foldl (fun s id => contextFaultAt id cause (code s id) (g s id)) s).mem.bad = s.mem.bad :=
  foldl_keeps (fun s : State => s.mem.bad) _ (fun s id => (contextFault_bad id _ _ none _).trans (kept s id)) ids s

theorem dropMovesAt_bad (a : Nat) (s : State) : (dropMovesAt a s).mem.bad = s.mem.bad := by
  refine foldl_keeps (fun s : State => s.mem.bad) _ (fun s h => ?_) _ s
  split
  · split
    · unfold dropMove
      split <;> simp [setHandle, recordInternal, draw]
    · rfl
  · rfl

theorem beginReload_bad (n a : Nat) (s : State) : (beginReload n a s).mem.bad = s.mem.bad := by
  unfold beginReload
  split
  · rfl
  split <;> rfl

theorem beginAdapterReload_bad (n slot version a : Nat) (s : State) : (beginAdapterReload n slot version a s).mem.bad = s.mem.bad := by
  unfold beginAdapterReload
  split
  · rfl
  split
  · rfl
  split <;> rfl

theorem beginReloads_bad (s : State) : (beginReloads s).mem.bad = s.mem.bad := by
  refine foldl_keeps (fun s : State => s.mem.bad) _ (fun s m => ?_) _ s
  refine Eq.trans (foldl_keeps (fun s : State => s.mem.bad) _ (fun s x => ?_) _ _)
    (foldl_keeps (fun s : State => s.mem.bad) _ (fun s a => ?_) _ s)
  · exact beginAdapterReload_bad _ _ _ _ _
  · exact beginReload_bad _ _ _

theorem markSuspect_bad (a : Nat) (s : State) : (markSuspect a s).mem.bad = s.mem.bad := by
  unfold markSuspect
  split
  · rfl
  dsimp only
  split
  · rfl
  · rw [beginReloads_bad]
    simp [setModel]

theorem errorStall_mem (n tier : Nat) (s : State) : (errorStall n tier s).mem = s.mem := by simp [errorStall, draw]

theorem mem_spoilWord (a : Nat) (s : State) : a / 32 * 32 ∈ (spoilWord a s).mem.bad := by
  unfold spoilWord
  dsimp only
  split
  next listed => exact List.contains_iff_mem.mp listed
  · exact List.mem_append_right _ (List.mem_singleton.mpr rfl)

/-! ### Findings against a channel -/

/-- A finding against a channel of memory changes no job (R426, R429). -/
theorem chargeFinding_memory_jobs (tier n : Nat) (f : Finding) (s : State) : (chargeFinding (channelUnit tier n) f s).jobs = s.jobs := by
  have suspected (f : Finding) (hard : Bool) (s : State) : (suspectUnit (channelUnit tier n) f hard s).jobs = s.jobs := by
    unfold channelUnit
    split <;> simp [suspectUnit, loseTaker]
  unfold chargeFinding
  split
  · rfl
  · simp only [apply_ite State.jobs, suspected, setUnit_keeps, noteFinding_keeps, ite_self]

/-! ### Uncorrectable reads -/

/-- A command's read of an uncorrectable word ends it (R275, R394, R395). -/
theorem contextFault_of_running {id cause code : Nat} {c : Cmd} {s : State} (known : s.cmd id = some c) (running : c.phase = .running)
    (context : c.ctx = 0 ∨ ∃ x, s.ctx c.ctx = some x ∧ x.torn = false) : (contextFaultAt id cause code s).cmd id = c.ended := by
  by_cases limcel : c.ctx = 0
  · exact contextFault_limcel known running limcel
  · obtain ⟨x, known', untorn⟩ := context.resolve_left limcel
    exact (contextFault_torn known running known' limcel untorn).1

theorem Cmd.ended_of_running {c y : Cmd} (running : c.phase = .running) (h : c.ended = some y) : y.phase = .retired ∧ y.committed = true := by
  rw [ended, if_neg (by simp [running]), if_neg (by simp [running, Phase.over])] at h
  obtain rfl := Option.some.inj h
  exact ⟨rfl, rfl⟩

theorem setCtx_torn {k n : Nat} {f : Ctx → Ctx} (sameNum : ∀ x, (f x).num = x.num) (same : ∀ x, (f x).torn = x.torn) {x : Ctx} {s : State}
    (known : s.ctx n = some x) : ∃ y, (setCtx k f s).ctx n = some y ∧ y.torn = x.torn := by
  by_cases own : n = k
  · subst own
    exact ⟨f x, setCtx_known known sameNum, same x⟩
  · exact ⟨x, (ctx_setCtx_of_ne own _ sameNum _).trans known, rfl⟩

/-- A stall is noted in its context alone (R286). -/
theorem errorStall_keepsWork (k tier id : Nat) (s : State) : (errorStall k tier s).cmd id = s.cmd id ∧
    ∀ n x, s.ctx n = some x → ∃ y, (errorStall k tier s).ctx n = some y ∧ y.torn = x.torn := by
  unfold errorStall addStall draw
  refine ⟨rfl, fun n x known => setCtx_torn (s := { s with fresh := s.fresh + 1 + 1 }) ?_ ?_ known⟩
  · intro x
    dsimp only
    split <;> rfl
  · intro x
    dsimp only
    split <;> rfl

/-- The read of one command at an uncorrectable word. -/
theorem memoryUncorrectable_cmd {tier a id : Nat} {c : Cmd} {s : State} (within : inTier s tier a = true) (known : s.cmd id = some c)
    (running : c.phase = .running) (context : c.ctx = 0 ∨ ∃ x, s.ctx c.ctx = some x ∧ x.torn = false) :
    ∃ t, exec (.memoryUncorrectable tier a [id]) s = .next t ∧ t.cmd id = c.ended := by
  have spoilt (u : State) : (spoilWord a u).jobs = u.jobs := by
    unfold spoilWord
    dsimp only
    split <;> rfl
  have charged : (spoilWord a (chargeFinding (channelUnit tier (channelOf s tier a)) .memUncorrectable s)).jobs = s.jobs :=
    (spoilt _).trans (chargeFinding_memory_jobs _ _ _ s)
  simp only [exec, execMemoryUncorrectable, within, Bool.not_true, Bool.false_eq_true, if_false, List.foldl_cons, List.foldl_nil,
    List.isEmpty_cons]
  generalize spoilWord a (chargeFinding (channelUnit tier (channelOf s tier a)) .memUncorrectable s) = u at charged
  have known' : u.cmd id = some c := (cmd_of_jobs charged id).trans known
  obtain ⟨stalled, contexts⟩ := errorStall_keepsWork c.ctx tier id u
  have faulted (code : Nat) : (contextFaultAt id 3 code (errorStall c.ctx tier u)).cmd id = c.ended := by
    refine contextFault_of_running (stalled.trans known') running (context.imp_right fun ⟨x, hx, untorn⟩ => ?_)
    obtain ⟨y, hy, same⟩ := contexts c.ctx x ((ctx_of_jobs charged _).trans hx)
    exact ⟨y, hy, same.trans untorn⟩
  have marked (b : Nat) (w : State) : (markSuspect b w).jobs = w.jobs := by simp
  simp only [known']
  split
  · exact ⟨_, rfl, (cmd_of_jobs (marked _ _) id).trans (faulted _)⟩
  · exact ⟨_, rfl, faulted _⟩

theorem memoryUncorrectable_bad {tier a : Nat} {ids : List Nat} {s : State} (within : inTier s tier a = true) :
    ∃ t, exec (.memoryUncorrectable tier a ids) s = .next t ∧ a / 32 * 32 ∈ t.mem.bad := by
  simp only [exec, execMemoryUncorrectable, within, Bool.not_true, Bool.false_eq_true, if_false]
  have listed := mem_spoilWord a (chargeFinding (channelUnit tier (channelOf s tier a)) .memUncorrectable s)
  generalize spoilWord a (chargeFinding (channelUnit tier (channelOf s tier a)) .memUncorrectable s) = u at listed
  have dropped (w : State) (hw : w.mem.bad = u.mem.bad) : a / 32 * 32 ∈ (if ids.isEmpty then dropMovesAt a w else w).mem.bad := by
    split
    · rw [dropMovesAt_bad, hw]
      exact listed
    · rw [hw]
      exact listed
  split
  · refine ⟨_, rfl, ?_⟩
    rw [markSuspect_bad]
    refine dropped _ (contextFaults_bad _ 3 _ (fun s id => ?_) ids u)
    split
    · exact congrArg MemSt.bad (errorStall_mem _ _ _)
    · rfl
  · refine ⟨_, rfl, dropped _ (contextFaults_bad _ 3 _ (fun s id => ?_) ids u)⟩
    split
    · exact congrArg MemSt.bad (errorStall_mem _ _ _)
    · rfl

theorem cells_of_next {i : Instr} {s t : State} (next : exec i s = .next t) (quiet : mayStore i = false) : t.mem.cells = s.mem.cells :=
  (onlyTheseCommandsWrite i s t next).1 quiet

/-! ### A range reads as its bytes do -/

theorem length_read_go (m : MemSt) (n : Nat) : ∀ cs a, (MemSt.read.go m cs a n).length = n := by
  induction n with
  | zero => exact fun _ _ => rfl
  | succ n ih =>
    intro cs a
    cases cs with
    | nil => rw [MemSt.read.go, List.length_cons, ih]
    | cons c rest =>
      rw [MemSt.read.go]
      split <;> rw [List.length_cons, ih]

theorem length_read (m : MemSt) (a n : Nat) : (m.read a n).length = n := length_read_go m n _ a

/-- What an address reads as under a list of cells. -/
def MemSt.readIn (m : MemSt) (cs : List (Nat × Byte)) (a : Nat) : Byte :=
  match cs.find? fun c => c.1 = a with
  | some c => c.2
  | none => match m.undefAt a with
    | some u => Config.freeByte u.seed a
    | none => 0#8

theorem readIn_cons_of_ne {m : MemSt} {c : Nat × Byte} {cs : List (Nat × Byte)} {a : Nat} (h : c.1 ≠ a) :
    m.readIn (c :: cs) a = m.readIn cs a := by
  rw [MemSt.readIn, List.find?_cons_of_neg (by simpa using h), MemSt.readIn]

theorem readIn_of_absent {m : MemSt} {cs : List (Nat × Byte)} {a : Nat} (h : ∀ c ∈ cs, c.1 ≠ a) : m.readIn cs a = m.readIn [] a := by
  rw [MemSt.readIn, List.find?_eq_none.mpr (by simpa using h)]
  rfl

/-- Cells that rise, from an address on: the bytes of the range are read one by one. -/
theorem getElem?_read_go {m : MemSt} {n k : Nat} (hk : k < n) {cs : List (Nat × Byte)} {a : Nat} (rising : cs.Pairwise fun c d => c.1 < d.1)
    (from' : ∀ c ∈ cs, a ≤ c.1) : (MemSt.read.go m cs a n)[k]? = some (m.readIn cs (a + k)) := by
  induction n generalizing cs a k with
  | zero => omega
  | succ n ih =>
    cases cs with
    | nil =>
      rw [MemSt.read.go]
      cases k with
      | zero => rfl
      | succ k =>
        rw [List.getElem?_cons_succ, ih (by omega) List.Pairwise.nil (by simp), show a + 1 + k = a + (k + 1) by omega]
    | cons c rest =>
      obtain ⟨after, rising'⟩ := List.pairwise_cons.mp rising
      rw [MemSt.read.go]
      by_cases here : c.1 = a
      · rw [if_pos here]
        cases k with
        | zero =>
          rw [MemSt.readIn, List.find?_cons_of_pos (by simpa using here)]
          rfl
        | succ k =>
          rw [List.getElem?_cons_succ, ih (by omega) rising' (fun d hd => by have := after d hd; omega),
            readIn_cons_of_ne (by omega), show a + 1 + k = a + (k + 1) by omega]
      · have later : ∀ d ∈ c :: rest, a + 1 ≤ d.1 := by
          intro d hd
          have first := from' c List.mem_cons_self
          obtain rfl | hd := List.mem_cons.mp hd
          · omega
          · have := after d hd
            omega
        rw [if_neg here]
        cases k with
        | zero =>
          rw [List.getElem?_cons_zero, readIn_of_absent (fun d hd => by have := later d hd; omega)]
          rfl
        | succ k =>
          rw [List.getElem?_cons_succ, ih (by omega) rising later, show a + 1 + k = a + (k + 1) by omega]

theorem find?_dropWhile_of_disjoint {α : Type} {p q : α → Bool} (disjoint : ∀ x, q x = true → p x = false) (xs : List α) :
    (xs.dropWhile q).find? p = xs.find? p := by
  have before : (xs.takeWhile q).find? p = none :=
    List.find?_eq_none.mpr fun x hx => by rw [disjoint x (List.mem_takeWhile_imp hx)]; exact Bool.false_ne_true
  conv_rhs => rw [← List.takeWhile_append_dropWhile (p := q) (l := xs), List.find?_append, before, Option.none_or]

theorem find?_takeWhile_of_rising {cs : List (Nat × Byte)} (rising : cs.Pairwise fun c d => c.1 < d.1) {b x : Nat} (hx : x < b) :
    (cs.takeWhile fun c => decide (c.1 < b)).find? (fun c => c.1 = x) = cs.find? (fun c => c.1 = x) := by
  induction cs with
  | nil => rfl
  | cons c cs ih =>
    obtain ⟨after, rising'⟩ := List.pairwise_cons.mp rising
    by_cases hc : c.1 < b
    · rw [List.takeWhile_cons_of_pos (by simpa using hc), List.find?_cons, List.find?_cons, ih rising']
    · rw [List.takeWhile_cons_of_neg (by simpa using hc), List.find?_nil, eq_comm, List.find?_eq_none]
      intro d hd
      obtain rfl | hd := List.mem_cons.mp hd
      · simp; omega
      · have := after d hd
        simp; omega

theorem le_of_mem_dropWhile {cs : List (Nat × Byte)} (rising : cs.Pairwise fun c d => c.1 < d.1) {a : Nat} :
    ∀ c ∈ cs.dropWhile (fun c => decide (c.1 < a)), a ≤ c.1 := by
  induction cs with
  | nil => simp
  | cons c cs ih =>
    obtain ⟨after, rising'⟩ := List.pairwise_cons.mp rising
    by_cases hc : c.1 < a
    · rw [List.dropWhile_cons_of_pos (by simpa using hc)]
      exact ih rising'
    · rw [List.dropWhile_cons_of_neg (by simpa using hc)]
      intro d hd
      obtain rfl | hd := List.mem_cons.mp hd
      · omega
      · have := after d hd
        omega

/-- In canonical memory a range reads as its bytes do. -/
theorem getElem?_read {m : MemSt} (canonical : m.wf = true) {a n k : Nat} (hk : k < n) : (m.read a n)[k]? = some (m.readByte (a + k)) := by
  have rising := ((wf_iff m).mp canonical).1
  have rising' : (m.cells.dropWhile fun c => decide (c.1 < a)).Pairwise fun c d => c.1 < d.1 := rising.sublist (List.dropWhile_sublist _)
  rw [MemSt.read, getElem?_read_go hk (rising'.sublist (List.takeWhile_sublist _))]
  · have disjoint : ∀ c : Nat × Byte, decide (c.1 < a) = true → decide (c.1 = a + k) = false := by
      intro c hc
      simp only [decide_eq_true_eq, decide_eq_false_iff_not] at hc ⊢
      omega
    rw [MemSt.readIn, find?_takeWhile_of_rising rising' (by omega), find?_dropWhile_of_disjoint disjoint]
    rfl
  · exact fun c hc => le_of_mem_dropWhile rising c ((List.takeWhile_sublist _).subset hc)

/-! ### Moves -/

theorem handle_of_handles {s t : State} (h : t.mem.handles = s.mem.handles) (n : Nat) : t.handle n = s.handle n := by
  rw [State.handle, h, State.handle]

theorem setHandle_known {n : Nat} {f : Handle → Handle} {x : Handle} {s : State} (known : s.handle n = some x)
    (sameId : ∀ y, (f y).id = y.id) : (setHandle n f s).handle n = some (f x) := by
  rw [handle_setHandle _ _ sameId, known, Option.map_some]

theorem storeBytes_handles (a : Nat) (bs : List Byte) (s : State) : (storeBytes a bs s).mem.handles = s.mem.handles := rfl

theorem finish_mem (session tag op st d : Nat) (r : List Byte) (s : State) : (finish session tag op st d r s).mem = s.mem := by simp

/-- A range copied to an address reads there as it did, and every other byte as before. -/
theorem readByte_copy {a b n : Nat} {s : State} (canonical : s.mem.wf = true) :
    (∀ k, k < n → (storeBytes b (s.mem.read a n) s).mem.readByte (b + k) = s.mem.readByte (a + k)) ∧
      ∀ x, ¬ (b ≤ x ∧ x < b + n) → (storeBytes b (s.mem.read a n) s).mem.readByte x = s.mem.readByte x := by
  constructor
  · intro k hk
    exact readByte_storeBytes b k _ _ s (getElem?_read canonical hk)
  · intro x outside
    exact readByte_storeBytes_outside b x _ s canonical (by rwa [length_read])

theorem dropMove_handle {x : Handle} {m : TierMoveSt} {status : Nat} {s : State} (known : s.handle x.id = some x) (noBase : m.newBase = none) :
    (dropMove x m status s).handle x.id = some { x with move := none } ∧ (dropMove x m status s).mem.cells = s.mem.cells := by
  simp only [dropMove, noBase]
  constructor
  · rw [handle_of_handles (congrArg MemSt.handles (finish_mem _ _ _ _ _ _ _))]
    exact setHandle_known known (by intro; rfl)
  · rw [finish_mem]
    rfl

/-- Where Limcel moves a cold expert's tensor from (R253). -/
theorem limPlace_of_cold {mid tensor tier : Nat} {m : Model} {p : PlacedTensor} {s : State} (known : s.model mid = some m) (active : m.state = 3)
    (tierOk : tier ≤ 1) (found : m.placed.find? (fun q => q.tensor = tensor) = some p) (away : p.tier ≠ tier) (settled : p.fresh = none)
    (clean : m.suspects.contains p.base = false) (resting : movingFrom s p.base = false)
    (cold : (m.manifest.tensors.find? (fun t => t.id = tensor)).map (fun t => t.cls) = some 1) :
    limPlace s mid tensor tier = some ⟨mid, tensor, none, tier, p.base, 0, p.bytes⟩ := by
  have own : p.tensor = tensor := by simpa using List.find?_some found
  have first : m.placed.find? (fun p => decide (((m.manifest.tensors.find? fun t => t.id = tensor).map fun t => t.cls) = some 1) &&
      (p.tensor = tensor && p.tier ≠ tier && p.fresh.isNone && !m.suspects.contains p.base && !movingFrom s p.base)) = some p := by
    obtain ⟨-, as, bs, placed, before⟩ := List.find?_eq_some_iff_append.mp found
    refine List.find?_eq_some_iff_append.mpr ⟨by simp [cold, own, away, settled, resting]; simpa using clean, as, bs, placed, fun q hq => ?_⟩
    have other : q.tensor ≠ tensor := by simpa using before q hq
    simp [other]
  simp only [limPlace, known]
  rw [if_neg (by simp [active, tierOk]), first]

/-- A TIER_MOVE that has waited too long is dropped (R279). -/
theorem moveWait_over {x : Handle} {m : TierMoveSt} {s : State} (known : s.handle x.id = some x) (moving : x.move = some m)
    (noBase : m.newBase = none) (waited : waitOver s m.since = true) :
    exec (.evictionWaitTimeout (2 ^ 32 + x.id)) s = .next (dropMove x m stBusy s) := by
  have found : s.mem.handles.find? (fun y => decide (2 ^ 32 + y.id = 2 ^ 32 + x.id)) = some x := by
    rw [← known, State.handle]
    exact congrArg (List.find? · s.mem.handles) (funext fun y => decide_eq_decide.mpr Nat.add_left_cancel_iff)
  rw [exec, execEvictionWaitTimeout, if_pos (Nat.le_add_right _ _), found, Option.bind_some, moving, Option.map_some]
  exact if_neg (by simp [noBase, waited])

/-- What a demand that has waited too long leaves, by what it wanted (R279). -/
def waitEnded (d : Demand) (s : State) : State :=
  let gone : State := { s with mem := { s.mem with demands := s.mem.demands.filter fun x => x.id ≠ d.id } }
  match d.want with
  | .alloc _ => finish d.session d.tag 0x0402 stBusy 0 [] { gone with mem := { gone.mem with allocBusy := sat32 (s.mem.allocBusy + 1) } }
  | .place m _ => finish d.session d.tag (declareOp m) stBusy 0 [] gone
  | .pauseMove _ => pauseMoveFails gone
  | .limcelMove _ _ _ => s

theorem demandWait_over {n : Nat} {d : Demand} {s : State} (small : n < 2 ^ 32) (found : s.mem.demands.find? (fun d => d.id = n) = some d)
    (waited : waitOver s d.since = true) : exec (.evictionWaitTimeout n) s = .next (waitEnded d s) := by
  obtain rfl : d.id = n := by simpa using List.find?_some found
  rw [exec, execEvictionWaitTimeout, if_neg (by omega), found]
  refine (if_neg (by simp [waited])).trans ?_
  rw [waitEnded]
  cases d.want <;> rfl

/-- A move whose copy verifies: the tensor rests at its new place with its bytes, and no table points at the old one (R253). -/
theorem switchLim_whole {l : LimMove} {m : Model} {s : State} (canonical : s.mem.wf = true) (whole : l.version = none)
    (lives : (s.mem.regions.any fun g => g.base = l.old && (match g.owner with
      | .tensor _ _ => true
      | .adapter _ _ _ _ => true
      | _ => false)) = true)
    (sound : s.badAt l.old l.bytes = false) (known : s.model l.model = some m) (clean : m.suspects.contains l.old = false)
    (verified : copySound (storeBytes l.new (s.mem.read l.old l.bytes) s) l = true) :
    ∃ m', (switchLim l s).model l.model = some m' ∧ m'.placed = restAt l m.placed ∧
      (∀ k, k < l.bytes → (switchLim l s).mem.readByte (l.new + k) = s.mem.readByte (l.old + k)) ∧
      ∀ e ∈ m'.epochs, ∀ p ∈ e.table, p.addr = l.old → l.new = l.old := by
  have stays : ¬ (!(s.mem.regions.any fun g => g.base = l.old && (match g.owner with
      | .tensor _ _ => true
      | .adapter _ _ _ _ => true
      | _ => false)) || s.badAt l.old l.bytes || (s.model l.model).any fun m => m.suspects.contains l.old) = true := by
    rw [lives, sound, known, Option.any_some, clean]
    simp
  have switched : switchLim l s = setModel l.model (fun m => { m with placed := restAt l m.placed, origins := restAt l m.origins })
      (repoint l.model l.old l.new (retireRegion l.old
        (pinnedCmds { (storeBytes l.new (s.mem.read l.old l.bytes) s) with mem :=
          { (storeBytes l.new (s.mem.read l.old l.bytes) s).mem with limMoves := s.mem.limMoves.filter fun x => x ≠ l } } l.model)
        { (storeBytes l.new (s.mem.read l.old l.bytes) s) with mem :=
          { (storeBytes l.new (s.mem.read l.old l.bytes) s).mem with limMoves := s.mem.limMoves.filter fun x => x ≠ l } })) := by
    refine (if_neg stays).trans ((if_neg (by simp [verified])).trans ?_)
    rw [whole]
    rfl
  rw [switched]
  refine ⟨_, setModel_known (setModel_known ((State.model_of_models rfl l.model).trans known) (by intro; rfl)) (by intro; rfl), rfl,
    (readByte_copy canonical).1, ?_⟩
  intro e he p hp old
  obtain ⟨e', -, rfl⟩ := List.mem_map.mp he
  obtain ⟨q, -, rfl⟩ := List.mem_map.mp hp
  by_cases own : q.addr = l.old
  · simpa [own] using old
  · simp [own] at old

/-- Settles O34: copies through `readByte_copy`, waits through `moveWait_over` and `demandWait_over`, the reads of commands through the
context faults that they are. -/
theorem movesAndMemoryErrors : Obligations.MovesAndMemoryErrors := by
  unfold Obligations.MovesAndMemoryErrors
  refine ⟨?_, ?_, ?_, ?_, ?_, ?_, ?_, ?_, ?_, ?_, ?_, ?_, ?_, ?_⟩
  · intro h n tier x e s served known allowed tierOk plain away resting
    have inRange : (match handleRanges n e s with
      | some r => some r
      | none => badIf (decide (1 < tier) || (s.handle n).any fun x => x.kind ≠ 0 || x.tier = tier)) = none := by
      rw [show handleRanges n e s = none by simp [handleRanges, known, allowed], known, Option.any_some]
      simp [plain, away, badIf, tierOk]
    rw [exec, execTierMove, hosted_of_served served inRange]
    exact congrArg Host.Outcome.next (if_neg (by simp [known, resting]))
  · intro n x m b s known moving place uncopied sound canonical
    obtain ⟨copied, rest⟩ := readByte_copy (a := x.base) (b := b) (n := x.bytes) canonical
    refine ⟨_, _, ?_, setHandle_known (f := fun x => { x with move := some { m with copied := true } })
      ((handle_of_handles (storeBytes_handles b (s.mem.read x.base x.bytes) s) n).trans known) (by intro; rfl), rfl, copied, rest⟩
    simp only [exec, execTierMoveCopy, known, Option.bind_some, moving, place, Option.map_some, uncopied, sound]
    rfl
  · intro n x m b s known moving place uncopied bad
    simp only [exec, execTierMoveCopy, known, Option.bind_some, moving, place, Option.map_some, uncopied, bad]
    rfl
  · intro n x m b s known moving place copied
    have switched (u : State) (handles : u.mem.handles = s.mem.handles) (session tag st d : Nat) (r : List Byte) :
        (finish session tag 0x0405 st d r (setHandle n (fun x => { x with base := b, tier := m.tier, move := none }) u)).handle n =
          some { x with base := b, tier := m.tier, move := none } :=
      (handle_of_handles (congrArg MemSt.handles (finish_mem _ _ _ _ _ _ _)) n).trans
        (setHandle_known ((handle_of_handles handles n).trans known) (by intro; rfl))
    simp only [exec, execTierMoveSwitch, switchMove, known, Option.bind_some, moving, place, Option.map_some, copied, Bool.not_true,
      Bool.false_eq_true, if_false]
    refine ⟨_, _, rfl, switched _ ?_ _ _ _ _ _, rfl, ?_⟩
    · rfl
    · rw [finish_mem]
      rfl
  · intro n x m s known moving place waited
    obtain rfl : x.id = n := by simpa using List.find?_some known
    obtain ⟨given, cells⟩ := dropMove_handle (status := stBusy) known place
    exact ⟨_, _, moveWait_over known moving place waited, given, rfl, cells⟩
  · intro n d p s small found want waited
    have own : d.id = n := by simpa using List.find?_some found
    refine ⟨_, demandWait_over small found waited, ?_⟩
    rw [waitEnded, want, own]
    dsimp only
    rw [finish_mem]
    refine ⟨fun x hx => ?_, rfl, rfl⟩
    simpa using (List.mem_filter.mp hx).2
  · intro n timeout d m s small found want waited
    have own : d.id = n := by simpa using List.find?_some found
    rw [demandWait_over small found waited, waitEnded, want, own]
  · intro n rid d s small found want waited
    have own : d.id = n := by simpa using List.find?_some found
    rw [demandWait_over small found waited, waitEnded, want, own]
    rfl
  · intro mid tensor tier b m p s known active tierOk found away settled clean resting undemanded cold room
    have place := limPlace_of_cold known active tierOk found away settled clean resting cold
    have noDemand : ¬ (s.mem.demands.any fun d => d.want = .limcelMove mid tensor tier) = true := by simpa using undemanded
    have atOnce : demandRoom tier none p.bytes s = .now b s := by rw [demandRoom, room]
    simp only [exec, execLimcelTierMove, place]
    rw [if_neg noDemand, atOnce]
    exact ⟨_, rfl, rfl, rfl, ⟨⟨tier, b, p.bytes, .tensor mid tensor, none⟩, List.mem_append_right _ (List.mem_singleton.mpr rfl), rfl, rfl,
      rfl, rfl⟩, rfl⟩
  · intro l g m s canonical whole listed base owner sound known clean verified
    have lives : (s.mem.regions.any fun g => g.base = l.old && (match g.owner with
        | .tensor _ _ => true
        | .adapter _ _ _ _ => true
        | _ => false)) = true := List.any_eq_true.mpr ⟨g, listed, by simp [base, owner]⟩
    exact switchLim_whole canonical whole lives sound known clean verified
  · intro tier a hard s within
    exact if_pos within
  · intro tier a id c s within known running context
    obtain ⟨t, ht, ended⟩ := memoryUncorrectable_cmd within known running context
    refine ⟨t, ht, ?_, fun c' hc => Cmd.ended_of_running running (ended.symm.trans hc)⟩
    exact cells_of_next ht rfl
  · intro tier a cs s within
    obtain ⟨t, ht, listed⟩ := memoryUncorrectable_bad (ids := cs) within
    exact ⟨t, ht, listed, cells_of_next ht rfl⟩
  · intro tier a hard cs s outside
    exact ⟨if_neg (by simp [outside]), if_pos (by simp [outside])⟩

end Sys2Proof.Machine

end

section

/-! ## How a command starts and its lists move: O35 -/

namespace Sys2Proof.Machine
open Sys2Proof.Claims

/-! ### A command with a property -/

/-- The command with an id is there and has a property. -/
def HasCmd (P : Cmd → Prop) (id : Nat) (s : State) : Prop := ∃ c, s.cmd id = some c ∧ P c

theorem HasCmd.of_cmds {P : Cmd → Prop} {id : Nat} {s t : State} (h : HasCmd P id s) (same : t.jobs.cmds = s.jobs.cmds) : HasCmd P id t := by
  obtain ⟨c, known, holds⟩ := h
  exact ⟨c, (State.cmd_of_cmds same id).trans known, holds⟩

theorem setCmd_known {id : Nat} {f : Cmd → Cmd} {c : Cmd} {s : State} (known : s.cmd id = some c) (sameId : ∀ x, (f x).id = x.id) :
    (setCmd id f s).cmd id = some (f c) := by
  rw [cmd_setCmd _ _ sameId, known, Option.map_some]

theorem HasCmd.setCmd {P Q : Cmd → Prop} {id k : Nat} {f : Cmd → Cmd} {s : State} (h : HasCmd P id s) (sameId : ∀ x, (f x).id = x.id)
    (own : ∀ x, P x → k = id → Q (f x)) (others : ∀ x, P x → k ≠ id → Q x) : HasCmd Q id (Machine.setCmd k f s) := by
  obtain ⟨c, known, holds⟩ := h
  by_cases same : k = id
  · subst same
    exact ⟨f c, setCmd_known known sameId, own c holds rfl⟩
  · exact ⟨c, (cmd_setCmd_of_ne same sameId s).trans known, others c holds same⟩

theorem HasCmd.update {P : Cmd → Prop} {id k : Nat} {f : Cmd → Cmd} {s : State} (h : HasCmd P id s) (sameId : ∀ x, (f x).id = x.id)
    (kept : ∀ x, P x → P (f x)) : HasCmd P id (Machine.setCmd k f s) :=
  h.setCmd sameId (fun x hx _ => kept x hx) fun _ hx _ => hx

theorem HasCmd.foldl {α : Type} {P : Cmd → Prop} {id : Nat} {g : State → α → State} (step : ∀ s x, HasCmd P id s → HasCmd P id (g s x))
    (xs : List α) {s : State} (h : HasCmd P id s) : HasCmd P id (xs.foldl g s) := by
  induction xs generalizing s with
  | nil => exact h
  | cons x xs ih => exact ih (step s x h)

/-! ### Lists and streams of a command -/

theorem setList_known {id code : Nat} {f : ListSt → ListSt} {c : Cmd} {l : ListSt} {s : State} (known : s.cmd id = some c)
    (found : c.list code = some l) (sameCode : ∀ x, (f x).code = x.code) :
    ∃ c', (setList id code f s).cmd id = some c' ∧ c'.list code = some (f l) ∧ c'.events = c.events ∧ c'.streams = c.streams ∧
      c' = { c with lists := c'.lists } := by
  refine ⟨_, setCmd_known known (by intro; rfl), ?_, rfl, rfl, rfl⟩
  rw [Cmd.list, find_updBy _ _ (by intro x; simp [sameCode]), show c.lists.find? _ = some l from found, Option.map_some]

theorem progress_known {id : Nat} {c : Cmd} {s : State} (known : s.cmd id = some c) :
    (progress id s).cmd id = some { c with progressBeat := s.beat.elapsed } := setCmd_known known (by intro; rfl)

theorem issueNext_of_ready {id code : Nat} {c : Cmd} {l : ListSt} {s : State} (known : s.cmd id = some c) (found : c.list code = some l)
    (running : c.phase = .running) (ready : issueReady s c l = true) : issueNext id code s = progress id (setList id code
      (fun l => { l with issued := l.issued + 1, queue := l.queue ++ [QEntry.new (l.first + l.issued)] }) s) := by
  simp only [issueNext, known, Option.bind_some, found, Option.map_some, running, ready]
  rfl

/-- Issuing touches a command's lists and its time of progress alone (R145). -/
theorem issueNext_hasCmd {P : Cmd → Prop} {id k code : Nat} {s : State} (h : HasCmd P id s)
    (lists : ∀ c ls, P c → P { c with lists := ls }) (progressed : ∀ c b, P c → P { c with progressBeat := b }) :
    HasCmd P id (issueNext k code s) := by
  unfold issueNext
  split
  · exact h
  split
  · exact (h.update (f := fun c => { c with lists := _ }) (by intro; rfl) fun c hc => lists c _ hc).update (by intro; rfl)
      fun c hc => progressed c _ hc
  · exact h

theorem setStream_known {id n : Nat} {f : StreamSt → StreamSt} {c : Cmd} {e : StreamSt} {s : State} (known : s.cmd id = some c)
    (found : c.streams[n]? = some e) :
    ∃ c', (setStream id n f s).cmd id = some c' ∧ c'.streams[n]? = some (f e) ∧ c'.lists = c.lists := by
  refine ⟨_, setCmd_known known (by intro; rfl), ?_, rfl⟩
  rw [show (updAt n f c.streams)[n]? = (c.streams[n]?).map f from by simp [updAt], found, Option.map_some]

/-! ### A run begins -/

/-- A run begins on a command: it runs from now on, with the fields that a start gave it (R144). -/
theorem beginRun_hasCmd {P Q : Cmd → Prop} {id : Nat} {s : State} (h : HasCmd P id s)
    (begun : ∀ c g b es ls ts, P c → Q { c with phase := .running, gen := g, progressBeat := b, events := es, lists := ls, streams := ts })
    (lists : ∀ c ls, Q c → Q { c with lists := ls }) (progressed : ∀ c b, Q c → Q { c with progressBeat := b }) :
    HasCmd Q id (beginRun id s) := by
  obtain ⟨c, known, holds⟩ := h
  simp only [beginRun, known]
  refine HasCmd.foldl (fun s b hs => issueNext_hasCmd hs lists progressed) _ ?_
  refine HasCmd.of_cmds ⟨_, setCmd_known (s := setCtx c.ctx _ s) (id := id) (c := c) known (by intro; rfl), begun _ _ _ _ _ _ holds⟩ rfl

/-! ### The candidates of a package with one command -/

theorem mem_insertBy {α : Type} {before : α → α → Bool} {x y : α} {xs : List α} : y ∈ insertBy before x xs ↔ y = x ∨ y ∈ xs := by
  induction xs with
  | nil => simp [insertBy]
  | cons z zs ih =>
    rw [insertBy]
    split
    · simp
    · simp only [List.mem_cons, ih]
      exact or_left_comm

theorem mem_sortBy {α : Type} {before : α → α → Bool} {y : α} {xs : List α} : y ∈ sortBy before xs ↔ y ∈ xs := by
  have general : ∀ acc : List α, y ∈ xs.foldl (fun acc x => insertBy before x acc) acc ↔ y ∈ acc ∨ y ∈ xs := by
    induction xs with
    | nil => simp
    | cons x xs ih =>
      intro acc
      rw [List.foldl_cons, ih, mem_insertBy, List.mem_cons]
      tauto
  simpa [sortBy] using general []

/-- A candidate stands for a command that has not started. -/
theorem exists_cmd_of_candidate {x : Cand} {s : State} (hx : x ∈ candidates s) : ∃ c ∈ s.jobs.cmds, x.id = c.id := by
  rw [candidates, mem_sortBy, List.mem_append] at hx
  rcases hx with head | copy
  · simp only [List.mem_flatten, List.mem_map] at head
    obtain ⟨_, ⟨y, -, rfl⟩, hx⟩ := head
    obtain ⟨q, -, hq⟩ := List.mem_filterMap.mp hx
    split at hq
    · exact absurd hq (by simp)
    split at hq
    next c first =>
      split at hq
      · exact ⟨c, List.mem_of_mem_filter (List.mem_of_head? first), by rw [← Option.some.inj hq]⟩
      · exact absurd hq (by simp)
    · exact absurd hq (by simp)
  · obtain ⟨c, hc, rfl⟩ := List.mem_map.mp copy
    exact ⟨c, List.mem_of_mem_filter hc, rfl⟩

theorem candidate_id {c : Cmd} {s : State} (only : s.jobs.cmds = [c]) {x : Cand} (hx : x ∈ candidates s) : x.id = c.id := by
  obtain ⟨c', hc', same⟩ := exists_cmd_of_candidate hx
  rw [only, List.mem_singleton] at hc'
  exact same.trans (congrArg Cmd.id hc')

theorem candidates_nonempty {c : Cmd} {x : Ctx} {q : Queue} {s : State} (only : s.jobs.cmds = [c]) (kind : c.kind ≠ .copy)
    (waits : c.phase = .waiting) (eligible : beatLe c.eligible s.now = true) (known : s.ctx c.ctx = some x) (queue : q ∈ x.queues)
    (num : q.num = c.queue) (ready : q.state = 0x5B) : candidates s ≠ [] := by
  have sameCtx : x.num = c.ctx := by simpa using List.find?_some known
  have waiting : waitingOf s x.num q.num = [c] := by simp [waitingOf, only, sameCtx, num, kind, waits]
  have idle : (s.jobs.cmds.any fun c => c.ctx = x.num && c.queue = q.num && c.kind ≠ .copy && (c.phase = .running || c.phase = .restarting)) =
      false := by simp [only, waits]
  suffices ∃ y, y ∈ candidates s from fun none => by simp [none] at this
  refine ⟨⟨c.id, q.cls, q.priority, beatSpan c.eligible s.now, x.num, q.num, false, c.agedAt⟩, ?_⟩
  rw [candidates, mem_sortBy, List.mem_append]
  refine .inl (List.mem_flatten.mpr ⟨_, List.mem_map.mpr ⟨x, List.mem_of_find?_eq_some known, rfl⟩, List.mem_filterMap.mpr ⟨q, queue, ?_⟩⟩)
  rw [if_neg (by rw [idle]; simp [ready]), waiting]
  simp [waits, eligible]

/-! ### Phase 9 of a package with one command -/

/-- No candidate is dropped while stations carry every name and fit it. -/
theorem dropUnbound_of_carried {c : Cmd} {s : State} (only : s.jobs.cmds = [c]) (bound : namesUnbound s c.image = false)
    (fits : fitsShared s c.image = true) : dropUnbound s = s := by
  have known : s.cmd c.id = some c := by simp [State.cmd, only]
  refine List.foldlRecOn (motive := fun t => t = s) _ _ rfl fun t same x hx => ?_
  rw [same, candidate_id only hx, known]
  simp [bound, fits]

/-- The state with one command alone. -/
def State.holding (c : Cmd) (s : State) : State := { s with jobs := { s.jobs with cmds := [c] } }

/-- Aging touches the mark of the one command alone (R389). -/
theorem ageCands_single {c : Cmd} {s : State} (only : s.jobs.cmds = [c]) :
    ∃ a, ageCands s = s.holding { c with agedAt := a } := by
  simp only [ageCands, only, List.map_cons, List.map_nil]
  split
  · exact ⟨_, rfl⟩
  split
  · exact ⟨_, rfl⟩
  · exact ⟨c.agedAt, rfl⟩

theorem reservations_own {c : Cmd} {s : State} (only : s.jobs.cmds = [c]) : ∀ r ∈ reservations s, r.2 = c.id := by
  refine List.foldlRecOn (motive := fun held : List (Nat × Nat) => ∀ r ∈ held, r.2 = c.id) _ _ (by simp) fun held own x hx r hr => ?_
  obtain ⟨y, hy, aged⟩ := List.mem_filterMap.mp (mem_sortBy.mp hx)
  obtain ⟨b, -, rfl⟩ := Option.map_eq_some_iff.mp aged
  rcases List.mem_append.mp hr with old | new
  · exact own r old
  · obtain ⟨k, -, rfl⟩ := List.mem_map.mp new
    exact candidate_id only hy

theorem heldClaims_single {c : Cmd} {s : State} (only : s.jobs.cmds = [c]) (waits : c.phase = .waiting) : heldClaims s = [] := by
  simp [heldClaims, only, waits]

/-- A lone command finds its claims free and in no other's reserve (R389). -/
theorem startImage_single {c : Cmd} {s : State} (only : s.jobs.cmds = [c]) (waits : c.phase = .waiting) (kind : c.kind ≠ .copy)
    {res : List (Nat × Nat)} (own : ∀ r ∈ res, r.2 = c.id) : startImage s (heldClaims s) res c = some c.image := by
  rw [startImage, if_neg kind, if_pos]
  rw [heldClaims_single only waits]
  simp only [List.all_eq_true]
  intro k _
  simp only [List.contains_nil, Bool.not_false, Bool.true_and, List.all_eq_true]
  intro r hr
  simp [own r hr]

/-! ### The start -/

/-- What a start leaves of a command: it runs from this beat, pinned to the epoch, with its program and, but for the plan of a step, its
launch (R144). -/
def Started (c : Cmd) (now : Nat) (epoch : Option Nat) (c' : Cmd) : Prop :=
  c'.phase = .running ∧ c'.startBeat = now ∧ c'.firstStart = now ∧ c'.epoch = epoch ∧ c'.image = c.image ∧
    c'.launch = { c.launch with plan := c'.launch.plan } ∧ (c.kind = .launch → c'.launch = c.launch)

theorem countWait_cmds (p w : Nat) (s : State) : (countWait p w s).jobs.cmds = s.jobs.cmds := (setAcct_keepsWork p _ s).2.1

theorem countBulk_cmds (c : Cmd) (f : Acct → Acct) (s : State) : (countBulk c f s).jobs.cmds = s.jobs.cmds := by
  unfold countBulk
  split
  · exact (setAcct_keepsWork _ f s).2.1
  · rfl

theorem ite_cmds {b : Prop} [Decidable b] {s t : State} (same : t.jobs.cmds = s.jobs.cmds) :
    (if b then t else s).jobs.cmds = s.jobs.cmds := by
  split
  · exact same
  · rfl

theorem countStart_cmds (c : Cmd) (s : State) : (countStart c s).jobs.cmds = s.jobs.cmds := by
  unfold countStart
  dsimp only
  rw [foldl_keeps_jobs _ (by intros; simp)]
  refine (ite_cmds (countWait_cmds _ _ _)).trans ((countBulk_cmds _ _ _).trans ?_)
  split <;> rfl

theorem startItem_hasCmd {P : Cmd → Prop} {id : Nat} {c : Cmd} {i : PlanItem} {s : State} (h : HasCmd P id s)
    (dropped : ∀ c d p, P c → P { c with dropped := d, launch := { c.launch with plan := p } }) : HasCmd P id (startItem c i s) := by
  unfold startItem
  split
  next r m _ _ =>
    split
    · exact h
    split
    · exact (h.update (by intro; rfl) fun c hc => dropped c _ _ hc).of_cmds rfl
    split
    · exact h.of_cmds (by split <;> rfl)
    split
    · refine h.of_cmds ?_
      dsimp only
      split
      · rfl
      · exact countWait_cmds _ _ s
    · exact h
  · exact h

/-- A command that may start does, pinned to its epoch (R144, R385). -/
theorem startCmd_started {c : Cmd} {s : State} (known : s.cmd c.id = some c) :
    HasCmd (Started c s.now (startEpoch s c)) c.id (startCmd c.id c.image s) := by
  have dropped : ∀ c' d p, Started c s.now (startEpoch s c) c' → c.kind = .step →
      Started c s.now (startEpoch s c) { c' with dropped := d, launch := { c'.launch with plan := p } } := by
    rintro c' d p ⟨runs, beat, first, epoch, image, launch, -⟩ step
    exact ⟨runs, beat, first, epoch, image, by rw [launch], fun kind => by simp [kind] at step⟩
  simp only [startCmd, known]
  refine beginRun_hasCmd (P := Started c s.now (startEpoch s c)) ?_ (by rintro c' g b es ls ts ⟨-, rest⟩; exact ⟨rfl, rest⟩) (by intro c' ls h; exact h)
    (by intro c' b h; exact h)
  have marked : HasCmd (Started c s.now (startEpoch s c)) c.id (setCmd c.id (fun c' => { c' with
      image := c.image, firstStart := s.now, startBeat := s.now, agedAt := none, epoch := startEpoch s c, instVersion :=
        (((s.model c.launch.modelId).bind fun m => m.tables.getLast?).map fun t => t.version).getD 0,
      bases := c.launch.handles.map fun h => ((s.handle h).map fun x => x.base).getD 0, phase := .running }) s) :=
    ⟨_, setCmd_known known (by intro; rfl), rfl, rfl, rfl, rfl, rfl, rfl, fun _ => rfl⟩
  have counted := marked.of_cmds (countStart_cmds { c with image := c.image } _)
  generalize countStart { c with image := c.image } _ = u at counted ⊢
  have touched : HasCmd (Started c s.now (startEpoch s c)) c.id
      (if c.launch.isStep then touchModel c.launch.modelId c.launch.handles u else u) := counted.of_cmds (by split <;> simp)
  split
  next step => exact HasCmd.foldl (fun t i ht => startItem_hasCmd ht fun c' d p hc => dropped c' d p hc step) _ touched
  · exact touched

/-- A visit leaves a running command alone. -/
theorem visit_started {c : Cmd} {now : Nat} {epoch : Option Nat} {res : List (Nat × Nat)} {x : Cand} {s : State} (same : x.id = c.id)
    (h : HasCmd (Started c now epoch) c.id s) : HasCmd (Started c now epoch) c.id (visit res x s) := by
  obtain ⟨c', known, started⟩ := id h
  simp only [visit, same, known, started.1]
  exact h

/-- A lone command that may start does so at its visit (R389). -/
theorem visit_starts {c : Cmd} {res : List (Nat × Nat)} {x : Cand} {s : State} (only : s.jobs.cmds = [c]) (same : x.id = c.id)
    (waits : c.phase = .waiting) (kind : c.kind ≠ .copy) (own : ∀ r ∈ res, r.2 = c.id) (may : mayStart s c = true) :
    HasCmd (Started c s.now (startEpoch s c)) c.id (visit res x s) := by
  have known : s.cmd c.id = some c := by simp [State.cmd, only]
  simp only [visit, same, known, startImage_single only waits kind own]
  rw [if_neg (not_not.mpr waits), if_pos may]
  exact startCmd_started known

theorem phase9_starts {c : Cmd} {x : Ctx} {q : Queue} {s : State} (only : s.jobs.cmds = [c]) (kind : c.kind ≠ .copy)
    (waits : c.phase = .waiting) (eligible : beatLe c.eligible s.now = true) (known : s.ctx c.ctx = some x) (queue : q ∈ x.queues)
    (num : q.num = c.queue) (ready : q.state = 0x5B) (bound : namesUnbound s c.image = false) (fits : fitsShared s c.image = true)
    (may : mayStart s c = true) : HasCmd (Started c s.now (startEpoch s c)) c.id (phase9 s) := by
  obtain ⟨a, aged⟩ := ageCands_single only
  have none : ((s.holding { c with agedAt := a }).jobs.cmds.filter fun c => c.phase = .restarting) = [] := by simp [State.holding, waits]
  have open_ : candidates (s.holding { c with agedAt := a }) ≠ [] := candidates_nonempty (x := x) (q := q) rfl kind waits eligible known
    queue num ready
  have own : ∀ y ∈ candidates (s.holding { c with agedAt := a }), y.id = c.id := fun y hy =>
    candidate_id (c := { c with agedAt := a }) rfl hy
  unfold phase9
  dsimp only
  rw [dropUnbound_of_carried only bound fits, aged, none, List.foldl_nil]
  refine HasCmd.of_cmds (s := List.foldl _ _ _) ?_ rfl
  cases cands : candidates (s.holding { c with agedAt := a }) with
  | nil => exact absurd cands open_
  | cons y ys =>
    rw [cands] at own
    have first := visit_starts (x := y) (c := { c with agedAt := a }) (s := s.holding { c with agedAt := a }) rfl (own y List.mem_cons_self)
      waits kind (reservations_own (s := s.holding { c with agedAt := a }) rfl) may
    exact List.foldlRecOn (motive := HasCmd (Started c s.now (startEpoch s c)) c.id) ys _ first fun t ht z hz =>
      visit_started (own z (List.mem_cons_of_mem y hz)) ht

/-! ### The obligation -/

/-- The command with the event of a descriptor that signals counted (R135). -/
def Cmd.signalled (d : Desc) (c : Cmd) : Cmd := if d.signal then { c with events := updAt d.event (· + 1) c.events } else c

theorem Cmd.signalled_eq (d : Desc) (c : Cmd) :
    c.signalled d = { c with events := if d.signal then updAt d.event (· + 1) c.events else c.events } := by
  unfold Cmd.signalled
  split <;> rfl

theorem completeNext_of_completing {id code i : Nat} {c : Cmd} {l : ListSt} {e : QEntry} {d : Desc} {s : State} (known : s.cmd id = some c)
    (found : c.list code = some l) (running : c.phase = .running) (next : completing s c l = some i) (entry : l.queue[i]? = some e)
    (desc : c.image.descs[e.index]? = some d) (room : d.signal = false ∨ c.events.getD d.event 0 < 0xFFFFFFFF)
    (whole : l.completed + 1 ≠ l.count ∨ tilesBroken c code = false) :
    completeNext id code s = setNamed code (fun e => { e with descs := wrap32 (e.descs + 1) })
      (setList id code (fun l => { l with completed := l.completed + 1, queue := l.queue.eraseIdx i })
        (setCmd id (Cmd.signalled d) s)) := by
  have fits : (d.signal && decide (0xFFFFFFFF ≤ c.events.getD d.event 0)) = false := by
    rcases room with quiet | below
    · simp [quiet]
    · rw [decide_eq_false (Nat.not_le.mpr below), Bool.and_false]
  have intact : (decide (l.completed + 1 = l.count) && tilesBroken c code) = false := by
    rcases whole with more | kept
    · simp [more]
    · simp [kept]
  simp only [completeNext, completeEntry, known, Option.bind_some, found, Option.map_some, next, entry, desc, fits, intact]
  rw [if_neg (not_not.mpr running)]
  exact (if_neg Bool.false_ne_true).trans (if_neg Bool.false_ne_true)

theorem exec_streamCreditReturn {id n : Nat} {c : Cmd} {e : StreamSt} {s : State} (known : s.cmd id = some c) (found : c.streams[n]? = some e)
    (room : e.queue.length < e.spec.depth) (held : e.held.isEmpty = false) :
    exec (.streamCreditReturn id n) s = .next (progress id (setStream id n
      (fun e => { e with queue := e.queue ++ e.held.take 1, held := e.held.drop 1 }) s)) := by
  have moves : (decide (e.queue.length < e.spec.depth) && !e.held.isEmpty) = true := by simp [room, held]
  simp only [exec, execStreamCreditReturn, known, Option.bind_some, found, moves]
  rfl

/-- What a restart leaves of a command: it runs anew from this beat, with its first start and its launch kept (R149). -/
def Restarted (c : Cmd) (now : Nat) (c' : Cmd) : Prop :=
  c'.phase = .running ∧ c'.restarted = true ∧ c'.startBeat = now ∧ c'.firstStart = c.firstStart ∧ c'.launch = c.launch

/-- Settles O35: a lone candidate starts at its visit, a restart begins a run anew, and a list or a stream moves by one. -/
theorem commandsStartAndAdvance : Obligations.CommandsStartAndAdvance := by
  unfold Obligations.CommandsStartAndAdvance
  refine ⟨?_, ?_, ?_, ?_, ?_, ?_⟩
  · intro c x q s only kind waits eligible known queue num ready bound fits may
    obtain ⟨c', found, runs, beat, first, epoch, image, plan, launch⟩ :=
      phase9_starts only kind waits eligible known queue num ready bound fits may
    exact ⟨_, c', rfl, found, runs, beat, first, epoch, image, plan, launch, cells_of_next (i := .commandStart) rfl rfl⟩
  · intro id c s known restarting up issue
    have begun : HasCmd (Restarted c s.now) id (restart id s) := by
      simp only [restart, known]
      rw [if_pos (by simp [restarting, up, issue])]
      exact beginRun_hasCmd (P := fun c' => c'.restarted = true ∧ c'.startBeat = s.now ∧ c'.firstStart = c.firstStart ∧ c'.launch = c.launch)
        ⟨_, setCmd_known known (by intro; rfl), rfl, rfl, rfl, rfl⟩ (fun _ _ _ _ _ _ h => ⟨rfl, h⟩) (fun _ _ h => h) fun _ _ h => h
    obtain ⟨c', found, runs, again, beat, first, launch⟩ := begun
    exact ⟨_, c', rfl, found, runs, again, beat, first, launch, by simp⟩
  · intro p c l s known found running ready
    obtain ⟨c', now, list, events, streams, -⟩ := setList_known (f := fun l => { l with
      issued := l.issued + 1, queue := l.queue ++ [QEntry.new (l.first + l.issued)] }) known found (by intro; rfl)
    refine ⟨_, { c' with progressBeat := s.beat.elapsed }, congrArg Host.Outcome.next (issueNext_of_ready known found running ready), ?_, list, rfl, events,
      streams, by simp, by simp⟩
    rw [progress_known now]
    simp
  · intro p c l s known found held
    refine congrArg Host.Outcome.next (?_ : issueNext p.cmd p.code s = s)
    simp [issueNext, known, found, held]
  · intro p c l i e d s known found running next entry desc room whole
    obtain ⟨c', now, list, events, streams, -⟩ := setList_known (l := l) (code := p.code) (f := fun l => { l with
      completed := l.completed + 1, queue := l.queue.eraseIdx i })
      (setCmd_known (f := Cmd.signalled d) known fun x => by rw [Cmd.signalled_eq d]) (by rw [Cmd.signalled_eq d]; exact found) (by intro; rfl)
    rw [Cmd.signalled_eq d] at events streams
    refine ⟨_, c', congrArg Host.Outcome.next (completeNext_of_completing known found running next entry desc room whole), ?_, list,
      events, streams, by simp⟩
    exact (State.cmd_of_cmds (by simp) p.cmd).trans now
  · intro id n c e s known found room
    obtain ⟨c', now, stream, lists⟩ := setStream_known (f := fun e => { e with queue := e.queue ++ e.held.take 1, held := e.held.drop 1 })
      known found
    cases held : e.held.isEmpty with
    | true =>
      have none := List.isEmpty_iff.mp held
      refine ⟨s, c, ?_, known, ?_, rfl, rfl⟩
      · simp [exec, execStreamCreditReturn, known, found, none]
      · obtain ⟨spec, queue, _, carried⟩ := e
        subst none
        simp [found]
    | false =>
      refine ⟨_, { c' with progressBeat := s.beat.elapsed }, exec_streamCreditReturn known found room held, ?_, stream, lists, by simp⟩
      rw [progress_known now]
      simp

end Sys2Proof.Machine

end

section

/-! ## How commands end: O36 -/

namespace Sys2Proof.Machine
open Sys2Proof.Claims

/-! ### Retirement (R146) -/

theorem recordHots_cmds (hot : List ExpertCount) (s : State) : (hot.foldl (fun s x => recordHot x s) s).jobs.cmds = s.jobs.cmds :=
  foldl_keeps (fun s : State => s.jobs.cmds) (fun s (x : ExpertCount) => recordHot x s) (fun s x => by
    unfold recordHot
    dsimp only
    split
    · rfl
    · rw [record_jobs]) hot s

/-- What retirement leaves of a command. -/
def Retired (c : Cmd) (now : Nat) (c' : Cmd) : Prop :=
  c'.phase = .retired ∧ c'.retireBeat = now ∧ c'.committed = !c.launch.isStep ∧ c'.lists = [] ∧ c'.streams = []

theorem retireCmd_retired {c : Cmd} {s : State} (known : s.cmd c.id = some c) : HasCmd (Retired c s.now) c.id (retireCmd c s) := by
  unfold retireCmd
  dsimp only
  generalize bulk : countBulk c _ s = b
  have cmds : b.jobs.cmds = s.jobs.cmds := by rw [← bulk, countBulk_cmds]
  have beat : b.beat = s.beat := by rw [← bulk]; simp
  generalize ctx : (if c.kind = .copy then b else _) = u
  have cmds' : u.jobs.cmds = s.jobs.cmds := by rw [← ctx, ← cmds]; split <;> rfl
  have beat' : u.beat = s.beat := by rw [← ctx, ← beat]; split <;> simp
  generalize hots : List.foldl _ u _ = v
  have cmds'' : v.jobs.cmds = s.jobs.cmds := by rw [← hots, recordHots_cmds, cmds']
  have beat'' : v.now = s.now := by rw [← hots, State.now, State.now]; simp [beat']
  have marked : HasCmd (Retired c s.now) c.id (setCmd c.id (fun c' => { clearRun c' with
      phase := .retired, retireBeat := v.now, committed := !c'.launch.isStep, counts := [], hot := c'.hot || !(hotExperts u c).isEmpty }) v) :=
    ⟨_, setCmd_known ((State.cmd_of_cmds cmds'' c.id).trans known) (by intro; rfl), rfl, beat'', rfl, rfl, rfl⟩
  split
  · exact marked.of_cmds (by simp)
  · exact marked.of_cmds (by simp)

/-! ### The step commit (R147) -/

theorem deliverTokens_cmds (c : Cmd) (limit rid : Nat) (ts : List Drawn) (s : State) :
    (deliverTokens c limit rid ts s).jobs.cmds = s.jobs.cmds := by
  induction ts generalizing s with
  | nil => rfl
  | cons t ts ih =>
    unfold deliverTokens
    split
    · rfl
    dsimp only
    split
    · rw [endRequest_cmds]
      simp
    · rw [ih]
      simp

theorem commitItem_cmds (c : Cmd) (outs : List StepOut) (i : PlanItem) (s : State) : (commitItem c outs i s).jobs.cmds = s.jobs.cmds := by
  unfold commitItem
  split
  · rfl
  split
  · rfl
  dsimp only
  split
  · simp
  split
  · rw [commitDecode, deliverTokens_cmds]
    simp
  · unfold commitPrompt
    dsimp only
    split
    · rw [endRequest_cmds]
      simp
    · have told (f : Req → Req) (id : Nat) (u : State) : (setReq id f u).jobs = u.jobs := by simp
      rw [told, deliverTokens_cmds]
      simp

theorem commitServing_cmds (c : Cmd) (outs : List StepOut) (s : State) : (commitServing c outs s).jobs.cmds = s.jobs.cmds := by
  have settled (s : State) : (settlePauses s).jobs = s.jobs := by simp
  rw [commitServing, settled]
  exact foldl_keeps (fun s : State => s.jobs.cmds) (fun s (i : PlanItem) => commitItem c outs i s) (fun s i => commitItem_cmds c outs i s) _ s

/-- After a step's commit every command of its id is committed. -/
theorem commitStep_committed (c : Cmd) (outs : List StepOut) (s : State) :
    ∀ y ∈ (commitStep c outs s).jobs.cmds, y.id = c.id → y.committed = true := by
  unfold commitStep
  dsimp only
  generalize marked : setCmd c.id _ _ = u
  have committed : ∀ y ∈ u.jobs.cmds, y.id = c.id → y.committed = true := by
    intro y hy same
    rw [← marked] at hy
    obtain ⟨x, -, hx⟩ := List.mem_map.mp hy
    split at hx
    · rw [← hx]
    next other =>
      rw [← hx] at same
      exact absurd (decide_eq_true same) other
  intro y hy same
  have kept := List.mem_of_mem_filter hy
  split at kept
  · rw [commitServing_cmds] at kept
    exact committed y kept same
  · exact committed y (by simpa using kept) same

/-- The commit of a launch counts whether it came late (R147), and touches neither memory nor the serving state. -/
theorem commitStep_of_launch {c : Cmd} {outs : List StepOut} {x : Ctx} {s : State} (kind : c.kind = .launch) (known : s.ctx c.ctx = some x) :
    (∃ x', (commitStep c outs s).ctx c.ctx = some x' ∧ x'.lateCommits = sat32 (x.lateCommits +
        bit (c.launch.commitBeat ≠ 0 && beatBefore c.launch.commitBeat (beatAdd c.retireBeat 1)))) ∧
      (commitStep c outs s).mem = s.mem ∧ (commitStep c outs s).serve = s.serve := by
  unfold commitStep
  dsimp only
  rw [if_neg (by simp [kind])]
  have late := setCtx_known (f := fun x => { x with
    lateCommits := sat32 (x.lateCommits + bit (c.launch.commitBeat ≠ 0 && beatBefore c.launch.commitBeat (beatAdd c.retireBeat 1))),
    hotSteps := sat32 (x.hotSteps + bit c.hot) }) known (by intro; rfl)
  refine ⟨⟨_, Eq.trans (State.ctx_of_ctxs ?_ _) late, rfl⟩, by simp, by simp⟩
  simp [setCmd]

/-! ### Faults (R394 to R397) and the watchdog (R143) -/

/-- What a fault leaves of its context and its command. -/
theorem contextFaultAt_torn {id cause code : Nat} {c : Cmd} {x : Ctx} {s : State} (known : s.cmd id = some c) (running : c.phase = .running)
    (context : s.ctx c.ctx = some x) (notLimcel : c.ctx ≠ 0) (untorn : x.torn = false) :
    (∃ x', (contextFaultAt id cause code s).ctx c.ctx = some x' ∧ x'.torn = true ∧ x'.queues = [] ∧
        x'.cause = if x.faulted.count = 0 then cause else x.cause) ∧
      (∀ h ∈ (contextFaultAt id cause code s).mem.handles, h.ctx ≠ c.ctx) ∧
      ∀ c', (contextFaultAt id cause code s).cmd id = some c' → c'.phase = .retired ∧ c'.committed = true ∧ c'.lists = [] := by
  obtain ⟨ended, torn, freed⟩ := contextFault_torn (code := code) (desc := none) known running context notLimcel untorn
  refine ⟨torn, freed, fun c' found => ?_⟩
  have cut : c.ended = some c.cut := by rw [Cmd.ended, if_neg (by simp [running]), if_neg (by simp [running, Phase.over])]
  rw [← Option.some.inj (cut.symm.trans (ended.symm.trans found))]
  exact ⟨rfl, rfl, rfl⟩

theorem execWatchdogExpiry_early {id : Nat} {c : Cmd} {x : Ctx} {s : State} (known : s.cmd id = some c) (context : s.ctx c.ctx = some x)
    (early : s.beat.elapsed < c.progressBeat + x.wdog) : exec (.watchdogExpiry id) s = .next s := by
  simp [exec, execWatchdogExpiry, known, context, early]

/-- The watchdog of a running command notes its open lists and faults its context (R143). -/
theorem execWatchdogExpiry_due {id : Nat} {c : Cmd} {x : Ctx} {s : State} (known : s.cmd id = some c) (running : c.phase = .running)
    (context : s.ctx c.ctx = some x) (due : c.progressBeat + x.wdog ≤ s.beat.elapsed) :
    ∃ code u, exec (.watchdogExpiry id) s = .next (contextFaultAt id 5 code u) ∧ u.jobs = s.jobs ∧ u.mem = s.mem := by
  have late : ¬ (c.phase ≠ .running || decide (s.beat.elapsed < c.progressBeat + x.wdog)) = true := by simp [running, due]
  simp only [exec, execWatchdogExpiry, known, context, Option.map_some, Option.getD_some]
  rw [if_neg late]
  split
  · exact ⟨_, s, rfl, rfl, rfl⟩
  · exact ⟨_, _, rfl, foldl_keeps State.jobs _ (fun s l => record_jobs ..) _ s, foldl_keeps State.mem _ (fun s l => by simp) _ s⟩

/-- A command that leaves a tile behind, or whose declared stream never ran, faults instead of retiring (R142). -/
theorem exec_commandRetire_broken {id code : Nat} {c : Cmd} {s : State} (known : s.cmd id = some c) (running : c.phase = .running)
    (done : listsDone c = true) (answered : s.fab.accesses.any (fun a => a.cmd = id) = false)
    (broken : (leftover c).or (neverCarried c) = some code) : exec (.commandRetire id) s = .next (contextFaultAt id 1 code s) := by
  simp [exec, execCommandRetire, known, running, done, answered, broken]

/-! ### The obligation -/

/-- Settles O36: retirement and commit by their rules, faults and the watchdog by the context's teardown. -/
theorem commandsEnd : Obligations.CommandsEnd := by
  unfold Obligations.CommandsEnd
  refine ⟨?_, ?_, ?_, ?_, ?_, ?_, ?_, ?_⟩
  · intro id c s known running done local_ empty carried
    have same : c.id = id := by simpa using List.find?_some known
    subst same
    obtain ⟨c', found, retired, beat, committed, lists, streams⟩ := retireCmd_retired known
    have ends : exec (.commandRetire c.id) s = .next (retireCmd c s) := by
      simp [exec, execCommandRetire, known, running, done, local_, empty, carried]
    exact ⟨_, c', ends, found, retired, beat, committed, lists, streams, by simp⟩
  · intro id code c s known running done answered broken
    exact exec_commandRetire_broken known running done answered broken
  · intro id outs c s known awaits due
    have same : c.id = id := by simpa using List.find?_some known
    subst same
    exact ⟨commitStep c outs s, by simp [exec, execStepCommit, known, awaits, due], commitStep_committed c outs s⟩
  · intro id outs c x s known awaits kind due context
    obtain ⟨⟨x', found, late⟩, mem, serve⟩ := commitStep_of_launch (outs := outs) kind context
    exact ⟨commitStep c outs s, x', by simp [exec, execStepCommit, known, awaits, due], found, late, mem, serve⟩
  · intro id outs c s known notYet
    have held : (awaitsCommit c && beatLe (commitBeatOf c) s.now) = false := by
      rcases notYet with committed | early
      · simp [committed]
      · simp [early]
    simp [exec, execStepCommit, known, held]
  · intro id cause p c x s low high known running context notLimcel untorn
    obtain ⟨⟨x', found, torn, queues, first⟩, freed, cut⟩ := contextFaultAt_torn (cause := cause) (code := p.code) known running context
      notLimcel untorn
    exact ⟨_, x', by rw [exec, execContextFault, if_pos (by simp [low, high])], found, torn, queues, first, freed, cut, by simp, by simp⟩
  · intro id c x s known running context notLimcel untorn due
    obtain ⟨code, u, ends, jobs, mem⟩ := execWatchdogExpiry_due known running context due
    obtain ⟨⟨x', found, torn, -, first⟩, -, cut⟩ := contextFaultAt_torn (cause := 5) (code := code) ((cmd_of_jobs jobs id).trans known) running
      ((ctx_of_jobs jobs c.ctx).trans context) notLimcel untorn
    exact ⟨_, x', ends, found, torn, first, fun c' hc => ⟨(cut c' hc).1, (cut c' hc).2.1⟩, by simp [mem]⟩
  · intro id c x s known context early
    exact execWatchdogExpiry_early known context early

end Sys2Proof.Machine

end

section

/-! ## A station's turn at a descriptor: O40 -/

namespace Sys2Proof.Machine
open Sys2Proof.Claims

/-! ### One turn -/

theorem exec_of_stationRow {i : Instr} {p : Place} {body : DBody} {op : Bench → Work} {note : Bench → Nat}
    (row : stationRow i = some (p, body, op, note)) (s : State) : exec i s = .next (runNoted p body op note s) := by
  unfold stationRow at row
  split at row
  all_goals cases row
  all_goals rfl

theorem runNoted_of_turn {p : Place} {body : DBody} {op : Bench → Work} {note : Bench → Nat} {s t : State} {again : Bool}
    (one : turn p body op note s = (t, again)) :
    runNoted p body op note s = if again then turns p body op note 16383 t else t := by
  rw [runNoted, turns, one]
  cases again <;> rfl

section
variable {p : Place} {body : DBody} {op : Bench → Work} {note : Bench → Nat} {c : Cmd} {l : ListSt} {k : Nat} {b : Bench} {s : State}

theorem atStation_open (at_ : AtStation p body s c l k b) : ((portsOf body).2.any fun q => portHolds c (q * 4096 + p.code)) = false :=
  List.any_eq_false.mpr fun q hq => by simp [at_.2.2 q hq]

theorem turn_of_make {m : Made} (at_ : AtStation p body s c l k b) (makes : op b = .make m) :
    turn p body op note s = (applyMade p c l k m (countNoted p c k (note b) b.entry s), m.more) := by
  have open_ := atStation_open at_
  obtain ⟨work, rfl, -⟩ := at_
  simp only [turn, work, open_, makes]
  rfl

theorem turn_of_fault {cause : Nat} (at_ : AtStation p body s c l k b) (faults : op b = .fault cause) :
    turn p body op note s =
      (contextFault c.id cause p.code (some b.entry.index) (countNoted p c k (note b) b.entry s), false) := by
  have open_ := atStation_open at_
  obtain ⟨work, rfl, -⟩ := at_
  simp only [turn, work, open_, faults]
  rfl

theorem turn_of_take {n0 n1 n2 q : Nat} (at_ : AtStation p body s c l k b) (needs : op b = .need n0 n1 n2)
    (offered : wanting (countNoted p c k (note b) b.entry s) c b n0 n1 n2 false = some q) :
    turn p body op note s = (absorb p c k q (countNoted p c k (note b) b.entry s), true) := by
  have open_ := atStation_open at_
  obtain ⟨work, rfl, -⟩ := at_
  simp only [turn, work, open_, needs, offered]
  rfl

/-- A station that lacks a tile of a stream that has ended faults (R142). -/
theorem turn_of_dry {n0 n1 n2 : Nat} (at_ : AtStation p body s c l k b) (needs : op b = .need n0 n1 n2)
    (stopped : wanting (countNoted p c k (note b) b.entry s) c b n0 n1 n2 false = none)
    (dry : (b.in0.length < n0 ∧ b.dry0 = true) ∨ (b.in1.length < n1 ∧ b.dry1 = true) ∨ (b.in2.length < n2 ∧ b.dry2 = true)) :
    turn p body op note s = (contextFault c.id 1 p.code (some b.entry.index) (countNoted p c k (note b) b.entry s), false) := by
  have open_ := atStation_open at_
  have ended : ((decide (b.in0.length < n0) && b.dry0) || (decide (b.in1.length < n1) && b.dry1) ||
      (decide (b.in2.length < n2) && b.dry2)) = true := by simpa [or_assoc] using dry
  obtain ⟨work, rfl, -⟩ := at_
  simp only [turn, work, open_, needs, stopped, ended]
  rfl

theorem turn_of_starve {n0 n1 n2 q : Nat} (at_ : AtStation p body s c l k b) (needs : op b = .need n0 n1 n2)
    (stopped : wanting (countNoted p c k (note b) b.entry s) c b n0 n1 n2 false = none)
    (waits : wanting (countNoted p c k (note b) b.entry s) c b n0 n1 n2 true = some q) (wet0 : b.in0.length < n0 → b.dry0 = false)
    (wet1 : b.in1.length < n1 → b.dry1 = false) (wet2 : b.in2.length < n2 → b.dry2 = false) :
    turn p body op note s = (starve p.code q (countNoted p c k (note b) b.entry s), false) := by
  have open_ := atStation_open at_
  have runs : ((decide (b.in0.length < n0) && b.dry0) || (decide (b.in1.length < n1) && b.dry1) ||
      (decide (b.in2.length < n2) && b.dry2)) = false := by simpa using ⟨⟨wet0, wet1⟩, wet2⟩
  obtain ⟨work, rfl, -⟩ := at_
  simp only [turn, work, open_, needs, stopped, waits, runs]
  rfl

theorem turn_of_held {q : Nat} (work : atWork s p body = some (c, l, k)) (out : q ∈ (portsOf body).2)
    (held : portHolds c (q * 4096 + p.code) = true) : turn p body op note s = (s, false) := by
  have some_ : ((portsOf body).2.any fun q => portHolds c (q * 4096 + p.code)) = true := List.any_eq_true.mpr ⟨q, out, held⟩
  simp only [turn, work, some_]
  rfl

theorem turn_of_none (none_ : atWork s p body = none) : turn p body op note s = (s, false) := by simp only [turn, none_]

end

/-! ### Rows that write nothing, lists that end short -/

theorem mayStore_of_stationRow {i : Instr} {p : Place} {body : DBody} {op : Bench → Work} {note : Bench → Nat}
    (row : stationRow i = some (p, body, op, note)) (sort : ∀ f, body ≠ .gSort f) (scatter : ∀ f, body ≠ .gScatter f) :
    mayStore i = false := by
  unfold stationRow at row
  split at row
  case h_16 => cases row; exact absurd rfl (sort _)
  case h_17 => cases row; exact absurd rfl (scatter _)
  all_goals cases row
  all_goals rfl

/-- The last descriptor of a list whose declared stream carried another number of tiles ends the command (R142). -/
theorem completeNext_of_broken {id code i : Nat} {c : Cmd} {l : ListSt} {e : QEntry} {d : Desc} {x : StreamSt} {s : State}
    (known : s.cmd id = some c) (found : c.list code = some l) (running : c.phase = .running) (next : completing s c l = some i)
    (entry : l.queue[i]? = some e) (desc : c.image.descs[e.index]? = some d) (quiet : d.signal = false)
    (last : l.completed + 1 = l.count) (stream : x ∈ c.streams) (produced : x.spec.producer % 4096 = code) (declared : x.spec.tiles ≠ 0)
    (short : x.carried ≠ x.spec.tiles) : ∃ u, completeNext id code s = contextFault id 1 code (some e.index) u ∧ u.mem = s.mem := by
  have broken : tilesBroken c code = true := List.any_eq_true.mpr ⟨x, stream, by simp [produced, declared, short]⟩
  have silent : (d.signal && decide (0xFFFFFFFF ≤ c.events.getD d.event 0)) = false := by simp [quiet]
  refine ⟨setNamed code (fun e => { e with descs := wrap32 (e.descs + 1) })
    (setList id code (fun l => { l with completed := l.completed + 1, queue := l.queue.eraseIdx i }) (setCmd id (Cmd.signalled d) s)), ?_,
    by simp⟩
  simp only [completeNext, completeEntry, known, Option.bind_some, found, Option.map_some, next, entry, desc, silent, last, broken]
  rw [if_neg (not_not.mpr running)]
  exact (if_neg Bool.false_ne_true).trans (if_pos (by decide))

/-- Settles O40: each answer of a station at a descriptor is one branch of its turn. -/
theorem stationsWaitOrFault : Obligations.StationsWaitOrFault := by
  unfold Obligations.StationsWaitOrFault
  refine ⟨?_, ?_, ?_, ?_, ?_, ?_, ?_, ?_, ?_, ?_, ?_, ?_, ?_⟩
  · intro i p body op note c l k b m s row at_ makes
    rw [exec_of_stationRow row, runNoted_of_turn (turn_of_make at_ makes)]
  · intro i p body op note c l k n0 n1 n2 q b s row at_ needs offered
    rw [exec_of_stationRow row, runNoted_of_turn (turn_of_take at_ needs offered)]
    rfl
  · intro i p body op note c l k n0 n1 n2 q b s row at_ needs stopped waits wet0 wet1 wet2
    rw [exec_of_stationRow row, runNoted_of_turn (turn_of_starve at_ needs stopped waits wet0 wet1 wet2)]
    rfl
  · intro i p body op note c l k n0 n1 n2 b s row at_ needs stopped dry
    rw [exec_of_stationRow row, runNoted_of_turn (turn_of_dry at_ needs stopped dry)]
    rfl
  · intro i p body op note c l k cause b s row at_ faults
    rw [exec_of_stationRow row, runNoted_of_turn (turn_of_fault at_ faults)]
    rfl
  · intro i p body op note c l k q s row work out held
    rw [exec_of_stationRow row, runNoted_of_turn (turn_of_held work out held)]
    rfl
  · intro i p body op note s row none_
    rw [exec_of_stationRow row, runNoted_of_turn (turn_of_none none_)]
    rfl
  · intro i p body op note s t row sort scatter next
    refine ⟨cells_of_next next (mayStore_of_stationRow row sort scatter), ?_⟩
    rw [exec_of_stationRow row] at next
    rw [← Host.Outcome.next.inj next]
    simp
  · intro c e l found
    simp [streamEnded, found]
  · intro id code c s known running done answered broken
    exact exec_commandRetire_broken known running done answered broken
  · intro p c l k e d x s known found running next entry desc quiet last stream produced declared short
    obtain ⟨u, faults, mem⟩ := completeNext_of_broken known found running next entry desc quiet last stream produced declared short
    exact ⟨u, congrArg Host.Outcome.next faults, mem⟩
  · intro id cause code desc c s known running notLimcel
    simp only [contextFault, known]
    rw [if_pos (by simp [running]), if_neg notLimcel]
  · intro id c s known running
    simp only [endCmd, known]
    rw [if_neg (by simp [running]), if_neg (by simp [running, Phase.over])]
    rfl

end Sys2Proof.Machine

end

section

/-! ## What a matrix station carries out: O37 -/

namespace Sys2Proof.Machine
open Sys2Proof.Claims

/-! ### A step carried out -/

/-- A station that discards no rows carries out the step that its view allows. -/
theorem carriedOut_of_make {i : Instr} {p : Place} {body : DBody} {op : Bench → Work} {c : Cmd} {l : ListSt} {k : Nat} {b : Bench} {m : Made}
    {s : State} (row : stationRow i = some (p, body, op, fun _ => 0)) (at_ : AtStation p body s c l k b) (makes : op b = .make m) :
    CarriedOut i p body op c l k m s := by
  have none_ : countNoted p c k 0 b.entry s = s := if_pos (Nat.zero_le _)
  rw [CarriedOut, exec_of_stationRow row, runNoted_of_turn (turn_of_make at_ makes), none_]

/-- A step with its tiles at hand, all fit for their formats, is carried out (R46). -/
theorem withTiles_of_ready {b : Bench} {n0 n1 n2 c0 c1 c2 : Nat} {k : Work} (ok0 : allOk b.in0 c0) (ok1 : allOk b.in1 c1)
    (ok2 : allOk b.in2 c2) (enough0 : n0 ≤ b.in0.length) (enough1 : n1 ≤ b.in1.length) (enough2 : n2 ≤ b.in2.length) :
    withTiles b n0 n1 n2 c0 c1 c2 k = k := by
  have fit {ts : List Tile} {code : Nat} (ok : allOk ts code) : (ts.any fun t => !t.ok code) = false :=
    List.any_eq_false.mpr fun t ht => by simp [ok t ht]
  rw [withTiles, fit ok0, fit ok1, fit ok2, if_neg (by simp), if_neg (by simp; omega)]

theorem allOk_nil (code : Nat) : allOk [] code := fun _ ht => absurd ht List.not_mem_nil

theorem any_not_ok {ts : List Tile} {code : Nat} (ok : allOk ts code) : (ts.any fun t => !t.ok code) = false :=
  List.any_eq_false.mpr fun t ht => by simp [ok t ht]

/-! ### The sets, the passes and the drains of a Frond -/

/-- The list after a load of its sets (R67, R70, R88). -/
def ListSt.loaded (l : ListSt) (f : FLoadF) (desc : Nat) (ts : List Tile) : ListSt :=
  let new : Loaded := ⟨f.format, f.partner, f.arrange, ts.map fun t => ⟨t, f.kBase, f.kCount⟩⟩
  let l := if f.retain then { l with hold := retainAt l.hold f.holdBase ts } else l
  if l.loadMode = 0 then { l with active := some new, shadow := none } else { l with shadow := some (desc, new) }

theorem ListSt.loaded_spec (l : ListSt) (f : FLoadF) (desc : Nat) (ts : List Tile) :
    (l.loadMode = 0 → (l.loaded f desc ts).active = some ⟨f.format, f.partner, f.arrange, ts.map fun t => ⟨t, f.kBase, f.kCount⟩⟩) ∧
      (l.loadMode ≠ 0 → (l.loaded f desc ts).shadow =
        some (desc, ⟨f.format, f.partner, f.arrange, ts.map fun t => ⟨t, f.kBase, f.kCount⟩⟩)) ∧
      (l.loaded f desc ts).bank0 = l.bank0 ∧ (l.loaded f desc ts).bank1 = l.bank1 := by
  have mode : (if f.retain then { l with hold := retainAt l.hold f.holdBase ts } else l).loadMode = l.loadMode := by split <;> rfl
  have bank0 : (if f.retain then { l with hold := retainAt l.hold f.holdBase ts } else l).bank0 = l.bank0 := by split <;> rfl
  have bank1 : (if f.retain then { l with hold := retainAt l.hold f.holdBase ts } else l).bank1 = l.bank1 := by split <;> rfl
  simp only [ListSt.loaded, mode]
  split
  next stall => exact ⟨fun _ => rfl, fun other => absurd stall other, bank0, bank1⟩
  next other => exact ⟨fun stall => absurd stall other, fun _ => rfl, bank0, bank1⟩

theorem opFLoad_of_ready {f : FLoadF} {b : Bench} {ts : List Tile}
    (tiles : ts = (if f.fromHold then (List.range f.sets).map (fun i => b.holdTile (f.holdBase + i)) else b.in0))
    (count : ts.length = f.sets) (ok : allOk ts f.format) (only : f.fromHold = true ∨ b.in1 = [] ∧ b.in2 = []) :
    opFLoad f b = .make { b.nothing with list := b.list.loaded f b.entry.index ts, roleB := 1 } := by
  unfold opFLoad
  dsimp only
  split
  next held =>
    rw [if_pos held] at tiles
    rw [← tiles, any_not_ok ok, if_neg Bool.false_ne_true]
    rfl
  next streamed =>
    rw [if_neg streamed] at tiles
    obtain ⟨none1, none2⟩ := only.resolve_left streamed
    rw [tiles] at ok count
    rw [withTiles_of_ready ok (none1 ▸ allOk_nil 0) (none2 ▸ allOk_nil 0) (by omega) (Nat.zero_le _) (Nat.zero_le _), tiles]
    rfl

theorem opFMma_of_ready {f : FMmaF} {b : Bench} {ld : Loaded} {fs fx : Fmt} {ts : List Tile} (active : b.list.active = some ld)
    (stationary : Fmt.ofCode ld.format = some fs) (streaming : Fmt.ofCode f.format = some fx) (partner : f.format = ld.partner)
    (bank : f.init ≠ 0 ∨ (b.list.bank f.bank).opened = true ∧ (b.list.bank f.bank).rowTags.length = f.rows)
    (tiles : ts = (if f.fromHold then (List.range ((f.rows + 63) / 64)).map (fun i => b.holdTile (f.holdBase + i)) else b.in1))
    (count : ts.length = (f.rows + 63) / 64) (ok : allOk ts f.format) (none0 : b.in0 = []) (only : f.fromHold = false ∨ b.in1 = [])
    (inits : b.in2.length = (if f.init = 2 then (f.rows + 63) / 64 * ((passWidth f ld (setDepth fs fx) + 63) / 64) else 0))
    (okInit : allOk b.in2 Fmt.fp32.code) :
    opFMma f b = .make { b.nothing with
      list := passOf f (if f.retain then { b.list with hold := retainAt b.list.hold f.holdBase ts } else b.list) ld fs fx ts b.in2
        b.entry.fails
      mismatch := b.entry.fails } := by
  have kept : (f.init = 0 && (!(b.list.bank f.bank).opened || decide ((b.list.bank f.bank).rowTags.length ≠ f.rows))) = false := by
    rcases bank with fresh | ⟨opened, rows⟩
    · simp [fresh]
    · simp [opened, rows]
  simp only [opFMma, active, stationary, streaming]
  rw [if_neg (not_not.mpr partner), kept, if_neg Bool.false_ne_true]
  split
  next held =>
    rw [if_pos held] at tiles
    have none1 := only.resolve_left (by simp [held])
    rw [← tiles, any_not_ok ok, if_neg Bool.false_ne_true,
      withTiles_of_ready (none0 ▸ allOk_nil 0) (none1 ▸ allOk_nil 0) okInit (Nat.zero_le _) (Nat.zero_le _) inits.ge]
  next streamed =>
    rw [if_neg streamed] at tiles
    rw [← tiles, withTiles_of_ready (none0 ▸ allOk_nil 0) (tiles ▸ ok) okInit (Nat.zero_le _) (tiles ▸ count.ge) inits.ge]

theorem opFDrain_of_opened {f : FDrainF} {b : Bench} {fo : Fmt} (format : Fmt.ofCode f.conv.format = some fo)
    (opened : (b.list.bank f.bank).opened = true) : opFDrain f b = .make (if (b.list.bank f.bank).poisoned then { b.nothing with roleA := 1 }
      else { b.nothing with
        out0 := (emitTiles (b.rounding fo f.conv) (drainView (b.list.bank f.bank) f.transposeOut).1
          (drainView (b.list.bank f.bank) f.transposeOut).2).1
        conv := (emitTiles (b.rounding fo f.conv) (drainView (b.list.bank f.bank) f.transposeOut).1
          (drainView (b.list.bank f.bank) f.transposeOut).2).2 }) := by
  simp only [opFDrain, format, opened]
  cases (b.list.bank f.bank).poisoned <;> rfl

theorem opFHad_of_ready {f : FHadF} {b : Bench} {fa fb fo : Fmt} {x y : Tile} (formatA : Fmt.ofCode f.formatA = some fa)
    (formatB : Fmt.ofCode f.formatB = some fb) (format : Fmt.ofCode f.conv.format = some fo) (none0 : b.in0 = [])
    (streamed : b.in1 = (if f.fromHold then [] else [x])) (held : f.fromHold = true → x = b.holdTile (f.holdBase + b.entry.step))
    (second : b.in2 = [y]) (okX : x.ok f.formatA = true) (okY : y.ok f.formatB = true) (extents : x.kExtent = y.kExtent) :
    opFHad f b = .make { b.nothing with
      take1 := 1, take2 := 1, out0 := (hadPair (b.rounding fo f.conv) fa fb b.entry.step x y).1
      conv := (hadPair (b.rounding fo f.conv) fa fb b.entry.step x y).2, more := decide (b.entry.step + 1 < f.tiles) } := by
  have one {t : Tile} {code : Nat} (ok : t.ok code = true) : allOk [t] code := fun u hu => List.mem_singleton.mp hu ▸ ok
  simp only [opFHad, formatA, formatB, format]
  split
  next fromHold =>
    rw [if_pos fromHold] at streamed
    rw [← held fromHold, okX, withTiles_of_ready (none0 ▸ allOk_nil 0) (streamed ▸ allOk_nil 0) (second ▸ one okY) (Nat.zero_le _)
      (Nat.zero_le _) (by simp [second]), second]
    simp [extents]
  next fromPort =>
    rw [if_neg fromPort] at streamed
    rw [withTiles_of_ready (none0 ▸ allOk_nil 0) (streamed ▸ one okX) (second ▸ one okY) (Nat.zero_le _) (by simp [streamed])
      (by simp [second]), second, streamed]
    simp [extents]

/-- The shadow set becomes the active one once the passes before its load are done (R72). -/
theorem settled_of_due {c : Cmd} {l : ListSt} {j : Nat} {x : Loaded} (shadow : l.shadow = some (j, x))
    (done : allDone c DBody.isPass (l.queue.filter fun e => decide (e.index < j)) = true) :
    settled c l = { l with active := some x, shadow := none } := by
  have due : swapDue c l = true := by simp only [swapDue, shadow, done]
  rw [settled, if_pos due]
  simp only [swapSets, shadow]

/-- Settles O37: each operation with its tiles at hand makes its step, and a turn carries the step out. -/
theorem frondCarriesOut : Obligations.FrondCarriesOut := by
  unfold Obligations.FrondCarriesOut
  refine ⟨?_, ?_, ?_, ?_, ?_, ?_⟩
  · intro p f c l k b ts s at_ tiles count ok only
    obtain ⟨active, shadow, bank0, bank1⟩ := b.list.loaded_spec f b.entry.index ts
    exact ⟨_, carriedOut_of_make rfl at_ (opFLoad_of_ready tiles count ok only), rfl, rfl, rfl, rfl, active, shadow, bank0, bank1⟩
  · intro p f c l k b ld fs fx ts s at_ active stationary streaming partner bank tiles count ok none0 only inits okInit
    exact ⟨_, carriedOut_of_make rfl at_ (opFMma_of_ready active stationary streaming partner bank tiles count ok none0 only inits okInit),
      rfl, rfl, rfl, rfl⟩
  · intro p f s
    rfl
  · intro p f c l k b fo s at_ format opened
    refine ⟨_, carriedOut_of_make rfl at_ (opFDrain_of_opened format opened), ?_⟩
    cases (b.list.bank f.bank).poisoned with
    | true => exact ⟨rfl, rfl, fun _ => ⟨rfl, rfl⟩, fun clean => absurd clean (by decide)⟩
    | false => exact ⟨rfl, rfl, fun poisoned => absurd poisoned (by decide), fun _ => ⟨rfl, rfl⟩⟩
  · intro p f c l k b fa fb fo x y s at_ formatA formatB format none0 streamed held second okX okY extents
    exact ⟨_, carriedOut_of_make rfl at_ (opFHad_of_ready formatA formatB format none0 streamed held second okX okY extents), rfl, rfl, rfl,
      rfl, rfl⟩
  · intro p c l j x s known running found shadow done
    have sameCode (y : ListSt) : (settled c y).code = y.code := by
      unfold settled swapSets
      (repeat' split) <;> rfl
    refine ⟨setList p.cmd p.code (settled c) s, { c with lists := updBy (fun l => l.code = p.code) (settled c) c.lists },
      by simp [exec, execStationarySwap, known, running], setCmd_known known (by intro; rfl), ?_, fun code other => ?_, rfl, by simp⟩
    · rw [Cmd.list, find_updBy _ _ (by intro y; simp [sameCode]), show c.lists.find? _ = some l from found, Option.map_some,
        settled_of_due shadow done]
    · exact find_updBy_ne _ _ _ (by intro y; simp [sameCode]) (by intro y hy; simp only [decide_eq_true_eq] at hy; simp [hy, Ne.symm other]) _

end Sys2Proof.Machine

end

section

/-! ## What a vector station carries out: O38 -/

namespace Sys2Proof.Machine
open Sys2Proof.Claims

theorem allOk_singleton {t : Tile} {code : Nat} (ok : t.ok code = true) : allOk [t] code := fun _ hu => List.mem_singleton.mp hu ▸ ok

theorem opVEwise_of_ready {f : EwiseF} {b : Bench} {fa fo fb : Fmt} (formatA : Fmt.ofCode f.formatA = some fa)
    (format : Fmt.ofCode f.conv.format = some fo) (formatB : fb = (Fmt.ofCode f.formatB).getD .fp32) (okA : allOk b.in0 f.formatA)
    (closed : b.closed fa = true) (okB : allOk b.in1 f.formatB)
    (pieces : b.in1.length = (if ewiseTakesB f.func then pieceCount fb (groupLen fa b.in0) else 0)) (none2 : b.in2 = []) :
    ∃ m, opVEwise f b = .make m ∧ m.take0 = b.in0.length ∧ m.take1 = b.in1.length ∧ m.count = m.out0.length ∧
      m.out0 = (emitGroup (b.rounding fo f.conv) (64 * b.entry.step)
        ((readGroup fa (groupLen fa b.in0) b.in0).zipIdx.map fun ((y, i) : LRow × Nat) =>
          if y.valid then (⟨true, y.tag, (y.words.zipIdx.take (min (groupLen fa b.in0) ((f.tiles - b.entry.count) * fo.tileK))).map
            fun (x, j) => f32 (ewise f.func f.c0 f.c1 x (((readGroup fb (groupLen fa b.in0) b.in1).getD (if f.bcastB then 0 else i)
              ⟨false, 0#32, []⟩).words.getD j 0#32))⟩ : LRow)
          else ⟨false, y.tag, []⟩) (min (groupLen fa b.in0) ((f.tiles - b.entry.count) * fo.tileK))).1 := by
  simp only [opVEwise, formatA, format, closed, ← formatB]
  rw [withTiles_of_ready okA okB (none2 ▸ allOk_nil 0) (by simp) pieces.ge (Nat.zero_le _)]
  exact ⟨_, rfl, rfl, pieces.symm, rfl, rfl⟩

theorem opVSoftmax_of_ready {f : SoftmaxF} {b : Bench} {fi fo : Fmt} (format : Fmt.ofCode f.format = some fi)
    (out : Fmt.ofCode f.conv.format = some fo) (pieces : b.in0.length = pieceCount fi f.rowLen) (ok : allOk b.in0 f.format)
    (scales : b.in1.length = (if f.scaleSrc then 1 else 0)) (okScale : allOk b.in1 Fmt.fp32.code) (none2 : b.in2 = []) :
    ∃ m, opVSoftmax f b = .make m ∧ m.take0 = b.in0.length ∧ m.take1 = b.in1.length ∧
      m.more = decide (b.entry.step + 1 < f.rowGroups) ∧ (f.stats = true → m.out0 = []) ∧
      m.out1 = (if f.stats || f.statsOut then [wordTile 64 ((readGroup fi f.rowLen b.in0).zipIdx.map fun ((y, r) : LRow × Nat) =>
        let st := softStats fi.tileK (y.words.map fun x => fmul x (if f.scaleSrc then wordOf (b.in1.headD Tile.blank) r 0 else f.scale))
        let one := softStats fi.tileK y.words
        (y.valid, y.tag, [st.1, lseOf st] ++ if f.dual then [one.1, lseOf one] else []))] else []) ∧
      (f.stats = false → m.out0 = (emitGroup (b.rounding fo f.conv) (64 * b.entry.step)
        ((readGroup fi f.rowLen b.in0).zipIdx.map fun ((y, r) : LRow × Nat) =>
          let xs := y.words.map fun x => fmul x (if f.scaleSrc then wordOf (b.in1.headD Tile.blank) r 0 else f.scale)
          let st := softStats fi.tileK xs
          (⟨y.valid, y.tag, if y.valid then xs.map fun x => if st.1 = negInf32 then Machine.Num.zero
            else f32 (fdiv (fexp (fsub x st.1)) st.2) else []⟩ : LRow)) f.rowLen).1) := by
  simp only [opVSoftmax, format, out]
  rw [withTiles_of_ready ok okScale (none2 ▸ allOk_nil 0) pieces.ge scales.ge (Nat.zero_le _)]
  simp only [List.map_map]
  split
  next stats => exact ⟨_, rfl, pieces.symm, scales.symm, rfl, fun _ => rfl, rfl, fun other => absurd stats (by simp [other])⟩
  next other => exact ⟨_, rfl, pieces.symm, scales.symm, rfl, fun stats => absurd stats other, rfl, fun _ => rfl⟩

theorem opVNorm_of_ready {f : NormF} {b : Bench} {fi fo : Fmt} (format : Fmt.ofCode f.format = some fi)
    (out : Fmt.ofCode f.conv.format = some fo) (pieces : b.in0.length = pieceCount fi f.rowLen) (ok : allOk b.in0 f.format)
    (gains : b.in1.length = (if f.gain then pieceCount ((Fmt.ofCode f.gbFormat).getD .fp32) f.rowLen else 0)) (okGain : allOk b.in1 f.gbFormat)
    (biases : b.in2.length = (if f.bias then pieceCount ((Fmt.ofCode f.gbFormat).getD .fp32) f.rowLen else 0))
    (okBias : allOk b.in2 f.gbFormat) :
    ∃ m, opVNorm f b = .make m ∧ m.take0 = b.in0.length ∧ m.take1 = 0 ∧ m.take2 = 0 ∧
      m.more = decide (b.entry.step + 1 < f.rowGroups) ∧
      m.out1 = (if f.statsOut then [wordTile 64 ((readGroup fi f.rowLen b.in0).map fun (y : LRow) =>
        (y.valid, y.tag, if f.layer then [(normStats f fi.tileK y.words).1, (normStats f fi.tileK y.words).2]
          else [(normStats f fi.tileK y.words).1]))] else []) ∧
      (f.gain = false → f.layer = false → m.out0 = (emitGroup (b.rounding fo f.conv) (64 * b.entry.step)
        ((readGroup fi f.rowLen b.in0).map fun (y : LRow) => (⟨y.valid, y.tag,
          if y.valid then y.words.map fun x => f32 (fmul x (normStats f fi.tileK y.words).1) else []⟩ : LRow)) f.rowLen).1) := by
  simp only [opVNorm, format, out]
  rw [withTiles_of_ready ok okGain okBias pieces.ge gains.ge biases.ge]
  simp only [List.map_map]
  refine ⟨_, rfl, pieces.symm, rfl, rfl, rfl, rfl, fun noGain noLayer => ?_⟩
  have scaled (xs : List Word) (r : Word) : (xs.zipIdx.map fun x => f32 (fmul x.1 r)) = xs.map fun x => f32 (fmul x r) := by
    calc (xs.zipIdx.map fun x => f32 (fmul x.1 r)) = (xs.zipIdx.map Prod.fst).map fun x => f32 (fmul x r) := by rw [List.map_map]; rfl
      _ = _ := by rw [List.zipIdx_map_fst]
  simp only [noGain, noLayer, Bool.false_eq_true, if_false, Function.comp_def, scaled]

theorem opVRope_of_ready {f : RopeF} {b : Bench} {fi fo : Fmt} (format : Fmt.ofCode f.format = some fi)
    (out : Fmt.ofCode f.conv.format = some fo) (based : f.posMode = 0) (ok : allOk b.in0 f.format) (closed : b.closed fi = true)
    (none1 : b.in1 = []) (none2 : b.in2 = []) (heads : headsWhole f fi b.in0 = true) :
    ∃ m, opVRope f b = .make m ∧ m.take0 = b.in0.length ∧ m.count = b.in0.length ∧
      m.more = decide (b.in0.length < f.tiles - b.entry.count) ∧
      m.out0 = (emitGroup (b.rounding fo f.conv) (64 * b.entry.step)
        ((readGroup fi (groupLen fi b.in0) b.in0).zipIdx.map fun ((y, r) : LRow × Nat) => (⟨y.valid, y.tag, if y.valid then
          ((chunks f.headDim (y.words.map f32)).map (ropeHead f ((List.range (f.rotDim / 2)).map (ropeFreq f))
            (f.posBase + 64 * b.entry.step + r))).flatten else []⟩ : LRow)) (groupLen fi b.in0)).1 := by
  simp only [opVRope, format, out, closed, based, heads]
  rw [withTiles_of_ready ok (none1 ▸ allOk_nil _) (none2 ▸ allOk_nil 0) (by simp) (by simp) (Nat.zero_le _)]
  simp

theorem opVRope_of_positions {f : RopeF} {b : Bench} {fi fo : Fmt} (format : Fmt.ofCode f.format = some fi)
    (out : Fmt.ofCode f.conv.format = some fo) (given : f.posMode = 1) (ok : allOk b.in0 f.format) (closed : b.closed fi = true)
    (one : b.in1.length = 1) (okPos : allOk b.in1 Fmt.fp32.code) (none2 : b.in2 = []) (heads : headsWhole f fi b.in0 = true)
    (known : ∀ r, r < 64 → posOf (wordOf (b.in1.headD Tile.blank) r 0) ≠ none) :
    ∃ m, opVRope f b = .make m ∧ m.take0 = b.in0.length ∧ m.take1 = 1 ∧ m.count = b.in0.length ∧
      m.more = decide (b.in0.length < f.tiles - b.entry.count) := by
  have posed : ((readGroup fi (groupLen fi b.in0) b.in0).zipIdx.any fun x =>
      x.1.valid && (posOf (wordOf (b.in1.headD Tile.blank) x.2 0)).isNone) = false := by
    refine List.any_eq_false.mpr fun x hx => ?_
    have row : x.2 < 64 := by simpa [readGroup] using List.snd_lt_of_mem_zipIdx hx
    simpa [Option.isNone_iff_eq_none] using fun _ => known x.2 row
  simp only [opVRope, format, out, closed, given, heads]
  rw [withTiles_of_ready ok okPos (none2 ▸ allOk_nil 0) (by simp) (by simp [one]) (Nat.zero_le _)]
  refine ⟨_, if_neg ?_, rfl, rfl, rfl, rfl⟩
  simpa using posed

theorem opVConvert_of_ready {f : ConvertF} {b : Bench} {fi fo : Fmt} (format : Fmt.ofCode f.inFormat = some fi)
    (out : Fmt.ofCode f.conv.format = some fo) (ok : allOk b.in0 f.inFormat) (closed : b.closed fi = true)
    (factors : b.in1.length = (if f.rowFactor then 1 else 0)) (okFactor : allOk b.in1 Fmt.fp32.code) (none2 : b.in2 = []) :
    ∃ m, opVConvert f b = .make m ∧ m.take0 = b.in0.length ∧ m.take1 = b.in1.length ∧ m.count = b.in0.length ∧
      m.more = decide (b.in0.length < f.tiles - b.entry.count) ∧
      m.out0 = (emitGroup (b.rounding fo f.conv) (64 * b.entry.step)
        ((readGroup fi (groupLen fi b.in0) b.in0).zipIdx.map fun ((y, r) : LRow × Nat) => (⟨y.valid, y.tag, if y.valid then
          y.words.map fun x => f32 (fmul (fmul x f.factor) (if f.rowFactor then wordOf (b.in1.headD Tile.blank) r 0 else one32))
          else []⟩ : LRow)) (groupLen fi b.in0)).1 := by
  simp only [opVConvert, format, out, closed]
  rw [withTiles_of_ready ok okFactor (none2 ▸ allOk_nil 0) (by simp) factors.ge (Nat.zero_le _)]
  exact ⟨_, rfl, rfl, factors.symm, rfl, rfl, rfl⟩

theorem combineRow_of_no_residual {f : CombineF} (residual : f.residual = false) (a : Arrivals) (gate : Tile) (r t : Nat)
    (res other : List Word) : combineRow f a gate r t res = combineRow f a gate r t other := by
  simp [combineRow, residual]

theorem all_rows_arrived {f : CombineF} {a : Arrivals} {g : Tile} {first n : Nat}
    (arrived : ∀ r, r < n → rowArrived f a (g.row r) (first + r) = true) :
    ((List.range n).all fun r => rowArrived f a (g.row r) (first + r)) = true :=
  List.all_eq_true.mpr fun r hr => arrived r (List.mem_range.mp hr)

theorem opVCombine_of_arrived {f : CombineF} {n : Nat} {b : Bench} {fi fo : Fmt} {g : Tile} (format : Fmt.ofCode f.format = some fi)
    (out : Fmt.ofCode f.conv.format = some fo) (residual : f.residual = false) (ok : allOk b.in0 f.format)
    (good : (arrivalsOf f fi b).bad = false) (gate : b.in1 = [g]) (okGate : g.ok Fmt.fp32.code = true) (none2 : b.in2 = [])
    (rows : n = min 64 (f.rows - 64 * b.entry.step))
    (arrived : ∀ r, r < n → rowArrived f (arrivalsOf f fi b) (g.row r) (64 * b.entry.step + r) = true) :
    ∃ m, opVCombine f b = .make m ∧ m.take0 = 0 ∧ m.take1 = 1 ∧ m.more = decide (64 * (b.entry.step + 1) < f.rows) ∧
      m.out0 = (emitGroup (b.rounding fo f.conv) (64 * b.entry.step) ((List.range n).map fun r => (⟨(g.row r).valid, (g.row r).tag,
        if (g.row r).valid then combineRow f (arrivalsOf f fi b) g r (64 * b.entry.step + r) [] else []⟩ : LRow)) f.rowLen).1 := by
  have gateTile : b.in1.headD Tile.blank = g := by rw [gate]; rfl
  simp only [opVCombine, format, out, good, residual, gateTile, ← rows, all_rows_arrived arrived]
  rw [if_neg Bool.false_ne_true, withTiles_of_ready ok (gate ▸ allOk_singleton okGate) (none2 ▸ allOk_nil _) (Nat.zero_le _)
    (by simp [gate]) (by simp)]
  refine ⟨_, rfl, rfl, rfl, rfl, ?_⟩
  dsimp only
  congr 3
  refine funext fun r => ?_
  rw [combineRow_of_no_residual residual _ _ _ _ _ []]

theorem opVCombine_of_residual {f : CombineF} {n : Nat} {b : Bench} {fi fo fr : Fmt} {g h : Tile} {hs : List Tile}
    (format : Fmt.ofCode f.format = some fi) (out : Fmt.ofCode f.conv.format = some fo) (residual : f.residual = true)
    (ok : allOk b.in0 f.format) (good : (arrivalsOf f fi b).bad = false) (gate : b.in1 = [g]) (okGate : g.ok Fmt.fp32.code = true)
    (residuals : b.in2 = h :: hs) (own : Fmt.ofCode h.format = some fr) (okRes : allOk b.in2 h.format)
    (pieces : b.in2.length = pieceCount fr f.rowLen) (rows : n = min 64 (f.rows - 64 * b.entry.step))
    (arrived : ∀ r, r < n → rowArrived f (arrivalsOf f fi b) (g.row r) (64 * b.entry.step + r) = true) :
    ∃ m, opVCombine f b = .make m ∧ m.take0 = 0 ∧ m.take1 = 1 ∧ m.take2 = b.in2.length ∧
      m.more = decide (64 * (b.entry.step + 1) < f.rows) := by
  have gateTile : b.in1.headD Tile.blank = g := by rw [gate]; rfl
  have ownFormat : (b.in2.head?.map fun t => t.format).getD Fmt.fp32.code = h.format := by rw [residuals]; rfl
  have ownFmt : (Fmt.ofCode h.format).getD .fp32 = fr := by rw [own]; rfl
  have some_ : b.in2.isEmpty = false := by rw [residuals]; rfl
  simp only [opVCombine, format, out, good, residual, gateTile, ← rows, all_rows_arrived arrived, ownFormat, ownFmt, some_]
  rw [if_neg Bool.false_ne_true, withTiles_of_ready ok (gate ▸ allOk_singleton okGate) okRes (Nat.zero_le _) (by simp [gate])
    (by simp [pieces])]
  exact ⟨_, rfl, rfl, rfl, pieces.symm, rfl⟩

theorem opVOpt_of_ready {f : OptF} {nm nv nw : Nat} {b : Bench} {fg fm fv fw fo : Fmt} (formatG : Fmt.ofCode f.gFormat = some fg)
    (formatM : Fmt.ofCode f.mFormat = some fm) (formatV : Fmt.ofCode f.vFormat = some fv) (formatW : Fmt.ofCode f.wFormat = some fw)
    (out : Fmt.ofCode f.conv.format = some fo) (gradients : b.in0 ≠ []) (okG : allOk b.in0 f.gFormat) (closed : b.closed fg = true)
    (countM : nm = pieceCount fm (groupLen fg b.in0)) (countV : nv = pieceCount fv (groupLen fg b.in0))
    (countW : nw = pieceCount fw (groupLen fg b.in0)) (moments : b.in1.length = nm + nv) (okM : allOk (b.in1.take nm) f.mFormat)
    (okV : allOk (b.in1.drop nm) f.vFormat) (weights : b.in2.length = nw) (okW : allOk b.in2 f.wFormat) :
    ∃ m, opVOpt f b = .make m ∧ m.take0 = b.in0.length ∧ m.take1 = nm + nv ∧ m.take2 = nw ∧ m.more = true ∧ m.list = b.list ∧
      m.writes = [] := by
  have some_ : b.in0.isEmpty = false := by simpa using gradients
  simp only [opVOpt, formatG, formatM, formatV, formatW, out, some_, closed, ← countM, ← countV, ← countW, any_not_ok okG, any_not_ok okM,
    any_not_ok okV, any_not_ok okW]
  rw [if_neg (by simp), if_neg (by simp), if_neg (by simp), if_neg (by simp), if_neg (by simp [moments, weights])]
  exact ⟨_, rfl, rfl, rfl, rfl, rfl, rfl, rfl⟩

theorem opVOpt_of_end {f : OptF} {b : Bench} {fg fm fv fw fo : Fmt} (formatG : Fmt.ofCode f.gFormat = some fg)
    (formatM : Fmt.ofCode f.mFormat = some fm) (formatV : Fmt.ofCode f.vFormat = some fv) (formatW : Fmt.ofCode f.wFormat = some fw)
    (out : Fmt.ofCode f.conv.format = some fo) (none0 : b.in0 = []) (dry : b.dry0 = true) : opVOpt f b = .make b.nothing := by
  simp only [opVOpt, formatG, formatM, formatV, formatW, out, none0, dry]
  rfl

theorem opVSample_of_ready {f : SampleF} {b : Bench} {x y : Tile} (count : b.in0.length = 2 * ((f.kCand + 63) / 64))
    (ok : allOk b.in0 Fmt.fp32.code) (stats : b.in1 = [x]) (okStats : x.ok Fmt.fp32.code = true) (params : b.in2 = [y])
    (okParams : y.ok Fmt.fp32.code = true) :
    ∃ m, opVSample f b = .make m ∧ m.take0 = b.in0.length ∧ m.take1 = 1 ∧ m.take2 = 1 ∧
      m.more = decide (b.entry.step + 1 < f.rowGroups) ∧
      m.out0 = [wordTile 64 ((List.range 64).map fun r =>
        (((b.in0.headD Tile.blank).row r).valid, ((b.in0.headD Tile.blank).row r).tag, if ((b.in0.headD Tile.blank).row r).valid then
          sampleWords f (sampleRow x y r) (candsOf f.kCand b.in0 r).1 (candsOf f.kCand b.in0 r).2 else []))] := by
  rw [opVSample, withTiles_of_ready ok (stats ▸ allOk_singleton okStats) (params ▸ allOk_singleton okParams) count.ge (by simp [stats])
    (by simp [params]), stats, params]
  exact ⟨_, rfl, count.symm, rfl, rfl, rfl, rfl⟩

/-- Settles O38: each operation makes its step from the tiles of a row group, and a turn carries the step out. -/
theorem crozierCarriesOut : Obligations.CrozierCarriesOut := by
  unfold Obligations.CrozierCarriesOut
  refine ⟨?_, ?_, ?_, ?_, ?_, ?_, ?_, ?_, ?_, ?_, ?_⟩
  · intro p f c l k b fa fo fb s at_ formatA format formatB okA closed okB pieces none2
    obtain ⟨m, makes, rest⟩ := opVEwise_of_ready formatA format formatB okA closed okB pieces none2
    exact ⟨m, carriedOut_of_make rfl at_ makes, rest⟩
  · intro p f c l k b fi fo s at_ format out pieces ok scales okScale none2
    obtain ⟨m, makes, rest⟩ := opVSoftmax_of_ready format out pieces ok scales okScale none2
    exact ⟨m, carriedOut_of_make rfl at_ makes, rest⟩
  · intro p f c l k b fi fo s at_ format out pieces ok gains okGain biases okBias
    obtain ⟨m, makes, rest⟩ := opVNorm_of_ready format out pieces ok gains okGain biases okBias
    exact ⟨m, carriedOut_of_make rfl at_ makes, rest⟩
  · intro p f c l k b fi fo s at_ format out based ok closed none1 none2 heads
    obtain ⟨m, makes, rest⟩ := opVRope_of_ready format out based ok closed none1 none2 heads
    exact ⟨m, carriedOut_of_make rfl at_ makes, rest⟩
  · intro p f c l k b fi fo s at_ format out given ok closed one okPos none2 heads known
    obtain ⟨m, makes, rest⟩ := opVRope_of_positions format out given ok closed one okPos none2 heads known
    exact ⟨m, carriedOut_of_make rfl at_ makes, rest⟩
  · intro p f c l k b fi fo s at_ format out ok closed factors okFactor none2
    obtain ⟨m, makes, rest⟩ := opVConvert_of_ready format out ok closed factors okFactor none2
    exact ⟨m, carriedOut_of_make rfl at_ makes, rest⟩
  · intro p f c l k n b fi fo g s at_ format out residual ok good gate okGate none2 rows arrived
    obtain ⟨m, makes, rest⟩ := opVCombine_of_arrived format out residual ok good gate okGate none2 rows arrived
    refine ⟨m, ?_, rest⟩
    rw [exec_of_stationRow rfl, runNoted_of_turn (turn_of_make at_ makes)]
  · intro p f c l k n b fi fo fr g h hs s at_ format out residual ok good gate okGate residuals own okRes pieces rows arrived
    obtain ⟨m, makes, rest⟩ := opVCombine_of_residual format out residual ok good gate okGate residuals own okRes pieces rows arrived
    refine ⟨m, ?_, rest⟩
    rw [exec_of_stationRow rfl, runNoted_of_turn (turn_of_make at_ makes)]
  · intro p f c l k nm nv nw b fg fm fv fw fo s at_ formatG formatM formatV formatW out gradients okG closed countM countV countW moments okM
      okV weights okW
    obtain ⟨m, makes, rest⟩ := opVOpt_of_ready formatG formatM formatV formatW out gradients okG closed countM countV countW moments okM okV
      weights okW
    exact ⟨m, carriedOut_of_make rfl at_ makes, rest⟩
  · intro p f c l k b fg fm fv fw fo s at_ formatG formatM formatV formatW out none0 dry
    exact carriedOut_of_make (i := .vOpt p f) rfl at_ (opVOpt_of_end formatG formatM formatV formatW out none0 dry)
  · intro p f c l k b x y s at_ count ok stats okStats params okParams
    obtain ⟨m, makes, rest⟩ := opVSample_of_ready count ok stats okStats params okParams
    exact ⟨m, carriedOut_of_make rfl at_ makes, rest⟩

end Sys2Proof.Machine

end

section

/-! ## What a sort station carries out: O39 -/

namespace Sys2Proof.Machine
open Sys2Proof.Claims

/-! ### Ranking, counting and offsets -/

theorem length_flatten_pairs {α : Type} (f g : Nat → α) (n : Nat) :
    ((List.range n).map fun i => [f i, g i]).flatten.length = 2 * n := by
  simp [List.length_flatten, Function.comp_def, Nat.mul_comm]

theorem zipIdx_any_not_ok {ts : List Tile} {code : Nat → Nat} (ok : ∀ i (hi : i < ts.length), (ts[i]).ok (code i) = true) :
    (ts.zipIdx.any fun x => !x.1.ok (code x.2)) = false := by
  refine List.any_eq_false.mpr fun x hx => ?_
  obtain ⟨hi, same⟩ := List.mem_zipIdx' hx
  simp [same, ok x.2 hi]

theorem opGTopk_of_single {f : TopkF} {b : Bench} {fi : Fmt} (format : Fmt.ofCode f.format = some fi) (single : f.paired = false)
    (count : b.in0.length = pieceCount fi f.rowLen) (ok : allOk b.in0 f.format) :
    ∃ m, opGTopk f b = .make m ∧ m.take0 = b.in0.length ∧ m.more = decide (b.entry.step + 1 < f.rowGroups) ∧
      m.out0.length = 2 * ((f.k + 63) / 64) ∧
      m.roleB = ((topkRows f fi b.in0).map fun (x : Bool × Word × List (Word × Nat)) =>
        (x.2.2.filter fun (y : Word × Nat) => f32 y.1 = .nan).length).sum := by
  have fit := zipIdx_any_not_ok (ts := b.in0) (code := fun _ => f.format) fun i hi => ok _ (List.getElem_mem hi)
  simp only [opGTopk, format, single, Bool.false_and, Bool.false_eq_true, if_false, fit]
  rw [if_neg (by omega)]
  exact ⟨_, rfl, count.symm, rfl, length_flatten_pairs _ _ _, rfl⟩

theorem opGTopk_of_paired {f : TopkF} {b : Bench} {fi : Fmt} (format : Fmt.ofCode f.format = some fi) (paired : f.paired = true)
    (count : b.in0.length = 2 * ((f.rowLen + 63) / 64))
    (ok : ∀ i (hi : i < b.in0.length), (b.in0[i]).ok (if i % 2 = 1 then Fmt.fp32.code else f.format) = true) :
    ∃ m, opGTopk f b = .make m ∧ m.take0 = b.in0.length ∧ m.more = decide (b.entry.step + 1 < f.rowGroups) ∧
      m.out0.length = 2 * ((f.k + 63) / 64) := by
  have fit := zipIdx_any_not_ok (ts := b.in0) ok
  simp only [opGTopk, format, paired, Bool.true_and, decide_eq_true_eq, if_true, fit, Bool.false_eq_true, if_false]
  rw [if_neg (by omega)]
  exact ⟨_, rfl, count.symm, rfl, length_flatten_pairs _ _ _⟩

theorem any_beyond {α : Type} {f : α → Nat} {n : Nat} {xs : List α} (below : ∀ x ∈ xs, f x < n) : (xs.any fun x => decide (n ≤ f x)) = false :=
  List.any_eq_false.mpr fun x hx => by simpa using below x hx

theorem opGCount_of_ready {f : CountF} {b : Bench} (count : b.in0.length = (f.rows + 63) / 64) (ok : allOk b.in0 Fmt.fp32.code)
    (none1 : b.in1 = []) (none2 : b.in2 = []) (below : ∀ e ∈ entriesOf b f.slots f.rows f.map f.holdBase b.in0, e.2.2 < f.bins) :
    opGCount f b = .make { b.nothing with
      out0 := [binTile (countBins f.bins (entriesOf b f.slots f.rows f.map f.holdBase b.in0))] } := by
  rw [opGCount, withTiles_of_ready ok (none1 ▸ allOk_nil 0) (none2 ▸ allOk_nil 0) count.ge (Nat.zero_le _) (Nat.zero_le _)]
  simp only [any_beyond below]
  rfl

theorem opGScan_of_uncapped {f : ScanF} {b : Bench} {x : Tile} {adm : List Nat} (tile : b.in0 = [x]) (ok : x.ok Fmt.fp32.code = true)
    (none1 : b.in1 = []) (none2 : b.in2 = []) (uncapped : f.cap = 0)
    (admitted : adm = (List.range f.bins).map (fun j => if f.align64 then ((wordOf x (j / 64) (j % 64)).toNat + 63) / 64 * 64
      else (wordOf x (j / 64) (j % 64)).toNat)) (small : adm.sum ≤ 2147483647) :
    ∃ m, opGScan f b = .make m ∧ m.more = false ∧ m.out0 = [binTile (prefixSums 0 adm)] ∧
      m.out1 = [wordTile 64 [(true, 0#32, [BitVec.ofNat 32 adm.sum, 0#32, 0#32])]] ∧
      m.list.hold = (if f.retain then retainAt b.list.hold f.holdBase [binTile (prefixSums 0 adm)] else b.list.hold) := by
  have head : b.in0.headD Tile.blank = x := by rw [tile]; rfl
  rw [opGScan, withTiles_of_ready (tile ▸ allOk_singleton ok) (none1 ▸ allOk_nil 0) (none2 ▸ allOk_nil 0) (by simp [tile]) (Nat.zero_le _)
    (Nat.zero_le _)]
  simp only [head, uncapped, if_true, List.map_map, Function.comp_def, ← admitted]
  rw [if_neg (by simp; omega)]
  refine ⟨_, rfl, rfl, rfl, rfl, ?_⟩
  split <;> rfl

/-! ### The sort -/

section
variable {f : SortF} {b : Bench} {x : Tile} {xs : List Tile} {es : List (Nat × Nat × Nat)}

/-- What a sort makes of its entries once they are ranked (R121, R122). -/
theorem opGSort_of_ready (rows : b.in0 = x :: xs) (count : b.in0.length = (f.rows + 63) / 64) (ok : allOk b.in0 x.format)
    (slots : b.in1.length = (f.rows + 63) / 64) (okSlots : allOk b.in1 Fmt.fp32.code) (none2 : b.in2 = [])
    (entries : es = (entriesOf b f.slots f.rows f.map f.mapBase b.in1).filter (fun e =>
      ((tileAt b.in0 e.1).row (e.1 % 64)).valid && !(tagOf ((tileAt b.in0 e.1).row (e.1 % 64)).tag).pad))
    (below : ∀ e ∈ es, e.2.2 < f.bins) (fits : ∀ e ∈ withRanks es [], heldWord b f.offsetBase e.2.2.1 + e.2.2.2 < 2 ^ 31) :
    (f.toMemory = false → sortTables f + (sortRows f b b.in0 es).tiles.length ≤ b.slots → opGSort f b = .make { b.nothing with
      out0 := (sortRows f b b.in0 es).tiles, out1 := if f.cap = 0 then [] else (sortRows f b b.in0 es).overflow }) ∧
    ∀ w, f.toMemory = true → b.waiting = false → (imagePieces f.destBase (sortRows f b b.in0 es).tiles)[b.entry.step]? = some w →
      opGSort f b = .make { b.nothing with
        writes := [w], more := decide (b.entry.step + 1 < (imagePieces f.destBase (sortRows f b b.in0 es).tiles).length)
        out1 := if b.entry.step = 0 then (if f.cap = 0 then [] else (sortRows f b b.in0 es).overflow) else [] } := by
  have own : (b.in0.head?.map fun t => t.format).getD Fmt.fp32.code = x.format := by rw [rows]; rfl
  have ranked : ((withRanks es []).any fun e => decide (2 ^ 31 ≤ heldWord b f.offsetBase e.2.2.1 + e.2.2.2)) = false := any_beyond fits
  rw [opGSort, own, withTiles_of_ready ok okSlots (none2 ▸ allOk_nil 0) count.ge slots.ge (Nat.zero_le _)]
  simp only [← entries, any_beyond below, ranked]
  refine ⟨fun stream room => ?_, fun w memory answered piece => ?_⟩
  · simp only [stream]
    exact (if_neg Bool.false_ne_true).trans ((if_neg Bool.false_ne_true).trans ((if_pos rfl).trans (if_neg (Nat.not_lt.mpr room))))
  · simp only [memory, answered, piece]
    rfl

end

/-! ### Scatter and gather -/

theorem opGScatter_of_ready {f : MoveF} {r : Nat} {b : Bench} {x a : Tile} (row : b.in0 = [x]) (address : b.in1 = [a]) (none2 : b.in2 = [])
    (ok : x.ok x.format = true) (okAddr : a.ok Fmt.fp32.code = true) (answered : b.waiting = false) (slot : r = b.entry.step % 64) :
    ∃ m, opGScatter f b = .make m ∧ m.more = decide (b.entry.step + 1 < 64 * f.tiles) ∧ m.take0 = (if r = 63 then 1 else 0) ∧
      m.take1 = m.take0 ∧ m.writes = ((scatterAddr x a r).map (scatterRow f x r)).getD [] ∧ m.seen = (scatterAddr x a r).toList ∧
      m.roleA = (if ∃ d ∈ scatterAddr x a r, d ∈ b.entry.addrs then 1 else 0) ∧ m.out0 = [] ∧ m.out1 = [] ∧ m.reads = [] := by
  have own : (b.in0.head?.map fun t => t.format).getD Fmt.fp32.code = x.format := by rw [row]; rfl
  have tile : b.in0.headD Tile.blank = x := by rw [row]; rfl
  have addr : b.in1.headD Tile.blank = a := by rw [address]; rfl
  rw [opGScatter, own, withTiles_of_ready (row ▸ allOk_singleton ok) (address ▸ allOk_singleton okAddr) (none2 ▸ allOk_nil 0) (by simp [row])
    (by simp [address]) (Nat.zero_le _)]
  simp only [tile, addr, answered, ← slot, decide_eq_true_eq]
  rw [if_neg Bool.false_ne_true]
  split
  next none_ => exact ⟨_, rfl, rfl, rfl, rfl, by rw [none_]; rfl, by rw [none_]; rfl, by simp [none_, Bench.nothing], rfl, rfl, rfl⟩
  next d some_ => exact ⟨_, rfl, rfl, rfl, rfl, by rw [some_]; rfl, by rw [some_]; rfl, by simp [some_], rfl, rfl, rfl⟩

theorem opGGather_of_ready {f : MoveF} {b : Bench} {a : Tile} (none0 : b.in0 = []) (address : b.in1 = [a]) (none2 : b.in2 = [])
    (ok : a.ok Fmt.fp32.code = true) :
    opGGather f b = .make { b.nothing with
      take1 := 1
      out0 := [gatherTile f b.entry.index b.entry.step a]
      reads := ((List.range 64).map fun r => ((addrOf a r).map (gatherRow f r)).getD []).flatten
      more := decide (b.entry.step + 1 < f.tiles) } := by
  have addr : b.in1.headD Tile.blank = a := by rw [address]; rfl
  rw [opGGather, withTiles_of_ready (none0 ▸ allOk_nil 0) (address ▸ allOk_singleton ok) (none2 ▸ allOk_nil 0) (Nat.zero_le _)
    (by simp [address]) (Nat.zero_le _), addr]

/-! ### A row stored at its home -/

/-- A transfer within one 256-byte block is one piece (R316). -/
theorem pieces_of_within {a n : Nat} (some_ : 0 < n) (within : a % 256 + n ≤ 256) : pieces a n = [(0, n)] := by
  have whole : min n (256 - a % 256) = n := by omega
  rw [pieces, piecesFrom, if_neg (by omega)]
  simp only [whole, Nat.sub_self]
  rw [piecesFrom, if_pos rfl]

/-- A write in one piece to a range of this package that the context may write is applied there (R317). -/
theorem storeTo_here {c : Cmd} {o : Origin} {d y : Nat} {bs : List Byte} {s : State} (aligned : d % 32 = 0) (some_ : 0 < bs.length)
    (within : d % 256 + bs.length ≤ 256) (home : target s d = .here y) (owned : ownsRange s c.ctx y bs.length true = true) :
    storeTo c o d bs s = .ok (applyWrite y bs s) := by
  rw [storeTo, if_neg (not_not.mpr aligned), pieces_of_within some_ within]
  simp [home, owned]

theorem readAll_nil (c : Cmd) (o : Origin) (st serial : Option Nat) (s : State) : readAll c o st serial [] s = (.ok s, s) := by
  unfold readAll
  split <;> rfl

/-- A step that writes one range of this package and reads nothing leaves it there, and every other byte as it was. -/
theorem applyMade_writes {p : Place} {c : Cmd} {l : ListSt} {k d y : Nat} {m : Made} {bs : List Byte} {s : State}
    (writes : m.writes = [⟨d, bs, false⟩]) (reads : m.reads = []) (aligned : d % 32 = 0) (some_ : 0 < bs.length)
    (within : d % 256 + bs.length ≤ 256) (home : target s d = .here y) (owned : ownsRange s c.ctx y bs.length true = true)
    (unblocked : blockedUnits s y bs.length = []) (form : s.mem.wf = true) :
    (∀ i b, bs[i]? = some b → (applyMade p c l k m s).mem.readByte (y + i) = b) ∧
      ∀ z, ¬ (y ≤ z ∧ z < y + bs.length) → (applyMade p c l k m s).mem.readByte z = s.mem.readByte z := by
  have listed (f : ListSt → ListSt) : (setList c.id p.code f s).mem = s.mem := by simp
  unfold applyMade
  dsimp only
  generalize placed : setList c.id p.code _ s = u
  have mem : u.mem = s.mem := by rw [← placed, listed]
  have stored : eachMove (writeOne c (originOf c l k)) m.writes u = (.ok (applyWrite y bs u), applyWrite y bs u) := by
    have there : storeTo c (originOf c l k) d bs u = .ok (applyWrite y bs u) :=
      storeTo_here aligned some_ within (by rw [← placed]; exact home) (by rw [← placed]; exact owned)
    simp [writes, eachMove, writeOne, there]
  rw [stored, reads]
  dsimp only
  rw [readAll_nil]
  dsimp only
  generalize rest : chargeMismatch p m _ = v
  have cells : v.mem.cells = (applyWrite y bs u).mem.cells := by rw [← rest]; simp
  have undef : v.mem.undef = (applyWrite y bs u).mem.undef := by rw [← rest]; simp
  refine ⟨fun i b hi => ?_, fun z hz => ?_⟩
  · rw [readByte_congr cells undef]
    exact readByte_applyWrite y i bs b u hi
  · rw [readByte_congr cells undef, ← mem]
    exact readByte_applyWrite_outside y z bs u (mem ▸ form) (by rw [← placed]; exact unblocked) hz

theorem length_padTo (n : Nat) (bs : List Byte) : (padTo n bs).length = n := by
  simp only [padTo, List.length_take, List.length_append, List.length_replicate]
  omega

theorem getElem?_of_padded {bs : List Byte} {offset n i : Nat} (hi : i < n) (room : offset + n ≤ 256) :
    (((padTo 256 bs).drop offset).take n)[i]? = some ((padTo 256 bs).getD (offset + i) 0#8) := by
  have within : offset + i < (padTo 256 bs).length := by rw [length_padTo]; omega
  rw [List.getElem?_take_of_lt hi, List.getElem?_drop, List.getElem?_eq_getElem within, List.getD_eq_getElem _ _ within]

/-- Settles O39: each operation makes its step from its tiles, a turn carries the step out, and a scatter's row lands at its address. -/
theorem rhizoidCarriesOut : Obligations.RhizoidCarriesOut := by
  unfold Obligations.RhizoidCarriesOut
  refine ⟨?_, ?_, ?_, ?_, ?_, ?_, ?_, ?_, ?_⟩
  · intro p f c l k b fi s at_ format single count ok
    obtain ⟨m, makes, rest⟩ := opGTopk_of_single format single count ok
    exact ⟨m, carriedOut_of_make rfl at_ makes, rest⟩
  · intro p f c l k b fi s at_ format paired count ok
    obtain ⟨m, makes, rest⟩ := opGTopk_of_paired format paired count ok
    exact ⟨m, carriedOut_of_make rfl at_ makes, rest⟩
  · intro p f c l k b s at_ count ok none1 none2 below
    exact ⟨_, carriedOut_of_make rfl at_ (opGCount_of_ready count ok none1 none2 below), rfl, rfl⟩
  · intro p f c l k b x adm s at_ tile ok none1 none2 uncapped admitted small
    obtain ⟨m, makes, rest⟩ := opGScan_of_uncapped tile ok none1 none2 uncapped admitted small
    exact ⟨m, carriedOut_of_make rfl at_ makes, rest⟩
  · intro p f c l k b x xs es s at_ rows count ok slots okSlots none2 entries below fits stream room
    have makes := (opGSort_of_ready rows count ok slots okSlots none2 entries below fits).1 stream room
    exact ⟨_, carriedOut_of_make rfl at_ makes, rfl, rfl, rfl, rfl⟩
  · intro p f c l k b x xs es w s at_ rows count ok slots okSlots none2 entries below fits memory answered piece
    have makes := (opGSort_of_ready rows count ok slots okSlots none2 entries below fits).2 w memory answered piece
    exact ⟨_, carriedOut_of_make rfl at_ makes, rfl, rfl, rfl⟩
  · intro p f c l k r b x a s at_ row address none2 ok okAddr answered slot
    obtain ⟨m, makes, more, take0, take1, writes, seen, roleA, -⟩ := opGScatter_of_ready row address none2 ok okAddr answered slot
    exact ⟨m, carriedOut_of_make rfl at_ makes, more, take0, take1, writes, seen, roleA⟩
  · intro p f c l k d y b x a s at_ row address none2 ok okAddr answered last unscaled room addr aligned within some_ home owned unblocked form
    have slot : 63 = b.entry.step % 64 := by omega
    obtain ⟨m, makes, more, -, -, writes, -, -, -, -, reads⟩ := opGScatter_of_ready (f := f) row address none2 ok okAddr answered slot
    have length : (((padTo 256 (x.row 63).data).drop f.offset).take f.rowBytes).length = f.rowBytes := by
      rw [List.length_take, List.length_drop, length_padTo]
      omega
    have one : m.writes = [⟨d, ((padTo 256 (x.row 63).data).drop f.offset).take f.rowBytes, false⟩] := by
      rw [writes, addr]
      simp [scatterRow, unscaled]
    have ends : m.more = false := by rw [more]; simp [last]
    obtain ⟨inside, outside⟩ := applyMade_writes (p := p) (l := l) (k := k) one reads aligned (by rw [length]; exact some_)
      (by rw [length]; exact within) home (by rw [length]; exact owned) (by rw [length]; exact unblocked) form
    rw [length] at outside
    have carried : CarriedOut (.gScatter p f) p (.gScatter f) (opGScatter f) c l k m s := carriedOut_of_make rfl at_ makes
    rw [CarriedOut, ends] at carried
    exact ⟨applyMade p c l k m s, carried, fun i hi => inside i _ (getElem?_of_padded hi room), outside⟩
  · intro p f c l k b a s at_ none0 address none2 ok
    exact ⟨_, carriedOut_of_make rfl at_ (opGGather_of_ready none0 address none2 ok), rfl, rfl, rfl, rfl, rfl⟩

end Sys2Proof.Machine

end

section

/-! ## Tier movers: O41 -/

namespace Sys2Proof.Machine
open Sys2Proof.Claims

section
variable {p : Place} {f : TMoveF} {c : Cmd} {l : ListSt} {k : Nat} {src dst : List (Nat × Nat)} {s : State}

/-- A move between ranges of this package stores the source's bytes, unless a word of the source fails (R275, R283). -/
theorem exec_tMove_of_local (work : atWork s p (.tMove f) = some (c, l, k)) (source : localRuns s c f.src f.srcOffset f.bytes = some src)
    (sink : localRuns s c f.dst f.dstOffset f.bytes = some dst) :
    exec (.tMove p f) s = if src.any fun x => s.badAt x.1 x.2 then .next (contextFault c.id 3 p.code (some (l.entry k).index) s)
      else .next (progress c.id (finishEntry p k (countMoved p f.bytes
        (storeRuns dst ((src.map fun x => s.mem.read x.1 x.2).flatten) s)))) := by
  simp only [exec, execTMove, work, source, sink]

/-- A range elsewhere is an address fault (R315). -/
theorem exec_tMove_of_remote (work : atWork s p (.tMove f) = some (c, l, k))
    (remote : localRuns s c f.src f.srcOffset f.bytes = none ∨ localRuns s c f.dst f.dstOffset f.bytes = none) :
    exec (.tMove p f) s = .next (contextFault c.id 2 p.code (some (l.entry k).index) s) := by
  simp only [exec, execTMove, work]
  rcases remote with source | sink
  · rw [source]
  · rw [sink]
    cases localRuns s c f.src f.srcOffset f.bytes <;> rfl

theorem exec_tFill_of_local (work : atWork s p (.tFill f) = some (c, l, k)) (sink : localRuns s c f.dst f.dstOffset f.bytes = some dst) :
    exec (.tFill p f) s = .next (progress c.id (finishEntry p k (countMoved p f.bytes
      (storeRuns dst ((List.replicate (f.bytes / 4) (leBytes 4 f.pattern)).flatten) s)))) := by
  simp only [exec, execTFill, work, sink]

theorem exec_tFill_of_remote (work : atWork s p (.tFill f) = some (c, l, k)) (remote : localRuns s c f.dst f.dstOffset f.bytes = none) :
    exec (.tFill p f) s = .next (contextFault c.id 2 p.code (some (l.entry k).index) s) := by
  simp only [exec, execTFill, work, remote]

end

theorem storeRuns_single (a : Nat) (bs : List Byte) (s : State) : storeRuns [(a, bs.length)] bs s = applyWrite a bs s := by
  rw [storeRuns, List.take_length, storeRuns]

/-- Settles O41: a mover's row is one branch of its definition, and a run stored is one write at its home. -/
theorem tierMovers : Obligations.TierMovers := by
  unfold Obligations.TierMovers
  refine ⟨?_, ?_, ?_, ?_, ?_, ?_⟩
  · intro p f c l k src dst s work source sink sound
    have good : (src.any fun x => s.badAt x.1 x.2) = false := List.any_eq_false.mpr fun x hx => by simp [sound x hx]
    rw [exec_tMove_of_local work source sink, good, if_neg Bool.false_ne_true]
  · intro p f c l k dst s work sink
    exact exec_tFill_of_local work sink
  · intro p f c l k s work remote
    exact exec_tMove_of_remote work remote
  · intro p f c l k s work remote
    exact exec_tFill_of_remote work remote
  · intro p f c l k src dst s work source sink bad
    rw [exec_tMove_of_local work source sink, if_pos (List.any_eq_true.mpr bad)]
  · intro a bs s unblocked form
    rw [storeRuns_single]
    exact ⟨fun k hk => readByte_applyWrite a k bs _ s (List.getElem?_eq_getElem hk),
      fun x hx => readByte_applyWrite_outside a x bs s form unblocked hx⟩

end Sys2Proof.Machine

end

section

/-! ## The Front's own descriptors: O42 -/

namespace Sys2Proof.Machine
open Sys2Proof.Claims

/-! ### A descriptor that completes at issue -/

theorem eraseIdx_updAt {α : Type} (k : Nat) (f : α → α) (xs : List α) : (updAt k f xs).eraseIdx k = xs.eraseIdx k := by
  cases found : xs[k]? with
  | none =>
    have short := List.getElem?_eq_none_iff.mp found
    rw [updAt, List.modify_eq_self short]
  | some x => rw [updAt_of_getElem? found, List.eraseIdx_set_eq]

theorem getElem?_updAt {α : Type} {k : Nat} {f : α → α} {xs : List α} {x : α} (found : xs[k]? = some x) : (updAt k f xs)[k]? = some (f x) := by
  simp [updAt, found]

/-- The command after a descriptor of one of its lists has completed (R135). -/
def Cmd.completed (code k : Nat) (d : Desc) (c : Cmd) : Cmd :=
  { c.signalled d with
    lists := updBy (fun l => l.code = code) (fun l => { l with completed := l.completed + 1, queue := l.queue.eraseIdx k })
      (updBy (fun l => l.code = code) (fun l => markDone l k) c.lists) }

theorem Cmd.completed_spec {code k : Nat} {d : Desc} {c : Cmd} {l : ListSt} (found : c.list code = some l) :
    (c.completed code k d).list code = some { l with completed := l.completed + 1, queue := l.queue.eraseIdx k } ∧
      (∀ other, other ≠ code → (c.completed code k d).list other = c.list other) ∧ (c.completed code k d).streams = c.streams ∧
      (c.completed code k d).events = if d.signal then updAt d.event (· + 1) c.events else c.events := by
  refine ⟨?_, fun other distinct => ?_, ?_, ?_⟩
  · rw [Cmd.list, Cmd.completed]
    dsimp only
    rw [find_updBy _ _ (by intro x; rfl), find_updBy _ _ (by intro x; rfl), show c.lists.find? _ = some l from found]
    simp [markDone, eraseIdx_updAt]
  · have apart (y : ListSt) (hy : decide (y.code = code) = true) : decide (y.code = other) = false := by
      rw [decide_eq_true_eq] at hy
      simp [hy, Ne.symm distinct]
    rw [Cmd.list, Cmd.completed]
    dsimp only
    rw [find_updBy_ne _ _ _ (by intro x; rfl) apart, find_updBy_ne _ _ _ (by intro x; rfl) apart, Cmd.list]
  · rw [Cmd.completed, Cmd.signalled_eq]
  · rw [Cmd.completed, Cmd.signalled_eq]

theorem setList_cmd {id code : Nat} {f : ListSt → ListSt} {c : Cmd} {s : State} (known : s.cmd id = some c) :
    (setList id code f s).cmd id = some { c with lists := updBy (fun l => l.code = code) f c.lists } := setCmd_known known (by intro; rfl)

/-- What a descriptor leaves that completes with no work done (R135, R137). -/
theorem passEntry_known {p : Place} {k : Nat} {c : Cmd} {l : ListSt} {e : QEntry} {d : Desc} {s : State} (known : s.cmd p.cmd = some c)
    (found : c.list p.code = some l) (entry : l.queue[k]? = some e) (desc : c.image.descs[e.index]? = some d)
    (room : d.signal = true → c.events.getD d.event 0 < 0xFFFFFFFF) (more : l.completed + 1 ≠ l.count) :
    (passEntry p k s).cmd p.cmd = some (c.completed p.code k d) ∧
      ∃ j n, passEntry p k s = { s with jobs := j, stns := n } := by
  have fits : (d.signal && decide (0xFFFFFFFF ≤ c.events.getD d.event 0)) = false := by
    cases signal : d.signal with
    | false => rfl
    | true => rw [Bool.true_and, decide_eq_false (Nat.not_le.mpr (room signal))]
  have done : (finishEntry p k s).cmd p.cmd = some { c with lists := updBy (fun l => l.code = p.code) (fun l => markDone l k) c.lists } :=
    setList_cmd known
  have list : ({ c with lists := updBy (fun l => l.code = p.code) (fun l => markDone l k) c.lists } : Cmd).list p.code =
      some (markDone l k) := by
    rw [Cmd.list, find_updBy _ _ (by intro x; rfl), show c.lists.find? _ = some l from found, Option.map_some]
  have entry' : (markDone l k).queue[k]? = some { e with done := true, in0 := [], in1 := [], in2 := [] } := getElem?_updAt entry
  have passed : passEntry p k s = setNamed p.code (fun e => { e with descs := wrap32 (e.descs + 1) })
      (setList p.cmd p.code (fun l => { l with completed := l.completed + 1, queue := l.queue.eraseIdx k })
        (setCmd p.cmd (Cmd.signalled d) (finishEntry p k s))) := by
    have short : (decide ((markDone l k).completed + 1 = (markDone l k).count) && tilesBroken
        { c with lists := updBy (fun l => l.code = p.code) (fun l => markDone l k) c.lists } p.code) = false := by simp [markDone, more]
    simp only [passEntry, completeEntry, done, Option.bind_some, list, Option.map_some, entry', desc, fits, short]
    exact (if_neg Bool.false_ne_true).trans (if_neg Bool.false_ne_true)
  rw [passed]
  refine ⟨?_, ?_⟩
  · have signalled := setCmd_known (f := Cmd.signalled d) done fun x => by rw [Cmd.signalled_eq d]
    have moved := setList_cmd (code := p.code) (f := fun l => { l with completed := l.completed + 1, queue := l.queue.eraseIdx k }) signalled
    refine (State.cmd_of_cmds (by simp) p.cmd).trans (moved.trans ?_)
    rw [Cmd.completed, Cmd.signalled_eq, Cmd.signalled_eq]
  · unfold setNamed
    split
    · exact ⟨_, _, rfl⟩
    · exact ⟨_, s.stns, rfl⟩

/-! ### The steps of a Front -/

theorem frontSteps_of_ok {f : State → State × Bool} {n : Nat} {s t : State} (step : f s = (t, true)) :
    frontSteps f (n + 1) s = frontSteps f n t := by
  rw [frontSteps, step]

theorem frontSteps_of_end {f : State → State × Bool} {n : Nat} {s t : State} (step : f s = (t, false)) : frontSteps f (n + 1) s = t := by
  rw [frontSteps, step]

section
variable {p : Place} {f : XferF} {c : Cmd} {l : ListSt} {k : Nat} {s : State}

/-- An S_FETCH whose channel is free moves its next image (R139, R141); a first image from a tier may come late (R286). -/
theorem fetchStep_of_free {tier : Nat} {t : State} (work : atWork s p (.sFetch f) = some (c, l, k))
    (free : portHolds c (f.channel * 4096 + p.code) = false)
    (from_ : tier = ((slotHandle s c f.handle).map fun h => if h.1.kind = 0 then h.1.tier else 0).getD 0)
    (late : t = (if (l.entry k).step = 0 then lateStall c.ctx tier s else s)) :
    fetchStep p f s = landMove p k f.tiles (l.entry k).index (fetchImage c p f (l.entry k).index (l.entry k).step t) t := by
  simp only [fetchStep, work, free, ← from_, ← late]
  rfl

theorem fetchStep_of_held (work : atWork s p (.sFetch f) = some (c, l, k)) (held : portHolds c (f.channel * 4096 + p.code) = true) :
    fetchStep p f s = (s, false) := by
  simp only [fetchStep, work, held]
  rfl

/-- An image of a plain region of this package is read where it lies (R139). -/
theorem fetchImage_of_plain {desc step base off : Nat} {h : Handle} (slot : slotHandle s c f.handle = some (h, base)) (plain : h.kind = 0)
    (uncached : f.cache = false) (place : off = f.offset + step * (if f.stride = 0 then imageBytes else f.stride))
    (within : off + imageBytes ≤ h.bytes) (sound : s.badAt (base + off) fetchBytes = false) :
    fetchImage c p f desc step s = .ok (putTo c.id p.code f.channel
      [{ tileOfImage (s.mem.read (base + off) fetchBytes) with last := Config.endsGroup desc step }] s) := by
  simp only [fetchImage, slot, ← place, sound, uncached]
  rw [if_neg (by simp [plain]), if_neg (Nat.not_lt.mpr within), if_neg (by simp [plain])]
  rfl

theorem storeStep_of_tile {x : Tile} {xs : List Tile} {ended : Bool} (work : atWork s p (.sStore f) = some (c, l, k))
    (tile : inputOf s c (f.channel * 4096 + p.code) = (x :: xs, ended)) :
    storeStep p f s = landMove p k f.tiles (l.entry k).index
      (storeImage c p f (l.entry k).index (l.entry k).step x (takeFrom c.id (f.channel * 4096 + p.code) 1 s)) s := by
  simp only [storeStep, work, tile]

theorem storeStep_of_dry (work : atWork s p (.sStore f) = some (c, l, k)) (dry : inputOf s c (f.channel * 4096 + p.code) = ([], true)) :
    storeStep p f s = (contextFault c.id 1 p.code (some (l.entry k).index) s, false) := by
  simp only [storeStep, work, dry]

theorem storeStep_of_starved (work : atWork s p (.sStore f) = some (c, l, k)) (waits : inputOf s c (f.channel * 4096 + p.code) = ([], false)) :
    storeStep p f s = (starve p.code f.channel s, false) := by
  simp only [storeStep, work, waits]

/-- An image for a plain region of this package is written where it lies (R139). -/
theorem storeImage_of_plain {desc step base off : Nat} {h : Handle} {x : Tile} (slot : slotHandle s c f.handle = some (h, base))
    (plain : h.kind = 0) (place : off = f.offset + step * (if f.stride = 0 then imageBytes else f.stride))
    (within : off + x.image.length ≤ h.bytes) : storeImage c p f desc step x s = .ok (applyWrite (base + off) x.image s) := by
  have inside : ¬ (decide (h.kind = 1) || decide (h.bytes < off + x.image.length)) = true := by simp [plain, within]
  simp only [storeImage, slotWrite, slot, ← place]
  rw [if_neg (by simp [plain]), if_neg inside, if_neg (by simp [plain])]

end

/-! ### The obligation -/

theorem length_of_entryOf {c : Cmd} {l : ListSt} {body : DBody} {k : Nat} (entry : entryOf c l body = some k) : k < l.queue.length := by
  unfold entryOf at entry
  split at entry
  · exact absurd entry (by simp)
  next i found =>
    obtain ⟨-, rfl⟩ : _ ∧ i = k := by simpa using entry
    exact (List.findIdx?_eq_some_iff_getElem.mp found).1

/-- The entry that a row acts on stands in its list's queue. -/
theorem entry_of_atWork {p : Place} {body : DBody} {c : Cmd} {l : ListSt} {k : Nat} {s : State} (work : atWork s p body = some (c, l, k)) :
    s.cmd p.cmd = some c ∧ c.list p.code = some l ∧ l.queue[k]? = some (l.entry k) := by
  unfold atWork at work
  split at work
  · exact absurd work (by simp)
  next c' known =>
    split at work
    · exact absurd work (by simp)
    split at work
    · exact absurd work (by simp)
    next l' found =>
      obtain ⟨i, entry, same⟩ := Option.map_eq_some_iff.mp work
      obtain ⟨rfl, rfl, rfl⟩ : c' = c ∧ l' = l ∧ i = k := by simpa using same
      refine ⟨known, found, ?_⟩
      have within := length_of_entryOf entry
      rw [ListSt.entry, List.getD_eq_getElem _ _ within, List.getElem?_eq_getElem within]

/-- Settles O42: waiting and hints complete at issue; a fetch and a store move image by image. -/
theorem frontDescriptors : Obligations.FrontDescriptors := by
  unfold Obligations.FrontDescriptors
  refine ⟨?_, ?_, ?_, ?_, ?_, ?_, ?_, ?_, ?_, ?_, ?_, ?_, ?_, ?_⟩
  · intro p c l k s work
    simp only [exec, execSSync, work]
  · intro p k c l e d s known found entry desc room more
    obtain ⟨now, j, n, rest⟩ := passEntry_known known found entry desc room more
    obtain ⟨list, -, streams, events⟩ := Cmd.completed_spec (k := k) (d := d) found
    exact ⟨_, now, list, streams, events, by rw [rest]⟩
  · intro p absolute beat c l k s work
    simp only [exec, execSBeat, work]
    split <;> rfl
  · intro p f c l k s work
    simp only [exec, execHint, work] <;> rfl
  · intro p f c l k base off h s u work free slot plain uncached place within late slot' sound
    have tier : h.tier = ((slotHandle s c f.handle).map fun h => if h.1.kind = 0 then h.1.tier else 0).getD 0 := by simp [slot, plain]
    have step := fetchStep_of_free work free tier late
    rw [fetchImage_of_plain slot' plain uncached place within sound] at step
    exact congrArg Host.Outcome.next (frontSteps_of_ok step)
  · intro p f c l k tier s t u work free from_ late fetched
    have step := fetchStep_of_free work free from_ late
    rw [fetched] at step
    exact congrArg Host.Outcome.next (frontSteps_of_ok step)
  · intro p f c l k tier cause s t work free from_ late failed
    have step := fetchStep_of_free work free from_ late
    rw [failed] at step
    exact congrArg Host.Outcome.next (frontSteps_of_end step)
  · intro p f c l k s work held
    exact congrArg Host.Outcome.next (frontSteps_of_end (fetchStep_of_held work held))
  · intro p f c l k base off h x xs ended s u work tile taken slot plain place within
    have step := storeStep_of_tile work tile
    rw [← taken, storeImage_of_plain slot plain place within] at step
    exact congrArg Host.Outcome.next (frontSteps_of_ok step)
  · intro p f c l k x xs ended s u work tile stored
    have step := storeStep_of_tile work tile
    rw [stored] at step
    exact congrArg Host.Outcome.next (frontSteps_of_ok step)
  · intro p f c l k s work dry
    exact congrArg Host.Outcome.next (frontSteps_of_end (storeStep_of_dry work dry))
  · intro p f c l k s work waits
    exact congrArg Host.Outcome.next (frontSteps_of_end (storeStep_of_starved work waits))
  · intro p c l k d s work desc quiet more
    obtain ⟨known, found, entry⟩ := entry_of_atWork work
    obtain ⟨now, j, n, rest⟩ := passEntry_known known found entry desc (by simp [quiet]) more
    obtain ⟨list, others, streams, events⟩ := Cmd.completed_spec (k := k) (d := d) found
    rw [quiet] at events
    refine ⟨passEntry p k s, _, by simp only [exec, execSSync, work], now, list, others, streams, events, ?_⟩
    rw [rest]
    exact ⟨rfl, rfl, rfl, rfl, rfl, rfl, rfl, rfl, rfl⟩
  · intro bs
    rfl

end Sys2Proof.Machine

end

section

/-! ## The fabric copy engines: O43 -/

namespace Sys2Proof.Machine
open Sys2Proof.Claims

/-! ### Copies, waits and invalidations -/

section
variable {p : Place} {c : Cmd} {l : ListSt} {k : Nat} {s : State}

theorem exec_zCopy_uncounted {f : ZCopyF} {t : State} (work : zWork s p (.zCopy f) f.order = some (c, l, k)) (uncounted : f.counter = none)
    (moved : copyMove c (originOf c l k) f (zAddr c f.aslot f.remote) s = .ok t) :
    exec (.zCopy p f) s = .next (progress c.id (finishEntry p k t)) := by
  simp only [exec, execZCopy, work, uncounted, moved]
  rfl

/-- A copy whose bytes all moved at once bumps its counter at its home (R323, R332). -/
theorem exec_zCopy_counted {f : ZCopyF} {n home : Nat} {t : State} (work : zWork s p (.zCopy f) f.order = some (c, l, k))
    (counter : f.counter = some n) (where_ : home = bumpHome s f (zAddr c f.aslot f.remote)) (here : home = s.boot.pkg)
    (owned : ownsCounter s c n true = true) (moved : copyMove c (originOf c l k) f (zAddr c f.aslot f.remote) s = .ok t)
    (none_ : ∀ x ∈ t.fab.accesses, ¬ (x.cmd = c.id ∧ s.fab.nextAccess ≤ x.id)) (boot : t.boot = s.boot) :
    exec (.zCopy p f) s = .next (progress c.id (finishEntry p k (bumpCounter n f.inc t))) := by
  have allowed : (bumpHome s f (zAddr c f.aslot f.remote) = s.boot.pkg && !ownsCounter s c n true) = false := by simp [owned]
  have whole : (t.fab.accesses.any fun x => x.cmd = c.id && decide (s.fab.nextAccess ≤ x.id)) = false :=
    List.any_eq_false.mpr fun x hx => by simpa using none_ x hx
  have ends : endCopy (originOf c l k) (s.fab.nextAccess, bumpHome s f (zAddr c f.aslot f.remote), n, f.inc) t = bumpCounter n f.inc t := by
    rw [endCopy]
    exact if_pos (by rw [← where_, here, boot])
  simp only [exec, execZCopy, work, counter, allowed, moved, whole]
  exact congrArg (fun u => Host.Outcome.next (progress c.id (finishEntry p k u))) ends

theorem exec_zWait_owned {f : ZWaitF} (work : zWork s p (.zWait f) f.order = some (c, l, k)) (owned : ownsCounter s c f.counter false = true) :
    exec (.zWait p f) s = .next (if f.value ≤ leNat (s.mem.read (counterAddr f.counter) 8)
      then finishEntry p k (endWait p (waitLimited l) s) else startWait p s) := by
  simp only [exec, execZWait, work, owned]
  rw [if_neg (by simp)]
  split <;> rfl

theorem exec_zInval_reachable {f : ZInvalF} {u : State} (work : zWork s p (.zInval f) f.order = some (c, l, k))
    (invalidated : u = invalidate (jobOf s c.id) (zAddr c f.aslot f.addr) f.bytes s)
    (up : f.jobScope = true → ∀ m ∈ jobMembers u c, m ≠ u.boot.pkg → homeUp u m = true) :
    exec (.zInval p f) s = .next (finishEntry p k
      ((if f.jobScope then (jobMembers u c).filter (fun m => decide (m ≠ u.boot.pkg)) else []).foldl (fun v m =>
        issueAccess (originOf c l k) m (zAddr c f.aslot f.addr) (.inval f.bytes) .none none v) u)) := by
  have reached : ((if f.jobScope then (jobMembers u c).filter (fun m => decide (m ≠ u.boot.pkg)) else []).any fun m => !homeUp u m) = false := by
    refine List.any_eq_false.mpr fun m hm => ?_
    split at hm
    next scope =>
      obtain ⟨member, other⟩ := List.mem_filter.mp hm
      simp [up scope m member (by simpa using other)]
    · exact absurd hm List.not_mem_nil
  simp only [exec, execZInval, work, ← invalidated, reached]
  rfl

/-! ### Engines with a buffer -/

/-- A descriptor whose source has all arrived works on its buffer. -/
theorem withSource_of_buffer {o : Origin} {slot off n : Nat} {bs : List Byte} {go : List Byte → State → State}
    (buffer : bufferOf s p = some bs) (answered : awaitingDesc s c.id o.desc = false) :
    withSource c o p slot off n go s = go bs s := by
  simp only [withSource, buffer, answered, Option.isSome_some, if_true, Option.getD_some]
  rfl

theorem exec_zAtomic_buffered {f : ZAtomicF} {bs : List Byte} {t u : State} (work : zWork s p (.zAtomic f) f.order = some (c, l, k))
    (buffer : bufferOf s p = some bs) (answered : awaitingDesc s c.id (l.entry k).index = false)
    (done : eachMove (issueAtomic c (originOf c l k) f) ((List.range f.count).map fun j => (j, atomicEntry bs j)) (dropBuffer p s) = (.ok t, u)) :
    exec (.zAtomic p f) s = .next (progress p.cmd (finishEntry p k t)) := by
  simp only [exec, execZAtomic, work]
  rw [withSource_of_buffer buffer answered, done]
  rfl

theorem reduceOrder_alone (own : Nat) (f : ZReduceF) (mine : List Byte) (arr : List Contribution) :
    reduceOrder own [own] f mine arr = [mine] := by
  unfold reduceOrder
  split
  · simp
  · simp

/-- A reduction of the package alone writes the conversion of its own contribution (R333). -/
theorem exec_zReduce_alone {f : ZReduceF} {arr : List Contribution} {fi fo : Fmt} {bs : List Byte} {t : State}
    (work : zWork s p (.zReduce f) f.order = some (c, l, k)) (alone : reduceMembers s c f = some [s.boot.pkg])
    (formatIn : Fmt.ofCode f.inFormat = some fi) (formatOut : Fmt.ofCode f.outFormat = some fo) (clock : s.beat.clkHold = false)
    (fresh : l.wait = none) (buffer : bufferOf s p = some bs) (answered : awaitingDesc s c.id (l.entry k).index = false)
    (written : slotWrite c (originOf c l k) f.dst f.dstOffset (reduceAll f fi fo [bs.take (f.elements * (fi.bits / 8))]).1 (startWait p s) =
      .ok t) :
    exec (.zReduce p f arr) s = .next (progress c.id (finishEntry p k (dropBuffer p
      (endWait p ((arr.getLast?.map fun x => x.limited).getD false) (setNamed p.code (fun e => { e with
        saturated := sat32 (e.saturated + (reduceAll f fi fo [bs.take (f.elements * (fi.bits / 8))]).2.sat)
        nanOut := sat32 (e.nanOut + (reduceAll f fi fo [bs.take (f.elements * (fi.bits / 8))]).2.nan) }) t))))) := by
  have present : ¬ (!([s.boot.pkg].contains s.boot.pkg) || (s.beat.clkHold || [s.boot.pkg].any fun m => m ≠ s.boot.pkg && !homeUp s m) ||
      false) = true := by simp [clock]
  have others : ([s.boot.pkg].filter fun m => m ≠ s.boot.pkg) = [] := by simp
  simp only [exec, execZReduce, work, alone, formatIn, formatOut, fresh]
  rw [if_neg present, withSource_of_buffer buffer answered]
  simp only [others, reduceOrder_alone, List.foldl_nil, List.all_nil, if_true, Option.isSome_none, Bool.false_eq_true, if_false, written]

/-- A transaction on lines of one other home is sent there, its result awaited in the slot (R336, R337). -/
theorem exec_zTxn_remote {f : ZTxnF} {base home : Nat} {h : Handle} {bs : List Byte} (work : zWork s p (.zTxn f) f.order = some (c, l, k))
    (buffer : bufferOf s p = some bs) (answered : awaitingDesc s c.id (l.entry k).index = false)
    (homes : ((txnAddrs f (txnEntries c f bs)).map (homeOfAddr (dropBuffer p s))).eraseDups = [some home]) (other : home ≠ s.boot.pkg)
    (up : homeUp s home = true) (slot : slotHandle s c f.res = some (h, base)) (plain : h.kind = 0) (room : f.resOffset + 8 ≤ h.bytes) :
    exec (.zTxn p f) s = .next (progress p.cmd (finishEntry p k (issueAccess (originOf c l k) home
      ((txnAddrs f (txnEntries c f bs)).headD 0) (.txn f.beat (txnEntries c f bs)) (.memory (base + f.resOffset)) none
      ((txnAddrs f (txnEntries c f bs)).foldl (fun s a => spoilFills a 256 (dropBlocks none a 256 s)) (dropBuffer p s))))) := by
  have slot' : slotHandle (dropBuffer p s) c f.res = some (h, base) := slot
  have other' : ¬ home = (dropBuffer p s).boot.pkg := other
  have up' : ¬ (!homeUp (dropBuffer p s) home) = true := by
    rw [show homeUp (dropBuffer p s) home = true from up]
    exact Bool.false_ne_true
  have fits : ¬ (decide (h.kind = 1) || decide (h.kind = 3) || decide (h.bytes < f.resOffset + 8)) = true := by simp [plain, room]
  simp only [exec, execZTxn, work]
  rw [withSource_of_buffer buffer answered]
  simp only [homes, slot']
  rw [if_neg fits, if_neg other', if_neg up']
  rfl

end

/-! ### The end of a RETURN -/

/-- Whether a batch is the one that a RETURN gives back (R199). -/
def batchIs (c : Cmd) (f : ZXchgF) (modelId : Nat) (b : XBatch) : Bool :=
  b.cmd = c.id && b.model = modelId && b.layer = f.layer && b.half = f.half && b.lslot = f.lslot && b.round = f.round

/-- A RETURN of a batch without rows gives the batch up and is done (R199, R335). -/
theorem exchangeReturn_of_empty {p : Place} {f : ZXchgF} {c : Cmd} {o : Origin} {k modelId : Nat} {limited : Bool} {b : XBatch} {bs : List Byte}
    {s : State} (buffer : bufferOf s p = some bs) (answered : awaitingDesc s c.id o.desc = false)
    (found : s.fab.batches.find? (batchIs c f modelId) = some b) (empty : b.rows = []) :
    ∃ u, exchangeReturn c o p k f modelId limited s = finishEntry p k u ∧ u.mem = s.mem ∧ u.out = s.out ∧
      u.fab.batches = s.fab.batches.filter fun b => !batchIs c f modelId b := by
  refine ⟨{ dropBuffer p (endWait p limited s) with fab := { (dropBuffer p (endWait p limited s)).fab with
    batches := (dropBuffer p (endWait p limited s)).fab.batches.filter fun b => !batchIs c f modelId b } }, ?_, by simp, by simp, by simp⟩
  have found' : s.fab.batches.find? (fun b => b.cmd = c.id && b.model = modelId && b.layer = f.layer && b.half = f.half &&
    b.lslot = f.lslot && b.round = f.round) = some b := found
  have none_ (bs : List Byte) : resultRows s f b (jobOf s c.id) bs ((b.rows.length + 63) / 64) = [] := by simp [resultRows, empty]
  simp only [exchangeReturn, found', buffer, Option.isSome_some, if_true, answered, none_]
  rfl

/-- Settles O43: each engine's descriptor that may issue is one branch of its definition. -/
theorem fabricEngineDescriptors : Obligations.FabricEngineDescriptors := by
  unfold Obligations.FabricEngineDescriptors
  refine ⟨?_, ?_, ?_, ?_, ?_, ?_, ?_, ?_⟩
  · intro p f c l k s t work uncounted moved
    exact exec_zCopy_uncounted work uncounted moved
  · intro p f c l k n home s t work counter where_ here owned moved none_ boot
    exact exec_zCopy_counted work counter where_ here owned moved none_ boot
  · intro p f c l k s work owned
    exact exec_zWait_owned work owned
  · intro p f c l k bs s t u work buffer answered done
    exact exec_zAtomic_buffered work buffer answered done
  · intro p f c l k s u work invalidated up
    exact exec_zInval_reachable work invalidated up
  · intro p f arr c l k fi fo bs s t work alone formatIn formatOut clock fresh buffer answered written
    exact exec_zReduce_alone work alone formatIn formatOut clock fresh buffer answered written
  · intro p f c l k base home h bs s work buffer answered homes other up slot plain room
    exact exec_zTxn_remote work buffer answered homes other up slot plain room
  · intro p f c l k m y t b bs s work model layer table experts role buffer answered found empty
    obtain ⟨u, returned, mem, out, batches⟩ := exchangeReturn_of_empty (o := originOf c l k) (k := k) (limited := waitLimited l) buffer
      answered found empty
    refine ⟨u, ?_, mem, out, fun x hx => ?_⟩
    · simp only [exec, execZXchg, work, model, layer, table]
      rw [if_neg experts, if_neg (by simp [role]), if_neg (by simp [role]), returned]
    · rw [batches] at hx
      rintro ⟨cmd, model', layer', half, lslot, round⟩
      have other := (List.mem_filter.mp hx).2
      simp [batchIs, cmd, model', layer', half, lslot, round] at other

end Sys2Proof.Machine

end

section

/-! ## Remote accesses: O44 -/

namespace Sys2Proof.Machine
open Sys2Proof.Claims

/-! ### A request in its turn -/

/-- The home with a request's turn taken (R319). -/
def turned (r : FabReq) (s : State) : State :=
  { s with fab := { s.fab with heldIn := [], seqIn := seqSet s.fab.seqIn r.pkg r.agent (r.seq + 1) } }

/-- The waits on a counter that a request touches are marked (R423). -/
def marked (r : FabReq) (s : State) : State :=
  match localOf s r.addr with
  | some a => flagWaits a (kindSpan r.kind) r.limited s
  | none => s

theorem marked_keeps (r : FabReq) (s : State) : (marked r s).mem = s.mem ∧ (marked r s).fab = s.fab ∧ (marked r s).out = s.out := by
  unfold marked
  split
  · simp
  · exact ⟨rfl, rfl, rfl⟩

/-- A young request whose turn it is, with none held, is served at once (R319). -/
theorem exec_fabricRequest_in_turn {r : FabReq} {s : State} (young : (s.now + 1024 - r.issueLow % 1024) % 1024 < 512)
    (none_ : s.fab.heldIn = []) (turn_ : r.seq = seqFor s.fab.seqIn r.pkg r.agent) :
    exec (.fabricRequest r) s = .next (marked r (serveRequest r (turned r s))) := by
  have fresh : ¬ (decide (r.seq < seqFor s.fab.seqIn r.pkg r.agent) ||
      s.fab.heldIn.any fun x => x.pkg = r.pkg && x.agent = r.agent && x.seq = r.seq) = true := by simp [none_, turn_]
  have found : (s.fab.heldIn ++ [r]).find? (fun x => x.pkg = r.pkg && x.agent = r.agent && x.seq = seqFor s.fab.seqIn r.pkg r.agent) = some r := by
    simp [none_, ← turn_]
  have left_ : (s.fab.heldIn ++ [r]).filter (fun x => x ≠ r) = [] := by simp [none_]
  simp only [exec, execFabricRequest]
  rw [if_neg (Nat.not_le.mpr young), if_neg fresh]
  simp only [none_, List.nil_append, List.length_singleton]
  rw [serveHeld]
  simp only [none_, List.nil_append] at found left_
  simp only [found, left_]
  rw [serveHeld, ← turn_]
  rfl

/-- A packet leaves as it would have before the home's turn moved on, and before a write that no snapshot waits for (R301, R423). -/
theorem fabPacket_turned (r : FabReq) (s : State) (dest vc : Nat) (w : FabOut) : fabPacket (turned r s) dest vc w = fabPacket s dest vc w := rfl

theorem fabPacket_applyWrite {a : Nat} {bs : List Byte} {s : State} (unblocked : blockedUnits s a bs.length = []) (dest vc : Nat) (w : FabOut) :
    fabPacket (applyWrite a bs s) dest vc w = fabPacket s dest vc w := by
  rw [applyWrite, unblocked]
  rfl

theorem sendFab_out (dest vc : Nat) (w : FabOut) (s : State) : (sendFab dest vc w s).out = s.out ++ [fabPacket s dest vc w] := rfl

/-- A load, a store or an atomic is applied and answered (R320). -/
theorem serveRequest_of_access {r : FabReq} {s : State} (access : (∃ n, r.kind = .load n) ∨ (∃ d, r.kind = .store d) ∨
    ∃ op x y, r.kind = .atomic op x y) :
    serveRequest r s = sendFab r.pkg 5 (.response r.agent r.seq (applyAt r.job r.addr r.kind s).2.1 (applyAt r.job r.addr r.kind s).2.2.1
      (applyAt r.job r.addr r.kind s).2.2.2) (applyAt r.job r.addr r.kind s).1 := by
  unfold serveRequest
  rcases access with ⟨n, kind⟩ | ⟨d, kind⟩ | ⟨op, x, y, kind⟩ <;> rw [kind]

theorem applyAt_load_state (job addr n : Nat) (s : State) : (applyAt job addr (.load n) s).1 = s := by
  unfold applyAt
  split
  · rfl
  · dsimp only
    split
    · split <;> rfl
    · rfl

theorem applyAt_turned_load (r : FabReq) (job addr n : Nat) (s : State) :
    (applyAt job addr (.load n) (turned r s)).2 = (applyAt job addr (.load n) s).2 := by
  have home : localOf (turned r s) addr = localOf s addr := rfl
  unfold applyAt
  rw [home]
  cases localOf s addr with
  | none => rfl
  | some a =>
    have allowed : homeHandle (turned r s) job a n false = homeHandle s job a n false := rfl
    dsimp only
    rw [allowed]
    cases homeHandle s job a n false with
    | none => rfl
    | some h =>
      dsimp only
      by_cases bad : (decide (addr % 32 ≠ 0) || decide (n % 32 ≠ 0) || s.badAt a n) = true
      · have bad' : (decide (addr % 32 ≠ 0) || decide (n % 32 ≠ 0) || (turned r s).badAt a n) = true := bad
        rw [if_pos bad, if_pos bad']
      · have good' : ¬ (decide (addr % 32 ≠ 0) || decide (n % 32 ≠ 0) || (turned r s).badAt a n) = true := bad
        rw [if_neg bad, if_neg good']
        rfl

theorem applyAt_store {job addr a : Nat} {d : List Byte} {s : State} (home : localOf s addr = some a) (aligned : addr % 32 = 0)
    (whole : d.length % 32 = 0) (allowed : (homeHandle s job a d.length true).isSome = true) :
    applyAt job addr (.store d) s = (applyWrite a d s, true, false, []) := by
  have fits : ¬ (decide (addr % 32 ≠ 0) || decide (d.length % 32 ≠ 0) || (homeHandle s job a d.length true).isNone) = true := by
    simp [aligned, whole, Option.isNone_iff_eq_none, Option.isSome_iff_ne_none.mp allowed]
  simp only [applyAt, home]
  exact if_neg fits

theorem applyAt_atomic {job addr a op operand compare v : Nat} {s : State} (home : localOf s addr = some a) (aligned : addr % 8 = 0)
    (allowed : (homeHandle s job a 8 true).isSome = true) (sound : s.badAt a 8 = false)
    (new : atomicNew op (leNat (s.mem.read a 8)) operand compare = some v) :
    applyAt job addr (.atomic op operand compare) s = (applyAtomic op a v s, true, false, leBytes 8 (leNat (s.mem.read a 8))) := by
  have fits : ¬ (decide (addr % 8 ≠ 0) || s.badAt a 8 || (homeHandle s job a 8 true).isNone) = true := by
    simp [aligned, sound, Option.isNone_iff_eq_none, Option.isSome_iff_ne_none.mp allowed]
  simp only [applyAt, home]
  rw [if_neg fits, new]

/-- The home with an atomic noted as its last, and counted where it folds (R325). -/
def noteAtomic (op a : Nat) (folds : Bool) (s : State) : State :=
  { s with fab := { s.fab with
      lastAtomic := some (a, op, s.now)
      folded := if folds then sat32 (s.fab.folded + 1) else s.fab.folded } }

/-- An atomic that no snapshot waits for writes its eight bytes; the draw of its folding and its counts change only what is named (R324, R325). -/
theorem applyAtomic_unblocked {op a v : Nat} {s : State} (unblocked : blockedUnits s a 8 = []) : ∃ fresh last updates folded,
    applyAtomic op a v s = { s with
      fresh := fresh
      mem := (storeBytes a (leBytes 8 v) s).mem
      fab := { s.fab with lastAtomic := last, updates := updates, folded := folded } } := by
  have whole : (leBytes 8 v).length = 8 := rfl
  have written (n : Nat) : applyWrite a (leBytes 8 v) { s with fresh := n } = { s with
      fresh := n
      mem := (storeBytes a (leBytes 8 v) s).mem
      fab := { s.fab with updates := s.fab.updates + linesOf a 8, lastAtomic := none } } := by
    have free : blockedUnits { s with fresh := n } a 8 = [] := unblocked
    rw [applyWrite, whole, free]
    rfl
  have parts : ∃ fresh folds, applyAtomic op a v s = noteAtomic op a folds (applyWrite a (leBytes 8 v) { s with fresh := fresh }) := by
    unfold applyAtomic
    dsimp only
    split
    · exact ⟨s.fresh + 1, _, rfl⟩
    · exact ⟨s.fresh, _, rfl⟩
  obtain ⟨fresh, folds, eq⟩ := parts
  exact ⟨fresh, _, _, _, eq.trans (congrArg (noteAtomic op a folds) (written fresh))⟩

/-- The packets of this package do not depend on its memory, its draws or its fabric's counts (R301). -/
theorem fabPacket_counts (s : State) (fresh updates folded : Nat) (last : Option (Nat × Nat × Nat)) (m : MemSt) (dest vc : Nat) (w : FabOut) :
    fabPacket { s with fresh := fresh, mem := m, fab := { s.fab with lastAtomic := last, updates := updates, folded := folded } } dest vc w =
      fabPacket s dest vc w := rfl

theorem read_of_bytes {m : MemSt} {a : Nat} {bs : List Byte} (form : m.wf = true) (bytes : ∀ k (hk : k < bs.length), m.readByte (a + k) = bs[k]) :
    m.read a bs.length = bs := by
  refine List.ext_getElem? fun k => ?_
  by_cases hk : k < bs.length
  · rw [getElem?_read form hk, bytes k hk, List.getElem?_eq_getElem hk]
  · rw [List.getElem?_eq_none (by rw [length_read]; omega), List.getElem?_eq_none (by omega)]

/-- What a request that is served in its turn leaves and answers, where its access leaves the home in a state (R319, R320). -/
theorem exec_fabricRequest_access {r : FabReq} {s u : State} {ok cacheable : Bool} {d : List Byte}
    (young : (s.now + 1024 - r.issueLow % 1024) % 1024 < 512) (none_ : s.fab.heldIn = [])
    (turn_ : r.seq = seqFor s.fab.seqIn r.pkg r.agent)
    (access : (∃ n, r.kind = .load n) ∨ (∃ d, r.kind = .store d) ∨ ∃ op x y, r.kind = .atomic op x y)
    (applied : applyAt r.job r.addr r.kind (turned r s) = (u, ok, cacheable, d)) :
    ∃ t, exec (.fabricRequest r) s = .next t ∧ t.mem = u.mem ∧ t.fab = u.fab ∧
      t.out = u.out ++ [fabPacket u r.pkg 5 (.response r.agent r.seq ok cacheable d)] := by
  obtain ⟨mem, fab, out⟩ := marked_keeps r (serveRequest r (turned r s))
  rw [serveRequest_of_access access, applied] at mem fab out
  refine ⟨_, exec_fabricRequest_in_turn young none_ turn_, ?_⟩
  rw [serveRequest_of_access access, applied]
  exact ⟨mem, fab, out⟩

/-! ### Answers at the source -/

/-- A send held for a home and released changes no id of an access (R326). -/
theorem mem_accesses_releaseHeld {home : Nat} {s : State} {y : Access} (hy : y ∈ (releaseHeld home s).fab.accesses) :
    ∃ x ∈ s.fab.accesses, x.id = y.id := by
  revert hy
  unfold releaseHeld
  split
  · exact fun hy => ⟨y, hy, rfl⟩
  · split
    · exact fun hy => ⟨y, hy, rfl⟩
    · intro hy
      have sent (x : Access) (u : State) : (sendAccess x u).fab = u.fab := by
        unfold sendAccess
        split <;> rfl
      rw [sent] at hy
      obtain ⟨x, hx, eq⟩ := List.mem_map.mp hy
      refine ⟨x, hx, ?_⟩
      rw [← eq]
      split <;> rfl

theorem accesses_applyWrite (a : Nat) (bs : List Byte) (s : State) : (applyWrite a bs s).fab.accesses = s.fab.accesses := by
  unfold applyWrite
  generalize blockedUnits s a bs.length = units
  exact List.foldlRecOn (motive := fun u : State => u.fab.accesses = s.fab.accesses) _ _ rfl fun _ kept _ _ => kept

/-- A good answer with data for memory stores them, and its access is no longer outstanding (R318). -/
theorem answerAccess_memory {x : Access} {a : Nat} {data : List Byte} {s : State} (sink : x.sink = .memory a) (alone : x.bump = none) :
    (∀ y ∈ (answerAccess x true false data s).fab.accesses, y.id ≠ x.id) ∧
      ∀ k (hk : k < data.length), (answerAccess x true false data s).mem.readByte (a + k) = data[k] := by
  have eq : answerAccess x true false data s = progress x.cmd (applyWrite a data (releaseHeld x.home
      { s with fab := { s.fab with accesses := s.fab.accesses.filter fun y => y.id ≠ x.id } })) := by
    unfold answerAccess
    rw [sink, alone]
    rfl
  rw [eq]
  constructor
  · intro y hy
    have left_ : y ∈ (releaseHeld x.home { s with fab := { s.fab with accesses := s.fab.accesses.filter fun y => y.id ≠ x.id } }).fab.accesses := by
      rwa [← accesses_applyWrite a data]
    obtain ⟨z, hz, same⟩ := mem_accesses_releaseHeld left_
    rw [← same]
    simpa using (List.mem_filter.mp hz).2
  · exact fun k hk => readByte_applyWrite a k data _ _ (List.getElem?_eq_getElem hk)

/-- A failed answer ends the command of its access (R318). -/
theorem answerAccess_failed (x : Access) (cacheable : Bool) (data : List Byte) (s : State) :
    answerAccess x false cacheable data s = contextFault x.cmd 4 (agentList x.agent) (some x.desc) (releaseHeld x.home
      { s with fab := { s.fab with accesses := s.fab.accesses.filter fun y => y.id ≠ x.id } }) := rfl

theorem exec_fabricResponse {r : FabResp} {x : Access} {s : State} (found : s.fab.accesses.find? (fun x => x.id = r.access) = some x) :
    exec (.fabricResponse r) s = .next (answerAccess x r.ok r.cacheable r.data s) := by
  simp only [exec, execFabricResponse, found]

/-- Settles O44: a request in its turn is applied to the home and answered, an aged one discarded and counted; the source's answers,
refusals and timeouts each end their access. -/
theorem remoteAccesses : Obligations.RemoteAccesses := by
  refine ⟨?load, ?store, ?atomic, ?agedOut, ?agedTurn, ?duplicate, ?answer, ?refused, ?timeout, ?aged⟩
  case load =>
    intro r n s young none_ turn_ kind
    have applied : applyAt r.job r.addr r.kind (turned r s) = (turned r s, (applyAt r.job r.addr (.load n) s).2) := by
      rw [kind]
      exact Prod.ext (applyAt_load_state _ _ _ _) (applyAt_turned_load _ _ _ _ _)
    obtain ⟨t, run, mem, fab, out⟩ := exec_fabricRequest_access young none_ turn_ (.inl ⟨n, kind⟩) applied
    exact ⟨t, run, mem, congrArg FabSt.heldIn fab, out⟩
  case store =>
    intro r d a s young none_ turn_ kind home aligned whole allowed unblocked form
    have applied : applyAt r.job r.addr r.kind (turned r s) = (applyWrite a d (turned r s), true, false, []) := by
      rw [kind]
      exact applyAt_store home aligned whole allowed
    obtain ⟨t, run, mem, -, out⟩ := exec_fabricRequest_access young none_ turn_ (.inr (.inl ⟨d, kind⟩)) applied
    refine ⟨t, run, ?_, ?_, ?_⟩
    · have kept : (applyWrite a d (turned r s)).out = s.out := (by simp : _ = (turned r s).out)
      rw [out, fabPacket_applyWrite (s := turned r s) unblocked, fabPacket_turned, kept]
    · intro k hk
      rw [mem]
      exact readByte_applyWrite a k d _ _ (List.getElem?_eq_getElem hk)
    · intro x hx
      rw [mem]
      exact readByte_applyWrite_outside a x d (turned r s) form unblocked hx
  case atomic =>
    intro r op operand compare v a s young none_ turn_ kind home aligned allowed sound unblocked form new
    obtain ⟨fresh, last, updates, folded, eq⟩ := applyAtomic_unblocked (op := op) (v := v) (s := turned r s) unblocked
    have applied : applyAt r.job r.addr r.kind (turned r s) = (applyAtomic op a v (turned r s), true, false, leBytes 8 (leNat (s.mem.read a 8))) := by
      rw [kind]
      exact applyAt_atomic home aligned allowed sound new
    obtain ⟨t, run, mem, -, out⟩ := exec_fabricRequest_access young none_ turn_ (.inr (.inr ⟨op, operand, compare, kind⟩)) applied
    rw [eq] at mem out
    have stored : t.mem = (storeBytes a (leBytes 8 v) s).mem := mem
    refine ⟨t, run, ?_, ?_, ?_⟩
    · rw [out, fabPacket_counts, fabPacket_turned]
      rfl
    · rw [stored]
      exact read_of_bytes (storeBytes_wf _ _ s form) fun k hk => readByte_storeBytes a k _ _ s (List.getElem?_eq_getElem hk)
    · intro x hx
      rw [stored]
      exact readByte_storeBytes_outside a x _ s form hx
  case agedOut =>
    intro r s old other
    simp only [exec, execFabricRequest]
    rw [if_pos old, if_neg other]
  case agedTurn =>
    intro r s old turn_ none_
    simp only [exec, execFabricRequest]
    rw [if_pos old, if_pos turn_, none_, ← turn_]
    rfl
  case duplicate =>
    intro r s young before
    simp only [exec, execFabricRequest]
    rw [if_neg (Nat.not_le.mpr young), if_pos (by simp [before])]
  case answer =>
    intro r x a s found ok plain sink alone
    rw [exec_fabricResponse found, ok, plain]
    exact ⟨_, rfl, answerAccess_memory sink alone⟩
  case refused =>
    intro r x s found refused
    rw [exec_fabricResponse found, refused, answerAccess_failed]
  case timeout =>
    intro n x s found late
    simp only [exec, execFabricAccessTimeout, found]
    rw [if_neg (Nat.not_lt.mpr late)]
  case aged =>
    intro n x s hx id young sent late
    have waits : (s.fab.accesses.any fun x => x.id = n && !x.aged && !x.held && decide (x.issued + 512 ≤ s.beat.elapsed)) = true :=
      List.any_eq_true.mpr ⟨x, hx, by simp [id, young, sent, late]⟩
    simp only [exec, execRequestAged]
    rw [if_pos waits]
    refine ⟨_, rfl, rfl, ?_, rfl, rfl⟩
    intro y hy same
    obtain ⟨z, -, eq⟩ := List.mem_map.mp hy
    by_cases hz : z.id = n
    · rw [← eq, if_pos (by simpa using hz)]
    · rw [if_neg (by simpa using hz)] at eq
      exact absurd (eq ▸ same) hz

end Sys2Proof.Machine

end

section

/-! ## The exchange, fabric transactions and transit: O45 -/

namespace Sys2Proof.Machine
open Sys2Proof.Claims

/-! ### The exchange -/

theorem flagExchange_outside (job : Nat) (limited : Bool) (s : State) :
    (flagExchange job limited s).mem = s.mem ∧ (flagExchange job limited s).fab = s.fab ∧ (flagExchange job limited s).stns = s.stns :=
  ⟨rfl, rfl, rfl⟩

/-- The record of a source that has just been accepted is its latest (R197). -/
theorem latestCounts_acceptCounts (r : CountRec) (s : State) :
    latestCounts (acceptCounts r s) r.pkg r.job r.model r.layer r.half = some (r, none) := by
  unfold latestCounts acceptCounts
  dsimp only
  rw [List.find?_append, List.find?_eq_none.mpr]
  · simp
  · intro x hx same
    have other := (List.mem_filter.mp hx).2
    rw [Bool.not_eq_true'] at other
    exact Bool.false_ne_true (other.symm.trans same)

/-- A row of the recorded generation enters its window (R197, R201). -/
theorem acceptRow_of_current {r : XRow} {g : CountRec} {u : Option Nat} {s : State} (toWindow : r.toReturn = false)
    (latest : latestCounts s r.pkg r.job r.model r.layer r.half = some (g, u)) (current : (tagOf r.tag).gen = g.gen) :
    acceptRow r s = { s with fab := { s.fab with rows := s.fab.rows ++ [r] } } := by
  simp only [acceptRow, latest, toWindow]
  exact (if_neg Bool.false_ne_true).trans (if_neg (not_not.mpr current))

/-- A row of another generation is discarded (R201). -/
theorem acceptRow_of_stale {r : XRow} {g : CountRec} {u : Option Nat} {s : State} (toWindow : r.toReturn = false)
    (latest : latestCounts s r.pkg r.job r.model r.layer r.half = some (g, u)) (stale : (tagOf r.tag).gen ≠ g.gen) :
    ∃ engine, acceptRow r s = discardRow engine s := by
  simp only [acceptRow, latest, toWindow]
  exact ⟨_, (if_neg Bool.false_ne_true).trans (if_pos stale)⟩

/-! ### Fabric transactions -/

/-- A transaction with a compare that fails stores nothing, is counted and answers its source (R337). -/
theorem commitTxn_of_mismatch {x : StagedTxn} {s : State} (away : x.pkg ≠ s.boot.pkg)
    (differs : ∃ y ∈ txnLines s x.entries, y.2.1 = true ∧ maskInto y.2.2.1 (s.mem.read y.1 256) y.2.2.2 ≠ s.mem.read y.1 256) :
    commitTxn x s = sendFab x.pkg 5 (.response x.agent x.seq true false (leBytes 8 1))
      { s with fab := { s.fab with txns := s.fab.txns.filter fun y => y ≠ x, txnNot := sat32 (s.fab.txnNot + 1) } } := by
  obtain ⟨y, mem, compares, differs⟩ := differs
  have fails : ¬ ((txnLines s x.entries).all fun (a, cmp, mask, d) =>
      !cmp || (let old := s.mem.read a 256; maskInto mask old d = old)) = true := by
    rw [List.all_eq_true]
    intro all_
    simpa [compares, differs] using all_ y mem
  unfold commitTxn
  dsimp only
  rw [if_neg fails, answerTxn]
  exact if_neg away

/-! ### Transit -/

/-- A young transit packet with a route leaves on it and is counted on its link (R301 to R303, R306, R307). -/
theorem exec_transitPacket_forwarded {p : TransitP} {port : Nat} {s : State} (away : p.dest ≠ s.boot.pkg) (level : p.channel < 15)
    (class_ : p.channel % 5 ≠ 4) (young : (s.now + 1024 - p.issueLow % 1024) % 1024 < 512)
    (route : egressOf s p.src p.dest p.addr = some port) :
    exec (.transitPacket p) s = .next (emit (.fabric p.dest (p.channel + 1) (some port) false (.transit { p with channel := p.channel + 1 }))
      (setLink port (fun l => { l with
        shared := true
        transitBytes := (l.transitBytes + p.bytes) % 1000000
        transitMb := wrap32 (l.transitMb + (l.transitBytes + p.bytes) / 1000000) }) s)) := by
  have passes : ¬ (decide (p.dest = s.boot.pkg) || decide (15 ≤ p.channel) || decide (p.channel % 5 = 4)) = true := by
    simp [away, class_]; omega
  simp only [exec, execTransitPacket, route]
  exact (if_neg passes).trans (if_neg (Nat.not_le.mpr young))

/-- Settles O45: the exchange's records and rows, transactions with a failing compare, and transit packets. -/
theorem exchangeAndTransit : Obligations.ExchangeAndTransit := by
  refine ⟨?record, ?current, ?stale, ?mismatch, ?notYet, ?forwarded, ?old⟩
  case record =>
    intro r s
    exact ⟨_, rfl, latestCounts_acceptCounts r s, rfl⟩
  case current =>
    intro r g u s toWindow latest current
    refine ⟨_, rfl, ?_⟩
    rw [acceptRow_of_current toWindow latest current]
    exact ⟨rfl, rfl, rfl⟩
  case stale =>
    intro r g u s toWindow latest stale
    obtain ⟨engine, eq⟩ := acceptRow_of_stale toWindow latest stale
    refine ⟨_, rfl, ?_⟩
    rw [eq]
    exact ⟨by simp, by simp⟩
  case mismatch =>
    intro x s only_ due away differs
    have commits : commitTxns s = commitTxn x s := by
      have due' : s.fab.txns.filter (fun t => beatLe t.beat s.now) = [x] := by simp [only_, due]
      rw [commitTxns, due']
      rfl
    refine ⟨_, congrArg Host.Outcome.next commits, ?_⟩
    rw [commitTxn_of_mismatch away differs]
    refine ⟨rfl, ?_, rfl⟩
    change s.fab.txns.filter (fun y => y ≠ x) = []
    simp [only_]
  case notYet =>
    intro s early
    have none_ : s.fab.txns.filter (fun t => beatLe t.beat s.now) = [] := List.filter_eq_nil_iff.mpr fun x hx => by simp [early x hx]
    have stays : commitTxns s = s := by
      rw [commitTxns, none_]
      rfl
    exact congrArg Host.Outcome.next stays
  case forwarded =>
    intro p port x s away level class_ young route known
    exact ⟨_, _, exec_transitPacket_forwarded away level class_ young route, rfl,
      (link_setLink port _ (by intro; rfl) s).trans (congrArg _ known), rfl, rfl, rfl, rfl⟩
  case old =>
    intro p s away level class_ old
    have passes : ¬ (decide (p.dest = s.boot.pkg) || decide (15 ≤ p.channel) || decide (p.channel % 5 = 4)) = true := by
      simp [away, class_]; omega
    simp only [exec, execTransitPacket]
    rw [if_neg passes, if_pos old]

end Sys2Proof.Machine

end

section

/-! ## Barriers and snapshots: O46 -/

namespace Sys2Proof.Machine
open Sys2Proof.Claims

/-! ### Arrivals at the coordinator -/

theorem State.op_of_fab {s t : State} (h : t.fab = s.fab) (id : Nat) : t.op id = s.op id := by rw [State.op, h, State.op]

theorem setOp_known {id : Nat} {f : GlobalOp → GlobalOp} {o : GlobalOp} {s : State} (known : s.op id = some o) (sameId : ∀ x, (f x).id = x.id) :
    (setOp id f s).op id = some (f o) := by
  rw [op_setOp _ _ sameId, known, Option.map_some]

/-- The beat in which a barrier completes whose last arrival is taken now (R310). -/
def completionBeat (s : State) (o : GlobalOp) : Nat :=
  beatAdd s.now (((Config.drawn s.fresh).toNat % 1000 +
    (routeBound s o.members + (o.bcast.map fun b => b.bytes / 1600).getD 0) + 999) / 1000)

/-- The coordinator's operation with new arrivals noted (R310). -/
def GlobalOp.joined (o : GlobalOp) (fresh : List Nat) : GlobalOp := { o with arrived := (o.arrived ++ fresh).eraseDups }

/-- With the last arrival the coordinator names the completion beat (R310). -/
theorem gather_last {id : Nat} {fresh : List Nat} {o : GlobalOp} {s : State} (known : s.op id = some o) (own : o.coord = s.boot.pkg)
    (open_ : o.completeAt = none) (all_ : ∀ m ∈ o.members, m ∈ o.arrived ++ fresh) :
    (gather id fresh s).op id = some { o.joined fresh with completeAt := some (completionBeat s o) } := by
  have last_ : (o.members.all fun m => (o.arrived ++ fresh).eraseDups.contains m) && o.completeAt.isNone := by
    simpa [open_, List.all_eq_true] using all_
  have joined := setOp_known (f := fun x => { x with arrived := (o.arrived ++ fresh).eraseDups }) known fun _ => rfl
  simp only [gather, known]
  rw [if_pos own.symm, if_pos last_]
  rw [State.op_of_fab (sendRelease_keeps _ _ _).2.2.2.2.2.2.2.2.2.2.2.1]
  exact setOp_known (s := (beatsAfter _ _).2) ((State.op_of_fab (beatsAfter_keeps _ _).2.2.2.2.2.2.2.2.2.2.2.1 id).trans joined) fun _ => rfl

/-- Before the last arrival, and after the beat is named, an arrival is only noted (R310). -/
theorem gather_noted {id : Nat} {fresh : List Nat} {o : GlobalOp} {s : State} (known : s.op id = some o) (own : o.coord = s.boot.pkg)
    (rest : ¬ ((∀ m ∈ o.members, m ∈ o.arrived ++ fresh) ∧ o.completeAt = none)) :
    gather id fresh s = setOp id (fun x => { x with arrived := (o.arrived ++ fresh).eraseDups }) s := by
  have more : ¬ ((o.members.all fun m => (o.arrived ++ fresh).eraseDups.contains m) && o.completeAt.isNone) = true := by
    simpa [List.all_eq_true] using rest
  simp only [gather, known]
  rw [if_pos own.symm, if_neg more]

/-- The coordinator is its own collector (R310). -/
theorem arriveHere_coordinator {id : Nat} {o : GlobalOp} {s : State} (known : s.op id = some o) (own : o.coord = s.boot.pkg) :
    arriveHere id s = gather id [s.boot.pkg] s := by
  have self : collectorOf s (s.boot.pkg / 16) o.coord = some s.boot.pkg := by rw [own, collectorOf, if_pos rfl]
  simp only [arriveHere, known, self]
  exact if_pos trivial

/-- An arrival that names this package: the others' part is noted first, then its own (R310). -/
theorem arriveHere_gather {id : Nat} {fresh : List Nat} {o : GlobalOp} {s : State} (known : s.op id = some o) (own : o.coord = s.boot.pkg)
    (open_ : o.completeAt = none) (all_ : ∀ m ∈ o.members, m ∈ o.arrived ++ fresh) :
    ∃ x, (arriveHere id (gather id (fresh.filter fun m => m ≠ s.boot.pkg) s)).op id = some x ∧ x.completeAt = some (completionBeat s o) := by
  have pkg : (gather id (fresh.filter fun m => m ≠ s.boot.pkg) s).boot.pkg = s.boot.pkg := by simp
  by_cases before : ∀ m ∈ o.members, m ∈ o.arrived ++ fresh.filter fun m => m ≠ s.boot.pkg
  · have named := gather_last known own open_ before
    rw [arriveHere_coordinator named (own.trans pkg.symm), gather_noted named (own.trans pkg.symm) (by simp)]
    exact ⟨_, setOp_known named fun _ => rfl, rfl⟩
  · have noted := gather_noted known own (fresh := fresh.filter fun m => m ≠ s.boot.pkg) fun all_ => before all_.1
    have joined := setOp_known (f := fun x => { x with arrived := (o.arrived ++ fresh.filter fun m => m ≠ s.boot.pkg).eraseDups }) known
      fun _ => rfl
    rw [noted, arriveHere_coordinator joined own]
    refine ⟨_, gather_last joined own open_ ?_, rfl⟩
    intro m hm
    by_cases self : m = s.boot.pkg
    · simp [self]
    · have := all_ m hm
      simpa [self] using this

/-- What an arrival brings of a broadcast, if anything (R312). -/
def withPart (id : Nat) (ms : List Nat) (part : Option BcastPart) (s : State) : State := (part.map fun p => takePart id ms p s).getD s

/-- An arrival of an operation in progress, with BEAT_CLK present, is taken (R310, R312). -/
theorem exec_barrierArrival_taken {id : Nat} {ms : List Nat} {a : ArrivalP} {o : GlobalOp} {s : State} (known : s.op id = some o)
    (clock : s.beat.clkHold = false) :
    exec (.barrierArrival id ms a) s = .next (if a.merged.contains s.boot.pkg then
      arriveHere id (gather id (a.merged.filter fun m => m ≠ s.boot.pkg) (withPart id ms a.part s))
      else gather id a.merged (withPart id ms a.part s)) := by
  obtain ⟨merged, part⟩ := a
  simp only [exec, execBarrierArrival, known, clock, Option.isNone_some, Bool.false_and, Bool.or_self, Bool.and_false]
  cases part <;> exact (if_neg Bool.false_ne_true).trans rfl

/-- A piece of a broadcast is stored where this package keeps the data (R312). -/
theorem takePart_stored {id i : Nat} {ms : List Nat} {p : BcastPart} {data : List Byte} {s : State} (member : s.boot.pkg ∈ ms)
    (other : p.root ≠ s.boot.pkg) (piece : p.piece = some (i, data)) :
    (takePart id ms p s).mem = (storeBytes (p.base + 65536 * i) data s).mem := by
  have keeps : (ms.contains s.boot.pkg && decide (p.root ≠ s.boot.pkg)) = true := by simp [member, other]
  simp only [takePart, piece]
  rw [(passPiece_keeps _ _ _ _ _ _).1, (setOp_keeps _ _ _).2.2.2.2.2.2.2.2.2.2.2.2.2.2.2.2.2]
  rw [if_pos keeps]
  rfl

/-! ### Releases and ends -/

/-- A completion beat that has come ends the barrier, and its host hears of it (R310). -/
theorem completeBarrier_due {id c : Nat} {o : GlobalOp} {s : State} (known : s.op id = some o) (named : o.completeAt = some c)
    (due : beatLe c s.now = true) (free : o.limited = false) (hostOwned : o.session ≠ 0) :
    completeBarrier id s = finish o.session o.tag 0x0504 stOk 0 (leBytes 8 c)
      { s with fab := { s.fab with ops := s.fab.ops.filter fun x => x.id ≠ id } } := by
  simp only [completeBarrier, known, named, free]
  exact (if_pos due).trans (if_neg hostOwned)

theorem completeBarrier_early {id c : Nat} {o : GlobalOp} {s : State} (known : s.op id = some o) (named : o.completeAt = some c)
    (early : beatLe c s.now = false) : completeBarrier id s = s := by
  simp only [completeBarrier, known, named]
  exact if_neg (by simp [early])

/-- A failed operation is answered ST_DEGRADED; the coordinator tells the members (R311). -/
theorem failOp_of_member {id : Nat} {o : GlobalOp} {s : State} (known : s.op id = some o) (away : o.coord ≠ s.boot.pkg) :
    failOp id false s = finish o.session o.tag 0x0504 stDegraded 0 []
      { s with fab := { s.fab with ops := s.fab.ops.filter fun x => x.id ≠ id } } := by
  rw [State.op] at known
  simp only [failOp, known, Bool.false_or]
  rw [if_neg (by simp [away])]

theorem failOp_of_coordinator {id : Nat} {o : GlobalOp} {s : State} (known : s.op id = some o) (own : o.coord = s.boot.pkg) :
    failOp id false s = finish o.session o.tag 0x0504 stDegraded 0 [] (tellFailed id o.members
      { s with fab := { s.fab with ops := s.fab.ops.filter fun x => x.id ≠ id } }) := by
  rw [State.op] at known
  simp only [failOp, known, Bool.false_or]
  rw [if_pos (by simp [own])]

/-! ### Snapshots -/

/-- An entry found by a key that an update keeps is the updated one, where the update applies to it. -/
theorem find_updBy_of_holds {α : Type} {p q : α → Bool} {f : α → α} {x : α} {xs : List α} (sameKey : ∀ y, q (f y) = q y)
    (found : xs.find? q = some x) (holds : p x = true) : (updBy p f xs).find? q = some (f x) := by
  have key : q ∘ (fun y => if p y then f y else y) = q := by
    funext y
    simp only [Function.comp_apply]
    split
    · exact sameKey y
    · rfl
  rw [updBy, List.find?_map, key, found, Option.map_some, if_pos holds]

/-- Settles O46: a barrier's entry, its completion beat, its release, completion and timeouts, a broadcast's piece, and a snapshot's
wait, capture and copies. -/
theorem barriersAndSnapshots : Obligations.BarriersAndSnapshots := by
  refine ⟨?enters, ?arrives, ?piece, ?release, ?complete, ?early, ?told, ?timeout, ?snapshot, ?captured, ?copied⟩
  case enters =>
    intro h id timeout members e s served here bounds unknown room clock reachable
    have valid : badIf (!(membersOf members).contains s.boot.pkg || (decide (timeout ≠ 0) && (decide (timeout < 1000) ||
        decide (10000000 < timeout)))) = none := by
      have inBounds : timeout ≠ 0 → ¬ (timeout < 1000 ∨ 10000000 < timeout) := by omega
      simpa [badIf, here] using inBounds
    have joins : ¬ (s.beat.clkHold || (membersOf members).any fun m => s.fab.unreachable.contains m) = true := by
      simpa [clock] using reachable
    rw [exec, execBarrier, hosted_of_served served valid]
    simp only [unknown, if_neg (Nat.not_le.mpr room)]
    rw [if_neg joins]
  case arrives =>
    intro id ms fresh o s known own open_ clock all_
    refine exists_comm.mp ?_
    rw [exec_barrierArrival_taken known clock]
    by_cases here : s.boot.pkg ∈ fresh
    · obtain ⟨x, hx, at_⟩ := arriveHere_gather known own open_ all_
      rw [if_pos (by simpa using here)]
      exact ⟨x, _, rfl, hx, at_, by simp [withPart], by simp [withPart]⟩
    · rw [if_neg (by simpa using here)]
      exact ⟨_, _, rfl, gather_last known own open_ all_, rfl, by simp [withPart], by simp [withPart]⟩
  case piece =>
    intro id i ms fresh p data o s known clock member other piece form
    have mem : ∃ t, exec (.barrierArrival id ms ⟨fresh, some p⟩) s = .next t ∧ t.mem = (storeBytes (p.base + 65536 * i) data s).mem := by
      rw [exec_barrierArrival_taken known clock, ← takePart_stored (id := id) member other piece]
      refine ⟨_, rfl, ?_⟩
      split <;> simp [withPart]
    obtain ⟨t, run, mem⟩ := mem
    refine ⟨t, run, ?_, ?_⟩ <;> rw [mem]
    · exact fun k hk => readByte_storeBytes _ k data _ s (List.getElem?_eq_getElem hk)
    · exact fun x hx => readByte_storeBytes_outside _ x data s form hx
  case release =>
    intro id beat ms limited o s known member
    simp only [exec, execBarrierRelease]
    rw [if_pos (by simpa using member)]
    refine ⟨_, rfl, ?_, by simp, by simp⟩
    refine setOp_known ?_ fun _ => rfl
    rw [State.op_of_fab (s := s) (by simp), known]
  case complete =>
    intro id c o s known named due free hostOwned
    exact congrArg Host.Outcome.next (completeBarrier_due known named due free hostOwned)
  case early =>
    intro id c o s known named early
    exact congrArg Host.Outcome.next (completeBarrier_early known named early)
  case told =>
    intro id o s known away
    simp only [exec, execGlobalOpTimeout, known]
    rw [if_neg (by simp [away]), failOp_of_member known away]
  case timeout =>
    intro id o s known own late
    have passed : ¬ (decide (o.coord = s.boot.pkg) && decide (s.beat.elapsed < o.startBeat + o.timeout)) = true := by
      simp [late]
    simp only [exec, execGlobalOpTimeout, known]
    rw [if_neg passed, failOp_of_coordinator known own]
  case snapshot =>
    intro h beat ctx ps e s served allowed ahead
    have valid : (match snapRefusal e.principal ctx ps s with
      | some r => some r
      | none => if decide (h.sorus = 0) && !beatBefore s.now beat then some (stBadParam, 0) else none) = none := by
      rw [allowed]
      exact if_neg (by simp [ahead])
    rw [exec, execSnapshotAt]
    exact hosted_of_served served valid _
  case captured =>
    intro id x s found waits due
    have own : x.id = id := by simpa using List.find?_some found
    refine ⟨_, rfl, ?_, by simp, by simp⟩
    exact find_updBy_of_holds (p := fun x => x.id = id && !x.captured && beatLe x.beat s.now)
      (f := fun x => { x with captured := true, units := (x.pairs.map (unitsOf s)).flatten }) (fun _ => rfl) found
      (by simp [own, waits, due])
  case copied =>
    intro id a b n rest x s found units form
    have mem : (finishSnaps (copyUnit id (a, b, n) s)).mem = (storeBytes b (s.mem.read a n) s).mem := by
      have kept (u : State) : (finishSnaps u).mem = u.mem := by simp
      exact (kept _).trans rfl
    refine ⟨finishSnaps (copyUnit id (a, b, n) s), ?_, ?_⟩
    · simp only [exec, execSnapshotUnitCopy, found, units]
    · rw [mem]
      exact ⟨storeBytes_wf _ _ s form, (readByte_copy form).1, (readByte_copy form).2⟩

end Sys2Proof.Machine

end

section

/-! ## Preparing and ending sori: O47 -/

namespace Sys2Proof.Machine
open Sys2Proof.Claims

/-! ### Changes to a sorus -/

theorem State.sorus_of_sori {s t : State} (h : t.sori = s.sori) (id : Nat) : t.sorus id = s.sorus id := by rw [State.sorus, h, State.sorus]

theorem setSorus_known {id : Nat} {f : Sorus → Sorus} {x : Sorus} {s : State} (known : s.sorus id = some x) (sameId : ∀ y, (f y).id = y.id) :
    (setSorus id f s).sorus id = some (f x) := by
  rw [sorus_setSorus _ _ sameId, known, Option.map_some]

/-- What an abort after other work leaves, where that work keeps the sori, memory's cells and the jobs (R376, R381). -/
theorem abortSorus_after {id : Nat} {x : Sorus} {s t : State} (known : s.sorus id = some x) (notCommitted : x.state ≠ 3)
    (notAborted : x.state ≠ 4) (sori : t.sori = s.sori) (mem : t.mem = s.mem) (jobs : t.jobs = s.jobs) (pkg index status : Nat) :
    (abortSorus id pkg index status t).sorus id = some x.aborted ∧ (abortSorus id pkg index status t).mem.cells = s.mem.cells ∧
      (abortSorus id pkg index status t).jobs = s.jobs := by
  refine ⟨sorus_abortSorus ((State.sorus_of_sori sori id).trans known) notCommitted notAborted pkg index status, ?_, ?_⟩
  · simp [mem]
  · simp [jobs]

/-! ### Preparing -/

/-- A member that nothing stands in the way of prepares a sorus without commands and answers (R378). -/
theorem memberPrepare_empty {id : Nat} {x : Sorus} {s : State} (known : s.sorus id = some x) (preparing : x.state = 1) (plain : x.own = false)
    (nothing : x.staged = []) (silent : x.answers = []) (clock : s.beat.clkHold = false) (healthy : s.hlth.failed = false)
    (noUpdate : s.boot.activation = none) (noPause : s.boot.pauseUntil = none) :
    memberPrepare id s = answerCoord x stOk 0 (setSorus id (fun x => { x with state := 2, decided := if x.own then some true else none }) s) := by
  have starts : ¬ (decide (x.state ≠ 1) || answered s x) = true := by simp [preparing, answered, silent]
  have runs : ¬ (s.beat.clkHold || s.hlth.failed) = true := by simp [clock, healthy]
  have free : ¬ updateBlocks s x.commitBeat = true := by simp [updateBlocks, noUpdate, noPause]
  simp only [memberPrepare, known, nothing, plain]
  rw [if_neg starts, if_neg runs, if_neg free]
  rfl

/-! ### The coordinator -/

section
variable {id pkg : Nat} {x : Sorus} {s : State}

/-- An answer that the coordinator may still take (R378). -/
theorem awaits_answer (prepared : x.state = 2) (undecided : x.decided = none) (member : pkg ∈ x.members) (first : ∀ a ∈ x.answers, a.1 ≠ pkg) :
    ¬ (x.decided.isSome || (x.answers.any fun a => a.1 = pkg) || !x.members.contains pkg || (decide (x.state ≠ 1) && decide (x.state ≠ 2))) =
      true := by
  have fresh : (x.answers.any fun a => a.1 = pkg) = false := by
    rw [List.any_eq_false]
    exact fun a ha => by simpa using first a ha
  rw [fresh]
  simp [undecided, member, prepared]

/-- The last good answer before e - 4 decides the sorus (R378). -/
theorem takeAnswer_last {k : Nat} (known : s.sorus id = some x) (prepared : x.state = 2) (undecided : x.decided = none)
    (member : pkg ∈ x.members) (first : ∀ a ∈ x.answers, a.1 ≠ pkg) (all_ : ∀ m ∈ x.members, m = pkg ∨ ∃ a ∈ x.answers, a.1 = m)
    (inTime : beatBefore (beatAdd s.now 4) x.commitBeat = true) :
    takeAnswer id pkg stOk k s = setSorus id (fun x => { x with decided := some true })
      (sendDecision x true (setSorus id (fun y => { y with answers := x.answers ++ [(pkg, stOk, k)] }) s)) := by
  have every : (x.members.all fun m => (x.answers ++ [(pkg, stOk, k)]).any fun a => a.1 = m) = true := by
    rw [List.all_eq_true]
    intro m hm
    rcases all_ m hm with rfl | ⟨a, ha, rfl⟩
    · simp
    · exact List.any_eq_true.mpr ⟨a, List.mem_append_left _ ha, by simp⟩
  simp only [takeAnswer, known]
  rw [if_neg (awaits_answer prepared undecided member first), if_neg (not_not.mpr rfl)]
  have decides (n : Nat) (same : n = s.now) :
      ((x.members.all fun m => (x.answers ++ [(pkg, stOk, k)]).any fun a => a.1 = m) && beatBefore (beatAdd n 4) x.commitBeat) = true := by
    rw [every, Bool.true_and, same, inTime]
  exact if_pos (decides _ rfl)

/-- The first failed answer aborts the sorus (R378). -/
theorem takeAnswer_failed {st k : Nat} (known : s.sorus id = some x) (prepared : x.state = 2) (undecided : x.decided = none)
    (member : pkg ∈ x.members) (first : ∀ a ∈ x.answers, a.1 ≠ pkg) (failed : st ≠ stOk) :
    takeAnswer id pkg st k s = coordAbort x pkg k st s := by
  simp only [takeAnswer, known]
  rw [if_neg (awaits_answer prepared undecided member first), if_pos failed]

/-- At the deadline the coordinator aborts for the first member that has not answered (R378). -/
theorem prepareDeadline_missing (known : s.sorus id = some x) (own : x.coord = s.boot.pkg) (plain : x.own = false) (prepared : x.state = 2)
    (undecided : x.decided = none) (member : pkg ∈ x.members) (silent : ∀ a ∈ x.answers, a.1 ≠ pkg) :
    ∃ m, prepareDeadline id s = coordAbort x m 0 stBusy s := by
  have open_ : ¬ (x.decided.isSome || (decide (x.state ≠ 1) && decide (x.state ≠ 2))) = true := by simp [undecided, prepared]
  cases missing : x.members.find? fun m => !(x.answers.any fun a => a.1 = m) with
  | none =>
    have answers := List.find?_eq_none.mp missing pkg member
    exact absurd (by simpa using silent) answers
  | some m =>
    refine ⟨m, ?_⟩
    simp only [prepareDeadline, known, plain, missing]
    rw [if_neg open_, if_neg Bool.false_ne_true, if_pos own]

theorem coordAbort_aborted (known : s.sorus id = some x) (prepared : x.state = 2) (pkg index status : Nat) :
    (coordAbort x pkg index status s).sorus id = some x.aborted ∧ (coordAbort x pkg index status s).mem.cells = s.mem.cells ∧
      (coordAbort x pkg index status s).jobs = s.jobs := by
  obtain rfl := State.sorus_id known
  exact abortSorus_after known (by omega) (by omega) (by simp) (by simp) (by simp) pkg index status

end

/-! ### Decisions and ends -/

section
variable {id : Nat} {x : Sorus} {s : State}

/-- A decision that a prepared member has not had is heard (R378). -/
theorem hears_decision (prepared : x.state = 2) (plain : x.own = false) (undecided : x.decided = none) :
    ¬ (x.decided.isSome || x.own || (decide (x.state ≠ 1) && decide (x.state ≠ 2))) = true := by
  simp [prepared, plain, undecided]

/-- The host that asked for a commit hears of its beat (R381). -/
def answerCommit (x : Sorus) (u : State) : State :=
  (x.commitTag.map fun tag => finish x.session tag 0x0902 stOk 0 (leBytes 8 x.commitBeat ++ leBytes 8 0) u).getD u

theorem answerCommit_keeps (x : Sorus) (u : State) :
    (answerCommit x u).sori = u.sori ∧ (answerCommit x u).mem = u.mem ∧ (answerCommit x u).jobs = u.jobs := by
  unfold answerCommit
  cases x.commitTag <;> simp

/-- A decided sorus without commands takes effect at its beat (R377, R381). -/
theorem applySorus_empty (known : s.sorus id = some x) (prepared : x.state = 2) (decided : x.decided = some true) (nothing : x.staged = [])
    (certain : x.inDoubt = false) (due : beatBefore s.now x.commitBeat = false) :
    applySorus id s = answerCommit x (setSorus id (fun x => { x with state := 3, staged := [], inDoubt := false }) (dropReserved id s)) := by
  have applies : ¬ (decide (x.state ≠ 2) || decide (x.decided ≠ some true) || beatBefore s.now x.commitBeat) = true := by
    simp [prepared, decided, due]
  have noDoubt : recordDoubt x s = s := by rw [recordDoubt, certain, if_neg Bool.false_ne_true]
  simp only [applySorus, known]
  rw [if_neg applies, nothing, noDoubt]
  unfold answerCommit
  cases x.commitTag <;> rfl

/-- A reply's frames depend on the sessions, the beat and what has left (R355). -/
theorem finish_out {s u : State} (net : u.net = s.net) (out : u.out = s.out) (session tag op st d : Nat) (result : List Byte) :
    (finish session tag op st d result u).out = (finish session tag op st d result s).out := by
  unfold finish sendEntry State.session setSession
  dsimp only
  rw [net]
  split
  · exact out
  · split
    · simp only [emit, sendPort, out]
    · exact out

end

/-! ### Questions -/

/-- Every package that is asked gets the question (R379). -/
theorem mem_out_asked {ms : List Nat} {m : Nat} (s : State) (w : FabOut) (hm : m ∈ ms) :
    fabPacket s m 10 w ∈ (ms.foldl (fun s m => sendFab m 10 w s) s).out := by
  induction ms generalizing s with
  | nil => simp at hm
  | cons k ks ih =>
    rw [List.foldl_cons]
    obtain rfl | hm := List.mem_cons.mp hm
    · have grows : ∀ (u : State) (xs : List Nat), ∀ o ∈ u.out, o ∈ (xs.foldl (fun s m => sendFab m 10 w s) u).out := by
        intro u xs o ho
        exact List.foldlRecOn (motive := fun v : State => o ∈ v.out) _ _ ho fun v hv _ _ => List.mem_append_left _ hv
      exact grows _ ks _ (List.mem_append_right _ (List.mem_singleton.mpr rfl))
    · exact ih (sendFab k 10 w s) hm

/-- Settles O47: a sorus prepares, is decided, takes effect at its beat, times out, and ends a doubt. -/
theorem soriPrepareAndEnd : Obligations.SoriPrepareAndEnd := by
  refine ⟨?prepare, ?hostDenied, ?lastAnswer, ?failedAnswer, ?deadline, ?commit, ?abort, ?query, ?applied, ?early, ?openTimeout, ?notOpen,
    ?doubtEnds, ?doubtAsks⟩
  case prepare =>
    intro id coord beat x s known opened plain nothing silent healthy clock noUpdate noPause away
    obtain rfl := State.sorus_id known
    have preparing := setSorus_known (f := fun x => { x with state := 1, commitBeat := beat, coord := coord }) known fun _ => rfl
    have prepared := setSorus_known (f := fun x => { x with state := 2, decided := if x.own then some true else none }) preparing fun _ => rfl
    have run := memberPrepare_empty preparing rfl plain nothing silent clock healthy noUpdate noPause
    have takes : ¬ (s.hlth.failed || s.beat.clkHold) = true := by simp [healthy, clock]
    have fits : ¬ (decide (x.state ≠ 0) || x.own) = true := by simp [opened, plain]
    simp only [exec, execSorusPrepare, known]
    rw [if_neg takes, if_neg fits, run, answerCoord]
    refine ⟨_, _, congrArg Host.Outcome.next (if_neg away), setSorus_known prepared fun _ => rfl, rfl, rfl, rfl, ?_, rfl, rfl⟩
    exact if_neg (by simp [plain])
  case hostDenied =>
    intro h id coord beat e s served
    exact hosted_of_refused (ranges := fun _ _ => some (stDenied, 0)) served rfl (fun _ s => s)
  case lastAnswer =>
    intro id pkg k x s known own plain prepared undecided member first all_ inTime
    have takes : (decide (x.coord = s.boot.pkg) && !x.own) = true := by simp [own, plain]
    have noted := setSorus_known (f := fun y => { y with answers := x.answers ++ [(pkg, stOk, k)] }) known fun _ => rfl
    simp only [exec, execSorusPrepared, known]
    rw [if_pos takes, takeAnswer_last known prepared undecided member first all_ inTime]
    exact ⟨_, _, rfl, setSorus_known ((State.sorus_of_sori (by simp) id).trans noted) fun _ => rfl, rfl, prepared, by simp, by simp⟩
  case failedAnswer =>
    intro id pkg st k x s known own plain prepared undecided member first failed
    have takes : (decide (x.coord = s.boot.pkg) && !x.own) = true := by simp [own, plain]
    obtain ⟨sorus, cells, jobs⟩ := coordAbort_aborted known prepared pkg k st
    simp only [exec, execSorusPrepared, known]
    rw [if_pos takes, takeAnswer_failed known prepared undecided member first failed]
    exact ⟨_, _, rfl, sorus, rfl, rfl, cells, jobs⟩
  case deadline =>
    intro id m x s known own plain prepared undecided member silent due
    obtain ⟨k, eq⟩ := prepareDeadline_missing known own plain prepared undecided member silent
    obtain ⟨sorus, cells, jobs⟩ := coordAbort_aborted known prepared k 0 stBusy
    simp only [exec, execSorusPrepareDeadline, known, Option.any_some]
    rw [if_pos due, eq]
    exact ⟨_, _, rfl, sorus, rfl, rfl, cells, jobs⟩
  case commit =>
    intro id x s known prepared plain undecided
    simp only [exec, execSorusDecision, known]
    rw [if_neg (hears_decision prepared plain undecided)]
    exact (if_pos trivial).trans (if_pos prepared)
  case abort =>
    intro id x s known prepared plain undecided
    obtain ⟨sorus, cells, -⟩ := abortSorus_after (t := recordDoubt x s) known (by omega) (by omega) (by simp) (by simp) (by simp) x.coord 0
      stTxnAborted
    simp only [exec, execSorusDecision, known]
    rw [if_neg (hears_decision prepared plain undecided)]
    exact ⟨_, _, if_neg Bool.false_ne_true, sorus, rfl, cells⟩
  case query =>
    intro id pkg x d s known decided
    simp only [exec, execSorusDecisionQuery, known, Option.bind_some, decided]
  case applied =>
    intro id x s known prepared decided nothing certain due
    have eq := applySorus_empty known prepared decided nothing certain due
    obtain ⟨sori, mem, jobs⟩ := answerCommit_keeps x
      (setSorus id (fun x => { x with state := 3, staged := [], inDoubt := false }) (dropReserved id s))
    have ended := setSorus_known (f := fun x => { x with state := 3, staged := [], inDoubt := false })
      ((State.sorus_of_sori (t := dropReserved id s) (by simp) id).trans known) fun _ => rfl
    refine ⟨_, _, congrArg Host.Outcome.next eq, (State.sorus_of_sori sori id).trans ended, rfl, rfl, ?_, ?_, ?_⟩
    · rw [mem]
      simp
    · rw [jobs]
      simp
    · intro tag tagged
      rw [answerCommit, tagged]
      exact finish_out (by simp) (by simp) ..
  case early =>
    intro id x s known before
    have waits : (decide (x.state ≠ 2) || decide (x.decided ≠ some true) || beatBefore s.now x.commitBeat) = true := by simp [before]
    simp only [exec, execSorusCommitApply, applySorus, known]
    rw [if_pos waits]
  case openTimeout =>
    intro id x s known opened late
    have due : (decide (x.state = 0) && decide (x.openedAt + 10000000 ≤ s.beat.elapsed)) = true := by simp [opened, late]
    obtain ⟨sorus, cells, jobs⟩ := abortSorus_after known (by omega) (by omega) rfl rfl rfl s.boot.pkg 0 stTxnAborted
    simp only [exec, execSorusTimeout, known]
    rw [if_pos due]
    exact ⟨_, _, rfl, sorus, rfl, rfl, cells, jobs⟩
  case notOpen =>
    intro id x s known past
    simp only [exec, execSorusTimeout, known]
    rw [if_neg (by simp [past])]
  case doubtEnds =>
    intro id x s known prepared doubts undecided asked late
    have acts : ¬ (!x.inDoubt || x.decided.isSome || beatBefore s.now (beatAdd x.commitBeat 100000)) = true := by
      simp [doubts, undecided, late]
    obtain ⟨sorus, cells, jobs⟩ := abortSorus_after (t := recordDoubt x s) known (by omega) (by omega) (by simp) (by simp) (by simp) x.coord 0
      stTxnAborted
    simp only [exec, execSorusInDoubtTimeout, known]
    rw [if_neg acts, asked]
    exact ⟨_, _, rfl, sorus, rfl, rfl, cells, jobs⟩
  case doubtAsks =>
    intro id m x s known prepared doubts undecided notAsked member other late
    have acts : ¬ (!x.inDoubt || x.decided.isSome || beatBefore s.now (beatAdd x.commitBeat 100000)) = true := by
      simp [doubts, undecided, late]
    have others : m ∈ x.members.filter fun m => m ≠ s.boot.pkg := by simp [member, other]
    have asks : ¬ (x.asked || (x.members.filter fun m => m ≠ s.boot.pkg).isEmpty) = true := by
      simp only [notAsked, Bool.false_or, List.isEmpty_iff]
      exact List.ne_nil_of_mem others
    simp only [exec, execSorusInDoubtTimeout, known]
    rw [if_neg acts, if_neg asks]
    refine ⟨_, _, rfl, (State.sorus_of_sori ?_ id).trans (setSorus_known (f := fun x => { x with asked := true }) known fun _ => rfl), rfl,
      prepared, mem_out_asked (setSorus id (fun x => { x with asked := true }) s) (.askDecision id) others⟩
    exact foldl_keeps_sori (fun s m => sendFab m 10 (.askDecision id) s) (fun _ _ => rfl) _ _

end Sys2Proof.Machine

end
